-- ==== Sys2Proof/Word.lean ====
section
/-! DEFINITION. Bytes, byte strings and submission entries' plainest words. -/

namespace Sys2Proof

/-- One byte. -/
abbrev Byte := BitVec 8

/-- A byte string, lowest address first. -/
abbrev Bytes := List Byte

/-- The byte whose value is the low 8 bits of `n`. -/
def byteOf (n : Nat) : Byte := BitVec.ofNat 8 n

/-- The low `k` bytes of `n`, little-endian (spec/00, Notation, byte order). -/
def leBytes : Nat → Nat → Bytes
  | 0, _ => []
  | k + 1, n => byteOf n :: leBytes k (n / 256)

/-- The number a little-endian byte string spells. -/
def leNat : Bytes → Nat
  | [] => 0
  | b :: bs => b.toNat + 256 * leNat bs

/-- Bits `[lo + len - 1 : lo]` of `n`. -/
def bits (n lo len : Nat) : Nat := (n / 2 ^ lo) % 2 ^ len

/-- Bit `i` of `n`. -/
def bit (n i : Nat) : Bool := (n / 2 ^ i) % 2 == 1

/-- A flag as the number 0 or 1. -/
def b2n (b : Bool) : Nat := if b then 1 else 0

/-- A counter that holds at `top` (spec: "holds at"). -/
def satAdd (top n k : Nat) : Nat := min top (n + k)

end Sys2Proof
end

