-- ==== Sys2Proof/Machine/Wire.lean ====
section
/-! DEFINITION. What passes over the module's interfaces: status codes, submission entries, fault classes and reports. -/

namespace Sys2Proof

/-! ## ST codes (R70, R102) -/

namespace St
/-- ST_OK. -/
def ok : Nat := 0x0000
/-- ST_RESERVED_FIELD. -/
def reservedField : Nat := 0x0101
/-- ST_UNSUPPORTED. -/
def unsupported : Nat := 0x0102
/-- ST_BAD_OPCODE. -/
def badOpcode : Nat := 0x0103
/-- ST_ID_RANGE. -/
def idRange : Nat := 0x0104
/-- ST_BAD_LENGTH. -/
def badLength : Nat := 0x0110
/-- ST_BAD_ALIGN. -/
def badAlign : Nat := 0x0111
/-- ST_NO_OBJECT. -/
def noObject : Nat := 0x0112
/-- ST_HELD. -/
def held : Nat := 0x0113
/-- ST_READ_ONLY. -/
def readOnly : Nat := 0x0114
/-- ST_MEDIA_UNRECOVERED. -/
def mediaUnrecovered : Nat := 0x0115
/-- ST_RESULT_FULL. -/
def resultFull : Nat := 0x0120
/-- ST_STOPPED. -/
def stopped : Nat := 0x0121
/-- ST_BUSY. -/
def busy : Nat := 0x0122
/-- ST_VERSION. -/
def version : Nat := 0x0201
/-- ST_NO_HELLO. -/
def noHello : Nat := 0x0202
/-- ST_NEED_CRITICAL. -/
def needCritical : Nat := 0x0203
/-- ST_REPLAY. -/
def replay : Nat := 0x0204
/-- ST_BAD_CHECK. -/
def badCheck : Nat := 0x0205
/-- ST_NO_OWNER. -/
def noOwner : Nat := 0x0206
/-- ST_NO_KEY. -/
def noKey : Nat := 0x0207
/-- ST_LOCKED_OUT. -/
def lockedOut : Nat := 0x0208
/-- ST_BAD_DIGEST. -/
def badDigest : Nat := 0x0209
/-- ST_BAD_OBJECT. -/
def badObject : Nat := 0x020A
/-- ST_NO_SPACE. -/
def noSpace : Nat := 0x020B
/-- ST_ADDR_UNMAPPED. -/
def addrUnmapped : Nat := 0x0301
/-- ST_ADDR_DENIED. -/
def addrDenied : Nat := 0x0302
/-- ST_POISONED. -/
def poisoned : Nat := 0x0303
/-- ST_STEP_FAILED. -/
def stepFailed : Nat := 0x0304
/-- ST_CHAIN_RESERVE. -/
def chainReserve : Nat := 0x0401
/-- ST_SLOT_UNDERRUN. -/
def slotUnderrun : Nat := 0x0402
/-- ST_SLOT_OVERRUN. -/
def slotOverrun : Nat := 0x0403
/-- ST_BANK_OFF. -/
def bankOff : Nat := 0x0404
/-- ST_SINGULAR. -/
def singular : Nat := 0x0405
/-- ST_RESIDENT_FULL. -/
def residentFull : Nat := 0x0406
/-- ST_BLOCK_BUSY. -/
def blockBusy : Nat := 0x0601
/-- ST_NOT_ERASED. -/
def notErased : Nat := 0x0602
/-- ST_PEER_ABSENT. -/
def peerAbsent : Nat := 0x0901
/-- ST_PEER_REFUSED. -/
def peerRefused : Nat := 0x0902
end St

/-! ## Dies -/

/-- A die: CD0 and CD1 are the compute dies, HD the hub die (R4). -/
inductive Die where
  | cd0 | cd1 | hd
deriving DecidableEq, Repr

/-- The DIE byte of a fault record (R425). -/
def Die.code : Die → Nat
  | .cd0 => 0
  | .cd1 => 1
  | .hd => 2

/-- The compute die of cluster `g` (R4). -/
def dieOfCluster (g : Nat) : Die := if g < 64 then .cd0 else .cd1

/-! ## Submission entries -/

/-- A 64-byte submission entry (R71; standard commands use the same places, R54). -/
structure Sqe where
  opc : Nat := 0
  flags : Nat := 0
  cid : Nat := 0
  nsid : Nat := 0
  cdw2 : Nat := 0
  cdw3 : Nat := 0
  mptr : Nat := 0
  prp1 : Nat := 0
  prp2 : Nat := 0
  cdw10 : Nat := 0
  cdw11 : Nat := 0
  cdw12 : Nat := 0
  cdw13 : Nat := 0
  cdw14 : Nat := 0
  cdw15 : Nat := 0
deriving DecidableEq, Repr

/-- RESULT_ADDR of a vendor command (R71). -/
def Sqe.resultAddr (e : Sqe) : Nat := e.mptr
/-- IN_LEN of a vendor command (R71). -/
def Sqe.inLen (e : Sqe) : Nat := e.cdw10
/-- RES_LEN of a vendor command (R71). -/
def Sqe.resLen (e : Sqe) : Nat := e.cdw11
/-- OBJECT [15:0] of a vendor command (R71). -/
def Sqe.object (e : Sqe) : Nat := bits e.cdw12 0 16
/-- SESSION_VALID of a vendor command (R71). -/
def Sqe.sessionValid (e : Sqe) : Bool := bit e.cdw13 31
/-- Session ID of a vendor command (R71). -/
def Sqe.session (e : Sqe) : Nat := bits e.cdw13 0 24
/-- DEADLINE_US of a vendor command (R71). -/
def Sqe.deadline (e : Sqe) : Nat := e.cdw14
/-- CMD_DW of a vendor command (R71). -/
def Sqe.cmdDw (e : Sqe) : Nat := e.cdw15
/-- SLBA of an NVM command. -/
def Sqe.slba (e : Sqe) : Nat := e.cdw10 + e.cdw11 * 2 ^ 32
/-- Number of logical blocks of an NVM command (the field is one less). -/
def Sqe.nlb (e : Sqe) : Nat := bits e.cdw12 0 16 + 1
/-- Is the opcode one of the vendor set? (R55) -/
def Sqe.isVendor (e : Sqe) : Bool := decide (0x80 ≤ e.opc)
/-- The ordered mark (R63): CDW2 bit 0 of a vendor command, CDW13 bit 15 of a Read, Write, Write Zeroes or Dataset
Management. -/
def Sqe.ordered (e : Sqe) : Bool :=
  if e.isVendor then bit e.cdw2 0
  else (e.opc == 0x01 || e.opc == 0x02 || e.opc == 0x08 || e.opc == 0x09) && bit e.cdw13 15

/-! ## Fault classes and reports -/

/-- The severities of R422. -/
inductive Sev where
  | amber | vermilion | crimson
deriving DecidableEq, Repr

/-- SEVERITY of R425. -/
def Sev.code : Sev → Nat
  | .amber => 1
  | .vermilion => 2
  | .crimson => 3

/-- The fault classes of R426. -/
inductive FaultClass where
  | linkReplay | linkLost | hbmCorrected | hbmUncorrected | spParity | spResidentLost | cqPoison | sramCorrected
  | sramUncorrected | flashRetry | flashUnrecovered | channelTable | ctCodec | indexUnreadable | ingestFailed
  | targetLost | blockRetired | spanEngine | clusterLost
deriving DecidableEq, Repr

/-- CLASS of R426. -/
def FaultClass.code : FaultClass → Nat
  | .linkReplay => 0x0001
  | .linkLost => 0x0002
  | .hbmCorrected => 0x0003
  | .hbmUncorrected => 0x0004
  | .spParity => 0x0005
  | .spResidentLost => 0x0006
  | .cqPoison => 0x0007
  | .sramCorrected => 0x0008
  | .sramUncorrected => 0x0009
  | .flashRetry => 0x000A
  | .flashUnrecovered => 0x000B
  | .channelTable => 0x000C
  | .ctCodec => 0x000D
  | .indexUnreadable => 0x000E
  | .ingestFailed => 0x000F
  | .targetLost => 0x0010
  | .blockRetired => 0x0011
  | .spanEngine => 0x0012
  | .clusterLost => 0x0013

/-- The severity R426 gives each class. -/
def FaultClass.sev : FaultClass → Sev
  | .linkReplay => .amber
  | .linkLost => .crimson
  | .hbmCorrected => .amber
  | .hbmUncorrected => .vermilion
  | .spParity => .vermilion
  | .spResidentLost => .crimson
  | .cqPoison => .vermilion
  | .sramCorrected => .amber
  | .sramUncorrected => .vermilion
  | .flashRetry => .amber
  | .flashUnrecovered => .vermilion
  | .channelTable => .vermilion
  | .ctCodec => .vermilion
  | .indexUnreadable => .vermilion
  | .ingestFailed => .vermilion
  | .targetLost => .crimson
  | .blockRetired => .amber
  | .spanEngine => .crimson
  | .clusterLost => .crimson

/-- The tag of a report that has none (R425). -/
def noTag : Nat := 0xFFFFFF

/-- One report to a fault concentrator (R427): what R425 and R426 put into the record it opens. -/
structure Report where
  cls : FaultClass
  source : Nat
  /-- The reporter's bit of PARTNERS (R425). -/
  partner : Nat := 16
  tag : Nat := noTag
  addr : Nat := 0
  st : Nat := 0
  aux : Nat := 0
deriving DecidableEq, Repr

/-- PARTNERS bit of a reporter in cluster `g` (R425): its region. -/
def partnerOfCluster (g : Nat) : Nat := g / 8
/-- PARTNERS bit of HD's blocks. -/
def partnerHd : Nat := 16
/-- PARTNERS bit of the HBM controllers and update units. -/
def partnerHbm : Nat := 17
/-- PARTNERS bit of the die-link ports. -/
def partnerLink : Nat := 18

/-- A link of the fabric (R26, R29), numbered as the SOURCE of R426 does: die links 0 to 2, network links by die. -/
inductive LinkId where
  | dieLink (k : Fin 3)
  | netLink (d : Die) (n : Nat)
deriving DecidableEq, Repr

/-- The number of a link in the model's tables. -/
def LinkId.key : LinkId → Nat
  | .dieLink k => k.val
  | .netLink d n => 16 + 3 * n + d.code

/-- SOURCE of a link's fault records (R426). -/
def LinkId.source : LinkId → Nat
  | .dieLink k => k.val
  | .netLink _ n => 16 + n

/-! ## Steps of a steward core (R193): what the RISC-V standard makes of an instruction (log 10) -/

/-- A register an ordinary instruction writes. -/
inductive CoreSet where
  | x (r : Fin 32) (v : Nat)
  | f (r : Fin 32) (v : Nat)
  | v (r : Fin 32) (n : Nat)
  | fcsr (v : Nat)
  | vtype (v : Nat)
  | vl (v : Nat)
  | vstart (v : Nat)
  | vxrm (v : Nat)
  | vxsat (v : Nat)
deriving DecidableEq, Repr

/-- Where a load puts its value: an integer register, a floating-point one, bytes of vector registers (for each piece the register
and the byte in it), or the fetch of an instruction. -/
inductive LoadDest where
  | x (r : Fin 32) (signed : Bool)
  | f (r : Fin 32)
  | v (dst : List (Fin 32 × Nat))
  | fetch
deriving DecidableEq, Repr

/-- The operation of an AMO. -/
inductive AmoOp where
  | swap | add | xor | and | or | min | max | minu | maxu
deriving DecidableEq, Repr

/-- A load of 32 or 16 bits (the C extension has no other), or a load-reserved. -/
inductive LoadKind where
  | plain (rvc : Bool)
  | reserve
deriving DecidableEq, Repr

/-- A store of 32 or 16 bits, a store-conditional, or an AMO with its operand. -/
inductive StoreKind where
  | plain (rvc : Bool)
  | sc (rd : Fin 32)
  | amo (op : AmoOp) (rd : Fin 32) (v : Nat)
deriving DecidableEq, Repr

/-- A register of PCI configuration space of which the spec says something (R53, R84). -/
inductive CfgReg where
  | vendorId | subsystemVendorId
  | deviceCap | deviceCtl | deviceCap2 | deviceCtl2
  | linkCap | linkCtl | linkStatus
  | aerCtl
deriving DecidableEq, Repr

/-- Who makes an access to the module address space (R32). -/
inductive Requester where
  | keeper
  | mediaRom
  | steward (g : Fin 128)
  /-- Work that a core of the cluster has issued, for a task with these grants: they stay the issuer's whatever runs there now. -/
  | task (g : Fin 128) (grants : List (Nat × Nat))
  | mover (g : Fin 128)
  | update (u : Fin 16)
deriving DecidableEq, Repr

/-! ## What the data-plane keeper and a model's program bring -/

/-- Places in HBM the keeper gives a task: the program's code, the argument block, the result staging, and the ranges of the
objects its command names (R343, R353). -/
structure Alloc where
  code : Nat
  arg : Nat
  res : Nat
  grants : List (Nat × Nat)
  /-- Of a GENERATE with SPECULATE: the place of the draft's private KV (R319). -/
  draft : Nat := 0
deriving DecidableEq, Repr

/-- What the clusters computed in a step of a model (R314, R317, R323; log 27): FP32 logits of the root position; the draft's
chains of tokens, and the target's logits at each of their nodes; the pooled vectors or scores of the step's items; the places of new
directory chunks. -/
structure StepData where
  logits : List Nat := []
  chains : List (List Nat) := []
  nodes : List (List (List Nat)) := []
  vectors : List (List Nat) := []
  chunks : List Nat := []
deriving DecidableEq, Repr

/-- A checkpoint of a trainable tensor (R338): the namespace extent it goes to; STATES, COUNT, STEP_NO, where the master and state parts lie;
the erase units for the units it commits and the LBAs of merged units that cannot be decoded. -/
structure Ckpt where
  nsid : Nat
  slba : Nat
  states : Nat
  count : Nat
  stepNo : Nat
  master : Nat
  state : Nat
  eus : List Nat
  lost : List Nat
deriving DecidableEq, Repr

/-- A call of the runtime library by a program on a steward core (R327, R338, R339). -/
inductive Service where
  /-- The tuning allocation: master elements, state tensors, and the place the keeper chose. -/
  | tuneAlloc (elems states at_ : Nat)
  /-- Free a tuning tensor. -/
  | tuneFree (a : Nat)
  | checkpoint (c : Ckpt)
  /-- factor or factor_retry on the n × n matrix at `a` with row stride `lda`; the workspace and the result record. -/
  | factor (retry : Bool) (a n lda ws rec : Nat)
deriving DecidableEq, Repr

/-- An instruction other than a memory access. -/
inductive RvStep where
  /-- Register results, the target of a taken branch or jump, and whether the instruction is one of 16 bits. -/
  | plain (sets : List CoreSet) (target : Option Nat) (rvc : Bool)
  /-- CSRRW, CSRRS, CSRRC (0, 1, 2) of CSR `n` with operand `v`; `write` false for the forms that only read. -/
  | csr (rd : Fin 32) (n : Nat) (op : Fin 3) (v : Nat) (write : Bool)
  /-- An exception of the standard that no command of the table raises. -/
  | exception (cause val : Nat)
  /-- Return from a trap. -/
  | mret
  /-- fence.i: code written before it is seen by the fetches after it. -/
  | fenceI
  /-- An instruction word with one of the two custom opcodes of R196; what a step.mark brings to the barrier. -/
  | xlz (w : Nat) (d : StepData)
  /-- The ecall with which the program calls the runtime library. -/
  | service (c : Service)
deriving DecidableEq, Repr

/-! ## What the media bring (R369, R376) -/

/-- How a media operation ended (log 7): MRESULT 0 to 3; whether each copy of the page tag passed its CRC; the bytes of what was
read that came wrong, with the bits that flipped; which of the codewords S1 or the keeper cannot decode; the largest syndrome
weight. -/
structure MediaRes where
  result : Fin 4 := 0
  tag0 : Bool := true
  tag1 : Bool := true
  flips : List (Nat × Byte) := []
  bad : Nat := 0
  weight : Nat := 0
deriving DecidableEq, Repr

/-- What arrives at the merge-select unit (R173-R175): the next candidate record of a channel, or a 32-byte merge entry of another
stream; an entry whose ID is the sentinel of R133 and that carries CLOSE only ends its stream. -/
inductive Arrival where
  | channel (ch : Fin 32)
  | entry (b : Bytes)
deriving DecidableEq, Repr

/-- Where a merge stream comes from (R173, R175). -/
inductive StreamKind where
  | region
  | sideScan
  | peer (n : Nat)
deriving DecidableEq, Repr

/-- Who issues a selection descriptor (R159): a steward core by SEL_ISSUE, or keeper firmware to a unit. -/
inductive SelIssuer where
  | core (g : Fin 128)
  | keeper (u : Fin 16) (d : Bytes)
deriving DecidableEq, Repr

/-- A STEP_MARK word: the core that executes it, its funct7 and its registers (R196). -/
structure MarkWord where
  g : Fin 128
  f7 : Fin 128 := 0
  rd : Fin 32 := 0
  rs1 : Fin 32 := 0
  rs2 : Fin 32 := 0
deriving DecidableEq, Repr

/-- A gang that starts its next operation: one of its units, and whether the streams in progress have fed their last rows (R189). -/
structure GangTurn where
  unit : Fin 4
  fed : Bool
deriving DecidableEq, Repr

/-- What the keeper marks of a bank: its RESIDENT regions, a bit each, and the address of each one's copy (R261). -/
structure ResidentMark where
  regions : Nat
  copies : List Nat
deriving DecidableEq, Repr

/-- Where the keeper puts a session's KV record and its first directory chunk (R279, R297). -/
structure KvPlace where
  root : Nat
  chunk : Nat
deriving DecidableEq, Repr

/-- What the training of a host port ended with: the function, the speed code, the lanes, Flit mode (R50). -/
structure TrainedLink where
  fn : Fin 2
  speed : Nat
  width : Nat
  flit : Bool
deriving DecidableEq, Repr

/-- Where a merge entry comes from (R174): a channel's crossing queue, or a stream of an open merge, with its 32 bytes. -/
inductive MergeSource where
  | chan (ch : Fin 32)
  /-- An entry of a stream for an instance; the sender tells the side-list scan, a region selection unit and a span peer apart. -/
  | stream (i : Nat) (k : StreamKind) (b : Bytes)
deriving DecidableEq, Repr

/-- What an SPDM frame of bring-up leads to (R407): it goes on, fails, or completes with the digest of the partner's certificate
key. -/
inductive SpdmResult where
  | goesOn
  | fails
  | completes (digest : Nat)
deriving DecidableEq, Repr

/-- A block that a program commits and what the runtime's conversion routines store for it (R227, R333, R336): the FP32 values of its 32 new master
elements and of those of each state tensor, none where the program has stored a part itself; whether master elements are rounded
stochastically. -/
structure UpdOut where
  block : Nat
  random : Bool := false
  master : List Nat := []
  states : List (List Nat) := []
deriving DecidableEq, Repr

/-- How the program on an update unit ends (R337): it returns, returns after the factor routine on the matrix of its job (R333, R339), meets
an uncorrectable HBM read, or fails with an ST code. -/
inductive SliceEnd where
  | returned
  | factored (retry : Bool) (n lda : Nat)
  | uncorrectable
  | fails (st : Nat)
deriving DecidableEq, Repr

/-- Who reads or writes a register or a memory address (R32, R33): a unit of the module by module address, or the host at an offset
of one of the three BARs of a function. -/
inductive BusReq where
  | unit (r : Requester)
  | host (fn : Fin 2) (bar : Fin 3)
  | config (fn : Fin 2) (r : CfgReg)
deriving DecidableEq, Repr

/-! ## The body of a model (R220, R226, R304) -/

/-- A LUT gang tile of a weight body: the offset of its first codebook line, its sub-tiles, and the column group it belongs to, as the
model's program numbers them. -/
structure LutTile where
  line : Nat
  subs : Nat
  group : Nat
deriving DecidableEq, Repr

/-- The layout of a weight body that the model's program expects (R304), as far as installation checks it: the offsets of static scale
records, with the conversion words of the stages that read them; and its LUT tiles. -/
structure BodyLayout where
  statics : List (Nat × Nat) := []
  tiles : List LutTile := []
deriving DecidableEq, Repr

end Sys2Proof
end

