-- ==== Sys2Proof/Syntax.lean ====
section
/-! DEFINITION. The commands of the block: one constructor per row of spec/opcode_table.json. Unit numbers are Fin, field
values Nat (WellFormed.lean holds their widths); what the environment decides (a CRC result, a sensor value, the bytes of a
host buffer) is an operand. -/

namespace Sys2Proof


/-- The commands of the opcode table, one constructor per row. -/
inductive Instr where
  /-- REGISTER_WRITE (R14). A write to a register that has no row of its own updates its RW fields, clears W1C bits
  and ignores reserved or RO fields. -/
  | registerWrite (q : BusReq) (a n v : Nat)
  /-- LINK_FLIT_RECEIVE (R26). A flit arrives on a die link or network-on-chip link and its CRC is checked. -/
  | linkFlitReceive (l : LinkId) (far ok : Bool)
  /-- LINK_RETRAIN_DONE (R26). Retraining of a link ends within 1 ms (10 µs for a network link) with success or
  failure. -/
  | linkRetrainDone (l : LinkId) (d : Die) (ok : Bool)
  /-- BUS_ACCESS (R32). A requester accesses a module address and is answered with data or with a bus error for an
  unmapped, unpopulated or denied address. -/
  | busAccess (q : BusReq) (a n : Nat) (w : Option Bytes)
  /-- LOCAL_COUNT_LO_READ (R40). A read of LOCAL_COUNT_LO returns the low count bits and latches the high bits into
  COUNT_HI. -/
  | localCountLoRead (d : Die) (whole : Bool)
  /-- CQ_WRITE (R41). The write side of a crossing queue packs one narrow write word into the current read word. -/
  | cqWrite (q : Fin 64) (w : Bytes) (bad reset : Bool)
  /-- CQ_FLUSH (R42). A flush pads the part-packed word with zeros, tags its valid byte count and completes it. -/
  | cqFlush (q : Fin 64) (reset : Bool)
  /-- CQ_WORD_READABLE (R46). A completed or flushed word becomes readable 3 read-side cycles later and the fill count
  rises. -/
  | cqWordReadable (q : Fin 64) (n : Nat)
  /-- CQ_READ (R43). The read side takes one 64-byte word with its sideband from the crossing queue. -/
  | cqRead (q : Fin 64) (reset : Bool)
  /-- CQ_FREE_VISIBLE (R45). In the third write-side cycle after a read, the write side sees the freed word and FULL
  clears. -/
  | cqFreeVisible (q : Fin 64)
  /-- CQ_CTRL_FLUSH (R42). Writing FLUSH in CQ_CTRL requests a flush that acts on the write side 3 write-side cycles
  later. -/
  | cqCtrlFlush (q : Fin 64)
  /-- CQ_RESET (R49). Writing RESET in CQ_CTRL discards every word and zeroes the fill count and FULL. -/
  | cqReset (q : Fin 64)
  /-- CQ_CLR_COUNTS (R49). Writing CLR_COUNTS in CQ_CTRL clears CQ_COUNTS. -/
  | cqClrCounts (q : Fin 64)
  /-- CQ_THRESH_LEVEL_WRITE (R47). A write of THRESH_LEVEL sets the level, ignores values 65 to 127 and raises no
  interrupt. -/
  | cqThreshLevelWrite (q : Fin 64) (v : Nat)
  /-- PERST_DEASSERT (R52). Deassertion of PERST# starts link training and configuration-space service, and on Ebony
  exit starts the boot. -/
  | perstDeassert (fn : Fin 2)
  /-- LINK_DOWN (R68). A host link-down resets the controller and the function's host mailbox. -/
  | linkDown (fn : Fin 2)
  /-- HOT_RESET (R68). A hot reset resets the controller and the function's host mailbox. -/
  | hotReset (fn : Fin 2)
  /-- FUNCTION_LEVEL_RESET (R68). An FLR resets the controller and the function's host mailbox. -/
  | functionLevelReset (fn : Fin 2)
  /-- NVM_SUBSYSTEM_RESET (R68). An NVM Subsystem Reset resets both controllers. -/
  | nvmSubsystemReset
  /-- CC_EN_CLEAR (R68). A CC.EN transition from 1 to 0 resets the controller without posting completions. -/
  | ccEnClear (fn : Fin 2)
  /-- CONTROLLER_RESET_DONE (R68). Once the stopped commands reach their boundaries, the I/O queues are deleted,
  tracker entries are freed and CSTS.RDY reaches 0. -/
  | controllerResetDone (fn : Fin 2)
  /-- SQ_TAIL_DOORBELL (R60). A write to an SQ tail doorbell makes entries available for fetch and wakes the module
  from a non-operational state. -/
  | sqTailDoorbell (fn : Fin 2) (q v : Nat)
  /-- CQ_HEAD_DOORBELL (R62). A write to a CQ head doorbell frees CQ slots so that waiting completions can be posted. -/
  | cqHeadDoorbell (fn : Fin 2) (q v : Nat)
  /-- COMMAND_FETCH (R61). The controller fetches commands by round robin and gives each a request-tracker entry,
  stopping when the share is exhausted or an ordered command holds the SQ. -/
  | commandFetch (fn : Fin 2) (q : Nat) (cmds : List (Nat × Sqe))
  /-- COMMAND_START (R63). A fetched command starts once the ordering rules allow it. -/
  | commandStart (tag : Nat)
  /-- INVALID_COMMAND_OPCODE (R55). A command with an unsupported opcode completes with Invalid Command Opcode and
  ST_UNSUPPORTED. -/
  | invalidCommandOpcode (fn : Fin 2) (tag : Option Nat) (e : Sqe)
  /-- DELETE_IO_SQ (R67). Deleting an I/O SQ stops fetching and aborts or stops the queue's commands. -/
  | deleteIoSq (fn : Fin 2) (e : Sqe)
  /-- DELETE_IO_SQ_DONE (R67). Delete I/O SQ completes once every fetched command of the queue has been completed. -/
  | deleteIoSqDone (fn : Fin 2) (q : Nat)
  /-- CREATE_IO_SQ (R59). Creates an I/O submission queue, and is refused while the module is Held. -/
  | createIoSq (fn : Fin 2) (e : Sqe)
  /-- DELETE_IO_CQ (R59). Deletes an I/O completion queue. -/
  | deleteIoCq (fn : Fin 2) (e : Sqe)
  /-- CREATE_IO_CQ (R59). Creates an I/O completion queue, and refuses vector 1 and out-of-range vectors. -/
  | createIoCq (fn : Fin 2) (e : Sqe)
  /-- IDENTIFY (R56). Returns the Identify data. -/
  | identify (fn : Fin 2) (e : Sqe)
  /-- ABORT (R66). Completes successfully with Dword 0 bit 0 set and never aborts any command. -/
  | abort (fn : Fin 2) (e : Sqe)
  /-- SET_FEATURES (R57). Sets a supported feature other than Timestamp and Power Management. -/
  | setFeatures (fn : Fin 2) (e : Sqe)
  /-- SET_FEATURES_TIMESTAMP (R39). Set Features Timestamp records the pair of host time and HD local count. -/
  | setFeaturesTimestamp (fn : Fin 2) (e : Sqe) (d : Bytes)
  /-- SET_FEATURES_POWER_MANAGEMENT (R446). Sets the controller's NVMe power state as an input to the power manager. -/
  | setFeaturesPowerManagement (fn : Fin 2) (e : Sqe)
  /-- GET_FEATURES (R57). Returns a supported feature value. -/
  | getFeatures (fn : Fin 2) (e : Sqe)
  /-- GET_LOG_PAGE (R57). Returns one of the supported log pages. -/
  | getLogPage (fn : Fin 2) (e : Sqe)
  /-- ASYNCHRONOUS_EVENT_REQUEST (R60). Queues an asynchronous event request that waits without blocking later admin
  commands. -/
  | asynchronousEventRequest (fn : Fin 2) (e : Sqe)
  /-- NAMESPACE_MANAGEMENT (R54). Creates or deletes a namespace within the 128-namespace limit. -/
  | namespaceManagement (fn : Fin 2) (e : Sqe) (nsze ncap : Nat)
  /-- NAMESPACE_ATTACHMENT (R54). Attaches a namespace to a controller or detaches it. -/
  | namespaceAttachment (fn : Fin 2) (e : Sqe) (l : List Nat)
  /-- FORMAT_NVM (R399). Formats a namespace by deallocation, secure discard or crypto erase as its SES selects. -/
  | formatNvm (fn : Fin 2) (e : Sqe) (eus bad : List Nat)
  /-- NVME_SANITIZE (R400). The NVMe Sanitize command starts a block erase or crypto erase of the whole module. -/
  | nvmeSanitize (fn : Fin 2) (e : Sqe)
  /-- FLUSH (R56). Completes once every earlier Write and Write Zeroes of its SQ has completed. -/
  | flush (tag : Nat)
  /-- WRITE (R385). Accepts write data into the protected write buffer and commits it granule by granule. -/
  | write (tag : Nat) (data : Bytes) (granules eus lost : List Nat)
  /-- READ (R391). Reads logical units from the write buffer or from their slots, failing on unrecoverable sectors. -/
  | read (tag : Nat) (lost retried dst : List Nat)
  /-- WRITE_ZEROES (R397). Unmaps the whole units it covers and merges zeros into partly covered units. -/
  | writeZeroes (tag : Nat) (eus lost : List Nat)
  /-- DATASET_MANAGEMENT (R397). A deallocation unmaps the whole units inside its ranges. -/
  | datasetManagement (tag : Nat) (data : Bytes) (eus lost : List Nat)
  /-- SECURE_DISCARD (R398). A deallocation with SECURE unmaps the ranges and erases every erase unit that holds
  copies of them. -/
  | secureDiscard (tag : Nat) (data : Bytes) (eus lost bad : List Nat)
  /-- VERIFY (R64). Verifies that the named LBAs can be read. -/
  | verify (tag : Nat) (lost retried : List Nat)
  /-- INDEX_QUERY (R141). Admits a vector query against an index with a snapshot and starts the coarse step and list
  jobs. -/
  | indexQuery (tag : Nat) (d : Bytes) (inst base : Nat) (miss : Bool)
  /-- INDEX_INSERT (R146). Assigns inserted vectors to lists, appends them to the side list and commits them
  atomically. -/
  | indexInsert (tag : Nat) (d : Bytes)
  /-- INDEX_DELETE (R146). Appends delete entries to the side list and commits them atomically. -/
  | indexDelete (tag : Nat) (d : Bytes)
  /-- INDEX_WRITE_ROOM (R147). A waiting INDEX_INSERT or INDEX_DELETE proceeds once folds and trimming make room in
  the side list. -/
  | indexWriteRoom (tag : Nat)
  /-- SCAN (R130). Splits the extents into segments and admits channel jobs to scan them. -/
  | scan (tag : Nat) (d : Bytes) (inst base : Nat)
  /-- EMBED (R322). Encodes items and embeds or reranks them with the named or bound model. -/
  | embed (tag : Nat) (d : Bytes) (a : Alloc)
  /-- GENERATE (R313). Admits a token generation on a decoder model, optionally on a session. -/
  | generate (tag : Nat) (d : Bytes) (a : Alloc)
  /-- SESSION_OPEN (R297). SESSION_CTL OPEN takes the FREE session freed longest ago and makes it ACTIVE. -/
  | sessionOpen (tag : Nat) (p : KvPlace)
  /-- SESSION_PARK (R297). SESSION_CTL PARK moves the session to PARKED in T1 or starts storing it to T2. -/
  | sessionPark (tag : Nat)
  /-- SESSION_RESUME (R297). SESSION_CTL RESUME makes the session ACTIVE, reading it back from T2 if it is COLD. -/
  | sessionResume (tag : Nat)
  /-- SESSION_CLOSE (R297). SESSION_CTL CLOSE frees the session. -/
  | sessionClose (tag : Nat)
  /-- RUN (R352). Admits an Efxifel program as a task on the named partition. -/
  | run (tag : Nat) (d : Bytes) (a : Alloc)
  /-- RESULT_HEADER_TIMER (R78). 1 ms after the last update, with results waiting, the result-area header is written
  again. -/
  | resultHeaderTimer (tag : Nat)
  /-- MB_REQ_LEN_WRITE (R82). A write of MB_REQ_LEN in IDLE sets the request length and enters FILLING, and otherwise
  sets SEQ_ERR. -/
  | mbReqLenWrite (fn : Fin 2) (wide : Bool) (v : Nat)
  /-- MB_DATA_IN_WRITE (R82). A write of MB_DATA_IN appends 8 request bytes in FILLING, or sets OVERFLOW or SEQ_ERR. -/
  | mbDataInWrite (fn : Fin 2) (wide : Bool) (v : Nat)
  /-- MB_DATA_OUT_READ (R82). A read of MB_DATA_OUT returns the next 8 response bytes and advances OUT_WORDS. -/
  | mbDataOutRead (fn : Fin 2) (wide : Bool)
  /-- MB_SEND (R82). SEND submits the filled request and the mailbox enters BUSY. -/
  | mbSend (fn : Fin 2)
  /-- MB_RELEASE (R82). RELEASE in RESPONSE returns the mailbox to IDLE. -/
  | mbRelease (fn : Fin 2)
  /-- MB_ABANDON (R82). ABANDON discards any part-written request and any unread response and returns the mailbox to
  IDLE. -/
  | mbAbandon (fn : Fin 2)
  /-- MB_RESPONSE_READY (R82). The keeper places a response, the mailbox enters RESPONSE and vector 1 is signalled if
  enabled. -/
  | mbResponseReady (mb : Fin 3)
  /-- MCTP_AMP_MESSAGE (R84). A vendor-defined MCTP message carrying an AMP request arrives on the management mailbox. -/
  | mctpAmpMessage (ep : Nat) (body : Bytes)
  /-- MGMT_EVENT_NOTICE (R85). An event notice is sent to the management endpoint when its queue is non-empty, at most
  once per 100 ms. -/
  | mgmtEventNotice
  /-- HELLO (R88). Negotiates the protocol version and exchanges capabilities on a mailbox. -/
  | hello (mb : Fin 3)
  /-- AMP_STATUS (R497). Returns the mailbox's protocol and key status. -/
  | ampStatus (mb : Fin 3)
  /-- KEY_AGREE (R467). Runs the ECDH exchange that sets the mailbox check key, and with CLAIM claims an unowned
  module. -/
  | keyAgree (mb : Fin 3)
  /-- LOCKOUT_EXPIRY (R93). The lockout of critical messages on a mailbox ends 1 s after eight bad checks. -/
  | lockoutExpiry (mb : Fin 3)
  /-- EVENT_READ (R100). Removes and returns the oldest events of the mailbox's queue. -/
  | eventRead (mb : Fin 3)
  /-- OP_STATUS (R497). Returns the state and progress of a long operation. -/
  | opStatus (mb : Fin 3)
  /-- CONFIG_READ (R472). Returns the stored configuration record. -/
  | configRead (mb : Fin 3)
  /-- CONFIG_WRITE (R472). Writes a signed configuration record, and leaves Held when its cause is removed. -/
  | configWrite (mb : Fin 3) (lost : List Nat) (places : List (Nat × List (Nat × Nat) × List Nat))
  /-- EVENT_MASK (R100). Replaces the mailbox's event class mask. -/
  | eventMask (mb : Fin 3)
  /-- TIME_READ (R497). Returns the host-time pair and the HD local count. -/
  | timeRead (mb : Fin 3)
  /-- OBJECT_INSTALL (R98). Starts installing an object as a long operation. -/
  | objectInstall (mb : Fin 3)
  /-- OBJECT_INSTALL_DONE (R98). The installation finishes reading and checking the object, switches it atomically or
  fails, and posts OP_DONE. -/
  | objectInstallDone (op : Nat) (lost : List Nat) (body : BodyLayout) (regions : List (Nat × Nat)) (space : List Nat)
  /-- OBJECT_REMOVE (R98). Removes an installed object from admission at once. -/
  | objectRemove (mb : Fin 3)
  /-- OBJECT_LIST (R497). Lists installed objects of a class. -/
  | objectList (mb : Fin 3)
  /-- INDEX_CREATE (R134). Creates an untrained index and reserves its flash and HBM space. -/
  | indexCreate (mb : Fin 3)
  /-- INDEX_DROP (R157). Removes an index from admission at once and stops its fold or training. -/
  | indexDrop (mb : Fin 3)
  /-- INDEX_TRAIN (R155). Starts training of an empty index as a long operation. -/
  | indexTrain (mb : Fin 3)
  /-- INDEX_TRAIN_DONE (R155). Training ends, and its tables switch in or the previous training stands. -/
  | indexTrainDone (ix : Fin 256) (lost : List Nat)
  /-- INDEX_FOLD (R151). Starts a fold of an index, optionally a reclustering one, as a long operation. -/
  | indexFold (mb : Fin 3)
  /-- FOLD_SWITCH (R150). When the new root record is durable, the index's current version becomes F′ and the fold
  ends. -/
  | foldSwitch (ix : Fin 256) (eus lost : List Nat)
  /-- INDEX_BIND (R153). Binds a namespace to an index and an embedding model, or unbinds it. -/
  | indexBind (mb : Fin 3)
  /-- INDEX_STATS (R158). Returns the counters of an index. -/
  | indexStats (mb : Fin 3)
  /-- INGEST_WINDOW_PROCESS (R154). A pending ingest window is read, embedded and committed as an insert or a delete. -/
  | ingestWindowProcess (ok : Bool) (emb : Bytes)
  /-- PART_SET (R345). Creates, changes or deletes a partition. -/
  | partSet (mb : Fin 3)
  /-- PART_READ (R360). Returns a partition's settings and statistics. -/
  | partRead (mb : Fin 3)
  /-- POWER_SET (R454). Sets or releases the AMP power target, and responds once the state has been entered. -/
  | powerSet (mb : Fin 3)
  /-- POWER_READ (R454). Returns the power, clock and peak-window state. -/
  | powerRead (mb : Fin 3)
  /-- WRITE_GOVERNOR (R453). Arms or disarms the write-rate governor. -/
  | writeGovernor (mb : Fin 3)
  /-- FAULT_READ (R430). Returns fault records from the fault log. -/
  | faultRead (mb : Fin 3)
  /-- FAULT_ACK (R430). Removes fault records up to a given number. -/
  | faultAck (mb : Fin 3)
  /-- SCRUB_RANGE (R434). Starts a scrub of an HBM, scratchpad or flash range as a long operation. -/
  | scrubRange (mb : Fin 3)
  /-- SCRUB_DONE (R436). A scrub ends, its summary is kept and OP_DONE is posted. -/
  | scrubDone (op : Nat) (ok bad eus : List Nat)
  /-- RETIRE (R437). Retires an HBM row, a scratchpad bank or a flash block. -/
  | retire (mb : Fin 3) (spare : Bool)
  /-- OWNER_SET (R469). Transfers ownership to a new owner key, or releases ownership with a crypto erase. -/
  | ownerSet (mb : Fin 3)
  /-- OWNER_RELEASE_RESTART (R469). 100 ms after an OWNER_SET with RELEASE responds, the module restarts. -/
  | ownerReleaseRestart
  /-- NS_KEY_SET (R477). Unwraps and installs an owner-chosen namespace key. -/
  | nsKeySet (mb : Fin 3)
  /-- CRYPTO_ERASE (R400). Replaces a namespace key, destroys the old one and unmaps the namespace. -/
  | cryptoErase (mb : Fin 3)
  /-- SANITIZE (R400). The AMP SANITIZE message starts a block erase or crypto erase as a long operation. -/
  | sanitize (mb : Fin 3)
  /-- SANITIZE_DONE (R400). A sanitize ends, having dropped indexes, removed objects and freed sessions. -/
  | sanitizeDone (bad : List Nat)
  /-- FW_STAGE (R464). Appends a chunk of a firmware image to the staging buffer. -/
  | fwStage (mb : Fin 3)
  /-- FW_VERIFY (R465). Starts verifying the staged image. -/
  | fwVerify (mb : Fin 3)
  /-- FW_VERIFY_DONE (R465). Verification of the staged image ends with its status. -/
  | fwVerifyDone
  /-- FW_COMMIT (R465). Starts erasing the firmware slot and writing the verified image to it. -/
  | fwCommit (mb : Fin 3)
  /-- FW_COMMIT_DONE (R465). The image has been written and read back, and OP_DONE is posted. -/
  | fwCommitDone (ok : Bool)
  /-- RECOVERY_REBOOT (R466). 100 ms after a successful FW_COMMIT in recovery mode, the ROM boots again. -/
  | recoveryReboot
  /-- SPAN_CONFIG (R416). Sets the span number, ports, timers, shared namespaces and shard tables. -/
  | spanConfig (mb : Fin 3)
  /-- SPAN_STATUS (R418). Returns the states of ports and peers. -/
  | spanStatus (mb : Fin 3)
  /-- SPAN_PEER_SET (R417). Replaces the set of permitted peers, and withdrawn peers become REFUSED. -/
  | spanPeerSet (mb : Fin 3)
  /-- UNLISTED_AMP_OPCODE (R95). An AMP message with an unlisted opcode is refused with ST_BAD_OPCODE. -/
  | unlistedAmpOpcode (mb : Fin 3)
  /-- CP_JOB_TAIL_WRITE (R107). Advancing JOB_TAIL admits channel job descriptors and binds them. -/
  | cpJobTailWrite (ch : Fin 32) (v : Nat) (ends : List Bool)
  /-- CP_CMPL_HEAD_WRITE (R129). Advancing CMPL_HEAD frees completion slots for the channel pipeline. -/
  | cpCmplHeadWrite (ch : Fin 32) (v : Nat)
  /-- ABORT_JOB (R109). Stops the running channel job at its next record boundary with ST_STOPPED. -/
  | abortJob (ch : Fin 32)
  /-- CP_ENABLE (R106). Writing ENABLE in CP_CTRL starts taking jobs from the ring, or lets running jobs finish and
  then stops. -/
  | cpEnable (ch : Fin 32) (on : Bool)
  /-- CHANNEL_JOB_START (R106). The pipeline takes the next admitted descriptor in ring order and starts its stages. -/
  | channelJobStart (ch : Fin 32)
  /-- S6_TABLE_LOAD_DONE (R121). S6 finishes loading new scan tables and begins on the job's records. -/
  | s6TableLoadDone (ch : Fin 32)
  /-- S8_THRESHOLD_FEEDBACK (R125). A new threshold key from the merge-select unit raises a query's threshold in S8. -/
  | s8ThresholdFeedback (ch : Fin 32) (q : Nat)
  /-- CHANNEL_JOB_COMPLETE (R129). After its last record is flushed into the crossing queue, the job posts its
  completion record. -/
  | channelJobComplete (ch : Fin 32) (fault : Bool)
  /-- SEAM_JOB (R118). When both jobs of a seam have completed, the keeper joins the fragments and runs a seam job. -/
  | seamJob (tag first : Nat) (ch : Fin 32) (addr : Nat)
  /-- SELECTION_START (R162). A region selection unit starts the next queued descriptor and runs its passes. -/
  | selectionStart (u : Fin 16)
  /-- SELECTION_COMPLETE (R171). A selection writes its entries and header and posts DONE_SLOT. -/
  | selectionComplete (u : Fin 16) (cycles : Nat)
  /-- SEL_FLUSH (R159). Writing FLUSH in SEL_CTRL completes every queued, unstarted descriptor with ST_STOPPED. -/
  | selFlush (u : Fin 16)
  /-- SEL_ENABLE (R159). Writing ENABLE in SEL_CTRL lets queued selection descriptors start, or holds them. -/
  | selEnable (u : Fin 16) (on gather : Bool)
  /-- MERGE_INSTANCE_OPEN (R173). Keeper firmware opens a merge instance with its thresholds and job table. -/
  | mergeInstanceOpen (d : Bytes) (thr : List Nat)
  /-- MERGE_ENTRY_ARRIVAL (R175). A candidate or merge entry arrives and is dropped, forwarded, or kept against its
  ID. -/
  | mergeEntryArrival (a : MergeSource)
  /-- MERGE_INSTANCE_CLOSE (R177). When all jobs and streams have ended, the instance selects each query's best K and
  writes the results. -/
  | mergeInstanceClose (n : Nat) (unreadable : List Nat)
  /-- TILE_LOAD (R198). Queues a weight tile load into the gang's shadow buffer. -/
  | tileLoad (g : Fin 128) (f7 : Fin 128) (rd rs1 rs2 : Fin 32)
  /-- TILE_STREAM (R199). Queues a stream of activation rows through the gang. -/
  | tileStream (g : Fin 128) (f7 : Fin 128) (rd rs1 rs2 : Fin 32)
  /-- TILE_DRAIN (R200). Queues a write of accumulator rows to scratchpad. -/
  | tileDrain (g : Fin 128) (f7 : Fin 128) (rd rs1 rs2 : Fin 32)
  /-- TILE_CFG (R197). Waits for the gang queues to drain, then sets gang, packing and timing. -/
  | tileCfg (g : Fin 128) (f7 : Fin 128) (rd rs1 rs2 : Fin 32)
  /-- TILE_FENCE (R194). Waits until every MXU operation issued by the core has completed. -/
  | tileFence (g : Fin 128) (f7 : Fin 128) (rd rs1 rs2 : Fin 32)
  /-- CHAIN_GO (R235). Checks a fused chain descriptor and admits it to its gang, or returns a refusal code. -/
  | chainGo (g : Fin 128) (f7 : Fin 128) (rd rs1 rs2 : Fin 32)
  /-- MV_ISSUE (R281). Queues a mover descriptor from the steward core. -/
  | mvIssue (g : Fin 128) (f7 : Fin 128) (rd rs1 rs2 : Fin 32)
  /-- SEL_ISSUE (R169). Queues a selection descriptor to the region selection unit: a core by its instruction, or the keeper. -/
  | selIssue (who : SelIssuer) (f7 : Fin 128) (rd rs1 rs2 : Fin 32)
  /-- SLOT_WAIT (R263). Waits until a slot is FULL and returns its count. -/
  | slotWait (g : Fin 128) (f7 : Fin 128) (rd rs1 rs2 : Fin 32)
  /-- SLOT_TAKE (R263). Waits until a slot is FULL, then sets it EMPTY and returns its count. -/
  | slotTake (g : Fin 128) (f7 : Fin 128) (rd rs1 rs2 : Fin 32)
  /-- SLOT_GIVE (R263). Waits until a slot is EMPTY, then sets it FULL with the given count. -/
  | slotGive (g : Fin 128) (f7 : Fin 128) (rd rs1 rs2 : Fin 32)
  /-- SLOT_PEEK (R263). Reads a slot's state and count without waiting. -/
  | slotPeek (g : Fin 128) (f7 : Fin 128) (rd rs1 rs2 : Fin 32)
  /-- SLOT_CLEAR (R263). Sets a slot EMPTY with count 0 at once. -/
  | slotClear (g : Fin 128) (f7 : Fin 128) (rd rs1 rs2 : Fin 32)
  /-- STEP_MARK (R349). A step barrier; when all cores arrive, it waits for operations, checks faults, takes the
  SAT_LIMIT decision, commits and takes the snapshot. -/
  | stepMark (w : MarkWord) (d : StepData)
  /-- STEWARD_INSTRUCTION (R193). The steward core executes an ordinary RISC-V instruction. -/
  | stewardInstruction (g : Fin 128) (r : RvStep)
  /-- STEWARD_LOAD (R194). A steward load reads memory and completes when its value returns. -/
  | stewardLoad (g : Fin 128) (ps : List (Nat × Nat)) (d : LoadDest) (k : LoadKind)
  /-- STEWARD_STORE (R269). A steward store writes memory, merging narrower writes with fresh parity. -/
  | stewardStore (g : Fin 128) (ps : List (Nat × Bytes)) (k : StoreKind)
  /-- MXU_OP_START (R189). A queued MXU operation starts in its gang when the ordering rules allow. -/
  | mxuOpStart (g : Fin 128) (u : GangTurn)
  /-- MXU_OP_COMPLETE (R189). An MXU operation finishes writing its rows. -/
  | mxuOpComplete (g : Fin 128) (u : Fin 4) (k : Nat)
  /-- CL_MXU_RESET (R204). Writing MXU_RESET discards queued MXU operations and resets gang, packing and timing. -/
  | clMxuReset (g : Fin 128)
  /-- CL_CORE_RESET (R204). Writing CORE_RESET resets the steward core to CL_ENTRY. -/
  | clCoreReset (g : Fin 128)
  /-- CL_HALT (R203). Writing HALT stops the steward core at its next instruction boundary, or lets it continue. -/
  | clHalt (g : Fin 128) (on : Bool)
  /-- CL_ENABLE (R204). Writing ENABLE lets the steward core run from CL_ENTRY, or halts and holds it. -/
  | clEnable (g : Fin 128) (on : Bool)
  /-- NARROW_GUARANTEE (R257). After a narrow request has waited 15 cycles, the bank grants the next cycle to the
  narrow class. -/
  | narrowGuarantee (g : Fin 128)
  /-- CV_CLR (R234). Writing CLR in CV_CTRL clears the conversion counters. -/
  | cvClr (g : Fin 128)
  /-- CHAIN_COMPLETE (R235). An admitted chain finishes every stage and sets its completion slot. -/
  | chainComplete (g : Fin 128) (u : Fin 4)
  /-- CHAIN_BLOCK_SEND (R244). A finished N block has been performed at its destination, and the destination slot is
  given. -/
  | chainBlockSend (g : Fin 128) (u : Fin 4)
  /-- TENANT_CLEAR (R262). Starts clearing the cluster's banks, RESIDENT marks and slot flags for a new tenant. -/
  | tenantClear (g : Fin 128)
  /-- TENANT_CLEAR_DONE (R262). The tenant clear ends after about 16,384 cycles. -/
  | tenantClearDone (g : Fin 128)
  /-- SP_CLR_COUNTS (R276). Writing CLR_COUNTS in SP_CTRL clears the scratchpad counters. -/
  | spClrCounts (g : Fin 128)
  /-- SLOT_RESET (R267). Sets every slot flag of a halted cluster EMPTY with count 0. -/
  | slotReset (g : Fin 128)
  /-- BANK_POWER_DOWN (R272). A plain power-down request puts the bank into CHANGING while it waits for its inbound
  writes. -/
  | bankPowerDown (g : Fin 128) (b : Fin 32)
  /-- BANK_OFF (R272). Once the inbound-write count reaches zero within 10 µs, the bank powers down to OFF. -/
  | bankOff (g : Fin 128)
  /-- BANK_POWER_TIMEOUT (R272). A power-down still waiting after 10 µs fails with ST_BUSY and the bank returns to ON. -/
  | bankPowerTimeout (g : Fin 128)
  /-- BANK_POWER_DOWN_FORCE (R273). A forced power-down request starts taking the bank OFF without waiting. -/
  | bankPowerDownForce (g : Fin 128) (b : Fin 32)
  /-- BANK_FORCE_OFF (R273). Within 200 cycles the bank enters OFF, and its pending writes are dropped. -/
  | bankForceOff (g : Fin 128) (n : Nat)
  /-- BANK_POWER_UP (R274). A power-up request takes the bank from OFF into CHANGING. -/
  | bankPowerUp (g : Fin 128) (b : Fin 32) (force : Bool)
  /-- BANK_POWER_UP_DONE (R274). The bank reaches ON within 2 µs with undefined contents. -/
  | bankPowerUpDone (g : Fin 128)
  /-- BANK_RETIRE (R271). Writing GO in SP_RETIRE retires a bank that is OFF, or fails with ST_BUSY. -/
  | bankRetire (g : Fin 128) (b : Fin 32)
  /-- SLOT_WAIT_LIMIT_WRITE (R276). A write of SLOT_WAIT_LIMIT stores the value, and stores at least 1,024. -/
  | slotWaitLimitWrite (g : Fin 128) (v : Nat)
  /-- SP_RESIDENT_WRITE (R261). Marks 64 KiB regions of a bank RESIDENT, and is ignored when the bank is not ON. -/
  | spResidentWrite (g : Fin 128) (b : Fin 24) (m : ResidentMark)
  /-- SLOT_WINDOW_WRITE (R276). Keeper firmware writes a slot flag directly, and the write is ignored unless the core
  is halted. -/
  | slotWindowWrite (g : Fin 128) (k : Fin 4096) (v : Nat)
  /-- SLOT_WAIT_TIMEOUT (R264). A checked slot access that passes SLOT_WAIT_LIMIT faults with ST_SLOT_UNDERRUN or
  ST_SLOT_OVERRUN. -/
  | slotWaitTimeout (g : Fin 128) (send : Option (Fin 4))
  /-- REMOTE_SLOT_ARRIVAL (R263). A slot.give or slot.clear naming another cluster acts when it arrives there. -/
  | remoteSlotArrival (g : Fin 128)
  /-- RESIDENT_RELOAD_DONE (R270). The reload of a RESIDENT region ends, or a failed reload opens a Crimson record. -/
  | residentReloadDone (g : Fin 128) (b : Fin 24) (r : Fin 16) (lost : List Nat) (ok : Bool)
  /-- MV_POST (R281). Keeper firmware queues a mover descriptor, or sets an error when the queue is full. -/
  | mvPost (g : Fin 128) (v : Nat)
  /-- MV_FLUSH (R303). Completes every queued, unstarted mover descriptor with ST_STOPPED. -/
  | mvFlush (g : Fin 128)
  /-- MV_ENABLE (R303). Writing ENABLE in MV_CTRL lets queued mover descriptors start, or holds them. -/
  | mvEnable (g : Fin 128) (on : Bool)
  /-- LINEAR (R282). The mover starts a LINEAR byte move between module addresses. -/
  | linear (g : Fin 128)
  /-- TILE_IN (R282). The mover starts decoding managed tiles into the cluster's scratchpad. -/
  | tileIn (g : Fin 128)
  /-- TILE_OUT (R282). The mover starts encoding dirty tiles into T1 and switching their location words. -/
  | tileOut (g : Fin 128) (giveUp : Bool)
  /-- TENSOR_IN (R282). The mover starts moving whole-tensor rows into scratchpad. -/
  | tensorIn (g : Fin 128)
  /-- TENSOR_OUT (R282). The mover starts moving whole-tensor rows out of scratchpad. -/
  | tensorOut (g : Fin 128) (giveUp : Bool)
  /-- FILL (R260). The mover starts filling a scratchpad range with a constant. -/
  | fill (g : Fin 128)
  /-- COPY (R260). The mover starts copying a range within the cluster's scratchpad. -/
  | copy (g : Fin 128)
  /-- TRANSPOSE (R282). The mover starts a transpose-on-move. -/
  | transpose (g : Fin 128)
  /-- MOVER_DESCRIPTOR_DONE (R283). A mover descriptor ends, writes its completion word and posts its slot. -/
  | moverDescriptorDone (g : Fin 128) (k : Nat) (addrs : List Nat)
  /-- TIER_DEMOTION (R280). With the tensor pool full, the tier manager demotes the oldest tensor's tiles to T2. -/
  | tierDemotion (places : List Nat)
  /-- TILE_PROMOTION (R282). A tile held only in T2 is promoted to T1, and the waiting descriptor continues. -/
  | tilePromotion (g : Fin 128) (k : Nat) (at_ : Option Nat)
  /-- SESSION_DEMOTION (R299). When the KV pool lacks room, the oldest PARKED sessions are demoted to COLD. -/
  | sessionDemotion (n : Fin 1048576) (pos : Nat)
  /-- PARK_T2_DONE (R301). All stored bytes of a PARK to T2 are durable, and the session becomes COLD. -/
  | parkT2Done (n : Fin 1048576) (pos : Nat)
  /-- RESUME_COLD_DONE (R301). A RESUME from COLD has read the session back, which becomes ACTIVE and releases its
  tier-store copy. -/
  | resumeColdDone (n : Fin 1048576) (root : Nat) (chunks tiles : List Nat)
  /-- TOKENIZER_SLICE (R310). The tokenizer unit finishes a 64 KiB slice of an encode or detokenise request. -/
  | tokenizerSlice
  /-- UPD_SUBMIT (R334). The ecall hands an update job descriptor to the keeper, which checks and queues it. -/
  | updSubmit (g : Fin 128) (a : Nat)
  /-- UPDATE_JOB_START (R335). An update job starts on its units once no overlapping job is running. -/
  | updateJobStart (id : Nat) (us : List (Fin 8))
  /-- UPD_COMMIT (R333). The ecall reports a block of an update job as done. -/
  | updCommit (u : Fin 16) (o : UpdOut)
  /-- UPDATE_SLICE_END (R335). An update unit returns from its slice, and when all have returned the job completes. -/
  | updateSliceEnd (u : Fin 16) (r : SliceEnd)
  /-- QUANTUM_EXPIRY (R347). At the end of a quantum the scheduler chooses a queue again and may pre-empt. -/
  | quantumExpiry (p : Fin 128)
  /-- SAVE_COMPLETE (R355). The save ends, the incoming task is restored or started, and HALT clears. -/
  | saveComplete (p : Fin 128) (addrs : List Nat) (giveUp : Bool)
  /-- RUN_EMIT (R353). The ecall appends bytes to the command's result area. -/
  | runEmit (g : Fin 128) (a n : Nat)
  /-- TASK_END (R354). The ecall ends a core; the last end commits the task's last step or ends the task with a code. -/
  | taskEnd (g : Fin 128) (code : Nat) (d : StepData)
  /-- ROM_RESET_ENTRY (R365). On leaving reset, the media ROM trains the PHY, resets and reads every target, and sets
  READY. -/
  | romResetEntry (ch : Fin 32)
  /-- TARGET_BRINGUP_TIMEOUT (R365). A target that does not answer within 10 ms is marked lost and a Crimson record is
  opened. -/
  | targetBringupTimeout (ch : Fin 32) (t : Fin 32)
  /-- MR_REQ_TAIL_WRITE (R366). Advancing REQ_TAIL posts requests to ring 0 of the media ROM. -/
  | mrReqTailWrite (ch : Fin 32) (v : Nat)
  /-- MR_CMPL_HEAD_WRITE (R369). Advancing CMPL_HEAD frees completion slots so that the ROM takes new ring 0 requests. -/
  | mrCmplHeadWrite (ch : Fin 32) (v : Nat)
  /-- MR_ENABLE (R366). Writing ENABLE in MR_CTRL starts serving ring 0, or lets accepted requests finish and then
  stops. -/
  | mrEnable (ch : Fin 32) (on : Bool)
  /-- MEDIA_READ (R372). The ROM takes a READ request and reads the raw codewords and page tag at the chosen threshold
  set. -/
  | mediaRead (ch : Fin 32) (ring : Fin 2)
  /-- MEDIA_READ_MARGIN (R375). The ROM reads at a program-verify or erase-verify threshold and judges the result. -/
  | mediaReadMargin (ch : Fin 32)
  /-- MEDIA_PROGRAM (R371). The ROM programs a wordline group or an SLC page at the write pointer of an open block. -/
  | mediaProgram (ch : Fin 32)
  /-- MEDIA_ERASE (R370). The ROM starts an erase of a block in TLC or SLC mode. -/
  | mediaErase (ch : Fin 32)
  /-- MEDIA_RESET (R377). The ROM issues an ONFI reset of a target, and operations in progress on it become undefined. -/
  | mediaReset (ch : Fin 32)
  /-- MEDIA_GET_FEATURES (R367). The ROM reads 4 parameter bytes of a target. -/
  | mediaGetFeatures (ch : Fin 32) (v : Nat)
  /-- MEDIA_STATUS (R367). The ROM reports a block's state and write pointer. -/
  | mediaStatus (ch : Fin 32)
  /-- MEDIA_CLOSE (R370). The ROM makes a block CLOSED with no media access. -/
  | mediaClose (ch : Fin 32)
  /-- MEDIA_PARAMS (R378). The ROM loads the media parameter record. -/
  | mediaParams (ch : Fin 32)
  /-- MEDIA_OP_COMPLETE (R369). A die finishes a media operation, and the ROM posts its completion record. -/
  | mediaOpComplete (ch : Fin 32) (op : Nat) (r : MediaRes)
  /-- MEDIA_TIMEOUT (R369). A die that does not finish within 3 times its limit is reset and the operation ends
  TIMEOUT. -/
  | mediaTimeout (ch : Fin 32) (op : Nat)
  /-- MEDIA_SUSPEND (R373). Once the minimum run has passed with reads waiting, the ROM suspends the die's program or
  erase. -/
  | mediaSuspend (ch : Fin 32) (t : Fin 32)
  /-- MEDIA_HOLD (R380). The HOLD input stops new programs and erases from starting while it is asserted. -/
  | mediaHold (on : Bool)
  /-- MEDIA_FLUSH (R380). The FLUSH input resets erasing dies, stops queued requests and starts URGENT programs first. -/
  | mediaFlush
  /-- DIE_TEMP_SAMPLE (R376). Once a second, the ROM samples each die's temperature. -/
  | dieTempSample (ch : Fin 32) (t : Fin 32) (temp : Int)
  /-- WRITE_BUFFER_PROGRAM (R385). The translation layer programs buffered units into open erase units. -/
  | writeBufferProgram (eu : Nat) (ok : Bool) (eus : List Nat)
  /-- GARBAGE_COLLECTION (R393). While the free pool is low, collection chooses a victim and relocates its valid
  units. -/
  | garbageCollection (victim : Nat) (eus : List Nat) (ok : Bool)
  /-- MAP_CHECKPOINT (R389). A 64 MiB chunk of the map is written as a rolling checkpoint. -/
  | mapCheckpoint (chunk : Fin 256)
  /-- FLASH_TEMP_POLL (R402). Once a minute, keeper firmware reads the flash package sensors into the health log. -/
  | flashTempPoll (temps : List Int)
  /-- PE_RATE_BUCKET (R403). Each hour of power-on time, the wear window advances and LIFE_DAYS is projected again. -/
  | peRateBucket
  /-- SPAN_PORT_UP (R407). A span port's PMD trains and FEC locks, and bring-up of peers begins. -/
  | spanPortUp (p : Fin 2)
  /-- SPAN_PORT_DOWN (R406). A span port leaves UP, and its paths are lost. -/
  | spanPortDown (p : Fin 2)
  /-- SL_RETRAIN (R406). Writing RETRAIN in SL_CTRL retrains the PMD, and every path on the port is lost meanwhile. -/
  | slRetrain (p : Fin 2)
  /-- SL_ENABLE (R416). Writing ENABLE in SL_CTRL brings the port up, or takes it down. -/
  | slEnable (p : Fin 2) (on : Bool)
  /-- OPEN_FRAME (R407). An OPEN frame arrives, for span-number discovery or for the transport version and EPOCH
  exchange. -/
  | openFrame (port : Fin 2) (b : Bytes) (encrypted : Bool)
  /-- SPDM_FRAME (R407). An SPDM frame of peer bring-up arrives and advances authentication and key establishment. -/
  | spdmFrame (port : Fin 2) (n : Nat) (r : SpdmResult)
  /-- DATA_FRAME (R410). A DATA frame arrives; it is checked and delivered in order or held, and completes messages. -/
  | dataFrame (port : Fin 2) (b : Bytes) (icv : Bool) (inst base : Nat)
  /-- ACK_FRAME (R410). An ACK frame releases acknowledged frames and grants credit. -/
  | ackFrame (port : Fin 2) (b : Bytes) (icv : Bool)
  /-- NAK_FRAME (R410). A NAK frame causes the named frame to be sent again. -/
  | nakFrame (port : Fin 2) (b : Bytes) (icv : Bool)
  /-- SPAN_READ (R415). The ecall asks a peer for stored sectors, which arrive with a completion word and a slot post. -/
  | spanRead (g : Fin 128) (n : Fin 256) (nsid slba count dst slot : Nat)
  /-- RETRANSMISSION_TIMEOUT (R410). RTO_US passes without an acknowledgement, and the frame is sent again. -/
  | retransmissionTimeout (n : Fin 256) (seq : Nat)
  /-- GAP_TIMEOUT (R410). A gap held for half the retransmission timeout is answered with a NAK. -/
  | gapTimeout (n : Fin 256)
  /-- KEEPALIVE_TIMER (R410). At least once a millisecond, an ACK frame is sent to each READY or SLOW peer. -/
  | keepaliveTimer (n : Fin 256)
  /-- SLOW_TIMEOUT (R412). SLOW_US passes without acknowledgements advancing, and the peer becomes SLOW. -/
  | slowTimeout (n : Fin 256)
  /-- ABSENT_TIMEOUT (R412). ABSENT_MS passes with no frame accepted or no path back, and the peer becomes ABSENT. -/
  | absentTimeout (n : Fin 256)
  /-- BRINGUP_TIMEOUT (R407). Bring-up steps 3 to 6 not complete within 100 ms make the partner REFUSED. -/
  | bringupTimeout (n : Fin 256) (port : Fin 2)
  /-- FAULTY_RETRY_TIMER (R412). 1 s after a peer becomes FAULTY, bring-up is repeated with a new EPOCH. -/
  | faultyRetryTimer (n : Fin 256)
  /-- REFUSED_RETRY_TIMER (R412). 60 s after a peer becomes REFUSED, bring-up is tried again. -/
  | refusedRetryTimer (n : Fin 256)
  /-- REKEY_TIMER (R408). Every 24 h of session, SPDM KEY_UPDATE rekeys the secure association. -/
  | rekeyTimer (n : Fin 256)
  /-- OLD_KEY_EXPIRY (R408). 1 ms after a new key takes effect, the old key is no longer accepted. -/
  | oldKeyExpiry (n : Fin 256)
  /-- FAULT_REPORT (R427). A detection is reported to its die's concentrator, opening a record or merging into an open
  one. -/
  | faultReport (d : Die) (r : Report) (to_ : List (Nat × Nat))
  /-- FAULT_WINDOW_END (R427). With no merge for 101 µs, the storm window ends and the record is marked CLOSED. -/
  | faultWindowEnd (d : Die) (k : Fin 256)
  /-- FAULT_RECORD_AGE_LIMIT (R427). 1 s after its first report, a record is closed whatever its last merge. -/
  | faultRecordAgeLimit (d : Die) (k : Fin 256)
  /-- FAULT_RECORD_INTAKE (R428). The control keeper takes an opened record into the fault log and posts a FAULT
  event. -/
  | faultRecordIntake (d : Die) (k : Fin 256)
  /-- FAULT_RECORD_FINALISE (R428). The keeper copies a CLOSED ring slot's final counts into the log and frees the
  slot. -/
  | faultRecordFinalise (d : Die) (k : Fin 256)
  /-- FAULT_LOG_PERSIST (R430). Within 1 s of intake, a record is written to the system area. -/
  | faultLogPersist (record : Nat)
  /-- FC_HEAD_WRITE (R438). Advancing the concentrator ring HEAD frees slots, and writes that pass TAIL are ignored. -/
  | fcHeadWrite (d : Die) (v : Nat)
  /-- INPUT_WARN (R442). The input falls through WARN; HOLD is asserted, the clock steps down and HOLD_ENTER is
  posted. -/
  | inputWarn (v : Nat)
  /-- HOLD_RELEASE (R442). 5 ms after the input stays at or above 37.0 V, HOLD is released and HOLD_EXIT is posted. -/
  | holdRelease (v : Nat)
  /-- INPUT_COMMIT (R443). The input falls through COMMIT, and the flush starts. -/
  | inputCommit (v : Nat)
  /-- FLUSH_DUMP_DONE (R443). The dump has passed and the module enters reset. -/
  | flushDumpDone
  /-- INPUT_RESET (R439). The input falls through RESET. -/
  | inputReset (v : Nat) (undumped : List Nat)
  /-- INPUT_OVERVOLTAGE (R440). The input rises through 56.0 V, which is handled as a crossing of COMMIT. -/
  | inputOvervoltage (v : Nat)
  /-- START_CONDITION (R440). After 5 ms at or above 37.0 V, the module leaves reset and boots. -/
  | startCondition (v : Nat)
  /-- CURRENT_LIMIT (R441). A 1 ms average current above 20.5 A steps the arithmetic clock down one level. -/
  | currentLimit (ma : Nat)
  /-- HOLDUP_MEASUREMENT (R444). At start and every 24 h, a controlled discharge measures the hold-up energy and sets
  or clears HOLDUP_WEAK. -/
  | holdupMeasurement (mj : Nat)
  /-- POWER_STATE_ENTRY (R447). Once its conditions hold, the module enters the effective ladder state. -/
  | powerStateEntry
  /-- DRAW_AVERAGE_CROSSING (R450). The 1 ms average draw crosses 600 W or 760 W, opening the peak window or stepping
  the clock. -/
  | drawAverageCrossing (mw : Nat)
  /-- PEAK_WINDOW_EXPIRY (R450). After 40 s of window time, the window becomes SPENT and the clock steps to 1.0 GHz. -/
  | peakWindowExpiry
  /-- PEAK_SPENT_RECHECK (R450). 10 ms after the window becomes SPENT, a draw still above 600 W steps the clock to 0.8
  GHz. -/
  | peakSpentRecheck
  /-- CLOCK_STEP_UP_TIMER (R450). After 1 s below 540 W, the clock steps up one level where the limits allow. -/
  | clockStepUpTimer (ma : Nat)
  /-- PEAK_RECOVERY (R450). After 120 s at or below 600 W, the window goes from SPENT to ARMED. -/
  | peakRecovery
  /-- DENIED_EXIT (R451). After 10 s with inlet and flow within limits, the window leaves DENIED for SPENT. -/
  | deniedExit
  /-- JUNCTION_TEMP_CROSSING (R452). A die junction crosses 100, 105 or 110 °C, stepping the clock or tripping. -/
  | junctionTempCrossing (k : Fin 3) (t : Int)
  /-- THERMAL_STEP_UP (R452). After 1 s at or below 95 °C, the clock steps up again. -/
  | thermalStepUp
  /-- FLASH_TEMP_CROSSING (R452). The hottest flash package crosses 70 °C, 80 °C or 75 °C, setting warnings or HOLD. -/
  | flashTempCrossing (t : Int)
  /-- PWR_DIS_ASSERT (R489). Raising PWR_DIS acts as a crossing of COMMIT. -/
  | pwrDisAssert
  /-- PWR_DIS_DEASSERT (R489). Lowering PWR_DIS lets the module restart once the start condition is met. -/
  | pwrDisDeassert
  /-- AUX_POWER_UP (R479). AUX_3V3 rises through 3.1 V, ADDR_SEL is sampled and the sideband starts. -/
  | auxPowerUp (addrSel : Bool)
  /-- AUX_POWER_LOSS (R486). AUX_3V3 is lost, and the sideband continues from the 42 V stage if present. -/
  | auxPowerLoss
  /-- BOOT (R460). The ROM boot reads OTP and records, verifies the image, starts keepers, brings up HBM and media,
  and selects the configuration. -/
  | boot (otpOk strap : Bool) (lostT : List (Nat × Nat)) (eus : List Nat) (ms : Nat)
  /-- KEEPER_READY (R461). Keeper firmware reports ready to the ROM. -/
  | keeperReady (eus bad lost : List Nat) (places : List (Nat × List (Nat × Nat) × List Nat))
  /-- KEEPER_READY_TIMEOUT (R461). With no ready report within 5 s, the failed-boot count rises and the ROM boots
  again or enters recovery. -/
  | keeperReadyTimeout
  /-- SET_ENDPOINT_ID (R480). The bus owner assigns the MCTP endpoint ID. -/
  | setEndpointId (op eid : Nat)
  /-- GET_ENDPOINT_ID (R480). Returns the MCTP endpoint ID. -/
  | getEndpointId
  /-- GET_MCTP_VERSION_SUPPORT (R480). Returns the supported MCTP versions. -/
  | getMctpVersionSupport (typ : Nat)
  /-- GET_MESSAGE_TYPE_SUPPORT (R480). Returns the supported MCTP message types. -/
  | getMessageTypeSupport
  /-- GET_VENDOR_DEFINED_MESSAGE_SUPPORT (R480). Returns the vendor ID used for AMP. -/
  | getVendorDefinedMessageSupport (sel : Nat)
  /-- READ_NVME_MI_DATA_STRUCTURE (R482). Returns an NVMe-MI data structure. -/
  | readNvmeMiDataStructure (mic : Bool) (typ port ctrl : Nat)
  /-- NVM_SUBSYSTEM_HEALTH_STATUS_POLL (R482). Returns the subsystem health status. -/
  | nvmSubsystemHealthStatusPoll (mic clear : Bool)
  /-- CONTROLLER_HEALTH_STATUS_POLL (R482). Returns the health status of a controller. -/
  | controllerHealthStatusPoll (mic clear : Bool) (first : Nat)
  /-- CONFIGURATION_SET (R482). Sets the SMBus frequency, Health Status Change or transmission unit. -/
  | configurationSet (mic : Bool) (id port v : Nat)
  /-- CONFIGURATION_GET (R482). Returns a management configuration value. -/
  | configurationGet (mic : Bool) (id port : Nat)
  /-- VPD_READ (R483). Returns the 256-byte FRU record. -/
  | vpdRead (mic : Bool) (off len : Nat)
  /-- NVME_MI_RESET (R482). The NVMe-MI Reset command performs an NVM Subsystem Reset. -/
  | nvmeMiReset (mic : Bool) (typ : Nat)
  /-- SENSOR_READ (R484). Returns the 256-byte sensor report. -/
  | sensorRead (mic : Bool) (rails : Bytes)
  /-- NVME_MI_ADMIN_COMMAND (R482). A tunnelled NVMe Admin command is served for a ready controller, or refused. -/
  | nvmeMiAdminCommand (mic : Bool) (ctrl : Nat) (e : Sqe) (d : Bytes)
  /-- NVME_MI_UNSUPPORTED_COMMAND (R482). Any other NVMe-MI command is refused with Invalid Command Opcode. -/
  | nvmeMiUnsupportedCommand (mic : Bool) (opc : Nat)
  /-- GET_VERSION (R475). The SPDM responder returns its versions. -/
  | getVersion
  /-- GET_CAPABILITIES (R475). The SPDM responder returns its capabilities. -/
  | getCapabilities (ver : Nat)
  /-- NEGOTIATE_ALGORITHMS (R475). The SPDM responder negotiates its algorithms. -/
  | negotiateAlgorithms (asym hash meas : Nat)
  /-- GET_DIGESTS (R475). The SPDM responder returns its certificate chain digests. -/
  | getDigests
  /-- GET_CERTIFICATE (R475). The SPDM responder returns the slot 0 certificate chain. -/
  | getCertificate (slot off len : Nat)
  /-- CHALLENGE (R475). The SPDM responder answers a challenge with a signature, unless attestation is disabled. -/
  | challenge (slot : Nat) (summary : Bool) (before : Bytes)
  /-- GET_MEASUREMENTS (R475). The SPDM responder returns the measurements, signed on request. -/
  | getMeasurements (op : Nat) (sign : Bool) (before : Bytes)
  /-- KEY_EXCHANGE (R475). KEY_EXCHANGE is answered on span ports and refused over MCTP. -/
  | keyExchange (port : Option (Fin 2)) (before : Bytes)
  /-- PCIE_LINK_UP (R52). Link training on a host port completes and configuration space starts answering instead of
  returning Request Retry Status. -/
  | pcieLinkUp (l : TrainedLink)
  /-- CONTROLLER_ENABLE (R68). A CC.EN transition from 0 to 1 enables the NVMe controller so that it reports CSTS.RDY
  and accepts queue creation. -/
  | controllerEnable (fn : Fin 2) (asqs acqs : Nat)
  /-- COOLANT_LIMIT_CROSSING (R451). The coolant inlet temperature, or the flow estimate under load, crosses its
  limit, which makes the peak window DENIED and posts a THERMAL event. -/
  | coolantLimitCrossing (inlet outlet : Int)
  /-- JUNCTION_COOLDOWN (R452). After a thermal trip, every die junction reads at or below 85 °C, which lets the
  module leave reset once the start condition holds. -/
  | junctionCooldown (t0 t1 t2 : Int)
deriving DecidableEq, Repr

end Sys2Proof
end

