-- ==== Sys2Proof/Decode.lean ====
section
/-! DEFINITION. The commands that a word spells. The opcode table gives no row any bits, so no word spells a command (log 13). -/

namespace Sys2Proof

/-- The command that a word of `nbits` bits spells by the bits of the table: none, since the table gives none. -/
def decodeTableWord (_nbits _w : Nat) : Option Instr := none

end Sys2Proof
end

