-- ==== Sys2Proof/Config.lean ====
section
/-! DEFINITION. What an implementation fixes and the values the spec leaves open. None of these constants has a body. -/

namespace Sys2Proof.Config

/-- The byte an undefined range of memory holds: range number, address (log 8). -/
opaque freeByte : Nat → Nat → Byte
/-- A fresh free number, by the state's counter (log 8). -/
opaque freeNat : Nat → Nat
/-- How long something has waited, by a counter register (unit, offset), the state's counter and a local count (log 35). -/
opaque waited : Nat → Nat → Nat → Nat → Nat
/-- A fresh free choice, by the state's counter (log 8). -/
opaque freeBool : Nat → Bool
/-- Does a word of undefined parity fail it in a read? State's counter, range number, word (R274, log 8). -/
opaque freeParity : Nat → Nat → Nat → Bool

/-- The PCI vendor ID assigned to Rordopen, 16 bits (R84). -/
opaque vendorCode : BitVec 16
/-- That ID as a number. -/
def vendorId : Nat := vendorCode.toNat
/-- Version of the boot ROM (R466). -/
opaque romVersion : Nat
/-- The 256-byte header of the image the module was shipped with (R462). -/
opaque shippedHeader : Bytes

/-! Cryptographic functions of the standards the spec names (log 6). Keys, points and digests are numbers. -/

/-- SHA-256 of a byte string (R97, R462). -/
opaque sha256 : Bytes → Nat
/-- SHA-384 of a byte string (R475). -/
opaque sha384 : Bytes → Nat
/-- HMAC-SHA-256: key, input (R93). -/
opaque hmac : Nat → Bytes → Nat
/-- ECDSA P-256 verification: public key, digest, signature (R462, R467). -/
opaque ecdsaVerify : Nat → Nat → Nat → Bool
/-- ECDSA signature: private key, digest (R475). -/
opaque ecdsaSign : Nat → Nat → Nat
/-- Is the number a point of the curve? (R467) -/
opaque validPoint : Nat → Bool
/-- ECDH: private key, public point (R467). -/
opaque ecdh : Nat → Nat → Nat
/-- Public point of a private key (R467). -/
opaque publicOf : Nat → Nat
/-- HKDF-SHA-256 with 32 bytes of output: salt, input key, information string (R468). -/
opaque hkdf : Bytes → Nat → Bytes → Nat
/-- The first 64 bytes of AES-256 in counter mode: key, initial counter block (R477). -/
opaque aesCtr : Nat → Nat → Nat
/-- AES-256-XTS encryption of a data unit: key, tweak, bytes (R113). -/
opaque xts : Nat → Nat → Bytes → Bytes
/-- AES-256-XTS decryption of a data unit: key, tweak, bytes (R113). -/
opaque xtsInv : Nat → Nat → Bytes → Bytes
/-- The private device key, derived from the device secret (R474). -/
opaque deviceKey : Nat
/-- Fresh random number, by the state's counter (R458). -/
opaque random : Nat → Nat
/-- The device secret of the OTP (R458). -/
opaque deviceSecret : Nat
/-- The four key digests of the OTP (R458, R462). -/
opaque keyDigest : Nat → Nat
/-- The certificate chain of slot 0 (R475). -/
opaque certChain : Bytes

/-- A 32-bit cell of undefined accumulators: range number, cell (R202, R204). -/
opaque freeCell : Nat → Nat → Nat

/-- Mean of FP32 codes formed in FP32; the spec gives no order of the additions (R155). -/
opaque fp32Mean : List Nat → Nat
/-- A sum of FP32 products, of the codes given in pairs, in the order of the runtime library (R156, R339). -/
opaque fp32Dot : List (Nat × Nat) → Nat
/-- An FP32 code less FP32 products, of the codes given in pairs, in the order of the factor routine (R339). -/
opaque fp32Less : Nat → List (Nat × Nat) → Nat
/-- Standard normal FP32 values drawn from the generator: seed, number of the value (R156). -/
opaque normal : Nat → Nat → Nat
/-- The training vectors that the code centroids of a subspace start from: seed, subspace, code (R155 step 4). -/
opaque codeStart : Nat → Nat → Nat → Nat

/-! What the management plane returns and the spec does not give (R480, R475, R483). -/

/-- MCTP versions of a message type, 4 bytes each (R480). -/
opaque mctpVersions : Nat → Bytes
/-- PCI device and subsystem IDs, 4 bytes (R482). -/
opaque pciIds : Nat
/-- The FRU record (R483). -/
opaque vpd : Bytes
/-- SPDM CTExponent, DataTransferSize and MaxSPDMmsgSize (R475). -/
opaque spdmLimits : Nat → Nat
/-- The boot ROM (R475, measurement 1). -/
opaque bootRom : Bytes

/-! Tables of the activations, which lie in the firmware image (R242): FP32 codes by segment; 0 to 3 are the coefficients of those
powers, 4 is the point from which the argument counts (log 95). -/

/-- GELU, 256 segments. -/
opaque geluTable : Nat → Nat → Nat
/-- SILU, 256 segments. -/
opaque siluTable : Nat → Nat → Nat
/-- EXP, 64 segments on f. -/
opaque expTable : Nat → Nat → Nat
/-- f of EXP, as the FP32 code that an argument's code leaves beside i (R242; log 95). -/
opaque expRest : Nat → Nat
/-- The segment of an f of EXP, by its code. -/
opaque expSegment : Nat → Nat

/-- Version of the media ROM (R364). -/
opaque mediaRomVersion : Nat
/-- Does an offset in the HD device registers belong to the ONFI controller? The spec gives no addresses (R32). -/
opaque onfi : Nat → Bool
/-- LDPC parity of 4,096 bytes (R363). -/
opaque parity : Bytes → Bytes

end Sys2Proof.Config
end

