-- ==== Sys2Proof/Machine/Tab.lean ====
section
/-! DEFINITION. Sparse tables: a sorted list of (key, value) pairs in one canonical form, and the operations on them.
A key that is not listed holds the table's default; no listed value equals it. -/

namespace Sys2Proof.Machine

/-- A sparse table of `α` by number. The default is an argument of the operations, so the table itself is plain data. -/
abbrev Tab (α : Type) := List (Nat × α)

/-- The listed value of a key. -/
def Tab.find {α : Type} : Tab α → Nat → Option α
  | [], _ => none
  | (j, a) :: t, k => if k = j then some a else Tab.find t k

/-- The value of a key, `d` where it is not listed. -/
def Tab.get {α : Type} (d : α) (t : Tab α) (k : Nat) : α := (Tab.find t k).getD d

/-- Take a key out. -/
def Tab.del {α : Type} : Tab α → Nat → Tab α
  | [], _ => []
  | (j, a) :: t, k => if k = j then Tab.del t k else (j, a) :: Tab.del t k

/-- List a value under a key, keeping the keys rising. -/
def Tab.put {α : Type} : Tab α → Nat → α → Tab α
  | [], k, v => [(k, v)]
  | (j, a) :: t, k, v =>
    if k < j then (k, v) :: (j, a) :: t
    else if k = j then (k, v) :: t
    else (j, a) :: Tab.put t k v

/-- Give a key a value; the default takes the entry out. -/
def Tab.set {α : Type} [DecidableEq α] (d : α) (t : Tab α) (k : Nat) (v : α) : Tab α :=
  if v = d then Tab.del t k else Tab.put t k v

/-- Change the value of a key. -/
def Tab.mod {α : Type} [DecidableEq α] (d : α) (t : Tab α) (k : Nat) (f : α → α) : Tab α :=
  Tab.set d t k (f (Tab.get d t k))

/-- Give `vs` to the keys from `k` upward. -/
def Tab.setRange {α : Type} [DecidableEq α] (d : α) (t : Tab α) (k : Nat) : List α → Tab α
  | [] => t
  | v :: vs => Tab.setRange d (Tab.set d t k v) (k + 1) vs

/-- The values of `n` keys from `k` upward. -/
def Tab.getRange {α : Type} (d : α) (t : Tab α) (k : Nat) : Nat → List α
  | 0 => []
  | n + 1 => Tab.get d t k :: Tab.getRange d t (k + 1) n

/-- Every listed key satisfies `k ≥ lo`, keys rise strictly. -/
def Tab.rising {α : Type} : Nat → Tab α → Bool
  | _, [] => true
  | lo, (j, _) :: t => decide (lo ≤ j) && Tab.rising (j + 1) t

/-- The canonical form: keys strictly rising, no listed value equal to the default. -/
def Tab.wf {α : Type} [DecidableEq α] (d : α) (t : Tab α) : Bool :=
  Tab.rising 0 t && t.all (fun p => decide (p.2 ≠ d))

/-- Change every value of a table, leaving out those that become the default. -/
def Tab.mapAll {α : Type} [DecidableEq α] (d : α) (f : α → α) (t : Tab α) : Tab α :=
  (t.map fun p => (p.1, f p.2)).filter fun p => decide (p.2 ≠ d)

/-- Is the key listed? -/
def Tab.has {α : Type} (t : Tab α) (k : Nat) : Bool := (Tab.find t k).isSome

end Sys2Proof.Machine
end

