-- ==== Sys2Proof/Machine/TFabric.lean ====
section
/-! DEFINITION. State of the fabric (spec/02): links, local counts, crossing queues; and of the fault concentrators and the
fault log (spec/19). -/

namespace Sys2Proof.Machine

/-- State of a link (R26, R29). -/
inductive LinkState where
  | up | retraining | lost
deriving DecidableEq, Repr

/-- A link: its state, and for each of its two receiving ends the replays of the present flit that have failed or are under way (R26).
The two directions carry flits of their own. -/
structure Link where
  state : LinkState := .up
  near : Nat := 0
  far : Nat := 0
deriving DecidableEq, Repr

/-- Replays in succession of the flit that arrives at one end. -/
def Link.replays (x : Link) (far : Bool) : Nat := if far then x.far else x.near

/-- Set the replays of one end. -/
def Link.setReplays (x : Link) (far : Bool) (n : Nat) : Link := if far then { x with far := n } else { x with near := n }

/-- A local count and the latch of its COUNT_HI (R38, R40). -/
structure Count where
  now : Nat := 0
  latch : Nat := 0
deriving DecidableEq, Repr

/-- A 64-byte read word of a crossing queue with its sideband (R43). `bad`: a write word in it fails its parity check. -/
structure XWord where
  data : Bytes
  valid : Nat
  bad : Bool
deriving DecidableEq, Repr

/-- A crossing queue (R41-R49). `flight`: completed words not yet readable, oldest first; `ready`: readable words, oldest
first; `part`: the part-packed word; `freed`: words read that the write side does not yet see as free. -/
structure XQueue where
  flight : List XWord := []
  ready : List XWord := []
  part : Bytes := []
  partBad : Bool := false
  freed : Nat := 0
  level : Nat := 0
  threshIe : Bool := false
  thresh : Bool := false
  overrun : Bool := false
  underrun : Bool := false
  poisonSeen : Bool := false
  overrunCount : Nat := 0
  poisonCount : Nat := 0
  flushReq : Bool := false
  /-- Threshold interrupts sent to the owner (R47). -/
  interrupts : Nat := 0
deriving DecidableEq, Repr

/-- State of the fabric. -/
structure Fabric where
  links : Tab Link := []
  cd0 : Count := {}
  cd1 : Count := {}
  hd : Count := {}
  /-- The host-time pair: host time in ms and the HD count at which it was given (R39). -/
  pair : Option (Nat × Nat) := none
  /-- Crossing queues: 0 to 31 the channels' 16-byte queues, 32 to 63 8-byte ones. -/
  xq : Tab XQueue := []
  /-- MSI-X signals sent, by function · 4,096 + vector (R35). -/
  msix : Tab Nat := []
  /-- MSI-X table entries, by function · 2,048 + vector: 16 bytes (R33). -/
  msixTable : Tab Nat := []
  /-- MSI-X pending bits, by function · 2,048 + vector (R33). -/
  msixPending : Tab Bool := []
deriving DecidableEq, Repr

/-- A fault record (R425). -/
structure FaultRec where
  record : Nat := 0
  sev : Nat := 0
  timeLocal : Bool := false
  closed : Bool := false
  isolated : Bool := false
  cls : Nat := 0
  source : Nat := 0
  die : Nat := 0
  tag : Nat := noTag
  firstCount : Nat := 0
  lastCount : Nat := 0
  count : Nat := 0
  partners : Nat := 0
  time : Nat := 0
  addr : Nat := 0
  st : Nat := 0
  aux : Nat := 0
deriving DecidableEq, Repr

/-- A slot of a concentrator's ring in use: the record, whether the keeper has taken it in, and whether its final counts
have been copied into the log (R428). -/
structure RingSlot where
  fr : FaultRec := {}
  taken : Bool := false
  /-- RECORD number the log gave it; 0 when it never entered the log. -/
  number : Nat := 0
  finished : Bool := false
deriving DecidableEq, Repr

/-- A fault concentrator (R427, R438). `used` slots from `head` upward are in use. -/
structure Conc where
  ringBase : Nat := 0
  head : Nat := 0
  used : Nat := 0
  ie : Bool := false
  enable : Bool := false
  reports : Nat := 0
  dropped : Nat := 0
  slots : Tab RingSlot := []
  /-- Interrupts sent to the control keepers. -/
  interrupts : Nat := 0
deriving DecidableEq, Repr

/-- A record in the fault log and whether the system area holds it (R430). -/
structure LogEntry where
  fr : FaultRec
  persisted : Bool := false
deriving DecidableEq, Repr

/-- An open scrub: operation, space, range, start time and the tallies of its summary (R434-R436). -/
structure Scrub where
  op : Nat := 0
  space : Nat := 0
  noRepair : Bool := false
  nsid : Nat := 0
  start : Nat := 0
  len : Nat := 0
  began : Nat := 0
deriving DecidableEq, Repr

/-- A unit in the retired list that a fault isolated (R433). -/
inductive LostUnit where
  | link (key : Nat)
  | die (d : Die)
  | cluster (g : Nat)
  | bank (g : Nat) (b : Nat)
  | target (ch : Nat) (t : Nat)
  | port (p : Nat)
deriving DecidableEq, Repr

/-- State of the fault machinery (spec/19). -/
structure Faults where
  cd0 : Conc := {}
  cd1 : Conc := {}
  hd : Conc := {}
  log : List LogEntry := []
  nextRecord : Nat := 1
  droppedAmber : Nat := 0
  droppedOther : Nat := 0
  lost : List LostUnit := []
  scrubs : List Scrub := []
  /-- Summaries of ended scrubs by operation ID (R436). -/
  summaries : Tab Bytes := []
  /-- HBM rows repaired (R437), by row unit; permanent. -/
  hbmRepaired : List Nat := []
deriving DecidableEq, Repr

end Sys2Proof.Machine
end

