-- ==== Sys2Proof/Machine/THost.lean ====
section
/-! DEFINITION. State of the host controllers and the request tracker (spec/03) and of the mailboxes (spec/04). -/

namespace Sys2Proof.Machine

/-- State of a host link (R52). -/
inductive PortState where
  | down | training | up
deriving DecidableEq, Repr

/-- An I/O submission queue (R59-R63). `stop` is the ordered command behind which fetching stopped; `counted` says that it
has been counted in FETCH_STALL_ORDERED; `deleting` that Delete I/O SQ has been executed (R67). -/
structure Sq where
  size : Nat
  cq : Nat
  head : Nat := 0
  tail : Nat := 0
  stop : Option Nat := none
  counted : Bool := false
  deleting : Option Nat := none
deriving DecidableEq, Repr

/-- The NVMe statuses the spec names (R55 to R69, R97 of other chapters too). -/
inductive NvStatus where
  | success
  | invalidOpcode
  | invalidField
  | abortedSqDeletion
  | commandSequence
  | invalidNamespace
  | lbaOutOfRange
  | writeProtected
  | unrecoveredRead
  | nsIdUnavailable
  | nsInsufficient
  | invalidQueueId
  | invalidQueueSize
  | invalidVector
  | cqInvalid
  | invalidQueueDeletion
  | internalError
  | sanitizeInProgress
  /-- Status Code Type 7h, Status Code C0h (R69). -/
  | vendor
deriving DecidableEq, Repr

/-- A completion entry (R69): Dword 0, Dword 1, status field, SQ and CID. -/
structure Cqe where
  dw0 : Nat := 0
  dw1 : Nat := 0
  status : NvStatus := .success
  sq : Nat := 0
  sqHead : Nat := 0
  cid : Nat := 0
deriving DecidableEq, Repr

/-- A completion queue (R59, R62): `posted` entries the host has not freed, oldest first; `waiting` tags whose completion
waits for a slot, oldest first. -/
structure Cq where
  size : Nat
  vector : Nat := 0
  ien : Bool := false
  tail : Nat := 0
  posted : List Cqe := []
  waiting : List Nat := []
deriving DecidableEq, Repr

/-- Where a tracked command stands (R61-R63). -/
inductive CmdPhase where
  | fetched     -- not started
  | started
  | stopping    -- started, to stop at its next step boundary (R67)
  | finished    -- its completion waits for a CQ slot (R62)
deriving DecidableEq, Repr

/-- The result area of a running vendor command (R77, R78): counters of the last header written, and the data written
since. -/
structure Result where
  seq : Nat := 0
  flags : Nat := 0
  bytes : Nat := 0
  records : Nat := 0
  /-- Bytes and records written since the last header. -/
  newBytes : Nat := 0
  newRecords : Nat := 0
  status : Nat := 0
  snapshot : Nat := 0
  steps : Nat := 0
  /-- HD count of the last update. -/
  updated : Nat := 0
  full : Bool := false
deriving DecidableEq, Repr

/-- A request-tracker entry (R61): `seq` is the order of fetch. -/
structure Trk where
  fn : Nat := 0
  sq : Nat := 0
  sqe : Sqe := {}
  phase : CmdPhase := .fetched
  seq : Nat := 0
  fetchCount : Nat := 0
  /-- An extra mark of the command's own: the command has been admitted by its row. -/
  admitted : Bool := false
  completion : Option Cqe := none
  result : Option Result := none
deriving DecidableEq, Repr

/-- The queue statistics of R79. -/
structure QStats where
  trackerHigh : Nat := 0
  stallTracker : Nat := 0
  stallOrdered : Nat := 0
  cqFullWaits : Nat := 0
  abortRequests : Nat := 0
  resultFull : Nat := 0
  stopped : Nat := 0
deriving DecidableEq, Repr

/-- An NVMe controller and its function (R50-R68). -/
structure Ctrl where
  /-- PERST# asserted. -/
  perst : Bool := true
  port : PortState := .down
  /-- Configuration space answers (R52). -/
  cfg : Bool := false
  /-- Trained speed, 1 to 6 for 2.5 to 64 GT/s, and trained width; 0 while the link is not up (R50). -/
  speed : Nat := 0
  width : Nat := 0
  /-- Flit mode is in use (R50). -/
  flit : Bool := false
  /-- The PCIe controls of R53 at their places of the PCIe base specification (log 92): Device Control with payload size, read request
  size and Relaxed Ordering; Device Control 2 with 10-bit tags; Link Control with ASPM; the AER control with ECRC. -/
  devCtl : Nat := 0x2810
  devCtl2 : Nat := 0
  linkCtl : Nat := 0
  aerCtl : Nat := 0
  en : Bool := false
  rdy : Bool := false
  cfs : Bool := false
  resetting : Bool := false
  sqs : Tab Sq := []
  cqs : Tab Cq := []
  /-- Admin completions that wait for a slot of the admin CQ. -/
  adminWait : List Cqe := []
  /-- Outstanding Asynchronous Event Requests: their CIDs, oldest first. -/
  aers : List Nat := []
  /-- Feature values by feature identifier (R57). -/
  features : Tab Nat := []
  /-- Round robin: the I/O queue that had the last turn (R60). -/
  turn : Nat := 0
  /-- Fetching stopped because the share of the tracker is exhausted. -/
  stalled : Bool := false
  stats : QStats := {}
deriving DecidableEq, Repr

/-- A namespace (R54): its size in LBAs and its attachment to each controller. -/
structure Nspace where
  size : Nat := 0
  att0 : Bool := false
  att1 : Bool := false
deriving DecidableEq, Repr

/-- State of the host side (spec/03). -/
structure HostSide where
  /-- Port mode in use: two x4 ports (R51). -/
  bifurcated : Bool := false
  /-- BIFURCATE strap. -/
  strap : Bool := false
  c0 : Ctrl := {}
  c1 : Ctrl := {}
  trk : Tab Trk := []
  /-- Next number of the fetch order. -/
  fetchSeq : Nat := 0
  ns : Tab Nspace := []
deriving DecidableEq, Repr

/-- STATE of a mailbox (MB_STATUS). -/
inductive MbState where
  | idle | filling | busy | response | recovery
deriving DecidableEq, Repr

/-- MB_STATUS [2:0]. -/
def MbState.code : MbState → Nat
  | .idle => 0
  | .filling => 1
  | .busy => 2
  | .response => 3
  | .recovery => 4

/-- An event record (R100): class and detail; SEQ is given when it is queued. -/
structure Event where
  seq : Nat := 0
  cls : Nat
  code : Nat
  time : Nat := 0
  timeLocal : Bool := false
  detail : Bytes := []
deriving DecidableEq, Repr

/-- A mailbox (R80-R93, R100). -/
structure Mbox where
  state : MbState := .idle
  seqErr : Bool := false
  overflow : Bool := false
  reqBytes : Nat := 0
  inWords : Nat := 0
  inData : Bytes := []
  resp : Bytes := []
  outWords : Nat := 0
  eventIe : Bool := false
  respIe : Bool := false
  version : Option Nat := none
  caps1 : Nat := 0
  caps2 : Nat := 0
  caps3 : Nat := 0
  key : Option Nat := none
  lastCounter : Nat := 0
  badRun : Nat := 0
  lockUntil : Nat := 0
  badCheck : Nat := 0
  replay : Nat := 0
  events : List Event := []
  nextSeq : Nat := 1
  /-- Event class mask; every class until the first EVENT_MASK (R100). -/
  mask : Nat := 0xFFFE
  dropped : Nat := 0
  eventsLost : Nat := 0
deriving DecidableEq, Repr

/-- How far an AMP message has come. -/
inductive JobPhase where
  /-- To be executed by its row. -/
  | ready
  /-- Executed; its response waits for the work it started (R81). -/
  | working
  /-- Its response can be placed: status, payload. -/
  | done (st : Nat) (payload : Bytes)
deriving DecidableEq, Repr

/-- A message submitted (R81): mailbox, header fields, payload, and whether its response is discarded (ABANDON). -/
structure AmpJob where
  mb : Nat
  version : Nat := 1
  op : Nat
  tag : Nat := 0
  critical : Bool := false
  counter : Nat := 0
  payload : Bytes := []
  phase : JobPhase := .ready
  abandoned : Bool := false
  /-- The check key the message was accepted under (R94). -/
  key : Nat := 0
  /-- Sent over MCTP by this endpoint (management mailbox). -/
  endpoint : Nat := 0
  /-- HELLO did not report the message's feature when it was sent (R13, R472). -/
  missing : Bool := false
deriving DecidableEq, Repr

/-- What a long operation does (R96). -/
inductive OpKind where
  | install (cls : Nat) (id : Nat)
  | train (index : Nat)
  | fold (index : Nat)
  | scrub (space : Nat)
  | sanitize
  | fwVerify
  | fwCommit
deriving DecidableEq, Repr

/-- A long operation (R96, R497): ended with its ST code, or running with its progress. -/
structure Op where
  kind : OpKind
  progress : Nat := 0
  ended : Option Nat := none
deriving DecidableEq, Repr

/-- An object of the catalogue (R97-R99). -/
structure Obj where
  cls : Nat := 0
  id : Nat := 0
  source : Nat := 0
  size : Nat := 0
  nsid : Nat := 0
  slba : Nat := 0
  digest : Nat := 0
  data : Bytes := []
  /-- Number of the installation, so that commands admitted earlier keep their version (R98). -/
  ver : Nat := 0
  /-- RESIDENT regions it takes: cluster, region of the cluster (R306). -/
  regions : List (Nat × Nat) := []
  /-- Its allocations in HBM (R278): copies of its regions, or its code, tables or body. -/
  space : List Nat := []
deriving DecidableEq, Repr

/-- An installation that is running (R98). -/
structure Install where
  op : Nat := 0
  obj : Obj := {}
deriving DecidableEq, Repr

/-- State of the control plane (spec/04). -/
structure Amp where
  m0 : Mbox := {}
  m1 : Mbox := {}
  m2 : Mbox := {}
  /-- Messages submitted and not yet answered, in order of SEND (R81). -/
  jobs : List AmpJob := []
  ops : Tab Op := []
  nextOp : Nat := 1
  /-- Object catalogue, by class · 65,536 + ID. -/
  objects : Tab Obj := []
  installs : List Install := []
  /-- Replaced and removed versions that commands admitted before still use, with the tags of those commands (R98). -/
  old : List (Obj × List Nat) := []
  nextVer : Nat := 1
  /-- HD count of the last event notice of the management mailbox (R85). -/
  lastNotice : Option Nat := none
  /-- Endpoint that last completed HELLO on the management mailbox. -/
  helloEndpoint : Option Nat := none
  /-- The management queue became non-empty and no notice has been sent. -/
  noticeDue : Bool := false
deriving DecidableEq, Repr

end Sys2Proof.Machine
end

