-- ==== Sys2Proof/Machine/TPipe.lean ====
section
/-! DEFINITION. State of the channel pipelines (spec/05), of the SCAN commands they serve, and of what travels from them to the
merge-select unit. -/

namespace Sys2Proof.Machine

/-- A byte of a job's stream: its value, the locator of a record that starts at it (R116), its namespace position, the STAGE_ERR
code of an unusable byte (0 for a good one), whether a decoded block starts at it, and whether it is unusable padding, which S4
frames into no record. -/
structure SByte where
  b : Byte := 0
  loc : Nat := 0
  pos : Nat := 0
  err : Nat := 0
  start : Bool := false
  pad : Bool := false
deriving DecidableEq, Repr

/-- The list extent a VECTOR_LIST job expects (R137): index, list, extent number. -/
structure ListRef where
  index : Nat
  list : Nat
  ext : Nat
deriving DecidableEq, Repr

/-- A record that waits before S8 (R125): counts it adds, the STAGE_ERR of a poisoned span, and its candidate records by query and
key. -/
structure SItem where
  framed : Nat := 0
  passed : Nat := 0
  nan : Nat := 0
  err : Nat := 0
  span : Bool := false
  /-- S8 judges the candidates. -/
  judged : Bool := false
  cands : List (Nat × Nat × Bytes) := []
deriving DecidableEq, Repr

/-- A read of a page-list entry that is outstanding: entry, retry, codewords still to be decoded. -/
structure PRead where
  entry : Nat
  retry : Nat
  mask : Nat
deriving DecidableEq, Repr

/-- A channel job: as bound at admission (R107), and how far it has come. -/
structure ChJob where
  desc : Bytes
  /-- HD count of admission. -/
  t0 : Nat := 0
  /-- The installed version of the scan tables and their bytes. -/
  tablesVer : Nat := 0
  tables : Bytes := []
  /-- The key of KEY_SLOT in force at admission (R107). -/
  key : Option Nat := none
  /-- Number of the job on its channel since it started. -/
  serial : Nat := 0
  /-- Contents of page-list entries that lay in no flash page at admission, by entry, with a mask of their unreadable sectors. -/
  inline : Tab (Bytes × Nat) := []
  /-- The segment ends at its extent's end (R118). -/
  atEnd : Bool := true
  /-- The input of a seam job; the flag LONG of its records (R118). -/
  seam : Option (List SByte × Bool) := none
  listRef : Option ListRef := none
  /-- Predicate block and queries as bound at admission, and the command queries they stand for (R141). -/
  inBlock : Option (Bytes × List Bytes) := none
  qmap : List Nat := []
  -- running
  pages : List Bytes := []
  next : Nat := 0
  reads : List PRead := []
  got : Tab (List SByte) := []
  loading : Bool := false
  /-- Nothing further enters the stages. -/
  fed : Bool := false
  /-- Records and codec errors that the stages have made of the stream so far. -/
  made : Nat := 0
  codecs : Nat := 0
  items : List SItem := []
  /-- Candidate records past S8 that wait at S9. -/
  emit : List Bytes := []
  thresholds : List Nat := []
  /-- Leading candidates that a re-run suppresses (R125). -/
  skip : Nat := 0
  reran : Bool := false
  status : Nat := 0
  /-- First stage error. -/
  err : Nat := 0
  trunc : Bool := false
  poisoned : Bool := false
  long : Bool := false
  retries : Nat := 0
  emitted : Nat := 0
  framed : Nat := 0
  passed : Nat := 0
  nan : Nat := 0
  /-- Records its poisoned spans cost (R145). -/
  lostRecs : Nat := 0
  bytesIn : Nat := 0
  head : List SByte := []
  tail : List SByte := []
  middle : Bool := false
deriving DecidableEq, Repr

/-- A channel's pipeline. -/
structure Pipe where
  jobBase : Nat := 0
  cmplBase : Nat := 0
  jobHead : Nat := 0
  jobTail : Nat := 0
  cmplHead : Nat := 0
  cmplTail : Nat := 0
  cmplIe : Bool := false
  enable : Bool := false
  /-- Jobs bound and not started, in ring order. -/
  bound : List ChJob := []
  run : Option ChJob := none
  /-- The next job, whose S0 has started while the running job is in later stages (R106). -/
  ahead : Option ChJob := none
  /-- Jobs started. -/
  serial : Nat := 0
  /-- Version of the tables that S6 holds (R121). -/
  loaded : Nat := 0
  /-- Codec-error stalls and flash read retry stalls counted (R113, R115). -/
  codecStalls : Nat := 0
  retryStalls : Nat := 0
  /-- Interrupts sent to the data-plane keepers. -/
  interrupts : Nat := 0
  /-- Candidate records in the crossing queue, oldest first: merge instance, record, poisoned. -/
  sent : List (Nat × Bytes × Bool) := []
  /-- Of these, the ones whose words the merge-select unit has read. -/
  readable : Nat := 0
deriving DecidableEq, Repr

/-- The jobs of a channel that have not completed. -/
def Pipe.jobs (p : Pipe) : List ChJob := p.run.toList ++ p.ahead.toList ++ p.bound

/-- The fields of R110 that all the jobs of a command share. -/
structure JobForm where
  tag : Nat := noTag
  ext : Nat := 0
  bypass : Nat := 0
  frame : Nat := 0
  flags : Nat := 0
  recLen : Nat := 0
  key : Nat := 0
  obj : Nat := 0
  predAddr : Nat := 0
  npred : Nat := 0
  queries : Nat := 0
  dims : Nat := 0
  metric : Nat := 0
  elem : Nat := 0
  idOff : Nat := 0xFFFF
  attrOff : Nat := 0xFFFF
  vecOff : Nat := 0
  fb : Nat := 0
  qaddr : Nat := 0
  thr : Nat := 0
  maxRec : Nat := 0
  dest : Nat := 0
deriving DecidableEq, Repr

/-- The fragments a job of a SCAN left (R118): whether its segment was a middle one, head and tail. -/
structure Frag where
  head : List SByte := []
  tail : List SByte := []
  middle : Bool := false
deriving DecidableEq, Repr

/-- A segment's place: its job number, whether it begins and ends its extent. -/
structure Seg where
  job : Nat
  first : Bool
  last : Bool
deriving DecidableEq, Repr

/-- A running SCAN (R130). -/
structure Scan where
  form : JobForm := {}
  tablesVer : Nat := 0
  tables : Bytes := []
  inst : Nat := 0
  /-- Jobs not yet admitted: channel and bound job. -/
  todo : List (Nat × ChJob) := []
  /-- Jobs admitted whose completion the keeper has not taken in. -/
  open_ : List Nat := []
  segs : List Seg := []
  frags : Tab Frag := []
  /-- Seams that are still to run, by the job number of their first segment. -/
  seams : List Nat := []
  /-- Job number of the next seam job. -/
  nextJob : Nat := 0
  failed : Option Nat := none
deriving DecidableEq, Repr

/-- The pipelines and the commands they serve. -/
structure Pipes where
  chans : Tab Pipe := []
  /-- SCAN commands by request tag. -/
  scans : Tab Scan := []
deriving DecidableEq, Repr

end Sys2Proof.Machine
end

