-- ==== Sys2Proof/Machine/TSel.lean ====
section
/-! DEFINITION. State of the region selection units and of the merge-select unit (spec/07). -/

namespace Sys2Proof.Machine

/-- A selection descriptor queued or running (R169): its bytes, the issuing cluster and the attempt that issued it, with that task's
grants and request tag; or keeper firmware's own. -/
structure SelJob where
  desc : Bytes
  g : Nat := 0
  epoch : Nat := 0
  keeper : Bool := false
  grants : List (Nat × Nat) := []
  tag : Nat := noTag
  /-- A code that already decides its end. -/
  doomed : Option Nat := none
  /-- GATHER as it stood when the selection started (R168). -/
  gather : Bool := false
deriving DecidableEq, Repr

/-- A region selection unit. -/
structure SelUnit where
  gather : Bool := false
  enable : Bool := false
  queue : List SelJob := []
  run : Option SelJob := none
  done : Nat := 0
  poisoned : Nat := 0
  refused : Nat := 0
deriving DecidableEq, Repr

/-- A merge entry (R174). -/
structure MergeEntry where
  id : Nat := 0
  key : Nat := 0
  query : Nat := 0
  mask : Bool := false
  side : Bool := false
  poison : Bool := false
  close : Bool := false
  source : Nat := 0
  seq : Nat := 0
  list : Nat := 0
  /-- Span number of the module it comes from, where the query is fanned out (R414). -/
  span : Nat := 0
  /-- It belongs to the mask stream (R174). -/
  scan : Bool := false
deriving DecidableEq, Repr

/-- An open merge instance (R173): its 32-byte descriptor, thresholds by query, held entries oldest first, what has arrived, and
how many non-MASK entries of each query the last feedback counted. -/
structure Merge where
  desc : Bytes
  tag : Nat := noTag
  /-- This module's span number, where the query is fanned out. -/
  own : Nat := 0
  thresholds : Tab Nat := []
  held : List MergeEntry := []
  /-- Entries that wait for room (R176). -/
  waiting : List MergeEntry := []
  maskClosed : Bool := false
  jobsDone : Nat := 0
  closes : Nat := 0
  fed : Tab Nat := []
  /-- Entries passed to keeper firmware: poisoned, malformed, or in pass-through mode, in order of arrival. -/
  forwarded : List MergeEntry := []
deriving DecidableEq, Repr

/-- The selection machinery. -/
structure Selection where
  units : Tab SelUnit := []
  merges : Tab Merge := []
  overflows : Nat := 0
  /-- Entries displaced by a newer SEQ, and entries that lost to an equal-SEQ entry. -/
  masked : Nat := 0
  duplicates : Nat := 0
deriving DecidableEq, Repr

end Sys2Proof.Machine
end

