-- ==== Sys2Proof/Machine/TIndex.lean ====
section
/-! DEFINITION. State of the vector indexes and the ingest bindings (spec/06). -/

namespace Sys2Proof.Machine

/-- A namespace bound to an index and an embedding model (R153). -/
structure Binding where
  index : Nat := 0
  model : Nat := 0
  windowLog2 : Nat := 12
  /-- ATTR_FIXED. -/
  attr : Nat := 0
deriving DecidableEq, Repr

/-- A window marked pending (R154): namespace, byte position, and whether it has failed once. -/
structure Window where
  nsid : Nat
  pos : Nat
  failed : Bool := false
deriving DecidableEq, Repr

/-- A list extent of a version (R137): its logical units, its records, and CODED_BYTES. -/
structure ExtRef where
  units : List Nat := []
  recs : List Bytes := []
  coded : Nat := 0
deriving DecidableEq, Repr

/-- A version of an index (R148, R150): its fold sequence, its lists, the DEAD ones, the graph's edges by list. -/
structure Version where
  seq : Nat := 0
  lists : Tab (List ExtRef) := []
  dead : Tab Bool := []
  edges : Tab (List Nat) := []
deriving DecidableEq, Repr

/-- What a training left (R155, R156): BF16 centroids by list, the entry centroid, the first edges, and the tables of a PQ index:
rotation and codebooks. -/
structure Trained where
  centroids : List Bytes := []
  entry : Nat := 0
  edges : Tab (List Nat) := []
  rotation : Bytes := []
  books : Bytes := []
deriving DecidableEq, Repr

/-- A side entry (R146). -/
structure SideEntry where
  seq : Nat := 0
  list : Nat := 0
  delete : Bool := false
  id : Nat := 0
  attr : Bytes := []
  vec : Bytes := []
  full : Bytes := []
deriving DecidableEq, Repr

/-- A fold that is running (R150): its operation, none for an automatic one; F′; RECLUSTER with MIN_LIST. -/
structure Fold where
  op : Option Nat := none
  to_ : Nat := 0
  minList : Option Nat := none
deriving DecidableEq, Repr

/-- A training that is running (R155): its operation and its payload. -/
structure Training where
  op : Nat := 0
  req : Bytes := []
deriving DecidableEq, Repr

/-- An INDEX_QUERY that runs (R141-R145): index, snapshot, pinned F, and its input. -/
structure Query where
  index : Nat := 0
  /-- Which index of that number: indexes are told apart by their creation. -/
  born : Nat := 0
  snap : Nat := 0
  ver : Nat := 0
  inst : Nat := 0
  input : Bytes := []
  shade : Bool := false
  rerank : Nat := 0
  /-- Peers whose stream has not closed; LISTS, LOST, STALE_EDGES and POISONED that shards have reported, by query; entries of
  shards that are kept out of the merge because they have been reranked (R142, R414). -/
  shards : List Nat := []
  sums : List (Nat × Nat × Nat × Bool) := []
  remote : List MergeEntry := []
  /-- The peer that asks, and the number of its message (R414). -/
  asker : Option (Nat × Nat) := none
  /-- Lists chosen and stale edges met, by query. -/
  lists : List (List Nat) := []
  stale : List Nat := []
  /-- Records that could not be scored, and poison met, by query. -/
  lost : List Nat := []
  poisoned : List Bool := []
  /-- Jobs not yet admitted: channel and bound job. -/
  todo : List (Nat × ChJob) := []
  /-- Job numbers admitted whose completion the keeper has not taken in. -/
  jobs : List Nat := []
  /-- The command failed with this code. -/
  failed : Option Nat := none
deriving DecidableEq, Repr

/-- An index. -/
structure Index where
  /-- Number of its creation. -/
  born : Nat := 0
  /-- The 64 bytes of INDEX_CREATE (R135). -/
  form : Bytes := []
  trained : Option Trained := none
  cur : Version := {}
  /-- Older versions that queries pin. -/
  old : List Version := []
  /-- The fold sequences that the two copies of the root record name; none for a copy that no fold has written (R150). -/
  root0 : Option Nat := none
  root1 : Option Nat := none
  side : List SideEntry := []
  lastCommit : Nat := 0
  fold : Option Fold := none
  /-- A fold has ended with ST_NO_SPACE (R147). -/
  foldStuck : Bool := false
  training : Option Training := none
  /-- Inserts and deletes that wait for room, by tag, with their input (R147). -/
  waiting : List (Nat × Bytes) := []
  /-- Units of the extents of the full store (R136, R142). -/
  fullUnits : Tab (List Nat) := []
  /-- Dropped, and kept for its last readers (R157). -/
  dropped : Bool := false
  queries : Nat := 0
  shadeQueries : Nat := 0
  candidates : Nat := 0
  nanScores : Nat := 0
  staleEdges : Nat := 0
  lost : Nat := 0
  droppedUnreadable : Nat := 0
  folds : Nat := 0
  ingestDone : Nat := 0
  ingestFailed : Nat := 0
  truncated : Nat := 0
  insertWaits : Nat := 0
  displaced : Nat := 0
deriving DecidableEq, Repr

/-- State of the indexes. -/
structure Indexes where
  /-- Indexes by number. -/
  all : Tab Index := []
  /-- Dropped indexes that are still read. -/
  gone : List Index := []
  nextBorn : Nat := 1
  /-- Running queries by request tag. -/
  queries : Tab Query := []
  /-- Bindings by namespace. -/
  bindings : Tab Binding := []
  /-- Pending windows, in order of marking (R154). -/
  pending : List Window := []
  /-- IDs that bindings have inserted, by the index's creation (R154), and those of erased namespaces that are still to be deleted. -/
  ingested : List (Nat × Nat) := []
  erasing : List (Nat × Nat) := []
  /-- Writes that waited while the set of windows was full. -/
  windowWaits : Nat := 0
deriving DecidableEq, Repr

end Sys2Proof.Machine
end

