-- ==== Sys2Proof/Machine/TPower.lean ====
section
/-! DEFINITION. State of the power manager (spec/20), of boot and security (spec/21) and of the management plane (spec/22). -/

namespace Sys2Proof.Machine

/-- States of the peak window (R450). -/
inductive Peak where
  | armed | opened | spent | denied
deriving DecidableEq, Repr

/-- The codes of R450. -/
def Peak.code : Peak → Nat
  | .armed => 0
  | .opened => 1
  | .spent => 2
  | .denied => 3

/-- Why the module is in reset or flushing (R443, R455): the causes of RESTARTED, PWR_DIS among them. -/
inductive ResetCause where
  | commit | overvoltage | trip | pwrDis | lostDie | ebony | powerUp | other
deriving DecidableEq, Repr

/-- The power manager (R439-R457). Temperatures in whole °C, voltage in 10 mV, current in mA, powers in mW, times in µs. -/
structure Power where
  volts : Nat := 0
  amps : Nat := 0
  /-- Ladder code (R445). -/
  ladder : Nat := 0
  /-- Arithmetic clock level: 0 1.25 GHz, 1 1.0 GHz, 2 0.8 GHz (R454). -/
  clock : Nat := 0
  /-- Lowest permitted levels demanded by the hold, by current and draw, and by temperature (R449). -/
  demandHold : Nat := 0
  demandDraw : Nat := 0
  demandTherm : Nat := 0
  /-- HOLD asserted by WARN (R442) and by flash temperature (R452). -/
  holdWarn : Bool := false
  holdFlash : Bool := false
  flushing : Bool := false
  /-- The module is in reset; where a cause stands it is restarting under it. -/
  inReset : Bool := true
  cause : ResetCause := .powerUp
  tripLatch : Bool := false
  /-- The 42 V input has been lost since the last start (R38). -/
  vLost : Bool := false
  overvoltage : Bool := false
  pwrDis : Bool := false
  peak : Peak := .armed
  /-- Window time used (R450). -/
  windowUs : Nat := 0
  /-- The 120 s count (R450). -/
  recoverUs : Nat := 0
  /-- HD count from which the recheck after SPENT is due (R450). -/
  recheckAt : Option Nat := none
  /-- 1 ms average draw. -/
  draw : Nat := 0
  /-- HD count since which the draw has stayed below 540 W. -/
  lowSince : Option Nat := none
  /-- HD count since which every junction has read at or below 95 °C. -/
  coolSince : Option Nat := none
  /-- HD count since which inlet and flow have been within limits. -/
  flowOkSince : Option Nat := none
  holdupMj : Nat := 0
  holdupWeak : Bool := false
  holds : Nat := 0
  trips : Nat := 0
  clockSteps : Nat := 0
  tCd0 : Int := 0
  tCd1 : Int := 0
  tHd : Int := 0
  tInlet : Int := 0
  tOutlet : Int := 0
  tFlash : Int := 0
  /-- AMP target, 0xFF for none (R446). -/
  target : Nat := 0xFF
  nvmePs0 : Nat := 0
  nvmePs1 : Nat := 0
  /-- The module has left a non-operational state under R448, and no state has been asked for since. -/
  woken : Bool := false
  /-- Last operational state (R448). -/
  lastOper : Nat := 0
  /-- Write-rate governor in MB/s, 0 disarmed (R453). -/
  governor : Nat := 0
deriving DecidableEq, Repr

/-- A copy of a record in the boot flash (R458, R459). -/
inductive Copy (α : Type) where
  | blank
  /-- Neither blank nor valid: torn or half-erased. -/
  | bad
  | valid (seq : Nat) (v : α)
deriving DecidableEq, Repr

/-- The firmware slot (R458). -/
inductive FwSlot where
  /-- The image the module was shipped with. -/
  | shipped
  | image (b : Bytes)
  /-- Erased or part-written (R465). -/
  | torn
deriving DecidableEq, Repr

/-- How far the boot has come (R460, R461, R466). -/
inductive BootPhase where
  /-- Not booted since power-up or reset. -/
  | off
  /-- Step 1 failed: the module does not start. -/
  | dead
  /-- Steps 1 to 8 are done; the ready report of the keepers is awaited. -/
  | starting
  /-- In service, or Held. -/
  | running
  /-- ROM recovery mode. -/
  | recovery
deriving DecidableEq, Repr

/-- The staging buffer (R464): IMAGE_BYTES, the bytes taken, and whether FW_VERIFY has passed on them. -/
structure Staging where
  size : Nat
  data : Bytes
  verified : Bool := false
deriving DecidableEq, Repr

/-- Boot and security (spec/21). -/
structure Sec where
  /-- Anti-rollback counter: fuses blown (R458). -/
  counter : Nat := 0
  /-- Revocation fuses blown, by KEY_INDEX. -/
  revoked : List Nat := []
  slot : FwSlot := .shipped
  owner0 : Copy Nat := .blank
  owner1 : Copy Nat := .blank
  cfgA : Copy Bytes := .blank
  cfgB : Copy Bytes := .blank
  keys0 : Copy (Tab Nat) := .blank
  keys1 : Copy (Tab Nat) := .blank
  failedBoots : Nat := 0
  lastReason : Nat := 0
  phase : BootPhase := .off
  /-- HD count at which the keepers were started. -/
  startedAt : Nat := 0
  /-- Cause of Held (R101), 0 when not Held. -/
  held : Nat := 0
  owned : Bool := false
  /-- The owner public key in force. -/
  ownerKey : Nat := 0
  /-- The configuration record in force, 256 bytes; none for defaults. -/
  config : Option Bytes := none
  /-- The record in force at the last start, which gives the pool sizes and TIER_GIB (R472). -/
  pools : Option Bytes := none
  stage : Option Staging := none
  /-- Operations of an open FW_VERIFY and FW_COMMIT. -/
  verifyOp : Option Nat := none
  commitOp : Option Nat := none
  /-- HD count at which a restart that a message asked for is due (R466, R469). -/
  rebootAt : Option Nat := none
  /-- FW_VERSION and SVN of the running image. -/
  version : Nat := 0
  svn : Nat := 0
  /-- Header of the running image (R475). -/
  header : Bytes := []
  /-- Number of the data-encryption keys in force, by KEY_SLOT (R476). -/
  keys : Tab Nat := []
  /-- Wrap keys of the mailboxes (R468). -/
  wrap0 : Option Nat := none
  wrap1 : Option Nat := none
  wrap2 : Option Nat := none
deriving DecidableEq, Repr

/-- SPDM responder over MCTP (R475): what the requester has negotiated. -/
structure Spdm where
  versionAsked : Bool := false
  capsGiven : Bool := false
  algosDone : Bool := false
deriving DecidableEq, Repr

/-- The management plane (spec/22). -/
structure Mgmt where
  aux : Bool := false
  /-- ADDR_SEL as sampled. -/
  addrSel : Bool := false
  eid : Nat := 0
  /-- SMBus frequency code. -/
  freq : Nat := 1
  /-- The health status at the last clearing of the Health Status Change bits (R481). -/
  healthSeen : Option (List Nat) := none
  /-- Health Status Change bits enabled by Configuration Set. -/
  healthEnable : Nat := 0
  flashTemps : Tab Int := []
  spdm : Spdm := {}
deriving DecidableEq, Repr

end Sys2Proof.Machine
end

