-- ==== Sys2Proof/Machine/TCluster.lean ====
section
/-! DEFINITION. State of the clusters (spec/08 to spec/11) and of the movers' queues (spec/12). -/

namespace Sys2Proof.Machine

/-- State of a scratchpad bank (R272-R274, SP_BANK_STATE): CHANGING is one of the three middle ones. -/
inductive BankState where
  | on
  /-- CHANGING: a plain power-down waits for the inbound-write count. -/
  | downWait
  /-- CHANGING: a forced power-down. -/
  | downForce
  /-- CHANGING: powering up. -/
  | upping
  | off
  | retired
deriving DecidableEq, Repr

/-- The code of SP_BANK_STATE. -/
def BankState.code : BankState → Nat
  | .on => 0
  | .downWait => 1
  | .downForce => 1
  | .upping => 1
  | .off => 2
  | .retired => 3

/-- Why a steward core's instruction is stalled (R203): a full queue, a checked read of a slot, a slot.give to a cluster's slot,
a fence, a tile.cfg, a step.mark; `unitFull`: the queue of the mover or of the selection unit. -/
inductive StallWhy where
  | queueFull
  | unitFull
  | slotRead (slot : Nat)
  | slotGive (g : Nat) (slot : Nat)
  | fence
  | cfg
  | step
deriving DecidableEq, Repr

/-- A slot.give (or slot.clear) on its way to another cluster (R263): destination, slot, count; none for a clear. -/
structure RemoteSlot where
  dest : Nat
  slot : Nat
  give : Option Nat
deriving DecidableEq, Repr

/-- Privilege mode of a steward core (R193). -/
inductive Mode where
  | user | machine
deriving DecidableEq, Repr

/-- Architectural state of a steward core (R193, R195). -/
structure Core where
  pc : Nat := 0
  /-- x1 to x31, 64 bits. -/
  x : Tab Nat := []
  /-- f0 to f31, 64 bits. -/
  f : Tab Nat := []
  /-- v0 to v31, 512 bits. -/
  v : Tab Nat := []
  fcsr : Nat := 0
  vtype : Nat := 0
  vl : Nat := 0
  vstart : Nat := 0
  vxrm : Nat := 0
  vxsat : Nat := 0
  mcause : Nat := 0
  mtval : Nat := 0
  mepc : Nat := 0
  /-- Other machine-mode CSRs by number. -/
  csr : Tab Nat := []
  xlzst : Nat := 0
  mode : Mode := .machine
  /-- Not started since its reset: ENABLE starts it at CL_ENTRY (R204). -/
  fresh : Bool := true
  /-- Mode before the last trap. -/
  prev : Mode := .machine
  instret : Nat := 0
  /-- Cluster-local address and width of the reservation that LR holds. -/
  reservation : Option (Nat × Nat) := none
deriving DecidableEq, Repr

/-- A stationary tile as loaded (R190, R224): format, code width of a LUT tile, and the bytes of its sub-tiles in column
order. -/
structure Tile where
  fmt : Nat
  lutBits : Nat := 0
  data : Bytes := []
deriving DecidableEq, Repr

/-- A finished N block of a SEND stage (R244): the span number of a remote destination, the destination cluster, the rows'
cluster-local addresses and bytes, the slot and the count it is given. -/
structure ChainSend where
  span : Option Nat := none
  /-- Number of the message that carries it, once sent. -/
  msg : Option Nat := none
  cluster : Nat := 0
  rows : List (Nat × Bytes) := []
  slot : Nat := 0
  count : Nat := 0
deriving DecidableEq, Repr

/-- What a chain writes, in its order: a row or a record (module address and bytes), or a block that it sends. -/
inductive ChainPart where
  | store (a : Nat) (b : Bytes)
  | send (m : ChainSend)
deriving DecidableEq, Repr

/-- A fused chain admitted to a gang (R235): the descriptor as copied, the completion slot, the address of its chain.go, the static
scale records of its stages as the step's start found them (R220); and once it runs what it has still to write. -/
structure Chain where
  desc : Bytes
  slot : Nat := 0
  pc : Nat := 0
  statics : Tab Bytes := []
  ran : Bool := false
  parts : List ChainPart := []
  /-- Its reservation, input, operands and STORE targets: module address and length. -/
  spans : List (Nat × Nat) := []
  /-- One of them has been written while the chain ran: the values it writes are undefined (R253). -/
  tainted : Bool := false
deriving DecidableEq, Repr

/-- An operation of a gang's queue (R198-R200, R235). -/
inductive MxuOp where
  | load (addr fmt : Nat) (colread : Bool)
  | stream (addr stride afmt : Nat) (swap acc : Bool) (accRow rows : Nat)
  | drain (addr stride : Nat) (rowsum clear : Bool) (accRow rows : Nat)
  | chain (c : Chain)
deriving DecidableEq, Repr

/-- An operation in progress: a load with the buffer it writes, a stream with the buffer it reads; whether no other gang of the
cluster has had an operation in progress beside it. -/
structure Active where
  op : MxuOp
  buf : Bool := false
  alone : Bool := true
deriving DecidableEq, Repr

/-- A gang (R186, R189, R190): queued operations and those in progress, oldest first; which buffer is active; the tiles of
the two buffers; and the formats that issued loads and swaps will have left in them (R201). -/
structure Gang where
  queue : List MxuOp := []
  active : List Active := []
  side : Bool := false
  tile0 : Option Tile := none
  tile1 : Option Tile := none
  /-- Issue-time view: active side, and the formats loaded. -/
  viewSide : Bool := false
  view0 : Option Nat := none
  view1 : Option Nat := none
deriving DecidableEq, Repr

/-- A mover descriptor queued or in progress: its 64 bytes, who posted it, whether it has started, and whether what it waits
for (a T2 read) is under way. -/
structure MvJob where
  desc : Bytes
  keeper : Bool := false
  /-- The attempt that queued it (R267). -/
  epoch : Nat := 0
  started : Bool := false
  /-- A code that already decides its end. -/
  doomed : Option Nat := none
  /-- Waiting for a promotion from T2 of this tile. -/
  waitTile : Option Nat := none
deriving DecidableEq, Repr

/-- A cluster (R179). -/
structure Cluster where
  -- R204
  halt : Bool := false
  enable : Bool := false
  halted : Bool := false
  waiting : Option StallWhy := none
  gang : Nat := 0
  pack : Nat := 0
  gz4 : Bool := false
  faultMultiple : Bool := false
  faultFirst : Bool := false
  faultSt : Nat := 0
  /-- An MXU fault that the next tile, chain or fence instruction raises (R202). -/
  async : Option Nat := none
  entry : Nat := 0
  rowCycles : Nat := 0
  gatedColumns : Nat := 0
  core : Core := {}
  /-- Lines of the instruction cache (R193): address of 64 bytes, oldest first, and what they hold. -/
  icache : List (Nat × Bytes) := []
  g0 : Gang := {}
  g1 : Gang := {}
  g2 : Gang := {}
  g3 : Gang := {}
  /-- Accumulators by (MXU · 1,024 + row) · 32 + column, and row sums by gang MXU · 1,024 + row: 32-bit codes. -/
  acc : Tab Nat := []
  rowSum : Tab Nat := []
  /-- Number of the undefined contents of an MXU's accumulators and row sums; 0 when defined (R202, R204). -/
  accGen : Tab Nat := []
  -- R234
  cvSat : Nat := 0
  cvNonfinite : Nat := 0
  cvWidened : Nat := 0
  cvLast : Nat := 0
  /-- Saturated elements of the attempt in progress (R230). -/
  satNow : Nat := 0
  -- R276
  pwrSt : Nat := 0
  clearing : Bool := false
  pwrBusy : Bool := false
  pwrForce : Bool := false
  pwrUp : Bool := false
  pwrBank : Nat := 0
  /-- Count of the compute die at which the plain power-down was requested (R272). -/
  pwrSince : Nat := 0
  banks : Tab BankState := []
  retireBank : Nat := 0
  slotLimit : Nat := 1250000
  parErrors : Nat := 0
  parResident : Bool := false
  parMultiple : Bool := false
  parFirst : Bool := false
  parAddr : Nat := 0
  underruns : Nat := 0
  overruns : Nat := 0
  postedFull : Nat := 0
  narrowWait : Nat := 0
  dropped : Nat := 0
  /-- RESIDENT marks: bit j of bank n. -/
  resident : Tab Nat := []
  /-- Address of the recorded copy of a RESIDENT region, by bank · 16 + region; bit 63 set for a copy on flash. -/
  copies : Tab Nat := []
  /-- RESIDENT regions that wait for a reload, by bank · 16 + region (R270). -/
  reloads : List Nat := []
  /-- A slot message on its way from this cluster's core. -/
  remote : Option RemoteSlot := none
  /-- Number of the attempt of a step the flag store belongs to (R267, R356). -/
  epoch : Nat := 0
  /-- Slot flags: 256 · FULL + COUNT (R263). -/
  slots : Tab Nat := []
  -- R303
  mvEnable : Bool := false
  mvDone : Nat := 0
  mvMultiple : Bool := false
  mvFirst : Bool := false
  mvSt : Nat := 0
  movers : List MvJob := []
  stalls : Tab Nat := []
  writtenBack : Nat := 0
  cleanSkipped : Nat := 0
  fallback : Nat := 0
  /-- Clean 1 KiB granules, by granule; every other one is dirty (R284). -/
  clean : Tab Bool := []
deriving DecidableEq, Repr

end Sys2Proof.Machine
end

