-- ==== Sys2Proof/Machine/TSched.lean ====
section
/-! DEFINITION. State of the partitions and their tasks (spec/15, R343-R360; R230, R431, R432). -/

namespace Sys2Proof.Machine

/-- A quantise stage of a step (R230): the address of its chain.go, its number, its conversion word and its SAT_LIMIT. The clusters of
a partition that run the same stage agree in all of them. -/
structure StageKey where
  pc : Nat
  stage : Nat
  word : Nat
  limit : Nat
deriving DecidableEq, Repr

/-- Saturations of a quantise stage in the present attempt, over the partition (R230). -/
structure StageSat where
  key : StageKey
  count : Nat
deriving DecidableEq, Repr

/-- A range of memory whose contents the spec leaves undefined: first byte, one past the last, range number. -/
structure Undef where
  lo : Nat
  hi : Nat
  gen : Nat
  /-- The parity of its words is undefined too (R274). -/
  par : Bool := false
deriving DecidableEq, Repr

/-- A step's snapshot of one cluster (R349): the core and the flag store. -/
structure Snap where
  core : Core := {}
  slots : Tab Nat := []
deriving DecidableEq, Repr

/-- The saved state of one cluster (R357): the cluster as it stood, and the contents and marks of its working set. -/
structure Save where
  cl : Cluster := {}
  mem : Tab Byte := []
  poison : Tab Bool := []
  /-- Undefined ranges of the working set, relative to the window. -/
  und : List (Nat × Nat × Bool) := []
  /-- The step's record of the cluster (R267, R349). -/
  snap : Snap := {}
  /-- The regions saved: cluster-local addresses of 64 KiB each. -/
  regions : List Nat := []
  /-- RERUN of the header: a fault was met while the save was written (R359). -/
  rerun : Bool := false
deriving DecidableEq, Repr

/-- A task (R346): one invocation of a program on a partition. -/
structure Task where
  kind : Nat := 0
  /-- Request tag; 0xFFFFFF for the keeper's own work. -/
  tag : Nat := 0xFFFFFF
  stamp : Nat := 0
  deadline : Option Nat := none
  program : Nat := 0
  /-- Place of its code, entry point and the working-set mask of the program as installed when the task was admitted (R98, R351). -/
  code : Nat := 0
  entry : Nat := 0
  wsMask : Nat := 0
  /-- HBM ranges of the command's objects and staging buffers (R343): address, length. -/
  grants : List (Nat × Nat) := []
  argAddr : Nat := 0
  argLen : Nat := 0
  resAddr : Nat := 0
  resRoom : Nat := 0
  session : Option Nat := none
  /-- The task's seed, the key of stochastic rounding (R229). -/
  seed : Nat := 0
  started : Bool := false
  /-- Number of the step that runs. -/
  stepNo : Nat := 0
  /-- Attempts of this step that a fault ended. -/
  faults : Nat := 0
  /-- CLASS and ADDR of the Vermilion faults of the attempt before, and those of this attempt. -/
  last : List (Nat × Nat) := []
  now : List (Nat × Nat) := []
  /-- A Crimson fault of this attempt took the step's own clusters, memories or links. -/
  crimson : Bool := false
  /-- A code with which the step ends. -/
  doom : Option Nat := none
  /-- The step is to be re-run once the reloads of its clusters have ended (R270). -/
  rerunDue : Bool := false
  /-- Cores waiting at the mark, and cores that have executed TASK_END. -/
  arrived : List Nat := []
  ended : List Nat := []
  /-- Cores that had ended when the step began. -/
  endedBefore : List Nat := []
  /-- Uncommitted RUN_EMIT pieces (R431), oldest first. -/
  emitted : List Bytes := []
  sat : List StageSat := []
  /-- Stages widened in the present run of the step (R231). -/
  widened : List StageKey := []
  /-- Module memory as it stood when the step started, in which its chains' static scale records are read (R220). -/
  startMem : Tab Byte := []
  startUndef : List Undef := []
  /-- Saved images by cluster while the task is pre-empted. -/
  saved : Tab Save := []
  isSaved : Bool := false
  /-- Save areas in the tensor pool, and the bytes of a save (R357). -/
  saveAreas : List Nat := []
  saveSize : Nat := 0
deriving DecidableEq, Repr

/-- A run queue (R344, R347). -/
structure RunQueue where
  priority : Nat := 0
  weight : Nat := 1
  preempt : Bool := false
  v : Rat := 0
  tasks : List Task := []
deriving DecidableEq, Repr

/-- A pre-emption in progress (R355): when it began. -/
structure Switch where
  since : Nat
deriving DecidableEq, Repr

/-- A partition (R343-R347, R360). -/
structure Partition where
  tenant : Nat := 0
  mask : Nat := 0
  quantum : Nat := 100
  kindQueue : List Nat := []
  hbm : List (Nat × Nat) := []
  q0 : RunQueue := {}
  q1 : RunQueue := {}
  q2 : RunQueue := {}
  q3 : RunQueue := {}
  /-- The running task, the queue it came from, up to when its time is accounted for, and when its quantum began. -/
  run : Option Task := none
  runQueue : Nat := 0
  runSince : Nat := 0
  quantumFrom : Nat := 0
  switch : Option Switch := none
  /-- Bytes of a save that has just ended, until the task after it starts (R358). -/
  savedOut : Option Nat := none
  /-- Clusters still to be cleared for the tenant, as a mask (R345). -/
  toClear : Nat := 0
  /-- A task has started since the partition was made or its TENANT changed (R345). -/
  begun : Bool := false
  tasksDone : Nat := 0
  preemptions : Nat := 0
  switchUs : Nat := 0
  switchBytes : Nat := 0
  steps : Nat := 0
  reruns : Nat := 0
  preemptWaits : Nat := 0
  runUs : Tab Nat := []
deriving DecidableEq, Repr

/-- State of the scheduler: partitions by number, and step snapshots by cluster. -/
structure Sched where
  parts : Tab Partition := []
  snaps : Tab Snap := []
  /-- Number of the next attempt. -/
  nextEpoch : Nat := 1
deriving DecidableEq, Repr

end Sys2Proof.Machine
end

