-- ==== Sys2Proof/Machine/TSpan.lean ====
section
/-! DEFINITION. State of the span links (spec/18). -/

namespace Sys2Proof.Machine

/-- The states of R412. -/
inductive PeerState where
  | ready | slow | faulty | absent | refused
deriving DecidableEq, Repr

/-- Their codes in SPAN events and SPAN_STATUS. -/
def PeerState.code : PeerState → Nat
  | .ready => 1
  | .slow => 2
  | .faulty => 3
  | .absent => 4
  | .refused => 5

/-- LINK of a port (R418). -/
inductive SpanLink where
  | down | training | up
deriving DecidableEq, Repr

/-- The codes of LINK. -/
def SpanLink.code : SpanLink → Nat
  | .down => 0
  | .training => 1
  | .up => 2

/-- A span port (R405, SL registers). -/
structure SPort where
  link : SpanLink := .down
  enable : Bool := false
  fecLock : Bool := false
  tx : Nat := 0
  rx : Nat := 0
  icv : Nat := 0
  malformed : Nat := 0
  retx : Nat := 0
deriving DecidableEq, Repr

/-- A path to a peer over one port (R406, R407): up; a bring-up in progress since an HD count, and whether steps 3 to 5 are done;
successive retransmission timeouts. -/
structure SPath where
  up : Bool := false
  since : Option Nat := none
  keyed : Bool := false
  fails : Nat := 0
deriving DecidableEq, Repr

/-- A DATA frame kept until it is acknowledged (R409, R410). `sent`: it has been sent at least once; `naks`: how often it was
NAKed. -/
structure SFrame where
  seq : Nat
  cls : Nat
  first : Bool := false
  last : Bool := false
  msg : Nat
  off : Nat := 0
  data : Bytes := []
  port : Nat := 0
  sent : Bool := false
  sentAt : Nat := 0
  retx : Bool := false
  naks : Nat := 0
deriving DecidableEq, Repr

/-- What a message serves: the chain that sends a block, an index query, a read, or an answer. -/
inductive MsgUse where
  | tile (g u : Nat)
  | query (key : Nat)
  | read (id : Nat)
  | reply
deriving DecidableEq, Repr

/-- A message that has not ended (R411). -/
structure OutMsg where
  num : Nat
  use : MsgUse
deriving DecidableEq, Repr

/-- A peer (R406 to R412). -/
structure SPeer where
  state : PeerState := .absent
  /-- HD count of the last change of state. -/
  since : Nat := 0
  p0 : SPath := {}
  p1 : SPath := {}
  epoch : Nat := 0
  peerEpoch : Option Nat := none
  txNext : Nat := 0
  acked : Nat := 0
  /-- Frames with a SEQ below this may be sent. -/
  limit : Nat := 0
  rxNext : Nat := 0
  /-- Frames with a SEQ below this have been granted to the peer. -/
  grant : Nat := 0
  unacked : List SFrame := []
  msgs : List OutMsg := []
  nextMsg : Nat := 0
  /-- Frames that came out of order, by SEQ. -/
  held : Tab Bytes := []
  gapSince : Option Nat := none
  nakDone : Bool := false
  /-- Bytes of the messages being taken, by class. -/
  parts : Tab Bytes := []
  /-- HD counts: last frame accepted; last advance of its acknowledgements; the session's key. -/
  heard : Nat := 0
  advanced : Nat := 0
  keyAt : Nat := 0
  oldKey : Bool := false
  /-- HD counts of the ICV_FAIL and MALFORMED frames of the last second. -/
  bad : List Nat := []
  /-- HD counts of the frames sent again in the last second; the smoothed round trip. -/
  resent : List Nat := []
  rtt : Nat := 0
deriving DecidableEq, Repr

/-- A SPAN_READ under way (R415): destination, bytes, and the cluster, attempt and slot it posts. -/
structure SRead where
  id : Nat
  dst : Nat
  len : Nat
  g : Nat
  epoch : Nat
  slot : Nat
deriving DecidableEq, Repr

/-- The span links. -/
structure Span where
  /-- The SPAN_CONFIG in force, 416 bytes; empty for none. -/
  config : Bytes := []
  /-- Permitted peers: digest by span number (R417). -/
  permitted : Tab Nat := []
  p0 : SPort := {}
  p1 : SPort := {}
  peers : Tab SPeer := []
  reads : List SRead := []
  nextRead : Nat := 0
  nextEpoch : Nat := 1
  /-- Frames the last span command sent: port, bytes from the transport header on. -/
  out : List (Nat × Bytes) := []
deriving DecidableEq, Repr

end Sys2Proof.Machine
end

