-- ==== Sys2Proof/Machine/TStore.lean ====
section
/-! DEFINITION. State of the media ROM (spec/16) and of the flash translation (spec/17). -/

namespace Sys2Proof.Machine

/-! ## Media -/

/-- What a flash page holds: nothing since its last erase; its data and the 32 bytes of its page tag; or an undefined unit with
its number among the free values (R377). -/
inductive FPage where
  | erased
  | written (data tag : Bytes)
  | undef (gen : Nat)
deriving DecidableEq, Repr

/-- State of a block (R370). -/
inductive BlockState where
  | closed | openTlc | openSlc
deriving DecidableEq, Repr

/-- BSTATE of a completion record (R370). -/
def BlockState.code : BlockState → Nat
  | .closed => 0
  | .openTlc => 1
  | .openSlc => 2

/-- A block: its state and its write pointer; `closing`: a CLOSE waits for the program in progress (R381). -/
structure MBlock where
  state : BlockState := .closed
  wp : Nat := 0
  closing : Bool := false
deriving DecidableEq, Repr

/-- A request the ROM has accepted and not ended (R366): ring, its 32 bytes, and how far it has come. -/
structure MOp where
  ring : Nat := 0
  req : Bytes := []
  /-- HD count of acceptance. -/
  t0 : Nat := 0
  running : Bool := false
  suspended : Bool := false
  suspends : Nat := 0
  /-- HD count of the start or the last resume; of the suspension while suspended. -/
  since : Nat := 0
  /-- A read that runs under a suspension. -/
  suspender : Bool := false
  /-- Reads served under the present suspension. -/
  served : Nat := 0
  /-- Data and tag of the pages that a program writes, as taken at its start. -/
  writes : List (Bytes × Bytes) := []
deriving DecidableEq, Repr

/-- A channel's media ROM. -/
structure MChan where
  reqBase : Nat := 0
  cmplBase : Nat := 0
  reqHead : Nat := 0
  reqTail : Nat := 0
  cmplHead : Nat := 0
  cmplTail : Nat := 0
  ie : Bool := false
  enable : Bool := false
  ready : Bool := false
  params : Option Bytes := none
  /-- MR_LOST. -/
  lost : Nat := 0
  suspends : Nat := 0
  readWaits : Nat := 0
  timeouts : Nat := 0
  /-- Interrupts sent to the data-plane keepers. -/
  interrupts : Nat := 0
  /-- Blocks by page address ÷ 2,048. -/
  blocks : Tab MBlock := []
  /-- Accepted requests in order of acceptance. -/
  ops : Tab MOp := []
  nextOp : Nat := 0
  /-- Programs since the reset entry (SEQ_FORM of R376). -/
  programs : Nat := 0
  /-- Die temperatures sampled, by target. -/
  temps : Tab Int := []
  /-- Ring 1: requests that S0 has entered and the ROM has not taken. -/
  ring1 : List Bytes := []
deriving DecidableEq, Repr

/-- The media of the module. -/
structure Media where
  chans : Tab MChan := []
  /-- Pages by channel · 2^30 + page address (R362). -/
  pages : Tab FPage := []
  /-- How the translation layer's pages are encrypted: key and LBA of codeword 0, by the same numbers (R113, R476). -/
  covers : Tab (Nat × Nat) := []
  hold : Bool := false
  flush : Bool := false
  /-- MR_HOST_TIME. -/
  timeValid : Bool := false
  minutes : Nat := 0
deriving DecidableEq, Repr

/-! ## Flash translation -/

/-- Who holds a range of logical units (R382). -/
inductive SpaceOwner where
  | ns (n : Nat)
  | index (i : Nat)
  | tier
deriving DecidableEq, Repr

/-- A range of logical units: owner, first unit, count. -/
structure Region where
  owner : SpaceOwner
  start : Nat
  count : Nat
deriving DecidableEq, Repr

/-- A copy of a unit that lies in the write buffer until its program passes (R385), kept under its slot. -/
structure BufUnit where
  unit : Nat
  data : Bytes
  /-- Sectors that are unreadable (R386). -/
  poison : Nat := 0
  kind : Nat := 0
  jseq : Nat := 0
  /-- The slot the unit had before. -/
  was : Nat := 0xFFFFFFFF
  /-- The granule commit it belongs to, by the JSEQ of its first entry: its units are found new together or old together (R65). -/
  group : Nat := 0
  /-- A collector's copy, whose program has passed before its journal entry (R393). -/
  gc : Bool := false
deriving DecidableEq, Repr

/-- A unit of a granule commit of which other units are still buffered (R65): it has been programmed at its slot, or unmapped. -/
structure Tied where
  unit : Nat
  slot : Nat
  was : Nat
  group : Nat
deriving DecidableEq, Repr

/-- Where an erase unit stands (R392, R396). `opened`: next page to be given a slot, next page to be programmed. `failed`: to be
relocated and retired, with the AUX code of BLOCK_RETIRED. -/
inductive EuState where
  | free
  | opened (next prog : Nat)
  | closed (seq : Nat)
  | failed (aux : Nat)
  | retired
deriving DecidableEq, Repr

/-- A sanitize: block erase or crypto erase, and who asked for it: an AMP operation or a controller's admin command (R400). Controller
number 2 stands for one that has been reset since: nothing is posted then. -/
structure Sanitizer where
  block : Bool
  op : Option Nat := none
  host : Option (Nat × Sqe) := none
deriving DecidableEq, Repr

/-- State of the flash translation and the health record. -/
structure Ftl where
  readOnly : Bool := false
  /-- Ranges of logical units in use, by their first unit. -/
  space : List Region := []
  /-- The map: slot of a unit; an unlisted unit is UNMAPPED (R383). -/
  map : Tab Nat := []
  buf : Tab BufUnit := []
  /-- Units whose granule commit is not wholly programmed yet (R65). -/
  tied : List Tied := []
  /-- Erase units; an unlisted one is free (R392). -/
  eus : Tab EuState := []
  /-- Next number of the order in which erase units close. -/
  closeSeq : Nat := 1
  /-- Last JSEQ given. -/
  jseq : Nat := 0
  /-- Journal entries in force (R389), oldest first. -/
  journal : List Bytes := []
  /-- JSEQ of the CHECKPOINT entry of each map chunk. -/
  checkpoints : Tab Nat := []
  /-- Granules committed of commands that have not completed, by tag. -/
  partials : Tab (List Nat) := []
  /-- Units freed by collection and not yet spent by paced host programs (R392). -/
  credit : Nat := 0
  /-- A secure discard that is running: its command, and the units it has unmapped, as runs (R398). -/
  discard : Option (Nat × List (Nat × Nat)) := none
  /-- Dump set to be used next (R395). -/
  dumpSet : Nat := 0
  /-- A flush has dumped the buffers, and replay is due (R395). -/
  dumpDue : Bool := false
  /-- The input reached RESET before the dump had passed (R444): the slots of the buffered units that were not dumped. -/
  dumpCut : Option (List Nat) := none
  /-- Replay has found an incomplete dump set: Critical Warning bit 4 (R444). -/
  dumpLost : Bool := false
  /-- A sanitize that is running (R400). -/
  sanitizer : Option Sanitizer := none
  -- the health record (R401, R402)
  factoryBad : Nat := 0
  retiredErase : Nat := 0
  retiredProgram : Nat := 0
  retiredSoftware : Nat := 0
  spareStart : Nat := 482653
  /-- Erases by erase unit. -/
  erases : Tab Nat := []
  hostBytes : Nat := 0
  mediaBytes : Nat := 0
  gcBytes : Nat := 0
  cwFirst : Nat := 0
  cwRetry : Nat := 0
  cwLost : Nat := 0
  programFails : Nat := 0
  eraseFails : Nat := 0
  timeouts : Nat := 0
  dumps : Nat := 0
  replayMs : Nat := 0
  freeMin : Nat := 3727360
  tempHist : Tab Nat := []
  tempMin : Option Int := none
  tempMax : Option Int := none
  /-- PE_AVG at the end of each of the last 169 hours of power-on time, newest first (R403). -/
  buckets : List Nat := []
  lifeShort : Bool := false
  spareLow : Bool := false
  worn : Bool := false
  mediaErrors : Nat := 0
  -- what the SMART log counts beside them (R401)
  readBytes : Nat := 0
  readCmds : Nat := 0
  writeCmds : Nat := 0
  powerCycles : Nat := 0
  powerHours : Nat := 0
  critMinutes : Nat := 0
deriving DecidableEq, Repr

end Sys2Proof.Machine
end

