-- ==== Sys2Proof/Machine/TTier.lean ====
section
/-! DEFINITION. State of the tiers and agent sessions (spec/12) and of generation, embedding and the tokenizer unit
(spec/13). -/

namespace Sys2Proof.Machine

/-- STATE of a session (R296, R297). -/
inductive SesState where
  | active | parked | cold | free
deriving DecidableEq, Repr

/-- The code of a session state (R76, R296). -/
def SesState.code : SesState → Nat
  | .active => 0
  | .parked => 1
  | .cold => 2
  | .free => 3

/-- What a session in the tier store holds (R297): its tensor record, its directory chunks and its coded tiles by tile. -/
structure ColdImage where
  header : Bytes := []
  chunks : List Bytes := []
  tiles : List (Nat × Bytes) := []
deriving DecidableEq, Repr

/-- Bytes an image takes in the session store (R298). -/
def ColdImage.size (img : ColdImage) : Nat :=
  (img.tiles.map fun p : Nat × Bytes => p.2.length).sum + 65536 * img.chunks.length + img.header.length

/-- What a session is doing between commands' admission and their end (R301): a PARK to T2 by a command or by a demotion for the
command named, and a RESUME from COLD: by SESSION_CTL, or for a command whose admission goes on afterwards. -/
inductive SesOp where
  | parkT2 (tag : Nat)
  | demote (forTag : Nat)
  | resume (tag : Nat)
deriving DecidableEq, Repr

/-- A session descriptor (R296), the commands that wait for it (R298) and its copy in the tier store. -/
structure Session where
  state : SesState := .free
  /-- The command that holds the session. -/
  busy : Option Nat := none
  model : Nat := 0
  /-- LAYERS, KV_HEADS, HEAD_DIM and KV_FMT of the model at OPEN (R325). -/
  shape : Bytes := []
  tokens : Nat := 0
  pages : Nat := 0
  root : Nat := 0
  seed : Nat := 0
  counter : Nat := 0
  lastUse : Nat := 0
  lastToken : Nat := 0
  waiting : List Nat := []
  op : Option SesOp := none
  image : Option ColdImage := none
  /-- Bytes of the KV pool that the closing step of its command waits for (R299). -/
  wants : Nat := 0
deriving DecidableEq, Repr

/-- A tuning tensor (R327, R329): its bytes and its BF16 master elements. -/
structure Tuning where
  bytes : Nat
  elems : Nat
deriving DecidableEq, Repr

/-- State of the tiers and the session engine. -/
structure Tiers where
  sessions : Tab Session := []
  /-- The session that no OPEN has taken yet, lowest ID; sessions from here upward are FREE and older in the free order than the
  freed ones (log 1). -/
  fresh : Nat := 0
  /-- Freed sessions, longest ago first (R297). -/
  freed : List Nat := []
  demoted : Nat := 0
  lostAtRestart : Nat := 0
  /-- Bytes of the tier store by position (R277). -/
  store : Tab Byte := []
  /-- Places of the tier store in use by COLD sessions and demoted tiles: position and bytes. -/
  places : Tab Nat := []
  /-- Live tuning tensors by HBM address (R327). -/
  tuning : Tab Tuning := []
  /-- Tensor records that movers have used: HBM addresses (R279). -/
  tensors : List Nat := []
  /-- Bytes in use by pool: 0 keeper, 1 resident copies, 2 index, 3 tensor, 4 KV (R278). -/
  poolUsed : Tab Nat := []
  /-- Allocations of the pools: address, pool and bytes. -/
  allocs : Tab (Nat × Nat) := []
deriving DecidableEq, Repr

/-- Bytes of the tier store in use. -/
def Tiers.storeUsed (t : Tiers) : Nat := (t.places.map (·.2)).sum

/-- The draft model of a GENERATE with its private KV (R319): the object, its manifest, the KV tensor's record, and how many of the
command's most recent tokens it holds. -/
structure Draft where
  model : Nat
  man : Bytes
  root : Nat
  tokens : Nat
deriving DecidableEq, Repr

/-- A running GENERATE or EMBED (R313-R323). -/
structure Gen where
  /-- Model in force, and its manifest as admitted (R325); the tokenizer's tables as admitted. -/
  model : Nat := 0
  man : Bytes := []
  tok : Bytes := []
  embed : Bool := false
  /-- The shade model is in force (R321). -/
  shade : Bool := false
  shadeShown : Bool := false
  /-- The shade and its program as they were installed when the command was admitted (R325). -/
  shadeObj : Option Obj := none
  shadeProg : Option Obj := none
  draft : Option Draft := none
  session : Option Nat := none
  -- GENERATE
  sampling : Bytes := []
  speculate : Bool := false
  outTokens : Bool := false
  maxNew : Nat := 0
  /-- Prompt tokens not yet prefilled. -/
  prompt : Nat := 0
  /-- Tokens held once they are: the session's tokens, the prompt and the new ones. -/
  held : Nat := 0
  /-- Of these, the tokens committed (prefilled or generated). -/
  done : Nat := 0
  fresh : Nat := 0
  seed : Nat := 0
  counter : Nat := 0
  verifySteps : Nat := 0
  /-- Bytes held back by the detokeniser (R309). -/
  tail : Bytes := []
  lastToken : Nat := 0
  -- EMBED
  /-- Token counts of the items still to run, in order. -/
  items : List Nat := []
  rerank : Bool := false
  inTokens : Nat := 0
  /-- The output scale record of the body (R304). -/
  scale : Bytes := []
deriving DecidableEq, Repr

/-- State of the tokenizer unit (R310, R326) and of the commands it serves. -/
structure Tokens where
  gens : Tab Gen := []
  /-- Requests queued: request tag, encode or detokenise, slices left. -/
  queue : List (Nat × Bool × Nat) := []
  replaced : Nat := 0
  forcedSplits : Nat := 0
deriving DecidableEq, Repr

end Sys2Proof.Machine
end

