-- ==== Sys2Proof/Machine/TUpd.lean ====
section
/-! DEFINITION. State of the update units (spec/14). -/

namespace Sys2Proof.Machine

/-- An update job (R334): its descriptor, the program's mode, the cluster and attempt it posts to, its ranges, and how it stands. -/
structure UJob where
  id : Nat
  desc : Bytes
  mode : Nat := 0
  g : Nat := 0
  epoch : Nat := 0
  /-- Seed of the task that submitted it (R336). -/
  seed : Nat := 0
  stack : Nat := 0
  /-- Ranges it may read, and of these the ones it may write: address, length (R333). -/
  reads : List (Nat × Nat) := []
  writes : List (Nat × Nat) := []
  /-- Units it runs on, by number; none while it is queued. -/
  units : List Nat := []
  /-- ST code it ends with. -/
  status : Nat := 0
  /-- The block, or for a whole job any number, that has failed once (R337). -/
  failedAt : Option Nat := none
  /-- Blocks committed by slices that have ended. -/
  blocks : Nat := 0
deriving DecidableEq, Repr

/-- An update unit (R342): the job that holds it, its slice, the blocks committed, and its registers' fields. -/
structure UUnit where
  job : Option Nat := none
  first : Nat := 0
  count : Nat := 0
  committed : List Nat := []
  running : Bool := false
  rerun : Bool := false
  st : Nat := 0
  jobs : Nat := 0
  reruns : Nat := 0
  failed : Nat := 0
deriving DecidableEq, Repr

/-- The update units, by die × 8 + unit, and their jobs in order of submission. -/
structure Upd where
  units : Tab UUnit := []
  jobs : List UJob := []
  nextJob : Nat := 0
deriving DecidableEq, Repr

/-- The job that holds a unit. -/
def Upd.jobOf (x : Upd) (u : Nat) : Option UJob :=
  match (Tab.get {} x.units u).job with
  | some i => x.jobs.find? fun j => j.id == i
  | none => none

end Sys2Proof.Machine
end

