-- ==== Sys2Proof/Machine/State.lean ====
section
/-! DEFINITION. The state of the module: everything the spec gives it, as plain data; the queue of waiting commands; reset;
the reasons a step could stop. -/

namespace Sys2Proof.Machine

/-- The three parts (R2). -/
inductive Part where
  | p064 | p128 | p256
deriving DecidableEq, Repr

/-- What the last command that returns something answered (log 5). -/
inductive Answer where
  | none
  /-- A register or slot value. -/
  | value (n : Nat)
  /-- Data. -/
  | data (b : Bytes)
  /-- Data of which some words are poisoned (their byte offsets ÷ 8). -/
  | poisoned (b : Bytes) (words : List Nat)
  /-- A word of a crossing queue: data, VALID_BYTES, POISON, EMPTY_READ (R43). -/
  | queueWord (b : Bytes) (valid : Nat) (poison : Bool) (empty : Bool)
  /-- A bus error with its ST code (R32, R423). -/
  | busError (st : Nat)
  /-- Unsupported Request (R34). -/
  | unsupportedRequest
  /-- PCIe Completer Abort (R423). -/
  | completerAbort
  /-- Request Retry Status (R52). -/
  | requestRetry
  /-- A completion of an admin command. -/
  | completion (c : Cqe) (b : Bytes)
  /-- A message sent to an endpoint of the management plane (R84, R85). -/
  | sent (ep : Nat) (b : Bytes)
deriving DecidableEq, Repr

/-- The state of the block. -/
structure State where
  /-- Commands waiting, first in, first out. -/
  pending : List Instr := []
  /-- Counter of the free values taken (log 8). -/
  free : Nat := 0
  /-- Which of the three parts this is (log 3). -/
  part : Part := .p064
  answer : Answer := .none
  /-- Module memory (R30): bytes by address, canonical; an unlisted byte reads 0 (log 2). -/
  mem : Tab Byte := []
  /-- Words marked poisoned or failing parity, by address ÷ 8 (R44, R268, R424). -/
  poison : Tab Bool := []
  /-- Ranges whose contents are undefined (log 8). -/
  undef : List Undef := []
  /-- Bytes the module has written to host memory (log 11). -/
  hostMem : Tab Byte := []
  fabric : Fabric := {}
  host : HostSide := {}
  amp : Amp := {}
  faults : Faults := {}
  power : Power := {}
  sec : Sec := {}
  mgmt : Mgmt := {}
  /-- Clusters by g (R179). -/
  cl : Tab Cluster := []
  sched : Sched := {}
  tiers : Tiers := {}
  tokens : Tokens := {}
  sel : Selection := {}
  index : Indexes := {}
  pipes : Pipes := {}
  media : Media := {}
  ftl : Ftl := {}
  span : Span := {}
  upd : Upd := {}
deriving DecidableEq, Repr

/-- The module right after reset: every field at the value the spec gives, or the one log 1 names. -/
def State.reset : State := {}

/-- Faults of the model. The spec gives every error of the block an effect, so no meaning raises one. -/
inductive Fault where
  /-- Raised by no command: kept so that the type is not empty. Safe. -/
  | none
deriving DecidableEq, Repr

/-- Refusals of the model. -/
inductive Refusal where
  /-- A command that has no meaning yet, by its mnemonic. Raised by Dispatch only. Safe. -/
  | notModelled (mnemonic : String)
deriving DecidableEq, Repr

/-- What a command answers. -/
abbrev Out := Host.Outcome State Fault Refusal

end Sys2Proof.Machine
end

