-- ==== Sys2Proof/Machine/Ops.lean ====
section
/-! DEFINITION. The named operations over the state: free values, memory, host memory, interrupts, stamps, events, fault
reports, long operations. -/

namespace Sys2Proof.Machine

/-- Exactly `n` bytes of a string, zeros where it is too short. -/
def fitTo (n : Nat) (b : Bytes) : Bytes := (b ++ List.replicate n 0).take n

/-- A little-endian field of a byte string. -/
def fieldAt (p : Bytes) (off k : Nat) : Nat := leNat ((p.drop off).take k)

/-! ## One update per field of the state -/

/-- Set what the last reading command returned. -/
def State.reply (s : State) (a : Answer) : State := { s with answer := a }
/-- Change the fabric. -/
def State.modFabric (s : State) (f : Fabric → Fabric) : State := { s with fabric := f s.fabric }
/-- Change the host side. -/
def State.modHost (s : State) (f : HostSide → HostSide) : State := { s with host := f s.host }
/-- Change the control plane. -/
def State.modAmp (s : State) (f : Amp → Amp) : State := { s with amp := f s.amp }
/-- Change the fault machinery. -/
def State.modFaults (s : State) (f : Faults → Faults) : State := { s with faults := f s.faults }

/-- Change the power manager. -/
def State.modPower (s : State) (f : Power → Power) : State := { s with power := f s.power }
/-- Change boot and security. -/
def State.modSec (s : State) (f : Sec → Sec) : State := { s with sec := f s.sec }
/-- Change the management plane. -/
def State.modMgmt (s : State) (f : Mgmt → Mgmt) : State := { s with mgmt := f s.mgmt }

/-- A cluster. -/
def State.cluster (s : State) (g : Nat) : Cluster := Tab.get {} s.cl g
/-- Change a cluster. -/
def State.modCl (s : State) (g : Nat) (f : Cluster → Cluster) : State := { s with cl := Tab.mod {} s.cl g f }
/-- Change the scheduler. -/
def State.modSched (s : State) (f : Sched → Sched) : State := { s with sched := f s.sched }

/-- Change the tiers. -/
def State.modTiers (s : State) (f : Tiers → Tiers) : State := { s with tiers := f s.tiers }
/-- Change the tokenizer unit and the commands it serves. -/
def State.modTokens (s : State) (f : Tokens → Tokens) : State := { s with tokens := f s.tokens }

/-- Change the selection machinery. -/
def State.modSel (s : State) (f : Selection → Selection) : State := { s with sel := f s.sel }
/-- Change the indexes. -/
def State.modIndex (s : State) (f : Indexes → Indexes) : State := { s with index := f s.index }
/-- Change the pipelines. -/
def State.modPipes (s : State) (f : Pipes → Pipes) : State := { s with pipes := f s.pipes }
/-- Change the media. -/
def State.modMedia (s : State) (f : Media → Media) : State := { s with media := f s.media }
/-- Change the flash translation. -/
def State.modFtl (s : State) (f : Ftl → Ftl) : State := { s with ftl := f s.ftl }

/-- Change the span links. -/
def State.modSpan (s : State) (f : Span → Span) : State := { s with span := f s.span }

/-- Change the update units. -/
def State.modUpd (s : State) (f : Upd → Upd) : State := { s with upd := f s.upd }

/-! ## Free values (log 8) -/

/-- The next free number. -/
def State.freeNum (s : State) : Nat := Config.freeNat s.free
/-- The next free choice. -/
def State.freeChoice (s : State) : Bool := Config.freeBool s.free
/-- Advance the counter of free values. -/
def State.used (s : State) : State := { s with free := s.free + 1 }

/-! ## Module memory (R30, R31, R44, R424) -/

/-- The undefined range an address lies in. -/
def undefAt : List Undef → Nat → Option Nat
  | [], _ => none
  | u :: us, a => if u.lo ≤ a ∧ a < u.hi then some u.gen else undefAt us a

/-- Take the addresses from `lo` up to `hi` out of the undefined ranges. -/
def undefCut (lo hi : Nat) : List Undef → List Undef
  | [] => []
  | u :: us =>
    if u.hi ≤ lo ∨ hi ≤ u.lo then u :: undefCut lo hi us
    else (if u.lo < lo then [{ u with hi := lo }] else []) ++ (if hi < u.hi then [{ u with lo := hi }] else [])
      ++ undefCut lo hi us

/-- The byte at an address. -/
def State.byteAt (s : State) (a : Nat) : Byte :=
  match undefAt s.undef a with
  | some g => Config.freeByte g a
  | none => Tab.get 0 s.mem a

/-- `n` bytes from `a` upward. -/
def State.bytesAt (s : State) (a : Nat) : Nat → Bytes
  | 0 => []
  | n + 1 => s.byteAt a :: s.bytesAt (a + 1) n

/-- The little-endian number of `n` bytes at `a`. -/
def State.natAt (s : State) (a n : Nat) : Nat := leNat (s.bytesAt a n)

/-- Is a word of the `n` bytes at `a` poisoned? -/
def State.poisonIn (s : State) (a n : Nat) : Bool :=
  s.poison.any (fun p => p.2 && decide (a < p.1 * 8 + 8) && decide (p.1 * 8 < a + n))

/-- Write bytes with good protection: they are defined afterwards. Words written whole lose their poison (R424); a word
written in part keeps it. -/
def State.writeMem (s : State) (a : Nat) (b : Bytes) : State :=
  if b = [] then s else
  { s with
    mem := Tab.setRange 0 s.mem a b
    undef := undefCut a (a + b.length) s.undef
    poison := s.poison.filter (fun p => !(decide (a ≤ p.1 * 8) && decide (p.1 * 8 + 8 ≤ a + b.length))) }

/-- Write a little-endian number of `k` bytes. -/
def State.writeNat (s : State) (a k n : Nat) : State := s.writeMem a (leBytes k n)

/-- Mark the word that holds an address as poisoned. -/
def State.poisonWord (s : State) (a : Nat) : State := { s with poison := Tab.set false s.poison (a / 8) true }

/-- Make the addresses from `lo` up to `hi` undefined, with whatever marks they carry taken off. -/
def State.undefine (s : State) (lo hi : Nat) (par : Bool := false) : State :=
  if hi ≤ lo then s else
  { s with
    mem := s.mem.filter (fun p => !(decide (lo ≤ p.1) && decide (p.1 < hi)))
    poison := s.poison.filter (fun p => !(decide (lo ≤ p.1 * 8) && decide (p.1 * 8 < hi)))
    undef := undefCut lo hi s.undef ++ [⟨lo, hi, s.free, par⟩]
    free := s.free + 1 }

/-- Clear the addresses from `lo` up to `hi` to zero with good protection. -/
def State.clearMem (s : State) (lo hi : Nat) : State :=
  { s with
    mem := s.mem.filter (fun p => !(decide (lo ≤ p.1) && decide (p.1 < hi)))
    poison := s.poison.filter (fun p => !(decide (lo ≤ p.1 * 8) && decide (p.1 * 8 < hi)))
    undef := undefCut lo hi s.undef }

/-- Write bytes to host memory (log 11). -/
def State.writeHost (s : State) (a : Nat) (b : Bytes) : State :=
  { s with hostMem := Tab.setRange 0 s.hostMem a b }

/-! ## Where an address lies (R30, R31) -/

/-- The parts of the module address map. -/
inductive Place where
  | hbm (stack : Nat)
  | sp (g bank off : Nat)
  | unpopulated
  | hub
  | dev (d : Die) (off : Nat)
  | unmapped
deriving DecidableEq, Repr

/-- The place of a module address (R30, R31). -/
def place (a : Nat) : Place :=
  if a < 0x000C00000000 then .hbm 0
  else if a < 0x001800000000 then .hbm 1
  else if 0x100000000000 ≤ a ∧ a < 0x100100000000 then
    let w := a - 0x100000000000
    if bits w 20 5 < 24 then .sp (w / 2 ^ 25) (bits w 20 5) (bits w 0 20) else .unpopulated
  else if 0xF00000000000 ≤ a ∧ a < 0xF00004000000 then .hub
  else if 0xF00010000000 ≤ a ∧ a < 0xF00011000000 then .dev .cd0 (a - 0xF00010000000)
  else if 0xF00011000000 ≤ a ∧ a < 0xF00012000000 then .dev .cd1 (a - 0xF00011000000)
  else if 0xF00012000000 ≤ a ∧ a < 0xF00013000000 then .dev .hd (a - 0xF00012000000)
  else .unmapped

/-- Module address of a byte of a cluster's scratchpad window (R30). -/
def spAddr (g local_ : Nat) : Nat := 0x100000000000 + g * 2 ^ 25 + local_

/-- Is a compute die out of service? (R433) -/
def State.dieLost (s : State) (k : Nat) : Bool := s.faults.lost.contains (.die (if k = 0 then .cd0 else .cd1))

/-! ## Local counts and stamps (R9, R38, R39) -/

/-- The local count of a die. -/
def State.count (s : State) : Die → Nat
  | .cd0 => s.fabric.cd0.now
  | .cd1 => s.fabric.cd1.now
  | .hd => s.fabric.hd.now

/-- The HD count. -/
def State.hdCount (s : State) : Nat := s.fabric.hd.now

/-- Host time in ms, where it has been given (R39). -/
def State.hostTime (s : State) : Option Nat :=
  match s.fabric.pair with
  | some (h, c) => some (h + (s.hdCount - c) / 1000)
  | none => none

/-- What keeper firmware writes to MR_HOST_TIME: host time in whole minutes with VALID, or 0 before host time has been given (R376). -/
def State.hostMinutes (s : State) : Nat :=
  match s.hostTime with
  | some t => t / 60000 % 2 ^ 32 + 2 ^ 32
  | none => 0

/-- Keeper firmware writes MR_HOST_TIME from the host-time pair (R9, R376). -/
def State.feedHostTime (s : State) : State :=
  s.modMedia fun m => { m with minutes := s.hostMinutes % 2 ^ 32, timeValid := bit s.hostMinutes 32 }

/-- The stamp of an event or record and whether it is the local count (R9). -/
def State.stamp (s : State) : Nat × Bool :=
  match s.hostTime with
  | some t => (t, false)
  | none => (s.hdCount, true)

/-! ## Interrupt vectors (R33, R35) -/

/-- Is an MSI-X vector masked? Bit 96 of its entry (log 14); an entry nothing has written is masked. -/
def State.msixMasked (s : State) (fn v : Nat) : Bool := bit (Tab.get (2 ^ 96) s.fabric.msixTable (fn * 2048 + v)) 96

/-- Signal a vector: it is sent, or pends while masked. -/
def State.signal (s : State) (fn v : Nat) : State :=
  if s.msixMasked fn v then s.modFabric fun f => { f with msixPending := Tab.set false f.msixPending (fn * 2048 + v) true }
  else s.modFabric fun f => { f with msix := Tab.mod 0 f.msix (fn * 4096 + v) (· + 1) }

/-! ## Mailboxes and events (R100, R101) -/

/-- A mailbox by its number. -/
def Amp.mb (a : Amp) : Nat → Mbox
  | 0 => a.m0
  | 1 => a.m1
  | _ => a.m2

/-- Change a mailbox. -/
def Amp.setMb (a : Amp) (k : Nat) (m : Mbox) : Amp :=
  match k with
  | 0 => { a with m0 := m }
  | 1 => { a with m1 := m }
  | _ => { a with m2 := m }

/-- Change a mailbox of the state. -/
def State.modMb (s : State) (k : Nat) (f : Mbox → Mbox) : State := s.modAmp fun a => a.setMb k (f (a.mb k))

/-- Does the mailbox take events of the class? EVENTS_LOST cannot be masked (R100). -/
def Mbox.admits (m : Mbox) (cls : Nat) : Bool := m.version.isSome && (cls == 9 || bit m.mask cls)

/-- Queue an event, or drop and count it (R100). -/
def Mbox.post (m : Mbox) (e : Event) : Mbox :=
  if m.events.length < 256 then
    { m with events := m.events ++ [{ e with seq := m.nextSeq }], nextSeq := m.nextSeq + 1 }
  else
    { m with dropped := m.dropped + 1, eventsLost := satAdd (2 ^ 32 - 1) m.eventsLost 1, nextSeq := m.nextSeq + 1 }

/-- EVENT_PENDING has gone from 0 to 1: signal the host, or note that a notice is due (R82, R85). -/
def State.eventEdge (s : State) (k : Nat) (was : Bool) : State :=
  let m := s.amp.mb k
  if was || m.events.isEmpty then s
  else if k < 2 then (if m.eventIe then s.signal k 1 else s)
  else s.modAmp fun a => { a with noticeDue := true }

/-- Post an event to one mailbox. -/
def State.postTo (s : State) (k : Nat) (e : Event) : State :=
  let m := s.amp.mb k
  if m.admits e.cls then (s.modMb k fun m => m.post e).eventEdge k (!m.events.isEmpty) else s

/-- Post an event to every mailbox that takes it, stamped (R100). -/
def State.post (s : State) (cls code : Nat) (detail : Bytes) : State :=
  let e : Event := { cls := cls, code := code, time := s.stamp.1, timeLocal := s.stamp.2, detail := detail }
  ((s.postTo 0 e).postTo 1 e).postTo 2 e

/-! ## Long operations (R96) -/

/-- Number of open long operations. -/
def Amp.openOps (a : Amp) : Nat := (a.ops.filter (fun p => p.2.ended.isNone)).length

/-- End a long operation with its ST code and post OP_DONE (R96, R101). An operation that is not open is left as it is. -/
def State.opDone (s : State) (id st : Nat) : State :=
  match Tab.find s.amp.ops id with
  | some o =>
    if o.ended.isNone then
      (s.modAmp fun a => { a with ops := Tab.put a.ops id { o with ended := some st, progress := 1000 } }).post 0x02 1
        (leBytes 4 id ++ leBytes 2 st)
    else s
  | none => s

/-- Open a long operation and answer its ID; none when 16 are open (R96). -/
def State.opOpen (s : State) (k : OpKind) : Option (Nat × State) :=
  if s.amp.openOps < 16 then
    some (s.amp.nextOp, s.modAmp fun a => { a with ops := Tab.put a.ops a.nextOp { kind := k }, nextOp := a.nextOp + 1 })
  else none

/-! ## Fault concentrators (R427, R428) -/

/-- A concentrator by its die. -/
def Faults.conc (f : Faults) : Die → Conc
  | .cd0 => f.cd0
  | .cd1 => f.cd1
  | .hd => f.hd

/-- Replace a concentrator. -/
def Faults.setConc (f : Faults) (d : Die) (c : Conc) : Faults :=
  match d with
  | .cd0 => { f with cd0 := c }
  | .cd1 => { f with cd1 := c }
  | .hd => { f with hd := c }

/-- Is a record open at a local count? (R427) -/
def FaultRec.openAt (r : FaultRec) (now : Nat) : Bool :=
  !r.closed && decide (now ≤ r.lastCount + 100) && decide (now < r.firstCount + 1000000)

/-- The slot of the open record of a class and source. -/
def Conc.matching (c : Conc) (now cls source : Nat) : Option Nat :=
  (c.slots.find? (fun p => p.2.fr.openAt now && p.2.fr.cls == cls && p.2.fr.source == source)).map (·.1)

/-- Records open in a concentrator. -/
def Conc.openCount (c : Conc) (now : Nat) : Nat := (c.slots.filter (fun p => p.2.fr.openAt now)).length

/-- The 64 bytes of a fault record (R425). -/
def FaultRec.bytes (r : FaultRec) : Bytes :=
  leBytes 4 r.record ++ leBytes 1 r.sev ++ leBytes 1 (b2n r.timeLocal + 2 * b2n r.closed + 4 * b2n r.isolated)
    ++ leBytes 2 r.cls ++ leBytes 4 r.source ++ leBytes 1 r.die ++ leBytes 3 r.tag ++ leBytes 8 r.firstCount
    ++ leBytes 8 r.lastCount ++ leBytes 4 r.count ++ leBytes 4 r.partners ++ leBytes 8 r.time ++ leBytes 8 r.addr
    ++ leBytes 2 r.st ++ leBytes 2 0 ++ leBytes 4 r.aux

/-- Set a bit of PARTNERS. -/
def setBit (n i : Nat) : Nat := if bit n i then n else n + 2 ^ i

/-- Classes whose record says that the module has isolated the unit (R433). -/
def classIsolates : FaultClass → Bool
  | .linkLost => true
  | .targetLost => true
  | .spanEngine => true
  | .clusterLost => true
  | _ => false

/-- The record a report opens. -/
def openRec (d : Die) (now : Nat) (r : Report) : FaultRec :=
  { sev := r.cls.sev.code, isolated := classIsolates r.cls, cls := r.cls.code, source := r.source, die := d.code, tag := r.tag
    firstCount := now, lastCount := now, count := 1, partners := 2 ^ r.partner, addr := r.addr, st := r.st, aux := r.aux }

/-- What a concentrator does with a report at a local count, and the slot it wrote (R427, R428, R438). -/
def Conc.report (c : Conc) (d : Die) (now : Nat) (r : Report) : Conc × Option Nat :=
  let c := { c with reports := satAdd (2 ^ 32 - 1) c.reports 1 }
  let drop := ({ c with dropped := satAdd (2 ^ 32 - 1) c.dropped 1 }, none)
  if !c.enable then drop else
  match c.matching now r.cls.code r.source with
  | some k =>
    match Tab.find c.slots k with
    | some sl =>
      ({ c with slots := Tab.put c.slots k { sl with fr := { sl.fr with
          count := satAdd (2 ^ 32 - 1) sl.fr.count 1, lastCount := now, partners := setBit sl.fr.partners r.partner } } },
        some k)
    | none => drop
  | none =>
    if c.openCount now < 64 ∧ c.used < 256 then
      let k := (c.head + c.used) % 256
      ({ c with used := c.used + 1, slots := Tab.put c.slots k { fr := openRec d now r }
                interrupts := c.interrupts + b2n c.ie }, some k)
    else drop

/-- Report a detection to the concentrator of its die (R427). The concentrator writes the record to its ring. -/
def State.report (s : State) (d : Die) (r : Report) : State :=
  let (c, k) := (s.faults.conc d).report d (s.count d) r
  let s := s.modFaults fun f => f.setConc d c
  match k with
  | some k =>
    match Tab.find c.slots k with
    | some sl => s.writeMem (c.ringBase + 64 * k) sl.fr.bytes
    | none => s
  | none => s

end Sys2Proof.Machine
end

