-- ==== Sys2Proof/Machine/HostOps.lean ====
section
/-! DEFINITION. Operations over the controllers, the request tracker, completions and result areas (R60-R79). -/

namespace Sys2Proof.Machine

/-- Does the module serve anything at all: out of reset, not flushing? (R443) -/
def State.alive (s : State) : Bool := !s.power.inReset && !s.power.flushing

/-- Is the 42 V input present? (R38) It is absent below RESET. -/
def State.mainOn (s : State) : Bool := decide (2800 ≤ s.power.volts)

/-- Is the always-on domain of HD powered, and with it the sideband? (R38, R479, R486) -/
def State.sideband (s : State) : Bool := s.mgmt.aux || s.mainOn

/-! ## Controllers -/

/-- A controller by its function. -/
def HostSide.ctrl (h : HostSide) (fn : Nat) : Ctrl := if fn = 0 then h.c0 else h.c1
/-- Replace a controller. -/
def HostSide.setCtrl (h : HostSide) (fn : Nat) (c : Ctrl) : HostSide := if fn = 0 then { h with c0 := c } else { h with c1 := c }
/-- A controller of the state. -/
def State.ctrl (s : State) (fn : Nat) : Ctrl := s.host.ctrl fn
/-- Change a controller. -/
def State.modCtrl (s : State) (fn : Nat) (f : Ctrl → Ctrl) : State := s.modHost fun h => h.setCtrl fn (f (h.ctrl fn))
/-- Change a controller's statistics. -/
def State.modStats (s : State) (fn : Nat) (f : QStats → QStats) : State :=
  s.modCtrl fn fun c => { c with stats := f c.stats }
/-- Change a submission queue. -/
def State.modSq (s : State) (fn q : Nat) (f : Sq → Sq) : State :=
  s.modCtrl fn fun c => match Tab.find c.sqs q with
    | some sq => { c with sqs := Tab.put c.sqs q (f sq) }
    | none => c
/-- Change a completion queue. -/
def State.modCq (s : State) (fn q : Nat) (f : Cq → Cq) : State :=
  s.modCtrl fn fun c => match Tab.find c.cqs q with
    | some cq => { c with cqs := Tab.put c.cqs q (f cq) }
    | none => c

/-- I/O queue pairs a function offers (R59, R33). -/
def HostSide.maxQueue (h : HostSide) : Nat := if h.bifurcated then 2048 else 4096
/-- The function's last MSI-X vector (R33, R35). -/
def HostSide.lastVector (h : HostSide) : Nat := if h.bifurcated then 1023 else 2047
/-- First tag of a controller's share of the tracker and its size (R61). -/
def HostSide.share (h : HostSide) (fn : Nat) : Nat × Nat :=
  if h.bifurcated then (if fn = 0 then (0, 524288) else (524288, 524288)) else (0, 1048576)
/-- Entries of an SQ placed and not fetched. -/
def Sq.avail (q : Sq) : Nat := if q.size = 0 then 0 else (q.tail + q.size - q.head) % q.size

/-! ## The request tracker (R61) -/

/-- A tracker entry. -/
def State.trk (s : State) (tag : Nat) : Option Trk := Tab.find s.host.trk tag
/-- Change a held tracker entry. -/
def State.modTrk (s : State) (tag : Nat) (f : Trk → Trk) : State :=
  s.modHost fun h => match Tab.find h.trk tag with
    | some t => { h with trk := Tab.put h.trk tag (f t) }
    | none => h
/-- Entries held by a controller (R79). -/
def HostSide.inUse (h : HostSide) (fn : Nat) : Nat := (h.trk.filter (fun p => p.2.fn == fn)).length
/-- Free a tracker entry: its SQ goes on behind an ordered command, and fetching resumes (R61, R63). -/
def State.freeTrk (s : State) (tag : Nat) : State :=
  match s.trk tag with
  | some t =>
    let s := s.modHost fun h => { h with trk := Tab.del h.trk tag }
    let s := s.modSq t.fn t.sq fun q => if q.stop = some tag then { q with stop := none, counted := false } else q
    s.modCtrl t.fn fun c => { c with stalled := false }
  | none => s

/-- Count a stop of fetching behind an ordered command, once, when a further entry is available (R79). -/
def State.noteOrdered (s : State) (fn q : Nat) : State :=
  match Tab.find (s.ctrl fn).sqs q with
  | some sq =>
    if sq.stop.isSome && !sq.counted && decide (0 < sq.avail) then
      (s.modSq fn q fun x => { x with counted := true }).modStats fn fun t =>
        { t with stallOrdered := satAdd (2 ^ 64 - 1) t.stallOrdered 1 }
    else s
  | none => s

/-! ## Completions (R62, R69) -/

/-- Has the CQ a free slot? A queue of n entries holds n - 1. -/
def Cq.room (q : Cq) : Bool := decide (q.posted.length + 1 < q.size)

/-- Put a completion entry into a CQ that has room and signal its vector (R35, R62). -/
def State.pushCqe (s : State) (fn q : Nat) (e : Cqe) : State :=
  match Tab.find (s.ctrl fn).cqs q with
  | some cq =>
    let s := s.modCq fn q fun c => { c with posted := c.posted ++ [e], tail := (c.tail + 1) % c.size }
    if cq.ien then s.signal fn cq.vector else s
  | none => s

/-- Does a tracked command wait for its session? -/
def State.waitsFor (s : State) (tag : Nat) : Bool :=
  match s.trk tag with
  | some t => t.admitted && (t.phase == .fetched || t.phase == .started)
  | none => false

/-- Let commands that wait go on: their rows come again. -/
def wakeWaiters : List Nat → State → State
  | [], s => s
  | t :: l, s => wakeWaiters l (if s.waitsFor t then s.modTrk t fun k => { k with phase := .started, admitted := false } else s)

/-- A command on a session has ended: those that wait for the session are judged again (R298). -/
def State.wakeSession (s : State) (e : Sqe) : State :=
  if e.isVendor && e.sessionValid then
    wakeWaiters (Tab.get {} s.tiers.sessions e.session).waiting
      (s.modTiers fun t => { t with sessions := Tab.mod {} t.sessions e.session fun x => { x with waiting := [] } })
  else s

/-- Complete a tracked command: post the entry and free the tracker entry, or wait for a CQ slot (R62). A command of a
controller in reset posts nothing (R68). -/
def State.complete (s : State) (tag : Nat) (e : Cqe) : State :=
  match s.trk tag with
  | some t =>
    let s := s.wakeSession t.sqe
    let c := s.ctrl t.fn
    if c.resetting then s.freeTrk tag else
    match Tab.find c.sqs t.sq with
    | some sq =>
      let e := { e with sq := t.sq, sqHead := sq.head, cid := t.sqe.cid }
      match Tab.find c.cqs sq.cq with
      | some cq =>
        if cq.room then (s.pushCqe t.fn sq.cq e).freeTrk tag
        else
          let s := s.modTrk tag fun t => { t with phase := .finished, completion := some e }
          let s := s.modCq t.fn sq.cq fun q => { q with waiting := q.waiting ++ [tag] }
          s.modStats t.fn fun x => { x with cqFullWaits := satAdd (2 ^ 64 - 1) x.cqFullWaits 1 }
      | none => s.freeTrk tag
    | none => s.freeTrk tag
  | none => s

/-- Complete a standard I/O command with Successful Completion. -/
def State.completeOk (s : State) (tag : Nat) : State := s.complete tag {}
/-- Complete an I/O command with an NVMe status and its ST code in Dword 0 (R69). -/
def State.completeErr (s : State) (tag : Nat) (st : NvStatus) (code : Nat) : State :=
  s.complete tag { status := st, dw0 := code, dw1 := tag }

/-- Complete an I/O command with Sanitize In Progress (R400). The spec states no ST code for it: Dword 0 is a free value. -/
def State.completeSanitizing (s : State) (tag : Nat) : State :=
  s.used.complete tag { status := .sanitizeInProgress, dw0 := bits s.freeNum 0 16, dw1 := tag }

/-! ## Result areas (R77, R78) -/

/-- The 64 bytes of a result header (R77). -/
def Result.header (r : Result) (tag elapsed : Nat) : Bytes :=
  leBytes 4 r.seq ++ leBytes 4 r.flags ++ leBytes 8 r.bytes ++ leBytes 8 r.records ++ leBytes 2 r.status ++ leBytes 2 0
    ++ leBytes 4 tag ++ leBytes 8 r.snapshot ++ leBytes 8 r.steps ++ leBytes 4 elapsed ++ leBytes 8 0 ++ leBytes 4 r.seq

/-- Write the header again: SEQ rises, and what has been written since is counted (R78). -/
def State.writeHeader (s : State) (tag : Nat) : State :=
  match s.trk tag with
  | some t =>
    match t.result with
    | some r =>
      let r := { r with seq := r.seq + 1, bytes := r.bytes + r.newBytes, records := r.records + r.newRecords
                        newBytes := 0, newRecords := 0, updated := s.hdCount }
      let s := s.modTrk tag fun t => { t with result := some r }
      s.writeHost t.sqe.resultAddr (r.header tag (s.hdCount - t.fetchCount))
    | none => s
  | none => s

/-- A vendor command with a result area starts: the header with SEQ 1 and BYTES 0 (R78), and the flags it has from its admission. -/
def State.openResult (s : State) (tag snapshot : Nat) (flags : Nat := 0) : State :=
  (s.modTrk tag fun t => { t with result := some { snapshot := snapshot, flags := flags } }).writeHeader tag

/-- Change the result area of a command. -/
def State.modResult (s : State) (tag : Nat) (f : Result → Result) : State :=
  s.modTrk tag fun t => { t with result := t.result.map f }

/-- Would `n` more bytes fit into the result area? -/
def State.resultRoom (s : State) (tag n : Nat) : Bool :=
  match s.trk tag with
  | some t => match t.result with
    | some r => decide (64 + r.bytes + r.newBytes + n ≤ t.sqe.resLen)
    | none => false
  | none => false

/-- Write result data behind what is there, as `n` records more. -/
def State.appendResult (s : State) (tag : Nat) (b : Bytes) (n : Nat) : State :=
  match s.trk tag with
  | some t =>
    match t.result with
    | some r =>
      (s.writeHost (t.sqe.resultAddr + 64 + r.bytes + r.newBytes) b).modResult tag fun r =>
        { r with newBytes := r.newBytes + b.length, newRecords := r.newRecords + n }
    | none => s
  | none => s

/-- Result bytes written so far. -/
def State.resultAt (s : State) (tag : Nat) : Nat := match (s.trk tag).bind (·.result) with
  | some r => r.bytes + r.newBytes
  | none => 0

/-- Bytes of the next piece of `len` more: up to the first end of a unit of `g` bytes (0: the whole) at or behind the next multiple of
4 KiB of the results. -/
def pieceLen (at_ len g : Nat) : Nat :=
  let need := 4096 - at_ % 4096
  if len < need ∨ g = 0 then len else min len ((need + g - 1) / g * g)

/-- Append result data piece by piece, with a header after each piece that reaches a further 4 KiB (R78). `sofar` of `total` bytes and
their share of the `n` records have been written. -/
def emitOn (tag g total n : Nat) : Nat → Nat → Bytes → State → State
  | 0, _, _, s => s
  | fuel + 1, sofar, b, s =>
    if b = [] then s else
    let at_ := s.resultAt tag
    let k := pieceLen at_ b.length g
    let s := s.appendResult tag (b.take k) (n * (sofar + k) / total - n * sofar / total)
    let s := if at_ / 4096 = (at_ + k) / 4096 then s else s.writeHeader tag
    emitOn tag g total n fuel (sofar + k) (b.drop k) s

/-- Append result data that fits: `n` records in `b` bytes, in units of `g` bytes that no header parts (0: the whole); the header
follows after each further 4 KiB, counted from the start of the results (R78; that is how the model reads 'each further', DESIGN CHOICE,
log 90). Data that does not fit is not written, and the area is marked full (R75). -/
def State.emit (s : State) (tag : Nat) (b : Bytes) (n : Nat) (g : Nat := 0) : State :=
  match s.trk tag with
  | some t =>
    match t.result with
    | some r =>
      if 64 + r.bytes + r.newBytes + b.length ≤ t.sqe.resLen then
        if b = [] then s.modResult tag fun r => { r with newRecords := r.newRecords + n }
        else emitOn tag g b.length n (b.length / 4096 + 2) 0 b s
      else s.modResult tag fun r => { r with full := true }
    | none => s
  | none => s

/-- Set a bit of FLAGS of the result header (R77). -/
def State.flagResult (s : State) (tag k : Nat) : State := s.modResult tag fun r => { r with flags := setBit r.flags k }

/-- The final update of a result area: DONE and STATUS (R78). -/
def State.closeResult (s : State) (tag st : Nat) : State :=
  ((s.flagResult tag 0).modResult tag fun r => { r with status := st }).writeHeader tag

/-- End a vendor command with an ST code: the final header, then its completion (R69, R76). `dw0`, `dw1` are the Dwords of a
successful one. -/
def State.vendorEndWith (s : State) (tag st dw0 dw1 : Nat) : State :=
  let s := s.closeResult tag st
  match s.trk tag with
  | some t =>
    if st = St.ok then s.complete tag { dw0 := dw0, dw1 := dw1 }
    else
      let s := if st = St.resultFull then s.modStats t.fn fun x => { x with resultFull := satAdd (2 ^ 64 - 1) x.resultFull 1 }
               else s
      if st = St.stopped then
        let s := s.modStats t.fn fun x => { x with stopped := satAdd (2 ^ 64 - 1) x.stopped 1 }
        s.complete tag { status := .abortedSqDeletion, dw0 := st, dw1 := tag }
      else s.complete tag { status := .vendor, dw0 := st, dw1 := tag }
  | none => s

/-- End a vendor command that delivers into a result area (R76). -/
def State.vendorEnd (s : State) (tag st : Nat) : State := s.vendorEndWith tag st 0 tag

/-- Refuse a vendor command at admission: nothing is started for it (R69, R496). -/
def State.vendorRefuse (s : State) (tag st : Nat) : State :=
  s.complete tag { status := .vendor, dw0 := st, dw1 := tag }

/-- Is a command to stop at its next step boundary? (R67) -/
def State.stopping (s : State) (tag : Nat) : Bool :=
  match s.trk tag with
  | some t => t.phase == .stopping
  | none => false

/-- Does the tag name a started command that its row has not admitted yet, of this opcode? -/
def State.startedAs (s : State) (tag opc : Nat) : Option Trk :=
  match s.trk tag with
  | some t => if (t.phase == .started || t.phase == .stopping) && !t.admitted && t.sqe.opc == opc then some t else none
  | none => none

/-- Mark a command as admitted by its row. -/
def State.admitTag (s : State) (tag : Nat) : State := s.modTrk tag fun t => { t with admitted := true }

end Sys2Proof.Machine
end

