-- ==== Sys2Proof/Machine/AmpOps.lean ====
section
/-! DEFINITION. The Akmir mailbox protocol: message layouts, the checks of R87, the order of R81, responses (spec/04), and
leaving a non-operational power state (R448). -/

namespace Sys2Proof.Machine

/-! ## Capabilities and the configuration record in force (R90, R470) -/

/-- A field of a configuration record; `d` is what 0 or no record selects. -/
def cfgField (r : Option Bytes) (off k d : Nat) : Nat :=
  match r with
  | some r => if fieldAt r off k = 0 then d else fieldAt r off k
  | none => d

/-- A field of the configuration record in force. -/
def Sec.cfg (x : Sec) (off k d : Nat) : Nat := cfgField x.config off k d

/-- Sequence number of a copy; 0 where it is not valid. -/
def Copy.seq {α : Type} : Copy α → Nat
  | .valid n _ => n
  | _ => 0

/-- What a valid copy holds. -/
def Copy.value {α : Type} : Copy α → Option α
  | .valid _ v => some v
  | _ => none

/-- Of two copies the valid one with the higher sequence number decides (R458). -/
def Copy.best {α : Type} (a b : Copy α) : Option α :=
  match a, b with
  | .valid m v, .valid n w => if m < n then some w else some v
  | .valid _ v, _ => some v
  | _, b => b.value

/-- A write always goes to the other copy (R458). -/
def Copy.write {α : Type} (a b : Copy α) (v : α) : Copy α × Copy α :=
  let n := max a.seq b.seq + 1
  match a, b with
  | .valid m _, .valid k _ => if m < k then (.valid n v, b) else (a, .valid n v)
  | .valid _ _, _ => (a, .valid n v)
  | _, b => (.valid n v, b)

/-- Change the data-encryption keys and write them to the key slots (R458, R476). -/
def Sec.putKeys (x : Sec) (t : Tab Nat) : Sec :=
  let k := Copy.write x.keys0 x.keys1 t
  { x with keys := t, keys0 := k.1, keys1 := k.2 }

/-- CRITICAL_MASK in force. -/
def Sec.criticalMask (x : Sec) : Nat := x.cfg 0x08 2 0

/-- CAPS_LZ1 reported (R90): none in ROM recovery mode (R466). -/
def Sec.caps (x : Sec) : Nat :=
  if x.phase = .recovery then 0
  else (List.range 16).foldl (fun n i => if bit (x.cfg 0x10 16 0) i then n else n + 2 ^ i) 0

/-- Is a capability of CAPS_LZ1 reported? -/
def State.cap (s : State) (k : Nat) : Bool := bit s.sec.caps k

/-- Is the module Held? (R473) -/
def State.isHeld (s : State) : Bool := decide (s.sec.held ≠ 0)

/-! ## Leaving a non-operational state (R448) -/

/-- A span port that is enabled trains again once the module leaves a non-operational state (R419). -/
def SPort.retrain (x : SPort) : SPort := if x.enable ∧ x.link = .down then { x with link := .training } else x

/-- R448, R455: the module leaves Ash, Slate or Umber for the last operational state; STATE is posted. -/
def State.wake (s : State) : State :=
  if 2 ≤ s.power.ladder ∧ s.power.ladder ≤ 4 then
    let s := s.modPower fun p => { p with ladder := p.lastOper, woken := true }
    let s := s.modSpan fun x => { x with p0 := x.p0.retrain, p1 := x.p1.retrain }
    s.post 0x03 4 [byteOf s.power.ladder]
  else s

/-- Do the mailboxes answer? From boot step 5 on (R460), in ROM recovery mode (R466), and in Ebony (R485). -/
def State.mailOn (s : State) : Bool :=
  s.alive && (s.sec.phase == .starting || s.sec.phase == .running || s.sec.phase == .recovery || s.power.ladder == 5)

/-- Is the module in service: booted, not in recovery? -/
def State.serving (s : State) : Bool := s.alive && s.sec.phase == .running

/-- STATE of a mailbox that holds nothing: RECOVERY in ROM recovery mode (log 19). -/
def State.idleState (s : State) : MbState := if s.sec.phase = .recovery then .recovery else .idle

/-! ## The catalogue (R95) -/

/-- Opcodes of R95. -/
def ampOpcodes : List Nat :=
  [0x0001, 0x0002, 0x0003, 0x0004, 0x0005, 0x0101, 0x0102, 0x0103, 0x0104, 0x0201, 0x0202, 0x0203, 0x0301, 0x0302, 0x0303,
    0x0304, 0x0305, 0x0306, 0x0401, 0x0402, 0x0501, 0x0502, 0x0503, 0x0601, 0x0602, 0x0603, 0x0604, 0x0701, 0x0702, 0x0703,
    0x0704, 0x0801, 0x0802, 0x0803, 0x0901, 0x0902, 0x0903]

/-- Messages that only read state (R81). -/
def ampReads : List Nat := [0x0002, 0x0005, 0x0101, 0x0104, 0x0203, 0x0306, 0x0402, 0x0502, 0x0601, 0x0902]

/-- Does the message change module state? -/
def ampChanges (op : Nat) : Bool := !ampReads.contains op

/-- Messages that change data-plane state (R448). -/
def ampDataPlane : List Nat :=
  [0x0201, 0x0202, 0x0301, 0x0302, 0x0303, 0x0304, 0x0305, 0x0401, 0x0603, 0x0604, 0x0702, 0x0703, 0x0704, 0x0901, 0x0903]

/-- Messages refused with ST_HELD while the module is Held (R96). -/
def ampHeldRefused : List Nat := [0x0201, 0x0301, 0x0302, 0x0303, 0x0304, 0x0305, 0x0401, 0x0901, 0x0903]

/-- Messages the ROM serves in recovery mode (R466). -/
def ampRecovery : List Nat := [0x0001, 0x0002, 0x0003, 0x0004, 0x0005, 0x0601, 0x0801, 0x0802, 0x0803]

/-- Messages served in Ebony (R485). -/
def ampEbony : List Nat := [0x0001, 0x0002, 0x0502, 0x0501]

/-- Must a message of the opcode be critical? (R91) -/
def State.mustBeCritical (s : State) (op : Nat) : Bool :=
  let hi := op / 256
  hi == 7 || hi == 8 || (decide (1 ≤ hi) && decide (hi ≤ 6) && bit s.sec.criticalMask (hi - 1))
    || (hi == 9 && bit s.sec.criticalMask 6)

/-- Is LENGTH the size the message's layout gives? (R86) Messages whose layout the spec does not give only need their one
field (log 20). -/
def ampLenOk (op : Nat) (p : Bytes) : Bool :=
  let n := p.length
  match op with
  | 0x0001 => n == 64
  | 0x0002 => n == 0
  | 0x0003 => n == 104
  | 0x0004 => n == 8
  | 0x0005 => n == 8
  | 0x0101 => n == 0
  | 0x0102 => n == 256
  | 0x0103 => n == 8
  | 0x0104 => n == 0
  | 0x0201 => decide (64 ≤ n) && n == 64 + (if fieldAt p 1 1 = 0 then fieldAt p 8 8 else 0) && (fieldAt p 1 1 != 0 || fieldAt p 8 8 != 0)
  | 0x0202 => n == 8
  | 0x0203 => n == 8
  | 0x0301 => n == 64
  | 0x0302 => n == 8
  | 0x0303 => n == 32
  | 0x0304 => n == 8
  | 0x0305 => n == 24
  | 0x0306 => n == 8
  | 0x0401 => n == 192
  | 0x0402 => n == 8
  | 0x0501 => n == 4
  | 0x0502 => n == 0
  | 0x0503 => n == 8
  | 0x0601 => n == 8
  | 0x0602 => n == 4
  | 0x0603 => n == 32
  | 0x0604 => n == 16
  | 0x0701 => n == 136
  | 0x0702 => n == 72
  | 0x0703 => n == 4
  | 0x0704 => n == 1
  | 0x0801 => decide (17 ≤ n) && decide (n ≤ 65536)
  | 0x0802 => n == 0
  | 0x0803 => n == 0
  | 0x0901 => n == 416
  | 0x0902 => n == 1
  | 0x0903 => decide (4 ≤ n) && n == 4 + 36 * fieldAt p 0 4
  | _ => true

/-- Whole bytes reserved from `a` up to `b`: (offset, mask) pairs. -/
def rsvSpan (a b : Nat) : List (Nat × Nat) := (List.range (b - a)).map fun i => (a + i, 0xFF)

/-- Reserved bits of the request payloads, as (offset, mask) (R87 step 4). -/
def ampReserved (op : Nat) (p : Bytes) : List (Nat × Nat) :=
  match op with
  | 0x0001 => rsvSpan 2 16
  | 0x0003 => (0, 0xFE) :: rsvSpan 1 8
  | 0x0004 => rsvSpan 4 8
  | 0x0005 => rsvSpan 4 8
  | 0x0102 => (8, 0x80) :: (rsvSpan 9 0x10 ++ rsvSpan 0x12 0x20 ++ rsvSpan 0x38 0xBC)
  | 0x0103 => (0, 1) :: rsvSpan 2 8
  | 0x0201 => rsvSpan 4 8 ++ rsvSpan 0x14 0x18
  | 0x0202 => rsvSpan 1 2 ++ rsvSpan 4 8
  | 0x0203 => rsvSpan 1 2 ++ rsvSpan 4 8
  | 0x0301 => (3, 0xFC) :: (rsvSpan 0x15 0x18 ++ rsvSpan 0x20 0x40)
  | 0x0302 => rsvSpan 1 8
  | 0x0303 => rsvSpan 3 4 ++ rsvSpan 0x14 0x18
  | 0x0304 => (1, 0xFE) :: rsvSpan 2 4
  | 0x0305 => (5, 0xFE) :: (rsvSpan 7 8 ++ rsvSpan 0x0A 0x10)
  | 0x0306 => rsvSpan 1 8
  | 0x0401 => (1, 0xFC) :: (rsvSpan 2 4 ++ [(0x26, 0xFE), (0x27, 0xFF), (0x2A, 0xFE), (0x2B, 0xFF), (0x2E, 0xFE),
      (0x2F, 0xFF), (0x32, 0xFE), (0x33, 0xFF)] ++ rsvSpan 0x35 0x40)
  | 0x0402 => rsvSpan 1 8
  | 0x0501 => (1, 0xFE) :: rsvSpan 2 4
  | 0x0503 => rsvSpan 4 8
  | 0x0603 => (1, 0xFE) :: (rsvSpan 2 4 ++ rsvSpan 0x18 0x20)
  | 0x0604 => rsvSpan 1 8
  | 0x0701 => (0, 0xFE) :: rsvSpan 1 8
  | 0x0702 => rsvSpan 4 8
  | 0x0801 => rsvSpan 8 16
  | 0x0901 => (1, 0xFC) :: (rsvSpan 0x0A 0x10 ++ (List.range 16).flatMap fun i => rsvSpan (0x22 + 24 * i) (0x28 + 24 * i))
  | 0x0903 => (List.range ((p.length - 4) / 36)).flatMap fun i => rsvSpan (5 + 36 * i) (8 + 36 * i)
  | _ => []

/-- Is a reserved bit of a payload set? -/
def ampReservedSet (op : Nat) (p : Bytes) : Bool :=
  (ampReserved op p).any fun r => decide (((p.drop r.1).headD 0).toNat &&& r.2 ≠ 0)

/-! ## Checks of a request (R86, R87, R91-R93) -/

/-- A request taken apart. -/
structure AmpMsg where
  head : Bytes
  version : Nat
  flags : Nat
  op : Nat
  len : Nat
  tag : Nat
  status : Nat
  rsv : Nat
  counter : Nat
  payload : Bytes
  check : Bytes
  total : Nat
deriving DecidableEq, Repr

/-- Does the message carry the CRITICAL flag? -/
def AmpMsg.critical (m : AmpMsg) : Bool := bit m.flags 1

/-- Take a request apart (R86). -/
def ampParse (b : Bytes) : AmpMsg :=
  let flags := fieldAt b 1 1
  let len := fieldAt b 4 4
  let body := if bit flags 1 then 24 else 16
  { head := b.take 16, version := fieldAt b 0 1, flags := flags, op := fieldAt b 2 2, len := len, tag := fieldAt b 8 4
    status := fieldAt b 12 2, rsv := fieldAt b 14 2, counter := if bit flags 1 then fieldAt b 16 8 else 0
    payload := (b.drop body).take len, check := (b.drop (body + len)).take 16, total := b.length }

/-- What the checks decide: a refusal, or acceptance, critical or not. -/
inductive AmpVerdict where
  | refuse (st : Nat)
  | accept
  | acceptCritical (key : Nat)
deriving DecidableEq, Repr

/-- Steps 1 to 5 of R87, then the limits of recovery mode and of Ebony; `none` where all pass. A nonzero STATUS of a request is taken as
a reserved field: the spec says that it is 0 in a request and names no code (DESIGN CHOICE, log 90). -/
def ampCheckForm (s : State) (mb : Nat) (m : AmpMsg) (whole : Bool) : Option Nat :=
  let x := s.amp.mb mb
  if !whole || decide (m.total ≠ 16 + m.len + (if m.critical then 24 else 0)) || decide (65536 < m.len)
      || !ampLenOk m.op m.payload then some St.badLength
  else if m.version ≠ x.version.getD 1 then some St.version
  else if m.op ≠ 0x0001 ∧ x.version.isNone then some St.noHello
  else if m.flags &&& 0xFD ≠ 0 ∨ m.status ≠ 0 ∨ m.rsv ≠ 0 ∨ ampReservedSet m.op m.payload = true then some St.reservedField
  else if !ampOpcodes.contains m.op then some St.badOpcode
  else if s.sec.phase = .recovery ∧ ampRecovery.contains m.op = false then some St.unsupported
  else if s.power.ladder = 5 ∧ (ampEbony.contains m.op = false ∨ (m.op = 0x0501 ∧ m.payload.headD 0 = 5)) then some St.busy
  else none

/-- The check of a critical message under a key (R93): the first 16 bytes of the HMAC over header, counter and payload. -/
def ampMac (key : Nat) (head : Bytes) (counter : Nat) (payload : Bytes) : Bytes :=
  (leBytes 32 (Config.hmac key (head ++ leBytes 8 counter ++ payload))).take 16

/-- Step 6 of R87: R91 to R93 in their order, with what they change on the mailbox. -/
def ampCheckCritical (s : State) (mb : Nat) (m : AmpMsg) : State × AmpVerdict :=
  let x := s.amp.mb mb
  if s.power.ladder = 5 ∧ m.op = 0x0501 then (s, .accept)
  else if !m.critical then (s, if s.mustBeCritical m.op then .refuse St.needCritical else .accept)
  else if !s.sec.owned then (s, .refuse St.noOwner)
  else match x.key with
    | none => (s, .refuse St.noKey)
    | some key =>
      if s.hdCount < x.lockUntil then (s, .refuse St.lockedOut)
      else if ampMac key m.head m.counter m.payload ≠ m.check then
        let bad := satAdd (2 ^ 32 - 1) x.badCheck 1
        if x.badRun + 1 = 8 then
          ((s.modMb mb fun y => { y with badCheck := bad, badRun := 0, lockUntil := s.hdCount + 1000000 }).post 0x07 1
            [byteOf mb], .refuse St.badCheck)
        else (s.modMb mb fun y => { y with badCheck := bad, badRun := y.badRun + 1 }, .refuse St.badCheck)
      else if m.counter ≤ x.lastCounter then
        (s.modMb mb fun y => { y with badRun := 0, replay := satAdd (2 ^ 32 - 1) y.replay 1 }, .refuse St.replay)
      else (s.modMb mb fun y => { y with badRun := 0, lastCounter := m.counter }, .acceptCritical key)

/-- The capability of R90 that a message belongs to. -/
def ampCap (op : Nat) : Option Nat :=
  match op with
  | 0x0301 => some 1
  | 0x0302 => some 1
  | 0x0303 => some 1
  | 0x0304 => some 1
  | 0x0305 => some 2
  | 0x0306 => some 1
  | 0x0503 => some 12
  | 0x0702 => some 14
  | 0x0703 => some 15
  | 0x0704 => some 15
  | 0x0901 => some 8
  | 0x0902 => some 8
  | 0x0903 => some 8
  | _ => none

/-- Is the message's capability one that HELLO does not report? (R13) -/
def State.ampMissing (s : State) (op : Nat) : Bool :=
  match ampCap op with
  | some k => !s.cap k
  | none => false

/-- Submit a request on a mailbox (R81, R87): checks 1 to 6, then the message waits for its row. `whole`: every word of
it was written. -/
def ampSubmit (mb : Nat) (b : Bytes) (whole : Bool) (ep : Nat) (s : State) : State :=
  let m := ampParse b
  let job : AmpJob := { mb := mb, version := m.version, op := m.op, tag := m.tag, payload := m.payload, endpoint := ep
                        missing := s.ampMissing m.op }
  let add (s : State) (j : AmpJob) : State := s.modAmp fun a => { a with jobs := a.jobs ++ [j] }
  match ampCheckForm s mb m whole with
  | some st => if st = St.badOpcode then add s job else add s { job with phase := .done st [] }
  | none =>
    match ampCheckCritical s mb m with
    | (s, .refuse st) => add s { job with phase := .done st [] }
    | (s, .accept) => add (if ampDataPlane.contains m.op then s.wake else s) job
    | (s, .acceptCritical key) =>
      add (if ampDataPlane.contains m.op then s.wake else s)
        { job with critical := true, counter := m.counter, key := key }

/-! ## Executing a message (R81) -/

/-- The message of a mailbox that may execute now: the mailbox's first one not executed; one that changes state only when no
earlier one that changes state is still to be executed or at work (R81). -/
def ampTurn (mb : Nat) : List AmpJob → Bool → Option AmpJob
  | [], _ => none
  | j :: l, blocked =>
    if j.mb = mb ∧ j.phase = .ready then (if ampChanges j.op && blocked then none else some j)
    else
      let waits := match j.phase with
        | .done _ _ => false
        | _ => true
      ampTurn mb l (blocked || (ampChanges j.op && waits))

/-- Give the mailbox's first unexecuted message its new phase. -/
def ampSetReady (mb : Nat) (p : JobPhase) : List AmpJob → List AmpJob
  | [] => []
  | j :: l => if j.mb = mb ∧ j.phase = .ready then { j with phase := p } :: l else j :: ampSetReady mb p l

/-- Give the first message of an opcode that is at work its result. -/
def ampSetWorking (op : Nat) (p : JobPhase) : List AmpJob → List AmpJob
  | [] => []
  | j :: l => if j.op = op ∧ j.phase = .working then { j with phase := p } :: l else j :: ampSetWorking op p l

/-- A message of this opcode that is at work, if any. -/
def Amp.working (a : Amp) (op : Nat) : Option AmpJob := a.jobs.find? fun j => j.op == op && j.phase == .working

/-- End the work of a message of an opcode (R81): its response can be placed. -/
def State.workDone (s : State) (op st : Nat) (payload : Bytes) : State :=
  s.modAmp fun a => { a with jobs := ampSetWorking op (.done st payload) a.jobs }

/-- What a message does: the state, and how its response stands. -/
abbrev AmpBody := AmpJob → State → State × JobPhase

/-- A refusal by a state check (R87 step 7). -/
def ampRefuse (st : Nat) (s : State) : State × JobPhase := (s, .done st [])

/-- An answer with a payload. -/
def ampAnswer (s : State) (payload : Bytes) : State × JobPhase := (s, .done St.ok payload)

/-- A long operation (R96): it opens and its ID is answered, or 16 are open already. `f`: what it starts. -/
def ampLong (k : OpKind) (f : Nat → State → State) (s : State) : State × JobPhase :=
  match s.opOpen k with
  | some (id, s) => (f id s, .done St.ok (leBytes 4 id))
  | none => ampRefuse St.busy s

/-- Execute the message that is in turn on a mailbox, when it has the opcode. Messages of a feature that is not reported (R13) and
messages that Held refuses (R96) are refused. -/
def ampExec (mb op : Nat) (f : AmpBody) (s : State) : State :=
  if s.mailOn then
    match ampTurn mb s.amp.jobs false with
    | some j =>
      if j.op = op then
        let (s, p) := if j.missing then ampRefuse St.unsupported s
          else if s.isHeld && ampHeldRefused.contains op then ampRefuse St.held s else f j s
        s.modAmp fun a => { a with jobs := ampSetReady mb p a.jobs }
      else s
    | none => s
  else s

/-! ## Responses (R87, R94) -/

/-- Statuses whose responses never are critical (R94). -/
def plainStatuses : List Nat := [St.noOwner, St.noKey, St.badCheck, St.replay, St.lockedOut]

/-- The bytes of a response (R87, R94). -/
def AmpJob.response (j : AmpJob) (st : Nat) (payload : Bytes) : Bytes :=
  let p := if st = St.ok then payload else []
  let crit := j.critical && !plainStatuses.contains st
  let head := leBytes 1 j.version ++ leBytes 1 (1 + 2 * b2n crit) ++ leBytes 2 j.op ++ leBytes 4 p.length ++ leBytes 4 j.tag
    ++ leBytes 2 st ++ leBytes 2 0
  if crit then head ++ leBytes 8 j.counter ++ p ++ ampMac j.key head j.counter p else head ++ p

/-- The first message of a mailbox whose response can be placed. -/
def ampFirstDone (mb : Nat) : List AmpJob → Option (AmpJob × Nat × Bytes)
  | [] => none
  | j :: l =>
    match j.phase with
    | .done st p => if j.mb = mb then some (j, st, p) else ampFirstDone mb l
    | _ => ampFirstDone mb l

/-- Take that message out of the list. -/
def ampDropDone (mb : Nat) : List AmpJob → List AmpJob
  | [] => []
  | j :: l =>
    match j.phase with
    | .done _ _ => if j.mb = mb then l else j :: ampDropDone mb l
    | _ => j :: ampDropDone mb l

/-- An AMP message of a mailbox over MCTP (R84): vendor ID, kind, message. -/
def mctpBody (kind : Nat) (b : Bytes) : Bytes := leBytes 2 Config.vendorId ++ leBytes 1 kind ++ b

/-- R82 step 4: the keeper places a response. A response nobody waits for is discarded; the management mailbox sends it. -/
def ampRespond (mb : Nat) (s : State) : State :=
  match ampFirstDone mb s.amp.jobs with
  | some (j, st, p) =>
    let s := s.modAmp fun a => { a with jobs := ampDropDone mb a.jobs }
    if j.abandoned then s
    else if mb < 2 then
      let s := s.modMb mb fun x => { x with state := .response, resp := j.response st p, outWords := 0, inData := [] }
      if (s.amp.mb mb).respIe then s.signal mb 1 else s
    else (s.modMb mb fun x => { x with state := s.idleState }).reply (.sent j.endpoint (mctpBody 2 (j.response st p)))
  | none => s

end Sys2Proof.Machine
end

