-- ==== Sys2Proof/Machine/Num.lean ====
section
/-! DEFINITION. Number formats (spec/09 R205-R208): exact values, one rounding, encodings, and the arithmetic that rounds once.
A finite value is a sign, a whole number and a power of two; a sum or a product of such values is exact. -/

namespace Sys2Proof.Machine

/-- A floating-point value: a NaN, an infinity, or the exact number (−1)^neg · man · 2^exp. -/
inductive Fv where
  | nan
  | inf (neg : Bool)
  | fin (neg : Bool) (man : Nat) (exp : Int)
deriving DecidableEq, Repr

/-- A floating-point format: precision, exponent of the smallest normal, largest finite value `maxMan · 2^maxExp`, field widths,
bias, and whether it encodes infinities. -/
structure Fmt where
  prec : Nat
  emin : Int
  maxMan : Nat
  maxExp : Int
  expBits : Nat
  bias : Int
  hasInf : Bool
  hasNan : Bool
deriving DecidableEq, Repr

/-- Width of an encoded value. -/
def Fmt.width (f : Fmt) : Nat := f.expBits + f.prec

/-- R205: FP8 E4M3. -/
def Fmt.e4m3 : Fmt := ⟨4, -6, 14, 5, 4, 7, false, true⟩
/-- R205: FP8 E5M2. -/
def Fmt.e5m2 : Fmt := ⟨3, -14, 7, 13, 5, 15, true, true⟩
/-- R205: MXFP6 E3M2. -/
def Fmt.e3m2 : Fmt := ⟨3, -2, 7, 2, 3, 3, false, false⟩
/-- R205: MXFP6 E2M3. -/
def Fmt.e2m3 : Fmt := ⟨4, 0, 15, -1, 2, 1, false, false⟩
/-- R205: MXFP4 E2M1. -/
def Fmt.e2m1 : Fmt := ⟨2, 0, 3, 1, 2, 1, false, false⟩
/-- R205: FP16. -/
def Fmt.fp16 : Fmt := ⟨11, -14, 2047, 5, 5, 15, true, true⟩
/-- R205: BF16. -/
def Fmt.bf16 : Fmt := ⟨8, -126, 255, 120, 8, 127, true, true⟩
/-- FP32 (R181). -/
def Fmt.fp32 : Fmt := ⟨24, -126, 16777215, 104, 8, 127, true, true⟩
/-- FP64 (R167). -/
def Fmt.fp64 : Fmt := ⟨53, -1022, 9007199254740991, 971, 11, 1023, true, true⟩

/-- `n · 2^k` for `k ≥ 0`, the floor of it for `k < 0`. -/
def shiftInt (n : Nat) (k : Int) : Nat :=
  if 0 ≤ k then n * 2 ^ k.toNat else n / 2 ^ (-k).toNat

/-- Number of bits of `n`. -/
def bitLen (n : Nat) : Nat := if n = 0 then 0 else Nat.log2 n + 1

/-- Nearest whole number to `n / 2^k`, ties to even. -/
def roundEven (n k : Nat) : Nat :=
  let q := n / 2 ^ k
  let r := n % 2 ^ k
  if k = 0 then q
  else if r * 2 < 2 ^ k then q
  else if r * 2 = 2 ^ k then q + q % 2
  else q + 1

/-- Exponent of the unit to which a format rounds a value (its subnormal spacing below the smallest normal). -/
def Fmt.unit (f : Fmt) (m : Nat) (e : Int) : Int :=
  max (e + (bitLen m : Int) - (f.prec : Int)) (f.emin - (f.prec : Int) + 1)

/-- Round a magnitude to the format's grid with no upper limit: the result is `q · 2^u`. -/
def Fmt.grid (f : Fmt) (m : Nat) (e : Int) : Nat × Int :=
  let u := f.unit m e
  if u ≤ e then (m * 2 ^ (e - u).toNat, u) else (roundEven m (u - e).toNat, u)

/-- Compare `a · 2^x` with `b · 2^y`: is it greater? -/
def magGt (a : Nat) (x : Int) (b : Nat) (y : Int) : Bool :=
  let l := min x y
  decide (b * 2 ^ (y - l).toNat < a * 2 ^ (x - l).toNat)

/-- Does a magnitude exceed the format's largest finite value? -/
def Fmt.over (f : Fmt) (m : Nat) (e : Int) : Bool := magGt m e f.maxMan f.maxExp

/-- Round to nearest even; a result beyond the largest finite value becomes an infinity of its sign (R181, R123). -/
def Fmt.round (f : Fmt) : Fv → Fv
  | .nan => .nan
  | .inf s => .inf s
  | .fin s m e =>
    let (q, u) := f.grid m e
    if f.over q u then .inf s else .fin s q u

/-- Encode a value that lies on the format's grid. A NaN takes the canonical code of R206. -/
def Fmt.encode (f : Fmt) : Fv → Nat
  | .nan =>
    if f.hasInf then (2 ^ f.expBits - 1) * 2 ^ (f.prec - 1) + 2 ^ (f.prec - 2) else 2 ^ (f.expBits + f.prec - 1) - 1
  | .inf s => (b2n s) * 2 ^ (f.expBits + f.prec - 1) + (2 ^ f.expBits - 1) * 2 ^ (f.prec - 1)
  | .fin s m e =>
    let sgn := (b2n s) * 2 ^ (f.expBits + f.prec - 1)
    let (q, u) := f.grid m e
    if q < 2 ^ (f.prec - 1) then sgn + q
    else
      let (q', u') := if q = 2 ^ f.prec then (q / 2, u + 1) else (q, u)
      let ex : Nat := (u' + (f.prec : Int) - 1 + f.bias).toNat
      sgn + ex * 2 ^ (f.prec - 1) + (q' - 2 ^ (f.prec - 1))

/-- The value a code stands for (R205, R206). -/
def Fmt.decode (f : Fmt) (c : Nat) : Fv :=
  let man := c % 2 ^ (f.prec - 1)
  let ex := (c / 2 ^ (f.prec - 1)) % 2 ^ f.expBits
  let s := (c / 2 ^ (f.expBits + f.prec - 1)) % 2 == 1
  if f.hasInf && ex == 2 ^ f.expBits - 1 then (if man = 0 then .inf s else .nan)
  else if (!f.hasInf) && f.hasNan && ex == 2 ^ f.expBits - 1 && man == 2 ^ (f.prec - 1) - 1 then .nan
  else if ex = 0 then .fin s man (f.emin - (f.prec : Int) + 1)
  else .fin s (man + 2 ^ (f.prec - 1)) ((ex : Int) - f.bias - (f.prec : Int) + 1)

/-- Is the value a zero of either sign? -/
def Fv.isZero : Fv → Bool
  | .fin _ 0 _ => true
  | _ => false

/-- The value with its sign turned. -/
def Fv.neg : Fv → Fv
  | .nan => .nan
  | .inf s => .inf (!s)
  | .fin s m e => .fin (!s) m e

/-- The exact product. -/
def Fv.mul : Fv → Fv → Fv
  | .nan, _ => .nan
  | _, .nan => .nan
  | .inf s, .inf t => .inf (s != t)
  | .inf s, .fin t m _ => if m = 0 then .nan else .inf (s != t)
  | .fin s m _, .inf t => if m = 0 then .nan else .inf (s != t)
  | .fin s m e, .fin t n g => .fin (s != t) (m * n) (e + g)

/-- A signed mantissa. -/
def sgnMan (s : Bool) (m : Nat) : Int := if s then -(m : Int) else (m : Int)

/-- The exact sum; an exact zero sum is +0 unless both terms are −0. -/
def Fv.add : Fv → Fv → Fv
  | .nan, _ => .nan
  | _, .nan => .nan
  | .inf s, .inf t => if s = t then .inf s else .nan
  | .inf s, .fin _ _ _ => .inf s
  | .fin _ _ _, .inf t => .inf t
  | .fin s m e, .fin t n g =>
    let l := min e g
    let x : Int := sgnMan s m * (2 : Int) ^ (e - l).toNat + sgnMan t n * (2 : Int) ^ (g - l).toNat
    if x = 0 then .fin (s && t) 0 l else .fin (decide (x < 0)) x.natAbs l

/-- The exact difference. -/
def Fv.sub (a b : Fv) : Fv := a.add b.neg

/-- The quotient, kept with enough bits and a sticky bit that one rounding to `p` bits is exact. -/
def Fv.divSticky (p : Nat) : Fv → Fv → Fv
  | .nan, _ => .nan
  | _, .nan => .nan
  | .inf _, .inf _ => .nan
  | .inf s, .fin t _ _ => .inf (s != t)
  | .fin s _ _, .inf t => .fin (s != t) 0 0
  | .fin s m e, .fin t n g =>
    if n = 0 then (if m = 0 then .nan else .inf (s != t))
    else
      let k := p + 3 + bitLen n
      let q := m * 2 ^ k / n
      let r := m * 2 ^ k % n
      .fin (s != t) (2 * q + (if r = 0 then 0 else 1)) (e - g - (k : Int) - 1)

/-- Bit-by-bit integer square root: `fuel` bits, from the top. -/
def isqrtGo : Nat → Nat → Nat → Nat
  | 0, _, r => r
  | k + 1, n, r =>
    let c := r + 2 ^ k
    if c * c ≤ n then isqrtGo k n c else isqrtGo k n r

/-- Floor of the square root. -/
def isqrt (n : Nat) : Nat := isqrtGo (bitLen n / 2 + 1) n 0

/-- The square root, kept with a sticky bit. -/
def Fv.sqrtSticky (p : Nat) : Fv → Fv
  | .nan => .nan
  | .inf s => if s then .nan else .inf false
  | .fin s m e =>
    if m = 0 then .fin s 0 e
    else if s then .nan
    else
      let k := 2 * (p + 3) + (if e % 2 = 0 then 0 else 1)
      let n := m * 2 ^ k
      let r := isqrt n
      .fin false (2 * r + (if r * r = n then 0 else 1)) ((e - (k : Int)) / 2 - 1)

/-- FP32 sum, rounded once to nearest even. -/
def f32Add (a b : Fv) : Fv := Fmt.fp32.round (a.add b)
/-- FP32 difference. -/
def f32Sub (a b : Fv) : Fv := Fmt.fp32.round (a.sub b)
/-- FP32 product. -/
def f32Mul (a b : Fv) : Fv := Fmt.fp32.round (a.mul b)
/-- FP32 quotient (IEEE binary32 division, R211). -/
def f32Div (a b : Fv) : Fv := Fmt.fp32.round (Fv.divSticky 24 a b)
/-- FP32 square root. -/
def f32Sqrt (a : Fv) : Fv := Fmt.fp32.round (Fv.sqrtSticky 24 a)
/-- FP64 sum (R167). -/
def f64Add (a b : Fv) : Fv := Fmt.fp64.round (a.add b)
/-- FP64 product. -/
def f64Mul (a b : Fv) : Fv := Fmt.fp64.round (a.mul b)

/-- The whole number `n` as a value. -/
def Fv.ofInt (n : Int) : Fv := .fin (decide (n < 0)) n.natAbs 0

/-- Is `a > b` (false where either is a NaN)? -/
def Fv.gt : Fv → Fv → Bool
  | .nan, _ => false
  | _, .nan => false
  | a, b =>
    match a.sub b with
    | .fin s m _ => (!s) && decide (m ≠ 0)
    | .inf s => !s
    | .nan =>
      match a, b with
      | .inf s, .inf t => (!s) && t
      | _, _ => false

/-- Is `a ≥ b` (false where either is a NaN)? -/
def Fv.ge (a b : Fv) : Bool :=
  match a, b with
  | .nan, _ => false
  | _, .nan => false
  | .inf s, .inf t => (s == t) || (!s && t)
  | a, b => !(b.gt a)

/-- The magnitude. -/
def Fv.abs : Fv → Fv
  | .nan => .nan
  | .inf _ => .inf false
  | .fin _ m e => .fin false m e

/-- Floor of log2 of a nonzero magnitude. -/
def Fv.ilog2 : Fv → Int
  | .fin _ m e => (bitLen m : Int) - 1 + e
  | _ => 0

/-- The two's-complement number of a `w`-bit code. -/
def signed (w n : Nat) : Int := if n % 2 ^ w < 2 ^ (w - 1) then ((n % 2 ^ w : Nat) : Int) else ((n % 2 ^ w : Nat) : Int) - 2 ^ w

/-- The `w`-bit code of an integer, modulo 2^w. -/
def unsigned (w : Nat) (x : Int) : Nat := (x % (2 : Int) ^ w).toNat

/-- Nearest whole number, ties to even, of a finite value. -/
def Fv.toIntEven : Fv → Int
  | .fin s m e => sgnMan s (if 0 ≤ e then m * 2 ^ e.toNat else roundEven m (-e).toNat)
  | _ => 0

end Sys2Proof.Machine
end

