-- ==== Sys2Proof/Machine/Convert.lean ====
section
/-! DEFINITION. Operand formats (R183, R205-R208), the counter-based generator (R311) and narrowing conversions
(R209-R217, R228), and the activation functions (R242). -/

namespace Sys2Proof.Machine

/-! ## Format codes (R183, R237) -/

/-- Floating-point format of a code; none for the integer ones. -/
def fmtOf : Nat → Option Fmt
  | 0 => some .e4m3
  | 1 => some .e5m2
  | 3 => some .e4m3
  | 4 => some .e5m2
  | 5 => some .e2m3
  | 6 => some .e3m2
  | 7 => some .e2m1
  | 9 => some .bf16
  | 10 => some .fp16
  | 16 => some .fp32
  | _ => none

/-- Element width in bits. -/
def elemBits : Nat → Nat
  | 5 => 6
  | 6 => 6
  | 7 => 4
  | 8 => 4
  | 9 => 16
  | 10 => 16
  | 16 => 32
  | 17 => 32
  | _ => 8

/-- Is the format a microscaling one? -/
def isMx (c : Nat) : Bool := decide (3 ≤ c) && decide (c ≤ 7)
/-- Is the format an integer one? -/
def isInt (c : Nat) : Bool := c == 2 || c == 8 || c == 17

/-- The value of an element's code. -/
def elemValue (c v : Nat) : Fv :=
  match fmtOf c with
  | some f => f.decode v
  | none => Fv.ofInt (signed (elemBits c) v)

/-- `w` bits of a byte string from bit `i`, bits running upward through each byte and into the next (R207, R224). -/
def bitsAt (b : Bytes) (i w : Nat) : Nat := (leNat ((b.drop (i / 8)).take ((i % 8 + w + 7) / 8)) / 2 ^ (i % 8)) % 2 ^ w

/-- Element `i` of packed elements. -/
def elemAt (c : Nat) (b : Bytes) (i : Nat) : Fv := elemValue c (bitsAt b (i * elemBits c) (elemBits c))

/-- Pack element codes (R207): `n` bytes of the number whose digits they are. -/
def packCodes (w : Nat) (l : List Nat) : Bytes :=
  leBytes ((l.length * w + 7) / 8) (l.foldr (fun v n => v % 2 ^ w + 2 ^ w * n) 0)

/-- The value of an E8M0 scale (R208). -/
def e8m0 (e : Nat) : Fv := if e = 255 then .nan else .fin false 1 ((e : Int) - 127)

/-- An FP32 code as a value. -/
def f32 (c : Nat) : Fv := Fmt.fp32.decode c
/-- A value on the FP32 grid as its code. -/
def toF32 (v : Fv) : Nat := Fmt.fp32.encode v

/-! ## The generator (R311) -/

/-- Modulo 2^64. -/
def u64 (n : Nat) : Nat := n % 2 ^ 64

/-- One of the four rounds. -/
def genRound (x y : Nat) : Nat :=
  let x := u64 (x + y)
  let x := u64 ((x ^^^ (x / 2 ^ 31)) * 0xBF58476D1CE4E5B9)
  let x := u64 ((x ^^^ (x / 2 ^ 27)) * 0x94D049BB133111EB)
  x ^^^ (x / 2 ^ 33)

/-- The rounds, `n` of them. -/
def genRounds : Nat → Nat → Nat → Nat
  | 0, x, _ => x
  | n + 1, x, y => genRounds n (genRound x y) (u64 (y + 0x6A09E667F3BCC909))

/-- g(key, stream, counter): 32 bits. -/
def generator (key stream counter : Nat) : Nat :=
  let x := genRounds 4 (u64 counter) (u64 key ^^^ u64 (stream * 0x9E3779B97F4A7C15))
  (x / 2 ^ 32) ^^^ (x % 2 ^ 32)

/-! ## The conversion word (R209, R210) -/

/-- A conversion word taken apart. -/
structure ConvWord where
  tfmt : Nat
  stochastic : Bool
  round : Nat
  nonsat : Bool
  scale : Nat
  pow2 : Bool
  asym : Bool
  wideFmt : Nat
  widen : Bool
  stream : Nat
  reserved : Nat
deriving DecidableEq, Repr

/-- Take a conversion word apart (R209). -/
def convWord (w : Nat) : ConvWord :=
  { tfmt := bits w 0 4, stochastic := bits w 4 2 == 1, round := bits w 4 2, nonsat := bit w 6, scale := bits w 8 2
    pow2 := bit w 10, asym := bit w 11, wideFmt := bits w 12 4, widen := bit w 16, stream := bits w 24 8
    reserved := bits w 7 1 + bits w 17 7 }

/-- The rules of R210 and of the zero fields of R209. -/
def ConvWord.legal (c : ConvWord) : Bool :=
  decide (c.tfmt ≤ 10) && decide (c.round ≤ 1)
    && (c.scale == 3) == isMx c.tfmt
    && (c.scale != 2 || [0, 1, 2, 8].contains c.tfmt)
    && (c.scale != 0 && c.scale != 1 || [0, 1, 2, 8, 9, 10].contains c.tfmt)
    && (!c.pow2 || c.scale == 2)
    && (!c.asym || ((c.tfmt == 2 || c.tfmt == 8) && c.scale == 1))
    && (c.round != 1 || [0, 1, 3, 4, 9].contains c.tfmt)
    && (!c.nonsat || [0, 1, 9, 10].contains c.tfmt)
    && (!c.widen || (c.scale == 1 && ((c.tfmt == 8 && c.wideFmt == 2) || ((c.tfmt == 0 || c.tfmt == 1) && c.wideFmt == 9))))
    && (c.widen || c.wideFmt == 0) && (c.round == 1 || c.stream == 0)

/-! ## Converting a value (R211, R212, R228) -/

/-- Round a magnitude stochastically to the format's grid: up when the 16-bit random value is below the fraction. -/
def Fmt.gridRandom (f : Fmt) (m : Nat) (e : Int) (r : Nat) : Nat × Int :=
  let u := f.unit m e
  if u ≤ e then (m * 2 ^ (e - u).toNat, u)
  else
    let k := (u - e).toNat
    let q := m / 2 ^ k
    let part := m % 2 ^ k * 65536 / 2 ^ k
    (if r < part then q + 1 else q, u)

/-- The value of an overflow in a floating-point target (R212). -/
def Fmt.overflowCode (f : Fmt) (neg nonsat : Bool) : Nat :=
  if nonsat then (if f.hasInf then f.encode (.inf neg) else if f.hasNan then f.encode .nan else f.encode (.fin neg f.maxMan f.maxExp))
  else f.encode (.fin neg f.maxMan f.maxExp)

/-- Convert to a floating-point target: the code, and whether the element counts as saturated. -/
def Fmt.narrow (f : Fmt) (nonsat : Bool) (rnd : Option Nat) : Fv → Nat × Bool
  | .nan => (f.encode .nan, false)
  | .inf s => (f.overflowCode s nonsat, true)
  | .fin s m e =>
    let (q, u) := match rnd with
      | some r => f.gridRandom m e r
      | none => f.grid m e
    if f.over q u then (f.overflowCode s nonsat, true) else (f.encode (.fin s q u), false)

/-- Convert to an integer target of `w` bits with a zero point. -/
def narrowInt (w : Nat) (z : Int) (t : Fv) : Nat × Bool :=
  let lo : Int := -(2 ^ (w - 1) : Nat)
  let hi : Int := (2 ^ (w - 1) : Nat) - 1
  match t with
  | .nan => (0, true)
  | .inf s => (unsigned w (if s then lo else hi), true)
  | t =>
    let q := t.toIntEven + z
    if q < lo then (unsigned w lo, true) else if hi < q then (unsigned w hi, true) else (unsigned w q, false)

/-- R211, R212: convert a scaled value `t` to a format code. -/
def narrow (c : Nat) (nonsat : Bool) (rnd : Option Nat) (z : Int) (t : Fv) : Nat × Bool :=
  match fmtOf c with
  | some f => f.narrow nonsat rnd t
  | none => narrowInt (elemBits c) z t

/-- Round to nearest even to an intermediate format, an overflow giving the largest finite value (R237). -/
def roundTo (c : Nat) (x : Fv) : Nat := (narrow c false none 0 x).1

/-! ## Scales (R213, R214, R216, R217) -/

/-- The largest magnitude of a list, exact; a NaN makes it NaN (R216). -/
def amax (l : List Fv) : Fv :=
  l.foldl (fun a x => match a, x with
    | .nan, _ => .nan
    | _, .nan => .nan
    | a, x => if x.abs.gt a then x.abs else a) (.fin false 0 0)

/-- emax of the MX element formats (R213). -/
def emaxOf : Nat → Int
  | 3 => 8
  | 4 => 15
  | 5 => 2
  | 6 => 4
  | 7 => 2
  | _ => 0

/-- Scale by 2^k exactly. -/
def Fv.scale2 (k : Int) : Fv → Fv
  | .fin s m e => .fin s m (e + k)
  | x => x

/-- R213, R214: convert a block of 32 to MX elements: the scale byte and the element codes. `rnd` gives each element's random
value. -/
def mxBlock (c : Nat) (rnd : Nat → Option Nat) (l : List Fv) : Nat × List Nat :=
  match amax l with
  | .nan => (255, l.map fun _ => 0)
  | .inf _ => (255, l.map fun _ => 0)
  | .fin s m e =>
    if m = 0 then (0, l.map fun _ => 0)
    else
      let k : Int := max (-127) (min 127 ((Fv.fin s m e).ilog2 - emaxOf c))
      ((k + 127).toNat, (l.zipIdx).map fun p => (narrow c false (rnd p.2) 0 (p.1.scale2 (-k))).1)

/-- Qmax of R217. -/
def qmax : Nat → Nat
  | 0 => 448
  | 1 => 57344
  | 2 => 127
  | _ => 7

/-- The smallest power of two at or above a positive value. -/
def ceilPow2 (m : Nat) (e : Int) : Fv :=
  let k := bitLen m - 1
  if m = 2 ^ k then .fin false 1 (e + (k : Int)) else .fin false 1 (e + (k : Int) + 1)

/-- R217: the per-tensor scale. -/
def tensorScale (c : Nat) (pow2 : Bool) (a : Fv) : Fv :=
  match a with
  | .nan => .nan
  | .inf _ => .nan
  | .fin _ m e =>
    if m = 0 then .fin false 1 0
    else
      let q := Fv.ofInt (qmax c)
      if pow2 then
        -- the quotient m·2^e ÷ Qmax lies at or below 2^k when m·2^e ≤ Qmax·2^k
        match Fv.divSticky 64 (.fin false m e) q with
        | .fin _ n g => ceilPow2 n g
        | x => x
      else f32Div (.fin false m e) q

/-! ## Activations (R242) -/

/-- A cubic by Horner's rule in FP32, each step rounded once (DESIGN CHOICE, log 95); `co`: the codes of the coefficients by power. -/
def cubic (co : Nat → Nat) (x : Fv) : Fv :=
  [2, 1, 0].foldl (fun a k => Fmt.fp32.round ((a.mul x).add (f32 (co k)))) (f32 (co 3))

/-- A segment's polynomial at a value. -/
def segmentValue (table : Nat → Nat → Nat) (i : Nat) (x : Fv) : Fv := cubic (table i) (f32Sub x (f32 (table i 4)))

/-- The segment, of 256 that are 2^-k wide from `lo` on, that holds `x`; the last one holds its own end too. -/
def segmentOf (lo k : Int) (x : Fv) : Nat :=
  match x.sub (Fv.ofInt lo) with
  | .fin false m e => min 255 (shiftInt m (e + k))
  | _ => 0

/-- Is an FP32 value above a bound given as a code? -/
def aboveCode (x : Fv) (c : Nat) : Bool := x.gt (f32 c)

/-- EXP with its special inputs: 88.72 is 0x42B170A4, −103.98 is 0xC2CFF5C3 in FP32; log2 e is 0x3FB8AA3B. -/
def expF (x : Fv) : Fv :=
  match x with
  | .nan => .nan
  | x =>
    if (f32 0xC2CFF5C3).gt x then .fin false 0 0
    else if aboveCode x 0x42B170A4 then .inf false
    else
      let i := (f32Mul x (f32 0x3FB8AA3B)).toIntEven
      let f := Config.expRest (toF32 x)
      Fmt.fp32.round ((segmentValue Config.expTable (Config.expSegment f % 64) (f32 f)).scale2 i)

/-- GELU with its special inputs: 256 segments on [−8, 8]. -/
def geluF (x : Fv) : Fv :=
  match x with
  | .nan => .nan
  | x =>
    if aboveCode x 0x41000000 then x else if (f32 0xC1000000).gt x then .fin false 0 0
    else segmentValue Config.geluTable (segmentOf (-8) 4 x) x

/-- SILU with its special inputs: 256 segments on [−32, 32]. -/
def siluF (x : Fv) : Fv :=
  match x with
  | .nan => .nan
  | x =>
    if aboveCode x 0x42000000 then x else if (f32 0xC2000000).gt x then .fin false 0 0
    else segmentValue Config.siluTable (segmentOf (-32) 2 x) x

end Sys2Proof.Machine
end

