-- ==== Sys2Proof/Machine/Records.lean ====
section
/-! DEFINITION. Tensor records and their directories (R279, R280). -/

namespace Sys2Proof.Machine

/-! ## Tensor records and locations (R279, R280) -/

/-- A field of the record at an address. -/
def State.recField (s : State) (r off k : Nat) : Nat := s.natAt (r + off) k
/-- TILES. -/
def State.recTiles (s : State) (r : Nat) : Nat := s.recField r 0 4
/-- FMT. -/
def State.recFmt (s : State) (r : Nat) : Nat := s.recField r 4 1
/-- TILED. -/
def State.recTiled (s : State) (r : Nat) : Bool := bit (s.recField r 5 1) 0
/-- The pool of a record's tiles: KV for a tensor of the session engine, else tensor. -/
def State.recPool (s : State) (r : Nat) : Nat := if bit (s.recField r 5 1) 1 then 4 else 3
/-- SIDE_BYTES. -/
def State.recSide (s : State) (r : Nat) : Nat := s.recField r 6 2
/-- Element bytes of a tile: TILE_BYTES, or 1,024 of a whole tensor. -/
def State.recTileBytes (s : State) (r : Nat) : Nat := if s.recTiled r then s.recField r 8 4 else 1024
/-- ROWS of a whole tensor. -/
def State.recRows (s : State) (r : Nat) : Nat := s.recField r 0x0C 4
/-- ROW_BYTES of a whole tensor. -/
def State.recRowBytes (s : State) (r : Nat) : Nat := s.recField r 0x10 4
/-- Bytes of the record with its chunk list. -/
def State.recLen (s : State) (r : Nat) : Nat := 64 + 8 * s.recField r 0x14 4

/-- Address of a tile's directory entry. -/
def State.entryAt (s : State) (r i : Nat) : Nat := s.natAt (r + 0x40 + 8 * (i / 4096)) 8 + 16 * (i % 4096)

/-- A directory entry (R280): WHERE, address or position in bytes, T2_COPY, coded bytes, T2_POS in bytes. -/
structure Loc where
  wh : Nat
  at_ : Nat
  copy : Bool
  len : Nat
  pos : Nat
deriving DecidableEq, Repr

/-- The location of a tile. -/
def State.loc (s : State) (r i : Nat) : Loc :=
  let w := s.natAt (s.entryAt r i) 8
  { wh := bits w 16 3, at_ := 16 * bits w 20 42, copy := bit w 19, len := 16 * bits w 0 16, pos := 16 * s.natAt (s.entryAt r i + 8) 8 }

/-- The location word. -/
def Loc.word (l : Loc) : Nat := l.len / 16 + 2 ^ 16 * l.wh + 2 ^ 19 * b2n l.copy + 2 ^ 20 * (l.at_ / 16)

/-- Switch a tile's location: the word is one 8-byte write. -/
def State.setLoc (s : State) (r i : Nat) (l : Loc) : State :=
  let e := s.entryAt r i
  (s.writeNat e 8 l.word).writeNat (e + 8) 8 (if l.copy then l.pos / 16 else 0)

/-- Bytes of the tier store. -/
def State.t2Bytes (s : State) (p n : Nat) : Bytes := Tab.getRange 0 s.tiers.store p n
/-- Write to the tier store. -/
def State.writeT2 (s : State) (p : Nat) (b : Bytes) : State :=
  s.modTiers fun t => { t with store := Tab.setRange 0 t.store p b }

/-- A mover has used the tensor (R279): LAST_USE. -/
def State.touch (s : State) (r : Nat) : State :=
  (s.writeNat (r + 0x18) 8 s.hdCount).modTiers fun t =>
    { t with tensors := if t.tensors.contains r then t.tensors else t.tensors ++ [r] }

end Sys2Proof.Machine
end

