-- ==== Sys2Proof/Machine/Sp.lean ====
section
/-! DEFINITION. Scratchpad banks, who may reach an address, bad words, dirty granules and slot flags (R32, R254-R275,
R284). -/

namespace Sys2Proof.Machine

/-! ## Banks -/

/-- State of a bank. -/
def Cluster.bank (c : Cluster) (b : Nat) : BankState := Tab.get .on c.banks b
/-- Set the state of a bank. -/
def Cluster.setBank (c : Cluster) (b : Nat) (v : BankState) : Cluster := { c with banks := Tab.set .on c.banks b v }
/-- Is the region that holds a cluster-local address RESIDENT? (R261) -/
def Cluster.isResident (c : Cluster) (a : Nat) : Bool := bit (Tab.get 0 c.resident (a / 2 ^ 20)) (a / 65536 % 16)
/-- The end of the populated window. -/
def spEnd : Nat := 24 * 2 ^ 20

/-- Mark the granules of a cluster-local range dirty (R284). -/
def Cluster.dirty (c : Cluster) (a n : Nat) : Cluster :=
  if n = 0 then c
  else { c with clean := c.clean.filter (fun p => !(decide (a / 1024 ≤ p.1) && decide (p.1 ≤ (a + n - 1) / 1024))) }

/-- Clear the dirty bits of the granules from `k` upward, `n` of them. -/
def cleanFrom (t : Tab Bool) (k : Nat) : Nat → Tab Bool
  | 0 => t
  | n + 1 => cleanFrom (Tab.set false t k true) (k + 1) n

/-- Clear the dirty bits of the granules that lie wholly inside a range (R284). -/
def Cluster.cleanInside (c : Cluster) (a n : Nat) : Cluster :=
  let lo := (a + 1023) / 1024
  { c with clean := cleanFrom c.clean lo ((a + n) / 1024 - lo) }

/-- Is a granule that overlaps the range dirty? (R285) -/
def Cluster.anyDirty (c : Cluster) (a n : Nat) : Bool :=
  (List.range ((a + n + 1023) / 1024 - a / 1024)).any fun i => !Tab.get false c.clean (a / 1024 + i)

/-! ## Partitions and rights (R32, R343) -/

/-- The partition a cluster belongs to. -/
def Sched.partOf (sc : Sched) (g : Nat) : Option (Nat × Partition) := sc.parts.find? (fun p => bit p.2.mask g)

/-- Does a union of ranges (address, length) cover the addresses from `a` up to `hi`? -/
def covered (ws : List (Nat × Nat)) (hi : Nat) : Nat → Nat → Bool
  | 0, a => decide (hi ≤ a)
  | k + 1, a =>
    if hi ≤ a then true
    else match ws.find? (fun w => decide (w.1 ≤ a) && decide (a < w.1 + w.2)) with
      | some w => covered ws hi k (w.1 + w.2)
      | none => false

/-- Do the rights of cluster `g`'s partition, with the grants of one of its tasks, cover a range of HBM or scratchpad? (R32, R343) -/
def State.taskMay (s : State) (g : Nat) (grants : List (Nat × Nat)) (a n : Nat) : Bool :=
  match s.sched.partOf g with
  | none => false
  | some (_, p) =>
    match place a with
    | .sp h _ _ => bit p.mask h
    | .hbm _ => covered (p.hbm ++ grants) (a + n) ((p.hbm ++ grants).length + 1) a
    | _ => false

/-- The grants of the task that runs on a cluster. -/
def State.grantsOn (s : State) (g : Nat) : List (Nat × Nat) :=
  match (s.sched.partOf g).bind (·.2.run) with
  | some t => t.grants
  | none => []

/-- Do the rights of the task now on cluster `g` cover a range? -/
def State.partMay (s : State) (g a n : Nat) : Bool := s.taskMay g (s.grantsOn g) a n

/-- May the requester reach the range? The keepers reach everything but the ONFI registers (R32). The rights table has no row for media
ROM code: it reaches all memory and, of the device registers, the ONFI registers alone (DESIGN CHOICE, log 90). -/
def State.mayReach (s : State) (r : Requester) (a n : Nat) : Bool :=
  match r with
  | .keeper => true
  | .mediaRom => true
  | .steward g => s.partMay g.val a n
  | .task g ws => s.taskMay g.val ws a n
  | .mover g => s.partMay g.val a n
  | .update u =>
    let ws := match s.upd.jobOf u.val with
      | some j => j.reads
      | none => []
    match place a with
    | .hbm _ => covered ws (a + n) (ws.length + 1) a
    | _ => false

/-- Does an update program write a range that its job grants for reading only? (R333) -/
def State.updReadOnly (s : State) (r : Requester) (a n : Nat) : Bool :=
  match r with
  | .update u => (match s.upd.jobOf u.val with
    | some j => !covered j.writes (a + n) (j.writes.length + 1) a
    | none => false)
  | _ => false

/-- Is the requester keeper firmware? -/
def isKeeper : Requester → Bool
  | .keeper => true
  | _ => false

/-- The answer to an access of `n` bytes at `a`, which lie within one bank, stack or block: an ST code (R32, R261, R271,
R273, R274). -/
def State.pieceSt (s : State) (r : Requester) (write : Bool) (a n : Nat) : Nat :=
  match place a with
  | .unmapped => St.addrUnmapped
  | .unpopulated => St.addrUnmapped
  | .hbm k =>
    if s.dieLost k then St.addrUnmapped
    else if s.mayReach r a n && !(write && s.updReadOnly r a n) then St.ok else St.addrDenied
  | .hub => if s.mayReach r a n then St.ok else St.addrDenied
  | .dev _ _ => if s.mayReach r a n then St.ok else St.addrDenied
  | .sp g b off =>
    let c := s.cluster g
    if c.bank b = .retired then St.addrUnmapped
    else if !s.mayReach r a n then St.addrDenied
    else if write && !isKeeper r && c.isResident (b * 2 ^ 20 + off) then St.addrDenied
    else match c.bank b with
      | .off => if write then St.bankOff else St.addrUnmapped
      | .upping => if write then St.bankOff else St.addrUnmapped
      | .downForce => if write then St.bankOff else St.ok
      | _ => St.ok

/-- The pieces of a range, cut at the boundaries of 64 KiB: regions are the finest grain at which an answer changes. -/
def pieces : Nat → Nat → Nat → List (Nat × Nat)
  | 0, _, _ => []
  | k + 1, a, n =>
    if n = 0 then []
    else
      let m := min n (65536 - a % 65536)
      (a, m) :: pieces k (a + m) (n - m)

/-- The answers to an access of a range, piece by piece. -/
def State.pieceSts (s : State) (r : Requester) (write : Bool) (a n : Nat) : List Nat :=
  (pieces (n / 65536 + 2) a n).map fun p => s.pieceSt r write p.1 p.2

/-- The answer to an access of a range: the first piece that is not ST_OK decides. -/
def State.accessSt (s : State) (r : Requester) (write : Bool) (a n : Nat) : Nat :=
  (s.pieceSts r write a n).find? (· ≠ St.ok) |>.getD St.ok

/-- Count writes dropped at a bank (R273). -/
def State.dropWrites (s : State) (a n : Nat) : State :=
  match place a with
  | .sp g _ _ => s.modCl g fun c => { c with dropped := satAdd (2 ^ 32 - 1) c.dropped n }
  | _ => s

/-! ## Bad words (R268, R423, R424) -/

/-- Does a read of word `w` meet an error: poison, or a parity that is undefined and happens to be wrong? (R268, R274, R424) -/
def State.wordBad (s : State) (w : Nat) : Bool :=
  Tab.get false s.poison w
    || s.undef.any fun u => u.par && decide (u.lo < w * 8 + 8) && decide (w * 8 < u.hi) && Config.freeParity s.free u.gen w

/-- The first word of a range that is poisoned or fails its parity; each word whose parity is undefined may fail it (R274). -/
def State.firstBad (s : State) (a n : Nat) : Option Nat :=
  if s.undef.any (fun u => u.par && decide (a < u.hi) && decide (u.lo < a + n)) then
    ((List.range ((a + n + 7) / 8 - a / 8)).find? fun i => s.wordBad (a / 8 + i)).map fun i => (a / 8 + i) * 8
  else (s.poison.find? (fun p => p.2 && decide (a < p.1 * 8 + 8) && decide (p.1 * 8 < a + n))).map (·.1 * 8)

/-- SOURCE of a scratchpad fault (R426). -/
def spSource (g b : Nat) : Nat := g + b * 1024

/-- Latch a parity error in SP_PARITY (R268, R276); a RESIDENT region waits for its reload (R270). -/
def Cluster.latchParity (c : Cluster) (a : Nat) : Cluster :=
  let res := c.isResident a
  let c := { c with parErrors := satAdd 65535 c.parErrors 1 }
  let c := if c.parFirst then { c with parMultiple := true }
    else { c with parFirst := true, parAddr := a / 8 * 8, parResident := res }
  let k := a / 65536
  if res && !c.reloads.contains k then { c with reloads := c.reloads ++ [k] } else c

/-- Change the running task of the partition of a cluster. -/
def State.modTask (s : State) (g : Nat) (f : Task → Task) : State :=
  match s.sched.partOf g with
  | some (p, pt) => s.modSched fun sc => { sc with parts := Tab.put sc.parts p { pt with run := pt.run.map f } }
  | none => s

/-- The running task of the partition of a cluster. -/
def State.taskOf (s : State) (g : Nat) : Option Task := (s.sched.partOf g).bind (·.2.run)

/-- The tag a report by cluster `g` carries (R425). -/
def State.tagOf (s : State) (g : Option Nat) : Nat :=
  match g.bind s.taskOf with
  | some t => t.tag
  | none => noTag

/-- The class of fault that a bad word at an address is (R422). -/
def badClass (a : Nat) : Option FaultClass :=
  match place a with
  | .sp _ _ _ => some .spParity
  | .hbm _ => some .hbmUncorrected
  | .hub => some .sramUncorrected
  | _ => none

/-- A bad word is met: the latch of a scratchpad bank and the report to the concentrator of the die that holds it (R268, R422). -/
def State.reportBadWord (s : State) (partner tag a : Nat) : State :=
  match place a with
  | .sp h b off =>
    let res := (s.cluster h).isResident (b * 2 ^ 20 + off)
    let s := s.modCl h fun c => c.latchParity (b * 2 ^ 20 + off)
    s.report (dieOfCluster h) { cls := .spParity, source := spSource h b, partner := partner, tag := tag, addr := a
                                st := St.poisoned, aux := b2n res }
  | .hbm k =>
    s.report (if k = 0 then .cd0 else .cd1) { cls := .hbmUncorrected, source := a / 1024, partner := partner
                                              tag := tag, addr := a, st := St.poisoned }
  | .hub =>
    s.report .hd { cls := .sramUncorrected, source := (a - 0xF00000000000) / 1024, partner := partner, tag := tag
                   addr := a, st := St.poisoned }
  | _ => s

/-- The partner of a requester on a cluster, or of one on HD (R422). -/
def partnerOf (g : Option Nat) : Nat :=
  match g with
  | some g => partnerOfCluster g
  | none => partnerHd

/-- A requester meets a bad word, which is a Vermilion fault of the attempt that met it (R268, R422, R432). `g`: the requester's
cluster, none for the blocks of HD. -/
def State.metBad (s : State) (g : Option Nat) (a : Nat) : State :=
  let s := s.used
  let s := s.reportBadWord (partnerOf g) (s.tagOf g) a
  match g, badClass a with
  | some g, some c => s.modTask g fun t => { t with now := t.now ++ [(c.code, a)] }
  | _, _ => s

/-- Check a range before its data is used: ST_POISONED, with the reports, where a word of it is bad. -/
def State.checkRead (s : State) (r : Requester) (g : Option Nat) (a n : Nat) : Nat × State :=
  let st := s.accessSt r false a n
  if st ≠ St.ok then (st, s)
  else match s.firstBad a n with
    | some w => (St.poisoned, s.metBad g w)
    | none => (St.ok, s.used)

/-- A write to a range ends a reservation of the cluster's core that it overlaps (R193). -/
def Cluster.breakReservation (c : Cluster) (a n : Nat) : Cluster :=
  match c.core.reservation with
  | some (r, k) => if r < a + n ∧ a < r + k then { c with core := { c.core with reservation := none } } else c
  | none => c

/-- Do two ranges (address, length) overlap? -/
def rangesMeet (p q : Nat × Nat) : Bool := decide (p.1 < q.1 + q.2) && decide (q.1 < p.1 + p.2)

/-- A range is written while an operation runs: a chain that uses it writes undefined values from then on (R253). -/
def Active.taint (v : Active) (p : Nat × Nat) : Active :=
  match v.op with
  | .chain k => if k.spans.any (rangesMeet p) then { v with op := .chain { k with tainted := true } } else v
  | _ => v

/-- The same for the operations in progress of a gang. -/
def Gang.taint (x : Gang) (p : Nat × Nat) : Gang := { x with active := x.active.map fun v => v.taint p }

/-- The same for the gangs of a cluster. -/
def Cluster.taint (c : Cluster) (p : Nat × Nat) : Cluster :=
  { c with g0 := c.g0.taint p, g1 := c.g1.taint p, g2 := c.g2.taint p, g3 := c.g3.taint p }

/-- Write to memory, mark the scratchpad granules dirty (R284), and the chains in progress that use the range (R253). -/
def State.store (s : State) (a : Nat) (b : Bytes) : State :=
  let s := s.writeMem a b
  let s := { s with cl := s.cl.map fun p => (p.1, p.2.taint (a, b.length)) }
  match place a with
  | .sp g k off => s.modCl g fun c => (c.dirty (k * 2 ^ 20 + off) b.length).breakReservation (k * 2 ^ 20 + off) b.length
  | _ => s

/-- The 64-byte lines that a range touches: each is one write to a bank (R255). -/
def lineCount (a n : Nat) : Nat := (a + n + 63) / 64 - a / 64

/-- How many of `n` writes to a bank that has gone off are dropped: all of them, or, for an operation that had begun them before (`early`),
those still to come, of which there is one at least (R273, log 26). -/
def State.dropCount (s : State) (early : Bool) (n : Nat) : Nat := if early then n - s.freeNum % max n 1 else n

/-- Write pieces in order. One to a bank that is going or has gone off is dropped, line by line, and the others go on; any other refusal
ends the writing (R273). The first code that is not ST_OK. -/
def State.writePieces (s : State) (r : Requester) (early : Bool) : List (Nat × Bytes) → Nat × State
  | [] => (St.ok, s)
  | (a, b) :: l =>
    let st := s.pieceSt r true a b.length
    if st = St.ok then (s.store a b).writePieces r early l
    else if st = St.bankOff then
      (St.bankOff, (((s.dropWrites a (s.dropCount early (lineCount a b.length))).used).writePieces r early l).2)
    else (st, s)

/-- Write a range: its code, and the state (R261, R273). -/
def State.writeRange (s : State) (r : Requester) (early : Bool) (a : Nat) (b : Bytes) : Nat × State :=
  if s.accessSt r true a b.length = St.ok then (St.ok, s.store a b)
  else s.writePieces r early ((pieces (b.length / 65536 + 2) a b.length).map fun p => (p.1, (b.drop (p.1 - a)).take p.2))

/-- Take the doubt of a parity that is undefined from the addresses `lo` up to `hi`: their values stay undefined. -/
def undefSettle (lo hi : Nat) : List Undef → List Undef
  | [] => []
  | u :: us =>
    if u.hi ≤ lo ∨ hi ≤ u.lo ∨ u.par = false then u :: undefSettle lo hi us
    else (if u.lo < lo then [{ u with hi := lo }] else []) ++ (if hi < u.hi then [{ u with lo := hi }] else [])
      ++ { u with lo := max u.lo lo, hi := min u.hi hi, par := false } :: undefSettle lo hi us

/-- A word that a store covers in part is read, merged and written back: with fresh parity, or, where the read met an error, with its
parity deliberately wrong; the error is reported (R269). -/
def State.mergeWord (s : State) (g : Option Nat) (w : Nat) : State :=
  let bad := s.wordBad w
  let s := if bad then s.metBad g (8 * w) else s.used
  let s := { s with undef := undefSettle (8 * w) (8 * w + 8) s.undef }
  if bad then s.poisonWord (8 * w) else s

/-- The words that a range covers in part: its first and its last at most. -/
def partWords (a n : Nat) : List Nat :=
  if n = 0 then []
  else ([a / 8, (a + n - 1) / 8].dedup).filter fun w => decide (w * 8 < a) || decide (a + n < w * 8 + 8)

/-- Store bytes, merging the words covered in part (R269). -/
def State.storeMerge (s : State) (g : Option Nat) (a : Nat) (b : Bytes) : State :=
  ((partWords a b.length).foldl (fun s w => s.mergeWord g w) s).store a b

/-! ## Slot flags (R263-R267) -/

/-- Is a flag FULL? -/
def Cluster.slotFull (c : Cluster) (i : Nat) : Bool := decide (256 ≤ Tab.get 0 c.slots i)
/-- Count of a flag. -/
def Cluster.slotCount (c : Cluster) (i : Nat) : Nat := Tab.get 0 c.slots i % 256
/-- Set a flag. -/
def Cluster.setSlot (c : Cluster) (i : Nat) (full : Bool) (count : Nat) : Cluster :=
  { c with slots := Tab.set 0 c.slots i (256 * b2n full + count % 256) }

/-- A completion post (R263). -/
def Cluster.postSlot (c : Cluster) (i : Nat) : Cluster :=
  let c := if c.slotFull i then { c with postedFull := satAdd 65535 c.postedFull 1 } else c
  c.setSlot i true (c.slotCount i + 1)

/-- Change every task that waits in a run queue. -/
def State.modWaiting (s : State) (f : Task → Task) : State :=
  let fixQ (q : RunQueue) : RunQueue := { q with tasks := q.tasks.map f }
  s.modSched fun sc => { sc with parts := sc.parts.map fun p =>
    (p.1, { p.2 with q0 := fixQ p.2.q0, q1 := fixQ p.2.q1, q2 := fixQ p.2.q2, q3 := fixQ p.2.q3 }) }

/-- Change the saved task whose image of cluster `g` is of the given attempt. -/
def State.modSavedOf (s : State) (g epoch : Nat) (f : Save → Task → Task) : State :=
  s.modWaiting fun t => match Tab.find t.saved g with
    | some v => if v.cl.epoch = epoch then f v t else t
    | none => t

/-- A completion post to the attempt it belongs to: to the flag store in use, or to the saved image of a pre-empted task; a post
of an attempt that has ended is discarded (R267, R356). -/
def State.postSlot (s : State) (g epoch i : Nat) : State :=
  if (s.cluster g).epoch = epoch then s.modCl g fun c => c.postSlot i
  else s.modSavedOf g epoch fun v t => { t with saved := Tab.put t.saved g { v with cl := v.cl.postSlot i } }

/-- A Vermilion fault of work that an attempt has issued: it is noted with the attempt's task, running or saved (R171, R359). -/
def State.noteAttempt (s : State) (g epoch : Nat) (f : Nat × Nat) : State :=
  if (s.cluster g).epoch = epoch then s.modTask g fun t => { t with now := t.now ++ [f] }
  else s.modSavedOf g epoch fun _ t => { t with now := t.now ++ [f] }

end Sys2Proof.Machine
end

