-- ==== Sys2Proof/Machine/GenOps.lean ====
section
/-! DEFINITION. Operations over agent sessions (R296-R298), the tokenizer (R307-R309), the deadline monitor and the shade model
(R320, R321), and the end of a command that a task runs. -/

namespace Sys2Proof.Machine

/-! ## Sessions -/

/-- Number of sessions (R5, R296). -/
def sessionCount : Nat := 1048576

/-- A session. -/
def State.session (s : State) (i : Nat) : Session := Tab.get {} s.tiers.sessions i
/-- Change a session. -/
def State.modSession (s : State) (i : Nat) (f : Session → Session) : State :=
  s.modTiers fun t => { t with sessions := Tab.mod {} t.sessions i f }

/-- The command on a session has ended: LAST_USE, and the commands that wait may go on, in the order of their fetch (R296,
R298). -/
def State.sessionDone (s : State) (i : Nat) : State :=
  let ws := (s.session i).waiting
  wakeWaiters ws (s.modSession i fun x => { x with busy := none, waiting := [], lastUse := s.hdCount, op := none, wants := 0 })

/-- A command waits for its session (R298): it keeps its tracker entry. A SESSION_CTL counts as started, so that it still acts in
its turn when its queue is deleted. -/
def State.sessionWait (s : State) (i tag : Nat) : State :=
  let s := s.modSession i fun x => { x with waiting := x.waiting.filter (· ≠ tag) ++ [tag] }
  s.modTrk tag fun k => { k with admitted := true, phase := if k.sqe.opc = 0x98 then k.phase else .fetched }

/-- Is the session held by another command, or another command ahead in its order? -/
def Session.heldFrom (x : Session) (tag : Nat) : Bool :=
  match x.busy with
  | some t => t != tag
  | none => false

/-! ## Pools of HBM (R278) -/

/-- Bytes of HBM in service: 48 GiB for each compute die that is not lost (R433). -/
def State.hbmBytes (s : State) : Nat := (b2n (!s.dieLost 0) + b2n (!s.dieLost 1)) * 48 * 2 ^ 30

/-- Size of a pool in bytes: 0 keeper, 1 resident copies, 2 index, 3 tensor, 4 KV, by the record in force at the last start (R472).
The KV pool takes the remainder after the pools and the 16 GiB, 64 MiB and 32 MiB of the fixed ones. -/
def State.poolSize (s : State) (pool : Nat) : Nat :=
  let mib (off d : Nat) := cfgField s.sec.pools off 4 d * 2 ^ 20
  let k := mib 0x28 512
  let r := mib 0x2C 3072
  let i := mib 0x30 16384
  let t := mib 0x34 12288
  match pool with
  | 0 => k
  | 1 => r
  | 2 => i
  | 3 => t
  | _ => s.hbmBytes - (16 * 2 ^ 30 + 96 * 2 ^ 20) - (k + r + i + t)

/-- Would an allocation of `n` bytes fit its pool? -/
def State.fits (s : State) (pool n : Nat) : Bool := decide (Tab.get 0 s.tiers.poolUsed pool + n ≤ s.poolSize pool)

/-- First address of an HBM stack, and of what lies above it. -/
def stackBase (k : Nat) : Nat := k * 0x000C00000000

/-- Bytes of a range that lie in a stack. -/
def inStack (k a n : Nat) : Nat := min (a + n) (stackBase (k + 1)) - max a (stackBase k)

/-- Bytes of a stack that pools of one stack hold for themselves (R278): 8 GiB of the flash map; in stack 0 the session descriptors and the
keeper's working pool, in stack 1 the request tracker. -/
def State.stackHeld (s : State) (k : Nat) : Nat :=
  8 * 2 ^ 30 + (if k = 0 then 64 * 2 ^ 20 + s.poolSize 0 else 32 * 2 ^ 20)

/-- Has each stack room for its part of a range, beside the allocations in it and the pools that lie there? -/
def State.stackRoom (s : State) (a n : Nat) : Bool :=
  [0, 1].all fun k => decide (inStack k a n = 0)
    || decide ((s.tiers.allocs.map fun p => inStack k p.1 p.2.2).sum + inStack k a n + s.stackHeld k ≤ stackBase 1)

/-- Is the range free HBM: within the stacks and their room, 16-byte aligned, apart from every allocation? The keeper chooses the
place. -/
def State.freeRange (s : State) (a n : Nat) : Bool :=
  decide (a % 16 = 0) && decide (a + n ≤ stackBase 2)
    && !(s.dieLost 0 && decide (a < stackBase 1)) && !(s.dieLost 1 && decide (stackBase 1 < a + n)) && s.stackRoom a n
    && s.tiers.allocs.all fun p => decide (a + n ≤ p.1) || decide (p.1 + p.2.2 ≤ a)

/-- Make an allocation. -/
def State.take (s : State) (pool a n : Nat) : State :=
  s.modTiers fun t => { t with allocs := Tab.put t.allocs a (pool, n), poolUsed := Tab.mod 0 t.poolUsed pool (· + n) }

/-- Release an allocation. -/
def State.release (s : State) (a : Nat) : State :=
  match Tab.find s.tiers.allocs a with
  | some (pool, n) =>
    s.modTiers fun t => { t with allocs := Tab.del t.allocs a, poolUsed := Tab.mod 0 t.poolUsed pool (· - n) }
  | none => s

/-- Release everything a KV tensor holds in T1. -/
def State.releaseKv (s : State) (r : Nat) : State :=
  let tiles := (List.range (s.recTiles r)).filterMap fun i => let l := s.loc r i; if l.wh = 1 then some l.at_ else none
  let chunks := (List.range (s.recField r 0x14 4)).map fun k => s.natAt (r + 0x40 + 8 * k) 8
  (tiles ++ chunks ++ [r]).foldl State.release s

/-! ## The tokenizer (R307-R309) -/

/-- VOCAB of the tables. -/
def tokVocab (t : Bytes) : Nat := fieldAt t 0x04 4
/-- Directory entry of a token: offset, length, SPECIAL. -/
def tokDir (t : Bytes) (i : Nat) : Nat × Nat × Bool :=
  (fieldAt t (0x560 + 8 * i) 4, fieldAt t (0x560 + 8 * i + 4) 2, bit (fieldAt t (0x560 + 8 * i + 6) 2) 0)
/-- Text of a token; a SPECIAL token adds nothing (R309). -/
def tokText (t : Bytes) (i : Nat) : Bytes :=
  let (o, n, sp) := tokDir t i
  if sp then [] else (t.drop (0x560 + 8 * tokVocab t + o)).take n
/-- Token of a single byte. -/
def byteToken (t : Bytes) (b : Byte) : Nat := fieldAt t (0x160 + 4 * b.toNat) 4
/-- Class of a byte value. -/
def byteClass (t : Bytes) (b : Byte) : Nat := fieldAt t (0x40 + b.toNat) 1
/-- Does a boundary fall between two bytes? -/
def tokBound (t : Bytes) (a b : Byte) : Bool := bit (fieldAt t (0x140 + 2 * byteClass t a) 2) (byteClass t b)
/-- Merge slots. -/
def tokSlots (t : Bytes) : Nat := fieldAt t 0x0C 4
/-- A merge slot: LEFT, RIGHT, RESULT, RANK. -/
def mergeSlot (t : Bytes) (i : Nat) : Nat × Nat × Nat × Nat :=
  let o := 0x560 + 8 * tokVocab t + fieldAt t 0x10 4 + 16 * i
  (fieldAt t o 4, fieldAt t (o + 4) 4, fieldAt t (o + 8) 4, fieldAt t (o + 12) 4)

/-- The probe of R308, from a slot. -/
def mergeProbe (t : Bytes) (l r : Nat) : Nat → Nat → Option (Nat × Nat)
  | 0, _ => none
  | k + 1, i =>
    let (a, b, res, rank) := mergeSlot t i
    if a = 0xFFFFFFFF then none
    else if a = l ∧ b = r then some (res, rank)
    else mergeProbe t l r k ((i + 1) % tokSlots t)

/-- lookup of R308: RESULT and RANK. -/
def mergeLookup (t : Bytes) (l r : Nat) : Option (Nat × Nat) :=
  mergeProbe t l r (tokSlots t) (((l * 0x9E3779B1) % 2 ^ 32 ^^^ r) % tokSlots t)

/-- The best merge of a token list: position, result, rank; the first of equal rank. -/
def bestMerge (t : Bytes) : Nat → List Nat → Option (Nat × Nat × Nat)
  | i, a :: b :: l =>
    let rest := bestMerge t (i + 1) (b :: l)
    match mergeLookup t a b with
    | some (res, rank) =>
      match rest with
      | some (j, x, y) => if y < rank then some (j, x, y) else some (i, res, rank)
      | none => some (i, res, rank)
    | none => rest
  | _, _ => none

/-- Merge within a chunk until no merge is left. -/
def mergeAll (t : Bytes) : Nat → List Nat → List Nat
  | 0, l => l
  | k + 1, l =>
    match bestMerge t 0 l with
    | some (i, res, _) => mergeAll t k (l.take i ++ res :: l.drop (i + 2))
    | none => l

/-- Cut text into chunks (R308): the chunks, and how many cuts MAX_CHUNK made. `cur` is the present chunk, reversed. -/
def chunksGo (t : Bytes) (top : Nat) : Bytes → Bytes → List Bytes → Nat → List Bytes × Nat
  | [], cur, done, n => ((if cur = [] then done else cur.reverse :: done).reverse, n)
  | b :: bs, [], done, n => chunksGo t top bs [b] done n
  | b :: bs, c :: cs, done, n =>
    if tokBound t c b then chunksGo t top bs [b] ((c :: cs).reverse :: done) n
    else if top ≤ (c :: cs).length then chunksGo t top bs [b] ((c :: cs).reverse :: done) (n + 1)
    else chunksGo t top bs (b :: c :: cs) done n

/-- Encode text (R308): the tokens, and the cuts counted in FORCED_SPLITS. -/
def encode (t : Bytes) (text : Bytes) : List Nat × Nat :=
  let (cs, n) := chunksGo t (fieldAt t 0x16 2) text [] [] 0
  ((cs.map fun c => mergeAll t c.length (c.map (byteToken t))).flatten, n)

/-- U+FFFD in UTF-8. -/
def replacement : Bytes := [0xEF, 0xBF, 0xBD]

/-- Whether a byte may lead a sequence, and the sequence's length. -/
def utf8Len (b : Nat) : Nat :=
  if b < 0x80 then 1 else if 0xC2 ≤ b ∧ b ≤ 0xDF then 2 else if 0xE0 ≤ b ∧ b ≤ 0xEF then 3
  else if 0xF0 ≤ b ∧ b ≤ 0xF4 then 4 else 0

/-- Whether a byte may follow a partial sequence (the Unicode Standard's well-formed sequences). -/
def utf8Cont (part : List Nat) (b : Nat) : Bool :=
  match part with
  | [l] =>
    if l = 0xE0 then decide (0xA0 ≤ b ∧ b ≤ 0xBF) else if l = 0xED then decide (0x80 ≤ b ∧ b ≤ 0x9F)
    else if l = 0xF0 then decide (0x90 ≤ b ∧ b ≤ 0xBF) else if l = 0xF4 then decide (0x80 ≤ b ∧ b ≤ 0x8F)
    else decide (0x80 ≤ b ∧ b ≤ 0xBF)
  | _ => decide (0x80 ≤ b ∧ b ≤ 0xBF)

/-- Start a sequence with a byte: output, bytes held back, replacements. -/
def utf8Lead (b : Byte) : Bytes × Bytes × Nat :=
  match utf8Len b.toNat with
  | 0 => (replacement, [], 1)
  | 1 => ([b], [], 0)
  | _ => ([], [b], 0)

/-- Take one byte (R309). -/
def utf8Step (x : Bytes × Bytes × Nat) (b : Byte) : Bytes × Bytes × Nat :=
  let (out, part, n) := x
  match part with
  | [] =>
    let (o, p, k) := utf8Lead b
    (out ++ o, p, n + k)
  | l :: _ =>
    if utf8Cont (part.map (·.toNat)) b.toNat then
      if part.length + 1 = utf8Len l.toNat then (out ++ part ++ [b], [], n) else (out, part ++ [b], n)
    else
      let (o, p, k) := utf8Lead b
      (out ++ replacement ++ o, p, n + 1 + k)

/-- Detokenise: bytes held back before and the bytes of new tokens; the output, what is held back, and the replacements. -/
def utf8Emit (tail b : Bytes) : Bytes × Bytes × Nat := b.foldl utf8Step ([], tail, 0)

/-! ## Objects and manifests (R98, R304) -/

/-- An installed object. -/
def State.object (s : State) (cls id : Nat) : Option Obj := Tab.find s.amp.objects (cls * 65536 + id)

/-- Is the capability's model field in force: SHADE_MODE, SHADE, DRAFT, TOKENIZER and the rest are read from the manifest. -/
def manKind (m : Bytes) : Nat := fieldAt m 0x04 1
/-- KV_FMT. -/
def manKv (m : Bytes) : Nat := fieldAt m 0x06 1
/-- LAYERS, KV_HEADS, HEAD_DIM and KV_FMT (R321, R325). -/
def manShape (m : Bytes) : Bytes := (m.drop 0x10).take 2 ++ (m.drop 0x14).take 4 ++ (m.drop 0x06).take 1
/-- MAX_CONTEXT. -/
def manContext (m : Bytes) : Nat := fieldAt m 0x20 4
/-- OUT_DIMS, OUT_FMT, POOL (R321). -/
def manOut (m : Bytes) : Bytes := (m.drop 0x30).take 4

/-! ## The deadline monitor (R320) -/

/-- 1.25 ÷ f for the present arithmetic clock. -/
def State.clockScale (s : State) : Rat := if s.power.clock = 0 then 1 else if s.power.clock = 1 then 5 / 4 else 25 / 16

/-- The predicted remaining time in nanoseconds. -/
def Gen.remaining (g : Gen) (a : Rat) (admitted : Bool) : Rat :=
  let f (o : Nat) : Rat := (fieldAt g.man o 4 : Nat)
  let pre0 : Rat := if admitted then 0 else f 0x50 * a
  if g.embed then pre0 + (g.inTokens : Nat) * f 0x64 * a
  else
    let expect := fieldAt g.sampling 0x0A 2
    let top := min (if expect = 0 then g.maxNew else expect) (manContext g.man - (g.held - g.fresh))
    let n : Rat := ((top - g.fresh : Nat) : Rat)
    let q : Rat :=
      if !g.speculate then 1
      else if g.verifySteps = 0 then ((fieldAt g.man 0x68 2 : Nat) : Rat) / 16
      else ((g.fresh : Nat) : Rat) / ((g.verifySteps : Nat) : Rat)
    let st : Rat := if q = 0 then n else ((n / q).ceil : Int)
    let per := if g.speculate then f 0x5C else f 0x58
    pre0 + (g.prompt : Nat) * f 0x54 * a + st * per * a
      + (st * (g.held : Nat) + q * st * (st - 1) / 2) * f 0x60 / 1000 + st * f 0x6C

/-- Is a miss predicted? (R320) -/
def State.predictsMiss (s : State) (tag : Nat) (g : Gen) (admitted : Bool) : Bool :=
  match s.trk tag with
  | some t =>
    decide (t.sqe.deadline ≠ 0) &&
      decide ((((s.hdCount - t.fetchCount) * 1000 : Nat) : Rat) + g.remaining s.clockScale admitted > ((t.sqe.deadline * 1000 : Nat) : Rat))
  | none => false

/-- The shade a command may switch to (R321), with its manifest. `admission`: this is the admission check. -/
def State.shadeOf (s : State) (g : Gen) (admission : Bool) : Option Obj :=
  if g.shade then none else
  match s.object 1 (fieldAt g.man 0x0C 2) with
  | some live =>
    -- the version that was installed at admission stays the command's, as long as the shade has not been removed (R325)
    let o := g.shadeObj.getD live
    let m := o.data.take 256
    let mode := fieldAt g.man 0x07 1
    if manKind m = manKind g.man ∧ fieldAt m 0x0A 2 = fieldAt g.man 0x0A 2 ∧ fieldAt m 0x1C 4 = fieldAt g.man 0x1C 4
        ∧ (g.embed → manOut m = manOut g.man)
        ∧ (mode = 0 → admission ∧ g.session = none)
        ∧ (mode = 1 → manShape m = manShape g.man) then some o else none
  | none => none

/-- Is a draft of the manifest installed that fits it? (R312) -/
def State.draftOk (s : State) (m : Bytes) : Bool :=
  match s.object 1 (fieldAt m 0x0E 2) with
  | some d => decide (fieldAt d.data 0x0A 2 = fieldAt m 0x0A 2) && decide (fieldAt d.data 0x1C 4 = fieldAt m 0x1C 4)
  | none => false

/-- The shade takes over from the next step; speculation goes on where its own draft is installed (R321). -/
def Gen.switch (g : Gen) (o : Obj) (draft : Bool) : Gen :=
  { g with model := o.id, man := o.data.take 256, shade := true, speculate := g.speculate && draft
           scale := (o.data.drop (fieldAt o.data 0x70 8)).take 16 }

/-- The monitor's check of a command (R320, R321, R348): `admission`, the check counts as the admission check; `admitted`, the
command has been admitted before. -/
def State.monitor (s : State) (tag : Nat) (admission admitted : Bool) : State :=
  match Tab.find s.tokens.gens tag with
  | some g =>
    if s.predictsMiss tag g admitted then
      match s.shadeOf g admission with
      | some o =>
        let s := s.modTokens fun t => { t with gens := Tab.put t.gens tag (g.switch o (s.draftOk (o.data.take 256))) }
        if g.embed then s.flagResult tag 1 else s
      | none => s
    else s
  | none => s

/-! ## The end of a command -/

/-! ## Versions of objects (R98) -/

/-- Take the RESIDENT marks of an object's regions off, and release its space. -/
def State.freeObject (s : State) (o : Obj) : State :=
  let s := o.regions.foldl (fun s r => s.modCl r.1 fun c => { c with
    resident := Tab.set 0 c.resident (r.2 / 16) (Tab.get 0 c.resident (r.2 / 16) - (if c.isResident (r.2 * 65536) then 2 ^ (r.2 % 16) else 0))
    copies := Tab.del c.copies r.2, reloads := c.reloads.filter (· ≠ r.2) }) s
  o.space.foldl State.release s

/-- Free the old versions that no command uses any more. -/
def State.sweepObjects (s : State) : State :=
  let live (tag : Nat) : Bool := match s.trk tag with
    | some t => t.phase == .started || t.phase == .stopping
    | none => false
  let l := s.amp.old.map fun o => (o.1, o.2.filter live)
  (l.filter fun o => o.2.isEmpty).foldl (fun s o => s.freeObject o.1)
    (s.modAmp fun a => { a with old := l.filter fun o => !o.2.isEmpty })

/-- An installed version leaves the catalogue: vendor commands admitted before finish on it, and then it is freed. -/
def State.dropObject (s : State) (key : Nat) : State :=
  match Tab.find s.amp.objects key with
  | some o =>
    let tags := (s.host.trk.filter fun t => (t.2.phase == .started || t.2.phase == .stopping) && t.2.sqe.isVendor && t.2.sq != 0).map (·.1)
    (s.modAmp fun a => { a with objects := Tab.del a.objects key, old := a.old ++ [(o, tags)] }).sweepObjects
  | none => s

/-- The draft's private KV is freed (R319). -/
def State.freeDraft (s : State) (g : Gen) : State := match g.draft with
  | some d => s.releaseKv d.root
  | none => s

/-- The end of a command that a task ran (R76, R309, R319): bytes held back come out as one U+FFFD, its draft's KV is freed, its session is
free for the next command, and the command completes. -/
def State.commandEnd (s : State) (tag code : Nat) : State :=
  let s := match Tab.find s.tokens.gens tag with
    | some g =>
      let s := if g.tail = [] then s
        else (s.emit tag replacement 0).modTokens fun t => { t with replaced := satAdd (2 ^ 32 - 1) t.replaced 1 }
      (s.freeDraft g).modTokens fun t => { t with gens := Tab.del t.gens tag }
    | none => s
  match s.trk tag with
  | some t =>
    let s := (s.vendorEnd tag code).sweepObjects
    if t.sqe.sessionValid ∧ (s.session t.sqe.session).busy = some tag then s.sessionDone t.sqe.session else s
  | none => s

end Sys2Proof.Machine
end

