-- ==== Sys2Proof/Machine/MvOps.lean ====
section
/-! DEFINITION. The ends of mover descriptors: completion word, slot, MV_ERR, FLUSH (R283, R303). -/

namespace Sys2Proof.Machine

/-! ## Fields of a mover descriptor (R281) -/

/-- OP. -/
def mvOp (d : Bytes) : Nat := fieldAt d 0 1
/-- FORCE_WB. -/
def mvForce (d : Bytes) : Bool := bit (fieldAt d 1 1) 0
/-- DONE_SLOT. -/
def mvSlot (d : Bytes) : Nat := fieldAt d 2 2
/-- COUNT. -/
def mvCount (d : Bytes) : Nat := fieldAt d 4 4
/-- SRC. -/
def mvSrc (d : Bytes) : Nat := fieldAt d 8 8
/-- DST. -/
def mvDst (d : Bytes) : Nat := fieldAt d 0x10 8
/-- FIRST_TILE. -/
def mvFirst (d : Bytes) : Nat := fieldAt d 0x18 4
/-- STRIDE. -/
def mvStride (d : Bytes) : Nat := fieldAt d 0x1C 4
/-- ROWS. -/
def mvRows (d : Bytes) : Nat := fieldAt d 0x20 2
/-- COLS. -/
def mvCols (d : Bytes) : Nat := fieldAt d 0x22 2
/-- ESIZE. -/
def mvEsize (d : Bytes) : Nat := fieldAt d 0x24 1
/-- DST_STRIDE. -/
def mvDstStride (d : Bytes) : Nat := fieldAt d 0x28 4
/-- STATUS_ADDR. -/
def mvStatus (d : Bytes) : Nat := fieldAt d 0x30 8
/-- FILL_VALUE. -/
def mvFill (d : Bytes) : Nat := fieldAt d 0x38 8

/-- Who makes the accesses of a descriptor: the cluster's mover, under the partition's rights, or the keeper that posted it
(R32). -/
def MvJob.requester (j : MvJob) (g : Nat) : Requester := if j.keeper then .keeper else .mover (Fin.ofNat 128 g)

/-- Latch a failure in MV_ERR (R283, R303). -/
def Cluster.mvFail (c : Cluster) (st : Nat) : Cluster :=
  if c.mvFirst then { c with mvMultiple := true } else { c with mvFirst := true, mvSt := st }

/-- A descriptor ends (R283): its completion word is written, then its slot posted; `fail`: a code other than ST_OK is latched. A descriptor
that could not be read names no slot. -/
def State.mvEnd (s : State) (g : Nat) (j : MvJob) (st units skipped : Nat) (fail : Bool) : State :=
  let a := mvStatus j.desc
  let s := if a = 0 then s else
    (s.writeRange (j.requester g) false a (leBytes 8 (st + 2 ^ 16 * (skipped % 2 ^ 16) + 2 ^ 32 * (units % 2 ^ 32)))).2
  let s := s.modCl g fun c =>
    let c := { c with mvDone := (c.mvDone + 1) % 65536 }
    if fail && decide (st ≠ St.ok) then c.mvFail st else c
  if j.desc ≠ [] ∧ mvSlot j.desc < 4096 then s.postSlot g j.epoch (mvSlot j.desc) else s

/-- End each descriptor of a list with ST_STOPPED. -/
def mvStopAll (g : Nat) : List MvJob → State → State
  | [], s => s
  | j :: l, s => mvStopAll g l (s.mvEnd g j St.stopped 0 0 false)

/-- MV_CTRL FLUSH (R303): every queued, unstarted descriptor completes with ST_STOPPED; that is no failure of the descriptor, so
nothing is latched (log 24). -/
def State.mvFlush (s : State) (g : Nat) : State :=
  let l := (s.cluster g).movers.filter fun j => !j.started
  mvStopAll g l (s.modCl g fun c => { c with movers := c.movers.filter (·.started) })

end Sys2Proof.Machine
end

