-- ==== Sys2Proof/Machine/Task.lean ====
section
/-! DEFINITION. Partitions, run queues and tasks (R343-R360), steps and their re-runs (R349, R350, R431, R432), and the resets of
a cluster's units. -/

namespace Sys2Proof.Machine

/-! ## Units of a cluster -/

/-- A gang by its lowest MXU. -/
def Cluster.gangAt (c : Cluster) : Nat → Gang
  | 0 => c.g0
  | 1 => c.g1
  | 2 => c.g2
  | _ => c.g3

/-- Replace a gang. -/
def Cluster.setGang (c : Cluster) (m : Nat) (x : Gang) : Cluster :=
  match m with
  | 0 => { c with g0 := x }
  | 1 => { c with g1 := x }
  | 2 => { c with g2 := x }
  | _ => { c with g3 := x }

/-- Gangs of the gang mode (R186). -/
def Cluster.gangs (c : Cluster) : Nat := if c.gang = 0 then 4 else if c.gang = 1 then 2 else 1
/-- Lowest MXU of a gang (R186). -/
def Cluster.lead (c : Cluster) (u : Nat) : Nat := if c.gang = 0 then u else 2 * u
/-- MXUs of a gang. -/
def Cluster.members (c : Cluster) (u : Nat) : List Nat :=
  if c.gang = 0 then [u] else if c.gang = 1 then [2 * u, 2 * u + 1] else [0, 1, 2, 3]

/-- Is any MXU operation queued or in progress? -/
def Cluster.mxuBusy (c : Cluster) : Bool :=
  [0, 1, 2, 3].any fun m => !(c.gangAt m).queue.isEmpty || !(c.gangAt m).active.isEmpty

/-- Mover descriptors queued: those not started (R303). -/
def Cluster.mvQueued (c : Cluster) : Nat := (c.movers.filter (fun j => !j.started)).length
/-- Mover descriptors in progress. -/
def Cluster.mvActive (c : Cluster) : Nat := (c.movers.filter (fun j => j.started)).length

/-- Make the accumulators and row sums of an MXU undefined (R202, R204). -/
def Cluster.blur (c : Cluster) (m gen : Nat) : Cluster :=
  { c with
    acc := c.acc.filter (fun p => p.1 / 32768 ≠ m)
    rowSum := c.rowSum.filter (fun p => p.1 / 1024 ≠ m)
    accGen := Tab.set 0 c.accGen m gen }

/-- The value of an accumulator cell: MXU, row, column. -/
def Cluster.accAt (c : Cluster) (m row col : Nat) : Nat :=
  let k := (m * 1024 + row) * 32 + col
  match Tab.find c.acc k with
  | some v => v
  | none => if Tab.get 0 c.accGen m = 0 then 0 else Config.freeCell (Tab.get 0 c.accGen m) k % 2 ^ 32

/-- Set an accumulator cell. -/
def Cluster.setAcc (c : Cluster) (m row col v : Nat) : Cluster := { c with acc := Tab.put c.acc ((m * 1024 + row) * 32 + col) v }

/-- A row sum of an MXU. -/
def Cluster.sumAt (c : Cluster) (m row : Nat) : Nat :=
  match Tab.find c.rowSum (m * 1024 + row) with
  | some v => v
  | none => if Tab.get 0 c.accGen m = 0 then 0 else Config.freeCell (Tab.get 0 c.accGen m) (131072 + m * 1024 + row) % 2 ^ 32

/-- Set a row sum. -/
def Cluster.setSum (c : Cluster) (m row v : Nat) : Cluster := { c with rowSum := Tab.put c.rowSum (m * 1024 + row) v }

/-- R204: MXU_RESET. Queued operations are discarded with those in progress; accumulators and buffers are undefined; gang,
packing and timing return to 0. -/
def Cluster.mxuReset (c : Cluster) (gen : Nat) : Cluster :=
  let c := { c with g0 := {}, g1 := {}, g2 := {}, g3 := {}, gang := 0, pack := 0, gz4 := false }
  (((c.blur 0 gen).blur 1 (gen + 1)).blur 2 (gen + 2)).blur 3 (gen + 3)

/-- MXU_RESET of a cluster of the state. -/
def State.mxuReset (s : State) (g : Nat) : State :=
  let n := s.free + 1
  { (s.modCl g fun c => c.mxuReset n) with free := n + 4 }

/-- R204: a core in reset, at CL_ENTRY. -/
def Cluster.coreReset (c : Cluster) : Cluster :=
  { c with core := { pc := c.entry }, waiting := none, remote := none }

/-- R204: HALT and ENABLE stop the core at its boundary; a stalled instruction runs afresh (R203). -/
def Cluster.stop (c : Cluster) : Cluster := { c with halted := true, waiting := none, remote := none }

/-- R204: the core goes on, or starts from CL_ENTRY after its reset. -/
def Cluster.go (c : Cluster) : Cluster :=
  if c.enable && !c.halt then
    { c with halted := false
             core := if c.core.fresh then { c.core with pc := c.entry, fresh := false } else c.core }
  else c

/-- May the core execute an instruction now? -/
def Cluster.runs (c : Cluster) : Bool := c.enable && !c.halted && !c.clearing

/-! ## Partitions -/

/-- A partition. -/
def State.part? (s : State) (p : Nat) : Option Partition := Tab.find s.sched.parts p
/-- Change a partition. -/
def State.modPart (s : State) (p : Nat) (f : Partition → Partition) : State :=
  s.modSched fun sc => match Tab.find sc.parts p with
    | some x => { sc with parts := Tab.put sc.parts p (f x) }
    | none => sc

/-- Clusters lost or on a lost die (R433). -/
def State.clusterLost (s : State) (g : Nat) : Bool := s.faults.lost.contains (.cluster g) || s.dieLost (g / 64)
/-- Clusters in service of a mask, in order. -/
def State.clustersOf (s : State) (mask : Nat) : List Nat := (List.range 128).filter fun g => bit mask g && !s.clusterLost g

/-- A queue of a partition. -/
def Partition.queue (p : Partition) : Nat → RunQueue
  | 0 => p.q0
  | 1 => p.q1
  | 2 => p.q2
  | _ => p.q3
/-- Replace a queue. -/
def Partition.setQueue (p : Partition) (k : Nat) (q : RunQueue) : Partition :=
  match k with
  | 0 => { p with q0 := q }
  | 1 => { p with q1 := q }
  | 2 => { p with q2 := q }
  | _ => { p with q3 := q }

/-- Order within a queue (R346): absolute deadlines, then stamps, then tags; a saved task stays at the head (R347). -/
def Task.before (a b : Task) : Bool :=
  if a.isSaved then true else if b.isSaved then false else
  match a.deadline, b.deadline with
  | some x, some y => decide (x < y) || (x == y && decide (a.tag < b.tag))
  | some _, none => true
  | none, some _ => false
  | none, none => decide (a.stamp < b.stamp) || (a.stamp == b.stamp && decide (a.tag < b.tag))

/-- Put a task into its place. -/
def insertTask (t : Task) : List Task → List Task
  | [] => [t]
  | x :: l => if t.before x then t :: x :: l else x :: insertTask t l

/-- Does the queue hold a task, the running one included? -/
def Partition.nonEmpty (p : Partition) (k : Nat) : Bool :=
  !(p.queue k).tasks.isEmpty || (p.run.isSome && p.runQueue == k)

/-- Virtual time with which a queue becomes non-empty (R347). -/
def Partition.joinV (p : Partition) (k : Nat) : Rat :=
  let q := p.queue k
  let vs := ([0, 1, 2, 3].filter fun j => j ≠ k && p.nonEmpty j && (p.queue j).priority == q.priority).map fun j => (p.queue j).v
  match vs with
  | [] => q.v
  | x :: l => max q.v (l.foldl min x)

/-- A task joins the queue of its kind (R346, R347). -/
def Partition.add (p : Partition) (t : Task) : Partition :=
  let k := p.kindQueue.getD t.kind 0
  let v := if p.nonEmpty k then (p.queue k).v else p.joinV k
  p.setQueue k { p.queue k with v := v, tasks := insertTask t (p.queue k).tasks }

/-- Does queue `a` come before queue `b`? (R347) -/
def Partition.better (p : Partition) (a b : Nat) : Bool :=
  let x := p.queue a
  let y := p.queue b
  decide (x.priority < y.priority) || (x.priority == y.priority && (decide (x.v < y.v) || (decide (x.v = y.v) && decide (a < b))))

/-- The queue that R347 chooses among those that satisfy a condition. -/
def Partition.chooseAmong (p : Partition) (l : List Nat) : Option Nat :=
  l.foldl (fun a k => match a with
    | none => some k
    | some j => if p.better k j then some k else some j) none

/-- The chosen queue of those that hold a task, the running one included. -/
def Partition.choose (p : Partition) : Option Nat := p.chooseAmong ([0, 1, 2, 3].filter p.nonEmpty)

/-- Account for the running task's time since it last started: RUN_US and v of its queue (R347, R360). -/
def Partition.charge (p : Partition) (now : Nat) : Partition :=
  if p.run.isNone then p else
  let us := now - p.runSince
  let q := p.queue p.runQueue
  let p := p.setQueue p.runQueue { q with v := q.v + ((us : Nat) : Rat) / ((max q.weight 1 : Nat) : Rat) }
  { p with runSince := now, runUs := Tab.mod 0 p.runUs p.runQueue (satAdd (2 ^ 64 - 1) · us) }

/-! ## Steps -/

/-- Do something for each cluster of a list. -/
def forClusters (f : Nat → State → State) : List Nat → State → State
  | [], s => s
  | g :: l, s => forClusters f l (f g s)

/-- The attempt's number on every cluster of a partition is a new one (R267). -/
def State.newEpoch (s : State) (gs : List Nat) : State :=
  let n := s.sched.nextEpoch
  (forClusters (fun g s => s.modCl g fun c => { c with epoch := n }) gs s).modSched fun sc => { sc with nextEpoch := n + 1 }

/-- An attempt of a step has completed: CV_LAST takes what each cluster counted in it (R234). -/
def State.latchSat (s : State) (gs : List Nat) : State :=
  forClusters (fun g s => s.modCl g fun c => { c with cvLast := min (2 ^ 32 - 1) c.satNow, satNow := 0 }) gs s

/-- Take the step snapshot (R220, R349): the cores and the flag stores, and the memory in which static scale records are read; the
saturation counts become 0. -/
def State.snapshot (s : State) (p : Nat) (gs : List Nat) : State :=
  let s := forClusters (fun g s =>
    let c := s.cluster g
    (s.modSched fun sc => { sc with snaps := Tab.set {} sc.snaps g { core := c.core, slots := c.slots } }).modCl g
      fun c => { c with satNow := 0 }) gs s
  s.modPart p fun x => { x with run := x.run.map fun t =>
    { t with stepNo := t.stepNo + 1, faults := 0, last := [], now := [], crimson := false, arrived := [], endedBefore := t.ended
             emitted := [], sat := [], widened := [], startMem := s.mem, startUndef := s.undef } }

/-- The memory that the step of cluster `g`'s task found at its start (R220). -/
def State.atStart (s : State) (g : Nat) : State :=
  match s.taskOf g with
  | some t => { s with mem := t.startMem, undef := t.startUndef }
  | none => s

/-- Registers with which a core starts a task (R353), in user mode. -/
def startCore (t : Task) (index count : Nat) : Core :=
  let x := [(10, t.argAddr), (11, t.argLen), (12, t.resAddr), (13, t.resRoom), (14, t.tag),
    (15, match t.session with
      | some i => i
      | none => 2 ^ 64 - 1), (16, index), (17, count)]
  { pc := t.entry, x := x.foldl (fun r p => Tab.set 0 r p.1 p.2) [], mode := .user, prev := .machine, fresh := false }

/-- Start the cores of a task's clusters at ENTRY (R353). -/
def startCores (t : Task) (count : Nat) : Nat → List Nat → State → State
  | _, [], s => s
  | i, g :: l, s =>
    startCores t count (i + 1) l (s.modCl g fun c =>
      { c with core := startCore t i count, enable := true, halt := false, halted := false, waiting := none, remote := none
               async := none, faultFirst := false, faultMultiple := false, faultSt := 0, mvFirst := false, mvMultiple := false, mvSt := 0 })

/-- Restore the saved clusters of a task (R355, R357). -/
def restoreCluster (g : Nat) (v : Save) (s : State) : State :=
  let c := s.cluster g
  let base := spAddr g 0
  -- what stays with the cluster and is not part of a task's state: banks, marks, counters and registers of the keeper
  let d := { c with
    core := v.cl.core, gang := v.cl.gang, pack := v.cl.pack, gz4 := v.cl.gz4, g0 := v.cl.g0, g1 := v.cl.g1, g2 := v.cl.g2
    g3 := v.cl.g3, acc := v.cl.acc, rowSum := v.cl.rowSum, accGen := v.cl.accGen, slots := v.cl.slots, movers := v.cl.movers
    clean := v.cl.clean, epoch := v.cl.epoch, async := v.cl.async, faultFirst := v.cl.faultFirst
    faultMultiple := v.cl.faultMultiple, faultSt := v.cl.faultSt, mvFirst := v.cl.mvFirst, mvMultiple := v.cl.mvMultiple
    mvSt := v.cl.mvSt, satNow := v.cl.satNow, enable := true, halt := false, halted := false, waiting := none, remote := none }
  let s := (s.modCl g fun _ => d).modSched fun sc => { sc with snaps := Tab.set {} sc.snaps g v.snap }
  -- the working set: addresses are kept relative to the window
  let s := v.regions.foldl (fun s a => s.clearMem (base + a) (base + a + 65536)) s
  let s := v.mem.foldl (fun s p => s.writeMem (base + p.1) [p.2]) s
  let s := v.und.foldl (fun s u => s.undefine (base + u.1) (base + u.2.1) u.2.2) s
  v.poison.foldl (fun s p => s.poisonWord (base + p.1 * 8)) s

/-- A step has been run, again or for the first time: STEPS of the result header counts it (R77). -/
def State.stepRun (s : State) (tag : Nat) : State := s.modResult tag fun r => { r with steps := satAdd (2 ^ 64 - 1) r.steps 1 }

/-- Restart the step of a partition (R350, R431): registers and flags from the snapshot, MXU_RESET and mover FLUSH on every
cluster; what the attempt held uncommitted is discarded. `widen`: the stages that run widened. -/
def State.rerunStep (s : State) (p : Nat) (widen : List StageKey) (fault : Bool) : State :=
  match s.part? p with
  | some x =>
    let gs := s.clustersOf x.mask
    let s := forClusters (fun g s =>
      let v := Tab.get {} s.sched.snaps g
      ((s.mxuReset g).mvFlush g).modCl g fun c =>
        { c with core := v.core, slots := v.slots, waiting := none, remote := none
                 async := none, faultFirst := false, faultMultiple := false, faultSt := 0
                 mvFirst := false, mvMultiple := false, mvSt := 0
                 halt := x.switch.isSome, halted := x.switch.isSome
                 satNow := 0
                 cvWidened := if fault then c.cvWidened else satAdd 65535 c.cvWidened 1 }) gs s
    let s := s.newEpoch gs
    s.modPart p fun x => { x with
      reruns := satAdd (2 ^ 64 - 1) x.reruns 1
      run := x.run.map fun t =>
        { t with faults := t.faults + b2n fault, last := t.now, now := [], crimson := false, rerunDue := false
                 arrived := [], ended := t.endedBefore, emitted := [], sat := [], widened := widen, startMem := s.mem
                 startUndef := s.undef } }
  | none => s

/-! ## Ends of tasks and dispatch -/

/-- Hold the cores of clusters. -/
def State.holdCores (s : State) (gs : List Nat) : State :=
  forClusters (fun g s => s.modCl g fun c => { c.stop with halt := true }) gs s

/-- Microseconds of a switch that moves `n` bytes on `k` clusters, without the fixed 20 (R358): 3.2 TB/s at most. -/
def moveUs (n k : Nat) : Nat := n / max 1 (min 3200000 (102400 * k))

/-- Start a task on a partition's clusters: restored from its save, or at ENTRY; a start counts as a mark (R349, R355). -/
def State.startTask (s : State) (p : Nat) (k : Nat) (t : Task) : State :=
  match s.part? p with
  | some x =>
    let gs := s.clustersOf x.mask
    let t' : Task := { t with started := true, saved := [], isSaved := false }
    let s := s.modPart p fun x => { x with runQueue := k, runSince := s.hdCount, quantumFrom := s.hdCount, begun := true, run := some t' }
    if t.isSaved then
      let s := t.saved.foldl (fun s q => restoreCluster q.1 q.2 s) s
      let s := s.modPart p fun x => { x with
        switchUs := satAdd (2 ^ 64 - 1) x.switchUs (20 + moveUs (x.savedOut.getD 0 + t.saveSize) gs.length), savedOut := none
        switchBytes := satAdd (2 ^ 64 - 1) x.switchBytes (x.savedOut.getD 0 + t.saveSize) }
      -- a step that met a fault is re-run (R359): counted now, unless it already waits for a reload
      let again := decide (t.now ≠ []) || (t.saved.any fun q => q.2.rerun)
        || (t.saveAreas.zip t.saved).any fun x => (s.firstBad x.1 (606208 + 65536 * x.2.2.regions.length)).isSome
      if again && !t.rerunDue then
        (s.stepRun t.tag).modPart p fun x => { x with run := x.run.map fun t => { t with rerunDue := true } }
      else s
    else
      let s := s.newEpoch gs
      let s := startCores t gs.length 0 gs s
      s.snapshot p gs
  | none => s

/-- The running task of a partition ends with a code: its cores are halted, what its last step held uncommitted is discarded, and its
command completes (R353, R354, R431). -/
def State.closeTask (s : State) (p code : Nat) : State :=
  match s.part? p with
  | some x =>
    match x.run with
    | some t =>
      let gs := s.clustersOf x.mask
      let s := s.holdCores gs
      let s := s.newEpoch gs
      let s := s.modPart p fun x => { x.charge s.hdCount with run := none, switch := none
                                                              tasksDone := satAdd (2 ^ 64 - 1) x.tasksDone 1 }
      (t.saveAreas.foldl State.release s).commandEnd t.tag code
    | none => s
  | none => s

/-- Do regions of the partition's clusters still wait for a reload? The step is re-run only after them (R270). -/
def State.reloading (s : State) (gs : List Nat) : Bool := gs.any fun g => !(s.cluster g).reloads.isEmpty

/-- Has the step been re-run as often as it may be? (R432) -/
def Task.spent (t : Task) : Bool := t.crimson || decide (3 ≤ t.faults) || t.now.any (t.last.contains ·)

/-- The program object of a model command: that of the model in force; of a shade, the version installed at admission (R321, R325). -/
def State.programOf (s : State) (g : Gen) : Obj :=
  (if g.shade then g.shadeProg else none).getD ((s.object 0 (fieldAt g.man 8 2)).getD {})

/-- What a task holds of its program: ENTRY and WS_MASK, with the code at `code`. -/
def Task.runs (t : Task) (o : Obj) : Task :=
  { t with program := o.id, entry := t.code + fieldAt o.data 4 4, wsMask := fieldAt o.data 0x10 48
           grants := t.grants ++ [(t.code, o.data.length - 64)] }

/-- The task of a command whose model is now its shade (R321): where the shade's program or partition differs, the command goes on as a
task that starts the shade's program on the shade's partition (DESIGN CHOICE, log 96). None: the task goes on as it is. -/
def State.shadeTask (s : State) (p : Nat) (t : Task) : Option (Nat × State × Task) :=
  match Tab.find s.tokens.gens t.tag with
  | some g =>
    let q := fieldAt g.man 0x34 1
    let o := s.programOf g
    if !g.shade || (q == p && o.id == t.program) || (s.part? q).isNone then none
    else some (q, s.writeMem t.code (o.data.drop 64),
      { (t.runs o) with started := false, faults := 0, last := [], now := [], crimson := false, doom := none, rerunDue := false
                        arrived := [], ended := [], endedBefore := [], emitted := [], sat := [], widened := [], startMem := []
                        startUndef := [], saved := [], isSaved := false, saveAreas := [], saveSize := 0 })
  | none => none

/-- A task joins a queue of a partition (R346). -/
def State.enqueue (s : State) (p : Nat) (t : Task) : State := s.modPart p fun x => (x.charge s.hdCount).add t

/-- The arrival of a task in a queue of higher priority with PREEMPT set pre-empts the running task (R347, R355). -/
def State.preemptFor (s : State) (p k : Nat) : State :=
  match s.part? p with
  | some x =>
    if x.run.isSome && x.switch.isNone && (x.queue k).preempt && decide ((x.queue k).priority < (x.queue x.runQueue).priority) then
      (s.modPart p fun x => { x with switch := some ⟨s.hdCount⟩ }).holdCores (s.clustersOf x.mask)
    else s
  | none => s

/-- Is the partition ready to run a task? Its clusters are cleared and no switch is in progress (R345, R355). -/
def Partition.idle (p : Partition) : Bool := p.run.isNone && p.toClear == 0 && p.switch.isNone

/-- Dispatch: run the head task of the chosen queue (R347). A task whose command is to stop ends without being started or
restored (R67, R359). The monitor repeats its admission check when a task is first dispatched (R348). -/
def State.dispatch (s : State) (p : Nat) : Nat → State
  | 0 => s
  | n + 1 =>
    match s.part? p with
    | some x =>
      if !x.idle then s else
      match x.choose with
      | some k =>
        match (x.queue k).tasks with
        | t :: l =>
          let s := s.modPart p fun x => x.setQueue k { x.queue k with tasks := l }
          if s.stopping t.tag then ((t.saveAreas.foldl State.release s).commandEnd t.tag St.stopped).dispatch p n
          else
            let s := if t.started then s else s.monitor t.tag true true
            match if t.started then none else s.shadeTask p t with
            | some (q, s, t) => (((s.enqueue q t).dispatch q n).preemptFor q (x.kindQueue.getD t.kind 0)).dispatch p n
            | none =>
              let s := s.startTask p k t
              let gs := s.clustersOf x.mask
              match (s.part? p).bind (·.run) with
              | some t =>
                -- a restored step that is due to be re-run waits for the reloads of its clusters (R270, R359)
                if !t.rerunDue then s
                else if s.reloading gs then s.holdCores gs
                else if t.spent then (s.closeTask p St.stepFailed).dispatch p n
                else s.rerunStep p t.widened true
              | none => s
        | [] => s
      | none => s
    | none => s

/-- Number of tasks that wait at a partition. -/
def Partition.waitingTasks (p : Partition) : Nat :=
  p.q0.tasks.length + p.q1.tasks.length + p.q2.tasks.length + p.q3.tasks.length

/-- A dispatch point (R347). Tasks are dispatched in Ivory only (R447). -/
def State.dispatchPoint (s : State) (p : Nat) : State :=
  match s.part? p with
  | some x => if s.power.ladder = 0 then s.dispatch p (x.waitingTasks + 1) else s
  | none => s

/-- The running task of a partition ends with a code, and the next one is dispatched (R347). -/
def State.endTask (s : State) (p code : Nat) : State := (s.closeTask p code).dispatchPoint p

/-- The steward monitor ends the step of a cluster's partition with a code; the step is not re-run (R201, R264, R273, R423). -/
def State.stepEnds (s : State) (g code : Nat) : State :=
  match s.sched.partOf g with
  | some (p, _) => s.endTask p code
  | none => s

/-- An attempt has met a Vermilion fault: the step is re-run, or ends with ST_STEP_FAILED (R432). -/
def State.faultedStep (s : State) (p : Nat) : State :=
  match s.part? p with
  | some x =>
    match x.run with
    | some t =>
      if t.spent then s.endTask p St.stepFailed
      else s.rerunStep p t.widened true
    | none => s
  | none => s

/-- An attempt of cluster `g`'s partition has met a Vermilion fault that its monitor acts on at once (R423, R202): the step is
re-run as soon as no region waits for a reload. -/
def State.faultNow (s : State) (g : Nat) : State :=
  match s.sched.partOf g with
  | some (p, x) =>
    match x.run with
    | none => s
    | some t =>
      let s := if t.rerunDue then s else s.stepRun t.tag
      if s.reloading (s.clustersOf x.mask) then
        (s.modTask g fun t => { t with rerunDue := true }).holdCores (s.clustersOf x.mask)
      else s.faultedStep p
  | none => s

/-- Give a task to a partition; the arrival is a dispatch point (R346, R347). -/
def State.addTask (s : State) (p : Nat) (t : Task) : State :=
  match s.part? p with
  | some x => ((s.enqueue p t).dispatchPoint p).preemptFor p (x.kindQueue.getD t.kind 0)
  | none => s

/-- After a check of the monitor behind a committed step (R321): where the command goes on with its shade's program or partition, its task
leaves this one. -/
def State.afterSwitch (s : State) (p : Nat) (t : Task) : State :=
  match s.shadeTask p t with
  | some (q, s, t') =>
    let gs := match s.part? p with
      | some x => s.clustersOf x.mask
      | none => []
    let s := (s.holdCores gs).newEpoch gs
    let s := t.saveAreas.foldl State.release (s.modPart p fun x => { x.charge s.hdCount with run := none, switch := none })
    (s.addTask q t').dispatchPoint p
  | none => s

end Sys2Proof.Machine
end

