-- ==== Sys2Proof/Machine/Scratchpad.lean ====
section
/-! DEFINITION. Commands of the scratchpads (spec/11) and of the cluster control registers (spec/08 R204, spec/09 R234). -/

namespace Sys2Proof.Machine

/-! ## Cluster control (R204, R234) -/

/-- CL_MXU_RESET (R204). -/
def execClMxuReset (g : Fin 128) (s : State) : Out := .next (s.mxuReset g)

/-- CL_CORE_RESET (R204): ignored while ENABLE is 1 and HALTED is 0. -/
def execClCoreReset (g : Fin 128) (s : State) : Out :=
  .next (s.modCl g fun c => if c.enable && !c.halted then c else c.coreReset)

/-- CL_HALT (R203, R204): 1 stops the core at its next boundary; 0 lets it continue. -/
def execClHalt (g : Fin 128) (on : Bool) (s : State) : Out :=
  .next (s.modCl g fun c => if on then { c.stop with halt := true } else { c with halt := false }.go)

/-- CL_ENABLE (R204): 1 lets the core run; 0 halts it as HALT does and holds it. A cluster that is lost or in no partition is
held with ENABLE 0 (R343, R433). -/
def execClEnable (g : Fin 128) (on : Bool) (s : State) : Out :=
  .next (
    if on then
      if s.clusterLost g || (s.sched.partOf g).isNone then s else s.modCl g fun c => { c with enable := true }.go
    else s.modCl g fun c => { c.stop with enable := false })

/-- CV_CLR (R234). -/
def execCvClr (g : Fin 128) (s : State) : Out :=
  .next (s.modCl g fun c => { c with cvSat := 0, cvNonfinite := 0, cvWidened := 0, cvLast := 0 })

/-! ## Arbitration (R257) -/

/-- NARROW_GUARANTEE (R257): a narrow request has waited 15 cycles at a bank and takes the 16th. Shorter waits have no command: a read of
SP_NARROW_WAIT adds a free number of their cycles (log 35). -/
def execNarrowGuarantee (g : Fin 128) (s : State) : Out :=
  .next (s.modCl g fun c => { c with narrowWait := satAdd (2 ^ 64 - 1) c.narrowWait 15 })

/-! ## Tenant clear, slot reset, counters (R262, R276) -/

/-- TENANT_CLEAR (R262): ignored unless the core is halted and no MXU or mover operation is queued or in progress. -/
def execTenantClear (g : Fin 128) (s : State) : Out :=
  .next (s.modCl g fun c => if c.halted && !c.mxuBusy && c.mvQueued == 0 then { c with clearing := true } else c)

/-- The end of a clear: every bank that is not retired is ON and zero, no RESIDENT mark, every flag EMPTY with count 0, every
granule dirty. -/
def Cluster.cleared (c : Cluster) : Cluster :=
  { c with
    clearing := false, banks := c.banks.filter (fun p => p.2 = .retired), resident := [], copies := [], reloads := []
    slots := [], clean := [], pwrBusy := false }

/-- TENANT_CLEAR_DONE (R262). A partition whose last cluster is cleared may run its first task (R345). -/
def execTenantClearDone (g : Fin 128) (s : State) : Out :=
  .next (
    if (s.cluster g).clearing then
      let s := s.modCl g Cluster.cleared
      let s := s.clearMem (spAddr g 0) (spAddr g 0 + spEnd)
      match s.sched.partOf g with
      | some (p, x) =>
        (s.modPart p fun x => { x with toClear := if bit x.toClear g then x.toClear - 2 ^ g.val else x.toClear }).dispatchPoint p
      | none => s
    else s)

/-- SP_CLR_COUNTS (R276). -/
def execSpClrCounts (g : Fin 128) (s : State) : Out :=
  .next (s.modCl g fun c => { c with underruns := 0, overruns := 0, postedFull := 0, narrowWait := 0, dropped := 0, parErrors := 0 })

/-- SLOT_RESET (R267): ignored unless the core is halted. -/
def execSlotReset (g : Fin 128) (s : State) : Out :=
  .next (s.modCl g fun c => if c.halted then { c with slots := [] } else c)

/-- SLOT_WAIT_LIMIT_WRITE (R276): a value below 1,024 stores 1,024. -/
def execSlotWaitLimitWrite (g : Fin 128) (v : Nat) (s : State) : Out :=
  .next (s.modCl g fun c => { c with slotLimit := max 1024 v })

/-- SLOT_WINDOW_WRITE (R276): ignored unless the core is halted. -/
def execSlotWindowWrite (g : Fin 128) (i : Fin 4096) (v : Nat) (s : State) : Out :=
  .next (s.modCl g fun c => if c.halted then c.setSlot i (bit v 8) (v % 256) else c)

/-! ## Bank power (R272-R275) -/

/-- Does a bank hold a RESIDENT region? -/
def Cluster.bankResident (c : Cluster) (b : Nat) : Bool := decide (Tab.get 0 c.resident b ≠ 0)

/-- The fields of SP_BANK_PWR are written; the request starts unless one is running or a clear runs (R275, R276). -/
def bankRequest (b : Nat) (up force : Bool) (f : Cluster → Cluster) (c : Cluster) : Cluster :=
  let c' := { c with pwrBank := b, pwrUp := up, pwrForce := force }
  if c.pwrBusy || c.clearing then c' else if 24 ≤ b then { c' with pwrSt := St.idRange } else f c'

/-- A power-down of a bank that is ON starts; one that holds a RESIDENT region fails at once (R272). A bank that is OFF already
is left; a retired one is not changed. -/
def bankDown (b : Nat) (to_ : BankState) (now : Nat) (c : Cluster) : Cluster :=
  if c.bankResident b then { c with pwrSt := St.busy }
  else match c.bank b with
    | .on => { c.setBank b to_ with pwrBusy := true, pwrSince := now }
    | .off => { c with pwrSt := St.ok }
    | _ => { c with pwrSt := St.busy }

/-- Banks are powered down only in Ivory and Pearl (R272). -/
def State.bankTime (s : State) : Bool := decide (s.power.ladder ≤ 1)

/-- BANK_POWER_DOWN (R272). -/
def execBankPowerDown (g : Fin 128) (b : Fin 32) (s : State) : Out :=
  .next (s.modCl g (bankRequest b false false fun c =>
    if s.bankTime then bankDown b .downWait (s.count (dieOfCluster g)) c else { c with pwrSt := St.busy }))

/-- BANK_POWER_DOWN_FORCE (R273). -/
def execBankPowerDownForce (g : Fin 128) (b : Fin 32) (s : State) : Out :=
  .next (s.modCl g (bankRequest b false true fun c =>
    if s.bankTime then bankDown b .downForce (s.count (dieOfCluster g)) c else { c with pwrSt := St.busy }))

/-- The bank whose request is in progress in a state; SP_BANK_PWR may have been written since (R275, R276). -/
def Cluster.bankIn (c : Cluster) (w : BankState) : Option Nat := (c.banks.find? fun p => p.2 == w).map (·.1)

/-- A power request of a bank ends with a code. -/
def Cluster.bankEnds (c : Cluster) (b : Nat) (v : BankState) (st : Nat) : Cluster :=
  { c.setBank b v with pwrBusy := false, pwrSt := st }

/-- BANK_POWER_TIMEOUT (R272): the request fails and the bank returns to ON with its contents. -/
def execBankPowerTimeout (g : Fin 128) (s : State) : Out :=
  let c := s.cluster g
  .next (match c.bankIn .downWait with
    | some b =>
      if c.pwrSince + 10 ≤ s.count (dieOfCluster g) then s.modCl g fun c => c.bankEnds b .on St.busy else s
    | none => s)

/-- BANK_FORCE_OFF (R273): `n` accepted writes are dropped. -/
def execBankForceOff (g : Fin 128) (n : Nat) (s : State) : Out :=
  .next (match (s.cluster g).bankIn .downForce with
    | some b => s.modCl g fun c => { c.bankEnds b .off St.ok with dropped := satAdd (2 ^ 32 - 1) c.dropped n }
    | none => s)

/-- BANK_POWER_UP (R274). A retired bank cannot be powered up (R271). -/
def execBankPowerUp (g : Fin 128) (b : Fin 32) (force : Bool) (s : State) : Out :=
  .next (s.modCl g (bankRequest b true force fun c =>
    match c.bank b with
    | .off => { c.setBank b .upping with pwrBusy := true, pwrSince := s.count (dieOfCluster g) }
    | .on => { c with pwrSt := St.ok }
    | _ => { c with pwrSt := St.busy }))

/-- BANK_POWER_UP_DONE (R274, R284): contents and parity are undefined, every granule is dirty. -/
def execBankPowerUpDone (g : Fin 128) (s : State) : Out :=
  .next (match (s.cluster g).bankIn .upping with
    | some b =>
      (s.modCl g fun c => (c.bankEnds b .on St.ok).dirty (b * 2 ^ 20) (2 ^ 20)).undefine
        (spAddr g (b * 2 ^ 20)) (spAddr g ((b + 1) * 2 ^ 20)) true
    | none => s)

/-- Retire a bank that is OFF; a retired one is left (R271, R275, R437). The ST code, and the state with the retired list. -/
def State.retireBank (s : State) (g b : Nat) : Nat × State :=
  if 24 ≤ b then (St.idRange, s)
  else match (s.cluster g).bank b with
    | .off =>
      (St.ok, (s.modCl g fun c => c.setBank b .retired).modFaults fun f => { f with lost := f.lost ++ [.bank g b] })
    | .retired => (St.ok, s)
    | _ => (St.busy, s)

/-- BANK_RETIRE (R271, R276). -/
def execBankRetire (g : Fin 128) (b : Fin 32) (s : State) : Out :=
  let (st, s) := s.retireBank g b
  .next (s.modCl g fun c => { c with retireBank := b, pwrSt := st })

/-! ## RESIDENT regions (R261, R270) -/

/-- What the keeper records for the regions of a bank as it marks them: the addresses of their copies, by region (R261). -/
def recordCopies (b v : Nat) (copies : List Nat) (t : Tab Nat) : Tab Nat :=
  (List.range 16).foldl (fun t j =>
    if bit v j then (if j < copies.length then Tab.put t (b * 16 + j) (copies.getD j 0) else t) else Tab.del t (b * 16 + j)) t

/-- SP_RESIDENT_WRITE (R261, R276): ignored while the bank is not ON. `copies`: the addresses of the copies that keeper firmware records
with its marks; bit 63 of one says that the copy lies on flash (log 62). A region that is no longer RESIDENT waits for no reload. -/
def execSpResidentWrite (g : Fin 128) (b : Fin 24) (m : ResidentMark) (s : State) : Out :=
  .next (s.modCl g fun c =>
    if c.bank b = .on then
      { c with
        resident := Tab.set 0 c.resident b (m.regions % 65536)
        copies := recordCopies b m.regions m.copies c.copies
        reloads := c.reloads.filter fun k => k / 16 ≠ b.val || bit m.regions (k % 16) }
    else c)

/-! ## Slot messages and their limits (R263, R264) -/

/-- REMOTE_SLOT_ARRIVAL (R263): a slot.give or slot.clear acts at its destination; a give waits there for EMPTY. The outcome
returns to the issuing core. -/
def execRemoteSlotArrival (g : Fin 128) (s : State) : Out :=
  .next (match (s.cluster g).remote with
    | some m =>
      let done (s : State) : State := s.modCl g fun c =>
        { c with remote := none, waiting := none, core := { c.core with pc := c.core.pc + 4, instret := c.core.instret + 1 } }
      match m.give with
      | some n =>
        if (s.cluster m.dest).slotFull m.slot then s.modCl g fun c => { c with waiting := some (.slotGive m.dest m.slot) }
        else done (s.modCl m.dest fun c => c.setSlot m.slot true n)
      | none => done (s.modCl m.dest fun c => c.setSlot m.slot false 0)
    | none => s)

/-- Count a checked access that reached its limit, at the cluster that holds the flag (R276). -/
def Cluster.slotLimitHit (read : Bool) (c : Cluster) : Cluster :=
  if read then { c with underruns := satAdd 65535 c.underruns 1 } else { c with overruns := satAdd 65535 c.overruns 1 }

/-- Raise an exception in a core (R193, R201): the saved pc, the cause and value, machine mode, and the monitor's entry: the
address in mtvec where the monitor has set one, else CL_ENTRY. -/
def Cluster.trap (cause val : Nat) (st : Option Nat) (c : Cluster) : Cluster :=
  let k := c.core
  let tvec := Tab.get 0 k.csr 0x305
  { c with
    waiting := none
    core := { k with
      mepc := k.pc, mcause := cause, mtval := val, prev := k.mode, mode := .machine
      xlzst := (match st with
        | some n => n
        | none => k.xlzst)
      pc := if tvec = 0 then c.entry else tvec / 4 * 4 } }

/-- Raise XLZ_OPERAND with an ST code; its mtval is not stated (log 8). The monitor ends the step with the code (R201). -/
def State.xlzOperand (s : State) (g st : Nat) : State :=
  ((s.modCl g fun c => c.trap 24 s.freeNum (some st)).used).stepEnds g st

/-- SLOT_WAIT_TIMEOUT (R264): a checked access of a core, or the SEND of a gang's chain, has passed SLOT_WAIT_LIMIT. -/
def execSlotWaitTimeout (g : Fin 128) (send : Option (Fin 4)) (s : State) : Out :=
  let c := s.cluster g
  .next (match send with
    | none =>
      match c.waiting with
      | some (.slotRead i) =>
        if c.slotFull i then s else (s.modCl g (Cluster.slotLimitHit true)).xlzOperand g St.slotUnderrun
      | some (.slotGive d i) =>
        if (s.cluster d).slotFull i then
          ((s.modCl d (Cluster.slotLimitHit false)).modCl g fun c => { c with remote := none }).xlzOperand g St.slotOverrun
        else s
      | _ => s
    | some m =>
      match (c.gangAt (c.lead m)).active with
      | ⟨.chain k, _, _⟩ :: _ =>
        match k.parts with
        | .send b :: _ =>
          if b.span.isNone && (s.cluster b.cluster).slotFull b.slot then
            (s.modCl b.cluster (Cluster.slotLimitHit false)).stepEnds g St.slotOverrun
          else s
        | _ => s
      | _ => s)

end Sys2Proof.Machine
end

