-- ==== Sys2Proof/Machine/Mxu.lean ====
section
/-! DEFINITION. The matrix units: tile layouts, group sums, loads, streams and drains (spec/08 R180-R192, spec/09
R223-R226), and their faults (R202). -/

namespace Sys2Proof.Machine

/-! ## Formats and layouts (R183, R192, R224) -/

/-- Rate class B: 64 K positions. -/
def isClassB (w : Nat) : Bool := w == 7 || w == 8 || w == 11
/-- K positions of one MXU. -/
def kOf (w : Nat) : Nat := if isClassB w then 64 else 32
/-- Width of a stored weight. -/
def weightBits (w lut : Nat) : Nat := if w = 11 then lut else elemBits w
/-- Element bytes of a SPLIT tile. -/
def tileElemBytes (w lut : Nat) : Nat := kOf w * 32 * weightBits w lut / 8
/-- Bytes of a SPLIT tile with its scale or codebook line (R192, R224). -/
def splitBytes (w lut : Nat) : Nat := tileElemBytes w lut + (if isMx w || w == 11 then 64 else 0)
/-- SPLIT tiles in a gang tile (R192). -/
def subTiles (gang : Nat) : Nat := if gang = 0 then 1 else if gang = 1 then 2 else 4
/-- N of a gang (R186). -/
def gangN (gang : Nat) : Nat := if gang = 0 then 32 else 64
/-- K of a gang for a weight format (R186). -/
def gangK (gang w : Nat) : Nat := if gang = 2 then 2 * kOf w else kOf w

/-- Does R183 pair the activation format with the weight format? -/
def pairs (w a : Nat) : Bool :=
  match w with
  | 0 => decide (a ≤ 1)
  | 1 => decide (a ≤ 1)
  | 2 => a == 2
  | 3 => a == 3 || a == 4
  | 4 => a == 3 || a == 4
  | 5 => decide (3 ≤ a ∧ a ≤ 6)
  | 6 => decide (3 ≤ a ∧ a ≤ 6)
  | 7 => a == 3 || a == 4 || a == 7
  | 8 => a == 2 || a == 8
  | 9 => a == 9
  | 10 => a == 10
  | 11 => a == 0 || a == 2
  | _ => false

/-- Do the products of a pairing accumulate as integers? (R182) -/
def intPair (w a : Nat) : Bool := (w == 2 || w == 8) && (a == 2 || a == 8)

/-- Elements of an activation row (R184, R187). -/
def rowElems (gang pack w : Nat) : Nat := if pack = 1 then 64 else if pack = 2 then 128 else gangK gang w
/-- Bytes of an activation row (R184). -/
def rowBytes (gang pack w a : Nat) : Nat := rowElems gang pack w * elemBits a / 8
/-- Scale bytes of an activation row (R192). -/
def rowScales (gang w a : Nat) : Nat := if isMx a then gangK gang w / 32 else 0

/-- Bytes of sub-tile `i` of a loaded tile. -/
def Tile.sub (t : Tile) (i : Nat) : Bytes :=
  (t.data.drop (i * splitBytes t.fmt t.lutBits)).take (splitBytes t.fmt t.lutBits)

/-- Sub-tile of a gang position (R192). -/
def subIndex (gang w k n : Nat) : Nat := if gang = 2 then k / kOf w * 2 + n / 32 else n / 32

/-- The weight at K position `k` of column `n` of the gang. -/
def Tile.weight (t : Tile) (gang k n : Nat) : Fv :=
  let d := t.sub (subIndex gang t.fmt k n)
  let i := n % 32 * kOf t.fmt + k % kOf t.fmt
  if t.fmt = 11 then Fmt.fp16.decode (fieldAt d (256 * t.lutBits + 2 * bitsAt d (i * t.lutBits) t.lutBits) 2)
  else elemValue t.fmt (bitsAt d (i * elemBits t.fmt) (elemBits t.fmt))

/-- The weight scale of a 32-element block of column `n`; 1 where the format has none. -/
def Tile.scale (t : Tile) (gang blk n : Nat) : Fv :=
  if isMx t.fmt then
    let k := blk * 32
    e8m0 (fieldAt (t.sub (subIndex gang t.fmt k n)) (tileElemBytes t.fmt 0 + 32 * (k % kOf t.fmt / 32) + n % 32) 1)
  else .fin false 1 0

/-- The 32 × 32 column read of one sub-tile of `e`-byte elements (R259): for each column, its 32 elements. -/
def columnRead (e : Nat) (d : Bytes) : Bytes :=
  ((List.range 32).map fun n => ((List.range 32).map fun k => (d.drop ((k * 32 + n) * e)).take e).flatten).flatten

/-- Is a static scale record legal? (R220) -/
def staticOk (r : Bytes) (w : ConvWord) : Bool :=
  let sc := fieldAt r 0 4
  let z := signed 32 (fieldAt r 4 4)
  decide (sc < 2 ^ 31) && decide (1 ≤ bits sc 23 8 ∧ bits sc 23 8 ≤ 254)
    && (!w.asym || (if w.tfmt = 2 then decide (-128 ≤ z ∧ z ≤ 127) else decide (-8 ≤ z ∧ z ≤ 7)))

/-! ## Group sums (R181, R182, R191) -/

/-- Is the value an infinity or a NaN? -/
def Fv.special : Fv → Bool
  | .fin _ _ _ => false
  | _ => true

/-- Is a cell gated? (R191) -/
def cellGated (w a : Fv) : Bool := (w.isZero && !a.special) || (a.isZero && !w.special)

/-- A zero is stored as +0 (R191). -/
def plusZero : Fv → Fv
  | .fin s m e => if m = 0 then .fin false 0 0 else .fin s m e
  | x => x

/-- The exact sum of products of a list of (weight, activation). -/
def dotExact (l : List (Fv × Fv)) : Fv := l.foldl (fun s p => s.add (p.1.mul p.2)) (.fin false 0 0)

/-- The accumulator after one group (R181): added to or written in place, rounded once. -/
def accumulate (int acc : Bool) (old : Nat) (sum : Fv) : Nat :=
  if int then
    let base : Int := if acc then signed 32 old else 0
    unsigned 32 (base + sum.toIntEven)
  else toF32 (plusZero (if acc then f32Add (f32 old) sum else Fmt.fp32.round sum))

/-- One output cell of a row cycle: where it accumulates, and the K lanes, column and activation elements it sums. -/
structure OutCell where
  mxu : Nat
  row : Nat
  col : Nat
  gcol : Nat
  kBase : Nat
  kCount : Nat
  aBase : Nat
deriving DecidableEq, Repr

/-- The output cells of row `i` of a stream (R186, R187). -/
def outCells (gang pack u w accRow i : Nat) : List OutCell :=
  if pack = 0 then
    (List.range (gangN gang)).map fun n =>
      { mxu := (if gang = 0 then u else if gang = 1 then 2 * u + n / 32 else n / 32), row := accRow + i, col := n % 32, gcol := n
        kBase := 0, kCount := gangK gang w, aBase := 0 }
  else
    let d := if pack = 1 then 16 else 8
    let c := if pack = 1 then 2 else 4
    ((List.range (c * c)).map fun q => (List.range d).map fun n =>
      { mxu := u, row := (if pack = 1 then 512 else 256) * (q / c) + accRow + i, col := d * (q % c) + n, gcol := d * (q % c) + n
        kBase := d * (q / c), kCount := d, aBase := q * d : OutCell }).flatten

/-- The group sum of an output cell (R181): MX blocks are scaled before they are added. -/
def cellSum (t : Tile) (gang : Nat) (a sa : Nat → Fv) (o : OutCell) : Fv :=
  if isMx t.fmt then
    (List.range (o.kCount / 32)).foldl (fun s b =>
      s.add (((dotExact ((List.range 32).map fun k => (t.weight gang (o.kBase + b * 32 + k) o.gcol, a (o.aBase + b * 32 + k)))).mul
        (t.scale gang (o.kBase / 32 + b) o.gcol)).mul (sa b))) (.fin false 0 0)
  else dotExact ((List.range o.kCount).map fun k => (t.weight gang (o.kBase + k) o.gcol, a (o.aBase + k)))

/-- The cells of column `n` of MXU `m` of a gang: K position in the gang's tile or the MXU, and activation element (R180, R186, R187). -/
def columnCells (gang pack w m n : Nat) : List (Nat × Nat) :=
  if pack = 0 then
    let lo := if gang = 2 then m / 2 * kOf w else 0
    (List.range (kOf w)).map fun k => (lo + k, lo + k)
  else
    let d := if pack = 1 then 16 else 8
    let c := if pack = 1 then 2 else 4
    ((List.range c).map fun r => (List.range d).map fun k => (d * r + k, (c * r + n / d) * d + k)).flatten

/-- Column of the gang's tile that column `n` of MXU `m` holds (R186). -/
def gangColumn (gang m n : Nat) : Nat := if gang = 0 then n else 32 * (m % 2) + n

/-- Is column `n` of MXU `m` gated as a whole in a row cycle? (R191) -/
def columnGated (t : Tile) (gang pack m n : Nat) (a : Nat → Fv) : Bool :=
  (columnCells gang pack t.fmt m n).all fun x => cellGated (t.weight gang x.1 (gangColumn gang m n)) (a x.2)

/-- Columns of a gang's MXUs that are gated as a whole in a row cycle. -/
def gatedIn (t : Tile) (gang pack : Nat) (ms : List Nat) (a : Nat → Fv) : Nat :=
  (ms.map fun m => ((List.range 32).filter fun n => columnGated t gang pack m n a).length).sum

/-- One row cycle of a gang: every output cell, the row sum, the gated columns (R180, R191, R204). -/
def Cluster.rowCycle (c : Cluster) (u : Nat) (t : Tile) (afmt : Nat) (acc : Bool) (accRow i : Nat) (a sa : Nat → Fv) : Cluster :=
  let int := intPair t.fmt afmt
  let cells := outCells c.gang c.pack u t.fmt accRow i
  let c' := cells.foldl (fun x o =>
    x.setAcc o.mxu o.row o.col (accumulate int acc (x.accAt o.mxu o.row o.col) (cellSum t c.gang a sa o))) c
  let m := c.lead u
  let kk := gangK c.gang t.fmt
  let one : Fv := .fin false 1 0
  let sum := if isMx afmt then
      (List.range (kk / 32)).foldl (fun s b => s.add ((dotExact ((List.range 32).map fun k => (one, a (b * 32 + k)))).mul (sa b)))
        (.fin false 0 0)
    else dotExact ((List.range kk).map fun k => (one, a k))
  let c' := if c.pack = 0 then c'.setSum m (accRow + i) (accumulate int acc (c'.sumAt m (accRow + i)) sum) else c'
  { c' with gatedColumns := satAdd (2 ^ 64 - 1) c'.gatedColumns (gatedIn t c.gang c.pack (c.members u) a) }

/-- Rows of a stream from their bytes: `row i` gives row `i`, `sc i` its scale bytes. -/
def Cluster.feed (c : Cluster) (u : Nat) (t : Tile) (afmt : Nat) (acc : Bool) (accRow : Nat) (row sc : Nat → Bytes) :
    Nat → Nat → Cluster
  | _, 0 => c
  | i, n + 1 =>
    let r := row i
    let q := sc i
    (c.rowCycle u t afmt acc accRow i (fun k => elemAt afmt r k) (fun b => e8m0 (fieldAt q b 1))).feed u t afmt acc accRow row sc
      (i + 1) n

/-! ## Faults (R202) -/

/-- A gang ends its operation: queued operations are discarded, the accumulators it uses (R186) and its buffers become undefined, and
the fault is latched. -/
def Cluster.mxuFault (c : Cluster) (u st gen : Nat) : Cluster :=
  let m := c.lead u
  let x := c.gangAt m
  let c' := c.setGang m { x with queue := [], active := [], tile0 := none, tile1 := none }
  let c' := ((c.members u).take (gangN c.gang / 32)).foldl (fun y k => y.blur k (gen + k)) c'
  let c' := { c' with async := some st }
  if c'.faultFirst then { c' with faultMultiple := true } else { c' with faultFirst := true, faultSt := st }

/-- Raise XLZ_ASYNC (R202): mcause 25 with the latched code. A poisoned operand re-runs the step; any other code ends it. -/
def State.raiseAsync (s : State) (g : Nat) : State :=
  match (s.cluster g).async with
  | some st =>
    let s := (s.modCl g fun c => { c.trap 25 s.freeNum (some st) with async := none }).used
    if st = St.poisoned then s.faultNow g else s.stepEnds g st
  | none => s

/-- Is the core stalled in a tile.*, chain.go or tile.fence instruction? -/
def Cluster.stalledInTile (c : Cluster) : Bool :=
  c.waiting == some .queueFull || c.waiting == some .fence || c.waiting == some .cfg

/-- An operation of a gang fails with a code; a core stalled in such an instruction raises the exception at once. -/
def State.mxuFault (s : State) (g u st : Nat) : State :=
  let n := s.free + 1
  let s := { (s.modCl g fun c => c.mxuFault u st n) with free := n + 4 }
  if (s.cluster g).stalledInTile then s.raiseAsync g else s

/-! ## Operations -/

/-- The buffer of a gang. -/
def Gang.tile (x : Gang) (side : Bool) : Option Tile := if side then x.tile1 else x.tile0
/-- Replace a buffer. -/
def Gang.setTile (x : Gang) (side : Bool) (t : Option Tile) : Gang := if side then { x with tile1 := t } else { x with tile0 := t }

/-- Read a gang tile's bytes (R192, R224, R259): `a` the cluster-local address, of the first codebook line for LUT. -/
def State.tileBytes (s : State) (g : Nat) (gang a w lut : Nat) (colread : Bool) : Bytes :=
  let n := splitBytes w lut
  let base := if w = 11 then a - 256 * lut else a
  ((List.range (subTiles gang)).map fun i =>
    let d := s.bytesAt (spAddr g (base + i * n)) n
    if colread then
      let e := elemBits w / 8
      columnRead e (d.take (1024 * e)) ++ d.drop (1024 * e)
    else d).flatten

/-- The range of cluster-local addresses a gang tile takes. -/
def tileRange (gang a w lut : Nat) : Nat × Nat :=
  if w = 11 then (a - 256 * lut, subTiles gang * splitBytes 11 lut) else (a, subTiles gang * splitBytes w 0)

/-- A load ends (R190, R226): the shadow buffer holds the tile, or the gang's operation ends. -/
def State.loadDone (s : State) (g u : Nat) (addr fmt : Nat) (colread side : Bool) : State :=
  let c := s.cluster g
  let m := c.lead u
  let r : Requester := .steward (Fin.ofNat 128 g)
  -- the first codebook line gives the code width
  let (st0, s) := if fmt = 11 then s.checkRead r (some g) (spAddr g addr) 64 else (St.ok, s)
  if st0 ≠ St.ok then s.mxuFault g u st0
  else
    let lut := if fmt = 11 then bits (s.natAt (spAddr g addr + 0x20) 1) 0 2 + 1 else 0
    let (lo, n) := tileRange c.gang addr fmt lut
    if fmt = 11 ∧ (addr < 256 * lut ∨ spEnd < lo + n) then s.mxuFault g u St.addrUnmapped
    else
      let (st, s) := s.checkRead r (some g) (spAddr g lo) n
      if st ≠ St.ok then s.mxuFault g u st
      else
        let t : Tile := { fmt := fmt, lutBits := lut, data := s.tileBytes g c.gang addr fmt lut colread }
        s.modCl g fun c => c.setGang m ((c.gangAt m).setTile side (some t))

/-- The buffer a stream reads; one that a fault has left undefined holds free values. -/
def State.tileFor (s : State) (g u : Nat) (side : Bool) : Tile :=
  let c := s.cluster g
  let x := c.gangAt (c.lead u)
  match x.tile side with
  | some t => t
  | none =>
    let f := ((if side then x.view1 else x.view0).getD 0)
    { fmt := f, lutBits := 4, data := (List.range (subTiles c.gang * splitBytes f 4)).map fun i => Config.freeByte s.free i }

/-- Check the reads of rows: only the rows' own bytes are read, none of what lies between them (R268). -/
def State.checkRows (s : State) (r : Requester) (g a stride n : Nat) : Nat → Nat × State
  | 0 => (St.ok, s)
  | k + 1 =>
    let (st, s) := s.checkRead r (some g) a n
    if st = St.ok then s.checkRows r g (a + stride) stride n k else (st, s)

/-- ROW_CYCLES grows by the cycles of some rows; of rows that other gangs' may coincide with, how many cycles are new is a free number
(R204, log 35). -/
def State.countRows (s : State) (g n : Nat) (alone : Bool) : State :=
  if alone then s.modCl g fun c => { c with rowCycles := satAdd (2 ^ 64 - 1) c.rowCycles n }
  else (s.modCl g fun c => { c with rowCycles := satAdd (2 ^ 64 - 1) c.rowCycles (n - s.freeNum % (n + 1)) }).used

/-- A stream ends: its rows are in the accumulators, or the gang's operation ends. -/
def State.streamDone (s : State) (g u addr stride afmt : Nat) (acc : Bool) (accRow rows : Nat) (side alone : Bool) : State :=
  let c := s.cluster g
  let t := s.tileFor g u side
  let n := rowBytes c.gang c.pack t.fmt afmt
  let q := rowScales c.gang t.fmt afmt
  let r : Requester := .steward (Fin.ofNat 128 g)
  let (st, s) := s.checkRows r g (spAddr g addr) stride n rows
  let (st2, s) := if st = St.ok ∧ q ≠ 0 then s.checkRead r (some g) (spAddr g (addr + rows * stride)) (rows * q) else (st, s)
  if st2 ≠ St.ok then s.mxuFault g u st2
  else
    ((s.modCl g fun c => c.feed u t afmt acc accRow (fun i => s.bytesAt (spAddr g (addr + i * stride)) n)
      (fun i => s.bytesAt (spAddr g (addr + rows * stride + i * q)) q) 0 rows).countRows g rows alone).used

/-- The bytes of a drained row (R192). -/
def Cluster.drainRow (c : Cluster) (u row : Nat) (rowsum : Bool) : Bytes :=
  ((List.range (gangN c.gang)).map fun n => leBytes 4 (c.accAt ((c.members u).getD (n / 32) 0) row (n % 32))).flatten
    ++ (if rowsum then leBytes 4 (c.sumAt (c.lead u) row) else [])

/-- A drained row and its row sum become +0 (R200). -/
def Cluster.clearRow (c : Cluster) (u row : Nat) : Cluster :=
  ((List.range (gangN c.gang)).foldl (fun x n => x.setAcc ((c.members u).getD (n / 32) 0) row (n % 32) 0) c).setSum (c.lead u) row 0

/-- A drain ends: its rows are written, or the gang's operation ends at the row that cannot be (R261, R273). -/
def State.drainRows (s : State) (g u addr stride : Nat) (rowsum clear : Bool) (accRow : Nat) : Nat → Nat → State
  | _, 0 => s
  | i, n + 1 =>
    let c := s.cluster g
    let b := c.drainRow u (accRow + i) rowsum
    let (st, s) := s.writeRange (.steward (Fin.ofNat 128 g)) false (spAddr g (addr + i * stride)) b
    if st = St.ok then
      (if clear then s.modCl g fun c => c.clearRow u (accRow + i) else s).drainRows g u addr stride rowsum clear accRow (i + 1) n
    else s.mxuFault g u st

/-- Streams, drains and chains among the operations in progress. -/
def MxuOp.isLoad : MxuOp → Bool
  | .load _ _ _ => true
  | _ => false

/-- Does a stream that exchanges the buffers have to wait for one in progress? `fed`: the streams in progress have fed their last
rows (R189). -/
def swapWaits (swap fed : Bool) : MxuOp → Bool
  | .load _ _ _ => swap
  | .stream _ _ _ _ _ _ _ => swap && !fed
  | .drain _ _ _ _ _ _ => false
  | .chain _ => true

/-- May an operation start behind those in progress? (R189) -/
def Gang.mayStart (x : Gang) (op : MxuOp) (fed : Bool) : Bool :=
  match op with
  | .load _ _ _ => !x.active.any fun a => match a.op with
      | .load _ _ _ => a.buf == !x.side
      | .stream _ _ _ _ _ _ _ => a.buf == !x.side
      | .drain _ _ _ _ _ _ => false
      | .chain _ => true
  | .stream _ _ _ swap _ _ _ => !x.active.any fun a => swapWaits swap fed a.op
  | .drain _ _ _ _ _ _ => !x.active.any fun a => match a.op with
      | .chain _ => true
      | _ => false
  | .chain _ => x.active.isEmpty

/-- The first queued operation starts: a load takes the shadow buffer, a stream the active one, exchanged first by SWAP. -/
def Gang.start (x : Gang) (fed : Bool) : Gang :=
  match x.queue with
  | op :: l =>
    if x.mayStart op fed then
      match op with
      | .load _ _ _ => { x with queue := l, active := x.active ++ [{ op := op, buf := !x.side }] }
      | .stream _ _ _ swap _ _ _ =>
        let side := x.side != swap
        { x with queue := l, side := side, active := x.active ++ [{ op := op, buf := side }] }
      | _ => { x with queue := l, active := x.active ++ [{ op := op, buf := x.side }] }
    else x
  | [] => x

/-- Operations of two gangs of a cluster run beside one another: neither's rows are alone any more (R204). -/
def Cluster.markShared (c : Cluster) : Cluster :=
  let busy := ((List.range c.gangs).filter fun u => (c.gangAt (c.lead u)).active != []).length
  if busy ≤ 1 then c
  else (List.range c.gangs).foldl (fun c u =>
    let x := c.gangAt (c.lead u)
    c.setGang (c.lead u) { x with active := x.active.map fun a => { a with alone := false } }) c

/-- MXU_OP_START (R189): the first queued operation of gang `u` starts, unless an earlier one holds it back. `fed`: the streams in
progress have fed their last rows. -/
def execMxuOpStart (g : Fin 128) (u : GangTurn) (s : State) : Out :=
  .next (s.modCl g fun c =>
    if u.unit.val < c.gangs then (c.setGang (c.lead u.unit) ((c.gangAt (c.lead u.unit)).start u.fed)).markShared else c)

/-- Take operation `k` out of those in progress. -/
def Gang.take (x : Gang) (k : Nat) : Gang := { x with active := x.active.take k ++ x.active.drop (k + 1) }

/-- MXU_OP_COMPLETE (R180, R189, R202): operation `k` in progress ends. Loads end in any order; streams and drains take effect in
issue order. A chain ends by CHAIN_COMPLETE. -/
def execMxuOpComplete (g : Fin 128) (u : Fin 4) (k : Nat) (s : State) : Out :=
  let c := s.cluster g
  let x := c.gangAt (c.lead u)
  .next (
    if c.gangs ≤ u.val then s else
    match x.active[k]? with
    | some a =>
      let drop (s : State) : State := s.modCl g fun c => c.setGang (c.lead u) ((c.gangAt (c.lead u)).take k)
      let first := (x.active.take k).all fun b => b.op.isLoad
      match a.op with
      | .load addr fmt col => (drop s).loadDone g u addr fmt col a.buf
      | .stream addr stride afmt _ acc row n => if first then (drop s).streamDone g u addr stride afmt acc row n a.buf a.alone else s
      | .drain addr stride rs cl row n => if first then (drop s).drainRows g u addr stride rs cl row 0 n else s
      | .chain _ => s
    | none => s)

end Sys2Proof.Machine
end

