-- ==== Sys2Proof/Machine/Xlz.lean ====
section
/-! DEFINITION. The Xlz instructions on the cluster's own units and slots (R195-R203, R263), but for chain.go and sel.issue. -/

namespace Sys2Proof.Machine

/-- Read a core register; x0 reads 0. -/
def Core.reg (k : Core) (r : Nat) : Nat := if r = 0 then 0 else Tab.get 0 k.x r
/-- Write a core register; writes to x0 are discarded. -/
def Core.setReg (k : Core) (r v : Nat) : Core := if r = 0 then k else { k with x := Tab.set 0 k.x r (v % 2 ^ 64) }

/-- The instruction of `n` bytes retires: the next one follows. -/
def Cluster.retireBy (c : Cluster) (n : Nat) : Cluster :=
  { c with waiting := none, core := { c.core with pc := (c.core.pc + n) % 2 ^ 64, instret := c.core.instret + 1 } }
/-- The instruction, of 32 bits, retires. -/
def Cluster.retire (c : Cluster) : Cluster := c.retireBy 4
/-- The instruction retires with a result. -/
def Cluster.retireWith (c : Cluster) (rd v : Nat) : Cluster := ({ c with core := c.core.setReg rd v }).retire

/-- An ecall returns to the program on a core with its code, which it finds in a0 (the register: PRESUMED, log 97). -/
def State.ecallEnds (s : State) (g : Nat) (st : Nat) : State := (s.modCl g fun c => c.retireWith 10 st).reply (.value st)

/-- Illegal instruction (R196): mcause 2, xlzst unchanged. -/
def State.illegal (s : State) (g : Nat) : State := (s.modCl g fun c => c.trap 2 s.freeNum none).used

/-- The frame of every Xlz instruction: the core runs; funct7 and unused register fields are 0, else illegal instruction; a
latched MXU fault is raised by a tile.*, chain.go or tile.fence (R196, R202). -/
def State.xlz (s : State) (g : Nat) (f7 : Nat) (unused : List Nat) (tile : Bool) (body : State → State) : State :=
  if !(s.cluster g).runs then s
  else if f7 ≠ 0 ∨ unused.any (· ≠ 0) then s.illegal g
  else if tile && (s.cluster g).async.isSome then s.raiseAsync g
  else body s

/-- The core stalls in its instruction, which has not executed (R203). -/
def State.stall (s : State) (g : Nat) (w : StallWhy) : State := s.modCl g fun c => { c with waiting := some w }

/-- First true case of a list of issue checks, else none. -/
def firstCase (l : List (Bool × Nat)) : Option Nat := (l.find? (·.1)).map (·.2)

/-- Queue an operation on a gang, or stall while its queue holds 8 (R179). -/
def State.queueMxu (s : State) (g u : Nat) (op : MxuOp) (view : Gang → Gang) : State :=
  let c := s.cluster g
  let m := c.lead u
  if 8 ≤ (c.gangAt m).queue.length then s.stall g .queueFull
  else s.modCl g fun c =>
    let x := view (c.gangAt m)
    (c.setGang m { x with queue := x.queue ++ [op] }).retire

/-- Is a weight format's capability reported? (R13, R90) -/
def State.fmtOffered (s : State) (w : Nat) : Bool := (w != 11 || s.cap 10) && (!isMx w || s.cap 11)

/-! ## Tiles -/

/-- The issue checks of tile.load (R192, R198, R201). -/
def loadChecks (s : State) (c : Cluster) (a w : Nat) : Option Nat :=
  let u := bits w 0 2
  let f := bits w 2 4
  let n := if f = 11 then 64 else subTiles c.gang * splitBytes f 0
  let known := decide (f ≤ 11)
  firstCase [
    (decide (spEnd ≤ a) || (known && decide (spEnd < a + n)), St.addrUnmapped),
    (decide (w / 256 ≠ 0) || bit w 6, St.reservedField),
    (decide (c.gangs ≤ u) || !known || !s.fmtOffered f || decide (a % 64 ≠ 0)
      || (bit w 7 && !([0, 1, 2, 3, 4, 9, 10].contains f)) || (bit w 7 && decide (a / 2 ^ 20 ≠ (a + n - 1) / 2 ^ 20))
      || (decide (c.pack ≠ 0) && decide (2 < f)), St.unsupported)]

/-- TILE_LOAD (R198). -/
def execTileLoad (g : Fin 128) (f7 : Fin 128) (rd rs1 rs2 : Fin 32) (s : State) : Out :=
  .next (s.xlz g f7 [rd.val] true fun s =>
    let c := s.cluster g
    let a := c.core.reg rs1
    let w := c.core.reg rs2
    match loadChecks s c a w with
    | some st => s.xlzOperand g st
    | none =>
      s.queueMxu g (bits w 0 2) (.load a (bits w 2 4) (bit w 7)) fun x =>
        if x.viewSide then { x with view0 := some (bits w 2 4) } else { x with view1 := some (bits w 2 4) })

/-- The issue checks of tile.stream (R199, R201). -/
def streamChecks (c : Cluster) (a w : Nat) : Option Nat :=
  let u := bits w 26 2
  let afmt := bits w 22 4
  let x := c.gangAt (c.lead u)
  let side := x.viewSide != bit w 21
  let wfmt := if side then x.view1 else x.view0
  let rows := bits w 0 10 + 1
  let stride := bits w 32 16
  let rb := rowBytes c.gang c.pack (wfmt.getD 0) afmt
  let sc := rowScales c.gang (wfmt.getD 0) afmt
  let last := max (a + (rows - 1) * stride + rb) (if sc = 0 then 0 else a + rows * stride + rows * sc)
  let top := if c.pack = 0 then 1024 else if c.pack = 1 then 512 else 256
  firstCase [
    (decide (spEnd ≤ a) || decide (spEnd < last), St.addrUnmapped),
    (decide (w / 2 ^ 48 ≠ 0) || decide (bits w 28 4 ≠ 0), St.reservedField),
    (decide (c.gangs ≤ u) || wfmt.isNone || !pairs (wfmt.getD 15) afmt || decide (top < bits w 10 10 + rows)
      || decide (stride < rb) || decide (stride % 8 ≠ 0) || (decide (c.pack ≠ 0) && decide (2 < afmt)), St.unsupported)]

/-- TILE_STREAM (R199). -/
def execTileStream (g : Fin 128) (f7 : Fin 128) (rd rs1 rs2 : Fin 32) (s : State) : Out :=
  .next (s.xlz g f7 [rd.val] true fun s =>
    let c := s.cluster g
    let a := c.core.reg rs1
    let w := c.core.reg rs2
    match streamChecks c a w with
    | some st => s.xlzOperand g st
    | none =>
      s.queueMxu g (bits w 26 2)
        (.stream a (bits w 32 16) (bits w 22 4) (bit w 21) (bit w 20) (bits w 10 10) (bits w 0 10 + 1))
        fun x => { x with viewSide := x.viewSide != bit w 21 })

/-- The issue checks of tile.drain (R200, R201). -/
def drainChecks (c : Cluster) (a w : Nat) : Option Nat :=
  let u := bits w 22 2
  let rows := bits w 0 10 + 1
  let stride := bits w 32 16
  let rb := 4 * gangN c.gang + (if bit w 21 then 4 else 0)
  firstCase [
    (decide (spEnd ≤ a) || decide (spEnd < a + (rows - 1) * stride + rb), St.addrUnmapped),
    (decide (w / 2 ^ 48 ≠ 0) || decide (bits w 24 8 ≠ 0), St.reservedField),
    (decide (c.gangs ≤ u) || decide (1024 < bits w 10 10 + rows) || decide (stride < rb) || decide (stride % 8 ≠ 0)
      || (bit w 21 && decide (c.pack ≠ 0)), St.unsupported)]

/-- TILE_DRAIN (R200). -/
def execTileDrain (g : Fin 128) (f7 : Fin 128) (rd rs1 rs2 : Fin 32) (s : State) : Out :=
  .next (s.xlz g f7 [rd.val] true fun s =>
    let c := s.cluster g
    let a := c.core.reg rs1
    let w := c.core.reg rs2
    match drainChecks c a w with
    | some st => s.xlzOperand g st
    | none =>
      s.queueMxu g (bits w 22 2) (.drain a (bits w 32 16) (bit w 21) (bit w 20) (bits w 10 10) (bits w 0 10 + 1)) id)

/-- CL_MXU_CFG, and the layout of tile.cfg's operand (R195, R204). -/
def Cluster.cfgWord (c : Cluster) : Nat := c.gang * 64 + c.pack * 16 + 8 * b2n c.gz4

/-- The issue checks of tile.cfg (R201). -/
def cfgChecks (s : State) (w : Nat) : Option Nat :=
  firstCase [
    (decide (w / 256 ≠ 0) || decide (bits w 0 3 ≠ 0), St.reservedField),
    (decide (bits w 6 2 = 3) || decide (bits w 4 2 = 3) || (decide (bits w 4 2 ≠ 0) && decide (bits w 6 2 ≠ 0))
      || (bit w 3 && !s.cap 9), St.unsupported)]

/-- Set gang, packing and timing; the buffers of every gang are undefined, the accumulators keep their contents (R190). -/
def Cluster.configure (c : Cluster) (w : Nat) : Cluster :=
  { c with gang := bits w 6 2, pack := bits w 4 2, gz4 := bit w 3, g0 := {}, g1 := {}, g2 := {}, g3 := {} }

/-- TILE_CFG (R197): waits until every gang's operations have completed. -/
def execTileCfg (g : Fin 128) (f7 : Fin 128) (rd rs1 rs2 : Fin 32) (s : State) : Out :=
  .next (s.xlz g f7 [rs2.val] true fun s =>
    let c := s.cluster g
    let w := c.core.reg rs1
    match cfgChecks s w with
    | some st => s.xlzOperand g st
    | none =>
      if c.mxuBusy then s.stall g .cfg
      else s.modCl g fun c => (c.configure w).retireWith rd c.cfgWord)

/-- TILE_FENCE (R194, R197). -/
def execTileFence (g : Fin 128) (f7 : Fin 128) (rd rs1 rs2 : Fin 32) (s : State) : Out :=
  .next (s.xlz g f7 [rd.val, rs1.val, rs2.val] true fun s =>
    if (s.cluster g).mxuBusy then s.stall g .fence else s.modCl g Cluster.retire)

/-! ## Descriptors -/

/-- The issue check of a descriptor address (R201): bank power is not tested (R273). -/
def State.descCheck (s : State) (g a : Nat) : Option Nat :=
  let mapped := match place a with
    | .unmapped => false
    | .unpopulated => false
    | .sp h b _ => (s.cluster h).bank b != .retired
    | _ => true
  firstCase [
    (!mapped, St.addrUnmapped),
    (!s.mayReach (.steward (Fin.ofNat 128 g)) a 64, St.addrDenied),
    (decide (a % 64 ≠ 0), St.unsupported)]

/-- The 64 bytes of a descriptor, or the code its read ends with. -/
def State.fetchDesc (s : State) (r : Requester) (g : Option Nat) (a n : Nat) : (Nat × Bytes) × State :=
  let (st, s) := s.checkRead r g a n
  ((st, if st = St.ok then s.bytesAt a n else []), s)

/-- MV_ISSUE (R197, R281): queues the descriptor, or stalls while 16 are queued. -/
def execMvIssue (g : Fin 128) (f7 : Fin 128) (rd rs1 rs2 : Fin 32) (s : State) : Out :=
  .next (s.xlz g f7 [rd.val, rs2.val] false fun s =>
    let c := s.cluster g
    let a := c.core.reg rs1
    match s.descCheck g a with
    | some st => s.xlzOperand g st
    | none =>
      if 16 ≤ c.mvQueued then s.stall g .unitFull
      else
        let ((st, d), s) := s.fetchDesc (.mover g) (some g.val) a 64
        let j : MvJob := { desc := d, epoch := c.epoch, doomed := if st = St.ok then none else some st }
        s.modCl g fun c => ({ c with movers := c.movers ++ [j] } : Cluster).retire)

/-! ## Slots (R197, R263) -/

/-- The issue checks of a slot operand; `own`: only the core's own cluster may be named. -/
def slotChecks (s : State) (g v : Nat) (own : Bool) : Option Nat :=
  let h := bits v 12 10
  firstCase [
    (decide (h < 128) && decide (h ≠ g) && !s.partMay g (spAddr h 0) 1, St.addrDenied),
    (decide (128 ≤ h), St.idRange),
    (decide (v / 2 ^ 22 ≠ 0), St.reservedField),
    (own && decide (h ≠ g), St.unsupported)]

/-- SLOT_WAIT (R197, R263). -/
def execSlotWait (g : Fin 128) (f7 : Fin 128) (rd rs1 rs2 : Fin 32) (s : State) : Out :=
  .next (s.xlz g f7 [rs2.val] false fun s =>
    let c := s.cluster g
    let v := c.core.reg rs1
    match slotChecks s g v true with
    | some st => s.xlzOperand g st
    | none =>
      let i := bits v 0 12
      if c.slotFull i then s.modCl g fun c => c.retireWith rd (c.slotCount i) else s.stall g (.slotRead i))

/-- SLOT_TAKE (R197, R263): the count is unchanged. -/
def execSlotTake (g : Fin 128) (f7 : Fin 128) (rd rs1 rs2 : Fin 32) (s : State) : Out :=
  .next (s.xlz g f7 [rs2.val] false fun s =>
    let c := s.cluster g
    let v := c.core.reg rs1
    match slotChecks s g v true with
    | some st => s.xlzOperand g st
    | none =>
      let i := bits v 0 12
      if c.slotFull i then s.modCl g fun c => (c.setSlot i false (c.slotCount i)).retireWith rd (c.slotCount i)
      else s.stall g (.slotRead i))

/-- SLOT_GIVE (R197, R263): to another cluster it travels as a message, whose outcome the core awaits. -/
def execSlotGive (g : Fin 128) (f7 : Fin 128) (rd rs1 rs2 : Fin 32) (s : State) : Out :=
  .next (s.xlz g f7 [rd.val] false fun s =>
    let c := s.cluster g
    let v := c.core.reg rs1
    match slotChecks s g v false with
    | some st => s.xlzOperand g st
    | none =>
      let i := bits v 0 12
      let h := bits v 12 10
      let n := c.core.reg rs2 % 256
      if h = g.val then
        if c.slotFull i then s.stall g (.slotGive g i) else s.modCl g fun c => (c.setSlot i true n).retire
      else if c.remote.isSome then s
      else s.modCl g fun c => { c with remote := some ⟨h, i, some n⟩, waiting := some (.slotGive h i) })

/-- SLOT_PEEK (R197). -/
def execSlotPeek (g : Fin 128) (f7 : Fin 128) (rd rs1 rs2 : Fin 32) (s : State) : Out :=
  .next (s.xlz g f7 [rs2.val] false fun s =>
    let v := (s.cluster g).core.reg rs1
    match slotChecks s g v true with
    | some st => s.xlzOperand g st
    | none => s.modCl g fun c => c.retireWith rd (Tab.get 0 c.slots (bits v 0 12)))

/-- SLOT_CLEAR (R197, R263). -/
def execSlotClear (g : Fin 128) (f7 : Fin 128) (rd rs1 rs2 : Fin 32) (s : State) : Out :=
  .next (s.xlz g f7 [rd.val, rs2.val] false fun s =>
    let c := s.cluster g
    let v := c.core.reg rs1
    match slotChecks s g v false with
    | some st => s.xlzOperand g st
    | none =>
      let i := bits v 0 12
      let h := bits v 12 10
      if h = g.val then s.modCl g fun c => (c.setSlot i false 0).retire
      else if c.remote.isSome then s
      else s.modCl g fun c => { c with remote := some ⟨h, i, none⟩ })

end Sys2Proof.Machine
end

