-- ==== Sys2Proof/Machine/Steward.lean ====
section
/-! DEFINITION. The steward core's own instructions (R193-R196), loads and stores (R194, R269, R273, R423). -/

namespace Sys2Proof.Machine

/-! ## CSRs -/

/-- User CSRs the core has (R193, R195): number. -/
def userCsrs : List Nat :=
  [0x001, 0x002, 0x003, 0x008, 0x009, 0x00A, 0x00F, 0x800, 0xC00, 0xC01, 0xC02, 0xC20, 0xC21, 0xC22, 0xCC0]

/-- Machine CSRs the core has: those the standard requires of a core with machine and user modes only (PRESUMED, log 10): number. -/
def machineCsrs : List Nat :=
  [0x300, 0x301, 0x304, 0x305, 0x306, 0x30A, 0x310, 0x320, 0x340, 0x341, 0x342, 0x343, 0x344, 0xF11, 0xF12, 0xF13, 0xF14, 0xF15]
    ++ [0xB00, 0xB02] ++ (List.range 29).map (0xB03 + ·) ++ (List.range 29).map (0x323 + ·)

/-- May an access to a CSR be made from a mode? Read-only ones are not written; machine ones need machine mode; a CSR that the core
does not have is not accessed. -/
def csrAllowed (m : Mode) (n : Nat) (write : Bool) : Bool :=
  !(write && decide (bits n 10 2 = 3)) && (userCsrs.contains n || (decide (m = .machine) && machineCsrs.contains n))

/-- Read a CSR. The count of steward cycles is not modelled: a read of it gives a free value (log 8). -/
def State.csrRead (s : State) (g n : Nat) : Nat :=
  let c := s.cluster g
  let k := c.core
  match n with
  | 0x001 => k.fcsr % 32
  | 0x002 => bits k.fcsr 5 3
  | 0x003 => k.fcsr
  | 0x008 => k.vstart
  | 0x009 => k.vxsat
  | 0x00A => k.vxrm
  | 0x00F => k.vxrm * 2 + k.vxsat
  | 0x800 => k.xlzst
  | 0xC00 => s.freeNum % 2 ^ 64
  | 0xC01 => s.count (dieOfCluster g)
  | 0xC02 => k.instret
  | 0xB00 => s.freeNum % 2 ^ 64
  | 0xB02 => k.instret
  | 0xC20 => k.vl
  | 0xC21 => k.vtype
  | 0xC22 => 64
  | 0xCC0 => c.cfgWord
  | 0x341 => k.mepc
  | 0x342 => k.mcause
  | 0x343 => k.mtval
  | _ => Tab.get 0 k.csr n

/-- Write a CSR. xlzst holds bits [15:0]; writes to the others of its bits are ignored (R195). -/
def Core.csrWrite (k : Core) (n v : Nat) : Core :=
  match n with
  | 0x001 => { k with fcsr := k.fcsr / 32 * 32 + v % 32 }
  | 0x002 => { k with fcsr := k.fcsr % 32 + v % 8 * 32 }
  | 0x003 => { k with fcsr := v % 256 }
  | 0x008 => { k with vstart := v % 512 }
  | 0x009 => { k with vxsat := v % 2 }
  | 0x00A => { k with vxrm := v % 4 }
  | 0x00F => { k with vxsat := v % 2, vxrm := bits v 1 2 }
  | 0x800 => { k with xlzst := v % 65536 }
  | 0x341 => { k with mepc := v / 2 * 2 }
  | 0xB02 => { k with instret := v }
  | 0x342 => { k with mcause := v }
  | 0x343 => { k with mtval := v }
  | _ => { k with csr := Tab.set 0 k.csr n v }

/-- Write one register of an ordinary instruction. -/
def Core.apply (k : Core) : CoreSet → Core
  | .x r v => k.setReg r v
  | .f r v => { k with f := Tab.set 0 k.f r (v % 2 ^ 64) }
  | .v r v => { k with v := Tab.set 0 k.v r (v % 2 ^ 512) }
  | .fcsr v => { k with fcsr := v % 256 }
  | .vtype v => { k with vtype := v % 2 ^ 64 }
  | .vl v => { k with vl := v }
  | .vstart v => { k with vstart := v % 512 }
  | .vxrm v => { k with vxrm := v % 4 }
  | .vxsat v => { k with vxsat := v % 2 }

/-- The new value of CSRRW, CSRRS, CSRRC. -/
def csrNew (op : Fin 3) (old v : Nat) : Nat :=
  match op.val with
  | 0 => v
  | 1 => old ||| v
  | _ => old - (old &&& v)

/-- One instruction of the standard's sets, but for memory accesses (R193, R195). -/
def State.rvStep (s : State) (g : Fin 128) (i : RvStep) : State :=
  let c := s.cluster g
  match i with
  | .plain sets target rvc =>
    s.modCl g fun c =>
      let c := ({ c with core := sets.foldl Core.apply c.core } : Cluster).retireBy (if rvc then 2 else 4)
      match target with
      | some t => { c with core := { c.core with pc := t % 2 ^ 64 } }
      | none => c
  | .csr rd n op v write =>
    if csrAllowed c.core.mode n write then
      let old := s.csrRead g n
      (s.modCl g fun c =>
        ({ c with core := if write then c.core.csrWrite n (csrNew op old v % 2 ^ 64) else c.core } : Cluster).retireWith rd old).used
    else s.illegal g
  | .exception cause val => s.modCl g fun c => c.trap cause val none
  | .mret =>
    if c.core.mode = .machine then
      s.modCl g fun c => { c with core := { c.core with pc := c.core.mepc, mode := c.core.prev, prev := .user } }
    else s.illegal g
  | .fenceI => s.modCl g fun c => ({ c with icache := [] } : Cluster).retire
  | .xlz _ _ => s
  | .service _ => s

/-! ## Loads and stores -/

/-- An access fault (R423): the monitor writes the ST code into xlzst; ST_POISONED re-runs the step, every other code ends it. -/
def State.accessFault (s : State) (g cause a st : Nat) : State :=
  let s := s.modCl g fun c => c.trap cause a (some st)
  if st = St.poisoned then s.faultNow g else s.stepEnds g st

/-- Is an access misaligned? -/
def misaligned (fetch : Bool) (p : Nat × Nat) : Bool := if fetch then p.1 % 2 ≠ 0 else p.1 % (max p.2 1) ≠ 0

/-- Read the pieces of a load in order: the bytes, or the first failing piece and its code. -/
def State.loadPieces (s : State) (g : Nat) : List (Nat × Nat) → State × List Bytes × Option (Nat × Nat)
  | [] => (s, [], none)
  | (a, n) :: l =>
    let (st, s) := s.checkRead (.steward (Fin.ofNat 128 g)) (some g) a n
    if st = St.ok then
      let b := s.bytesAt a n
      let (s, bs, e) := s.loadPieces g l
      (s, b :: bs, e)
    else (s, [], some (a, st))

/-- Sign-extend a value of `n` bytes to 64 bits. -/
def signExt (n v : Nat) : Nat := unsigned 64 (signed (8 * n) v)

/-- Put bytes into a vector register, of 512 bits, from byte `off` on. -/
def Core.setVBytes (k : Core) (r off : Nat) (b : Bytes) : Core :=
  let old := Tab.get 0 k.v r
  let lo := 2 ^ (8 * off)
  let hi := 2 ^ (8 * (off + b.length))
  { k with v := Tab.set 0 k.v r ((old % lo + leNat b * lo + old / hi * hi) % 2 ^ 512) }

/-- Put loaded values into their registers: `bs`, the bytes of each piece. -/
def Core.loaded (k : Core) (d : LoadDest) (bs : List Bytes) : Core :=
  let b := bs.flatten
  let v := leNat b
  match d with
  | .x r sgn => k.setReg r (if sgn then signExt b.length v else v)
  | .f r => { k with f := Tab.set 0 k.f r (v + (2 ^ 64 - 2 ^ (8 * min b.length 8))) }
  | .v dst => (dst.zip bs).foldl (fun k x => k.setVBytes x.1.1 x.1.2 x.2) k
  | .fetch => k

/-- The reservation that LR takes: on the core's own scratchpad only (R193). -/
def reservationAt (g : Nat) : List (Nat × Nat) → Option (Nat × Nat)
  | (a, n) :: _ => (match place a with
    | .sp h k off => if h = g then some (k * 2 ^ 20 + off, n) else none
    | _ => none)
  | [] => none

/-- Lines of the instruction cache, 64 KiB of 64 bytes (R193; the size of a line: DESIGN CHOICE, log 10). -/
def icacheLines : Nat := 1024

/-- Bytes that a fetch sees: of lines in the cache, what they held when they were fetched first; of others, what memory holds. -/
def State.fetched (s : State) (g a n : Nat) : Bytes :=
  (List.range n).map fun i =>
    match Tab.find (s.cluster g).icache ((a + i) / 64) with
    | some l => l.getD ((a + i) % 64) 0
    | none => s.byteAt (a + i)

/-- The lines of a fetch come into the cache; the oldest leave it. -/
def State.cacheLines (s : State) (g a n : Nat) : State :=
  let ls := ((List.range ((a + n + 63) / 64 - a / 64)).map (a / 64 + ·)).filter fun l => !Tab.has (s.cluster g).icache l
  s.modCl g fun c =>
    let t := c.icache ++ ls.map fun l => (l, s.bytesAt (64 * l) 64)
    { c with icache := t.drop (t.length - icacheLines) }

/-- A fetch: a line in the cache is not read again from memory. The bytes are answered. -/
def State.fetch (s : State) (g : Nat) (a n : Nat) : State :=
  let cached := (List.range n).all fun i => Tab.has (s.cluster g).icache ((a + i) / 64)
  let (st, s) := if cached then (St.ok, s) else s.checkRead (.steward (Fin.ofNat 128 g)) (some g) a n
  if st ≠ St.ok then s.accessFault g 1 a st
  else (s.cacheLines g a n).reply (.data (s.fetched g a n))

/-- STEWARD_LOAD (R194, R423): the pieces of one load, `lr` for a load-reserved, `rvc` for an instruction of 16 bits. -/
def execStewardLoad (g : Fin 128) (ps : List (Nat × Nat)) (d : LoadDest) (k : LoadKind) (s : State) : Out :=
  let fetch := d == .fetch
  .next (
    if !(s.cluster g).runs then s else
    match ps.find? (misaligned fetch) with
    | some (a, _) => s.modCl g fun c => c.trap (if fetch then 0 else 4) a none
    | none =>
      if fetch then ps.foldl (fun s p => s.fetch g p.1 p.2) s else
      match s.loadPieces g ps with
      | (s, _, some (a, st)) => s.accessFault g 5 a st
      | (s, b, none) =>
        s.modCl g fun c =>
          let x := c.core.loaded d b
          match k with
          | .plain rvc => ({ c with core := x } : Cluster).retireBy (if rvc then 2 else 4)
          | .reserve => ({ c with core := { x with reservation := reservationAt g ps } } : Cluster).retireBy 4)

/-- Store one piece: its ST code, and the state. A store narrower than its words that meets a parity error still writes, and the
error stays (R269). -/
def State.storePiece (s : State) (g a : Nat) (b : Bytes) : Nat × State :=
  let st := s.accessSt (.steward (Fin.ofNat 128 g)) true a b.length
  if st = St.ok then (St.ok, s.storeMerge (some g) a b)
  else (st, if st = St.bankOff then s.dropWrites a 1 else s)

/-- Store the pieces in order up to the first that fails. -/
def State.storePieces (s : State) (g : Nat) : List (Nat × Bytes) → State × Option (Nat × Nat)
  | [] => (s, none)
  | (a, b) :: l =>
    let (st, s) := s.storePiece g a b
    if st = St.ok then s.storePieces g l else (s, some (a, st))

/-- The new value of an AMO of `n` bytes. -/
def amoNew (op : AmoOp) (n old v : Nat) : Nat :=
  let w := 8 * n
  let v := v % 2 ^ w
  match op with
  | .swap => v
  | .add => (old + v) % 2 ^ w
  | .xor => old ^^^ v
  | .and => old &&& v
  | .or => old ||| v
  | .min => if signed w old ≤ signed w v then old else v
  | .max => if signed w v ≤ signed w old then old else v
  | .minu => min old v
  | .maxu => max old v

/-- Does the core hold a reservation that covers an access to its own scratchpad? -/
def Cluster.reserves (c : Cluster) (g a n : Nat) : Bool :=
  match place a, c.core.reservation with
  | .sp h k off, some (r, m) => decide (h = g) && decide (r ≤ k * 2 ^ 20 + off) && decide (k * 2 ^ 20 + off + n ≤ r + m)
  | _, _ => false

/-- STEWARD_STORE (R193, R194, R269, R273): the pieces of one store, a store-conditional, or an AMO (whose piece gives the address
and the width); `rvc`: an instruction of 16 bits. -/
def execStewardStore (g : Fin 128) (ps : List (Nat × Bytes)) (k : StoreKind) (s : State) : Out :=
  let c := s.cluster g
  let held := c.core.reservation
  .next (
    if !c.runs then s else
    match ps.find? (fun p => misaligned false (p.1, p.2.length)) with
    | some (a, _) => s.modCl g fun c => c.trap 6 a none
    | none =>
      match k with
      | .plain rvc =>
        match s.storePieces g ps with
        | (s, some (a, st)) => s.accessFault g 7 a st
        | (s, none) => s.modCl g fun c => ({ c with core := { c.core with reservation := held } } : Cluster).retireBy (if rvc then 2 else 4)
      | .sc rd =>
        let ok := ps.all fun p => c.reserves g p.1 p.2.length
        let s := s.modCl g fun c => { c with core := { c.core with reservation := none } }
        if ok then
          match s.storePieces g ps with
          | (s, some (a, st)) => s.accessFault g 7 a st
          | (s, none) => s.modCl g fun c => c.retireWith rd 0
        else s.modCl g fun c => c.retireWith rd 1
      | .amo op rd v =>
        match ps with
        | (a, b) :: _ =>
          let n := b.length
          let (st, s) := s.checkRead (.steward g) (some g.val) a n
          if st ≠ St.ok then s.accessFault g 7 a st
          else
            let old := s.natAt a n
            let (st, s) := s.storePiece g a (leBytes n (amoNew op n old v))
            if st ≠ St.ok then s.accessFault g 7 a st
            else s.modCl g fun c => c.retireWith rd (signExt n old)
        | [] => s)

end Sys2Proof.Machine
end

