-- ==== Sys2Proof/Machine/ChainOps.lean ====
section
/-! DEFINITION. Fused chains: the descriptor and its checks, and what a chain computes (spec/10 R235-R253, spec/09 R216-R232). -/

namespace Sys2Proof.Machine

/-! ## The descriptor (R236, R238) -/

/-- STAGES. -/
def chStages (d : Bytes) : Nat := fieldAt d 0 1
/-- EXACT. -/
def chExact (d : Bytes) : Bool := bit (fieldAt d 1 1) 0
/-- UNIT. -/
def chUnit (d : Bytes) : Nat := bits (fieldAt d 2 1) 0 2
/-- EXACT_FMT. -/
def chExactFmt (d : Bytes) : Nat := fieldAt d 3 1
/-- ROWS. -/
def chRows (d : Bytes) : Nat := fieldAt d 4 2
/-- IN_FMT. -/
def chInFmt (d : Bytes) : Nat := fieldAt d 6 1
/-- IN_ADDR. -/
def chInAddr (d : Bytes) : Nat := fieldAt d 8 8
/-- IN_STRIDE. -/
def chInStride (d : Bytes) : Nat := fieldAt d 0x10 4
/-- RESERVE_BASE. -/
def chBase (d : Bytes) : Nat := bits (fieldAt d 0x14 4) 0 25
/-- RESERVE_BYTES. -/
def chReserve (d : Bytes) : Nat := fieldAt d 0x18 4
/-- ACC_ROW. -/
def chAccRow (d : Bytes) : Nat := fieldAt d 0x1C 2

/-- Stage `i` of a chain: its 32 bytes and its number. -/
structure Stage where
  i : Nat
  b : Bytes
deriving DecidableEq, Repr

/-- The stages of a descriptor. -/
def chainStages (d : Bytes) : List Stage := (List.range (min (chStages d) 8)).map fun i => ⟨i, (d.drop (32 + 32 * i)).take 32⟩

/-- KIND. -/
def Stage.kind (t : Stage) : Nat := fieldAt t.b 0 1
/-- SFLAGS. -/
def Stage.flags (t : Stage) : Nat := fieldAt t.b 2 1
/-- SUB. -/
def Stage.sub (t : Stage) : Nat := fieldAt t.b 3 1
/-- 4 bytes at 0x04. -/
def Stage.w4 (t : Stage) : Nat := fieldAt t.b 4 4
/-- 8 bytes at 0x08. -/
def Stage.a8 (t : Stage) : Nat := fieldAt t.b 8 8
/-- 4 bytes at 0x08. -/
def Stage.w8 (t : Stage) : Nat := fieldAt t.b 8 4
/-- 4 bytes at 0x0C. -/
def Stage.w12 (t : Stage) : Nat := fieldAt t.b 12 4
/-- 8 bytes at 0x10. -/
def Stage.a16 (t : Stage) : Nat := fieldAt t.b 16 8
/-- 8 bytes at 0x18. -/
def Stage.a24 (t : Stage) : Nat := fieldAt t.b 24 8
/-- DEST_STRIDE. -/
def Stage.w20 (t : Stage) : Nat := fieldAt t.b 20 4
/-- Destination cluster of a SEND. -/
def Stage.dest (t : Stage) : Nat := bits (fieldAt t.b 4 2) 0 10
/-- SLOTS of a SEND. -/
def Stage.slots (t : Stage) : Nat := fieldAt t.b 7 1
/-- DEST_SLOT. -/
def Stage.destSlot (t : Stage) : Nat := fieldAt t.b 16 2
/-- WFMT of a PRODUCT. -/
def Stage.wfmt (t : Stage) : Nat := bits t.sub 0 4
/-- The conversion word of a QUANT. -/
def Stage.conv (t : Stage) : ConvWord := convWord t.w4
/-- Does the stage count among those whose format EXACT states? (R252) -/
def Stage.elementwise (t : Stage) : Bool := [1, 2, 3, 4, 6, 7, 8].contains t.kind
/-- IFMT in force: under EXACT, EXACT_FMT for the elementwise stages and STAT (R252). -/
def Stage.ifmt (t : Stage) (d : Bytes) : Nat := if chExact d && t.elementwise then chExactFmt d else fieldAt t.b 1 1
/-- Is a STAT stage HELD? (R246, R252) -/
def Stage.held (t : Stage) (d : Bytes) : Bool := chExact d || bit t.flags 0

/-- Bytes of a stage that are reserved for its kind: (offset, length); SFLAGS and SUB masks come with them. -/
def stageReserved (t : Stage) : Bool :=
  let zero (o n : Nat) : Bool := fieldAt t.b o n == 0
  !(match t.kind with
    | 1 => t.flags == 0 && zero 4 4 && zero 16 16
    | 2 => t.flags / 2 == 0 && t.sub == 0 && (bit t.flags 0 || zero 8 8) && zero 16 16
    | 3 => t.flags == 0 && zero 16 16
    | 4 => t.flags == 0 && t.sub == 0 && zero 4 4 && zero 24 8
    | 5 => t.flags / 8 == 0 && t.sub / 16 == 0 && zero 24 8
    | 6 => t.flags == 0 && zero 4 4 && zero 16 16
    | 7 => t.flags == 0 && zero 4 28
    | 8 => t.flags / 2 == 0 && zero 16 16
    | 9 => t.flags / 2 == 0 && t.sub == 0 && zero 12 4 && (bit t.flags 0 || zero 24 8) && t.conv.reserved == 0
    | 10 => t.flags / 2 == 0 && t.sub == 0 && bits (fieldAt t.b 4 2) 10 6 == 0 && zero 18 2 && zero 24 8
    | 11 => t.flags == 0 && t.sub == 0 && zero 16 16
    | _ => true)

/-- A reserved field of the header or of a stage is nonzero, or EXACT_FMT without EXACT (R249). -/
def chainReserved (d : Bytes) : Bool :=
  decide (fieldAt d 1 1 / 2 ≠ 0) || decide (fieldAt d 2 1 / 4 ≠ 0) || decide (fieldAt d 7 1 ≠ 0)
    || decide (fieldAt d 0x14 4 / 2 ^ 25 ≠ 0) || decide (fieldAt d 0x1E 2 ≠ 0)
    || (!chExact d && decide (chExactFmt d ≠ 0)) || (chainStages d).any stageReserved

/-- May a format stand between stages? (R237) -/
def interFmt (f : Nat) : Bool := decide (f ≤ 10) || f == 16

/-- The format that reaches stage `t`: IN_FMT, or the IFMT of the stage before it. -/
def fmtInto (d : Bytes) (l : List Stage) (t : Stage) : Nat :=
  if t.i = 0 then chInFmt d else match l[t.i - 1]? with
    | some p => if p.kind = 9 then p.conv.tfmt else p.ifmt d
    | none => 0

/-- The PRODUCT stages. -/
def products (l : List Stage) : List Stage := l.filter fun t => t.kind == 5

/-- Kinds in order: the prologue, between the products, after the last product (R239). -/
def orderOk (l : List Stage) : Bool :=
  match products l with
  | [p] =>
    (l.take p.i).all (fun t => decide (1 ≤ t.kind ∧ t.kind ≤ 4)) && tailOk (l.drop (p.i + 1))
  | [p, q] =>
    (l.take p.i).all (fun t => decide (1 ≤ t.kind ∧ t.kind ≤ 4))
      && ((l.drop (p.i + 1)).take (q.i - p.i - 1)).all (fun t => decide (t.kind ≤ 9)) && tailOk (l.drop (q.i + 1))
      && decide (p.w8 = q.w4)
  | _ => false
where
  /-- The stages after the last PRODUCT end with one or more STORE or SEND. -/
  tailOk (l : List Stage) : Bool :=
    let outs := l.dropWhile fun t => decide (t.kind ≤ 9)
    !outs.isEmpty && outs.all fun t => t.kind == 10 || t.kind == 11

/-- Does a module address lie in the cluster's own scratchpad? -/
def ownSp (g a : Nat) : Bool :=
  match place a with
  | .sp h _ _ => h == g
  | _ => false

/-- Does every sub-tile of a COLREAD operand in the cluster's own scratchpad start on 64 bytes and lie within one bank? Others are staged
(R240, R259). -/
def colreadOk (g : Nat) (c : Cluster) (t : Stage) : Bool :=
  let n := splitBytes t.wfmt 0
  let e := tileElemBytes t.wfmt 0
  !ownSp g t.a16 || (List.range (t.w4 / gangK c.gang t.wfmt * (t.w8 / gangN c.gang) * subTiles c.gang)).all fun i =>
    let a := t.a16 + i * n
    a % 64 == 0 && a / 2 ^ 20 == (a + e - 1) / 2 ^ 20

/-- The rules of one stage (R237-R244). -/
def stageOk (s : State) (g : Nat) (c : Cluster) (d : Bytes) (l : List Stage) (t : Stage) : Bool :=
  let f := fmtInto d l t
  let out := t.ifmt d
  match t.kind with
  | 1 => interFmt out && t.sub == f && decide (f ≤ 10)
  | 2 => interFmt out
  | 3 => interFmt out && interFmt t.sub
  | 4 => interFmt out
  | 5 =>
    let w := t.wfmt
    let int := intPair w f
    decide (f ≤ 10) && pairs w f && s.fmtOffered w && s.fmtOffered f
      && (out == 16 || (out == 17 && int && !bit t.flags 1 && !bit t.flags 2))
      && decide (0 < t.w4 ∧ t.w4 ≤ 65536) && t.w4 % gangK c.gang w == 0
      && decide (0 < t.w8 ∧ t.w8 ≤ 65536) && t.w8 % gangN c.gang == 0
      && (!bit t.flags 0 || ([0, 1, 2, 3, 4, 9, 10].contains w && colreadOk g c t))
      && (!bit t.flags 1 || int) && (!bit t.flags 2 || !isMx w)
      && (!(bit t.flags 1 || bit t.flags 2) || t.w12 % 64 == 0)
  | 6 => interFmt out && (t.sub == 16 || t.sub == 9 || t.sub == 10)
  | 7 => interFmt out && decide (t.sub ≤ 2)
  | 8 => interFmt out && decide (t.sub ≤ 2)
  | 9 => t.conv.legal && fieldAt t.b 1 1 == t.conv.tfmt && s.fmtOffered t.conv.tfmt
  | 10 => decide (1 ≤ t.slots ∧ t.slots ≤ 64) && decide (t.destSlot + t.slots ≤ 4096) && (!bit t.flags 0 || s.cap 8)
  | 11 => true
  | _ => false

/-- A kind, format, size, order or flag that R236 to R244 allow (R249). -/
def chainSupported (s : State) (g : Nat) (c : Cluster) (d : Bytes) : Bool :=
  let l := chainStages d
  decide (1 ≤ chStages d ∧ chStages d ≤ 8) && decide (chUnit d < c.gangs) && c.pack == 0
    && (!chExact d || [9, 10, 16].contains (chExactFmt d))
    && decide (1 ≤ chRows d ∧ chRows d ≤ 1024) && interFmt (chInFmt d) && chInStride d % 8 == 0
    && chBase d % 64 == 0 && chReserve d % 64 == 0 && decide (chReserve d ≤ 25165824)
    && decide (chAccRow d + chRows d ≤ 1024)
    && orderOk l && l.all (stageOk s g c d l)

/-! ## Addresses (R249) -/

/-- Bytes of `n` elements of a format. -/
def elemSpan (f n : Nat) : Nat := (n * elemBits f + 7) / 8
/-- What rows of elements take: `rows` rows at a stride, and for MX formats the scales after them (R192). -/
def rowRanges (f a n stride rows : Nat) : List (Nat × Nat) :=
  ((List.range rows).map fun i => (a + i * stride, elemSpan f n)) ++ (if isMx f then [(a + rows * stride, rows * (n / 32))] else [])

/-- Where the gang tiles of a PRODUCT start, and their bytes; LUT tiles follow their first codebook line's rule (R224). -/
def productSpan (c : Cluster) (t : Stage) (lut : Nat) : Nat × Nat :=
  let w := t.wfmt
  let n := t.w4 / gangK c.gang w * (t.w8 / gangN c.gang) * (subTiles c.gang * splitBytes w lut)
  if w = 11 then (t.a16 - 256 * lut, n) else (t.a16, n)

/-- The weights that are read: of LUT weights, while the code width is not known (`lut` 0), the first codebook line only (R226). -/
def productReads (c : Cluster) (t : Stage) (lut : Nat) : Nat × Nat :=
  if t.wfmt = 11 ∧ lut = 0 then (t.a16, 64) else productSpan c t lut

/-- N of the product a stage follows; K of the input in the prologue. -/
def colsAt (l : List Stage) (t : Stage) : Nat :=
  match (l.take t.i).reverse.find? (fun p => p.kind == 5) with
  | some p => p.w8
  | none => match (products l).head? with
    | some p => p.w4
    | none => 0

/-- What a chain reads: module address and length. `lut`: the code widths of its LUT products, 0 while they are not known. -/
def chainReads (g : Nat) (c : Cluster) (d : Bytes) (lut : Stage → Nat) : List (Nat × Nat) :=
  let l := chainStages d
  let k := match (products l).head? with
    | some p => p.w4
    | none => 0
  rowRanges (chInFmt d) (chInAddr d) k (chInStride d) (chRows d) ++ (l.map fun t =>
    let n := colsAt l t
    match t.kind with
    | 1 => [(t.a8, 16)]
    | 2 => if bit t.flags 0 then [(t.a8, 4 * chRows d)] else []
    | 3 => rowRanges t.sub t.a8 n t.w4 (chRows d)
    | 4 => [(t.a8, 8 * chRows d), (t.a16, 8 * n)]
    | 5 =>
      [productReads c t (lut t)] ++ (if bit t.flags 1 || bit t.flags 2 then [(spAddr g t.w12, 32)] else [])
        ++ (if bit t.flags 1 then [(spAddr g (t.w12 + 32), 8 * t.w8)] else [])
    | 6 => [(t.a8, elemSpan t.sub n)]
    | 9 => if t.conv.scale = 1 then [(t.a16, 16)] else []
    | _ => []).flatten

/-- What a STORE stage writes. -/
def storeRanges (d : Bytes) (l : List Stage) (t : Stage) : List (Nat × Nat) :=
  rowRanges (fmtInto d l t) t.a8 (colsAt l t) t.w4 (chRows d)

/-- What a chain writes within the module: module address and length. -/
def chainWrites (d : Bytes) : List (Nat × Nat) :=
  let l := chainStages d
  (l.map fun t =>
    let n := colsAt l t
    match t.kind with
    | 8 => if t.a8 = 0 then [] else [(t.a8, 8 * chRows d)]
    | 9 => (if t.a16 = 0 then [] else [(t.a16, 16)]) ++ (if bit t.flags 0 then [(t.a24, 4 * n * chRows d)] else [])
    | 10 => if bit t.flags 0 then [] else rowRanges (fmtInto d l t) (spAddr t.dest t.a8) n t.w20 (chRows d)
    | 11 => storeRanges d l t
    | _ => []).flatten

/-- What a program must not write while the chain runs: its reservation, input, operands and STORE targets (R253). -/
def chainSpans (g : Nat) (c : Cluster) (d : Bytes) : List (Nat × Nat) :=
  let l := chainStages d
  (spAddr g (chBase d), chReserve d) :: chainReads g c d (fun t => if t.wfmt = 11 then 4 else 0)
    ++ (l.filter fun t => t.kind == 11).flatMap (storeRanges d l)

/-- Is a piece of a range in bank 24 or above, in no memory at all, or in a bank that is retired? Bank power is not tested (R271, R273). -/
def State.rangeUnmapped (s : State) (p : Nat × Nat) : Bool :=
  (pieces (p.2 / 65536 + 2) p.1 p.2).any fun q => match place q.1 with
    | .unmapped => true
    | .unpopulated => true
    | .sp g b _ => (s.cluster g).bank b == .retired
    | _ => false

/-- An address in bank 24 or above, or a reservation that reaches past bank 23. -/
def chainUnmapped (s : State) (g : Nat) (c : Cluster) (d : Bytes) : Bool :=
  decide (spEnd < chBase d + chReserve d) || s.rangeUnmapped (spAddr g (chBase d), chReserve d)
    || (chainReads g c d fun _ => 0).any s.rangeUnmapped || (chainWrites d).any s.rangeUnmapped
    || (chainStages d).any fun t => (t.kind == 5 && (bit t.flags 1 || bit t.flags 2) && decide (spEnd ≤ t.w12))
        || (t.kind == 10 && decide (spEnd ≤ t.a8))

/-- Is a piece of a range outside the partition's rights, or, to be written, in a RESIDENT region? (R32, R261) -/
def State.rangeDenied (s : State) (g : Nat) (write : Bool) (p : Nat × Nat) : Bool :=
  (s.pieceSts (.mover (Fin.ofNat 128 g)) write p.1 p.2).contains St.addrDenied

/-- An address outside the partition's rights. -/
def chainDenied (s : State) (g : Nat) (c : Cluster) (d : Bytes) : Bool :=
  (chainReads g c d fun _ => 0).any (s.rangeDenied g false)
    || ((spAddr g (chBase d), chReserve d) :: chainWrites d).any (s.rangeDenied g true)

/-- Round up to 64. -/
def up64 (n : Nat) : Nat := (n + 63) / 64 * 64

/-- Bytes of `n` elements with MX scales, 1 B per 32 elements (R248). -/
def elemNeed (f n : Nat) : Nat := elemSpan f n + (if isMx f then n / 32 else 0)

/-- Is a STAT stage an ONLINE SOFTMAX that reaches the second PRODUCT through QUANT stages only? Such a stage holds no tiles (R247); a
per-tensor QUANT among them holds its own tensor (R218). -/
def streams (d : Bytes) (l : List Stage) (t : Stage) : Bool :=
  t.kind == 8 && t.sub == 0 && !t.held d &&
    match ((l.drop (t.i + 1)).dropWhile fun q => q.kind == 9).head? with
    | some q => q.kind == 5
    | none => false

/-- The reservation a chain needs (R248). -/
def chainNeed (c : Cluster) (g : Nat) (d : Bytes) : Nat :=
  let l := chainStages d
  let rows := chRows d
  let staging := ((products l).map fun p =>
    if ownSp g p.a16 then 0 else up64 (4 * (subTiles c.gang * splitBytes p.wfmt 4))).sum
  let link := match products l with
    | [_, q] =>
      let wide := match l[q.i - 1]? with
        | some p => if p.kind = 9 ∧ p.conv.widen then p.conv.wideFmt else fmtInto d l q
        | none => fmtInto d l q
      up64 (2 * elemNeed wide (rows * gangN c.gang))
    | _ => 0
  let stat := (l.map fun t =>
    if t.kind = 8 then
      if streams d l t then
        (match (products l).getLast? with
          | some q => up64 (rows * q.w8 * 4 + rows * 8)
          | none => 0)
      else up64 (elemNeed (fmtInto d l t) (rows * colsAt l t))
    else if t.kind = 9 ∧ t.conv.scale = 2 ∧ !bit t.flags 0 then up64 (rows * colsAt l t * 4)
    else 0).sum
  staging + link + stat

/-- The checks of R249, in order. -/
def chainCheck (s : State) (g : Nat) (d : Bytes) : Nat :=
  let c := s.cluster g
  if chainReserved d then St.reservedField
  else if (chainStages d).any (fun t => t.kind == 10 && decide (127 < t.dest)) then St.idRange
  else if !chainSupported s g c d then St.unsupported
  else if chainUnmapped s g c d then St.addrUnmapped
  else if chainDenied s g c d then St.addrDenied
  else if chReserve d < chainNeed c g d then St.chainReserve
  else St.ok

/-- The static scale records of a chain's stages, by stage, as the step's start found them (R220). -/
def State.chainStatics (s : State) (g : Nat) (d : Bytes) : Tab Bytes :=
  ((chainStages d).filter fun t => t.kind == 9 && t.conv.scale == 1).map fun t => (t.i, (s.atStart g).bytesAt t.a16 16)

/-- Does every static record of a chain obey R220? -/
def staticsOk (d : Bytes) (r : Tab Bytes) : Bool :=
  (chainStages d).all fun t => t.kind != 9 || t.conv.scale != 1 || staticOk (Tab.get [] r t.i) t.conv

/-! ## Rows in flight -/

/-- Rows between two stages: the format, the elements, and for MX formats each row's block scales. -/
structure Rows where
  fmt : Nat
  elems : List (List Fv)
  scales : List (List Nat) := []

/-- The value of element `k` of row `i`, in FP32: only INT32 has values that need rounding (R241). -/
def Rows.val (r : Rows) (i k : Nat) : Fv :=
  let x := (r.elems.getD i []).getD k (.fin false 0 0)
  if isMx r.fmt then x.mul (e8m0 ((r.scales.getD i []).getD (k / 32) 0)) else if r.fmt = 17 then Fmt.fp32.round x else x

/-- All values of row `i`. -/
def Rows.row (r : Rows) (i : Nat) : List Fv := (List.range (r.elems.getD i []).length).map (r.val i)

/-- Number of columns. -/
def Rows.cols (r : Rows) : Nat := (r.elems.getD 0 []).length

/-- Cut a list into pieces of `n`. -/
def cut {α : Type} (n : Nat) : Nat → List α → List (List α)
  | 0, _ => []
  | k + 1, l => if l.isEmpty then [] else l.take n :: cut n k (l.drop n)

/-- Round rows of FP32 values to a format: to nearest even, an overflow giving the largest finite value (R237); MX formats by
blocks of 32 (R213). -/
def roundRows (f : Nat) (m : List (List Fv)) : Rows :=
  if isMx f then
    let q := m.map fun r => (cut 32 (r.length / 32 + 1) r).map fun b => mxBlock f (fun _ => none) b
    { fmt := f, elems := q.map fun bs => (bs.map fun b => b.2.map (elemValue f)).flatten, scales := q.map fun bs => bs.map (·.1) }
  else { fmt := f, elems := m.map fun r => r.map fun x => elemValue f (roundTo f x) }

/-- Read rows from memory (R192). -/
def State.readRows (s : State) (f a stride n rows : Nat) : Rows :=
  { fmt := f
    elems := (List.range rows).map fun i =>
      let b := s.bytesAt (a + i * stride) (elemSpan f n)
      (List.range n).map fun k => elemAt f b k
    scales := if isMx f then (List.range rows).map fun i =>
      (s.bytesAt (a + rows * stride + i * (n / 32)) (n / 32)).map (·.toNat) else [] }

/-- The code of an element. -/
def encodeElem (f : Nat) (x : Fv) : Nat :=
  match fmtOf f with
  | some m => m.encode x
  | none => unsigned (elemBits f) x.toIntEven

/-! ## Products (R240) -/

/-- A PRODUCT stage's tile for N block `nb` and K group `kc`. -/
def State.chainTile (s : State) (c : Cluster) (t : Stage) (lut nb kc : Nat) : Tile :=
  let w := t.wfmt
  let n := splitBytes w lut
  let base := (productSpan c t lut).1 + (nb * (t.w4 / gangK c.gang w) + kc) * (subTiles c.gang * n)
  { fmt := w, lutBits := lut
    data := ((List.range (subTiles c.gang)).map fun i =>
      let d := s.bytesAt (base + i * n) n
      if bit t.flags 0 then
        let e := elemBits w / 8
        columnRead e (d.take (1024 * e)) ++ d.drop (1024 * e)
      else d).flatten }

/-- A group of a product: where its activations start, the tile, and the K lanes it uses. -/
structure Group where
  k0 : Nat
  tile : Tile
  kBase : Nat
  kCount : Nat
deriving DecidableEq, Repr

/-- Accumulate one output element over its groups, from its activation row (R181, R240). -/
def productCell (c : Cluster) (int : Bool) (a sa : Nat → Fv) (gcol : Nat) : List Group → Bool → Nat → Nat
  | [], _, old => old
  | q :: l, first, old =>
    let o : OutCell := { mxu := 0, row := 0, col := 0, gcol := gcol, kBase := q.kBase, kCount := q.kCount, aBase := 0 }
    let v := cellSum q.tile c.gang (fun j => a (q.k0 + j)) (fun b => sa (q.k0 / 32 + b)) o
    productCell c int a sa gcol l false (accumulate int (!first) old v)

/-- The activations of row `i`. -/
def Rows.act (x : Rows) (i k : Nat) : Fv := (x.elems.getD i []).getD k (.fin false 0 0)
/-- Their scales by block. -/
def Rows.scale (x : Rows) (i b : Nat) : Fv := e8m0 ((x.scales.getD i []).getD b 127)

/-- The accumulator codes of every row over the groups of one N block. -/
def productBlock (c : Cluster) (int : Bool) (qs : List Group) (x : Rows) : List (List Nat) :=
  (List.range x.elems.length).map fun i =>
    (List.range (gangN c.gang)).map fun n => productCell c int (x.act i) (x.scale i) n qs true 0

/-- Columns gated as a whole over the groups of one N block (R191). -/
def gatedBlock (c : Cluster) (u : Nat) (qs : List Group) (x : Rows) : Nat :=
  ((List.range x.elems.length).map fun i => (qs.map fun q => gatedIn q.tile c.gang 0 (c.members u) fun j =>
    if q.kBase ≤ j ∧ j < q.kBase + q.kCount then x.act i (q.k0 + (j - q.kBase)) else .fin false 0 0).sum).sum

/-- What the row-sum lane accumulates over the groups, from an activation row (R180, R181, R240). -/
def laneSum (int mx : Bool) (a sa : Nat → Fv) : List Group → Bool → Nat → Nat
  | [], _, old => old
  | q :: l, first, old =>
    let one : Fv := .fin false 1 0
    let sum := if mx then
        (List.range (q.kCount / 32)).foldl (fun s b =>
          s.add ((dotExact ((List.range 32).map fun k => (one, a (q.k0 + b * 32 + k)))).mul (sa (q.k0 / 32 + b)))) (.fin false 0 0)
      else dotExact ((List.range q.kCount).map fun k => (one, a (q.k0 + k)))
    laneSum int mx a sa l false (accumulate int (!first) old sum)

/-- The row sums of every row over the groups of one N block. -/
def laneBlock (int : Bool) (qs : List Group) (x : Rows) : List Nat :=
  (List.range x.elems.length).map fun i => laneSum int (isMx x.fmt) (x.act i) (x.scale i) qs true 0

/-- The activation zero point of an ASYM product (R221, R240). -/
def State.zeroPoint (s : State) (g : Nat) (t : Stage) : Int := signed 32 (s.natAt (spAddr g t.w12 + 4) 4)

/-- From an accumulator code to its FP32 value: zero points, with `k` the reduction length and `rs` the row sum (R221); conversion;
scales (R240). -/
def State.productValue (s : State) (g : Nat) (t : Stage) (int : Bool) (k rs col acc : Nat) : Fv :=
  let aux := spAddr g t.w12
  let corr :=
    if bit t.flags 1 then
      let za := s.zeroPoint g t
      let cs := signed 32 (s.natAt (aux + 32 + 8 * col) 4)
      let zw := signed 32 (s.natAt (aux + 32 + 8 * col + 4) 4)
      unsigned 32 (signed 32 acc - zw * signed 32 rs - za * cs + (k : Int) * za * zw)
    else acc
  let v := if int then Fmt.fp32.round (Fv.ofInt (signed 32 corr)) else f32 corr
  if bit t.flags 2 then f32Mul (f32Mul v (f32 (s.natAt aux 4))) (f32 (s.natAt (aux + 16) 4)) else v

/-! ## Row statistics (R245-R247) -/

/-- The sum in FP32 in order. -/
def f32Sum (l : List Fv) : Fv := l.foldl f32Add (.fin false 0 0)
/-- The largest value; a NaN makes it a NaN. -/
def f32Max (m : Fv) (l : List Fv) : Fv :=
  l.foldl (fun a x => match a, x with
    | .nan, _ => .nan
    | _, .nan => .nan
    | a, x => if x.gt a then x else a) m

/-- 1 ÷ sqrt(v + eps). -/
def rstdOf (v eps : Fv) : Fv := f32Div (.fin false 1 0) (f32Sqrt (f32Add v eps))
/-- The square. -/
def f32Sq (x : Fv) : Fv := f32Mul x x
/-- Minus infinity, the maximum of no value. -/
def minusInf : Fv := .inf true

/-- Merge a tile into an online softmax: m and l (R247). -/
def softmaxTile (p : Fv × Fv) (x : List Fv) : Fv × Fv :=
  let m := f32Max p.1 x
  (m, f32Add (f32Mul p.2 (expF (f32Sub p.1 m))) (f32Sum (x.map fun v => expF (f32Sub v m))))

/-- m and l of a row before and after each of its tiles. -/
def softmaxSteps : Fv × Fv → List (List Fv) → List ((Fv × Fv) × (Fv × Fv))
  | _, [] => []
  | p, x :: l => (p, softmaxTile p x) :: softmaxSteps (softmaxTile p x) l

/-- Merge a tile into an online mean: count, mean, squared deviations (the pairwise update, R247). -/
def layerTile (p : Nat × Fv × Fv) (x : List Fv) : Nat × Fv × Fv :=
  let nb := x.length
  let mb := f32Div (f32Sum x) (Fv.ofInt nb)
  let qb := f32Sum (x.map fun v => f32Sq (f32Sub v mb))
  let (na, ma, qa) := p
  if na = 0 then (nb, mb, qb)
  else
    let n := na + nb
    let del := f32Sub mb ma
    (n, f32Add ma (f32Mul del (f32Div (Fv.ofInt nb) (Fv.ofInt n))),
      f32Add (f32Add qa qb) (f32Mul (f32Sq del) (f32Div (f32Mul (Fv.ofInt na) (Fv.ofInt nb)) (Fv.ofInt n))))

/-- The two values of a row's record: m and l, mean and rstd, 0 and rstd (R245). `w`: the tile width. -/
def rowStat (sub : Nat) (held : Bool) (w : Nat) (eps : Fv) (x : List Fv) : Fv × Fv :=
  let n := Fv.ofInt x.length
  let tiles := cut w (x.length / max w 1 + 1) x
  match sub with
  | 0 =>
    if held then
      let m := f32Max minusInf x
      (m, f32Sum (x.map fun v => expF (f32Sub v m)))
    else tiles.foldl softmaxTile (minusInf, .fin false 0 0)
  | 1 =>
    if held then
      let m := f32Div (f32Sum x) n
      (m, rstdOf (f32Div (f32Sum (x.map fun v => f32Sq (f32Sub v m))) n) eps)
    else
      let (k, m, q) := tiles.foldl layerTile (0, .fin false 0 0, .fin false 0 0)
      (m, rstdOf (f32Div q (Fv.ofInt k)) eps)
  | _ => (.fin false 0 0, rstdOf (f32Div (f32Sum (x.map f32Sq)) n) eps)

/-- Apply a row's statistic (R245). -/
def applyStat (sub : Nat) (p : Fv × Fv) (x : Fv) : Fv :=
  match sub with
  | 0 => f32Div (expF (f32Sub x p.1)) p.2
  | 1 => f32Mul (f32Sub x p.1) p.2
  | _ => f32Mul x p.2

/-! ## QUANT (R209-R232) -/

/-- What a quantise stage makes of a tensor. -/
structure Quantised where
  rows : Rows
  /-- Elements saturated (R212, R215, R230). -/
  sat : Nat := 0
  nonfinite : Bool := false
  record : Bytes := []

/-- Convert a tensor (R211-R217, R228, R229, R232). `static`: the static record; `n`: its columns. -/
def quantise (w : ConvWord) (widened : Bool) (seed : Nat) (static : Bytes) (n : Nat) (m : List (List Fv)) : Quantised :=
  let f := if widened then w.wideFmt else w.tfmt
  -- a widened run rounds to nearest even (R232)
  let rnd (i k : Nat) : Option Nat := if w.stochastic && !widened then some (generator seed w.stream (i * n + k) / 65536) else none
  if w.scale = 3 then
    let q := m.zipIdx.map fun r => (cut 32 (r.1.length / 32 + 1) r.1).zipIdx.map fun b =>
      mxBlock f (fun k => rnd r.2 (b.2 * 32 + k)) b.1
    { rows := { fmt := f, elems := q.map fun bs => (bs.map fun b => b.2.map (elemValue f)).flatten
                scales := q.map fun bs => bs.map (·.1) }
      record := leBytes 4 0x3F800000 ++ leBytes 4 0 ++ leBytes 4 0 ++ leBytes 1 f ++ leBytes 1 (b2n widened) ++ leBytes 2 0 }
  else
    let am := amax m.flatten
    let sc : Fv := if w.scale = 1 then f32 (fieldAt static 0 4) else if w.scale = 2 then tensorScale f w.pow2 am else .fin false 1 0
    let z : Int := if w.asym then signed 32 (fieldAt static 4 4) else 0
    let bad := match sc with
      | .nan => w.scale == 2
      | _ => false
    let one (i k : Nat) (x : Fv) : Nat × Bool :=
      if bad then ((narrow f w.nonsat none 0 .nan).1, true)
      else narrow f w.nonsat (rnd i k) z (if w.scale = 0 then x else f32Div x sc)
    let q := m.zipIdx.map fun r => r.1.zipIdx.map fun x => one r.2 x.2 x.1
    { rows := { fmt := f, elems := q.map fun r => r.map fun p => elemValue f p.1 }
      sat := (q.map fun r => (r.filter (·.2)).length).sum
      nonfinite := bad
      record := leBytes 4 (toF32 sc) ++ leBytes 4 (unsigned 32 z)
        ++ (if w.scale = 2 then leBytes 4 (toF32 am) else if w.scale = 1 then (static.drop 8).take 4 else leBytes 4 0)
        ++ leBytes 1 f ++ leBytes 1 (b2n widened + 2 * b2n bad) ++ leBytes 2 0 }

end Sys2Proof.Machine
end

