-- ==== Sys2Proof/Machine/Chain.lean ====
section
/-! DEFINITION. Running a fused chain (spec/10 R235-R253): its stages in order, its sends and stores; CHAIN_GO and
CHAIN_COMPLETE. -/

namespace Sys2Proof.Machine

/-- What a chain has made so far. -/
structure ChainOut where
  rows : Rows
  /-- What it writes, in order. -/
  parts : List ChainPart := []
  /-- Saturations by stage. -/
  sats : List StageSat := []
  nonfinite : Nat := 0
  /-- Accumulator codes and row sums of the last N block. -/
  acc : List (List Nat) := []
  sums : List Nat := []
  cycles : Nat := 0
  gated : Nat := 0

/-- What a chain runs in: the state, the cluster, the descriptor, the static records, the seed, the address of its chain.go, and the
stages that run widened. -/
structure ChainCtx where
  s : State
  g : Nat
  d : Bytes
  statics : Tab Bytes
  seed : Nat
  pc : Nat
  widened : List StageKey

/-- The cluster of a chain. -/
def ChainCtx.c (x : ChainCtx) : Cluster := x.s.cluster x.g

/-- The code width of a LUT product's tiles, from the first codebook line (R224); 0 for other weights. -/
def State.lutWidth (s : State) (t : Stage) : Nat := if t.wfmt = 11 then bits (s.natAt (t.a16 + 0x20) 1) 0 2 + 1 else 0

/-- Apply an elementwise stage. -/
def mapRows (f : Nat) (r : Rows) (h : Nat → Nat → Fv → Fv) : Rows :=
  roundRows f ((List.range r.elems.length).map fun i => (r.row i).zipIdx.map fun p => h i p.2 p.1)

/-- The elementwise stages (R241). -/
def ChainCtx.elementwise (x : ChainCtx) (t : Stage) (r : Rows) : Rows :=
  let s := x.s
  let out := t.ifmt x.d
  match t.kind with
  | 1 =>
    let sc := f32 (s.natAt t.a8 4)
    let z := signed 32 (s.natAt (t.a8 + 4) 4)
    mapRows out r fun _ _ v => f32Mul (if isInt r.fmt ∧ z ≠ 0 then Fmt.fp32.round (v.sub (Fv.ofInt z)) else v) sc
  | 2 => mapRows out r fun i _ v => f32Mul v (if bit t.flags 0 then f32 (s.natAt (t.a8 + 4 * i) 4) else f32 t.w4)
  | 3 =>
    let y := s.readRows t.sub t.a8 t.w4 r.cols (chRows x.d)
    mapRows out r fun i k v => f32Add v (y.val i k)
  | 4 =>
    mapRows out r fun i k v =>
      f32Add (f32Mul (f32Mul (f32Sub v (f32 (s.natAt (t.a8 + 8 * i) 4))) (f32 (s.natAt (t.a8 + 8 * i + 4) 4)))
        (f32 (s.natAt (t.a16 + 8 * k) 4))) (f32 (s.natAt (t.a16 + 8 * k + 4) 4))
  | 6 =>
    let b := s.bytesAt t.a8 (elemSpan t.sub r.cols)
    mapRows out r fun _ k v => f32Add v (elemAt t.sub b k)
  | _ => mapRows out r fun _ _ v => if t.sub = 0 then geluF v else if t.sub = 1 then siluF v else expF v

/-- The groups of a product over the whole K, for N block `nb`. -/
def ChainCtx.groups (x : ChainCtx) (t : Stage) (nb : Nat) : List Group :=
  let k := gangK x.c.gang t.wfmt
  (List.range (t.w4 / k)).map fun kc =>
    { k0 := kc * k, tile := x.s.chainTile x.c t (x.s.lutWidth t) nb kc, kBase := 0, kCount := k }

/-- Row cycles of a product: one for each row and each of its tiles. -/
def ChainCtx.cyclesOf (x : ChainCtx) (t : Stage) : Nat :=
  chRows x.d * (t.w4 / gangK x.c.gang t.wfmt) * (t.w8 / gangN x.c.gang)

/-- A PRODUCT over its whole K (R240). Its output is rounded like any stage's (R237), but for INT32. -/
def ChainCtx.product (x : ChainCtx) (t : Stage) (o : ChainOut) : ChainOut :=
  let int := intPair t.wfmt o.rows.fmt
  let w := gangN x.c.gang
  let out := t.ifmt x.d
  let sums := laneBlock int (x.groups t 0) o.rows
  let blocks := (List.range (t.w8 / w)).map fun nb =>
    let qs := x.groups t nb
    (productBlock x.c int qs o.rows, gatedBlock x.c (chUnit x.d) qs o.rows)
  let vals := (List.range o.rows.elems.length).map fun i =>
    ((blocks.map (·.1)).zipIdx.map fun b => ((b.1.getD i []).zipIdx.map fun a =>
      if out = 17 then Fv.ofInt (signed 32 a.1)
      else x.s.productValue x.g t int t.w4 (sums.getD i 0) (b.2 * w + a.2) a.1)).flatten
  { o with
    rows := if out = 17 then { fmt := 17, elems := vals } else roundRows out vals
    acc := (blocks.map (·.1)).getLastD [], sums := sums
    cycles := o.cycles + x.cyclesOf t, gated := o.gated + (blocks.map (·.2)).sum }

/-- The records of the rows' statistics, 8 bytes each (R245); none for a null address. -/
def statParts (a : Nat) (ps : List (Fv × Fv)) : List ChainPart :=
  if a = 0 then [] else ps.zipIdx.map fun p => .store (a + 8 * p.2) (leBytes 4 (toF32 p.1.1) ++ leBytes 4 (toF32 p.1.2))

/-- A STAT stage that holds its tiles (R246, R247). -/
def ChainCtx.stat (x : ChainCtx) (t : Stage) (o : ChainOut) : ChainOut :=
  let ps := (List.range o.rows.elems.length).map fun i =>
    rowStat t.sub (t.held x.d) (gangN x.c.gang) (f32 t.w4) (o.rows.row i)
  { o with
    rows := mapRows (t.ifmt x.d) o.rows fun i _ v => applyStat t.sub (ps.getD i (.nan, .nan)) v
    parts := o.parts ++ statParts t.a8 ps }

/-- A QUANT stage as the saturation counts and the widening know it (R230). -/
def ChainCtx.key (x : ChainCtx) (t : Stage) : StageKey := { pc := x.pc, stage := t.i, word := t.w4, limit := t.w8 }

/-- A QUANT stage (R209-R232): for SCALE 0, 1 and 2 its saturations count. A record address of 0 keeps no record. -/
def ChainCtx.quantStage (x : ChainCtx) (t : Stage) (o : ChainOut) : ChainOut :=
  let q := quantise t.conv (t.conv.widen && x.widened.contains (x.key t)) x.seed (Tab.get [] x.statics t.i) o.rows.cols
    ((List.range o.rows.elems.length).map fun i => o.rows.row i)
  { o with
    rows := q.rows
    parts := if t.a16 = 0 then o.parts else o.parts ++ [.store t.a16 q.record]
    sats := o.sats ++ [{ key := x.key t, count := if t.conv.scale = 3 then 0 else q.sat }]
    nonfinite := o.nonfinite + b2n q.nonfinite }

/-- The groups of key block `b` of a product behind an online softmax: one gang width of its K (R247). -/
def ChainCtx.keyGroups (x : ChainCtx) (p : Stage) (b nb : Nat) : List Group :=
  let w := gangN x.c.gang
  let gk := gangK x.c.gang p.wfmt
  let lut := x.s.lutWidth p
  if gk ≤ w then (List.range (w / gk)).map fun j =>
    { k0 := b * w + j * gk, tile := x.s.chainTile x.c p lut nb (b * (w / gk) + j), kBase := 0, kCount := gk }
  else [{ k0 := b * w, tile := x.s.chainTile x.c p lut nb (b * w / gk), kBase := b * w % gk, kCount := w }]

/-- A value of a partial product. R221 corrects a whole product: where the activations' zero point is not 0 the spec does not say what one
key block's correction is, and the value is free (log 61). -/
def ChainCtx.partial_ (x : ChainCtx) (p : Stage) (int : Bool) (rs b i col acc : Nat) : Fv :=
  if bit p.flags 1 && x.s.zeroPoint x.g p != 0 then
    f32 (Config.freeCell x.s.free ((b * chRows x.d + i) * p.w8 + col) % 2 ^ 32)
  else x.s.productValue x.g p int p.w4 rs col acc

/-- The partial product of key block `b`: every row's values, and the accumulator codes and row sums of its last N block. -/
def ChainCtx.keyBlock (x : ChainCtx) (p : Stage) (e : Rows) (b : Nat) : List (List Fv) × List (List Nat) × List Nat :=
  let w := gangN x.c.gang
  let int := intPair p.wfmt e.fmt
  let sums := laneBlock int (x.keyGroups p b 0) e
  let blocks := (List.range (p.w8 / w)).map fun nb => productBlock x.c int (x.keyGroups p b nb) e
  ((List.range e.elems.length).map fun i => (blocks.zipIdx.map fun q => ((q.1.getD i []).zipIdx.map fun a =>
      x.partial_ p int (sums.getD i 0) b i (q.2 * w + a.2) a.1)).flatten,
    blocks.getLastD [], sums)

/-- The running output of a row (R247): O := O × EXP(m − m_new) + partial, key block by key block. -/
def runningOutput : List Fv → List (((Fv × Fv) × (Fv × Fv)) × List Fv) → List Fv
  | o, [] => o
  | o, ((p, q), part) :: l =>
    let k := expF (f32Sub p.1 q.1)
    runningOutput (part.zipIdx.map fun v => f32Add (f32Mul (o.getD v.2 (.fin false 0 0)) k) v.1) l

/-- An online softmax through the second PRODUCT (R247): the tiles EXP(x − m_new) pass through the QUANT stages `qs`, the product `p` makes
a partial result of each, and the last pass divides by l. -/
def ChainCtx.online (x : ChainCtx) (t p : Stage) (qs : List Stage) (o : ChainOut) : ChainOut :=
  let w := gangN x.c.gang
  let rows := List.range o.rows.elems.length
  let zero : Fv × Fv := (minusInf, .fin false 0 0)
  let tiles := rows.map fun i => cut w (o.rows.cols / w + 1) (o.rows.row i)
  let steps := tiles.map (softmaxSteps zero)
  let e := roundRows (t.ifmt x.d) ((tiles.zip steps).map fun r => (r.1.zip r.2).flatMap fun q => q.1.map fun v => expF (f32Sub v q.2.2.1))
  let o := qs.foldl (fun o q => x.quantStage q o) { o with rows := e }
  let blocks := (List.range (p.w4 / w)).map (x.keyBlock p o.rows)
  let last := steps.map fun l => (l.getLastD (zero, zero)).2
  let out := steps.zipIdx.map fun r =>
    (runningOutput [] (r.1.zip (blocks.map fun b => b.1.getD r.2 []))).map fun v => f32Div v (last.getD r.2 (.nan, .nan)).2
  { o with
    rows := roundRows (p.ifmt x.d) out
    parts := o.parts ++ statParts t.a8 last
    acc := (blocks.map (·.2.1)).getLastD [], sums := (blocks.map (·.2.2)).getLastD []
    cycles := o.cycles + x.cyclesOf p
    gated := o.gated + ((List.range (p.w4 / w)).flatMap fun b => (List.range (p.w8 / w)).map fun nb =>
      gatedBlock x.c (chUnit x.d) (x.keyGroups p b nb) o.rows).sum }

/-- The bytes of columns `k0` to `k0 + n - 1` of a row. -/
def Rows.bytes (r : Rows) (i k0 n : Nat) : Bytes :=
  packCodes (elemBits r.fmt) ((((r.elems.getD i []).drop k0).take n).map (encodeElem r.fmt))
/-- The scale bytes of those columns. -/
def Rows.scaleBytes (r : Rows) (i k0 n : Nat) : Bytes := (((r.scales.getD i []).drop (k0 / 32)).take (n / 32)).map byteOf

/-- The rows of N block `b`, `w` columns wide, where a STORE or a SEND puts them: address and bytes (R192, R244). -/
def Rows.block (r : Rows) (a stride w b : Nat) : List (Nat × Bytes) :=
  let n := r.elems.length
  ((List.range n).map fun i => (a + i * stride + elemSpan r.fmt (b * w), r.bytes i (b * w) w))
    ++ (if isMx r.fmt then (List.range n).map fun i =>
      (a + n * stride + i * (r.cols / 32) + b * w / 32, r.scaleBytes i (b * w) w) else [])

/-- What a STORE or SEND stage writes of N block `b` (R244). -/
def ChainCtx.outBlock (x : ChainCtx) (r : Rows) (b : Nat) (t : Stage) : List ChainPart :=
  let w := gangN x.c.gang
  if t.kind = 11 then (r.block t.a8 t.w4 w b).map fun p => .store p.1 p.2
  else [.send { span := if bit t.flags 0 then some (fieldAt t.b 6 1) else none
                cluster := t.dest, rows := r.block t.a8 t.w20 w b
                slot := t.destSlot + b % t.slots, count := b / t.slots % 256 }]

/-- What the last stages write: block by block, each as soon as its last stage has produced it (R244). -/
def ChainCtx.outputs (x : ChainCtx) (outs : List Stage) (r : Rows) : List ChainPart :=
  (List.range (r.cols / gangN x.c.gang)).flatMap fun b => outs.flatMap (x.outBlock r b)

/-- The stages in order; the STORE and SEND stages end them. -/
def ChainCtx.run (x : ChainCtx) : Nat → List Stage → ChainOut → ChainOut
  | 0, _, o => o
  | _, [], o => o
  | k + 1, t :: l, o =>
    match t.kind with
    | 5 => x.run k l (x.product t o)
    | 8 =>
      if streams x.d (chainStages x.d) t then
        let qs := l.takeWhile fun q => q.kind == 9
        match l.drop qs.length with
        | p :: rest => x.run k rest (x.online t p qs o)
        | [] => o
      else x.run k l (x.stat t o)
    | 9 => x.run k l (x.quantStage t o)
    | 10 => { o with parts := o.parts ++ x.outputs (t :: l) o.rows }
    | 11 => { o with parts := o.parts ++ x.outputs (t :: l) o.rows }
    | _ => x.run k l { o with rows := x.elementwise t o.rows }

/-! ## In the machine -/

/-- Check every range a chain reads: the first that fails decides. -/
def State.checkReads (s : State) (g : Nat) : List (Nat × Nat) → Nat × State
  | [] => (St.ok, s)
  | (a, n) :: l =>
    let (st, s) := s.checkRead (.mover (Fin.ofNat 128 g)) (some g) a n
    if st = St.ok then s.checkReads g l else (st, s)

/-- Add the counts of an attempt (R230). -/
def addSats (l new : List StageSat) : List StageSat :=
  new.foldl (fun l q =>
    if l.any (fun p => p.key == q.key) then l.map fun p => if p.key = q.key then { p with count := p.count + q.count } else p
    else l ++ [q]) l

/-- Put the last block's accumulator codes and row sums into the gang's accumulator rows (R240). -/
def Cluster.setBlock (c : Cluster) (u row : Nat) (m : List (List Nat)) (sums : List Nat) : Cluster :=
  let c := m.zipIdx.foldl (fun c r => r.1.zipIdx.foldl (fun c a => c.setAcc ((c.members u).getD (a.2 / 32) 0) (row + r.2) (a.2 % 32) a.1) c) c
  sums.zipIdx.foldl (fun c v => c.setSum (c.lead u) (row + v.2) v.1) c

/-- The chain in progress at a gang. -/
def Cluster.chainAt (c : Cluster) (u : Nat) : Option Chain :=
  match (c.gangAt (c.lead u)).active with
  | [⟨.chain k, _, _⟩] => some k
  | _ => none

/-- Replace the chain in progress at a gang. -/
def Cluster.setChain (c : Cluster) (u : Nat) (k : Chain) : Cluster :=
  let x := c.gangAt (c.lead u)
  c.setGang (c.lead u) { x with active := x.active.map fun a => { a with op := .chain k } }

/-- Has no other gang had an operation in progress beside the chain? -/
def Cluster.chainAlone (c : Cluster) (u : Nat) : Bool := (c.gangAt (c.lead u)).active.all (·.alone)

/-- What a chain runs in at a state. -/
def State.chainCtx (s : State) (g : Nat) (k : Chain) : ChainCtx :=
  let t := s.taskOf g
  { s := s, g := g, d := k.desc, statics := k.statics, pc := k.pc, seed := (t.map (·.seed)).getD 0, widened := (t.map (·.widened)).getD [] }

/-- What a chain computes from the memory and registers of a state (R235-R247). -/
def State.chainOut (s : State) (g : Nat) (k : Chain) : ChainOut :=
  let l := chainStages k.desc
  let kk := match (products l).head? with
    | some p => p.w4
    | none => 0
  (s.chainCtx g k).run (l.length + 1) l
    { rows := s.readRows (chInFmt k.desc) (chInAddr k.desc) (chInStride k.desc) kk (chRows k.desc) }

/-- The code with which a chain's accesses fail before it runs: LUT codes below address 0 (R226), a reservation in a bank that is off
(R273). -/
def State.chainStart (s : State) (g : Nat) (d : Bytes) : Nat :=
  if (products (chainStages d)).any (fun p => decide (p.a16 < 256 * s.lutWidth p)) then St.addrUnmapped
  else s.accessSt (.mover (Fin.ofNat 128 g)) true (spAddr g (chBase d)) (chainNeed (s.cluster g) g d)

/-- Run the chain in progress at gang `u` once: its reads are checked, its output is ready to be written; counters, accumulators and row
sums change (R204, R230, R234, R240). -/
def State.chainRun (s : State) (g u : Nat) (k : Chain) : State :=
  if k.ran then s else
  let st0 := s.chainStart g k.desc
  let (st, s) := if st0 = St.ok then s.checkReads g (chainReads g (s.cluster g) k.desc s.lutWidth) else (st0, s)
  if st ≠ St.ok then s.mxuFault g u st
  else
    let o := s.chainOut g k
    let sat := (o.sats.map (·.count)).sum
    let s := s.used.modTask g fun t => { t with sat := addSats t.sat o.sats }
    let s := s.countRows g o.cycles ((s.cluster g).chainAlone u)
    s.modCl g fun c =>
      let c := (c.setBlock u (chAccRow k.desc) o.acc o.sums).setChain u { k with ran := true, parts := o.parts }
      let c := c.setGang (c.lead u) { c.gangAt (c.lead u) with tile0 := none, tile1 := none }
      { c with
        cvSat := satAdd (2 ^ 64 - 1) c.cvSat sat, satNow := c.satNow + sat
        cvNonfinite := satAdd 65535 c.cvNonfinite o.nonfinite
        gatedColumns := satAdd (2 ^ 64 - 1) c.gatedColumns o.gated }

/-- The bytes a chain writes: undefined ones once it is tainted (R253). -/
def State.chainBytes (s : State) (taint : Bool) (b : Bytes) : Bytes :=
  if taint then (List.range b.length).map (Config.freeByte s.free) else b

/-- Perform a chain's writes up to its next SEND: the code of the first that fails, else ST_OK, and what is left (R244, R261, R273). -/
def State.chainWrite (s : State) (g : Nat) (taint : Bool) : List ChainPart → Nat × List ChainPart × State
  | [] => (St.ok, [], s)
  | .send m :: l => (St.ok, .send m :: l, s)
  | .store a b :: l =>
    let (st, s) := s.used.writeRange (.mover (Fin.ofNat 128 g)) false a (s.chainBytes taint b)
    if st = St.ok then s.chainWrite g taint l else (st, l, s)

/-- The chain of a gang writes what it can before its next SEND. -/
def State.chainAdvance (s : State) (g u : Nat) (k : Chain) : State :=
  let (st, l, s) := s.chainWrite g k.tainted k.parts
  if st ≠ St.ok then s.mxuFault g u st else s.modCl g fun c => c.setChain u { k with parts := l }

/-- Make the pieces of a range that lie in no RESIDENT region undefined. -/
def State.undefineFree (s : State) (a n : Nat) : State :=
  (pieces (n / 65536 + 2) a n).foldl (fun s p => match place p.1 with
    | .sp g b off => if (s.cluster g).isResident (b * 2 ^ 20 + off) then s else s.undefine p.1 (p.1 + p.2)
    | _ => s.undefine p.1 (p.1 + p.2)) s

/-- After a chain its reservation and a T1 hold area are undefined (R248), and all that a tainted one wrote (R253). -/
def State.chainScratch (s : State) (g : Nat) (k : Chain) : State :=
  let d := k.desc
  let s := s.undefineFree (spAddr g (chBase d)) (chReserve d)
  let s := s.modCl g fun c => c.dirty (chBase d) (chReserve d)
  let s := (chainStages d).foldl (fun s t =>
    if t.kind = 9 ∧ bit t.flags 0 then s.undefine t.a24 (t.a24 + 4 * colsAt (chainStages d) t * chRows d) else s) s
  if k.tainted then (chainWrites d).foldl (fun s p => s.undefineFree p.1 p.2) s else s

/-- CHAIN_GO (R197, R235, R249): admits the chain, or returns the code of the first check that fails. A static record that breaks
R220 ends the step. -/
def execChainGo (g : Fin 128) (f7 : Fin 128) (rd rs1 rs2 : Fin 32) (s : State) : Out :=
  .next (s.xlz g f7 [] true fun s =>
    let c := s.cluster g
    let a := c.core.reg rs1
    let v := c.core.reg rs2
    match (s.descCheck g a).orElse fun _ => slotChecks s g v true with
    | some st => s.xlzOperand g st
    | none =>
      let ((st0, h), s) := s.fetchDesc (.steward g) (some g.val) a 32
      let ((st, d), s) := s.fetchDesc (.steward g) (some g.val) a (32 + 32 * min (fieldAt h 0 1) 8)
      if st0 ≠ St.ok ∨ st ≠ St.ok then s.accessFault g 5 a (if st0 ≠ St.ok then st0 else st)
      else
        let code := chainCheck s g d
        if code ≠ St.ok then s.modCl g fun c => c.retireWith rd code
        else if !staticsOk d (s.chainStatics g d) then s.stepEnds g St.unsupported
        else
          let m := c.lead (chUnit d)
          if 8 ≤ (c.gangAt m).queue.length then s.stall g .queueFull
          else
            s.modCl g fun c =>
              let x := c.gangAt m
              let k : Chain := { desc := d, slot := bits v 0 12, pc := c.core.pc, statics := s.chainStatics g d
                                 spans := chainSpans g c d }
              (c.setGang m { x with queue := x.queue ++ [.chain k] }).retireWith rd St.ok)

/-- CHAIN_COMPLETE (R194, R235): after every stage has performed its accesses, the completion slot is posted. -/
def execChainComplete (g : Fin 128) (u : Fin 4) (s : State) : Out :=
  .next (match (s.cluster g).chainAt u with
    | some k =>
      let s := s.chainRun g u k
      match (s.cluster g).chainAt u with
      | some k =>
        let s := s.chainAdvance g u k
        match (s.cluster g).chainAt u with
        | some k =>
          if k.parts.isEmpty then
            (s.chainScratch g k).modCl g fun c =>
              (c.setGang (c.lead u) { c.gangAt (c.lead u) with active := [] }).postSlot k.slot
          else s
        | none => s
      | none => s
    | none => s)

/-- Deliver the next block of a SEND within the module (R244): its bytes are written, and the destination slot is given; while
the slot stays FULL the chain waits. `l`: what follows the block. -/
def State.sendLocal (s : State) (g u : Nat) (k : Chain) (b : ChainSend) (l : List ChainPart) : State :=
  let (st, _, s) := s.chainWrite g k.tainted (b.rows.map fun r => .store (spAddr b.cluster r.1) r.2)
  if st ≠ St.ok then s.mxuFault g u st
  else if (s.cluster b.cluster).slotFull b.slot then s.modCl g fun c => c.setChain u k
  else
    let s := s.modCl b.cluster fun c => c.setSlot b.slot true b.count
    s.chainAdvance g u { k with parts := l }

end Sys2Proof.Machine
end

