-- ==== Sys2Proof/Machine/Codec.lean ====
section
/-! DEFINITION. CRC-32C, and the CT codec (R289-R292). -/

namespace Sys2Proof.Machine

/-! ## CRC-32C -/

/-- One bit of CRC-32C: reflected polynomial 0x82F63B78. -/
def crcBit (c : Nat) : Nat := if c % 2 = 1 then (c / 2) ^^^ 0x82F63B78 else c / 2

/-- `n` bits. -/
def crcBits : Nat → Nat → Nat
  | 0, c => c
  | n + 1, c => crcBits n (crcBit c)

/-- CRC-32C of a byte string: initial value and final exclusive-or all ones (log 23). -/
def crc32c (b : Bytes) : Nat := (b.foldl (fun c x => crcBits 8 (c ^^^ x.toNat)) 0xFFFFFFFF) ^^^ 0xFFFFFFFF

/-! ## The CT codec -/

/-- Bytes of a unit (R289): 1 for formats of one byte or less, 2 for BF16 and FP16, 4 for FP32 and INT32. -/
def unitBytes (fmt : Nat) : Nat := if elemBits fmt ≤ 8 then 1 else elemBits fmt / 8

/-- ESIZE of CTFLAGS. -/
def esizeOf (e : Nat) : Nat := if e = 1 then 0 else if e = 2 then 1 else 2

/-- Round up to a multiple of 8. -/
def up8 (n : Nat) : Nat := (n + 7) / 8 * 8

/-- Byte `j` of each unit. -/
def plane (j : Nat) (us : List Bytes) : Bytes := us.map fun u => u.getD j 0

/-- A plane folds when all its bytes are equal and it has one. -/
def folds (p : Bytes) : Bool :=
  match p with
  | [] => false
  | b :: l => l.all (· == b)

/-- A plane as stored: one byte where it folds. -/
def storedPlane (p : Bytes) : Bytes := if folds p then p.take 1 else p

/-- The planes of units of `e` bytes. -/
def planes (e : Nat) (us : List Bytes) : List Bytes := (List.range e).map fun j => plane j us

/-- FOLDED of the header. -/
def foldedMask (ps : List Bytes) : Nat := (List.range ps.length).foldl (fun n j => n + 2 ^ j * b2n (folds (ps.getD j []))) 0

/-- The zero map: bit i mod 8 of byte i div 8 is set when unit i is present. -/
def zeroMap (us : List Bytes) : Bytes :=
  (List.range 128).map fun k => byteOf ((List.range 8).foldl (fun n i => n + 2 ^ i * b2n ((us.getD (8 * k + i) []).any (· ≠ 0))) 0)

/-- One form of a coded tile: with or without the map, the units it stores. -/
def ctForm (e : Nat) (noMap : Bool) (map : Bytes) (us : List Bytes) (side : Bytes) (check : Nat) : Bytes :=
  let ps := planes e us
  let body := (if noMap then [] else map) ++ (ps.map storedPlane).flatten ++ side
  let n := up8 (16 + body.length)
  leBytes 1 1 ++ leBytes 1 (esizeOf e + 4 * b2n noMap) ++ leBytes 2 us.length ++ leBytes 1 (foldedMask ps) ++ [0]
    ++ leBytes 2 side.length ++ leBytes 4 n ++ leBytes 4 check ++ body ++ List.replicate (n - 16 - body.length) 0

/-- The units of a tile's element bytes: 1,024 of `e` bytes, zeros beyond them. -/
def ctUnits (e : Nat) (elems : Bytes) : List Bytes :=
  (List.range 1024).map fun i => (List.range e).map fun j => elems.getD (i * e + j) 0

/-- Encode a tile (R291). -/
def ctEncode (e : Nat) (elems side : Bytes) : Bytes :=
  let us := ctUnits e elems
  let check := crc32c (us.flatten ++ side)
  let present := us.filter fun u => u.any (· ≠ 0)
  if present = [] then ctForm e true [] [] side check
  else
    let m := ctForm e false (zeroMap us) present side check
    let d := ctForm e true [] us side check
    if m.length < d.length then m else d

/-- Bits set in the map, by unit. -/
def mapBit (m : Bytes) (i : Nat) : Bool := bit (m.getD (i / 8) 0).toNat (i % 8)

/-- Read the stored planes: their bytes by plane, and what follows. -/
def readPlanes (folded n : Nat) : Nat → Nat → Bytes → List Bytes × Bytes
  | _, 0, b => ([], b)
  | j, k + 1, b =>
    let w := if bit folded j then 1 else n
    let p := b.take w
    let r := readPlanes folded n (j + 1) k (b.drop w)
    ((if bit folded j then List.replicate n (p.headD 0) else p) :: r.1, r.2)

/-- Put the present units back into their places. -/
def spreadUnits (e : Nat) : List Bool → List Bytes → List Bytes
  | [], _ => []
  | true :: l, u :: us => u :: spreadUnits e l us
  | true :: l, [] => List.replicate e 0 :: spreadUnits e l []
  | false :: l, us => List.replicate e 0 :: spreadUnits e l us

/-- Decode a coded tile: unit bytes and side bytes; none where R292 finds a codec error. -/
def ctDecode (e sideLen : Nat) (b : Bytes) : Option (Bytes × Bytes) :=
  let flags := fieldOf b 1 1
  let n := fieldOf b 2 2
  let folded := fieldOf b 4 1
  let noMap := bit flags 2
  let map := if noMap then [] else (b.drop 16).take 128
  let (ps, rest) := readPlanes folded n 0 e (b.drop (16 + map.length))
  let side := rest.take sideLen
  let bodyLen := map.length + ((List.range e).map fun j => if bit folded j then 1 else n).sum + sideLen
  let us := (List.range n).map fun i => ps.map fun p => p.getD i 0
  let which := (List.range 1024).map fun i => if noMap then decide (n ≠ 0) else mapBit map i
  let units := (spreadUnits e which us).flatten
  if fieldOf b 0 1 ≠ 1 ∨ flags / 8 ≠ 0 ∨ folded / 2 ^ e ≠ 0 ∨ fieldOf b 5 1 ≠ 0 ∨ flags % 4 ≠ esizeOf e ∨ fieldOf b 6 2 ≠ sideLen
      ∨ (noMap = false ∧ n ≠ (which.filter id).length) ∨ (noMap = true ∧ n ≠ 0 ∧ n ≠ 1024)
      ∨ fieldOf b 8 4 ≠ up8 (16 + bodyLen) ∨ fieldOf b 12 4 ≠ crc32c (units ++ side) then none
  else some (units, side)
where
  /-- A little-endian field. -/
  fieldOf (b : Bytes) (off k : Nat) : Nat := leNat ((b.drop off).take k)

end Sys2Proof.Machine
end

