-- ==== Sys2Proof/Machine/Vendor.lean ====
section
/-! DEFINITION. Admission of the vendor commands (R71-R75, R496), and which session command goes first (R298). -/

namespace Sys2Proof.Machine

/-- One row of R74: the capability of R90, the buffers, the fields the command takes, and the reserved bits of CMD_DW. -/
structure VendorForm where
  cap : Option Nat
  inp : Bool
  out : Bool
  nsid : Bool := false
  object : Bool := true
  session : Bool := false
  deadline : Bool := false
  reserved : Nat := 0
deriving DecidableEq, Repr

/-- The form of a vendor opcode (R74). SESSION_CTL takes an object for OPEN and a session for the other actions. -/
def vendorForm (e : Sqe) : VendorForm :=
  match e.opc with
  | 0x83 => { cap := some 1, inp := true, out := true, deadline := true, reserved := 0xFFFFFFFF }
  | 0x85 => { cap := some 1, inp := true, out := false, reserved := 0xFFFF0000 }
  | 0x89 => { cap := some 1, inp := true, out := false, reserved := 0xFFFF0000 }
  | 0x8F => { cap := some 0, inp := true, out := true, nsid := true, reserved := 0xFFFFFF00 }
  | 0x93 => { cap := some 5, inp := true, out := true, nsid := true, deadline := true, reserved := 0xFFFFFFFC }
  | 0x97 => { cap := some 3, inp := true, out := true, session := true, deadline := true, reserved := 0xFFFE0000 }
  | 0x98 =>
    let opening := e.cmdDw % 16 == 0
    { cap := some 6, inp := false, out := false, object := opening, session := !opening, reserved := 0xFFFFFFC0 }
  | _ => { cap := none, inp := true, out := true, session := true, deadline := true, reserved := 0xFFFFFF00 }

/-- ACTION of SESSION_CTL. -/
def sqeAction (e : Sqe) : Nat := e.cmdDw % 16
/-- PARK_TIER of SESSION_CTL. -/
def sqeParkTier (e : Sqe) : Nat := bits e.cmdDw 4 2

/-- Step 3 of R496: a reserved field, or one that must be 0 (R11, R72, R297). Reserved codes of ACTION and PARK_TIER are counted
here (log 22). -/
def vendorReserved (e : Sqe) : Bool :=
  let f := vendorForm e
  decide (bits e.flags 2 4 ≠ 0) || decide (e.cdw2 / 2 ≠ 0) || decide (e.cdw3 ≠ 0) || decide (e.cdw12 / 65536 ≠ 0)
    || decide (e.cmdDw &&& f.reserved ≠ 0)
    || (!f.inp && (decide (e.prp1 ≠ 0) || decide (e.prp2 ≠ 0) || decide (e.inLen ≠ 0)))
    || (!f.out && (decide (e.resultAddr ≠ 0) || decide (e.resLen ≠ 0)))
    || (!f.nsid && decide (e.nsid ≠ 0)) || (!f.object && decide (e.object ≠ 0)) || (!f.deadline && decide (e.deadline ≠ 0))
    || (if f.session then decide (bits e.cdw13 24 7 ≠ 0) else decide (e.cdw13 ≠ 0))
    || (e.opc == 0x98 && (decide (3 < sqeAction e) || decide (1 < sqeParkTier e) || (sqeAction e != 1 && sqeParkTier e != 0)))
    || (e.opc == 0x93 && decide (e.nsid ≠ 0) && decide (e.object ≠ 0))

/-- Step 5 of R496: an identifier beyond its used range (R5, R54, R343). -/
def vendorIdRange (e : Sqe) : Bool :=
  let f := vendorForm e
  (f.nsid && (e.opc != 0x93 || e.nsid != 0) && (e.nsid == 0 || decide (128 < e.nsid)))
    || (f.session && e.sessionValid && decide (sessionCount ≤ e.session))
    || ((e.opc == 0x83 || e.opc == 0x85 || e.opc == 0x89) && decide (255 < e.object))
    || (e.opc == 0x9B && decide (127 < e.cmdDw % 256))

/-- Steps 2 to 6 of R496; `option`: the capability of an option the command uses is not reported. -/
def State.vendorCheck (s : State) (e : Sqe) (option : Bool) : Option Nat :=
  let f := vendorForm e
  let capOk := match f.cap with
    | some k => s.cap k
    | none => true
  if !capOk || option then some St.unsupported
  else if vendorReserved e then some St.reservedField
  else if 1 < bits e.flags 6 2 ∨ bits e.flags 0 2 ≠ 0 then some St.unsupported
  else if vendorIdRange e then some St.idRange
  else if f.out ∧ (e.resultAddr % 4096 ≠ 0 ∨ e.resLen % 4096 ≠ 0) then some St.badAlign
  else if 2097152 < e.inLen ∨ (f.out ∧ (e.resLen < 4096 ∨ 2097152 < e.resLen)) then some St.badLength
  else none

/-- End a command that was stopped before it was admitted: it had started, so it counts as stopped (R67, R79; that STOPPED counts it is
the model's reading, DESIGN CHOICE, log 90). -/
def State.stopUnadmitted (s : State) (tag fn : Nat) : State :=
  (s.modStats fn fun x => { x with stopped := satAdd (2 ^ 64 - 1) x.stopped 1 }).complete tag
    { status := .abortedSqDeletion, dw0 := St.stopped, dw1 := tag }

/-- Run the admission of a started vendor command of an opcode: a command that is to stop ends at once (R67); the checks of R496
come before the command's own. -/
def State.vendorRow (s : State) (tag opc : Nat) (option : Trk → Bool) (f : Trk → State → State) : State :=
  match s.startedAs tag opc with
  | some t =>
    if t.phase = .stopping then s.stopUnadmitted tag t.fn
    else if s.ftl.sanitizer.isSome then s.completeSanitizing tag
    else match s.vendorCheck t.sqe (option t) with
      | some st => s.vendorRefuse tag st
      | none => f t s
  | none => s

/-- The vendor opcodes that name a session (R298). -/
def namesSession (e : Sqe) : Bool :=
  (e.opc == 0x97 || e.opc == 0x98 || e.opc == 0x9B) && e.sessionValid

/-- Does an earlier fetched command on the session still hold its tracker entry without having ended? (R298) -/
def State.sessionAhead (s : State) (t : Trk) : Bool :=
  s.host.trk.any fun x => namesSession x.2.sqe && x.2.sqe.session == t.sqe.session && decide (x.2.seq < t.seq)
    && x.2.phase != .finished

/-- Must the command wait for its session? -/
def State.mustWait (s : State) (tag : Nat) (t : Trk) : Bool :=
  (s.session t.sqe.session).heldFrom tag || s.sessionAhead t

/-- A command takes its session: BUSY is set. -/
def State.holdSession (s : State) (i tag : Nat) : State := s.modSession i fun x => { x with busy := some tag }

/-- What admission makes of the session a GENERATE or RUN names (R297): refused, waiting, being resumed, or ready. -/
inductive SesVerdict where
  | refuse (st : Nat)
  | wait
  | resume
  | ready
deriving DecidableEq, Repr

/-- The session check of GENERATE and RUN (R297, R298). -/
def State.sessionVerdict (s : State) (tag : Nat) (t : Trk) : SesVerdict :=
  if !t.sqe.sessionValid then .ready
  else if s.mustWait tag t then .wait
  else match (s.session t.sqe.session).state with
    | .free => .refuse St.noObject
    | .cold => .resume
    | _ => .ready

/-- Begin a resume from COLD for a command: its row comes again once RESUME_COLD_DONE has made the session ACTIVE. -/
def State.beginResume (s : State) (i tag : Nat) : State :=
  (s.modSession i fun x => { x with busy := some tag, op := some (.resume tag) }).admitTag tag

end Sys2Proof.Machine
end

