-- ==== Sys2Proof/Machine/Tensor.lean ====
section
/-! DEFINITION. KV tensors (R295), the tier store's space and the sessions that may be demoted (R277, R299), tuning tensors (R327) and the
sizes of save areas (R357). -/

namespace Sys2Proof.Machine

/-! ## Tuning tensors (R327) -/

/-- Does a range meet a tuning tensor? -/
def State.inTuning (s : State) (a n : Nat) : Bool := s.tiers.tuning.any fun t => rangesMeet (a, n) (t.1, t.2.bytes)

/-- Trainable parameters of the live tuning tensors. -/
def Tiers.trainable (t : Tiers) : Nat := (t.tuning.map fun x => x.2.elems).sum

/-! ## Sizes of save areas (R357) -/

/-- Regions of a cluster that a save takes (R357): those of WS_MASK that are neither RESIDENT nor in a bank that is not ON. -/
def Cluster.saveRegions (c : Cluster) (ws : Nat) : List Nat :=
  ((List.range 384).filter fun i => bit ws i && !c.isResident (i * 65536) && c.bank (i / 16) == .on).map (· * 65536)

/-- Bytes of a save over clusters (R357): 606,208 and the working set of each. -/
def State.saveBytes (s : State) (gs : List Nat) (ws : Nat) : List Nat :=
  gs.map fun g => 606208 + 65536 * ((s.cluster g).saveRegions ws).length

/-- Bytes that pre-emptions in progress ask of the tensor pool for new save areas. -/
def State.saveWants (s : State) : List Nat :=
  s.sched.parts.filterMap fun p => match p.2.switch, p.2.run with
    | some _, some t => if t.saveAreas = [] then some (s.saveBytes (s.clustersOf p.2.mask) t.wsMask).sum else none
    | _, _ => none

/-! ## The tier store (R277, R280) -/

/-- Bytes of the tier store in all (R277, R470). -/
def State.tierBytes (s : State) : Nat :=
  cfgField s.sec.pools 0x20 8 2048 * 2 ^ 30

/-- Are `n` bytes from position `p` within the tier store and free? -/
def State.t2Free (s : State) (p n : Nat) : Bool :=
  decide (p + n ≤ s.tierBytes) && s.tiers.places.all fun x => decide (p + n ≤ x.1) || decide (x.1 + x.2 ≤ p)
/-- Take a place of the tier store. -/
def State.takeT2 (s : State) (p n : Nat) : State := s.modTiers fun t => { t with places := Tab.put t.places p n }
/-- Release a place of the tier store. -/
def State.releaseT2 (s : State) (p : Nat) : State := s.modTiers fun t => { t with places := Tab.del t.places p }

/-! ## KV tensors (R295, R297, R299, R301) -/

/-- KV pages that tokens take (R295): blocks of 32 tokens, each layer's K and V in 64 KiB pages. -/
def kvPages (m : Bytes) (tokens : Nat) : Nat :=
  let perTok := 2 * fieldAt m 0x14 2 * fieldAt m 0x16 2 * elemBits (manKv m) / 8
  fieldAt m 0x10 2 * ((tokens + 31) / 32) * ((32 * perTok + 65535) / 65536)

/-- Tiles of a KV tensor: 64 KiB pages of tiles of 1,024 elements (R279, R295). -/
def kvTiles (m : Bytes) (pages : Nat) : Nat := pages * (65536 / (1024 * max 1 (elemBits (manKv m) / 8)))

/-- Directory chunks of a number of tiles (R279). -/
def chunksOf (tiles : Nat) : Nat := (tiles + 4095) / 4096

/-- TILES of a KV tensor of so many pages: at least 1. -/
def kvTileCount (m : Bytes) (pages : Nat) : Nat := max 1 (kvTiles m pages)

/-- A KV tensor record of ABSENT tiles (R279, R295): tiles of 1,024 elements, with an MX format's scale line as side bytes; `chunks`: the
addresses of its directory chunks. -/
def kvRecord (m : Bytes) (now tiles : Nat) (chunks : List Nat) : Bytes :=
  let f := manKv m
  leBytes 4 tiles ++ leBytes 1 f ++ leBytes 1 3 ++ leBytes 2 (if isMx f then 32 else 0) ++ leBytes 4 (1024 * max 1 (elemBits f / 8))
    ++ leBytes 8 0 ++ leBytes 4 chunks.length ++ leBytes 8 now ++ List.replicate 32 0 ++ (chunks.map (leBytes 8)).flatten

/-- Bytes of a session's record with room for every chunk its model's context can need. -/
def kvRecordBytes (m : Bytes) : Nat := 64 + 8 * chunksOf (kvTileCount m (kvPages m (manContext m)))

/-- Bytes of the record of a session with room for every chunk its model can need. -/
def State.rootBytes (s : State) (x : Session) (img : ColdImage) : Nat :=
  match s.object 1 x.model with
  | some o => max (kvRecordBytes (o.data.take 256)) img.header.length
  | none => img.header.length

/-- T1 space that a stored copy takes. -/
def ColdImage.room (img : ColdImage) : Nat :=
  (img.tiles.map fun p : Nat × Bytes => p.2.length).sum + 65536 * img.chunks.length

/-- Stored bytes of a session's KV tensor (R301): coded tiles, directory chunks, record. -/
def State.storedBytes (s : State) (r : Nat) : Nat :=
  ((List.range (s.recTiles r)).map fun i => let l := s.loc r i; if l.wh = 1 then l.len else 0).sum
    + 65536 * s.recField r 0x14 4 + s.recLen r

/-- Would a session's copy fit the tier store? -/
def State.storeFits (s : State) (r : Nat) : Bool := decide (s.tiers.storeUsed + s.storedBytes r ≤ s.tierBytes)

/-- May a session be demoted: PARKED, and named by no command (R299)? -/
def State.demotable (s : State) (i : Nat) : Bool :=
  (s.session i).state == .parked && !s.host.trk.any fun x => namesSession x.2.sqe && x.2.sqe.session == i && x.2.phase != .finished

/-- Sessions that may be demoted. -/
def State.demotables (s : State) : List Nat := (s.tiers.sessions.map (·.1)).filter s.demotable

/-- Can the tier manager make room in the KV pool (R299): a PARKED session may be demoted, the tier store has room for one, and the
module is not read-only? -/
def State.canDemote (s : State) : Bool :=
  !s.ftl.readOnly && s.demotables.any fun i => s.storeFits (s.session i).root

/-! ## Places for directory chunks -/

/-- Take the first `n` of the places as directory chunks of ABSENT tiles; none where one is missing or not free. -/
def State.takeChunks (s : State) : Nat → List Nat → Option State
  | 0, _ => some s
  | _ + 1, [] => none
  | n + 1, a :: l =>
    if s.freeRange a 65536 then ((s.take 4 a 65536).clearMem a (a + 65536)).takeChunks n l else none

/-- What the pool has for a KV tensor that grows (R299). -/
inductive KvRoom where
  | ok (s : State)
  /-- It waits for room to be made, so many bytes. -/
  | waits (n : Nat)
  /-- It waits for the places of its chunks. -/
  | places
  | none

/-- The record of a session grows to its pages (R279): TILES, CHUNKS and the new chunks, at the places the keeper allocated. -/
def State.growKv (s : State) (i : Nat) (m : Bytes) (places : List Nat) : KvRoom :=
  let r := (s.session i).root
  let old := s.recField r 0x14 4
  let tiles := max (s.recTiles r) (kvTileCount m (s.session i).pages)
  let more := chunksOf tiles - old
  if !s.fits 4 (65536 * more) then (if s.canDemote then .waits (65536 * more) else .none)
  else match s.takeChunks more places with
    | none => .places
    | some s => .ok ((places.take more).zipIdx.foldl (fun s c => s.writeNat (r + 0x40 + 8 * (old + c.2)) 8 c.1)
        ((s.writeNat r 4 tiles).writeNat (r + 0x14) 4 (chunksOf tiles)))

end Sys2Proof.Machine
end

