-- ==== Sys2Proof/Machine/Mover.lean ====
section
/-! DEFINITION. Managed tensors and the mover (R279-R292, R303), and the tier manager's moves (R280, R282). -/

namespace Sys2Proof.Machine

/-- What reading a tile gives: a code, and its element bytes and side bytes. -/
structure TileRead where
  st : Nat := St.ok
  elems : Bytes := []
  side : Bytes := []

/-- Read and decode a tile for cluster `g` (R280, R292). -/
def State.readTile (s : State) (g r i : Nat) : TileRead × State :=
  let e := unitBytes (s.recFmt r)
  let side := s.recSide r
  let n := s.recTileBytes r
  let l := s.loc r i
  if l.wh = 0 then ({ elems := List.replicate n 0, side := List.replicate side 0 }, s)
  else
    match s.firstBad l.at_ l.len with
    | some w => ({ st := St.poisoned }, s.metBad (some g) w)
    | none =>
      let s := s.used
      match ctDecode e side (s.bytesAt l.at_ l.len) with
      | some (u, d) => ({ elems := u.take n, side := d }, s)
      | none =>
        let second := if l.copy then ctDecode e side (s.t2Bytes l.pos l.len) else none
        match second with
        | some (u, d) =>
          ({ elems := u.take n, side := d }, s.modCl g fun c => { c with stalls := Tab.mod 0 c.stalls 0 (satAdd (2 ^ 64 - 1) · 1) })
        | none =>
          let s := s.report (if l.at_ < 0x000C00000000 then .cd0 else .cd1)
            { cls := .ctCodec, source := l.at_ / 1024, partner := partnerOfCluster g, tag := s.tagOf (some g), addr := l.at_
              st := St.poisoned }
          ({ st := St.poisoned }, s.modTask g fun t => { t with now := t.now ++ [(FaultClass.ctCodec.code, l.at_)] })

/-! ## Checks (R283) -/

/-- Scratchpad ranges a descriptor reads and writes: module address and bytes. -/
def State.mvSp (s : State) (d : Bytes) : List (Nat × Nat) × List (Nat × Nat) :=
  let n := mvCount d
  let isSp (a : Nat) : Bool := match place a with
    | .sp _ _ _ => true
    | .unpopulated => true
    | _ => false
  let keep (l : List (Nat × Nat)) : List (Nat × Nat) := l.filter fun p => isSp p.1
  let tile (r a : Nat) : List (Nat × Nat) :=
    (List.range n).map fun i => (a + i * mvStride d, s.recTileBytes r + s.recSide r)
  let rowsOf (r a : Nat) : List (Nat × Nat) := (List.range (s.recRows r)).map fun i => (a + i * mvStride d, s.recRowBytes r)
  match mvOp d with
  | 0 => (keep [(mvSrc d, n)], keep [(mvDst d, n)])
  | 1 => ([], tile (mvSrc d) (mvDst d))
  | 2 => (tile (mvDst d) (mvSrc d), [])
  | 3 => ([], rowsOf (mvSrc d) (mvDst d))
  | 4 => (rowsOf (mvDst d) (mvSrc d), [])
  | 5 => ([], [(mvDst d, n)])
  | 6 => ([(mvSrc d, n)], [(mvDst d, n)])
  | _ =>
    let row (k : Nat) : Nat := (k * (if mvEsize d = 0 then 4 else 8 * 2 ^ (mvEsize d - 1)) + 7) / 8
    ((List.range (mvRows d)).map fun i => (mvSrc d + i * mvStride d, row (mvCols d)),
      (List.range (mvCols d)).map fun i => (mvDst d + i * mvDstStride d, row (mvRows d)))

/-- The record of a tile or tensor operation. -/
def mvRecord (d : Bytes) : Option Nat :=
  match mvOp d with
  | 1 => some (mvSrc d)
  | 2 => some (mvDst d)
  | 3 => some (mvSrc d)
  | 4 => some (mvDst d)
  | _ => none

/-- Do the fields fit the operation? -/
def State.mvFits (s : State) (d : Bytes) (keeper : Bool) : Bool :=
  let op := mvOp d
  let n := mvCount d
  let slotOk := decide (mvSlot d < 4096) || (keeper && decide (mvSlot d = 0xFFFF))
  let tiledOp := op == 1 || op == 2
  let whole := op == 3 || op == 4
  let countOk := if tiledOp then decide (1 ≤ n) && decide (n ≤ 4096)
    else if op = 0 ∨ op = 6 then n % 8 == 0 && decide (n ≤ 16777216)
    else if op = 5 then decide (mvEsize d ≤ 3) && n % 2 ^ mvEsize d == 0 && decide (n ≤ 16777216)
    else n == 0
  let strideOk := if tiledOp then mvStride d % 64 == 0 else if whole then mvStride d % 8 == 0 else op == 7 || mvStride d == 0
  let dim (k : Nat) : Bool := decide (32 ≤ k) && decide (k ≤ 4096) && k % 32 == 0
  let shapeOk := if op = 7 then dim (mvRows d) && dim (mvCols d) && decide (mvEsize d ≤ 3)
    else mvRows d == 0 && mvCols d == 0 && mvDstStride d == 0 && (op == 5 || mvEsize d == 0)
  let rest := (tiledOp || mvFirst d == 0) && (op == 5 || mvFill d == 0) && (op != 5 || mvSrc d == 0)
    && (op != 6 || (mvSrc d % 8 == 0 && mvDst d % 8 == 0)) && (op != 5 || mvDst d % 2 ^ mvEsize d == 0)
  let recOk := match mvRecord d with
    | some r => (if tiledOp then s.recTiled r && decide (mvFirst d + n ≤ s.recTiles r) else !s.recTiled r) && ((op != 2 && op != 4) || !s.inTuning r (s.recLen r))
    | none => true
  decide (op ≤ 7) && slotOk && countOk && strideOk && shapeOk && rest && recOk

/-- Module-address ranges outside scratchpad that LINEAR and TRANSPOSE touch, and the records, with their direction. -/
def State.mvOther (s : State) (d : Bytes) : List (Nat × Nat × Bool) :=
  match mvOp d with
  | 0 => [(mvSrc d, mvCount d, false), (mvDst d, mvCount d, true)]
  | 1 => [(mvSrc d, s.recLen (mvSrc d), false)]
  | 2 => [(mvDst d, s.recLen (mvDst d), true)]
  | 3 => [(mvSrc d, s.recLen (mvSrc d), false)]
  | 4 => [(mvDst d, s.recLen (mvDst d), true)]
  | _ => []

/-- Is a range of scratchpad unpopulated or in a bank that is not ON? -/
def State.notOn (s : State) (a n : Nat) : Bool :=
  (pieces (n / 65536 + 2) a n).any fun p => match place p.1 with
    | .sp g b _ => (s.cluster g).bank b != .on
    | .unpopulated => true
    | .unmapped => true
    | _ => false

/-- The checks of R283 for a descriptor of cluster `g`, in the order of its table. TILE_OUT's space is checked where it starts. -/
def State.mvCheck (s : State) (g : Nat) (j : MvJob) : Nat :=
  let d := j.desc
  let (rd, wr) := s.mvSp d
  let oth := s.mvOther d
  let q := j.requester g
  let own (a : Nat) : Bool := match place a with
    | .sp h _ _ => h == g
    | _ => false
  let ownDst := [1, 3, 5, 6].contains (mvOp d)
  let ownSrc := [2, 4, 6].contains (mvOp d)
  let hasT := mvStatus d != 0
  if fieldAt d 1 1 / 2 ≠ 0 ∨ fieldAt d 0x25 3 ≠ 0 ∨ fieldAt d 0x2C 4 ≠ 0 then St.reservedField
  else if s.mvFits d j.keeper = false then St.unsupported
  else if rd.any (fun p => s.notOn p.1 p.2) || wr.any (fun p => s.notOn p.1 p.2)
      || oth.any (fun p => s.accessSt q p.2.2 p.1 p.2.1 == St.addrUnmapped)
      || (hasT && s.notOn (mvStatus d) 8) then St.addrUnmapped
  else if rd.any (fun p => s.accessSt q false p.1 p.2 != St.ok) || wr.any (fun p => s.accessSt q true p.1 p.2 != St.ok)
      || oth.any (fun p => s.accessSt q p.2.2 p.1 p.2.1 != St.ok)
      || (hasT && s.accessSt q true (mvStatus d) 8 != St.ok)
      || (ownDst && !own (mvDst d)) || (ownSrc && !own (mvSrc d)) then St.addrDenied
  else St.ok

/-! ## Starting (R281, R282, R286) -/

/-- Must the later of two descriptors wait for the earlier? (R286) -/
def State.mvOrdered (s : State) (a b : Bytes) : Bool :=
  let la := (s.mvSp a).1 ++ (s.mvSp a).2
  let lb := (s.mvSp b).1 ++ (s.mvSp b).2
  let tiles (d : Bytes) : Nat × Nat := if mvOp d = 1 ∨ mvOp d = 2 then (mvFirst d, mvCount d) else (0, 2 ^ 28)
  la.any (fun p => lb.any (rangesMeet p))
    || (match mvRecord a, mvRecord b with
      | some r, some q => r == q && rangesMeet (tiles a) (tiles b)
      | _, _ => false)

/-- The first queued descriptor of an operation that may start: its place in the list. -/
def State.mvNext (s : State) (op : Nat) : List MvJob → List MvJob → Nat → Option (Nat × MvJob)
  | _, [], _ => none
  | before, j :: l, k =>
    if !j.started && mvOp j.desc == op && !before.any (fun b => s.mvOrdered b.desc j.desc) then some (k, j)
    else s.mvNext op (before ++ [j]) l (k + 1)

/-- Tiles a descriptor reads or writes, by number. -/
def State.mvTiles (s : State) (d : Bytes) : List Nat :=
  match mvRecord d with
  | some r => if mvOp d = 1 ∨ mvOp d = 2 then (List.range (mvCount d)).map (mvFirst d + ·) else List.range (s.recTiles r)
  | none => []

/-- The first tile from `l` that lies in T2 only. -/
def State.inT2 (s : State) (r : Nat) (l : List Nat) : Option Nat := l.find? fun i => (s.loc r i).wh == 2

/-- Change entry `k` of a cluster's movers. -/
def State.modJob (s : State) (g k : Nat) (f : MvJob → MvJob) : State :=
  s.modCl g fun c => { c with movers := c.movers.modify k f }

/-- Is a tile of a TILE_OUT clean: no granule of its STRIDE slot is dirty? (R285) -/
def State.tileClean (s : State) (g : Nat) (d : Bytes) (i : Nat) : Bool :=
  match place (mvSrc d) with
  | .sp _ b off => !(s.cluster g).anyDirty (b * 2 ^ 20 + off + i * mvStride d) (mvStride d)
  | _ => false

/-- Tiles of a TILE_OUT to be written: their places 0 upward. -/
def State.outTiles (s : State) (g : Nat) (d : Bytes) : List Nat :=
  (List.range (mvCount d)).filter fun i => mvForce d || !s.tileClean g d i

/-- The coded tiles a TILE_OUT or TENSOR_OUT writes, by tile number. -/
def State.outCoded (s : State) (g : Nat) (d : Bytes) : List (Nat × Bytes) :=
  let r := mvDst d
  let e := unitBytes (s.recFmt r)
  if mvOp d = 2 then
    (s.outTiles g d).map fun i =>
      let b := s.bytesAt (mvSrc d + i * mvStride d) (s.recTileBytes r + s.recSide r)
      (mvFirst d + i, ctEncode e (b.take (s.recTileBytes r)) (b.drop (s.recTileBytes r)))
  else
    let all := ((List.range (s.recRows r)).map fun k => s.bytesAt (mvSrc d + k * mvStride d) (s.recRowBytes r)).flatten
    (List.range (s.recTiles r)).map fun i =>
      (i, ctEncode e ((List.range 1024).map fun k => all.getD (i * 1024 + k) 0) (List.replicate (s.recSide r) 0))

/-- T1 space a coded tile takes. -/
def coded16 (b : Bytes) : Nat := (b.length + 15) / 16 * 16

/-- A descriptor starts (R281-R283): a refused one is doomed to its code, one whose tiles lie in T2 only waits for their
promotion. Where the T1 space does not fit its pool the descriptor waits for room to be made, and fails when none can be: in the KV
pool by R299; in the tensor pool the tier manager says so (`giveUp`). -/
def State.mvStart (s : State) (g op : Nat) (giveUp : Bool) : State :=
  let c := s.cluster g
  if !c.mvEnable || decide (4 ≤ c.mvActive) then s else
  match s.mvNext op [] c.movers 0 with
  | some (k, j) =>
    let st := match j.doomed with
      | some st => st
      | none => s.mvCheck g j
    if st ≠ St.ok then s.modJob g k fun j => { j with started := true, doomed := some st }
    else
      let go (w : Option Nat) : State := s.modJob g k fun j => { j with started := true, waitTile := w }
      if op = 1 ∨ op = 3 then go (s.inT2 (mvSrc j.desc) (s.mvTiles j.desc))
      else if op = 2 ∨ op = 4 then
        let need := ((s.outCoded g j.desc).map fun p => coded16 p.2).sum
        let pool := s.recPool (mvDst j.desc)
        if s.fits pool need then go none
        else if if pool = 4 then !s.canDemote else giveUp then s.modJob g k fun j => { j with started := true, doomed := some St.noSpace } else s
      else go none
  | none => s

/-- LINEAR. -/
def execLinear (g : Fin 128) (s : State) : Out := .next (s.mvStart g 0 false)
/-- TILE_IN. -/
def execTileIn (g : Fin 128) (s : State) : Out := .next (s.mvStart g 1 false)
/-- TILE_OUT. -/
def execTileOut (g : Fin 128) (giveUp : Bool) (s : State) : Out := .next (s.mvStart g 2 giveUp)
/-- TENSOR_IN. -/
def execTensorIn (g : Fin 128) (s : State) : Out := .next (s.mvStart g 3 false)
/-- TENSOR_OUT. -/
def execTensorOut (g : Fin 128) (giveUp : Bool) (s : State) : Out := .next (s.mvStart g 4 giveUp)
/-- FILL. -/
def execFill (g : Fin 128) (s : State) : Out := .next (s.mvStart g 5 false)
/-- COPY. -/
def execCopy (g : Fin 128) (s : State) : Out := .next (s.mvStart g 6 false)
/-- TRANSPOSE. -/
def execTranspose (g : Fin 128) (s : State) : Out := .next (s.mvStart g 7 false)

/-! ## What a descriptor moves -/

/-- What a descriptor comes to: its code, the units done, the clean tiles skipped. -/
structure MvOut where
  st : Nat := St.ok
  units : Nat := 0
  skipped : Nat := 0

/-- A write of the mover: its code, and the state; a dropped one is counted (R273). -/
def State.mvWrite (s : State) (g : Nat) (j : MvJob) (a : Nat) (b : Bytes) : Nat × State :=
  if b = [] then (St.ok, s) else s.writeRange (j.requester g) true a b

/-- The steps of an operation in order: stop at the first that fails. -/
def mvSteps (f : Nat → State → Nat × State) : List Nat → MvOut → State → MvOut × State
  | [], o, s => (o, s)
  | i :: l, o, s =>
    let (st, s) := f i s
    if st = St.ok then mvSteps f l { o with units := o.units + 1 } s else ({ o with st := st }, s)

/-- LINEAR and COPY (R260, R282): the bytes before the first bad word are moved, as through a temporary buffer. -/
def State.moveBytes (s : State) (g : Nat) (j : MvJob) : MvOut × State :=
  let d := j.desc
  let n := mvCount d
  let rst := s.accessSt (j.requester g) false (mvSrc d) n
  if rst ≠ St.ok ∧ n ≠ 0 then ({ st := rst }, s) else
  let bad := s.firstBad (mvSrc d) n
  let m := match bad with
    | some w => w - mvSrc d
    | none => n
  let (st, s) := s.mvWrite g j (mvDst d) (s.bytesAt (mvSrc d) m)
  if st ≠ St.ok then ({ st := st }, s)
  else match bad with
    | some w => ({ st := St.poisoned, units := m }, s.metBad (some g) w)
    | none => ({ units := n }, s.used)

/-- FILL (R260): the constant repeats from the destination. -/
def State.fill (s : State) (g : Nat) (j : MvJob) : MvOut × State :=
  let d := j.desc
  let w := 2 ^ mvEsize d
  let (st, s) := s.mvWrite g j (mvDst d) ((List.range (mvCount d / w)).map fun _ => leBytes w (mvFill d)).flatten
  ({ st := st, units := if st = St.ok then mvCount d else 0 }, s)

/-- The answer to a descriptor's reads of scratchpad where it ends: a bank may have gone off since it started (R273). -/
def State.readsSt (s : State) (g : Nat) (j : MvJob) : Nat :=
  (((s.mvSp j.desc).1.map fun p => s.accessSt (j.requester g) false p.1 p.2).find? (· ≠ St.ok)).getD St.ok

/-- TRANSPOSE (R207, R282). -/
def State.transpose (s : State) (g : Nat) (j : MvJob) : MvOut × State :=
  let d := j.desc
  let w := if mvEsize d = 0 then 4 else 8 * 2 ^ (mvEsize d - 1)
  let n := (mvCols d * w + 7) / 8
  let rows := List.range (mvRows d)
  let rst := s.readsSt g j
  if rst ≠ St.ok then ({ st := rst }, s) else
  match (rows.map fun i => s.firstBad (mvSrc d + i * mvStride d) n).find? (·.isSome) with
  | some (some a) => ({ st := St.poisoned }, s.metBad (some g) a)
  | _ =>
    let m := rows.map fun i => s.bytesAt (mvSrc d + i * mvStride d) n
    let (o, s) := mvSteps (fun c s => s.mvWrite g j (mvDst d + c * mvDstStride d) (packCodes w (m.map fun r => bitsAt r (c * w) w)))
      (List.range (mvCols d)) {} s
    ({ o with units := 0 }, s.used)

/-- A tile arrives poisoned (R292): its bytes are undefined and every word of it carries the mark. -/
def State.poisonRange (s : State) (a n : Nat) : State :=
  (List.range ((n + 7) / 8)).foldl (fun s k => s.poisonWord (a + 8 * k)) (s.undefine a (a + n))

/-- Granules wholly inside the union of ranges become clean (R284): cluster-local ranges. -/
def Cluster.cleanUnion (c : Cluster) (ws : List (Nat × Nat)) : Cluster :=
  match ws with
  | [] => c
  | w :: _ =>
    let hi := ws.foldl (fun m p => max m (p.1 + p.2)) 0
    (List.range ((hi - w.1) / 1024 + 2)).foldl (fun c k =>
      let a := (w.1 / 1024 + k) * 1024
      if covered ws (a + 1024) (ws.length + 1) a then { c with clean := Tab.set false c.clean (a / 1024) true } else c) c

/-- Ranges of a cluster's window, cluster-local. -/
def localRanges (l : List (Nat × Nat)) : List (Nat × Nat) := l.map fun p => (p.1 % 2 ^ 25, p.2)

/-- TILE_IN (R282, R284, R292). -/
def State.tileIn (s : State) (g : Nat) (j : MvJob) : MvOut × State :=
  let d := j.desc
  let r := mvSrc d
  let (o, s) := mvSteps (fun i s =>
    let (t, s) := s.readTile g r (mvFirst d + i)
    let a := mvDst d + i * mvStride d
    if t.st = St.ok then s.mvWrite g j a (t.elems ++ t.side)
    else (t.st, if s.accessSt (j.requester g) true a (s.recTileBytes r) = St.ok then s.poisonRange a (s.recTileBytes r) else s))
    (List.range (mvCount d)) {} s
  (o, (s.touch r).modCl g fun c => c.cleanUnion (localRanges ((s.mvSp d).2.take o.units)))

/-- TENSOR_IN (R279, R282): whole rows. -/
def State.tensorIn (s : State) (g : Nat) (j : MvJob) : MvOut × State :=
  let d := j.desc
  let r := mvSrc d
  let (o, all, s) := (List.range (s.recTiles r)).foldl (fun (x : MvOut × Bytes × State) i =>
    if x.1.st ≠ St.ok then x else
    let (t, s) := x.2.2.readTile g r i
    ({ x.1 with st := t.st }, x.2.1 ++ t.elems, s)) ({}, [], s)
  if o.st ≠ St.ok then (o, s.touch r)
  else
    let nb := s.recRowBytes r
    let (o, s) := mvSteps (fun i s => s.mvWrite g j (mvDst d + i * mvStride d) ((all.drop (i * nb)).take nb))
      (List.range (s.recRows r)) {} s
    let wr := localRanges ((s.mvSp d).2.take o.units)
    ({ o with units := o.units * nb }, (s.touch r).modCl g fun c => { c.cleanUnion wr with
      fallback := satAdd (2 ^ 32 - 1) c.fallback (b2n (o.st == St.ok)) })

/-- Switch a tile to freshly allocated T1 space (R282): the old space is released. -/
def State.switchTile (s : State) (r i a : Nat) (b : Bytes) : State :=
  let old := s.loc r i
  let s := (s.take (s.recPool r) a (coded16 b)).writeMem a (b ++ List.replicate (coded16 b - b.length) 0)
  let s := s.setLoc r i { wh := 1, at_ := a, copy := false, len := coded16 b, pos := 0 }
  let s := if old.wh = 2 then s.releaseT2 old.at_ else if old.copy then s.releaseT2 old.pos else s
  if old.wh = 1 then s.release old.at_ else s

/-- Write coded tiles to the places the keeper allocated; none where a place is not free or the pool has no room. -/
def State.switchTiles (s : State) (r : Nat) : List (Nat × Bytes) → List Nat → Option State
  | [], _ => some s
  | (i, b) :: l, a :: as => if s.freeRange a (coded16 b) && s.fits (s.recPool r) (coded16 b) then (s.switchTile r i a b).switchTiles r l as else none
  | _ :: _, [] => none

/-- TILE_OUT and TENSOR_OUT (R282, R284, R285): the tiles before the first whose read meets a bad word are written. The slots' bits
are cleared where their reading starts; which tiles are clean is judged by the map as it stood when the first was read (log 25). -/
def State.tileOut (s : State) (g : Nat) (j : MvJob) (addrs : List Nat) : Option (MvOut × State) :=
  let d := j.desc
  let r := mvDst d
  let rd := (s.mvSp d).1
  let isTile := mvOp d == 2
  let todo := if isTile then s.outTiles g d else List.range rd.length
  let badAt := todo.find? fun i => (s.firstBad (rd.getD i (0, 0)).1 (rd.getD i (0, 0)).2).isSome
  let coded := s.outCoded g d
  let stop := match badAt with
    | some i => if isTile then coded.takeWhile (fun p => decide (p.1 < mvFirst d + i)) else []
    | none => coded
  match s.switchTiles r stop addrs with
  | none => none
  | some s =>
    let read := match badAt with
      | some i => todo.filter (· ≤ i)
      | none => todo
    let slots := read.map fun i => ((mvSrc d + i * mvStride d) % 2 ^ 25, mvStride d)
    let s := if isTile then s.modCl g fun c => { c with
          clean := (slots.foldl (fun t p => cleanFrom t (p.1 / 1024) ((p.1 + p.2 + 1023) / 1024 - p.1 / 1024)) c.clean)
          writtenBack := satAdd (2 ^ 32 - 1) c.writtenBack stop.length
          cleanSkipped := satAdd (2 ^ 32 - 1) c.cleanSkipped (mvCount d - todo.length) }
      else if badAt.isNone then s.modCl g fun c => { c with fallback := satAdd (2 ^ 32 - 1) c.fallback 1 } else s
    let s := s.touch r
    let units := if isTile then stop.length else s.recRows r * s.recRowBytes r
    let skipped := if isTile then mvCount d - todo.length else 0
    some (match badAt with
      | some i =>
        let p := rd.getD i (0, 0)
        match s.firstBad p.1 p.2 with
        | some w => ({ st := St.poisoned, units := if isTile then units else 0, skipped := skipped }, s.metBad (some g) w)
        | none => ({ units := units, skipped := skipped }, s.used)
      | none => ({ units := units, skipped := skipped }, s.used))

/-- What a started descriptor does as a whole: the model makes its move in one step, at its end (log 26). `addrs`: the T1 places the
keeper gives to the tiles it writes. -/
def State.mvRun (s : State) (g : Nat) (j : MvJob) (addrs : List Nat) : Option (MvOut × State) :=
  match j.doomed with
  | some st => some ({ st := st }, s)
  | none =>
    match mvOp j.desc with
    | 0 => some (s.moveBytes g j)
    | 1 => some (s.tileIn g j)
    | 2 => if s.readsSt g j = St.ok then s.tileOut g j addrs else some ({ st := s.readsSt g j }, s)
    | 3 => some (s.tensorIn g j)
    | 4 => if s.readsSt g j = St.ok then s.tileOut g j addrs else some ({ st := s.readsSt g j }, s)
    | 5 => some (s.fill g j)
    | 6 => some (s.moveBytes g j)
    | _ => some (s.transpose g j)

/-- MOVER_DESCRIPTOR_DONE (R283): entry `k` of the mover's list ends. -/
def execMoverDescriptorDone (g : Fin 128) (k : Nat) (addrs : List Nat) (s : State) : Out :=
  .next (match (s.cluster g).movers[k]? with
    | some j =>
      if j.started && (j.waitTile.isNone || j.doomed.isSome) then
        match s.mvRun g j addrs with
        | some (o, s) =>
          let s := s.modCl g fun c => { c with movers := c.movers.eraseIdx k }
          s.mvEnd g j o.st o.units o.skipped true
        | none => s
      else s
    | none => s)

/-! ## Keeper's registers (R303) -/

/-- MV_POST: the write queues the descriptor at 64 · [47:6]; while 16 are queued it is ignored and latches ST_BUSY. -/
def execMvPost (g : Fin 128) (v : Nat) (s : State) : Out :=
  .next (if 16 ≤ (s.cluster g).mvQueued then s.modCl g fun c => c.mvFail St.busy
    else
      let ((st, d), s) := s.fetchDesc .keeper none (64 * bits v 6 42) 64
      s.modCl g fun c => { c with movers := c.movers ++
        [{ desc := d, keeper := true, epoch := c.epoch, doomed := if st = St.ok then none else some st }] })

/-- MV_FLUSH. -/
def execMvFlush (g : Fin 128) (s : State) : Out := .next (s.mvFlush g)
/-- MV_ENABLE. -/
def execMvEnable (g : Fin 128) (on : Bool) (s : State) : Out := .next (s.modCl g fun c => { c with mvEnable := on })

/-! ## The tier manager (R280, R282) -/

/-- Is a tile of the tensor being read by a mover (R280)? -/
def State.tileRead (s : State) (r i : Nat) : Bool :=
  s.cl.any fun p => p.2.movers.any fun j => j.started && j.doomed.isNone && (mvOp j.desc == 1 || mvOp j.desc == 3)
    && mvRecord j.desc == some r && (s.mvTiles j.desc).contains i

/-- The tensor the tier manager demotes: the oldest LAST_USE first (R280), of those with a tile in T1 that no mover reads. Tensors of the
session engine are not demoted here (R299), nor a tensor that holds a tuning allocation's bytes (R327). -/
def State.oldestTensor (s : State) : Option Nat :=
  (s.tiers.tensors.filter fun r => s.recPool r == 3 && !s.inTuning r (s.recLen r) && (List.range (s.recTiles r)).any fun i => (s.loc r i).wh == 1 && !s.tileRead r i).foldl
    (fun b r => match b with
      | none => some r
      | some q => if s.recField r 0x18 8 < s.recField q 0x18 8 then some r else some q) none

/-- Demote tiles: the dirty ones are written back to their places, the clean ones dropped by releasing their T1 copies. `places`: a
free position of the tier store for each dirty tile; none where one is missing or taken. -/
def demoteTiles (r : Nat) : List Nat → List Nat → State → Option State
  | [], _, s => some s
  | i :: l, ps, s =>
    let t := s.loc r i
    if t.copy then
      demoteTiles r l ps ((s.setLoc r i { wh := 2, at_ := t.pos, copy := false, len := t.len, pos := 0 }).release t.at_)
    else match ps with
      | [] => none
      | p :: ps =>
        if s.t2Free (16 * p) t.len then
          let s := (s.takeT2 (16 * p) t.len).writeT2 (16 * p) (s.bytesAt t.at_ t.len)
          demoteTiles r l ps ((s.setLoc r i { wh := 2, at_ := 16 * p, copy := false, len := t.len, pos := 0 }).release t.at_)
        else none

/-- The tiles of a tensor that a demotion takes now: those in T1 that no mover is reading; while the module is read-only the clean ones
only. -/
def State.demotedTiles (s : State) (r : Nat) : List Nat :=
  (List.range (s.recTiles r)).filter fun i =>
    let t := s.loc r i
    t.wh == 1 && (t.copy || !s.ftl.readOnly) && !s.tileRead r i

/-- Bytes of the tensor pool that wait for room: of TILE_OUTs and TENSOR_OUTs that have not started, and of tiles to be promoted. -/
def State.tensorWants (s : State) : List Nat :=
  (s.cl.map fun p => p.2.movers.filterMap fun j =>
    match mvRecord j.desc, j.doomed with
    | some r, none =>
      if s.recPool r ≠ 3 then none
      else if (mvOp j.desc = 2 ∨ mvOp j.desc = 4) ∧ !j.started then some ((s.outCoded p.1 j.desc).map fun x => coded16 x.2).sum
      else j.waitTile.map fun i => (s.loc r i).len
    | _, _ => none).flatten ++ s.saveWants

/-- Bytes of the KV pool that wait for room (R299): of TILE_OUTs that have not started, of closing steps, and of resumes from COLD. -/
def State.kvWants (s : State) : List Nat :=
  (s.cl.map fun p => p.2.movers.filterMap fun j =>
    match mvRecord j.desc, j.doomed with
    | some r, none =>
      if s.recPool r = 4 ∧ (mvOp j.desc = 2 ∨ mvOp j.desc = 4) ∧ !j.started then
        some ((s.outCoded p.1 j.desc).map fun x => coded16 x.2).sum
      else none
    | _, _ => none).flatten
    ++ (s.tiers.sessions.map fun p => match p.2.op, p.2.image with
      | some (.resume _), some img => s.rootBytes p.2 img + img.room
      | _, _ => p.2.wants)

/-- Has the KV pool no room for what waits for it? (R299) -/
def State.kvFull (s : State) : Bool := s.kvWants.any fun n => !s.fits 4 n

/-- Is the tensor pool full: has it no room for what waits for it (R280, R357)? -/
def State.tensorFull (s : State) : Bool := !s.fits 3 16 || s.tensorWants.any fun n => !s.fits 3 n

/-- TIER_DEMOTION (R280): with the tensor pool full, the oldest tensor's tiles go to the tier store. `places`: a position for each dirty
tile, in 16-byte units. -/
def execTierDemotion (places : List Nat) (s : State) : Out :=
  .next (match s.oldestTensor with
    | some r => if s.tensorFull then (demoteTiles r (s.demotedTiles r) places s).getD s else s
    | none => s)

/-- TILE_PROMOTION (R282): the T2 tile that entry `k` of a mover waits for comes up to `at_`, where it stays with its T2 copy; none:
the flash cannot give it, and the descriptor fails. -/
def execTilePromotion (g : Fin 128) (k : Nat) (at_ : Option Nat) (s : State) : Out :=
  .next (match (s.cluster g).movers[k]? with
    | some j =>
      match j.waitTile, mvRecord j.desc, j.doomed with
      | some i, some r, none =>
        match at_ with
        | none => s.modJob g k fun j => { j with doomed := some St.mediaUnrecovered }
        | some a =>
          let t := s.loc r i
          if s.freeRange a t.len && s.fits (s.recPool r) t.len then
            let s := (s.take (s.recPool r) a t.len).writeMem a (s.t2Bytes t.at_ t.len)
            let s := s.setLoc r i { wh := 1, at_ := a, copy := true, len := t.len, pos := t.at_ }
            s.modJob g k fun j => { j with waitTile := s.inT2 r (s.mvTiles j.desc) }
          else s
      | _, _, _ => s
    | none => s)

end Sys2Proof.Machine
end

