-- ==== Sys2Proof/Machine/HostQueue.lean ====
section
/-! DEFINITION. Controllers, queues, ordering, admin commands (spec/03). -/

namespace Sys2Proof.Machine

/-! ## Admin completions -/

/-- Post an admin completion into the admin CQ, or keep it until a slot is free (R62). -/
def State.adminPush (s : State) (fn : Nat) (e : Cqe) : State :=
  match Tab.find (s.ctrl fn).cqs 0 with
  | some cq =>
    if cq.room then s.pushCqe fn 0 e
    else (s.modCtrl fn fun c => { c with adminWait := c.adminWait ++ [e] }).modStats fn fun x =>
      { x with cqFullWaits := satAdd (2 ^ 64 - 1) x.cqFullWaits 1 }
  | none => s

/-- An admin command leaves the admin SQ, where the host has rung it in. -/
def State.takeAdmin (s : State) (fn : Nat) : State :=
  s.modSq fn 0 fun q => if q.avail = 0 then q else { q with head := (q.head + 1) % q.size }

/-- Head of the admin SQ, as a completion reports it. -/
def State.adminHead (s : State) (fn : Nat) : Nat := match Tab.find (s.ctrl fn).sqs 0 with
  | some q => q.head
  | none => 0

/-- End an admin command: its completion and the data it returns. -/
def State.adminEnd (s : State) (fn : Nat) (e : Sqe) (c : Cqe) (b : Bytes) : State :=
  let s := s.takeAdmin fn
  let c := { c with sq := 0, sqHead := s.adminHead fn, cid := e.cid }
  (s.adminPush fn c).reply (.completion c b)

/-- A refusal of an admin command: ST code in Dword 0, 0xFF_FFFF in Dword 1 (R69). -/
def adminRefusal (st : NvStatus) (code : Nat) : Cqe := { status := st, dw0 := code, dw1 := noTag }

/-- What an admin command does: the state, its completion and its data. -/
abbrev Admin := State → State × Cqe × Bytes

/-- An admin command that is refused. -/
def Admin.refuse (st : NvStatus) (code : Nat) : Admin := fun s => (s, adminRefusal st code, [])

/-- Does the function exist? (R51) -/
def State.hasFn (s : State) (fn : Nat) : Bool := decide (fn = 0) || s.host.bifurcated

/-- Does a controller serve commands? -/
def State.ctrlServes (s : State) (fn : Nat) : Bool :=
  s.hasFn fn && (s.ctrl fn).rdy && !(s.ctrl fn).resetting && s.alive

/-- Is an admin command of the controller still running: a Delete I/O SQ (R67), a Format whose secure discard goes on (R398), or a
Sanitize (R400)? -/
def State.adminBusy (s : State) (fn : Nat) : Bool :=
  (s.ctrl fn).sqs.any (fun p => p.2.deleting.isSome)
    || (match s.ftl.discard with
      | some d => decide (2 ^ 20 + fn * 65536 ≤ d.1) && decide (d.1 < 2 ^ 20 + (fn + 1) * 65536)
      | none => false)
    || (match s.ftl.sanitizer with
      | some z => z.host.any fun h => h.1 == fn
      | none => false)

/-- Does the admin queue of a controller take its next command? Admin commands execute one at a time, in order (R60). -/
def State.adminServes (s : State) (fn : Nat) : Bool := s.ctrlServes fn && !s.adminBusy fn

/-- Has the admin SQ no command that could go before an I/O command (R60)? -/
def State.adminIdle (s : State) (fn : Nat) : Bool :=
  s.adminBusy fn || (match Tab.find (s.ctrl fn).sqs 0 with
    | some q => q.avail == 0
    | none => true)


/-- Run an admin command on a controller that serves them. -/
def State.admin (s : State) (fn : Nat) (e : Sqe) (f : Admin) : State :=
  if s.adminServes fn then
    let (s, c, b) := f s
    s.adminEnd fn e c b
  else s

/-! ## Resets (R68, R83) -/

/-- Opcodes of the NVM and vendor sets a controller offers (R55). -/
def ioOpcodes : List Nat := [0x00, 0x01, 0x02, 0x08, 0x09, 0x0C, 0x83, 0x85, 0x89, 0x8F, 0x93, 0x97, 0x98, 0x9B]

/-- One of the eight vendor commands of R74. -/
def listedVendor (e : Sqe) : Bool := e.isVendor && ioOpcodes.contains e.opc

/-- Stop one tracked command of a queue that is deleted or of a controller in reset (R67, R68). Dword 0 of a command that was never
started holds ST_STOPPED: the spec names no code for it (DESIGN CHOICE, log 90). -/
def stopOne (tag : Nat) (t : Trk) (s : State) : State :=
  match t.phase with
  | .fetched => s.complete tag { status := .abortedSqDeletion, dw0 := St.stopped, dw1 := tag }
  | .started =>
    if listedVendor t.sqe && t.sqe.opc != 0x98 then s.modTrk tag fun t => { t with phase := .stopping } else s
  | .stopping => s
  | .finished => if (s.ctrl t.fn).resetting then s.freeTrk tag else s

/-- Stop the commands of the list that satisfy a condition. -/
def stopAll (p : Trk → Bool) : List (Nat × Trk) → State → State
  | [], s => s
  | (tag, t) :: l, s => stopAll p l (if p t then stopOne tag t s else s)

/-- The admin commands of a controller that still run are its own no more: a Format's discard ends where it stands, a sanitize goes on
without it. -/
def Ftl.orphan (f : Ftl) (fn : Nat) : Ftl :=
  { f with
    discard := f.discard.filter fun d => !(decide (2 ^ 20 + fn * 65536 ≤ d.1) && decide (d.1 < 2 ^ 20 + (fn + 1) * 65536))
    sanitizer := f.sanitizer.map fun z => { z with host := z.host.map fun h => if h.1 = fn then (2, h.2) else h } }

/-- A controller reset begins (R68): its commands stop and post nothing. -/
def ctrlReset (fn : Nat) (s : State) : State :=
  let c := s.ctrl fn
  if c.en || c.rdy then
    let s := (s.modCtrl fn fun c => { c with en := false, resetting := true, aers := [], adminWait := [] }).modFtl (·.orphan fn)
    stopAll (fun t => t.fn == fn) s.host.trk s
  else s

/-- R83: the host mailbox of a function is reset. A message in BUSY runs to its end and its response is discarded; the event
queue is kept; every event class is admitted again (R100). -/
def Mbox.hostReset (m : Mbox) : Mbox :=
  { m with state := if m.state = .recovery then .recovery else .idle
           reqBytes := 0, inWords := 0, inData := [], resp := [], outWords := 0
           eventIe := false, respIe := false, version := none, caps1 := 0, caps2 := 0, caps3 := 0
           key := none, lastCounter := 0, mask := 0xFFFE }

/-- Messages of a mailbox run on, their responses discarded. -/
def abandonJobs (k : Nat) (l : List AmpJob) : List AmpJob :=
  l.map fun j => if j.mb = k then { j with abandoned := true } else j

/-- Reset a function's host mailbox (R83). -/
def mailboxReset (fn : Nat) (s : State) : State :=
  (s.modMb fn Mbox.hostReset).modAmp fun a => { a with jobs := abandonJobs fn a.jobs }

/-- The PCIe controls of a function at their defaults (R53). -/
def Ctrl.pcieDefaults (c : Ctrl) : Ctrl := { c with devCtl := 0x2810, devCtl2 := 0, linkCtl := 0, aerCtl := 0 }

/-- A reset of a whole function: controller, PCIe controls and mailbox (R68, R83). -/
def functionReset (fn : Nat) (s : State) : State := mailboxReset fn ((ctrlReset fn s).modCtrl fn Ctrl.pcieDefaults)

/-- The port of a function is down or trains again: nothing is trained (R50, R52). -/
def Ctrl.untrained (c : Ctrl) : Ctrl :=
  { c with port := if c.perst then .down else .training, cfg := false, speed := 0, width := 0, flit := false }

/-- LINK_DOWN: the function is reset and its port trains again. -/
def execLinkDown (fn : Fin 2) (s : State) : Out :=
  .next (if s.hasFn fn then
    (functionReset fn s).modCtrl fn Ctrl.untrained
    else s)
/-- HOT_RESET. -/
def execHotReset (fn : Fin 2) (s : State) : Out := .next (if s.hasFn fn then functionReset fn s else s)
/-- FUNCTION_LEVEL_RESET. -/
def execFunctionLevelReset (fn : Fin 2) (s : State) : Out := .next (if s.hasFn fn then functionReset fn s else s)
/-- An NVM Subsystem Reset resets both controllers and leaves the mailboxes (R68, R83). -/
def subsystemReset (s : State) : State := ctrlReset 1 (ctrlReset 0 s)
/-- NVM_SUBSYSTEM_RESET. -/
def execNvmSubsystemReset (s : State) : Out := .next (subsystemReset s)
/-- CC_EN_CLEAR (R68): a CC.EN transition leaves the mailbox untouched (R83). -/
def execCcEnClear (fn : Fin 2) (s : State) : Out := .next (if (s.ctrl fn).en then ctrlReset fn s else s)

/-- Do vendor commands of a controller still have to reach their boundaries? (R67, R68) -/
def State.vendorLeft (s : State) (fn : Nat) : Bool :=
  s.host.trk.any fun p => p.2.fn == fn && listedVendor p.2.sqe && (p.2.phase == .started || p.2.phase == .stopping)

/-- Free every tracker entry of a function. -/
def HostSide.dropTrk (h : HostSide) (fn : Nat) : HostSide := { h with trk := h.trk.filter fun p => p.2.fn != fn }

/-! ## Doorbells, fetching, starting (R60-R63) -/

/-- Post the completions that wait for a CQ, oldest first, while it has room (R62). -/
def postWaiting (fn q : Nat) : List Nat → State → State
  | [], s => s
  | tag :: l, s =>
    match Tab.find (s.ctrl fn).cqs q, s.trk tag with
    | some cq, some t =>
      if cq.room then
        match t.completion with
        | some e =>
          let s := s.modCq fn q fun c => { c with waiting := c.waiting.drop 1 }
          postWaiting fn q l ((s.pushCqe fn q e).freeTrk tag)
        | none => s
      else s
    | some cq, none => postWaiting fn q l (s.modCq fn q fun c => { c with waiting := c.waiting.drop 1 })
    | _, _ => s

/-- Post the admin completions that wait, while the admin CQ has room. -/
def postAdmin (fn : Nat) : List Cqe → State → State
  | [], s => s
  | e :: l, s =>
    match Tab.find (s.ctrl fn).cqs 0 with
    | some cq =>
      if cq.room then
        postAdmin fn l ((s.pushCqe fn 0 e).modCtrl fn fun c => { c with adminWait := c.adminWait.drop 1 })
      else s
    | none => s

/-- R62: the host frees CQ slots up to the new head; completions that wait are posted. A value that frees more than was
posted is ignored. -/
def cqHead (fn q v : Nat) (s : State) : State :=
  match Tab.find (s.ctrl fn).cqs q with
  | some cq =>
    let head := (cq.tail + cq.size - cq.posted.length) % cq.size
    let n := (v + cq.size - head) % cq.size
    if v < cq.size ∧ n ≤ cq.posted.length then
      let s := s.modCq fn q fun c => { c with posted := c.posted.drop n }
      if q = 0 then postAdmin fn (s.ctrl fn).adminWait s else postWaiting fn q cq.waiting s
    else s
  | none => s

/-- CQ_HEAD_DOORBELL. -/
def execCqHeadDoorbell (fn : Fin 2) (q v : Nat) (s : State) : Out := .next (cqHead fn q v s)

/-- May a command be fetched from the queue now? -/
def Sq.eligible (q : Sq) : Bool := q.stop.isNone && q.deleting.isNone && decide (0 < q.avail)

/-- The queue whose turn it is (R60): the next eligible I/O SQ after the one that had the last turn. -/
def Ctrl.nextTurn (c : Ctrl) : Option Nat :=
  let l := (c.sqs.filter fun p => decide (p.1 ≠ 0) && p.2.eligible).map (·.1)
  match l.find? (fun k => decide (c.turn < k)) with
  | some k => some k
  | none => l.head?

/-- Commands taken on one turn (R57, R60): 2 to the burst field, 7 meaning no limit. -/
def Ctrl.burst (c : Ctrl) : Nat :=
  let ab := Tab.get 0 c.features 0x01 % 8
  if ab = 7 then 65536 else 2 ^ ab

/-- Can the tag be taken by a command of the function? (R61) -/
def State.tagFree (s : State) (fn tag : Nat) : Bool :=
  let (lo, n) := s.host.share fn
  decide (lo ≤ tag) && decide (tag < lo + n) && (s.trk tag).isNone

/-- Note that fetching stops because the share is exhausted, once per stop (R79). -/
def State.noteStall (s : State) (fn : Nat) : State :=
  if (s.ctrl fn).stalled then s
  else (s.modCtrl fn fun c => { c with stalled := true }).modStats fn fun t =>
    { t with stallTracker := satAdd (2 ^ 64 - 1) t.stallTracker 1 }

/-- Fetch one command into the tracker (R61, R63). -/
def fetchOne (fn q tag : Nat) (e : Sqe) (s : State) : State :=
  let s := s.modSq fn q fun x => { x with head := (x.head + 1) % x.size, stop := if e.ordered then some tag else x.stop }
  let s := s.modHost fun h =>
    { h with trk := Tab.put h.trk tag { fn := fn, sq := q, sqe := e, seq := h.fetchSeq, fetchCount := s.hdCount }
             fetchSeq := h.fetchSeq + 1 }
  let s := s.modStats fn fun t => { t with trackerHigh := max t.trackerHigh (s.host.inUse fn) }
  s.noteOrdered fn q

/-- Fetch commands of one turn while the queue and the tracker allow it. -/
def fetchTurn (fn q : Nat) : Nat → List (Nat × Sqe) → State → State
  | 0, _, s => s
  | _, [], s => s
  | n + 1, (tag, e) :: l, s =>
    match Tab.find (s.ctrl fn).sqs q with
    | some sq =>
      if sq.eligible then
        if (s.host.share fn).2 ≤ s.host.inUse fn then s.noteStall fn
        else if s.tagFree fn tag then fetchTurn fn q n l (fetchOne fn q tag e s) else s
      else s
    | none => s

/-- COMMAND_FETCH (R60, R61): commands of the admin SQ go first; the queue whose turn it is gives up to the arbitration burst of commands; each takes the free
tracker entry named with it (the choice is left open by R61). -/
def execCommandFetch (fn : Fin 2) (q : Nat) (cmds : List (Nat × Sqe)) (s : State) : Out :=
  let c := s.ctrl fn
  .next (if s.ctrlServes fn && s.adminIdle fn && c.nextTurn == some q then
    fetchTurn fn q c.burst cmds (s.modCtrl fn fun c => { c with turn := q })
    else s)

/-- Does an earlier command of the same SQ still hold its tracker entry? (R63) -/
def State.earlierHeld (s : State) (t : Trk) (p : Trk → Bool) : Bool :=
  s.host.trk.any fun x => x.2.fn == t.fn && x.2.sq == t.sq && decide (x.2.seq < t.seq) && p x.2

/-- COMMAND_START (R63): an ordered command starts only after every command fetched earlier from its SQ has posted its
completion. -/
def execCommandStart (tag : Nat) (s : State) : Out :=
  .next (match s.trk tag with
    | some t =>
      if t.phase == .fetched && !t.admitted && !(t.sqe.ordered && s.earlierHeld t (fun _ => true)) then
        s.modTrk tag fun t => { t with phase := .started }
      else s
    | none => s)

/-- Opcodes of the admin set (R55). -/
def adminOpcodes : List Nat := [0x00, 0x01, 0x02, 0x04, 0x05, 0x06, 0x08, 0x09, 0x0A, 0x0C, 0x0D, 0x15, 0x80, 0x84]

/-- INVALID_COMMAND_OPCODE (R55): of an I/O command by its tag, or of an admin command. -/
def execInvalidCommandOpcode (fn : Fin 2) (tag : Option Nat) (e : Sqe) (s : State) : Out :=
  .next (match tag with
    | some k =>
      match s.trk k with
      | some t =>
        if t.phase == .started && !ioOpcodes.contains t.sqe.opc then s.completeErr k .invalidOpcode St.unsupported else s
      | none => s
    | none =>
      if adminOpcodes.contains e.opc then s else s.admin fn e (Admin.refuse .invalidOpcode St.unsupported))

/-! ## Queue creation and deletion (R58, R59, R67) -/

/-- Tracked commands of a queue. -/
def State.queueBusy (s : State) (fn q : Nat) : Bool := s.host.trk.any fun p => p.2.fn == fn && p.2.sq == q

/-- Delete I/O SQ (R67): fetching stops, the queue's commands stop; the command completes by DELETE_IO_SQ_DONE. -/
def execDeleteIoSq (fn : Fin 2) (e : Sqe) (s : State) : Out :=
  let q := bits e.cdw10 0 16
  .next (if s.adminServes fn then
    match Tab.find (s.ctrl fn).sqs q with
    | some _ =>
      if q = 0 then s.admin fn e (Admin.refuse .invalidQueueId St.idRange)
      else
        let s := s.modSq fn q fun x => { x with deleting := some e.cid }
        stopAll (fun t => t.fn == fn.val && t.sq == q) s.host.trk s
    | none => s.admin fn e (Admin.refuse .invalidQueueId St.idRange)
    else s)

/-- Create I/O SQ (R58, R59): `held`: the module is Held. A CQ 0, or one beyond the range, is answered as a CQ that does not exist
(DESIGN CHOICE, log 90). -/
def admCreateSq (held : Bool) (fn : Nat) (e : Sqe) : Admin := fun s =>
  let q := bits e.cdw10 0 16
  let size := bits e.cdw10 16 16 + 1
  let cq := bits e.cdw11 16 16
  let c := s.ctrl fn
  if held then Admin.refuse .commandSequence St.held s
  else if q = 0 ∨ s.host.maxQueue < q ∨ (Tab.find c.sqs q).isSome then Admin.refuse .invalidQueueId St.idRange s
  else if size < 2 then Admin.refuse .invalidQueueSize St.unsupported s
  else if bit e.cdw11 0 = false then Admin.refuse .invalidField St.unsupported s
  else if cq = 0 ∨ (Tab.find c.cqs cq).isNone then Admin.refuse .cqInvalid St.noObject s
  else (s.modCtrl fn fun c => { c with sqs := Tab.put c.sqs q { size := size, cq := cq } }, {}, [])

/-- Create I/O CQ (R35, R58, R59). -/
def admCreateCq (held : Bool) (fn : Nat) (e : Sqe) : Admin := fun s =>
  let q := bits e.cdw10 0 16
  let size := bits e.cdw10 16 16 + 1
  let v := bits e.cdw11 16 16
  if held then Admin.refuse .commandSequence St.held s
  else if q = 0 ∨ s.host.maxQueue < q ∨ (Tab.find (s.ctrl fn).cqs q).isSome then Admin.refuse .invalidQueueId St.idRange s
  else if size < 2 then Admin.refuse .invalidQueueSize St.unsupported s
  else if bit e.cdw11 0 = false then Admin.refuse .invalidField St.unsupported s
  else if v = 1 then Admin.refuse .invalidVector St.unsupported s
  else if s.host.lastVector < v then Admin.refuse .invalidVector St.idRange s
  else (s.modCtrl fn fun c =>
    { c with cqs := Tab.put c.cqs q { size := size, vector := v, ien := bit e.cdw11 1 } }, {}, [])

/-- Delete I/O CQ (R59): refused while an SQ uses it. -/
def admDeleteCq (fn : Nat) (e : Sqe) : Admin := fun s =>
  let q := bits e.cdw10 0 16
  let c := s.ctrl fn
  if q = 0 ∨ (Tab.find c.cqs q).isNone then Admin.refuse .invalidQueueId St.idRange s
  else if c.sqs.any (fun p => p.2.cq == q) then Admin.refuse .invalidQueueDeletion St.busy s
  else (s.modCtrl fn fun c => { c with cqs := Tab.del c.cqs q }, {}, [])

/-- DELETE_IO_CQ. -/
def execDeleteIoCq (fn : Fin 2) (e : Sqe) (s : State) : Out := .next (s.admin fn e (admDeleteCq fn e))

/-! ## Identify (R56) -/

/-- A byte string of `n` bytes with fields (offset, size, value) laid in ascending offset. -/
def layFields : Nat → Nat → List (Nat × Nat × Nat) → Bytes
  | at_, n, [] => List.replicate (n - at_) 0
  | at_, n, (o, k, v) :: l => List.replicate (o - at_) 0 ++ leBytes k v ++ layFields (o + k) n l

/-- Atomic write unit of the part in LBAs less one (R3, R56). -/
def Part.awun : Part → Nat
  | .p064 => 15
  | .p128 => 15
  | .p256 => 0

/-- Sectors of a mapping unit (R382). -/
def Part.unitSectors : Part → Nat
  | .p064 => 4
  | .p128 => 8
  | .p256 => 16

/-- Logical units of the user capacity (R382). -/
def userUnits : Nat := 3662109375

/-- Units that no namespace, index reservation or tier store holds. -/
def Ftl.freeUnits (f : Ftl) : Nat := userUnits - (f.space.map fun r : Region => r.count).sum

/-- Identify Controller: the values of R56, the one read-only firmware slot of R57, the capacities (R134, R382) and the power states
(R445) at the places of the NVMe data structure (log 18). -/
def identifyController (p : Part) (fn free : Nat) : Bytes :=
  layFields 0 4096 [(0, 2, Config.vendorId), (2, 2, Config.vendorId), (77, 1, 9), (78, 2, fn), (80, 4, 0x00020000),
    (259, 1, 7), (260, 1, 3), (263, 1, 4), (266, 2, 343), (268, 2, 353), (280, 16, userUnits * p.unitSectors * 4096),
    (296, 16, free * p.unitSectors * 4096), (512, 1, 0x66), (513, 1, 0x44), (516, 4, 128), (525, 1, 0), (526, 2, p.awun),
    (528, 2, p.awun), (536, 4, 0x00000001),
    (2048, 2, 60000), (2080, 2, 6000), (2084, 4, 10), (2088, 4, 10), (2112, 2, 700), (2115, 1, 2), (2116, 4, 1000), (2120, 4, 100),
    (2144, 2, 70), (2147, 1, 2), (2148, 4, 1000), (2152, 4, 1000), (2176, 2, 7), (2179, 1, 2), (2180, 4, 50000), (2184, 4, 10000)]

/-- Identify Namespace: size, the atomicity values of R56, the preferred granularities and DLFEAT of R382 and R391 (log 18). -/
def identifyNamespace (p : Part) (n : Nspace) : Bytes :=
  layFields 0 4096 [(0, 8, n.size), (8, 8, n.size), (16, 8, n.size), (24, 1, 18), (25, 1, 0), (26, 1, 0), (33, 1, 1), (34, 2, p.awun),
    (36, 2, p.awun), (40, 2, p.awun), (42, 2, 0), (44, 2, p.awun), (64, 2, p.unitSectors - 1),
    (66, 2, p.unitSectors - 1), (68, 2, p.unitSectors - 1), (70, 2, p.unitSectors - 1), (128, 4, 0x000C0000)]

/-- Is a namespace attached to a controller? -/
def Nspace.attached (n : Nspace) (fn : Nat) : Bool := if fn = 0 then n.att0 else n.att1

/-- A list of 32-bit numbers, 1,024 at most, padded to 4,096 bytes. -/
def idList (l : List Nat) : Bytes :=
  let b := (l.take 1024).flatMap (leBytes 4)
  b ++ List.replicate (4096 - b.length) 0

/-- A controller list: a count and 16-bit identifiers. -/
def ctrlList (l : List Nat) : Bytes :=
  let b := leBytes 2 l.length ++ l.flatMap (leBytes 2)
  b ++ List.replicate (4096 - b.length) 0

/-- Controllers a module presents. -/
def State.controllers (s : State) : List Nat := if s.host.bifurcated then [0, 1] else [0]

/-- Identify by CNS (R56, log 18): namespace, controller, namespace lists, controller lists. -/
def admIdentify (fn : Nat) (e : Sqe) : Admin := fun s =>
  match bits e.cdw10 0 8 with
  | 0x00 =>
    if e.nsid = 0 ∨ 128 < e.nsid then Admin.refuse .invalidNamespace St.idRange s
    else match Tab.find s.host.ns e.nsid with
      | some n =>
        if n.attached fn then (s, {}, identifyNamespace s.part n) else (s, {}, List.replicate 4096 0)
      | none => Admin.refuse .invalidNamespace St.noObject s
  | 0x01 => (s, {}, identifyController s.part fn s.ftl.freeUnits)
  | 0x02 => (s, {}, idList ((s.host.ns.filter fun p => p.2.attached fn && decide (e.nsid < p.1)).map (·.1)))
  | 0x03 =>
    match Tab.find s.host.ns e.nsid with
    | some _ => (s, {}, [4, 1, 0, 0, 0] ++ List.replicate 4091 0)
    | none => Admin.refuse .invalidNamespace (if e.nsid = 0 ∨ 128 < e.nsid then St.idRange else St.noObject) s
  | 0x10 => (s, {}, idList ((s.host.ns.filter fun p => decide (e.nsid < p.1)).map (·.1)))
  | 0x11 =>
    match Tab.find s.host.ns e.nsid with
    | some n => (s, {}, identifyNamespace s.part n)
    | none => Admin.refuse .invalidNamespace (if e.nsid = 0 ∨ 128 < e.nsid then St.idRange else St.noObject) s
  | 0x12 =>
    match Tab.find s.host.ns e.nsid with
    | some n => (s, {}, ctrlList (s.controllers.filter fun k => n.attached k))
    | none => Admin.refuse .invalidNamespace (if e.nsid = 0 ∨ 128 < e.nsid then St.idRange else St.noObject) s
  | 0x13 => (s, {}, ctrlList s.controllers)
  | _ => Admin.refuse .invalidField St.unsupported s

/-- IDENTIFY. -/
def execIdentify (fn : Fin 2) (e : Sqe) (s : State) : Out := .next (s.admin fn e (admIdentify fn e))

/-! ## Abort, features, events (R57, R60, R66) -/

/-- Abort never aborts (R66): Dword 0 bit 0. -/
def admAbort (fn : Nat) : Admin := fun s =>
  (s.modStats fn fun t => { t with abortRequests := satAdd (2 ^ 64 - 1) t.abortRequests 1 }, { dw0 := 1 }, [])

/-- ABORT. -/
def execAbort (fn : Fin 2) (e : Sqe) (s : State) : Out := .next (s.admin fn e (admAbort fn))

/-- The features of R57 other than Timestamp and Power Management. -/
def plainFeatures : List Nat := [0x01, 0x04, 0x07, 0x08, 0x09, 0x0A, 0x0B]

/-- Where a feature's value is kept: temperature thresholds by sensor and type, vector configurations by vector. -/
def featureKey (fid cdw11 : Nat) : Nat :=
  if fid = 0x04 then fid + 256 * (bits cdw11 16 6 + 1)
  else if fid = 0x09 then fid + 256 * (bits cdw11 0 16 + 1)
  else fid

/-- The value a Set Features stores: of Arbitration only the burst field (R57). -/
def featureValue (fid cdw11 : Nat) : Nat := if fid = 0x01 then cdw11 % 8 else cdw11

/-- Number of Queues answers the queues the function offers, less one, in both halves (R59). -/
def State.queuesWord (s : State) : Nat := (s.host.maxQueue - 1) * 65537

/-- Set Features of the plain features (R57). The Save bit asks for what is not offered. Power Management and Timestamp have rows of
their own. -/
def admSetFeatures (fn : Nat) (e : Sqe) : Admin := fun s =>
  let fid := bits e.cdw10 0 8
  if plainFeatures.contains fid && !bit e.cdw10 31 then
    (s.modCtrl fn fun c => { c with features := Tab.set 0 c.features (featureKey fid e.cdw11) (featureValue fid e.cdw11) },
      { dw0 := if fid = 0x07 then s.queuesWord else 0 }, [])
  else Admin.refuse .invalidField St.unsupported s

/-- The feature identifier of a Set Features command. -/
def featureId (e : Sqe) : Nat := bits e.cdw10 0 8

/-- SET_FEATURES: a command whose feature has a row of its own is not this one. -/
def execSetFeatures (fn : Fin 2) (e : Sqe) (s : State) : Out :=
  .next (if featureId e = 0x02 ∨ featureId e = 0x0E then s else s.admin fn e (admSetFeatures fn e))

/-- Set Features Timestamp (R39): the pair of host time and HD count. The data's low 48 bits are milliseconds. -/
def admTimestamp (d : Bytes) : Admin := fun s =>
  ((s.modFabric fun f => { f with pair := some (leNat (d.take 6), s.hdCount) }).feedHostTime, {}, [])

/-- SET_FEATURES_TIMESTAMP. -/
def execSetFeaturesTimestamp (fn : Fin 2) (e : Sqe) (d : Bytes) (s : State) : Out :=
  .next (if featureId e = 0x0E then s.admin fn e (if bit e.cdw10 31 then Admin.refuse .invalidField St.unsupported else admTimestamp d)
    else s)

/-- Get Features (R57): the current value, or the default 0. Saved values and supported capabilities (SEL above 1) are refused: the spec
is silent on them (DESIGN CHOICE, log 90). -/
def admGetFeatures (fn : Nat) (e : Sqe) : Admin := fun s =>
  let fid := bits e.cdw10 0 8
  let sel := bits e.cdw10 8 3
  if 1 < sel then Admin.refuse .invalidField St.unsupported s
  else if fid = 0x0E then
    (s, {}, leBytes 6 (if sel = 0 then s.hostTime.getD 0 else 0) ++ [if s.fabric.pair.isSome then 2 else 0, 0])
  else if fid = 0x02 then (s, { dw0 := if sel = 0 then (if fn = 0 then s.power.nvmePs0 else s.power.nvmePs1) else 0 }, [])
  else if plainFeatures.contains fid then
    let v := if sel = 0 then Tab.get 0 (s.ctrl fn).features (featureKey fid e.cdw11) else 0
    (s, { dw0 := if fid = 0x07 then s.queuesWord else v }, [])
  else Admin.refuse .invalidField St.unsupported s

/-- GET_FEATURES. -/
def execGetFeatures (fn : Fin 2) (e : Sqe) (s : State) : Out := .next (s.admin fn e (admGetFeatures fn e))

/-- ASYNCHRONOUS_EVENT_REQUEST (R56, R60): it waits without blocking later commands; a ninth is refused, with a status the spec does
not name (DESIGN CHOICE, log 90). -/
def execAsynchronousEventRequest (fn : Fin 2) (e : Sqe) (s : State) : Out :=
  .next (if s.adminServes fn then
    if (s.ctrl fn).aers.length < 8 then (s.takeAdmin fn).modCtrl fn fun c => { c with aers := c.aers ++ [e.cid] }
    else s.admin fn e (Admin.refuse .invalidField St.unsupported)
    else s)

/-! ## Namespace attachment (R54) -/

/-- The refusal of a namespace identifier, where it is one (R69). -/
def State.nsRefusal (s : State) (fn nsid : Nat) : Option (NvStatus × Nat) :=
  if nsid = 0 ∨ 128 < nsid then some (.invalidNamespace, St.idRange)
  else match Tab.find s.host.ns nsid with
    | some n => if n.attached fn then none else some (.invalidNamespace, St.noObject)
    | none => some (.invalidNamespace, St.noObject)

/-- Attach a namespace to the listed controllers, or detach it. -/
def Nspace.attach (n : Nspace) (on : Bool) (l : List Nat) : Nspace :=
  { n with att0 := if l.contains 0 then on else n.att0, att1 := if l.contains 1 then on else n.att1 }

/-- Namespace Attachment (R54): `l` is the controller list. -/
def admAttach (e : Sqe) (l : List Nat) : Admin := fun s =>
  let sel := bits e.cdw10 0 4
  if e.nsid = 0 ∨ 128 < e.nsid then Admin.refuse .invalidNamespace St.idRange s
  else match Tab.find s.host.ns e.nsid with
    | none => Admin.refuse .invalidNamespace St.noObject s
    | some n =>
      if 1 < sel ∨ l.any (fun k => !s.controllers.contains k) then Admin.refuse .invalidField St.unsupported s
      else (s.modHost fun h => { h with ns := Tab.put h.ns e.nsid (n.attach (sel == 0) l) }, {}, [])

/-- NAMESPACE_ATTACHMENT. -/
def execNamespaceAttachment (fn : Fin 2) (e : Sqe) (l : List Nat) (s : State) : Out := .next (s.admin fn e (admAttach e l))

/-! ## Flush and the result timer (R56, R78) -/

/-- The refusal of a standard I/O command's common fields, where it is one: reserved fields, fused operations, namespace
(R11, R63, R69, R496). -/
def State.nvmRefusal (s : State) (t : Trk) : Option (NvStatus × Nat) :=
  let e := t.sqe
  let mark := e.opc == 0x01 || e.opc == 0x02 || e.opc == 0x08 || e.opc == 0x09
  if e.cdw2 ≠ 0 ∨ e.cdw3 ≠ 0 ∨ bits e.flags 2 4 ≠ 0 ∨ (bit e.cdw13 15 = true ∧ mark = false) then
    some (.invalidField, St.reservedField)
  else if bits e.flags 0 2 ≠ 0 ∨ 1 < bits e.flags 6 2 then some (.invalidField, St.unsupported)
  else s.nsRefusal t.fn e.nsid

/-- FLUSH (R56): completes once every Write and Write Zeroes fetched before it from its SQ has completed. -/
def execFlush (tag : Nat) (s : State) : Out :=
  .next (match s.startedAs tag 0x00 with
    | some t =>
      if s.ftl.sanitizer.isSome then s.completeSanitizing tag else
      match s.nvmRefusal t with
      | some (st, code) => s.completeErr tag st code
      | none =>
        if s.earlierHeld t (fun x => x.sqe.opc == 0x01 || x.sqe.opc == 0x08) then s else s.completeOk tag
    | none => s)

/-- RESULT_HEADER_TIMER (R78): 1 ms after the last update with results waiting. -/
def execResultHeaderTimer (tag : Nat) (s : State) : Out :=
  .next (match s.trk tag with
    | some t =>
      match t.result with
      | some r => if (0 < r.newBytes ∨ 0 < r.newRecords) ∧ r.updated + 1000 ≤ s.hdCount then s.writeHeader tag else s
      | none => s
    | none => s)

/-! ## Queue statistics (R79) and controller registers -/

/-- Log page C1h. -/
def State.queueLog (s : State) (fn : Nat) : Bytes :=
  let t := (s.ctrl fn).stats
  leBytes 8 (s.host.inUse fn) ++ leBytes 8 t.trackerHigh ++ leBytes 8 t.stallTracker ++ leBytes 8 t.stallOrdered
    ++ leBytes 8 t.cqFullWaits ++ leBytes 8 t.abortRequests ++ leBytes 8 t.resultFull ++ leBytes 8 t.stopped
    ++ List.replicate 448 0

/-- Widths to which a port trains (R50): an x8 port, or with two ports an x4 one, and downward. -/
def HostSide.portWidths (h : HostSide) : List Nat := if h.bifurcated then [4, 2, 1] else [8, 4, 2, 1]

/-- PCIE_LINK_UP (R50, R52): training completes at a speed and width, and configuration space answers. `flit`: the partner supports Flit
mode; at 64 GT/s it is always used. -/
def execPcieLinkUp (l : TrainedLink) (s : State) : Out :=
  .next (if (s.ctrl l.fn).port = .training ∧ 1 ≤ l.speed ∧ l.speed ≤ 6 ∧ s.host.portWidths.contains l.width = true then
    s.modCtrl l.fn fun c => { c with port := .up, cfg := true, speed := l.speed, width := l.width, flit := l.flit || l.speed == 6 }
    else s)

end Sys2Proof.Machine
end

