-- ==== Sys2Proof/Machine/Mailbox.lean ====
section
/-! DEFINITION. The host mailboxes, the management mailbox, and the messages about the protocol itself (spec/04). -/

namespace Sys2Proof.Machine

/-! ## Moving a message (R82) -/

/-- Is a function's mailbox reachable: the function exists, its configuration space answers, the mailboxes answer? -/
def State.mbReach (s : State) (fn : Nat) : Bool := s.hasFn fn && (s.ctrl fn).cfg && s.mailOn

/-- Run a mailbox register access: nothing happens where it is not reachable; a width the register does not take is an
Unsupported Request (R34). -/
def mbAccess (fn : Nat) (fits : Bool) (f : State → State) (s : State) : State :=
  if s.mbReach fn then (if fits then f s else s.reply .unsupportedRequest) else s

/-- A register write that the present state does not accept (SEQ_ERR). -/
def Mbox.seq (m : Mbox) : Mbox := { m with seqErr := true }

/-- Words a request needs. -/
def Mbox.need (m : Mbox) : Nat := (m.reqBytes + 7) / 8

/-- MB_REQ_LEN: in IDLE a length from 16 to 65,576 enters FILLING; otherwise SEQ_ERR. -/
def Mbox.reqLen (m : Mbox) (idle : MbState) (v : Nat) : Mbox :=
  if m.state = idle ∧ 16 ≤ v ∧ v ≤ 65576 then
    { m with state := .filling, reqBytes := v, inWords := 0, inData := [], outWords := 0 }
  else m.seq

/-- MB_DATA_IN: a word in FILLING is appended, one too many is ignored and sets OVERFLOW; elsewhere SEQ_ERR. -/
def Mbox.dataIn (m : Mbox) (v : Nat) : Mbox :=
  if m.state = .filling then
    if m.inWords < m.need then { m with inData := m.inData ++ leBytes 8 v, inWords := m.inWords + 1 }
    else { m with overflow := true }
  else m.seq

/-- MB_DATA_OUT: the next 8 response bytes, 0 past the end; OUT_WORDS counts the words of the response. -/
def Mbox.dataOut (m : Mbox) : Mbox × Nat :=
  if m.state = .response ∧ m.outWords < (m.resp.length + 7) / 8 then
    ({ m with outWords := m.outWords + 1 }, leNat ((m.resp.drop (8 * m.outWords)).take 8))
  else (m, 0)

/-- Back to IDLE, with request and response discarded. -/
def Mbox.toIdle (m : Mbox) (idle : MbState) : Mbox := { m with state := idle, resp := [], inData := [] }

/-- MB_REQ_LEN_WRITE. The register takes 32-bit accesses only. -/
def execMbReqLenWrite (fn : Fin 2) (wide : Bool) (v : Nat) (s : State) : Out :=
  .next (mbAccess fn (!wide) (fun s => s.modMb fn fun m => m.reqLen s.idleState (v % 2 ^ 17)) s)

/-- MB_DATA_IN_WRITE. The register takes 64-bit accesses only. -/
def execMbDataInWrite (fn : Fin 2) (wide : Bool) (v : Nat) (s : State) : Out :=
  .next (mbAccess fn wide (fun s => s.modMb fn fun m => m.dataIn v) s)

/-- MB_DATA_OUT_READ. The register takes 64-bit accesses only. -/
def execMbDataOutRead (fn : Fin 2) (wide : Bool) (s : State) : Out :=
  .next (mbAccess fn wide (fun s => (s.modMb fn fun m => m.dataOut.1).reply (.value (s.amp.mb fn).dataOut.2)) s)

/-- SEND: in FILLING the request is submitted; a request not wholly written is answered with ST_BAD_LENGTH (R82). -/
def mbSend (fn : Nat) (s : State) : State :=
  let m := s.amp.mb fn
  if m.state = .filling then
    ampSubmit fn (m.inData.take m.reqBytes) (m.inWords == m.need) 0 (s.modMb fn fun m => { m with state := .busy })
  else s.modMb fn Mbox.seq

/-- MB_SEND. -/
def execMbSend (fn : Fin 2) (s : State) : Out := .next (mbAccess fn true (mbSend fn) s)

/-- MB_RELEASE: ignored outside RESPONSE. -/
def execMbRelease (fn : Fin 2) (s : State) : Out :=
  .next (mbAccess fn true (fun s => s.modMb fn fun m => if m.state = .response then m.toIdle s.idleState else m) s)

/-- ABANDON: request and response are discarded; a message in BUSY runs to its end and its response is discarded. -/
def mbAbandon (fn : Nat) (s : State) : State :=
  (s.modMb fn fun m => m.toIdle s.idleState).modAmp fun a => { a with
    jobs := a.jobs.map fun j => if j.mb = fn then { j with abandoned := true } else j }

/-- MB_ABANDON. -/
def execMbAbandon (fn : Fin 2) (s : State) : Out := .next (mbAccess fn true (mbAbandon fn) s)

/-- MB_RESPONSE_READY (R82, R87, R94). -/
def execMbResponseReady (mb : Fin 3) (s : State) : Out := .next (if s.mailOn then ampRespond mb s else s)

/-! ## The management mailbox (R84, R85) -/

/-- The header-only ST_BUSY answer to a request that finds the mailbox BUSY (R85). -/
def busyAnswer (b : Bytes) : Bytes :=
  let m := ampParse b
  AmpJob.response { mb := 2, version := m.version, op := m.op, tag := m.tag } St.busy []

/-- MCTP_AMP_MESSAGE: `ep` is the sending endpoint. A body with another vendor ID is dropped (R84), and so is one that is not
a request (log 21). -/
def execMctpAmpMessage (ep : Nat) (body : Bytes) (s : State) : Out :=
  .next (if s.sideband && s.mailOn && fieldAt body 0 2 == Config.vendorId && fieldAt body 2 1 == 1
      && decide (3 ≤ body.length) then
    if (s.amp.mb 2).state = .busy then s.reply (.sent ep (mctpBody 2 (busyAnswer (body.drop 3))))
    else ampSubmit 2 (body.drop 3) true ep (s.modMb 2 fun m => { m with state := .busy })
    else s)

/-- MGMT_EVENT_NOTICE (R85): one notice, to the endpoint that last completed HELLO, when the queue has become non-empty; at most one
per 100 ms. -/
def execMgmtEventNotice (s : State) : Out :=
  let late := match s.amp.lastNotice with
    | some t => decide (t + 100000 ≤ s.hdCount)
    | none => true
  .next (if s.amp.noticeDue && !(s.amp.mb 2).events.isEmpty && s.amp.helloEndpoint.isSome && late && s.sideband then
    (s.modAmp fun a => { a with noticeDue := false, lastNotice := some s.hdCount }).reply (.sent (s.amp.helloEndpoint.getD 0) (mctpBody 3 []))
    else s)

/-! ## Protocol messages (R95, R497) -/

/-- UNLISTED_AMP_OPCODE (R95). -/
def execUnlistedAmpOpcode (mb : Fin 3) (s : State) : Out :=
  .next (match ampTurn mb s.amp.jobs false with
    | some j =>
      if s.mailOn && !ampOpcodes.contains j.op then
        s.modAmp fun a => { a with jobs := ampSetReady mb (.done St.badOpcode []) a.jobs }
      else s
    | none => s)

/-- AMP_STATUS (R497; R466 in recovery mode). -/
def ampStatus : AmpBody := fun j s =>
  let m := s.amp.mb j.mb
  if s.sec.phase = .recovery then
    ampAnswer s (leBytes 1 s.sec.lastReason ++ leBytes 1 s.sec.counter ++ leBytes 2 Config.romVersion ++ List.replicate 12 0)
  else
    ampAnswer s (leBytes 1 (m.version.getD 0) ++ leBytes 1 (b2n m.key.isSome + 2 * b2n (decide (s.hdCount < m.lockUntil)))
      ++ leBytes 2 0 ++ leBytes 4 m.eventsLost ++ leBytes 8 m.lastCounter ++ leBytes 4 m.badCheck ++ leBytes 4 m.replay
      ++ leBytes 8 0 ++ leBytes 16 m.caps1 ++ leBytes 16 m.caps2 ++ leBytes 16 m.caps3 ++ List.replicate 16 0)

/-- AMP_STATUS. -/
def execAmpStatus (mb : Fin 3) (s : State) : Out := .next (ampExec mb 0x0002 ampStatus s)

/-- LOCKOUT_EXPIRY (R93): the lockout ends when the HD count reaches its end. -/
def execLockoutExpiry (mb : Fin 3) (s : State) : Out :=
  .next (if (s.amp.mb mb).lockUntil ≠ 0 ∧ (s.amp.mb mb).lockUntil ≤ s.hdCount then
    s.modMb mb fun m => { m with lockUntil := 0 } else s)

/-- The 32 bytes of an event (R100). -/
def Event.bytes (e : Event) : Bytes :=
  leBytes 4 e.seq ++ leBytes 2 e.cls ++ leBytes 2 e.code ++ leBytes 8 e.time ++ leBytes 1 (b2n e.timeLocal)
    ++ (e.detail ++ List.replicate (15 - e.detail.length) 0).take 15

/-- Take up to `n` events that satisfy a condition out of a queue, oldest first: those taken and those left. -/
def takeEvents (p : Event → Bool) : Nat → List Event → List Event × List Event
  | 0, l => ([], l)
  | _, [] => ([], [])
  | n + 1, e :: l =>
    if p e then
      let r := takeEvents p n l
      (e :: r.1, r.2)
    else
      let r := takeEvents p (n + 1) l
      (r.1, e :: r.2)

/-- R100: once space is free, an EVENTS_LOST record with the dropped count is queued. -/
def Mbox.lostRecord (m : Mbox) (stamp : Nat × Bool) : Mbox :=
  if m.dropped ≠ 0 ∧ m.events.length < 256 then
    { m.post { cls := 0x09, code := 1, time := stamp.1, timeLocal := stamp.2, detail := leBytes 4 m.dropped } with dropped := 0 }
  else m

/-- EVENT_READ (R100, R497): the events returned are removed. In recovery mode only OP_DONE events (R466). -/
def eventRead : AmpBody := fun j s =>
  let n := fieldAt j.payload 0 4
  if n = 0 ∨ 2047 < n then ampRefuse St.unsupported s
  else
    let m := s.amp.mb j.mb
    let r := takeEvents (fun e => s.sec.phase != .recovery || e.cls == 0x02) n m.events
    let s' := s.modMb j.mb fun m => ({ m with events := r.2 }).lostRecord s.stamp
    ampAnswer s' (leBytes 4 r.1.length ++ leBytes 4 0 ++ r.1.flatMap Event.bytes)

/-- EVENT_READ. -/
def execEventRead (mb : Fin 3) (s : State) : Out := .next (ampExec mb 0x0004 eventRead s)

/-- OP_STATUS (R497); the summary of an ended scrub follows (R436). -/
def opStatus : AmpBody := fun j s =>
  let id := fieldAt j.payload 0 4
  match Tab.find s.amp.ops id with
  | some o =>
    ampAnswer s (leBytes 4 id ++ leBytes 1 (b2n o.ended.isSome) ++ leBytes 1 0 ++ leBytes 2 o.progress
      ++ leBytes 2 (o.ended.getD St.ok) ++ leBytes 6 0 ++ Tab.get [] s.faults.summaries id)
  | none => ampRefuse St.noObject s

/-- OP_STATUS. -/
def execOpStatus (mb : Fin 3) (s : State) : Out := .next (ampExec mb 0x0005 opStatus s)

/-- EVENT_MASK (R100): it replaces the whole mask. -/
def eventMask : AmpBody := fun j s =>
  ampAnswer (s.modMb j.mb fun m => { m with mask := fieldAt j.payload 0 2 }) []

/-- EVENT_MASK. -/
def execEventMask (mb : Fin 3) (s : State) : Out := .next (ampExec mb 0x0103 eventMask s)

/-- TIME_READ (R497). -/
def timeRead : AmpBody := fun _ s =>
  let p := s.fabric.pair.getD (0, 0)
  ampAnswer s (leBytes 8 p.1 ++ leBytes 8 p.2 ++ leBytes 8 s.hdCount ++ leBytes 1 (b2n s.fabric.pair.isSome) ++ leBytes 7 0)

/-- TIME_READ. -/
def execTimeRead (mb : Fin 3) (s : State) : Out := .next (ampExec mb 0x0104 timeRead s)

/-! ## Registers -/

/-- MB_STATUS. -/
def Mbox.statusWord (m : Mbox) : Nat :=
  m.state.code + 16 * b2n m.seqErr + 32 * b2n m.overflow + 128 * b2n (!m.events.isEmpty) + 256 * m.events.length

/-- A mailbox register at a BAR2/3 offset. Write-only and doorbell registers read 0; MB_DATA_OUT is read by its own row. -/
def mbRegRead (s : State) (fn off : Nat) : Nat :=
  let m := s.amp.mb fn
  match off with
  | 0x04 => m.statusWord
  | 0x08 => m.reqBytes
  | 0x0C => if m.state = .response then m.resp.length else 0
  | 0x20 => b2n m.respIe + 2 * b2n m.eventIe
  | 0x24 => m.inWords + 2 ^ 16 * m.outWords
  | _ => 0

/-- The mailbox fields without a row of their own: the W1C bits of MB_STATUS, and MB_INT_EN. -/
def mbRegWrite (fn off v : Nat) (s : State) : State :=
  match off with
  | 0x04 => s.modMb fn fun m => { m with seqErr := m.seqErr && !bit v 4, overflow := m.overflow && !bit v 5 }
  | 0x20 => s.modMb fn fun m => { m with respIe := bit v 0, eventIe := bit v 1 }
  | _ => s

end Sys2Proof.Machine
end

