-- ==== Sys2Proof/Machine/Fabric.lean ====
section
/-! DEFINITION. Links, local counts and crossing queues (spec/02). -/

namespace Sys2Proof.Machine

/-! ## Links (R26, R29) -/

/-- A link of the fabric. -/
def State.link (s : State) (l : LinkId) : Link := Tab.get {} s.fabric.links l.key
/-- Replace a link. -/
def State.setLink (s : State) (l : LinkId) (x : Link) : State :=
  s.modFabric fun f => { f with links := Tab.set {} f.links l.key x }

/-- The die whose concentrator takes a link's reports: the link's own die, or for a die link the receiving die (log 15). -/
def linkDie (l : LinkId) (d : Die) : Die :=
  match l with
  | .netLink d' _ => d'
  | .dieLink _ => d

/-- The die at an end of a link: die link 0 joins CD0 and CD1, 1 joins CD0 and HD, 2 joins CD1 and HD. -/
def linkEnd (l : LinkId) (far : Bool) : Die :=
  match l with
  | .netLink d _ => d
  | .dieLink k => if far then (if k = 0 then .cd1 else .hd) else (if k = 2 then .cd1 else .cd0)

/-- R26: a flit arrives at an end of a link. A bad one is replayed, an Amber fault each time; when 16 replays of one flit have failed
in succession the link retrains. -/
def linkFlit (l : LinkId) (far ok : Bool) (s : State) : State :=
  let x := s.link l
  if x.state = .up then
    if ok then s.setLink l (x.setReplays far 0)
    else if 16 ≤ x.replays far then s.setLink l { x with state := .retraining }
    else (s.setLink l (x.setReplays far (x.replays far + 1))).report (linkEnd l far)
      { cls := .linkReplay, source := l.source, partner := partnerLink }
  else s

/-- LINK_FLIT_RECEIVE: `far` is the end at which the flit arrives. -/
def execLinkFlitReceive (l : LinkId) (far ok : Bool) (s : State) : Out := .next (linkFlit l far ok s)

/-- R26, R433: retraining ends; a link that cannot retrain is lost, a Crimson fault, and is kept in the retired list. -/
def linkRetrained (l : LinkId) (d : Die) (ok : Bool) (s : State) : State :=
  if (s.link l).state = .retraining then
    if ok then s.setLink l {}
    else
      let s := (s.setLink l { state := .lost }).report (linkDie l d)
        { cls := .linkLost, source := l.source, partner := partnerLink }
      s.modFaults fun f => { f with lost := f.lost ++ [.link l.key] }
  else s

/-! ## Local counts (R38-R40) -/

/-- Change the count registers of a die. -/
def State.modCount (s : State) (d : Die) (f : Count → Count) : State :=
  s.modFabric fun x => match d with
    | .cd0 => { x with cd0 := f x.cd0 }
    | .cd1 => { x with cd1 := f x.cd1 }
    | .hd => { x with hd := f x.hd }

/-- R40: a read of LOCAL_COUNT_LO returns the low half and latches the high half; a 64-bit read returns the whole count. -/
def countLoRead (d : Die) (whole : Bool) (s : State) : State :=
  let n := s.count d
  (s.modCount d fun c => { c with latch := n / 2 ^ 32 }).reply (.value (if whole then n else n % 2 ^ 32))

/-- LOCAL_COUNT_LO_READ. -/
def execLocalCountLoRead (d : Die) (whole : Bool) (s : State) : Out := .next (countLoRead d whole s)

/-! ## Crossing queues (R41-R49) -/

/-- A crossing queue. -/
def State.xq (s : State) (q : Nat) : XQueue := Tab.get {} s.fabric.xq q
/-- Change a crossing queue. -/
def State.modXq (s : State) (q : Nat) (f : XQueue → XQueue) : State :=
  s.modFabric fun x => { x with xq := Tab.mod {} x.xq q f }

/-- Write width in bytes (R41): 16 for the channels' queues, 8 for the others. -/
def xqWidth (q : Nat) : Nat := if q < 32 then 16 else 8

/-- FULL as the write side sees it (R45): words written less words it has seen freed. -/
def XQueue.fullWrite (x : XQueue) : Bool := decide (64 ≤ x.flight.length + x.ready.length + x.freed)

/-- R41, R45: the write side packs one write word; a write while FULL is ignored and counted. -/
def XQueue.write (x : XQueue) (w : Bytes) (bad : Bool) : XQueue :=
  if x.fullWrite then { x with overrun := true, overrunCount := satAdd 65535 x.overrunCount 1 }
  else
    let part := x.part ++ w
    if 64 ≤ part.length then
      { x with flight := x.flight ++ [⟨part.take 64, 0, x.partBad || bad⟩], part := [], partBad := false }
    else { x with part := part, partBad := x.partBad || bad }

/-- R42: a flush pads the part-packed word with zeros and tags its valid bytes; with none it does nothing. -/
def XQueue.flush (x : XQueue) : XQueue :=
  let x := { x with flushReq := false }
  if x.part = [] then x
  else
    { x with
      flight := x.flight ++ [⟨x.part ++ List.replicate (64 - x.part.length) 0, x.part.length % 64, x.partBad⟩]
      part := [], partBad := false }

/-- R47: does the fill count cross the level upward? -/
def XQueue.crosses (x : XQueue) (before after : Nat) : Bool :=
  decide (x.level ≠ 0) && decide (before < x.level) && decide (x.level ≤ after)

/-- R46, R47: `n` completed words become readable in one read-side cycle. -/
def XQueue.arrive (x : XQueue) (n : Nat) : XQueue :=
  let ws := x.flight.take n
  let y := { x with flight := x.flight.drop n, ready := x.ready ++ ws }
  if x.crosses x.ready.length y.ready.length then { y with thresh := true, interrupts := y.interrupts + b2n y.threshIe } else y

/-- The empty-read word (R45). -/
def emptyRead : Answer := .queueWord (List.replicate 64 0) 0 false true

/-- R43, R45: the read side takes a word. -/
def XQueue.read (x : XQueue) : XQueue × Answer :=
  match x.ready with
  | [] => ({ x with underrun := true }, emptyRead)
  | w :: ws =>
    ({ x with ready := ws, freed := x.freed + 1, poisonSeen := x.poisonSeen || w.bad
              poisonCount := if w.bad then satAdd 65535 x.poisonCount 1 else x.poisonCount },
      .queueWord w.data w.valid w.bad false)

/-- R49: RESET empties the queue; the sticky bits, the level, its enable and the counters stay. -/
def XQueue.reset (x : XQueue) : XQueue :=
  { x with flight := [], ready := [], part := [], partBad := false, freed := 0, flushReq := false }

/-- Address of a queue's register block: in the block of its channel (R129), or the model's place for the others (log 16). -/
def xqBlock (q : Nat) : Nat := if q < 32 then 0xF00012400000 + 0x1000 * q + 0x100 else 0xF00012440000 + 16 * q

/-- The report of a poisoned word (R44). -/
def cqPoison (q : Nat) : Report :=
  { cls := .cqPoison, source := bits (xqBlock q) 4 32, partner := partnerHd, st := St.poisoned }

/-- Report one poisoned word for each bad word that has just become readable (R44). The read side of the queues 32 to 63 is taken to lie
on HD, as that of the channels' queues does: no rule places them (DESIGN CHOICE, log 90). -/
def reportBad (q : Nat) : List XWord → State → State
  | [], s => s
  | w :: ws, s => reportBad q ws (if w.bad then s.report .hd (cqPoison q) else s)

/-- Change a channel's pipeline, where the queue is a channel's. -/
def State.modChannelOf (s : State) (q : Nat) (f : Pipe → Pipe) : State :=
  if q < 32 then s.modPipes fun p => { p with chans := Tab.mod {} p.chans q f } else s

/-- The merge stream of a channel's running job. -/
def Pipe.dest (p : Pipe) : Nat := match p.run with
  | some j => fieldAt j.desc 0x5C 2
  | none => 0

/-- Mark the records that lie in words read as poisoned. -/
def poisonSent (lo hi : Nat) (l : List (Nat × Bytes × Bool)) : List (Nat × Bytes × Bool) :=
  l.zipIdx.map fun x => if lo ≤ x.2 ∧ x.2 < hi then (x.1.1, x.1.2.1, true) else x.1

/-- The merge-select unit has read a word of a channel's queue: the records in it have arrived there. -/
def Pipe.readWord (p : Pipe) (w : XWord) : Pipe :=
  let n := p.readable + (if w.valid = 0 then 4 else w.valid / 16)
  { p with readable := min n p.sent.length, sent := if w.bad then poisonSent p.readable n p.sent else p.sent }

/-- A RESET loses the records that have not been read. -/
def Pipe.dropUnread (p : Pipe) : Pipe := { p with sent := p.sent.take p.readable }

/-- Reset a crossing queue (R48, R49). -/
def State.resetXq (s : State) (q : Nat) : State := (s.modXq q XQueue.reset).modChannelOf q Pipe.dropUnread

/-- CQ_FLUSH (R42). A flush in the cycle of a RESET is discarded (R48). -/
def execCqFlush (q : Fin 64) (reset : Bool) (s : State) : Out :=
  .next (if reset then s.resetXq q else s.modXq q XQueue.flush)

/-- CQ_WORD_READABLE (R44, R46, R47): `n` words become readable in one read-side cycle. -/
def execCqWordReadable (q : Fin 64) (n : Nat) (s : State) : Out :=
  .next (reportBad q ((s.xq q).flight.take n) (s.modXq q fun x => x.arrive n))

/-- CQ_READ (R43, R45). A read in the cycle of a RESET returns the empty-read word (R48). -/
def execCqRead (q : Fin 64) (reset : Bool) (s : State) : Out :=
  .next (
    if reset then ((s.resetXq q).modXq q fun x => { x with underrun := true }).reply emptyRead
    else
      let t := match (s.xq q).ready with
        | w :: _ => s.modChannelOf q fun p => p.readWord w
        | [] => s
      (t.modXq q fun x => x.read.1).reply (s.xq q).read.2)

/-- CQ_CTRL_FLUSH (R49): the flush acts later, by CQ_FLUSH. -/
def execCqCtrlFlush (q : Fin 64) (s : State) : Out := .next (s.modXq q fun x => { x with flushReq := true })

/-- CQ_RESET (R49). -/
def execCqReset (q : Fin 64) (s : State) : Out := .next (s.resetXq q)

/-- CQ_CLR_COUNTS. -/
def execCqClrCounts (q : Fin 64) (s : State) : Out :=
  .next (s.modXq q fun x => { x with overrunCount := 0, poisonCount := 0 })

/-- CQ_THRESH_LEVEL_WRITE (R47): 65 to 127 leave the level; no level written raises the interrupt. -/
def execCqThreshLevelWrite (q : Fin 64) (v : Nat) (s : State) : Out :=
  .next (if v ≤ 64 then s.modXq q fun x => { x with level := v } else s)

/-! ## Registers of a crossing queue -/

/-- CQ_CTRL. -/
def XQueue.ctrlWord (x : XQueue) : Nat := x.level + 128 * b2n x.threshIe
/-- CQ_STATUS. -/
def XQueue.statusWord (x : XQueue) : Nat :=
  x.ready.length + 2 ^ 10 * b2n x.poisonSeen + 2 ^ 11 * b2n x.underrun + 2 ^ 12 * b2n x.overrun + 2 ^ 13 * b2n x.thresh
    + 2 ^ 14 * b2n (x.ready.length == 0) + 2 ^ 15 * b2n (x.ready.length == 64)
/-- CQ_CONFIG. -/
def xqConfigWord (q : Nat) : Nat := 63 * 256 + (if q < 32 then 4 else 3)
/-- CQ_COUNTS. -/
def XQueue.countsWord (x : XQueue) : Nat := x.overrunCount * 65536 + x.poisonCount

/-- A register of a crossing queue's block by its offset. -/
def xqRegRead (s : State) (q off : Nat) : Nat :=
  match off with
  | 0x0 => (s.xq q).ctrlWord
  | 0x4 => (s.xq q).statusWord
  | 0x8 => xqConfigWord q
  | 0xC => (s.xq q).countsWord
  | _ => 0

/-- The fields of a crossing queue's block that have no row of their own: THRESH_IE and the sticky bits (R14, R49). -/
def xqRegWrite (q off v : Nat) (s : State) : State :=
  match off with
  | 0x0 => s.modXq q fun x => { x with threshIe := bit v 7 }
  | 0x4 => s.modXq q fun x =>
      { x with thresh := x.thresh && !bit v 13, overrun := x.overrun && !bit v 12
               underrun := x.underrun && !bit v 11, poisonSeen := x.poisonSeen && !bit v 10 }
  | _ => s

end Sys2Proof.Machine
end

