-- ==== Sys2Proof/Machine/MediaOps.lean ====
section
/-! DEFINITION. The media ROM (spec/16): requests and their checks, what the media hold, which request may start, completion
records. -/

namespace Sys2Proof.Machine

/-! ## Geometry (R2, R361, R362) -/

/-- Targets fitted to each channel (R2). -/
def Part.targets : Part → Nat
  | .p064 => 8
  | .p128 => 16
  | .p256 => 32

/-- TARGET of a page address. -/
def pgTarget (p : Nat) : Nat := bits p 25 5
/-- PLANE of a page address. -/
def pgPlane (p : Nat) : Nat := bits p 23 2
/-- BLOCK of a page address. -/
def pgBlock (p : Nat) : Nat := bits p 11 12
/-- PAGE of a page address. -/
def pgPage (p : Nat) : Nat := bits p 0 11
/-- The block a page lies in, as a key: page address ÷ 2,048. -/
def pgBlk (p : Nat) : Nat := bits p 11 19
/-- The die and plane a page lies in, as a key. -/
def pgDiePlane (p : Nat) : Nat := bits p 23 7

/-- A channel's ROM. -/
def State.chan (s : State) (ch : Nat) : MChan := Tab.get {} s.media.chans ch
/-- Change a channel's ROM. -/
def State.modChan (s : State) (ch : Nat) (f : MChan → MChan) : State :=
  s.modMedia fun m => { m with chans := Tab.mod {} m.chans ch f }
/-- A page of a channel. -/
def State.page (s : State) (ch p : Nat) : FPage := Tab.get .erased s.media.pages (ch * 2 ^ 30 + p)
/-- Change a page of a channel; what is written there is as its writer gave it, until its encryption is marked. -/
def State.setPage (s : State) (ch p : Nat) (x : FPage) : State :=
  s.modMedia fun m => { m with
    pages := Tab.set .erased m.pages (ch * 2 ^ 30 + p) x, covers := Tab.del m.covers (ch * 2 ^ 30 + p) }
/-- The encryption of a page's codewords: key and LBA of codeword 0; none for bytes that were written as they stand. -/
def State.cover (s : State) (ch p : Nat) : Option (Nat × Nat) := Tab.find s.media.covers (ch * 2 ^ 30 + p)
/-- Mark a page as encrypted under a key. -/
def State.setCover (s : State) (ch p : Nat) (cover : Option (Nat × Nat)) : State :=
  match cover with
  | some x => s.modMedia fun m => { m with covers := Tab.put m.covers (ch * 2 ^ 30 + p) x }
  | none => s

/-- A codeword as the flash stores it: its clear bytes under the page's key with the codeword's LBA as the tweak (R113). -/
def storedCodeword (cover : Option (Nat × Nat)) (n : Nat) (clear : Bytes) : Bytes :=
  match cover with
  | some (k, l) => Config.xts k (l + n) clear
  | none => clear

/-- What S2 makes of a stored codeword with a key and an LBA: the clear bytes where both are those it was encrypted with (R113). -/
def openCodeword (cover : Option (Nat × Nat)) (n key lba : Nat) (clear : Bytes) : Bytes :=
  match cover with
  | some (k, l) => if k = key ∧ l + n = lba then clear else Config.xtsInv key lba (Config.xts k (l + n) clear)
  | none => Config.xtsInv key lba clear

/-- Make pages undefined (R377). -/
def undefPages (ch : Nat) : List Nat → State → State
  | [], s => s
  | p :: l, s => undefPages ch l ((s.setPage ch p (.undef s.free)).used)

/-- Give every page of a block one content. -/
def State.fillBlock (s : State) (ch blk : Nat) (undef : Bool) : State :=
  let base := ch * 2 ^ 30 + blk * 2048
  if undef then undefPages ch ((List.range 1152).map (blk * 2048 + ·)) s
  else s.modMedia fun m => { m with pages := m.pages.filter fun p => !(decide (base ≤ p.1) && decide (p.1 < base + 2048)) }

/-! ## Requests (R366, R367) -/

/-- OP of a request. -/
def rqOp (r : Bytes) : Nat := fieldAt r 0x00 1
/-- SLC of a request. -/
def rqSlc (r : Bytes) : Bool := bit (fieldAt r 0x01 1) 0
/-- URGENT of a request. -/
def rqUrgent (r : Bytes) : Bool := bit (fieldAt r 0x01 1) 1
/-- TAG of a request. -/
def rqTag (r : Bytes) : Nat := fieldAt r 0x02 2
/-- PAGE of a request. -/
def rqPage (r : Bytes) : Nat := fieldAt r 0x04 4
/-- ARG of a request. -/
def rqArg (r : Bytes) : Nat := fieldAt r 0x08 1
/-- CW_MASK of a request. -/
def rqMask (r : Bytes) : Nat := fieldAt r 0x09 1
/-- BUF of a request. -/
def rqBuf (r : Bytes) : Nat := fieldAt r 0x10 8

/-- A READ as S0 enters it into ring 1 (R112): retry, codewords, page and the number of its page-list entry. Its BUF, which a read for
the pipeline does not use, carries the job's number. -/
def readRequest (serial entry page retry mask : Nat) : Bytes :=
  [0, 0] ++ leBytes 2 entry ++ leBytes 4 page ++ leBytes 1 retry ++ leBytes 1 mask ++ List.replicate 6 0 ++ leBytes 8 serial
    ++ List.replicate 8 0

/-- Codewords a mask names, lowest first. -/
def maskList (m : Nat) : List Nat := (List.range 4).filter fun i => bit m i

/-- Bytes of BUF that a request uses. -/
def rqBytes (r : Bytes) : Nat :=
  match rqOp r with
  | 0 => 4624 * (maskList (rqMask r)).length + 32
  | 2 => if rqSlc r then 16400 else 49200
  | 8 => 256
  | _ => 0

/-- Does a run of bytes lie in hub SRAM or HBM? -/
def inSramHbm (a n : Nat) : Bool :=
  match place a, place (a + n - 1) with
  | .hub, .hub => true
  | .hbm _, .hbm _ => true
  | _, _ => false

/-- Is the PARAMS record refused? FORMAT, FITTED and the ranges (R378). -/
def paramsBad (p : Part) (b : Bytes) : Bool :=
  fieldAt b 0 4 != 1 || fieldAt b 4 1 != p.targets || fieldAt b 0x08 2 == 0 || decide (4096 < fieldAt b 0x08 2)
    || fieldAt b 0x0A 2 == 0

/-- Is a reserved field of a PARAMS record nonzero (R11)? -/
def paramsReserved (b : Bytes) : Bool := fieldAt b 5 3 != 0 || fieldAt b 0x0F 1 != 0 || (b.drop 0x9E).any (· != 0)

/-- Is the page beyond the mode, or nonzero for an operation on a block? (R362) -/
def pageBad (r : Bytes) : Bool :=
  let limit := if rqSlc r then 384 else 1152
  match rqOp r with
  | 0 => decide (limit ≤ pgPage (rqPage r))
  | 1 => if rqArg r = 1 then pgPage (rqPage r) != 0 else decide (limit ≤ pgPage (rqPage r))
  | 2 => decide (limit ≤ pgPage (rqPage r))
  | 3 => pgPage (rqPage r) != 0
  | 6 => pgPage (rqPage r) != 0
  | 7 => pgPage (rqPage r) != 0
  | _ => false

/-- The checks of R368 that do not depend on blocks; the first failure decides. -/
def State.mediaCheck (s : State) (ch ring : Nat) (r : Bytes) : Option Nat :=
  let c := s.chan ch
  let op := rqOp r
  let p := rqPage r
  let n := rqBytes r
  if bits (fieldAt r 1 1) 2 6 ≠ 0 ∨ fieldAt r 0x0A 6 ≠ 0 ∨ fieldAt r 0x18 8 ≠ 0 ∨ bits p 30 2 ≠ 0 ∨ bits (rqMask r) 4 4 ≠ 0
    ∨ (op ≠ 0 ∧ rqMask r ≠ 0) ∨ (rqUrgent r ∧ ¬(op = 2 ∧ rqSlc r)) then some St.reservedField
  else if 8 < op ∨ (op = 0 ∧ 7 < rqArg r) ∨ (op = 1 ∧ 1 < rqArg r) ∨ (op = 0 ∧ rqMask r = 0) ∨ (op = 8 ∧ ring ≠ 0)
    ∨ (op ≠ 0 ∧ op ≠ 1 ∧ op ≠ 5 ∧ rqArg r ≠ 0) then some St.unsupported
  else if op ≠ 8 ∧ (s.part.targets ≤ pgTarget p ∨ (op ≠ 4 ∧ op ≠ 5 ∧ (3647 < pgBlock p ∨ pageBad r))) then some St.idRange
  else if ring = 0 ∧ n ≠ 0 ∧ (¬inSramHbm (rqBuf r) n ∨ rqBuf r % 64 ≠ 0) then some St.addrDenied
  else if op = 8 then
    (let b := s.bytesAt (rqBuf r) 256
     if paramsReserved b then some St.reservedField else if c.ops ≠ [] then some St.busy
     else if paramsBad s.part b then some St.unsupported else none)
  else if c.params.isNone ∧ op ≠ 4 ∧ op ≠ 5 then some St.busy
  else none

/-! ## Blocks (R370, R371) -/

/-- A block by its key. -/
def MChan.block (c : MChan) (k : Nat) : MBlock := Tab.get {} c.blocks k
/-- Change a block. -/
def MChan.setBlock (c : MChan) (k : Nat) (b : MBlock) : MChan := { c with blocks := Tab.set {} c.blocks k b }

/-- Does an accepted request erase the block, running or suspended? -/
def MOp.erases (o : MOp) (k : Nat) : Bool := rqOp o.req == 3 && (o.running || o.suspended) && pgBlk (rqPage o.req) == k

/-- Open blocks of a plane other than one block, those being erased counted. -/
def MChan.openOthers (c : MChan) (k : Nat) : Nat :=
  (c.blocks.filter fun b => b.1 != k && b.1 / 4096 == k / 4096 && b.2.state != .closed).length
    + (c.ops.filter fun o => rqOp o.2.req == 3 && (o.2.running || o.2.suspended) && pgBlk (rqPage o.2.req) != k
        && pgBlk (rqPage o.2.req) / 4096 == k / 4096).length

/-- The checks of R368 that depend on the block, judged when the request starts (R381). -/
def MChan.blockCheck (c : MChan) (r : Bytes) : Option Nat :=
  let k := pgBlk (rqPage r)
  let b := c.block k
  match rqOp r with
  | 0 => if c.ops.any (fun o => o.2.erases k) then some St.blockBusy else none
  | 1 =>
    if c.ops.any (fun o => o.2.erases k) then some St.blockBusy
    else if rqArg r = 1 ∧ b.state = .closed ∧ 16 ≤ c.openOthers k then some St.noSpace
    else none
  | 2 =>
    let want := if rqSlc r then BlockState.openSlc else .openTlc
    if b.state = want ∧ pgPage (rqPage r) = b.wp then none else some St.notErased
  | 3 => if b.state = .closed ∧ 16 ≤ c.openOthers k then some St.noSpace else none
  | _ => none

/-- Is the operation a program or an erase? -/
def rqWrites (r : Bytes) : Bool := rqOp r == 2 || rqOp r == 3
/-- Is the operation a read? -/
def rqReads (r : Bytes) : Bool := rqOp r == 0 || rqOp r == 1

/-- Does a running or suspended program write the wordline group of a read? (R372) -/
def MOp.programsGroup (o : MOp) (r : Bytes) : Bool :=
  rqOp o.req == 2 && (o.running || o.suspended) && pgBlk (rqPage o.req) == pgBlk (rqPage r)
    && (if rqSlc o.req then pgPage (rqPage o.req) == pgPage (rqPage r)
        else pgPage (rqPage o.req) / 3 == pgPage (rqPage r) / 3)

/-- May an accepted request start now (R372-R374, R380)? `id`: its number. -/
def State.mayStart (s : State) (c : MChan) (id : Nat) (o : MOp) : Bool :=
  let p := rqPage o.req
  let sameDie := c.ops.filter fun x => pgTarget (rqPage x.2.req) == pgTarget p
  -- ring order on one block
  let ahead := c.ops.any fun x => decide (x.1 < id) && x.2.ring == o.ring && pgBlk (rqPage x.2.req) == pgBlk p
    && !(x.2.running || x.2.suspended)
  let samePlane := sameDie.any fun x => x.2.running && pgDiePlane (rqPage x.2.req) == pgDiePlane p
  let groupBusy := c.ops.any fun x => x.2.programsGroup o.req
  let erasing := c.ops.any fun x => x.2.erases (pgBlk p)
  if o.running || o.suspended || ahead || samePlane then false
  else if rqReads o.req then
    !groupBusy && !erasing && sameDie.all fun x => !(rqWrites x.2.req && x.2.running)
      && (!x.2.suspended || (decide (x.2.served < 8) && decide (s.hdCount < x.2.since + 400)))
  else
    (!s.media.hold || (s.media.flush && rqUrgent o.req)) && !(sameDie.any fun x => x.2.suspended)
      && !(c.ops.any fun x => decide (x.1 < id) && pgBlk (rqPage x.2.req) == pgBlk p && rqWrites x.2.req)

/-! ## Completion records (R369) -/

/-- Completion record: request, ST, MRESULT, CFLAGS, SUSPENDS, THRESH_SET, TEMP, BSTATE, ELAPSED_US, STAMP, WP, WEIGHT. -/
structure MDone where
  st : Nat := 0
  mresult : Nat := 0
  cflags : Nat := 0
  suspends : Nat := 0
  thresh : Nat := 0
  elapsed : Nat := 0
  stamp : Nat := 0
  /-- The parameter bytes of GET_FEATURES. -/
  feature : Option Nat := none
  weight : Nat := 0
deriving DecidableEq, Repr

/-- An 8-bit two's complement code. -/
def signed8 (t : Int) : Nat := (t % 256).toNat

/-- The 32 bytes of a completion record. -/
def MChan.record (c : MChan) (r : Bytes) (d : MDone) : Bytes :=
  let b := c.block (pgBlk (rqPage r))
  leBytes 2 (rqTag r) ++ leBytes 2 d.st ++ leBytes 1 d.mresult ++ leBytes 1 d.cflags ++ leBytes 1 d.suspends
    ++ leBytes 1 d.thresh ++ leBytes 4 (rqPage r) ++ leBytes 1 (signed8 (Tab.get 0 c.temps (pgTarget (rqPage r))))
    ++ leBytes 1 b.state.code ++ [0, 0] ++ leBytes 4 d.elapsed ++ leBytes 4 d.stamp
    ++ leBytes 4 (d.feature.getD b.wp) ++ leBytes 4 d.weight

/-- Post a completion record of ring 0. -/
def State.mediaPost (s : State) (ch : Nat) (r : Bytes) (d : MDone) : State :=
  let c := s.chan ch
  let s := s.writeMem (c.cmplBase + 32 * c.cmplTail) (c.record r d)
  s.modChan ch fun c => { c with cmplTail := (c.cmplTail + 1) % 256, interrupts := c.interrupts + b2n c.ie }

/-- Ring-0 requests in flight. -/
def MChan.inFlight (c : MChan) : Nat := (c.ops.filter fun o => o.2.ring == 0).length
/-- Completion slots that firmware has not freed. -/
def MChan.unread (c : MChan) : Nat := (c.cmplTail + 256 - c.cmplHead) % 256

/-- The next request of a ring, where the ROM takes one: ring 0 while it is served and a completion slot is left for it (R366,
R369). -/
def State.nextRequest (s : State) (ch ring : Nat) : Option Bytes :=
  let c := s.chan ch
  if !c.ready then none
  else if ring = 0 then
    if c.enable && c.reqHead != c.reqTail && decide (c.unread + c.inFlight < 255) then
      some (s.bytesAt (c.reqBase + 32 * c.reqHead) 32)
    else none
  else c.ring1.head?

/-- The ROM takes the request out of its ring. -/
def State.dropRequest (s : State) (ch ring : Nat) : State :=
  s.modChan ch fun c => if ring = 0 then { c with reqHead := (c.reqHead + 1) % 256 } else { c with ring1 := c.ring1.drop 1 }

/-! ## Tags and thresholds (R376) -/

/-- The page tag a program writes. -/
def State.pageTag (s : State) (ch t : Nat) (slc : Bool) (owner : Bytes) : Bytes :=
  let c := s.chan ch
  let stamp := if s.media.timeValid then s.media.minutes else c.programs
  let temp := max (-128) (min 127 (Tab.get 0 c.temps t))
  let b := leBytes 4 stamp ++ leBytes 1 (signed8 temp) ++ leBytes 1 (b2n (!s.media.timeValid) + 2 * b2n slc) ++ [0, 0]
    ++ owner ++ [0, 0, 0, 0]
  b ++ leBytes 4 (crc32c b)

/-- Age class of a tag. -/
def ageClass (age : Int) : Nat :=
  if age < 60 then 0 else if age < 1440 then 1 else if age < 10080 then 2 else if age < 43200 then 3 else if age < 129600 then 4
  else if age < 525600 then 5 else if age < 1576800 then 6 else 7

/-- Temperature class of a difference. -/
def tempClass (d : Int) : Nat := if d ≤ -10 then 3 else if d < 10 then 0 else if d < 40 then 1 else 2

/-- An 8-bit code as a signed number. -/
def ofSigned8 (n : Nat) : Int := if n < 128 then n else (n : Int) - 256

/-- START of a read: the age and temperature classes of the tag, or classes (2, 0) where the tag is bad. -/
def State.startSet (s : State) (ch t : Nat) (tag : Option Bytes) : Nat :=
  let c := s.chan ch
  let (a, k) := match tag with
    | some g =>
      ((if bit (fieldAt g 5 1) 0 || !s.media.timeValid then 2 else ageClass ((s.media.minutes : Int) - fieldAt g 0 4)),
        tempClass (Tab.get 0 c.temps t - ofSigned8 (fieldAt g 4 1)))
    | none => (2, 0)
  let i := 4 * a + k
  bits (fieldAt (c.params.getD []) (0x10 + i / 2) 1) (4 * (i % 2)) 4

/-! ## Reading a page (R363, R367) -/

/-- Bytes nothing determines: a range number of the free values. -/
def freeBytes (g n : Nat) : Bytes := (List.range n).map fun i => Config.freeByte g i

/-- A raw codeword: 4,096 data bytes and their parity (R363). -/
def rawCodeword (b : Bytes) : Bytes := fitTo 4096 b ++ fitTo 528 (Config.parity (fitTo 4096 b))

/-- The raw codewords of a page as they were stored. An erased page and an undefined unit read as free values. -/
def FPage.codewords (x : FPage) (cover : Option (Nat × Nat)) (g mask : Nat) : Bytes :=
  match x with
  | .written d _ => ((maskList mask).map fun i => rawCodeword (storedCodeword cover i ((d.drop (4096 * i)).take 4096))).flatten
  | .erased => freeBytes g (4624 * (maskList mask).length)
  | .undef _ => freeBytes g (4624 * (maskList mask).length)

/-- Bits that flipped between the cells and the buffer. -/
def flipBytes : List (Nat × Byte) → Bytes → Bytes
  | [], b => b
  | (i, m) :: l, b => flipBytes l (b.set i (b.getD i 0 ^^^ m))

/-- The tag of a page as a read finds it: none where neither copy passes its CRC or nothing defined was written. -/
def FPage.tagRead (x : FPage) (r : MediaRes) : Option Bytes :=
  match x with
  | .written _ t => if r.tag0 || r.tag1 then some t else none
  | _ => none

/-! ## Starting and ending requests -/

/-- A program's pages and what it writes to each: data and owner of BUF (R367). -/
def State.programWrites (s : State) (ch : Nat) (r : Bytes) : List (Bytes × Bytes) :=
  let t := pgTarget (rqPage r)
  let n := if rqSlc r then 1 else 3
  (List.range n).map fun i => (s.bytesAt (rqBuf r + 16384 * i) 16384,
    s.pageTag ch t (rqSlc r) (s.bytesAt (rqBuf r + 16384 * n + 16 * i) 16))

/-- Change an accepted request. -/
def State.modOp (s : State) (ch id : Nat) (f : MOp → MOp) : State :=
  s.modChan ch fun c => match Tab.find c.ops id with
    | some o => { c with ops := Tab.put c.ops id (f o) }
    | none => c

/-- A suspended operation of the die serves one more read. -/
def serveRead (t : Nat) (ops : Tab MOp) : Tab MOp :=
  ops.map fun x => if x.2.suspended && pgTarget (rqPage x.2.req) == t then (x.1, { x.2 with served := x.2.served + 1 }) else x

/-- Start an accepted request: an erase closes its block; a program takes its data and counts (R370, R376). -/
def State.startMedia (s : State) (ch id : Nat) (o : MOp) : State :=
  let p := rqPage o.req
  let under := (s.chan ch).ops.any fun x => x.2.suspended && pgTarget (rqPage x.2.req) == pgTarget p
  let s := if rqOp o.req = 3 then s.modChan ch fun c => c.setBlock (pgBlk p) {} else s
  let s := if rqReads o.req && under then s.modChan ch fun c => { c with ops := serveRead (pgTarget p) c.ops } else s
  let w := if rqOp o.req = 2 then s.programWrites ch o.req else []
  let s := if rqOp o.req = 2 then s.modChan ch fun c => { c with programs := c.programs + 1 } else s
  s.modOp ch id fun o => { o with running := true, since := s.hdCount, suspender := under && rqReads o.req, writes := w }

/-- Take a request out of the accepted ones. -/
def State.dropOp (s : State) (ch id : Nat) : State := s.modChan ch fun c => { c with ops := Tab.del c.ops id }

/-- The pages a program or erase leaves undefined when it is cut short (R377). -/
def unitPages (r : Bytes) : List Nat :=
  if rqOp r = 3 then (List.range 1152).map (pgBlk (rqPage r) * 2048 + ·)
  else if rqSlc r then [rqPage r] else (List.range 3).map (rqPage r + ·)

/-- A program or erase is cut short: its unit is undefined and its block CLOSED (R377). -/
def State.cutShort (s : State) (ch : Nat) (r : Bytes) : State :=
  if rqWrites r then (undefPages ch (unitPages r) s).modChan ch fun c => c.setBlock (pgBlk (rqPage r)) {} else s

end Sys2Proof.Machine
end

