-- ==== Sys2Proof/Machine/SelOps.lean ====
section
/-! DEFINITION. Keys (R160, R161), radix selection (R162-R166) and the mass sums (R167). -/

namespace Sys2Proof.Machine

/-! ## Keys -/

/-- Key of FP32 bits: −0 counts as +0. -/
def keyOfF32 (b : Nat) : Nat :=
  let b := if b = 0x80000000 then 0 else b
  if bit b 31 then 0xFFFFFFFF - b else b + 0x80000000

/-- Bytes of a source value. -/
def keyBytes (kfmt : Nat) : Nat := if kfmt = 1 ∨ kfmt = 2 then 2 else 4

/-- The value a source code stands for, where it is a number. -/
def sourceValue (kfmt c : Nat) : Fv :=
  match kfmt with
  | 0 => Fmt.fp32.decode c
  | 1 => Fmt.fp16.decode c
  | 2 => Fmt.bf16.decode c
  | 3 => Fv.ofInt (signed 32 c)
  | _ => .fin false c 0

/-- R160, R161: the key of a source code; none for a NaN. -/
def keyOf (kfmt : Nat) (invert : Bool) (c : Nat) : Option Nat :=
  let k : Option Nat :=
    if kfmt ≤ 2 then
      match sourceValue kfmt c with
      | .nan => none
      | v => some (keyOfF32 (toF32 v))
    else if kfmt = 3 then some (c ^^^ 0x80000000)
    else some c
  k.map fun x => if invert then 0xFFFFFFFF - x else x

/-! ## Histogram passes (R162) -/

/-- Choose the bin of a pass: from the highest down, the first that reaches the need; its number and the count above it. -/
def pickBin (h : Nat → Nat) (need : Nat) : Nat → Nat → Nat × Nat
  | 0, above => (0, above)
  | b + 1, above => if above + h b < need then pickBin h need b (above + h b) else (b, above)

/-- What the passes find: the threshold, the passes run, an early exit, and how many elements of key t are taken. -/
structure Passes where
  t : Nat
  passes : Nat
  early : Bool
  need : Nat
deriving DecidableEq, Repr

/-- The passes from digit `d - 1` down; `p`: the digits found so far. -/
def radixPasses (ks : List Nat) : Nat → Nat → Nat → Nat → Passes
  | 0, p, need, n => ⟨p, n, false, need⟩
  | d + 1, p, need, n =>
    let h (b : Nat) : Nat := (ks.filter fun k => k / 256 ^ d == p * 256 + b).length
    let (b, above) := pickBin h need 256 0
    let need := need - above
    if h b = need then ⟨(p * 256 + b) * 256 ^ d, n + 1, true, need⟩ else radixPasses ks d (p * 256 + b) need (n + 1)

/-- What a selection selects: the elements by position with their keys, in the order they are written, and the header's fields. -/
structure Selected where
  picks : List (Nat × Nat) := []
  passes : Nat := 0
  tie : Nat := 0
  boundary : Nat := 0
  short : Bool := false
  trunc : Bool := false
deriving DecidableEq, Repr

/-- Valid elements with their positions, in original order. -/
def validKeys : Nat → List (Option Nat) → List (Nat × Nat)
  | _, [] => []
  | i, none :: l => validKeys (i + 1) l
  | i, some k :: l => (i, k) :: validKeys (i + 1) l

/-- R163: the compaction pass; `left`: elements of key t still to be taken, without limit after an early exit. -/
def compact (t : Nat) (early : Bool) : Nat → List (Nat × Nat) → List (Nat × Nat)
  | _, [] => []
  | left, (i, k) :: l =>
    if t < k then (i, k) :: compact t early left l
    else if k = t then
      if early then (i, k) :: compact t early left l
      else match left with
        | 0 => compact t early 0 l
        | n + 1 => (i, k) :: compact t early n l
    else compact t early left l

/-- Top-k mode (R162-R164) over keys in original order. -/
def topk (k : Nat) (keys : List (Option Nat)) : Selected :=
  let vs := validKeys 0 keys
  let ks := vs.map (·.2)
  if vs.length ≤ k then
    { picks := vs, passes := 1, short := decide (vs.length < k)
      boundary := if vs.length = k then ks.foldl min 0xFFFFFFFF else 0 }
  else
    let p := radixPasses ks 4 0 k 0
    let equal := (ks.filter (· == p.t)).length
    { picks := compact p.t p.early p.need vs, passes := p.passes, boundary := p.t
      tie := if p.need < equal ∧ p.early = false then equal else 0 }

/-- Threshold mode (R165). -/
def selectAbove (cap t : Nat) (keys : List (Option Nat)) : Selected :=
  let vs := (validKeys 0 keys).filter fun p => decide (t ≤ p.2)
  { picks := vs.take cap, boundary := t, trunc := decide (cap < vs.length) }

/-- Put an element into a list ordered by descending key, lower number first among equals (R166). -/
def insertKey (x : Nat × Nat) : List (Nat × Nat) → List (Nat × Nat)
  | [] => [x]
  | y :: l => if y.2 < x.2 ∨ (y.2 = x.2 ∧ x.1 < y.1) then x :: y :: l else y :: insertKey x l

/-- SORT (R166). -/
def sortKeys (l : List (Nat × Nat)) : List (Nat × Nat) := l.foldr insertKey []

/-! ## Mass sums (R167) -/

/-- Sum values in order, in FP64. -/
def mass (l : List Fv) : Fv := l.foldl f64Add (.fin false 0 0)

end Sys2Proof.Machine
end

