-- ==== Sys2Proof/Machine/Stages.lean ====
section
/-! DEFINITION. The data stages of the channel pipeline as functions (spec/05): decompression, framing, spans, predicates,
pattern scan, distance. -/

namespace Sys2Proof.Machine

/-- Is the byte usable? -/
def SByte.good (x : SByte) : Bool := x.err == 0

/-- The values of a run of stream bytes. -/
def plainBytes (l : List SByte) : Bytes := l.map (·.b)

/-! ## S3 (R115) -/

/-- Extra length bytes of an LZ4 sequence: add bytes until one is not 255. -/
def lz4Len : Bytes → Nat → Option (Nat × Bytes)
  | [], _ => none
  | b :: l, n => if b.toNat = 255 then lz4Len l (n + 255) else some (n + b.toNat, l)

/-- Copy `n` bytes that begin `off` before the end of the output. -/
def lz4Copy : Nat → Nat → Bytes → Bytes
  | 0, _, out => out
  | n + 1, off, out => lz4Copy n off (out ++ [out.getD (out.length - off) 0])

/-- Decode an LZ4 block; none where its format is broken or the output would pass `raw` bytes. `fuel`: sequences left. -/
def lz4Go : Nat → Nat → Bytes → Bytes → Option Bytes
  | 0, _, _, _ => none
  | _ + 1, _, [], out => some out
  | fuel + 1, raw, t :: l, out =>
    let lit := t.toNat / 16
    match (if lit = 15 then lz4Len l 15 else some (lit, l)) with
    | none => none
    | some (n, l) =>
      if l.length < n ∨ raw < out.length + n then none else
      let out := out ++ l.take n
      match l.drop n with
      | [] => some out
      | [_] => none
      | a :: b :: l =>
        let off := a.toNat + 256 * b.toNat
        if off = 0 ∨ out.length < off then none else
        match (if t.toNat % 16 = 15 then lz4Len l 15 else some (t.toNat % 16, l)) with
        | none => none
        | some (m, l) => if raw < out.length + m + 4 then none else lz4Go fuel raw l (lz4Copy (m + 4) off out)

/-- Decode a block to exactly `raw` bytes. -/
def lz4Block (raw : Nat) (b : Bytes) : Option Bytes :=
  match lz4Go (b.length + 1) raw b [] with
  | some o => if o.length = raw then some o else none
  | none => none

/-- The decoded bytes of a block: locators run on from the block's prefix (R116). -/
def decodedBytes (prefixPos : Nat) (d : Bytes) : List SByte :=
  d.zipIdx.map fun x => { b := x.1, loc := prefixPos * 65536 + x.2, pos := prefixPos, start := x.2 == 0 }

/-- The padding after a zero prefix, where bytes of it are unusable (R128): it touches no record. Its locators count stored bytes from
the prefix. -/
def badPadding (prefixPos : Nat) (l : List SByte) : List SByte :=
  if l.all (·.good) then [] else
  l.zipIdx.map fun x =>
    { b := x.1.b, loc := prefixPos * 65536 + 8 + x.2, pos := prefixPos, err := x.1.err, start := x.2 == 0, pad := true }

/-- STAGE_ERR of the first unusable byte; 0 where all are good. -/
def firstErr (l : List SByte) : Nat := ((l.find? fun x => !x.good).map (·.err)).getD 0

/-- Stored bytes that S3 cuts off without decoding them: unusable, counted as stored (R115, R128). -/
def cutBytes (prefixPos err : Nat) (n : Nat) : List SByte :=
  (List.range n).map fun i => { loc := prefixPos * 65536 + i, pos := prefixPos, err := err, start := i == 0 }

/-- One granule of a TEXT_LZ4 extent: the decoded stream, and whether a codec error was met. -/
def lz4Granule : Nat → List SByte → List SByte × Bool
  | 0, _ => ([], false)
  | fuel + 1, l =>
    match l with
    | [] => ([], false)
    | x :: _ =>
      let pre := plainBytes (l.take 8)
      let bad (k : List SByte) : Bool := k.any fun y => !y.good
      if l.length < 8 then
        if bad l then (cutBytes x.pos (firstErr l) l.length, false)
        else if l.any (fun y => y.b != 0) then (cutBytes x.pos 3 l.length, true)
        else ([], false)
      else if !bad (l.take 8) && pre.all (· == 0) then (badPadding x.pos (l.drop 8), false)
      else
        let comp := fieldAt pre 0 4 % 2 ^ 31
        let raw := fieldAt pre 4 4
        if bad (l.take 8) then (cutBytes x.pos (firstErr (l.take 8)) l.length, false)
        else if bad (l.take (8 + comp)) then (cutBytes x.pos (firstErr (l.take (8 + comp))) l.length, false)
        else if l.length < 8 + comp ∨ raw = 0 ∨ 65536 < raw then (cutBytes x.pos 3 l.length, true)
        else
          let body := plainBytes ((l.drop 8).take comp)
          match (if bit (fieldAt pre 0 4) 31 then (if comp = raw then some body else none) else lz4Block raw body) with
          | none => (cutBytes x.pos 3 l.length, true)
          | some d =>
            let (rest, e) := lz4Granule fuel (l.drop (8 + comp))
            (decodedBytes x.pos d ++ rest, e)

/-- S3 for a TEXT_LZ4 extent: each 16 KiB granule on its own. -/
def lz4Stream : Nat → List SByte → List SByte × Nat
  | 0, _ => ([], 0)
  | fuel + 1, l =>
    if l = [] then ([], 0) else
    let (a, e) := lz4Granule 16385 (l.take 16384)
    let (b, n) := lz4Stream fuel (l.drop 16384)
    (a ++ b, n + b2n e)

/-! ## S4 (R116-R118, R128) -/

/-- A piece of the stream after framing: a record with the bytes that frame it, how many of them stand before and after its
data, or bytes of no record. -/
inductive Piece where
  | record (before after : Nat) (l : List SByte)
  | gap (l : List SByte)
  /-- A partial record that is dropped: framed, not passed (R117). -/
  | dropped (l : List SByte)
deriving DecidableEq, Repr

/-- The bytes of a piece. -/
def Piece.bytes : Piece → List SByte
  | .record _ _ l => l
  | .gap l => l
  | .dropped l => l

/-- What framing makes of a segment: pieces in stream order and the fragments for the seams (R118). -/
structure Frames where
  pieces : List Piece := []
  head : List SByte := []
  tail : List SByte := []
  /-- The head fragment is the whole segment: it holds no record boundary. -/
  middle : Bool := false
deriving DecidableEq, Repr

/-- Cut a list into runs of `n`. -/
def cutEvery (n : Nat) : Nat → List SByte → List (List SByte)
  | 0, _ => []
  | fuel + 1, l => if l = [] then [] else l.take n :: cutEvery n fuel (l.drop n)

/-- Fixed framing of the bytes of one extent from a record boundary on; `last`: they run to the extent's end. -/
def fixedPieces (n : Nat) (last : Bool) (l : List SByte) : List Piece × List SByte :=
  let runs := cutEvery n (l.length + 1) l
  match runs.getLast? with
  | some r =>
    if r.length = n then (runs.map (.record 0 0), [])
    else if last then (runs.dropLast.map (.record 0 0) ++ [.dropped r], [])
    else (runs.dropLast.map (.record 0 0), r)
  | none => ([], [])

/-- Fixed framing of a RAW segment (R117, R118). -/
def frameFixed (n extStart : Nat) (atStart atEnd : Bool) (l : List SByte) : Frames :=
  match l with
  | [] => {}
  | x :: _ =>
    let off := (n - (x.pos - extStart) % n) % n
    if atStart then
      let (ps, tl) := fixedPieces n atEnd l
      { pieces := ps, tail := tl }
    else if l.length < off then { head := l, middle := !atEnd }
    else
      let (ps, tl) := fixedPieces n atEnd (l.drop off)
      { pieces := ps, head := l.take off, tail := tl }

/-- The decoded blocks of a stream, each from its first byte. -/
def blocksOf : List SByte → List (List SByte) → List (List SByte)
  | [], acc => acc.reverse.map List.reverse
  | x :: l, acc =>
    match acc with
    | c :: cs => if x.start then blocksOf l ([x] :: c :: cs) else blocksOf l ((x :: c) :: cs)
    | [] => blocksOf l [[x]]

/-- Fixed framing of a TEXT_LZ4 stream: each block on its own (R117). -/
def frameBlocks (n : Nat) (l : List SByte) : Frames :=
  { pieces := ((blocksOf l []).map fun b =>
      if b.all (fun x => x.good && !x.pad) then (fixedPieces n true b).1 else [.gap b]).flatten }

/-- Cut a stream after each good 0x0A; the last run may lack one. Each run comes with the unusable padding met within it, which is no
part of it. -/
def linesGo : List SByte → List SByte → List SByte → List (List SByte × List SByte)
  | [], cur, pads => if cur = [] ∧ pads = [] then [] else [(cur.reverse, pads.reverse)]
  | x :: l, cur, pads =>
    if x.pad then linesGo l cur (x :: pads)
    else if x.b = 0x0A ∧ x.good then ((x :: cur).reverse, pads.reverse) :: linesGo l [] []
    else linesGo l (x :: cur) pads

/-- Does a run end with the 0x0A that ends a line? -/
def endsLine (l : List SByte) : Bool :=
  match l.getLast? with
  | some x => x.b == 0x0A && x.good
  | none => false

/-- A line as a record: its 0x0A is not part of its data. -/
def lineRecord (l : List SByte) : Piece := .record 0 (b2n (endsLine l)) l

/-- Bytes that belong to no record, where there are any. -/
def gapPiece (l : List SByte) : List Piece := if l = [] then [] else [.gap l]

/-- A run of lines framing as pieces: the padding met within it, then the line. -/
def linePieces (r : List SByte × List SByte) : List Piece := gapPiece r.2 ++ (if r.1 = [] then [] else [lineRecord r.1])

/-- Lines framing (R117, R118). -/
def frameLines (atStart atEnd : Bool) (l : List SByte) : Frames :=
  let runs := linesGo l [] []
  let (head, runs) := if atStart then (([], []), runs) else (runs.headD ([], []), runs.drop 1)
  if !atStart && !endsLine head.1 then { pieces := gapPiece head.2, head := head.1, middle := !atEnd }
  else match runs.getLast? with
    | some r =>
      if endsLine r.1 || atEnd then { pieces := gapPiece head.2 ++ (runs.map linePieces).flatten, head := head.1 }
      else { pieces := gapPiece head.2 ++ (runs.dropLast.map linePieces).flatten ++ gapPiece r.2, head := head.1, tail := r.1 }
    | none => { pieces := gapPiece head.2, head := head.1 }

/-- Mark bytes as unusable where they were good. -/
def spoil (e : Nat) (l : List SByte) : List SByte := l.map fun x => if x.good then { x with err := e } else x

/-- Length-prefixed framing of one granule (R117). -/
def frameLen : Nat → Nat → List SByte → List Piece
  | 0, _, _ => []
  | fuel + 1, recLen, l =>
    if l = [] then [] else
    match (l.take 4).find? (fun x => !x.good) with
    | some x => [.gap (spoil x.err l)]
    | none =>
      if l.length < 4 then [.gap (spoil 4 l)] else
      let n := leNat (plainBytes (l.take 4))
      if n = 0xFFFFFFFF then [.gap l]
      else if recLen < n ∨ l.length < 4 + n then [.gap (spoil 4 l)]
      else .record 4 0 (l.take (4 + n)) :: frameLen fuel recLen (l.drop (4 + n))

/-- Length-prefixed framing: granule by granule. `n`: bytes of the first granule, which a segment may begin within (log 71). -/
def framePrefixed : Nat → Nat → Nat → List SByte → List Piece
  | 0, _, _, _ => []
  | fuel + 1, n, recLen, l => if l = [] then [] else frameLen 16385 recLen (l.take n) ++ framePrefixed fuel 16384 recLen (l.drop n)

/-- A record or a poisoned span as it leaves S4 (R116, R128). -/
inductive Framed where
  | good (loc : Nat) (d : Bytes)
  | span (loc len err : Nat)
  | dropped
deriving DecidableEq, Repr

/-- A span under way: locator, length, STAGE_ERR, and whether its last byte is unusable. -/
structure OpenSpan where
  loc : Nat
  len : Nat
  err : Nat
  bad : Bool
deriving DecidableEq, Repr

/-- The span that a run of bytes with an unusable byte begins or continues. -/
def joinSpan (o : Option OpenSpan) (l : List SByte) : OpenSpan × List Framed :=
  let e := ((l.find? fun x => !x.good).map (·.err)).getD 0
  let lastBad := (l.getLast?.map fun x => !x.good).getD false
  let first := (l.head?.map fun x => !x.good).getD false
  let fresh : OpenSpan := ⟨(l.head?.map (·.loc)).getD 0, l.length, e, lastBad⟩
  match o with
  | some p => if p.bad && first then ({ p with len := p.len + l.length, bad := lastBad }, [])
              else (fresh, [.span p.loc p.len p.err])
  | none => (fresh, [])

/-- Cut bytes of no record into runs of unusable and of good ones. -/
def runsOf : List SByte → List (List SByte) → List (List SByte)
  | [], acc => acc.reverse.map List.reverse
  | x :: l, acc =>
    match acc with
    | (y :: c) :: cs => if x.good == y.good then runsOf l ((x :: y :: c) :: cs) else runsOf l ([x] :: (y :: c) :: cs)
    | _ => runsOf l ([x] :: acc)

/-- Bytes of no record: runs of unusable ones are spans of their own (R128). -/
def gapSpans : List (List SByte) → Option OpenSpan → Option OpenSpan × List Framed
  | [], o => (o, [])
  | r :: rs, o =>
    if r.all (·.good) then
      let (o', f) := gapSpans rs none
      (o', (match o with | some p => [.span p.loc p.len p.err] | none => []) ++ f)
    else
      let (p, f) := joinSpan o r
      let (o', g) := gapSpans rs (some p)
      (o', f ++ g)

/-- R128: a run of unusable bytes and every record that touches it leave as one span. -/
def spansOf : List Piece → Option OpenSpan → List Framed
  | [], o => match o with
    | some p => [.span p.loc p.len p.err]
    | none => []
  | q :: qs, o =>
    let close : List Framed := match o with | some p => [.span p.loc p.len p.err] | none => []
    match q with
    | .record a z l =>
      if l.all (·.good) then
        close ++ .good ((l.head?.map (·.loc)).getD 0) (plainBytes ((l.drop a).take (l.length - a - z))) :: spansOf qs none
      else
        let (p, f) := joinSpan o l
        f ++ spansOf qs (some p)
    | .gap l =>
      let (o', f) := gapSpans (runsOf l []) o
      f ++ spansOf qs o'
    | .dropped l =>
      if l.all (·.good) then close ++ .dropped :: spansOf qs none
      else
        let (p, f) := joinSpan o l
        f ++ spansOf qs (some p)

/-! ## S5 (R119) -/

/-- Width in bytes of a predicate's field. -/
def predWidth (e : Bytes) : Nat := 2 ^ bits (fieldAt e 1 1) 4 2

/-- Is a predicate's entry refused as out of range, and with which code? -/
def predCheck (e : Bytes) : Option Nat :=
  let op := fieldAt e 0 1
  let w := predWidth e
  let plen := fieldAt e 2 1
  let a := fieldAt e 8 8
  let b := fieldAt e 16 8
  if bit (fieldAt e 1 1) 7 ∨ fieldAt e 3 5 ≠ 0 then some St.reservedField
  else if 3 < op ∨ 16 < fieldAt e 1 1 % 16 + w ∨ (op = 1 ∧ b < a) ∨ (op = 3 ∧ (plen = 0 ∨ 8 * w < plen)) ∨ (op ≠ 3 ∧ plen ≠ 0)
    ∨ 2 ^ (8 * w) ≤ a ∨ 2 ^ (8 * w) ≤ b ∨ ((op = 0 ∨ op = 3) ∧ b ≠ 0) then some St.unsupported
  else none

/-- The predicate block: header and `n` entries. -/
def predBlockCheck (n : Nat) (blk : Bytes) : Option Nat :=
  if fieldAt blk 1 7 ≠ 0 then some St.reservedField
  else if 1 < fieldAt blk 0 1 then some St.unsupported
  else (List.range n).findSome? fun i => predCheck ((blk.drop (8 + 24 * i)).take 24)

/-- Does an attribute word satisfy a predicate? -/
def predTrue (e attr : Bytes) : Bool :=
  let w := predWidth e
  let f := fieldAt attr (fieldAt e 1 1 % 16) w
  let a := fieldAt e 8 8
  let b := fieldAt e 16 8
  let r := match fieldAt e 0 1 with
    | 0 => f == a
    | 1 => decide (a ≤ f) && decide (f ≤ b)
    | 2 => (f &&& a) == b
    | _ => f / 2 ^ (8 * w - fieldAt e 2 1) == a / 2 ^ (8 * w - fieldAt e 2 1)
  r != bit (fieldAt e 1 1) 6

/-- Does an attribute word pass the block? -/
def predPass (n : Nat) (blk attr : Bytes) : Bool :=
  let rs := (List.range n).map fun i => predTrue ((blk.drop (8 + 24 * i)).take 24) attr
  if fieldAt blk 0 1 = 0 then rs.all id else rs.any id

/-! ## S6 (R120, R121) -/

/-- Counts of scan tables: literals, states, classes, literal bytes. -/
def scanLits (t : Bytes) : Nat := fieldAt t 0x04 2
/-- STATES of scan tables. -/
def scanStates (t : Bytes) : Nat := fieldAt t 0x06 2
/-- CLASSES of scan tables. -/
def scanClasses (t : Bytes) : Nat := fieldAt t 0x08 2
/-- Byte offset of LIT_DATA. -/
def scanLitAt (t : Bytes) : Nat := 0x140 + 4 * scanLits t
/-- Byte offset of TRANS. -/
def scanTransAt (t : Bytes) : Nat := scanLitAt t + fieldAt t 0x0C 4
/-- A literal's directory entry. -/
def scanDir (t : Bytes) (i : Nat) : Nat := fieldAt t (0x140 + 4 * i) 4
/-- A literal's bytes. -/
def scanLit (t : Bytes) (i : Nat) : Bytes :=
  (t.drop (scanLitAt t + bits (scanDir t i) 0 14)).take (bits (scanDir t i) 16 6 + 1)
/-- A transition of the DFA. -/
def scanTrans (t : Bytes) (s : Nat) (b : Byte) : Nat :=
  fieldAt t (scanTransAt t + 2 * (s * scanClasses t + fieldAt t (0x40 + b.toNat) 1)) 2
/-- The code an accepting state reports. -/
def scanCode (t : Bytes) (s : Nat) : Nat := fieldAt t (scanTransAt t + 2 * scanStates t * scanClasses t + 2 * s) 2 % 32768

/-- ASCII lower case. -/
def lower (b : Byte) : Byte := if 0x41 ≤ b.toNat ∧ b.toNat ≤ 0x5A then byteOf (b.toNat + 32) else b

/-- Is the literal a suffix of what has been read (last byte first)? -/
def litEnds (t : Bytes) (i : Nat) (back : Bytes) : Bool :=
  let l := (scanLit t i).reverse
  let h := back.take l.length
  h.length == l.length && (if bit (scanDir t i) 31 then h.map lower == l.map lower else h == l)

/-- The first match of a record: AUX of the one that ends earliest, a literal before the DFA, a lower number first (R120). -/
def scanGo (t : Bytes) : Bytes → Bytes → Nat → Option Nat
  | [], _, _ => none
  | b :: l, back, st =>
    let back := b :: back
    match (List.range (scanLits t)).find? (fun i => litEnds t i back) with
    | some i => some (i % 256)
    | none =>
      if scanStates t = 0 then scanGo t l back 0 else
      let e := scanTrans t st b
      if bit e 12 then some (32768 + scanCode t (e % 4096)) else scanGo t l back (e % 4096)

/-- S6: does a record pass, and the AUX it reports? INVERT passes the records without a match. -/
def scanRecord (t d : Bytes) : Option Nat :=
  match scanGo t d [] 0 with
  | some a => if bit (fieldAt t 0x0A 2) 0 then none else some a
  | none => if bit (fieldAt t 0x0A 2) 0 then some 0xFFFF else none

/-- Are scan tables refused at installation? (R121) -/
def scanTablesBad (t : Bytes) : Bool :=
  let n := scanStates t * scanClasses t
  fieldAt t 0 4 != 1 || decide (256 < scanLits t) || decide (4096 < scanStates t) || scanClasses t == 0
    || decide (256 < scanClasses t) || decide (16384 < fieldAt t 0x0C 4) || decide (1 < fieldAt t 0x0A 2)
    || ((t.drop 0x10).take 0x30).any (· != 0)
    || (List.range (scanLits t)).any (fun i => scanDir t i / 2 ^ 14 % 4 != 0 || scanDir t i / 2 ^ 22 % 512 != 0)
    || (List.range n).any (fun i => decide (8192 ≤ fieldAt t (scanTransAt t + 2 * i) 2))
    || (List.range (scanStates t)).any (fun i => bit (fieldAt t (scanTransAt t + 2 * n + 2 * i) 2) 15)
    || t.length != scanTransAt t + 2 * n + 2 * scanStates t
    || (List.range 256).any (fun i => decide (scanClasses t ≤ fieldAt t (0x40 + i) 1))
    || (List.range n).any (fun i => decide (scanStates t ≤ fieldAt t (scanTransAt t + 2 * i) 2 % 4096))
    || (List.range (scanLits t)).any fun i =>
        decide (fieldAt t 0x0C 4 < bits (scanDir t i) 0 14 + bits (scanDir t i) 16 6 + 1)

/-! ## S7 (R122-R124) -/

/-- Format code of an ELEM code. -/
def elemFormat : Nat → Nat
  | 0 => 10
  | 1 => 9
  | 2 => 0
  | 3 => 1
  | _ => 2

/-- Bytes of a vector. -/
def vecBytes (metric elem dims : Nat) : Nat := if 2 ≤ metric then dims else dims * (elemBits (elemFormat elem) / 8)

/-- The exact sum of one group of 32 dimensions: products, or squared differences. -/
def groupExact (metric elem : Nat) (q v : Bytes) (g : Nat) : Fv :=
  (List.range 32).foldl (fun acc i =>
    let a := elemAt (elemFormat elem) q (32 * g + i)
    let b := elemAt (elemFormat elem) v (32 * g + i)
    acc.add (if metric = 0 then a.mul b else (a.sub b).mul (a.sub b))) (.fin false 0 0)

/-- One group, rounded once (R123). -/
def groupScore (metric elem : Nat) (q v : Bytes) (g : Nat) : Fv := Fmt.fp32.round (groupExact metric elem q v g)

/-- The FP32 score of a record against a query (R122, R123). -/
def scoreOf (metric elem dims : Nat) (q v : Bytes) : Fv :=
  if 2 ≤ metric then
    let t := (List.range dims).foldl (fun acc j =>
      f32Add acc (Fmt.fp16.decode (fieldAt q ((j * 256 + (v.getD j 0).toNat) * 2) 2))) (.fin false 0 0)
    if metric = 2 then t.neg else t
  else
    let t := (List.range (dims / 32)).foldl (fun acc g => f32Add acc (groupScore metric elem q v g)) (.fin false 0 0)
    if metric = 1 then t.neg else t

/-- The key of a score; none for a NaN (R124, R160). -/
def scoreKey (metric elem dims : Nat) (q v : Bytes) : Option Nat :=
  match scoreOf metric elem dims q v with
  | .nan => none
  | x => some (keyOfF32 (toF32 x))

end Sys2Proof.Machine
end

