-- ==== Sys2Proof/Machine/PipeOps.lean ====
section
/-! DEFINITION. A channel's pipeline (spec/05): the checks of a job's descriptor, its input, its stages S3 to S7, the emission of
its candidate records, its completion record. -/

namespace Sys2Proof.Machine

/-! ## Descriptors (R110) -/

/-- A field of a channel job descriptor. -/
abbrev jd (j : ChJob) (off k : Nat) : Nat := fieldAt j.desc off k
/-- Is stage `n` active? -/
def ChJob.on (j : ChJob) (n : Nat) : Bool := !bit (jd j 0x08 2) n
/-- EXT_TYPE. -/
def ChJob.ext (j : ChJob) : Nat := jd j 0x07 1
/-- FRAME. -/
def ChJob.frame (j : ChJob) : Nat := jd j 0x0A 1 % 4
/-- REC_LEN. -/
def ChJob.recLen (j : ChJob) : Nat := jd j 0x0C 4
/-- The 20-bit job number. -/
def ChJob.jobNo (j : ChJob) : Nat := jd j 0x04 2 + 65536 * (jd j 0x36 2 % 16)
/-- DEST: the merge instance. -/
def ChJob.dest (j : ChJob) : Nat := jd j 0x5C 4 % 65536
/-- QUERIES. -/
def ChJob.queries (j : ChJob) : Nat := jd j 0x29 1
/-- DIMS. -/
def ChJob.dims (j : ChJob) : Nat := jd j 0x2A 2
/-- METRIC. -/
def ChJob.metric (j : ChJob) : Nat := jd j 0x2C 1
/-- ELEM. -/
def ChJob.elem (j : ChJob) : Nat := jd j 0x2D 1
/-- Bytes of a vector or code in a record. -/
def ChJob.vec (j : ChJob) : Nat := vecBytes j.metric j.elem j.dims
/-- Bytes of a query in the query block: PQ tables, or a vector on a 64 B boundary (R123). -/
def ChJob.queryBytes (j : ChJob) : Nat := if 2 ≤ j.metric then 512 * j.dims else (j.vec + 63) / 64 * 64
/-- Are the candidate IDs locators? (R116) -/
def ChJob.byLocator (j : ChJob) : Bool := jd j 0x2E 2 == 0xFFFF || j.frame == 1
/-- FEEDBACK. -/
def ChJob.feedback (j : ChJob) : Bool := bit (jd j 0x0B 1) 0
/-- STOP_ON_POISON. -/
def ChJob.stopOnPoison (j : ChJob) : Bool := bit (jd j 0x0B 1) 1

/-- A reserved field of the descriptor or of its page list is set (R11, R110, R111). -/
def ChJob.reservedSet (j : ChJob) (pages : List Bytes) : Bool :=
  jd j 0x03 1 != 0 || bit (jd j 0x06 1) 7 || decide (1024 ≤ jd j 0x08 2) || decide (4 ≤ jd j 0x0A 1)
    || decide (4 ≤ jd j 0x0B 1) || decide (16 ≤ jd j 0x36 2) || decide (65536 ≤ jd j 0x5C 4)
    || ((j.desc.drop 0x60).take 32).any (· != 0)
    || pages.any fun p => decide (16 ≤ fieldAt p 4 1) || fieldAt p 5 3 != 0

/-- Does the descriptor name an address outside hub SRAM and HBM? -/
def ChJob.addrBad (j : ChJob) : Bool :=
  (j.seam.isNone && !inSramHbm (jd j 0x10 8) (if j.on 0 then 16 * jd j 0x18 4 else jd j 0x18 4))
    || (j.on 5 && !inSramHbm (jd j 0x20 8) (8 + 24 * jd j 0x28 1))
    || (j.on 7 && !inSramHbm (jd j 0x38 8) (j.queries * j.queryBytes))
    || (j.on 8 && jd j 0x40 8 != 0 && !inSramHbm (jd j 0x40 8) (4 * j.queries))
    || (jd j 0x50 8 != 0 && !inSramHbm (jd j 0x50 8) 131072)

/-- Stages that cannot work together, and fields out of their ranges (R105, R110, R117, R122, R124). -/
def ChJob.unfit (j : ChJob) (pages : List Bytes) : Bool :=
  let attr := jd j 0x30 2
  let ido := jd j 0x2E 2
  let vo := jd j 0x32 2
  let pq := decide (2 ≤ j.metric)
  (!j.on 0 && (j.on 1 || j.on 2)) || (j.on 7 && (!j.on 4 || j.frame == 1)) || (j.on 5 && (j.frame == 1 || attr == 0xFFFF))
    || (j.on 8 && !j.on 7) || (j.on 7 && j.ext == 1) || decide (3 < j.ext) || j.frame == 3
    || (j.on 7 && (decide (3 < j.metric) || (if pq then j.elem != 5 else decide (4 < j.elem))))
    || (j.on 7 && (j.queries == 0 || decide (64 < j.queries)))
    || (j.on 7 && (if pq then j.dims % 8 != 0 || decide (j.dims < 8) || decide (256 < j.dims) || decide (4096 < j.dims * j.queries)
                   else j.dims % 32 != 0 || decide (j.dims < 32) || decide (4096 < j.dims)))
    || (!j.on 7 && (j.queries != 0 || j.dims != 0 || j.metric != 0 || j.elem != 0 || vo != 0 || jd j 0x38 8 != 0))
    || (!j.on 8 && (jd j 0x40 8 != 0 || j.feedback || jd j 0x34 2 != 0))
    || (j.on 5 && (jd j 0x28 1 == 0 || decide (8 < jd j 0x28 1)))
    || (!j.on 5 && (jd j 0x28 1 != 0 || jd j 0x20 8 != 0 || (attr != 0 && attr != 0xFFFF)))
    || (if j.on 4 then
          match j.frame with
          | 0 => decide (j.recLen < 8) || decide (65536 < j.recLen) || (j.on 3 && j.ext == 2)
          | 1 => j.recLen != 0 || (j.on 3 && decide (2 ≤ j.ext))
          | _ => j.recLen == 0 || decide (65536 < j.recLen) || (j.on 3 && j.ext != 0)
        else j.frame != 0 || j.recLen != 0)
    || (!j.on 3 && j.ext != 0) || (!j.on 4 && (jd j 0x50 8 != 0 || (j.ext != 1 && jd j 0x48 8 != 0)))
    || (!j.on 9 && (jd j 0x58 4 != 0 || j.dest != 0))
    || (j.seam.isNone && (jd j 0x18 4 == 0 || decide ((if j.on 0 then 4096 else 1048576) < jd j 0x18 4)))
    || (j.on 4 && j.frame != 1 && ((ido != 0xFFFF && decide (j.recLen < ido + 8)) || (j.on 5 && decide (j.recLen < attr + 16))
          || (j.on 7 && decide (j.recLen < vo + j.vec))))
    || (j.on 0 && pages.any fun p => fieldAt p 4 1 % 16 == 0)

/-- Is REQ_TAG beyond the 20 bits of a tag and not the module's own (R5)? -/
def ChJob.tagBad (j : ChJob) : Bool := decide (2 ^ 20 ≤ jd j 0x00 3) && jd j 0x00 3 != 0xFFFFFF

/-- The code with which a descriptor is refused (R5, R105, R110, R119, R124). A KEY_SLOT without a key is taken as an object that does
not exist (log 71). -/
def State.chJobCheck (s : State) (ch : Nat) (j : ChJob) (pages : List Bytes) : Option Nat :=
  if j.reservedSet pages then some St.reservedField
  else if jd j 0x06 1 % 128 ≠ ch ∨ j.tagBad then some St.idRange
  else if (j.on 6 && j.tables == []) || (j.on 2 && j.key.isNone) then some St.noObject
  else if j.addrBad then some St.addrDenied
  else if j.unfit pages then some St.unsupported
  else if j.on 5 then predBlockCheck (jd j 0x28 1) (match j.inBlock with
    | some (p, _) => p
    | none => s.bytesAt (jd j 0x20 8) (8 + 24 * jd j 0x28 1))
  else none

/-! ## Input -/

/-- Bytes of hub SRAM or HBM as input: a poisoned word's bytes are unusable, POISON_IN (R129). -/
def State.memStream (s : State) (a n : Nat) : List SByte :=
  (List.range n).map fun i => { b := s.byteAt (a + i), loc := i, pos := i, err := if s.poisonIn (a + i) 1 then 6 else 0 }

/-- A codeword's 4,096 bytes at its LBA; `err` for one that cannot be decoded. -/
def codewordStream (lba err : Nat) (b : Bytes) : List SByte :=
  (fitTo 4096 b).zipIdx.map fun x => { b := x.1, loc := lba * 4096 + x.2, pos := lba * 4096 + x.2, err := err }

/-- Coded tiles one after another (R114, R292): unit and side bytes of each; none at a codec error. `form`: the unit and side bytes that
the job expects; a TENSOR_CT job has no field that names them, and takes each tile's own (log 71). -/
def ctTiles (form : Option (Nat × Nat)) : Nat → Bytes → Option Bytes
  | 0, _ => none
  | fuel + 1, b =>
    if b = [] then some [] else
    let n := fieldAt b 8 4
    let (e, side) := form.getD ((match fieldAt b 1 1 % 4 with
      | 0 => 1
      | 1 => 2
      | _ => 4), fieldAt b 6 2)
    if n < 16 ∨ b.length < n then none else
    match ctDecode e side (b.take n), ctTiles form fuel (b.drop n) with
    | some (u, s), some r => some (u ++ s ++ r)
    | _, _ => none

/-- Decoded bytes that stand in place of a coded area. -/
def placeBytes (l : List SByte) (b : Bytes) : List SByte :=
  let p := (l.head?.map (·.pos)).getD 0
  b.zipIdx.map fun x => { b := x.1, loc := p + x.2, pos := p + x.2 }

/-- A list extent (R137): S3 strips the header and delivers its records. -/
def vectorList (r : Option ListRef) (l : List SByte) : List SByte × Nat :=
  let hd := l.take 256
  let area := l.drop 256
  let h := plainBytes hd
  let fits := match r with
    | some r => fieldAt h 4 1 == r.index && fieldAt h 8 4 % 2 ^ 22 == r.list && fieldAt h 0x0C 4 == r.ext
    | none => true
  match hd.find? (fun x => !x.good) with
  | some x => (spoil x.err area, 0)
  | none =>
    if fieldAt h 0 4 ≠ 1 ∨ !fits then (spoil 3 area, 1)
    else
      let n := fieldAt h 0x18 4 * fieldAt h 6 2
      if bit (fieldAt h 5 1) 0 then
        let coded := area.take (fieldAt h 0x1C 4)
        match coded.find? (fun x => !x.good) with
        | some x => (spoil x.err area, 0)
        | none => match ctTiles (some (1, 0)) (coded.length + 1) (plainBytes coded) with
          | some b => (placeBytes area (b.take n), 0)
          | none => (spoil 3 area, 1)
      else (area.take n, 0)

/-- S3: the stream as S4 sees it, and the codec errors met (R114). `final`: `l` is the whole input; of a part of it, whole granules
of a TEXT_LZ4 extent are decoded, and coded tiles wait. -/
def ChJob.stage3 (j : ChJob) (final : Bool) (l : List SByte) : List SByte × Nat :=
  if !j.on 3 || j.ext == 0 then (l, 0) else
  match j.ext with
  | 1 => lz4Stream (l.length / 16384 + 2) (if final then l else l.take (l.length / 16384 * 16384))
  | 2 =>
    if !final then ([], 0) else
    match l.find? (fun x => !x.good), ctTiles none (l.length + 1) (plainBytes l) with
    | some x, _ => (spoil x.err l, 0)
    | none, some b => (placeBytes l b, 0)
    | none, none => (spoil 3 l, 1)
  | _ => if final then vectorList j.listRef l else ([], 0)

/-- S4 (R117, R118). `first`: namespace position of the first byte that S3 took in; `final`: nothing follows `l`. -/
def ChJob.stage4 (j : ChJob) (final : Bool) (first : Option Nat) (l : List SByte) : Frames :=
  let seams := jd j 0x50 8 != 0
  let atStart := !seams || (first.map (· == jd j 0x48 8)).getD true
  let atEnd := final && (!seams || j.atEnd)
  if !j.on 4 then (if l = [] || !final then {} else { pieces := [.record 0 0 l] })
  else if j.seam.isSome then
    (if j.frame = 0 ∧ l.length < j.recLen then { pieces := [.dropped l] }
     else { pieces := [if j.frame = 1 then lineRecord l else .record 0 0 l] })
  else match j.frame with
    | 0 => if j.on 3 && j.ext == 1 then frameBlocks j.recLen l
           else frameFixed j.recLen (jd j 0x48 8) (atStart || j.ext == 3) (atEnd || j.ext == 3) l
    | 1 => frameLines atStart atEnd l
    | _ =>
      let n := 16384 - ((first.getD 0 : Int) - jd j 0x48 8).toNat % 16384
      let m := if final || l.length < n then (if final then l.length else 0) else n + (l.length - n) / 16384 * 16384
      { pieces := framePrefixed (l.length / 16384 + 3) n j.recLen (l.take m) }

/-! ## S5 to S7 -/

/-- The 16-byte candidate record (R127). -/
def candidate (id key query rflags aux : Nat) : Bytes :=
  leBytes 8 id ++ leBytes 4 key ++ leBytes 1 query ++ leBytes 1 rflags ++ leBytes 2 aux

/-- What the stages read beside the stream: predicate block, queries. -/
structure StageIn where
  preds : Bytes := []
  queries : List Bytes := []
deriving DecidableEq, Repr

/-- The records and spans of framing that nothing which follows can change: the last span of a part of the stream may still grow. -/
def settled (final : Bool) (l : List Framed) : List Framed :=
  if final then l else match l.getLast? with
    | some (.span _ _ _) => l.dropLast
    | _ => l

/-- RFLAGS of a job's records: SEAM, LONG and the job number's high bits (R127). -/
def ChJob.rflags (j : ChJob) : Nat :=
  (match j.seam with
   | some (_, long) => 2 + 4 * b2n long
   | none => 0) + (if j.on 7 then 16 * (j.jobNo / 65536) else 0)

/-- Keys of a record against every query, and the scores that are NaN (R124). -/
def ChJob.scores (j : ChJob) (qs : List Bytes) (v : Bytes) : List (Nat × Nat) × Nat :=
  let ks := qs.zipIdx.map fun q => (q.2, scoreKey j.metric j.elem j.dims q.1 v)
  (ks.filterMap fun k => k.2.map fun x => (k.1, x), (ks.filter fun k => k.2.isNone).length)

/-- Bytes a record needs to hold every field the job reads in it (R117). -/
def ChJob.needs (j : ChJob) : Nat :=
  max (if j.byLocator then 0 else jd j 0x2E 2 + 8)
    (max (if j.on 5 then jd j 0x30 2 + 16 else 0) (if j.on 7 then jd j 0x32 2 + j.vec else 0))

/-- A record or span as it stands before S8. -/
def ChJob.evaluate (j : ChJob) (x : StageIn) : Framed → SItem
  | .dropped => { framed := 1 }
  | .span loc len err =>
    { err := err, span := true
      cands := [(0xFF, 0, candidate loc (min len 0xFFFFFFFF) 0xFF (1 + j.rflags) err)] }
  | .good loc d =>
    let id := if j.byLocator then loc else fieldAt d (jd j 0x2E 2) 8
    let aux := if j.on 6 then scanRecord j.tables d else some 0xFFFF
    if d.length < j.needs || (j.on 5 && !predPass (jd j 0x28 1) x.preds ((d.drop (jd j 0x30 2)).take 16)) then { framed := 1 }
    else match aux with
      | none => { framed := 1 }
      | some aux =>
        if j.on 7 then
          let (ks, nan) := j.scores x.queries ((d.drop (jd j 0x32 2)).take j.vec)
          { framed := 1, passed := 1, nan := nan, judged := j.on 8
            cands := ks.map fun k => (k.1, k.2, candidate id k.2 k.1 j.rflags (j.jobNo % 65536)) }
        else
          { framed := 1, passed := 1, cands := [(0xFF, 0, candidate id (min d.length 0xFFFFFFFF) 0xFF j.rflags aux)] }

/-! ## S8 and S9 (R125, R126) -/

/-- The candidates of a record that pass S8. -/
def ChJob.judge (j : ChJob) (it : SItem) : List Bytes :=
  (it.cands.filter fun c => !it.judged || decide (j.thresholds.getD c.1 0 ≤ c.2.1)).map (·.2.2)

/-- A fragment's poison as it counts for STAGE_ERR (R129). -/
def fragmentErr (l : List SByte) : List SItem := if firstErr l = 0 then [] else [{ err := firstErr l }]

/-- The records of a stream as they stand before S8, in stream order, with the errors of the fragments (R129). -/
def ChJob.itemsOf (j : ChJob) (x : StageIn) (final : Bool) (f : Frames) : List SItem :=
  let items := (settled final (spansOf f.pieces none)).map (j.evaluate x)
  (if items ≠ [] ∨ final = true then fragmentErr f.head else []) ++ items ++ (if final then fragmentErr f.tail else [])

/-- A record passes S8: its candidates go to S9; MAX_RECORDS and STOP_ON_POISON end the job's input (R126, R128). -/
def ChJob.takeItem (j : ChJob) (it : SItem) (rest : List SItem) : ChJob :=
  let cs := if j.on 9 then j.judge it else []
  let top := jd j 0x58 4
  let full := decide (top ≠ 0) && decide (top ≤ j.emitted + cs.length)
  let stop := it.span && j.stopOnPoison
  { j with
    framed := j.framed + it.framed, passed := j.passed + it.passed, nan := j.nan + it.nan
    lostRecs := j.lostRecs + (if it.span ∧ j.recLen ≠ 0 then
      (it.cands.map fun c => (fieldAt c.2.2 8 4 + j.recLen - 1) / j.recLen).sum else 0)
    err := if j.err = 0 then it.err else j.err, poisoned := j.poisoned || it.span
    emit := if full then cs.take (top - j.emitted) else cs
    items := if full || stop then [] else rest
    fed := j.fed || full || stop
    reads := if full || stop then [] else j.reads
    next := if full || stop then j.pages.length else j.next
    trunc := j.trunc || full
    status := if stop then St.poisoned else j.status }

/-- S9 writes waiting candidates while the queue has room; leading ones of a re-run are suppressed. -/
def emitGo (dest : Nat) : List Bytes → ChJob → XQueue → List (Nat × Bytes × Bool) → ChJob × XQueue × List (Nat × Bytes × Bool)
  | [], j, x, sent => ({ j with emit := [] }, x, sent)
  | c :: l, j, x, sent =>
    if 0 < j.skip then emitGo dest l { j with skip := j.skip - 1, emitted := j.emitted + 1 } x sent
    else if x.fullWrite then ({ j with emit := c :: l }, x, sent)
    else emitGo dest l { j with emitted := j.emitted + 1 } (x.write c false) (sent ++ [(dest, c, false)])

/-- Records pass S8 and S9 as far as the crossing queue takes them. -/
def pumpGo : Nat → ChJob → XQueue → List (Nat × Bytes × Bool) → ChJob × XQueue × List (Nat × Bytes × Bool)
  | 0, j, x, sent => (j, x, sent)
  | fuel + 1, j, x, sent =>
    let (j, x, sent) := emitGo j.dest j.emit j x sent
    match j.emit, j.items with
    | [], it :: rest => pumpGo fuel (j.takeItem it rest) x sent
    | _, _ => (j, x, sent)

/-! ## The pipeline in the state -/

/-- A channel's pipeline. -/
def State.pipe (s : State) (ch : Nat) : Pipe := Tab.get {} s.pipes.chans ch
/-- Change a channel's pipeline. -/
def State.modPipe (s : State) (ch : Nat) (f : Pipe → Pipe) : State :=
  s.modPipes fun p => { p with chans := Tab.mod {} p.chans ch f }
/-- The job of a channel that S0 has begun, by its number. -/
def Pipe.jobOf (p : Pipe) (serial : Nat) : Option ChJob := (p.run.toList ++ p.ahead.toList).find? fun j => j.serial == serial
/-- Change a job that S0 has begun. -/
def State.modChJob (s : State) (ch serial : Nat) (f : ChJob → ChJob) : State :=
  let g (j : ChJob) : ChJob := if j.serial = serial then f j else j
  s.modPipe ch fun p => { p with run := p.run.map g, ahead := p.ahead.map g }
/-- Change the running job of a channel. -/
def State.modRun (s : State) (ch : Nat) (f : ChJob → ChJob) : State := s.modPipe ch fun p => { p with run := p.run.map f }

/-- S8 and S9 of a channel go on. -/
def State.pump (s : State) (ch : Nat) : State :=
  match (s.pipe ch).run with
  | some j =>
    let (j, x, sent) := pumpGo (j.items.length + 1) j (s.xq ch) []
    (s.modXq ch fun _ => x).modPipe ch fun p => { p with run := some j, sent := p.sent ++ sent }
  | none => s

/-- Write a fragment to the seam buffer; its unusable bytes poison their words (R118). -/
def writeFragment (a : Nat) (l : List SByte) (s : State) : State :=
  let l := l.take 65536
  (l.zipIdx.filter fun x => !x.1.good).foldl (fun s x => s.poisonWord (a + x.2)) (s.writeMem a (plainBytes l))

/-- What the stages of a job read beside its stream, as they load it when the job starts. -/
def State.stageIn (s : State) (j : ChJob) : Bytes × List Bytes :=
  match j.inBlock with
  | some x => x
  | none => (if j.on 5 then s.bytesAt (jd j 0x20 8) (8 + 24 * jd j 0x28 1) else [],
      if j.on 7 then (List.range j.queries).map fun q => s.bytesAt (jd j 0x38 8 + q * j.queryBytes) j.queryBytes else [])

/-- The thresholds that S8 loads at the start of a job (R125). -/
def State.initThresholds (s : State) (j : ChJob) : List Nat :=
  (List.range j.queries).map fun q => if j.on 8 && jd j 0x40 8 != 0 then s.natAt (jd j 0x40 8 + 4 * q) 4 else 0

/-- Input of the running job has come: `l`, from its first byte on, is framed, tested and scored as far as it goes (R104, R106). `final`:
it is the whole input; the fragments for the seams are then written (R118). -/
def State.feedJob (s : State) (ch : Nat) (j : ChJob) (final : Bool) (l : List SByte) : State :=
  let x := s.stageIn j
  let (l3, codec) := j.stage3 final l
  let f := j.stage4 final (l.head?.map (·.pos)) l3
  let items := j.itemsOf { preds := x.1, queries := x.2 } final f
  let s := s.modRun ch fun j => { j with
    fed := final, items := j.items ++ items.drop j.made, made := max j.made items.length
    codecs := codec, bytesIn := (l3.filter fun y => !y.pad).length }
  let s := s.modPipe ch fun p => { p with codecStalls := p.codecStalls + (codec - j.codecs) }
  let s := if final then
      let s := s.modRun ch fun j => { j with
        head := f.head, tail := f.tail, middle := f.middle
        long := decide (65536 < f.head.length) || decide (65536 < f.tail.length) }
      let s := if f.head = [] then s else writeFragment (jd j 0x50 8) f.head s
      if f.tail = [] then s else writeFragment (jd j 0x50 8 + 65536) f.tail s
    else s
  s.pump ch

/-- Codewords a page-list entry uses. -/
def entryMask (p : Bytes) : Nat := fieldAt p 4 1 % 16

/-- The input of a job in page-list order, up to the first codeword that has not come (R112). -/
def ChJob.input (j : ChJob) : List SByte :=
  let keys := (j.pages.zipIdx.map fun p => (maskList (entryMask p.1)).map fun n => 4 * p.2 + n).flatten
  ((keys.takeWhile fun k => Tab.has j.got k).map fun k => Tab.get [] j.got k).flatten

/-- Have all the pages come? -/
def ChJob.complete (j : ChJob) : Bool := j.next == j.pages.length && j.reads == []

/-- Run the stages on the input that has come, once the tables are loaded. -/
def State.tryFeed (s : State) (ch : Nat) : State :=
  match (s.pipe ch).run with
  | some j =>
    if j.fed || j.loading then s
    else match j.seam with
      | some (l, _) => s.feedJob ch j true l
      | none =>
        if !j.on 0 then s.feedJob ch j true (s.memStream (jd j 0x10 8) (jd j 0x18 4))
        else s.feedJob ch j j.complete j.input
  | none => s

/-- Planes of a mapping unit (R382). -/
def Part.planes : Part → Nat
  | .p064 => 1
  | .p128 => 2
  | .p256 => 4

/-- The slot of the unit a page belongs to (R383); 0xFFFF_FFFF in the system area. -/
def Part.slotOf (p : Part) (ch page : Nat) : Nat :=
  if 3640 ≤ pgBlock page then 0xFFFFFFFF
  else (((ch * p.targets + pgTarget page) * (4 / p.planes) + pgPlane page / p.planes) * 3640 + pgBlock page) * 1152 + pgPage page

/-- The report of a sector that cannot be recovered (R391, R426). -/
def unrecovered (slot ch page nsid lba tag : Nat) : Report :=
  { cls := .flashUnrecovered, source := slot, partner := partnerHd, tag := tag, addr := nsid * 2 ^ 56 + lba % 2 ^ 56
    st := St.mediaUnrecovered, aux := ch + 128 * pgTarget page }

/-- The report of a codeword that a retry corrected (R113, R426). -/
def flashRetry (ch page tag : Nat) : Report :=
  { cls := .flashRetry, source := ch + 128 * pgTarget page, partner := partnerHd, tag := tag, addr := ch * 2 ^ 32 + page }

/-- The POISON mask a page's tag carries (R388). -/
def tagPoison (t : Bytes) : Nat := fieldAt t 14 2
/-- The OWNER PART a page's tag carries: which page of its unit it is. -/
def tagPart (t : Bytes) : Nat := fieldAt t 13 1

/-- A codeword of a job leaves S2 whole. -/
def State.codewordIn (s : State) (ch serial key lba : Nat) (data : Bytes) : State :=
  s.modChJob ch serial fun j => { j with got := Tab.put j.got key (codewordStream lba 0 data) }

/-- A codeword of a job that cannot be decoded, or whose sector is marked in POISON (R391): it is reported, and passed on
poisoned (R113). -/
def State.codewordLost (s : State) (ch : Nat) (j : ChJob) (key page lba : Nat) : State :=
  let slot := jd j 0x1C 2
  let nsid := if 1 ≤ slot ∧ slot ≤ 128 then slot else 0
  (s.report .hd (unrecovered (s.part.slotOf ch page) ch page nsid lba (jd j 0x00 3))).modChJob ch j.serial fun j =>
    { j with got := Tab.put j.got key (codewordStream lba 1 []) }

/-- The codewords of a page-list entry that no flash page holds (log 30). -/
def State.entryInline (s : State) (ch : Nat) (j : ChJob) (p b : Bytes) (poison : Nat) : State :=
  (maskList (entryMask p)).foldl (fun s n =>
    let key := 4 * j.next + n
    let lba := fieldAt p 8 8 + n
    if bit poison n then s.codewordLost ch j key (fieldAt p 0 4) lba
    else s.codewordIn ch j.serial key lba ((b.drop (4096 * n)).take 4096)) s

/-- Is S9 waiting on a full queue? The pipeline is then stalled back to S0 (R126). -/
def Pipe.stalled (p : Pipe) : Bool := match p.run with
  | some j => j.emit != []
  | none => false

/-- S0 enters reads of a job's next page-list entries while fewer than 8 are outstanding and the pipeline is not stalled (R112,
R126). -/
def State.readAhead : Nat → Nat → Nat → State → State
  | 0, _, _, s => s
  | fuel + 1, ch, n, s =>
    match (s.pipe ch).jobOf n with
    | some j =>
      if j.fed || (s.pipe ch).stalled then s else
      match j.pages[j.next]? with
      | some p =>
        let m := entryMask p
        match Tab.find j.inline j.next with
        | some (b, poison) =>
          readAhead fuel ch n ((s.entryInline ch j p b poison).modChJob ch n fun j => { j with next := j.next + 1 })
        | none =>
          if 8 ≤ j.reads.length then s else
          let s := s.modChJob ch n fun j => { j with next := j.next + 1, reads := j.reads ++ [⟨j.next, 0, m⟩] }
          readAhead fuel ch n (s.modChan ch fun c => { c with ring1 := c.ring1 ++ [readRequest n j.next (fieldAt p 0 4) 0 m] })
      | none => s
    | none => s

/-- S0 goes on with a job. -/
def State.fetchFor (s : State) (ch : Nat) (j : Option ChJob) : State :=
  match j with
  | some j => s.readAhead (j.pages.length + 1) ch j.serial
  | none => s

/-- Go on with the input of the jobs that S0 has begun. -/
def State.advance (s : State) (ch : Nat) : State :=
  let s := (s.fetchFor ch (s.pipe ch).run).fetchFor ch (s.pipe ch).ahead
  s.tryFeed ch

/-- End the running job's input: nothing further enters the stages; the record at S9 is finished. Reads of it that the ROM has taken
deliver nothing. -/
def State.cutJob (s : State) (ch st err : Nat) : State :=
  let n := ((s.pipe ch).run.map (·.serial)).getD 0
  let s := s.modRun ch fun j => { j with
    fed := true, items := [], reads := [], next := j.pages.length, status := st, err := err }
  s.modChan ch fun c => { c with ring1 := c.ring1.filter fun r => rqBuf r != n }

/-! ## Codewords that come back (R113) -/

/-- A codeword's bytes past S2: decrypted, or as they are stored where S2 is bypassed. -/
def ChJob.decrypt (j : ChJob) (cover : Option (Nat × Nat)) (n lba : Nat) (clear : Bytes) : Bytes :=
  if j.on 2 then openCodeword cover n (j.key.getD 0) lba clear else storedCodeword cover n clear

/-- One codeword of a read: decoded, to be read again, or lost after seven retries. With S1 bypassed it passes uncorrected: one that has
errors in it holds nothing that is known (R104). -/
def codewordBack (ch : Nat) (j : ChJob) (r : PRead) (page lba : Nat) (x : FPage) (cover : Option (Nat × Nat)) (g bad n : Nat)
    (s : State) : State :=
  let tag := jd j 0x00 3
  let key := 4 * r.entry + n
  if !bit bad n || !j.on 1 then
    let (data, poison) := match x with
      | .written d t =>
        (if bit bad n then freeBytes (g + n) 4096 else j.decrypt cover n (lba + n) ((d.drop (4096 * n)).take 4096),
          bit (tagPoison t) (4 * tagPart t + n))
      | _ => (freeBytes (g + n) 4096, false)
    let s := if !j.on 1 then s else
      s.modFtl fun f => if r.retry = 0 then { f with cwFirst := f.cwFirst + 1 } else { f with cwRetry := f.cwRetry + 1 }
    let s := if r.retry = 0 then s else s.report .hd (flashRetry ch page tag)
    if poison then s.codewordLost ch j key page (lba + n) else s.codewordIn ch j.serial key (lba + n) data
  else if r.retry < 7 then
    (s.modPipe ch fun p => { p with retryStalls := p.retryStalls + 1 }).modChJob ch j.serial fun j =>
      { j with retries := satAdd 65535 j.retries 1 }
  else (s.modFtl fun f => { f with cwLost := f.cwLost + 1 }).codewordLost ch j key page (lba + n)

/-- A READ of ring 1 has ended: S1 decodes, reads again, or poisons (R112, R113); one of a job that takes no more input delivers nothing.
`bad`: the codewords that cannot be decoded, all of them where the read delivered nothing. -/
def pipeRead (ch : Nat) (req : Bytes) (st bad : Nat) (s : State) : State :=
  match (s.pipe ch).jobOf (rqBuf req) with
  | some j =>
    match j.reads.find? (fun r => r.entry == rqTag req && r.retry == rqArg req) with
    | some r =>
      if st ≠ St.ok then
        (s.modChJob ch j.serial fun j => { j with
          fed := true, items := [], reads := [], next := j.pages.length, status := st, err := 2 }).pump ch
      else
      let e := j.pages.getD r.entry []
      let x := s.page ch (rqPage req)
      let cover := s.cover ch (rqPage req)
      let g := s.free
      let s := (maskList r.mask).foldl (fun s n => codewordBack ch j r (rqPage req) (fieldAt e 8 8) x cover g bad n s)
        { s with free := s.free + 4 }
      let again := if j.on 1 then bad &&& r.mask else 0
      let s := s.modChJob ch j.serial fun j => { j with
        reads := (j.reads.filter fun q => q.entry != r.entry) ++ (if again ≠ 0 ∧ r.retry < 7 then [⟨r.entry, r.retry + 1, again⟩] else []) }
      let s := if again ≠ 0 ∧ r.retry < 7 then
        s.modChan ch fun c => { c with ring1 := c.ring1 ++ [readRequest j.serial r.entry (rqPage req) (r.retry + 1) again] } else s
      s.advance ch
    | none => s
  | none => s

/-! ## Completion (R129) -/

/-- CFLAGS. -/
def ChJob.cflags (j : ChJob) : Nat :=
  b2n j.trunc + 2 * b2n j.poisoned + 4 * b2n (j.head != [] || j.tail != []) + 8 * b2n j.long + 16 * (j.jobNo / 65536)

/-- The 32-byte completion record. -/
def ChJob.record (j : ChJob) (now : Nat) : Bytes :=
  leBytes 4 (jd j 0x00 3) ++ leBytes 2 (jd j 0x04 2) ++ leBytes 2 j.status ++ leBytes 1 j.err ++ leBytes 1 j.cflags
    ++ leBytes 2 j.retries ++ leBytes 4 (min j.emitted 0xFFFFFFFF) ++ leBytes 4 (min j.framed 0xFFFFFFFF)
    ++ leBytes 4 (min j.passed 0xFFFFFFFF) ++ leBytes 4 (min ((j.bytesIn + 1023) / 1024) 0xFFFFFFFF)
    ++ leBytes 4 (min (now - j.t0) 0xFFFFFFFF)

/-- Nothing of the job is left in the stages. -/
def ChJob.drained (j : ChJob) : Bool := j.fed && j.items == [] && j.emit == []

/-- Is there a free slot in the completion ring? -/
def Pipe.room (p : Pipe) : Bool := (p.cmplTail + 1) % 256 != p.cmplHead

/-- A job as it starts again from its first page (R125), TABLE being its first stage error where none came before: a job without S7
suppresses what it had emitted. -/
def ChJob.again (j : ChJob) (serial : Nat) : ChJob :=
  { desc := j.desc, t0 := j.t0, tablesVer := j.tablesVer, tables := j.tables, key := j.key, serial := serial, inline := j.inline
    atEnd := j.atEnd, seam := j.seam, listRef := j.listRef, inBlock := j.inBlock, qmap := j.qmap, pages := j.pages
    loading := j.on 6, reran := true, skip := if j.on 7 then 0 else j.emitted, err := if j.err = 0 then 5 else j.err
    retries := j.retries }

/-- Run the running job again: S6, S7 and S8 load their memories anew. -/
def State.rerunJob (s : State) (ch : Nat) : State :=
  let n := (s.pipe ch).serial
  let s := s.modPipe ch fun p => { p with serial := n + 1, run := p.run.map fun j => j.again n }
  (s.modRun ch fun j => { j with thresholds := s.initThresholds j }).advance ch

/-- The table or query memory of a channel has failed its parity, or its queue was written while FULL: a Vermilion fault. The running
job runs once more, and a second failure ends it (R121, R125, R126). -/
def State.jobFault (s : State) (ch : Nat) (j : ChJob) : State :=
  let s := s.report .hd { cls := .channelTable, source := ch, partner := partnerHd, tag := jd j 0 3 }
  if j.reran then
    (s.cutJob ch St.stepFailed (if j.err = 0 then 5 else j.err)).modRun ch fun j => { j with emit := [] }
  else s.rerunJob ch

end Sys2Proof.Machine
end

