-- ==== Sys2Proof/Machine/FtlOps.lean ====
section
/-! DEFINITION. The flash translation layer (spec/17): logical space, map, write buffer, journal, erase units, reading,
retirement. Its own requests to the media ROM are made and end within its steps. -/

namespace Sys2Proof.Machine

/-! ## Logical space (R382) -/

/-- Bytes of a mapping unit. -/
def Part.unitSize (p : Part) : Nat := p.unitSectors * 4096
/-- Sectors of a commit granule. -/
def Part.granule : Part → Nat
  | .p064 => 16
  | .p128 => 16
  | .p256 => 1

/-- Give an owner `n` units, taken from the gaps between the ranges in use, lowest first. `at_`: where the gap begins. -/
def takeGaps (o : SpaceOwner) : Nat → Nat → List Region → List Region
  | n, at_, [] => if n = 0 then [] else [⟨o, at_, n⟩]
  | n, at_, r :: l =>
    let k := min n (r.start - at_)
    (if k = 0 then [] else [⟨o, at_, k⟩]) ++ r :: takeGaps o (n - k) (r.start + r.count) l

/-- Allocate units; none where too few are free. -/
def Ftl.alloc (f : Ftl) (o : SpaceOwner) (n : Nat) : Option Ftl :=
  if n ≤ f.freeUnits then some { f with space := takeGaps o n 0 f.space } else none

/-- Units an owner holds. -/
def Ftl.held (f : Ftl) (o : SpaceOwner) : Nat := ((f.space.filter fun r => r.owner == o).map fun r => r.count).sum

/-- Unit number `k` of an owner, counted through its ranges in order. -/
def unitIn (o : SpaceOwner) : List Region → Nat → Option Nat
  | [], _ => none
  | r :: l, k => if r.owner = o then (if k < r.count then some (r.start + k) else unitIn o l (k - r.count)) else unitIn o l k

/-- Every unit of an owner. -/
def Ftl.units (f : Ftl) (o : SpaceOwner) : List (Nat × Nat) :=
  (f.space.filter fun r => r.owner == o).map fun r => (r.start, r.count)

/-! ## Slots (R383) -/

/-- UNMAPPED. -/
def unmapped : Nat := 0xFFFFFFFF
/-- The slot of a unit. -/
def Ftl.slot (f : Ftl) (u : Nat) : Nat := Tab.get unmapped f.map u
/-- The erase unit of a slot. -/
def euOf (slot : Nat) : Nat := slot / 1152
/-- Erase units of the module (R402). -/
def eraseUnits : Nat := 3727360

/-- Channel of an erase unit. -/
def Part.euChannel (p : Part) (eu : Nat) : Nat := eu / 3640 / (4 / p.planes) / p.targets
/-- Page address, without its page number and plane within the group, of an erase unit. -/
def Part.euBase (p : Part) (eu : Nat) : Nat :=
  let g := eu / 3640 % (4 / p.planes)
  let t := eu / 3640 / (4 / p.planes) % p.targets
  t * 2 ^ 25 + g * p.planes * 2 ^ 23 + (eu % 3640) * 2 ^ 11
/-- The page addresses of a slot, in the order of PART. -/
def Part.slotPages (p : Part) (slot : Nat) : List Nat :=
  (List.range p.planes).map fun i => p.euBase (euOf slot) + i * 2 ^ 23 + slot % 1152

/-- The OWNER UNIT a page's tag carries. -/
def tagUnit (t : Bytes) : Nat := fieldAt t 8 4
/-- The OWNER KIND a page's tag carries. -/
def tagKind (t : Bytes) : Nat := fieldAt t 12 1

/-- Contents of a unit: its bytes and its POISON mask; `none` for an UNMAPPED unit. -/
def State.unitCopy (s : State) (slot : Nat) : Option (Bytes × Nat) :=
  if slot = unmapped then none
  else match Tab.find s.ftl.buf slot with
    | some b => some (b.data, b.poison)
    | none =>
      let ps := (s.part.slotPages slot).map (s.page (s.part.euChannel (euOf slot)))
      some ((ps.map fun x => match x with
        | .written d _ => fitTo 16384 d
        | .erased => freeBytes 0 16384
        | .undef g => freeBytes g 16384).flatten,
        (ps.map fun x => match x with
          | .written _ t => tagPoison t
          | _ => 0).headD 0)

/-- Sector `k` of a unit: its bytes, and whether its POISON bit is set. -/
def State.sector (s : State) (u k : Nat) : Bytes × Bool :=
  match s.unitCopy (s.ftl.slot u) with
  | some (d, p) => ((d.drop (4096 * k)).take 4096, bit p k)
  | none => (List.replicate 4096 0, false)

/-- The unit and sector of an LBA of a namespace. -/
def State.lbaPlace (s : State) (nsid lba : Nat) : Option (Nat × Nat) :=
  (unitIn (.ns nsid) s.ftl.space (lba / s.part.unitSectors)).map fun u => (u, lba % s.part.unitSectors)

/-! ## The journal (R389) -/

/-- A journal entry. -/
def journalEntry (jseq kind count first : Nat) (slots : List Nat) : Bytes :=
  let b := leBytes 6 jseq ++ leBytes 1 kind ++ leBytes 1 count ++ leBytes 4 first
    ++ fitTo 16 ((slots.map (leBytes 4)).flatten)
  b ++ leBytes 4 (crc32c b)

/-- Append a journal entry. -/
def Ftl.log (f : Ftl) (kind count first : Nat) (slots : List Nat) : Ftl :=
  { f with jseq := f.jseq + 1, journal := f.journal ++ [journalEntry (f.jseq + 1) kind count first slots] }

/-! ## Erase units (R392) -/

/-- State of an erase unit. -/
def Ftl.eu (f : Ftl) (e : Nat) : EuState := Tab.get .free f.eus e
/-- Put an erase unit into a state. -/
def Ftl.setEu (f : Ftl) (e : Nat) (x : EuState) : Ftl :=
  let f := { f with eus := Tab.set .free f.eus e x }
  { f with freeMin := min f.freeMin (eraseUnits - f.eus.length) }
/-- Erase units in the free pool. -/
def Ftl.freeEus (f : Ftl) : Nat := eraseUnits - f.eus.length
/-- Valid units of an erase unit. -/
def Ftl.valid (f : Ftl) (e : Nat) : Nat := (f.map.filter fun m => euOf m.2 == e).length

/-- May a unit be given its next slot in the erase unit? `reserve`: the 256 held back may be used (R392). -/
def Ftl.canTake (f : Ftl) (reserve : Bool) (e : Nat) : Bool :=
  decide (e < eraseUnits) && (match f.eu e with
    | .free => reserve || decide (256 < f.freeEus)
    | .opened n _ => decide (n < 1152)
    | _ => false)

/-- Does no write find an erase unit any more? (R404) -/
def Ftl.exhausted (f : Ftl) : Bool :=
  decide (f.freeEus ≤ 256)
    && !(f.eus.any fun x => match x.2 with
      | .closed _ => decide (f.valid x.1 < 1152)
      | _ => false)

/-- Blocks of an erase unit, as keys of its channel. -/
def Part.euBlocks (p : Part) (eu : Nat) : List Nat := (List.range p.planes).map fun i => (p.euBase eu + i * 2 ^ 23) / 2048

/-- An erase unit of the free pool is opened for programs: its blocks are erased and open in TLC mode. -/
def State.openEu (s : State) (eu : Nat) : State :=
  let ch := s.part.euChannel eu
  let s := (s.part.euBlocks eu).foldl (fun s k => (s.fillBlock ch k false).modChan ch fun c => c.setBlock k { state := .openTlc }) s
  s.modFtl fun f => f.setEu eu (.opened 0 0)

/-- Give the next slot of an erase unit. -/
def State.takeSlot (s : State) (eu : Nat) : Nat × State :=
  let s := if s.ftl.eu eu = .free then s.openEu eu else s
  match s.ftl.eu eu with
  | .opened n p => (eu * 1152 + n, s.modFtl fun f => f.setEu eu (.opened (n + 1) p))
  | _ => (unmapped, s)

/-- Note units of granule commits, as long as copies of the same commit wait to be programmed (R65). -/
def Ftl.tie (f : Ftl) (l : List Tied) : Ftl :=
  { f with tied := (l ++ f.tied).filter fun t => f.buf.any fun b => b.2.group == t.group && !b.2.gc }

/-- The granule commit that the copy at a slot still belongs to; none once it is wholly programmed. -/
def Ftl.groupOf (f : Ftl) (slot : Nat) : Option Nat :=
  match Tab.find f.buf slot with
  | some b => some b.group
  | none => (f.tied.find? fun t => t.slot == slot).map (·.group)

/-- Does an erase unit hold the old copy of a unit whose new one is not safe yet? Until then it is not erased (R65; log 98). -/
def Ftl.holdsOld (f : Ftl) (eu : Nat) : Bool :=
  (f.buf.any fun b => !b.2.gc && b.2.was != unmapped && euOf b.2.was == eu)
    || f.tied.any fun t => t.was != unmapped && euOf t.was == eu

/-- Put copies of units into the buffer, each at the next slot of its erase unit; the slots given. `group`: their granule commit; `gc`:
they are the collector's. -/
def bufferUnits (kind group : Nat) (gc : Bool) : List (Nat × Bytes × Nat) → List Nat → State → List Nat × State
  | (u, d, p) :: l, e :: es, s =>
    let (slot, s) := s.takeSlot e
    let s := s.modFtl fun f => { f with
      buf := Tab.put f.buf slot { unit := u, data := d, poison := p, kind := kind, jseq := f.jseq + 1, was := f.slot u,
                                      group := group, gc := gc } }
    let (r, s) := bufferUnits kind group gc l es s
    (slot :: r, s)
  | _, _, s => ([], s)

/-- Can every unit of a list be given a slot, one after another? The slots are taken in a trial. -/
def canPlace (reserve : Bool) : List Nat → State → Bool
  | [], _ => true
  | e :: l, s => s.ftl.canTake reserve e && canPlace reserve l (s.takeSlot e).2

/-- Point map entries at their new slots. -/
def mapUnits : List Nat → List Nat → Ftl → Ftl
  | u :: us, k :: ks, f => mapUnits us ks { f with map := Tab.set unmapped f.map u k }
  | _, _, f => f

/-- Commit units that follow each other as one granule (R385): buffered, journalled, mapped. `group`: the granule commit they belong to
where it has other entries too. -/
def State.commitUnits (s : State) (kind first : Nat) (units : List (Nat × Bytes × Nat)) (eus : List Nat) (group : Option Nat := none) :
    State :=
  let (slots, s) := bufferUnits kind (group.getD (s.ftl.jseq + 1)) false units eus s
  s.modFtl fun f => mapUnits (units.map (·.1)) slots (f.log 0 units.length first slots)

/-- Unmap `n` units from `u` upward under one journal entry. -/
def Ftl.unmap (f : Ftl) (u n : Nat) : Ftl :=
  if n = 0 then f else
  { (f.log 2 1 u [n]) with map := f.map.filter fun m => !(decide (u ≤ m.1) && decide (m.1 < u + n)) }

/-! ## Programs (R385) -/

/-- The OWNER field of a page (R388). -/
def ownerField (b : BufUnit) (part : Nat) : Bytes :=
  leBytes 4 b.unit ++ leBytes 1 b.kind ++ leBytes 1 part ++ leBytes 2 b.poison ++ leBytes 6 b.jseq ++ [0, 0]

/-- Whose a unit is, and its number among the owner's units. `before`: the ranges already passed. -/
def unitOwner (u : Nat) : List Region → List Region → Option (SpaceOwner × Nat)
  | _, [] => none
  | before, r :: l =>
    if r.start ≤ u ∧ u < r.start + r.count then
      some (r.owner, ((before.filter fun x => x.owner == r.owner).map (·.count)).sum + (u - r.start))
    else unitOwner u (before ++ [r]) l

/-- The KEY_SLOT of an owner's key (R476). -/
def SpaceOwner.keySlot : SpaceOwner → Nat
  | .ns n => n
  | .index i => 256 + i
  | .tier => 129

/-- The key under which a unit is encrypted, and the LBA of its sector 0: in a namespace the LBA there; elsewhere the unit's own number
counts (log 12). -/
def State.unitCover (s : State) (u : Nat) : Option (Nat × Nat) :=
  match unitOwner u [] s.ftl.space with
  | some (o, k) =>
    (Tab.find s.sec.keys o.keySlot).map fun key =>
      (key, (match o with | .ns _ => k | _ => u) * s.part.unitSectors)
  | none => none

/-- Write a buffered unit, encrypted, to the pages of its slot. -/
def State.programUnit (s : State) (slot : Nat) (b : BufUnit) : State :=
  let ch := s.part.euChannel (euOf slot)
  let cover := s.unitCover b.unit
  ((s.part.slotPages slot).zipIdx).foldl (fun s x =>
    (s.setPage ch x.1 (.written ((b.data.drop (16384 * x.2)).take 16384)
      (s.pageTag ch (pgTarget x.1) false (ownerField b x.2)))).setCover ch x.1 (cover.map fun k => (k.1, k.2 + 4 * x.2))) s

/-- The write pointers of an erase unit's blocks. -/
def State.setWps (s : State) (eu wp : Nat) : State :=
  let ch := s.part.euChannel eu
  (s.part.euBlocks eu).foldl (fun s k => s.modChan ch fun c =>
    c.setBlock k (if 1152 ≤ wp then {} else { state := .openTlc, wp := wp })) s

/-- An erase unit whose last page is programmed is closed (R382). -/
def Ftl.advanceEu (f : Ftl) (eu next prog : Nat) : Ftl :=
  if 1152 ≤ prog then { (f.setEu eu (.closed f.closeSeq)) with closeSeq := f.closeSeq + 1 } else f.setEu eu (.opened next prog)

/-! ## Health (R396, R401-R403) -/

/-- Erase units retired. -/
def Ftl.retiredCount (f : Ftl) : Nat := f.retiredErase + f.retiredProgram + f.retiredSoftware

/-- SPARE_LEFT (R396). -/
def Ftl.spareLeft (f : Ftl) : Int := (eraseUnits : Int) - f.factoryBad - f.retiredCount - 3178915 - 65536 - 256

/-- Available Spare (R401). -/
def Ftl.spare (f : Ftl) : Nat := if f.spareLeft ≤ 0 then 0 else 100 * f.spareLeft.toNat / f.spareStart

/-- PE_AVG in hundredths (R402). -/
def Ftl.peAvg (f : Ftl) : Nat :=
  100 * (f.erases.map fun x : Nat × Nat => x.2).sum / (eraseUnits - f.factoryBad - f.retiredCount)

/-- PE_MAX. -/
def Ftl.peMax (f : Ftl) : Nat := (f.erases.map fun x : Nat × Nat => x.2).foldl max 0

/-- PE_RATE: hundredths of an erase per day over the last 168 hours of power-on time, in hourly buckets; before first power-up
there was no erase (R403). -/
def Ftl.peRate (f : Ftl) : Nat :=
  let h := min 168 f.buckets.length
  if h = 0 then 0 else (f.buckets.headD 0 - f.buckets.getD 168 0) * 24 / h

/-- LIFE_DAYS (R403); none when unknown. -/
def Ftl.lifeDays (f : Ftl) : Option Nat :=
  if 150000 ≤ f.peAvg then some 0
  else if f.buckets.length < 24 ∨ f.peRate = 0 then none
  else some ((150000 - f.peAvg) / f.peRate)

/-- Report what the health record has crossed: SPARE_LOW, WORN (R403). -/
def State.healthCheck (s : State) : State :=
  let s := if s.ftl.spare < 10 ∧ ¬s.ftl.spareLow then (s.modFtl fun f => { f with spareLow := true }).post 0x05 1 [] else s
  if 150000 ≤ s.ftl.peAvg ∧ ¬s.ftl.worn then (s.modFtl fun f => { f with worn := true }).post 0x05 2 [] else s

/-- Enter read-only (R404). -/
def State.enterReadOnly (s : State) : State :=
  if s.ftl.readOnly then s else (s.modFtl fun f => { f with readOnly := true }).post 0x05 3 []

/-! ## Retirement and collection (R392-R396) -/

/-- Retire an erase unit: RETIRE is journalled, and BLOCK_RETIRED recorded. `aux`: 0 erase failure, 1 program failure, 2 RETIRE. -/
def State.retireEu (s : State) (eu aux : Nat) : State :=
  let s := s.modFtl fun f =>
    let f := (f.setEu eu .retired).log 3 1 (eu * 1152) []
    { f with
      retiredErase := f.retiredErase + b2n (aux == 0), retiredProgram := f.retiredProgram + b2n (aux == 1)
      retiredSoftware := f.retiredSoftware + b2n (aux == 2) }
  let ch := s.part.euChannel eu
  let pg := s.part.euBase eu
  (s.report .hd { cls := .blockRetired, source := ch + 128 * pgTarget pg, partner := partnerHd, addr := ch * 2 ^ 32 + pg
                  aux := aux }).healthCheck

/-- Erase an erase unit that holds no valid unit: it joins the free pool, or a failed erase retires it (R393, R396). -/
def State.eraseEu (s : State) (eu : Nat) (ok : Bool) : State :=
  let ch := s.part.euChannel eu
  let s := s.modFtl fun f => { f with erases := Tab.mod 0 f.erases eu (· + 1), buf := f.buf.filter fun b => euOf b.1 != eu }
  if ok then
    let s := (s.part.euBlocks eu).foldl (fun s k => (s.fillBlock ch k false).modChan ch fun c => c.setBlock k {}) s
    (s.modFtl fun f => f.setEu eu .free).healthCheck
  else
    let s := (s.part.euBlocks eu).foldl (fun s k => (s.fillBlock ch k true).modChan ch fun c => c.setBlock k {}) s
    (s.modFtl fun f => { f with eraseFails := f.eraseFails + 1 }).retireEu eu 0

/-- Does a job's page list name a page of an erase unit of its channel? -/
def ChJob.names (p : Part) (j : ChJob) (ch eu : Nat) : Bool :=
  j.on 0 && j.pages.zipIdx.any fun x => !Tab.has j.inline x.2 && euOf (p.slotOf ch (fieldAt x.1 0 4)) == eu

/-- Is an erase unit pinned: named in the page list of a job that has not completed? (R108, R391) -/
def State.pinned (s : State) (eu : Nat) : Bool :=
  (s.pipes.chans.any fun c => c.2.jobs.any fun j => j.names s.part c.1 eu)
    || (s.pipes.scans.any fun x => x.2.todo.any fun j => j.2.names s.part j.1 eu)
    || (s.index.queries.any fun x => x.2.todo.any fun j => j.2.names s.part j.1 eu)

/-- Relocate units into erase units: programmed there, then journalled as GC entries (R393). Each entry takes effect only where the
map still holds the old slot (R394). -/
def relocate : List (Nat × Nat) → List Nat → State → State
  | (u, old) :: l, e :: es, s =>
    match s.unitCopy old with
    | some (d, p) =>
      let kind := match Tab.find s.ftl.buf old with
        | some b => b.kind
        | none => match s.page (s.part.euChannel (euOf old)) ((s.part.slotPages old).headD 0) with
          | .written _ t => tagKind t
          | _ => 0
      let (slots, s) := bufferUnits kind ((s.ftl.groupOf old).getD (s.ftl.jseq + 1)) true [(u, d, p)] [e] s
      let s := s.modFtl fun f =>
        let f := f.log 1 1 u (slots ++ [old])
        { f with gcBytes := f.gcBytes + d.length, map := if f.slot u = old then Tab.set unmapped f.map u (slots.headD unmapped) else f.map }
      relocate l es s
    | none => relocate l es s
  | _, _, s => s

/-- Valid units of an erase unit with their slots. -/
def Ftl.validUnits (f : Ftl) (eu : Nat) : List (Nat × Nat) := f.map.filter fun m => euOf m.2 == eu

/-! ## Page lists (R107, R108) -/

/-- A page-list entry for a page of a unit: codewords from `lo` up to `hi` of the page, LBA of codeword 0. -/
def pageEntry (page lo hi lba : Nat) : Bytes :=
  leBytes 4 page ++ leBytes 1 ((List.range 4).foldl (fun n i => if lo ≤ i ∧ i < hi then n + 2 ^ i else n) 0) ++ [0, 0, 0]
    ++ leBytes 8 lba

/-- The page-list entries of sectors `a` up to `b` of a unit, and the contents of those that no page holds yet, with their POISON
bits: a buffered or an UNMAPPED unit's (log 30). `lba0`: LBA of the unit's sector 0. -/
def State.unitEntries (s : State) (u a b lba0 : Nat) : List (Bytes × Option (Bytes × Nat)) :=
  let slot := s.ftl.slot u
  let inline := slot == unmapped || Tab.has s.ftl.buf slot
  let (data, poison) := (s.unitCopy slot).getD (List.replicate s.part.unitSize 0, 0)
  ((List.range s.part.planes).filter fun i => decide (a < 4 * i + 4) && decide (4 * i < b)).map fun i =>
    (pageEntry (if slot = unmapped then 0 else (s.part.slotPages slot).getD i 0) (a - 4 * i) (min 4 (b - 4 * i)) (lba0 + 4 * i),
      if inline then some ((data.drop (16384 * i)).take 16384, bits poison (4 * i) 4) else none)

end Sys2Proof.Machine
end

