-- ==== Sys2Proof/Machine/MergeOps.lean ====
section
/-! DEFINITION. The merge-select unit (R173-R178): arrivals, feedback, overflow, the selection at close. -/

namespace Sys2Proof.Machine

/-- The sentinel ID (R133). -/
def noId : Nat := 0xFFFFFFFFFFFFFFFF

/-- A field of an instance's descriptor (R173). -/
abbrev mgF (m : Merge) (off k : Nat) : Nat := fieldAt m.desc off k
/-- QUERIES of an instance. -/
def Merge.queries (m : Merge) : Nat := mgF m 2 1
/-- PASS_THROUGH. -/
def Merge.through (m : Merge) : Bool := bit (mgF m 3 1) 0
/-- FEEDBACK. -/
def Merge.feedback (m : Merge) : Bool := bit (mgF m 3 1) 1
/-- K. -/
def Merge.k (m : Merge) : Nat := mgF m 4 2
/-- STREAMS. -/
def Merge.streams (m : Merge) : Nat := mgF m 6 2
/-- JOBS. -/
def Merge.jobs (m : Merge) : Nat := mgF m 8 4
/-- CAND_CAP. -/
def Merge.cap (m : Merge) : Nat := mgF m 0x0C 4
/-- CAND_ADDR. -/
def Merge.candAddr (m : Merge) : Nat := mgF m 0x10 8
/-- JOB_ADDR. -/
def Merge.jobAddr (m : Merge) : Nat := mgF m 0x18 8

/-- The refusal of an instance's descriptor (R173, R11; ranges without a code: log 31). -/
def State.mergeCheck (s : State) (d : Bytes) : Option Nat :=
  let k := fieldAt d 4 2
  if 4 ≤ fieldAt d 3 1 then some St.reservedField
  else if 4095 < fieldAt d 0 2 then some St.unsupported
  else if Tab.has s.sel.merges (fieldAt d 0 2) then some St.busy
  else if fieldAt d 2 1 = 0 ∨ 64 < fieldAt d 2 1 ∨ k = 0 ∨ 4096 < k ∨ 64 < fieldAt d 6 2 ∨ 1048576 < fieldAt d 8 4
    ∨ fieldAt d 0x0C 4 < 4096 ∨ 16777216 < fieldAt d 0x0C 4 then some St.unsupported
  else none

/-- Change an open instance. -/
def State.modMerge (s : State) (i : Nat) (f : Merge → Merge) : State :=
  s.modSel fun x => match Tab.find x.merges i with
    | some m => { x with merges := Tab.put x.merges i (f m) }
    | none => x

/-- Open an instance; thresholds by query as the jobs' initial ones are. -/
def State.openMerge (s : State) (d : Bytes) (tag : Nat) (thr : Tab Nat) (own : Nat := 0) : State :=
  let m : Merge := { desc := d, tag := tag, own := own, thresholds := thr, maskClosed := fieldAt d 6 2 == 0 }
  s.modSel fun x => { x with merges := Tab.put x.merges (fieldAt d 0 2) m }

/-- A merge entry of 32 bytes (R174). -/
def mergeEntryOf (b : Bytes) : MergeEntry :=
  let f := fieldAt b 0x0D 1
  { id := fieldAt b 0 8, key := fieldAt b 8 4, query := fieldAt b 0x0C 1, mask := bit f 0, side := bit f 1, poison := bit f 2
    close := bit f 3, source := fieldAt b 0x0E 2, seq := fieldAt b 0x10 8, list := fieldAt b 0x18 4 % 2 ^ 22 }

/-- A candidate record as a merge entry: SEQ, LIST and QUERY come from the job table (R174). -/
def State.entryOfCandidate (s : State) (m : Merge) (b : Bytes) (bad : Bool) : MergeEntry :=
  let rf := fieldAt b 0x0D 1
  let job := fieldAt b 0x0E 2 + 65536 * (rf / 16)
  let a := m.jobAddr + 80 * job
  let q := fieldAt b 0x0C 1
  let malformed := decide (m.jobs ≤ job) || decide (63 < q)
  { id := fieldAt b 0 8, key := fieldAt b 8 4
    query := if malformed then q else s.natAt (a + 16 + q) 1
    poison := bit rf 0 || bad || malformed
    source := if malformed then 0 else job, span := m.own, seq := s.natAt a 8, list := s.natAt (a + 8) 4 % 2 ^ 22 }

/-- Does the first entry win over the second, of the same ID and query? (R175) Of entries from different modules, the higher key
wins, then the lower span number (R414). -/
def MergeEntry.beats (a b : MergeEntry) : Bool :=
  if a.span ≠ b.span then decide (b.key < a.key) || (a.key == b.key && decide (a.span < b.span))
  else decide (b.seq < a.seq) || (a.seq == b.seq && decide (b.key < a.key))

/-- Do two entries meet? -/
def MergeEntry.meets (a b : MergeEntry) : Bool := a.id == b.id && a.query == b.query

/-- Keys of a query's non-MASK entries. -/
def Merge.keys (m : Merge) (q : Nat) : List Nat := (m.held.filter fun e => e.query == q && !e.mask).map (·.key)

/-- The threshold of a query. -/
def Merge.threshold (m : Merge) (q : Nat) : Nat := Tab.get 0 m.thresholds q

/-- Raise a query's threshold to the key at the K-th place, where that is higher (R176). -/
def Merge.raise (m : Merge) (q : Nat) : Merge :=
  let ks := m.keys q
  if ks.length < m.k then m
  else
    let t := (topk m.k (ks.map some)).boundary
    if m.threshold q < t then { m with thresholds := Tab.set 0 m.thresholds q t } else m

/-- R176: feedback when a query's entries have grown by a further K. -/
def Merge.feed (m : Merge) (q : Nat) : Merge :=
  let n := (m.keys q).length
  if m.feedback && m.maskClosed && decide (0 < m.k) && decide (Tab.get 0 m.fed q < n / m.k) then
    { (m.raise q) with fed := Tab.set 0 m.fed q (n / m.k) }
  else m

/-- R176: every query's threshold is raised and the entries below go. -/
def Merge.overflow (m : Merge) : Merge :=
  let m := (List.range m.queries).foldl Merge.raise m
  { m with held := m.held.filter fun e => e.mask || decide (m.threshold e.query ≤ e.key) }

/-- What an arrival does to the tallies: displaced by a newer SEQ, lost to an equal SEQ, overflow steps. -/
structure MergeTally where
  masked : Nat := 0
  dup : Nat := 0
  ovf : Nat := 0
deriving DecidableEq, Repr

/-- Add up. -/
def MergeTally.add (a b : MergeTally) : MergeTally := ⟨a.masked + b.masked, a.dup + b.dup, a.ovf + b.ovf⟩

/-- R176: the overflow step, once the buffer has reached CAND_CAP and the mask set is closed. -/
def Merge.atCap (m : Merge) : Merge × MergeTally :=
  if m.maskClosed && decide (m.cap ≤ m.held.length) then (m.overflow, { ovf := 1 }) else (m, {})

/-- Feedback and overflow after a query's entries have changed (R176). -/
def Merge.after (m : Merge) (q : Nat) : Merge × MergeTally := (m.feed q).atCap

/-- Keep an entry that has passed the threshold (R175); none where it must wait for room. -/
def Merge.keep (m : Merge) (e : MergeEntry) : Option (Merge × MergeTally) :=
  match m.held.find? (·.meets e) with
  | some h =>
    let t : MergeTally := if h.seq = e.seq ∨ h.span ≠ e.span then { dup := 1 } else { masked := 1 }
    if e.beats h then
      let (m, u) := { m with held := m.held.map fun x => if x.meets e then e else x : Merge }.after e.query
      some (m, t.add u)
    else some (m, t)
  | none => if m.held.length < m.cap then some ({ m with held := m.held ++ [e] : Merge }.after e.query) else none

/-- R175: an entry is handled; none where it must wait. -/
def Merge.enter (m : Merge) (e : MergeEntry) : Option (Merge × MergeTally) :=
  if e.poison || decide (m.queries ≤ e.query) then some ({ m with forwarded := m.forwarded ++ [{ e with poison := true }] }, {})
  else
    let low := decide (e.key < m.threshold e.query)
    if low && !e.mask && !e.scan then some (m, {})
    else m.keep (if low then { e with mask := true } else e)

/-- A stream has ended. The end of the side-list scan closes the mask set (R174); so does the end of the last stream expected, after
which no mask can come (DEDUCED, log 103). -/
def Merge.streamEnd (m : Merge) (scan : Bool) : Merge × MergeTally :=
  let n := m.closes + 1
  let shut := m.maskClosed || scan || decide (m.streams ≤ n)
  let m1 := { m with closes := n, maskClosed := shut }
  if shut && !m.maskClosed then ((List.range m1.queries).foldl Merge.feed m1).atCap else (m1, {})

/-- An entry with its CLOSE; one that only closes its stream has the sentinel ID. -/
def Merge.take (m : Merge) (e : MergeEntry) : Option (Merge × MergeTally) :=
  (if e.close && e.id == noId then some (m, {}) else m.enter { e with close := false }).map fun x =>
    if e.close then
      let (m, t) := x.1.streamEnd e.scan
      (m, x.2.add t)
    else x

/-- Do two entries come by the same stream? -/
def MergeEntry.sameStream (a b : MergeEntry) : Bool := a.scan == b.scan && a.source == b.source && a.span == b.span

/-- An entry is offered: it waits behind others of its stream, or for room (R176). -/
def Merge.offer (m : Merge) (e : MergeEntry) : Merge × MergeTally :=
  if m.waiting.any e.sameStream then ({ m with waiting := m.waiting ++ [e] }, {})
  else (m.take e).getD ({ m with waiting := m.waiting ++ [e] }, {})

/-- Entries that waited come again, each stream in its order. -/
def againGo : List MergeEntry → Merge → MergeTally → Merge × MergeTally
  | [], m, t => (m, t)
  | e :: l, m, t =>
    let (m, u) := m.offer e
    againGo l m (t.add u)

/-- They come again for as long as one of them gets in. -/
def settleGo : Nat → Merge → MergeTally → Merge × MergeTally
  | 0, m, t => (m, t)
  | n + 1, m, t =>
    let (m', t') := againGo m.waiting { m with waiting := [] } t
    if m'.waiting.length < m.waiting.length then settleGo n m' t' else (m', t')

/-- R175, R176: an entry arrives by a stream. -/
def Merge.arrive (m : Merge) (e : MergeEntry) : Merge × MergeTally :=
  let (m, t) := m.offer e
  settleGo (m.waiting.length + 1) m t

/-- Count what arrivals did. -/
def State.tally (s : State) (t : MergeTally) : State :=
  s.modSel fun x => { x with masked := x.masked + t.masked, duplicates := x.duplicates + t.dup, overflows := x.overflows + t.ovf }

/-- A 32-byte merge entry (R174). -/
def mergeEntryBytes (e : MergeEntry) : Bytes :=
  leBytes 8 e.id ++ leBytes 4 e.key ++ leBytes 1 e.query
    ++ leBytes 1 (b2n e.mask + 2 * b2n e.side + 4 * b2n e.poison + 8 * b2n e.close) ++ leBytes 2 e.source ++ leBytes 8 e.seq
    ++ leBytes 4 e.list ++ leBytes 4 0

/-- The places of the candidate buffer that differ between two states of an instance: their addresses and the entries (R173). -/
def Merge.bufferWrites (old m : Merge) : List (Nat × Bytes) :=
  (m.held.zipIdx.filter fun x => old.held[x.2]? != some x.1).map fun x => (m.candAddr + 32 * x.2, mergeEntryBytes x.1)

/-- An instance becomes another: its entries stand in the candidate buffer at CAND_ADDR in HBM (R173), in the order in which they
came, without gaps (DESIGN CHOICE, log 31). -/
def State.mergeTo (s : State) (i : Nat) (old : Merge) (r : Merge × MergeTally) : State :=
  let s := (s.modMerge i fun _ => r.1).tally r.2
  (old.bufferWrites r.1).foldl (fun s w => if s.accessSt .keeper true w.1 32 = St.ok then s.store w.1 w.2 else s) s

/-- An entry arrives by a stream at an instance that merges. -/
def State.mergeArrive (s : State) (i : Nat) (e : MergeEntry) : State :=
  match Tab.find s.sel.merges i with
  | some m => s.mergeTo i m (m.arrive e)
  | none => s

/-- A candidate at the head of a channel's crossing queue: it stays there while it would have to wait (R176). -/
def Merge.fromChannel (m : Merge) (e : MergeEntry) : Option (Merge × MergeTally) :=
  (m.take e).map fun x => settleGo (x.1.waiting.length + 1) x.1 x.2

/-- Order of the output: descending key, lower ID first (R177). -/
def insertEntry (x : MergeEntry) : List MergeEntry → List MergeEntry
  | [] => [x]
  | y :: l => if y.key < x.key ∨ (y.key = x.key ∧ x.id < y.id) then x :: y :: l else y :: insertEntry x l

/-- The best K of a query, in order, and TIE_COUNT (R164, R177). -/
def Merge.best (m : Merge) (q : Nat) : List MergeEntry × Nat :=
  let es := m.held.filter fun e => e.query == q && !e.mask
  let es := es.foldr insertEntry []
  (es.take m.k, (topk m.k (es.map fun e => some e.key)).tie)

/-- The result of a query of an instance: COUNT, TIE_COUNT and SHORT in 12 bytes (the model's layout, log 31), then K entries, the
unused ones the sentinel (R161, R164, R177). -/
def Merge.result (m : Merge) (q : Nat) : Bytes :=
  let (es, tie) := m.best q
  leBytes 4 es.length ++ leBytes 4 tie ++ leBytes 4 (b2n (decide (es.length < m.k)))
    ++ (es.map mergeEntryBytes).flatten ++ (List.replicate (m.k - es.length) (mergeEntryBytes { id := noId, query := q })).flatten

/-- Have all jobs and streams ended, and has everything on its way arrived? (R177) -/
def State.mergeEnded (s : State) (i : Nat) (m : Merge) : Bool :=
  decide (m.jobs ≤ m.jobsDone) && decide (m.streams ≤ m.closes) && m.waiting == []
    && s.pipes.chans.all fun p => p.2.sent.all fun x => x.1 != i

/-- Close an instance. -/
def State.dropMerge (s : State) (i : Nat) : State := s.modSel fun x => { x with merges := Tab.del x.merges i }

/-- A channel job of an instance has completed. -/
def State.mergeJobDone (s : State) (i : Nat) : State := s.modMerge i fun m => { m with jobsDone := m.jobsDone + 1 }

/-- Does an arrival wait: an entry of a stream, or the candidate at the head of a crossing queue? (R176) -/
def State.mergeWaits (s : State) : Bool :=
  (s.sel.merges.any fun m => m.2.waiting != []) || s.pipes.chans.any fun p => match p.2.sent with
    | (i, r, bad) :: _ => decide (0 < p.2.readable) && (match Tab.find s.sel.merges i with
      | some m => !m.through && (m.take (s.entryOfCandidate m r bad)).isNone
      | none => false)
    | [] => false

/-- MS_STATUS and MS_COUNTS. -/
def msRegRead (s : State) (off : Nat) : Nat :=
  let x := s.sel
  match off with
  | 0x0 => x.merges.length + 2 ^ 13 * b2n s.mergeWaits
  | 0x8 => min (x.duplicates / 1000) (2 ^ 21 - 1) + 2 ^ 21 * min (x.masked / 1000) (2 ^ 21 - 1)
      + 2 ^ 42 * min x.overflows (2 ^ 22 - 1)
  | _ => 0

end Sys2Proof.Machine
end

