-- ==== Sys2Proof/Machine/Factor.lean ====
section
/-! DEFINITION. The runtime library's factor routine (spec/14 R339-R341) and the rotation of a PQ index that is formed with it
(spec/06 R156). Matrices are lists of rows of FP32 values. Sums of products are FP32 operations in an order that the spec fixes and does not
state: they are uninterpreted functions of Config (log 93). -/

namespace Sys2Proof.Machine

/-- An FP32 matrix by rows. -/
abbrev Mat := List (List Fv)

/-- An element of a matrix; 0 outside. -/
def Mat.at (m : Mat) (i j : Nat) : Fv := (m.getD i []).getD j (.fin false 0 0)
/-- Transpose of a matrix of `n` columns. -/
def Mat.transpose (n : Nat) (m : Mat) : Mat := (List.range n).map fun j => m.map fun r => r.getD j (.fin false 0 0)

/-- An FP32 sum of products in the routine's order. -/
def dotF32 (u v : List Fv) : Fv := f32 (Config.fp32Dot ((u.zip v).map fun p => (toF32 p.1, toF32 p.2)))
/-- An FP32 value less a sum of products in the routine's order; with no product it is the value. -/
def lessDot (a : Fv) (u v : List Fv) : Fv :=
  if u = [] then a else f32 (Config.fp32Less (toF32 a) ((u.zip v).map fun p => (toF32 p.1, toF32 p.2)))

/-- The product of a matrix with the transpose of another. -/
def Mat.mulT (a b : Mat) : Mat := a.map fun r => b.map fun c => dotF32 r c

/-! ## factor (R339, R340) -/

/-- Is a pivot accepted: 0 < d < +∞? -/
def pivotOk : Fv → Bool
  | .fin false m _ => m != 0
  | _ => false

/-- Row `i` of the columns that are final; column `k` holds the rows from `k` on. -/
def rowOf (cols : List (List Fv)) (i : Nat) : List Fv := cols.zipIdx.map fun c => c.1.getD (i - c.2) (.fin false 0 0)

/-- The columns of the Cholesky factor from those that are final on, and the index of the first pivot that fails. `a`: the lower triangle;
`k`: columns left. -/
def factorGo (a : Nat → Nat → Fv) (n : Nat) : Nat → List (List Fv) → List (List Fv) × Option Nat
  | 0, cols => (cols, none)
  | k + 1, cols =>
    let j := cols.length
    let d := lessDot (a j j) (rowOf cols j) (rowOf cols j)
    if pivotOk d then
      let p := f32Sqrt d
      let below := (List.range (n - j - 1)).map fun m =>
        f32Div (lessDot (a (j + 1 + m) j) (rowOf cols (j + 1 + m)) (rowOf cols j)) p
      factorGo a n k (cols ++ [p :: below])
    else (cols, some j)

/-- factor: the final columns and the failing pivot. It reads the lower triangle only. -/
def factor (a : Nat → Nat → Fv) (n : Nat) : List (List Fv) × Option Nat := factorGo a n n []

/-! ## factor_retry (R341) -/

/-- What a run of either form leaves: the final columns of the last attempt, its failing pivot, STATUS, ATTEMPTS, the FP32 shift. -/
structure FactorEnd where
  cols : List (List Fv) := []
  pivot : Option Nat := none
  status : Nat := 0
  attempts : Nat := 1
  lambda : Nat := 0
deriving DecidableEq, Repr

/-- FP64 sum of the original diagonal, in increasing index. -/
def traceOf (a : Nat → Nat → Fv) (n : Nat) : Fv := (List.range n).foldl (fun t i => f64Add t (a i i)) (.fin false 0 0)

/-- The first shift: 1e-6 × trace ÷ n in FP64. -/
def firstShift (trace : Fv) (n : Nat) : Fv :=
  let e := Fmt.fp64.round (Fv.divSticky 53 (.fin false 1 0) (.fin false 1000000 0))
  Fmt.fp64.round (Fv.divSticky 53 (f64Mul e trace) (.fin false n 0))

/-- The matrix with a shift, rounded to FP32, added to each diagonal element. -/
def shifted (a : Nat → Nat → Fv) (l : Fv) (i j : Nat) : Fv := if i = j then f32Add (a i i) (Fmt.fp32.round l) else a i j

/-- Attempts with a shift: `k` of them are left after this one, each with twice the shift. -/
def retryGo (singular : Nat) (a : Nat → Nat → Fv) (n : Nat) (l : Fv) (attempt : Nat) : Nat → FactorEnd
  | 0 =>
    let (c, p) := factor (shifted a l) n
    ⟨c, p, if p.isSome then singular else 0, attempt, toF32 (Fmt.fp32.round l)⟩
  | k + 1 =>
    let (c, p) := factor (shifted a l) n
    if p.isSome then retryGo singular a n (f64Add l l) (attempt + 1) k
    else ⟨c, none, 0, attempt, toF32 (Fmt.fp32.round l)⟩

/-- factor_retry: at most ten attempts. `singular`: the code of ST_SINGULAR. -/
def factorRetry (singular : Nat) (a : Nat → Nat → Fv) (n : Nat) : FactorEnd :=
  let (c, p) := factor a n
  if p.isNone then ⟨c, none, 0, 1, 0⟩
  else if pivotOk (traceOf a n) then retryGo singular a n (firstShift (traceOf a n) n) 2 8
  else ⟨c, p, singular, 1, 0⟩

/-- The 16-byte result record. -/
def FactorEnd.record (r : FactorEnd) : Bytes :=
  leBytes 4 (r.pivot.getD 0xFFFFFFFF) ++ leBytes 2 r.status ++ leBytes 1 r.attempts ++ [0] ++ leBytes 4 r.lambda ++ leBytes 4 0

/-! ## The rotation (R156) -/

/-- Row `r` of a · inverse(transpose(l)): the triangular solve of q · transpose(l) = a. `k`: columns left. -/
def solveRow (cols : List (List Fv)) (r : List Fv) : Nat → List Fv → List Fv
  | 0, q => q
  | k + 1, q =>
    let j := q.length
    let row := (rowOf cols j).take j
    solveRow cols r k (q ++ [f32Div (lessDot (r.getD j (.fin false 0 0)) q row) ((cols.getD j []).getD 0 (.fin false 1 0))])

/-- Make a matrix of `n` columns orthogonal; none where its factor cannot be formed. -/
def orthogonal (singular n : Nat) (a : Mat) : Option Mat :=
  let t := a.transpose n
  let g := t.mulT t
  let r := factorRetry singular g.at n
  if r.status ≠ 0 then none else some (a.map fun row => solveRow r.cols row n [])

end Sys2Proof.Machine
end

