-- ==== Sys2Proof/Machine/PqOps.lean ====
section
/-! DEFINITION. Scores of the coarse step and the training of an index's centroids (spec/06 R138, R155), and the rotation, code
centroids and codes of a PQ index (R132, R155 step 4, R156). -/

namespace Sys2Proof.Machine

/-! ## Scores on the MXUs (R138, R155, R181) -/

/-- The score of a BF16 vector against a BF16 centroid: each group of 32 is summed exactly, added to the FP32 accumulator and rounded
once (R181). -/
def mxuScore (metric dims : Nat) (v c : Bytes) : Fv :=
  let t := (List.range ((dims + 31) / 32)).foldl (fun acc g => Fmt.fp32.round (acc.add (groupExact metric 1 v c g))) (.fin false 0 0)
  if metric = 1 then t.neg else t

/-- Rank of a BF16 vector against a centroid: NaN lowest, then by key. -/
def rankOf (metric dims : Nat) (v c : Bytes) : Nat :=
  match mxuScore metric dims v c with
  | .nan => 0
  | x => keyOfF32 (toF32 x) + 1

/-- Values converted to BF16, round to nearest even. -/
def bf16Bytes (l : List Fv) : Bytes := (l.map fun x => leBytes 2 (Fmt.bf16.encode (Fmt.bf16.round x))).flatten
/-- The values of a vector in an element format. -/
def valuesOf (elem dims : Nat) (v : Bytes) : List Fv := (List.range dims).map fun i => elemAt (elemFormat elem) v i
/-- A vector converted to BF16 (R138). -/
def toBf16 (elem dims : Nat) (v : Bytes) : Bytes := bf16Bytes (valuesOf elem dims v)

/-! ## k-means (R155) -/

/-- The nearest centroid of a BF16 vector and its rank; lower list first on ties. -/
def nearest (metric dims : Nat) (cs : List Bytes) (v : Bytes) : Nat × Nat :=
  (cs.zipIdx.foldl (fun (b : Nat × Nat) c =>
    let r := rankOf metric dims v c.1 + 1
    if b.2 < r then (c.2, r) else b) (0, 0))

/-- The mean of vectors, formed in FP32 and stored in BF16 (R155 step 2). -/
def meanOf (dims : Nat) (vs : List Bytes) : Bytes :=
  bf16Bytes ((List.range dims).map fun i => f32 (Config.fp32Mean (vs.map fun v => toF32 (elemAt 9 v i))))

/-- One Lloyd iteration: means, then reseeding of the empty lists by the farthest vectors not yet taken. -/
def lloyd (metric dims : Nat) (vs : List Bytes) (cs : List Bytes) : List Bytes :=
  let own := vs.map fun v => nearest metric dims cs v
  let means := cs.zipIdx.map fun c =>
    let mine := ((vs.zip own).filter fun x => x.2.1 == c.2).map (·.1)
    if mine = [] then none else some (meanOf dims mine)
  let far := (sortKeys ((own.zipIdx).map fun x => (x.2, 2 ^ 40 - x.1.2))).map (·.1)
  let (out, _) := (means.zip cs).foldl (fun (a : List Bytes × List Nat) m =>
    match m.1 with
    | some b => (a.1 ++ [b], a.2)
    | none => match a.2 with
      | n :: rest => (a.1 ++ [vs.getD n m.2], rest)
      | [] => (a.1 ++ [m.2], [])) ([], far)
  out

/-- The iterations. -/
def lloyds (metric dims : Nat) (vs : List Bytes) : Nat → List Bytes → List Bytes
  | 0, cs => cs
  | n + 1, cs => lloyds metric dims vs n (lloyd metric dims vs cs)

/-! ## PQ codes (R132, R156) -/

/-- A PQ index's form: metric, dimensions, subspaces. -/
structure PqForm where
  metric : Nat
  dims : Nat
  m : Nat
deriving DecidableEq, Repr

/-- Dimensions of a subspace. -/
def PqForm.width (f : PqForm) : Nat := f.dims / max 1 f.m

/-- The rotation as its bytes hold it: FP32, by rows (R134). -/
def rotationMat (n : Nat) (b : Bytes) : Mat :=
  (List.range n).map fun i => (List.range n).map fun j => f32 (fieldAt b (4 * (i * n + j)) 4)
/-- The bytes of a rotation. -/
def rotationBytes (q : Mat) : Bytes := ((q.map fun r => (r.map fun x => leBytes 4 (toF32 x)).flatten).flatten)

/-- A row vector times the rotation. -/
def rotate (n : Nat) (q : Mat) (v : List Fv) : List Fv := (q.transpose n).map (dotF32 v)

/-- Subspace `j` of a rotated vector, in BF16. -/
def PqForm.part (f : PqForm) (v : List Fv) (j : Nat) : Bytes := bf16Bytes ((v.drop (j * f.width)).take f.width)

/-- The 256 code centroids of a subspace, BF16, as the codebooks hold them (R134). -/
def PqForm.codes (f : PqForm) (books : Bytes) (j : Nat) : List Bytes :=
  (List.range 256).map fun c => (books.drop ((j * 256 + c) * f.width * 2)).take (2 * f.width)

/-- The code of a rotated vector: the nearest code centroid of each subspace, scored as R155 scores every distance. -/
def PqForm.encode (f : PqForm) (books : Bytes) (v : List Fv) : Bytes :=
  (List.range f.m).map fun j => byteOf (nearest f.metric f.width (f.codes books j) (f.part v j)).1

/-- The rotated vector a code stands for. -/
def PqForm.decode (f : PqForm) (books code : Bytes) : List Fv :=
  ((List.range f.m).map fun j =>
    let c := (f.codes books j).getD (code.getD j 0).toNat []
    (List.range f.width).map fun i => elemAt 9 c i).flatten

/-- The code centroids trained on rotated vectors (R155 step 4). -/
def PqForm.train (f : PqForm) (seed iters : Nat) (vs : List (List Fv)) : Bytes :=
  ((List.range f.m).map fun j =>
    let subs := vs.map fun v => f.part v j
    let first := (List.range 256).map fun c => subs.getD (Config.codeStart seed j c % max 1 subs.length) []
    (lloyds f.metric f.width subs iters first).flatten).flatten

/-- The refinements of the rotation (R156); none where the factor routine gives up. -/
def PqForm.refine (f : PqForm) (singular seed iters : Nat) (x : Mat) : Nat → Mat → Option Mat
  | 0, q => some q
  | k + 1, q =>
    let y := x.map (rotate f.dims q)
    let books := f.train seed iters y
    let xr : Mat := y.map fun v => f.decode books (f.encode books v)
    match orthogonal singular f.dims ((x.transpose f.dims).mulT (xr.transpose f.dims)) with
    | some q => f.refine singular seed iters x k q
    | none => none

/-- Rotation and codebooks of a PQ index (R155 step 4, R156); none where a matrix is singular. -/
def PqForm.form (f : PqForm) (singular seed iters rotIters : Nat) (x : Mat) : Option (Bytes × Bytes) :=
  let a : Mat := (List.range f.dims).map fun i => (List.range f.dims).map fun j => f32 (Config.normal seed (i * f.dims + j))
  match (orthogonal singular f.dims a).bind (f.refine singular seed iters x rotIters) with
  | some q => some (rotationBytes q, f.train seed iters (x.map (rotate f.dims q)))
  | none => none

/-- The PQ tables of a query (R123): for each subspace and code the term of the metric, in FP16. -/
def PqForm.tables (f : PqForm) (rotation books : Bytes) (v : List Fv) : Bytes :=
  let y := rotate f.dims (rotationMat f.dims rotation) v
  ((List.range f.m).map fun j =>
    let q := (y.drop (j * f.width)).take f.width
    ((f.codes books j).map fun c =>
      let k := (List.range f.width).map fun i => elemAt 9 c i
      let d := (q.zip k).map fun p => f32Sub p.1 p.2
      leBytes 2 (Fmt.fp16.encode (Fmt.fp16.round (if f.metric = 1 then dotF32 d d else dotF32 q k)))).flatten).flatten

end Sys2Proof.Machine
end

