-- ==== Sys2Proof/Machine/IndexOps.lean ====
section
/-! DEFINITION. The vector index (spec/06): formats, coarse step, commits, what a query sees, folds, training. -/

namespace Sys2Proof.Machine

/-! ## An index and its form (R135, R136) -/

/-- A field of INDEX_CREATE. -/
abbrev ixF (x : Index) (off k : Nat) : Nat := fieldAt x.form off k
/-- ELEM. -/
def Index.elem (x : Index) : Nat := ixF x 1 1
/-- METRIC: 0 DOT, 1 L2. -/
def Index.metric (x : Index) : Nat := ixF x 2 1
/-- FULL_STORE. -/
def Index.fullStore (x : Index) : Bool := bit (ixF x 3 1) 0
/-- DIMS. -/
def Index.dims (x : Index) : Nat := ixF x 4 2
/-- M. -/
def Index.m (x : Index) : Nat := ixF x 6 2
/-- INPUT_ELEM. -/
def Index.inputElem (x : Index) : Nat := ixF x 8 1
/-- FULL_ELEM. -/
def Index.fullElem (x : Index) : Nat := ixF x 9 1
/-- DEGREE. -/
def Index.degree (x : Index) : Nat := ixF x 0xA 1
/-- CT_LISTS. -/
def Index.ctLists (x : Index) : Bool := bit (ixF x 3 1) 1
/-- LISTS. -/
def Index.lists (x : Index) : Nat := ixF x 0xC 4
/-- SIDE_CAP. -/
def Index.sideCap (x : Index) : Nat := ixF x 0x10 4
/-- Is it a PQ index? -/
def Index.pq (x : Index) : Bool := x.elem == 5
/-- Bytes of a vector in an element format. -/
def vecSize (elem dims : Nat) : Nat := dims * (elemBits (elemFormat elem) / 8)
/-- V: bytes of a stored vector. -/
def Index.v (x : Index) : Nat := if x.pq then x.m else vecSize x.elem x.dims
/-- D: bytes of an inserted vector. -/
def Index.d (x : Index) : Nat := vecSize x.inputElem x.dims
/-- F: bytes of a full vector. -/
def Index.f (x : Index) : Nat := if x.fullStore then vecSize x.fullElem x.dims else 0
/-- REC_SIZE. -/
def Index.recSize (x : Index) : Nat := (32 + x.v + 15) / 16 * 16
/-- Bytes of a side entry of an insert. -/
def Index.sideSize (x : Index) : Nat := (0x30 + x.v + x.f + 63) / 64 * 64
/-- Bytes of an insert entry as the host sends it. -/
def Index.insertSize (x : Index) : Nat := (0x18 + x.d + 7) / 8 * 8
/-- Bytes of a query as the host sends it. -/
def Index.querySize (x : Index) : Nat := (x.d + 63) / 64 * 64

/-- An index by number. -/
def State.ix (s : State) (i : Nat) : Option Index := Tab.find s.index.all i
/-- Change an index. -/
def State.modIx (s : State) (i : Nat) (f : Index → Index) : State :=
  s.modIndex fun x => match Tab.find x.all i with
    | some y => { x with all := Tab.put x.all i (f y) }
    | none => x

/-! ## Vectors and scores (R132, R138) -/

/-- The form of a PQ index. -/
def Index.pqForm (x : Index) : PqForm := ⟨x.metric, x.dims, x.m⟩

/-- The stored form of an inserted vector (R132, R146): a PQ index rotates and encodes it. -/
def Index.store (x : Index) (t : Trained) (v : Bytes) : Bytes :=
  if x.pq then x.pqForm.encode t.books (rotate x.dims (rotationMat x.dims t.rotation) (valuesOf x.inputElem x.dims (v.take x.d)))
  else v.take x.v

/-- The PQ tables of a query (R123, R132). -/
def Index.tables (x : Index) (t : Trained) (q : Bytes) : Bytes :=
  x.pqForm.tables t.rotation t.books (valuesOf x.inputElem x.dims q)

/-- A vector in FULL_ELEM (R146). -/
def Index.full (x : Index) (v : Bytes) : Bytes :=
  if !x.fullStore then []
  else ((List.range x.dims).map fun i =>
    let f := if x.fullElem = 0 then Fmt.fp16 else Fmt.bf16
    leBytes 2 (f.encode (f.round (elemAt (elemFormat x.inputElem) v i)))).flatten

/-- LIVE centroids: list numbers. -/
def Version.live (ver : Version) (n : Nat) : List Nat := (List.range n).filter fun l => !Tab.get false ver.dead l

/-- The best `n` of ranked lists, lower number first among equals. -/
def bestLists (n : Nat) (l : List (Nat × Nat)) : List (Nat × Nat) := (sortKeys l).take n

/-- One step of the walk of R139: the beam, which of it is expanded, what has been seen, stale edges. -/
structure Walk where
  beam : List (Nat × Nat)
  done : List Nat := []
  seen : List Nat := []
  stale : Nat := 0
deriving DecidableEq, Repr

/-- An edge of the expanded centroid. -/
def Walk.edge (ver : Version) (rank : Nat → Nat) (w : Nat) (k : Walk) (e : Nat) : Walk :=
  if Tab.get false ver.dead e then { k with stale := k.stale + 1 }
  else if k.seen.contains e then k
  else { k with seen := e :: k.seen, beam := bestLists w ((e, rank e) :: k.beam) }

/-- The walk: expand the best unexpanded member until none is left. -/
def walkGo (ver : Version) (rank : Nat → Nat) (w : Nat) : Nat → Walk → Walk
  | 0, k => k
  | fuel + 1, k =>
    match k.beam.find? fun b => !k.done.contains b.1 with
    | none => k
    | some b =>
      walkGo ver rank w fuel ((Tab.get [] ver.edges b.1).foldl (Walk.edge ver rank w) { k with done := b.1 :: k.done })

/-- The coarse step: the lists chosen, best first, and the stale edges met (R138, R139). -/
def Index.coarse (x : Index) (t : Trained) (ver : Version) (nprobe ef : Nat) (q : Bytes) : List Nat × Nat :=
  let b := toBf16 x.inputElem x.dims q
  let rank (l : Nat) : Nat := rankOf x.metric x.dims b (t.centroids.getD l [])
  if x.degree = 0 then ((bestLists nprobe ((ver.live x.lists).map fun l => (l, rank l))).map (·.1), 0)
  else
    let k := walkGo ver rank (max nprobe ef) (x.lists + 1) { beam := [(t.entry, rank t.entry)], seen := [t.entry] }
    ((bestLists nprobe k.beam).map (·.1), k.stale)

/-- The list an inserted vector is assigned to (R146): nprobe 1. -/
def Index.assign (x : Index) (t : Trained) (v : Bytes) : Nat := ((x.coarse t x.cur 1 0 v).1).headD 0

/-! ## The side list and commits (R146, R147) -/

/-- May an automatic fold start? -/
def Index.wantsFold (x : Index) : Bool :=
  x.fold.isNone && !x.foldStuck && decide (ixF x 0xB 1 * x.sideCap ≤ 100 * x.side.length)
    && x.side.any fun e => decide (x.cur.seq < e.seq)

/-- Start an automatic fold where R147 says so. -/
def State.autoFold (s : State) (i : Nat) : State :=
  match s.ix i with
  | some x => if x.wantsFold && !s.ftl.readOnly then s.modIx i fun x => { x with fold := some { to_ := x.lastCommit } } else s
  | none => s

/-- Number entries with the commit's run of sequences. -/
def numberEntries : Nat → List SideEntry → List SideEntry
  | _, [] => []
  | n, e :: l => { e with seq := n + 1 } :: numberEntries (n + 1) l

/-- INDEX_COMMIT: the commit point takes a run of sequences in one step. -/
def State.commitEntries (s : State) (i : Nat) (l : List SideEntry) : State :=
  (s.modIx i fun x => { x with side := x.side ++ numberEntries x.lastCommit l, lastCommit := x.lastCommit + l.length }).autoFold i

/-- Records in the main lists. -/
def Index.mainVectors (x : Index) : Nat := (x.cur.lists.map fun l => (l.2.map fun e => e.recs.length).sum).sum

/-- May `n` entries join the index within its 2^36 vectors (R22, R131)? Main records and side entries count. -/
def Index.vectorRoom (x : Index) (n : Nat) : Bool := decide (x.mainVectors + x.side.length + n ≤ 2 ^ 36)

/-- Is there room for `n` entries in the side list? -/
def Index.room (x : Index) (n : Nat) : Bool := decide (x.side.length + n ≤ x.sideCap)

/-- The list that holds an ID now: its newest side entry's, or the main list's (log 32). -/
def Index.listOf (x : Index) (id : Nat) : Nat :=
  match x.side.reverse.find? (fun e => e.id == id) with
  | some e => e.list
  | none => match x.cur.lists.find? (fun l => l.2.any fun e => e.recs.any fun r => fieldAt r 0 8 == id) with
    | some l => l.1
    | none => 0

/-! ## Ingest (R154) -/

/-- Bytes of a window. -/
def Binding.window (b : Binding) : Nat := 2 ^ b.windowLog2

/-- The ID of a window. -/
def windowId (nsid pos : Nat) : Nat := nsid * 2 ^ 56 + pos

/-- Mark a window pending; it is not marked twice. -/
def markWindow (nsid pos : Nat) (l : List Window) : List Window :=
  if l.any fun w => w.nsid == nsid && w.pos == pos then l else l ++ [{ nsid := nsid, pos := pos }]

/-- Windows that a byte range touches: their positions. -/
def windowsOf (w lo hi : Nat) : List Nat :=
  if hi ≤ lo then [] else (List.range ((hi - 1) / w - lo / w + 1)).map fun k => (lo / w + k) * w

/-- A Write or Write Zeroes to a namespace has completed: the windows it touched are pending. -/
def State.markRange (s : State) (nsid lo hi : Nat) : State :=
  match Tab.find s.index.bindings nsid with
  | some b => s.modIndex fun x => { x with pending := (windowsOf b.window lo hi).foldl (fun l p => markWindow nsid p l) x.pending }
  | none => s

/-- Does a byte range cover a window of a namespace of `size` bytes whole? -/
def Binding.covered (b : Binding) (size lo hi p : Nat) : Bool := decide (lo ≤ p) && (decide (p + b.window ≤ hi) || decide (size ≤ hi))

/-- Bytes of a namespace. -/
def State.nsBytes (s : State) (nsid : Nat) : Nat := match Tab.find s.host.ns nsid with
  | some k => k.size * 4096
  | none => 0

/-- Commit a delete of a window's ID, where the side list has room; otherwise it follows when there is room. -/
def State.deleteWindow (s : State) (b : Binding) (nsid pos : Nat) : State :=
  match s.ix b.index with
  | some x =>
    if x.room 1 && !s.ftl.readOnly then
      s.commitEntries b.index [{ delete := true, id := windowId nsid pos, list := x.listOf (windowId nsid pos) }]
    else s.modIndex fun y => { y with erasing := y.erasing ++ [(x.born, windowId nsid pos)] }
  | none => s

/-- A deallocation of a byte range of a namespace (R154). -/
def State.unmarkRange (s : State) (nsid lo hi : Nat) : State :=
  match Tab.find s.index.bindings nsid with
  | some b =>
    (windowsOf b.window lo hi).foldl (fun s p =>
      if b.covered (s.nsBytes nsid) lo hi p then s.deleteWindow b nsid p
      else s.modIndex fun x => { x with pending := markWindow nsid p x.pending }) s
  | none => s

/-- Take an ID out of those that a binding has inserted. -/
def State.forget (s : State) (born id : Nat) : State :=
  s.modIndex fun x => { x with ingested := x.ingested.filter fun e => e != (born, id) }

/-- Delete the first of the IDs that are to be deleted (R154), where its side list has room. An index that is gone keeps none. -/
def State.eraseNext (s : State) : State :=
  match s.index.erasing with
  | [] => s
  | (born, id) :: l =>
    let s' := s.modIndex fun x => { x with erasing := l }
    match s.index.all.find? fun x => x.2.born == born with
    | some (i, x) =>
      if x.trained.isNone then s'
      else if x.room 1 && !s.ftl.readOnly then s'.commitEntries i [{ delete := true, id := id, list := x.listOf id }]
      else s
    | none => s'

/-- Delete `n` IDs of those that are to be deleted, as far as the side lists have room. -/
def eraseMany : Nat → State → State
  | 0, s => s
  | n + 1, s => eraseMany n s.eraseNext

/-- A bound namespace is erased: every ID that its bindings inserted is deleted (R154); those that find no room follow when there is room
(log 94). -/
def State.eraseBound (s : State) (nsid : Nat) : State :=
  if Tab.has s.index.bindings nsid then
    let mine (e : Nat × Nat) : Bool := e.2 / 2 ^ 56 == nsid
    let ids := s.index.ingested.filter mine
    let s := s.modIndex fun x => { x with
      pending := x.pending.filter fun w => w.nsid != nsid, ingested := x.ingested.filter fun e => !mine e
      erasing := x.erasing ++ ids }
    eraseMany ids.length s
  else s

/-- Would the windows that a command marks pending exceed the set? They are those its byte ranges touch, and of a deallocation those it
does not cover whole. -/
def State.windowsFull (s : State) (nsid : Nat) (dealloc : Bool) (l : List (Nat × Nat)) : Bool :=
  match Tab.find s.index.bindings nsid with
  | some b =>
    let n := (l.map fun r => ((windowsOf b.window r.1 r.2).filter fun p =>
      !(dealloc && b.covered (s.nsBytes nsid) r.1 r.2 p)
        && !s.index.pending.any fun w => w.nsid == nsid && w.pos == p).length).sum
    decide (0 < n) && decide (1048576 < s.index.pending.length + n)
  | none => false

/-! ## What a query sees (R148, R149) -/

/-- The newest side entry of each ID with F < SEQ ≤ S. -/
def visibleSide (f snap : Nat) (l : List SideEntry) : List SideEntry :=
  let in_ := l.filter fun e => decide (f < e.seq) && decide (e.seq ≤ snap)
  in_.filter fun e => !(in_.any fun g => g.id == e.id && decide (e.seq < g.seq))

/-- What the side scan brings for one query: the merge entries, and how many scores were NaN (R174). -/
def Index.sideScan (x : Index) (t : Trained) (preds : Bytes) (npred : Nat) (qn : Nat) (q : Bytes) (l : List SideEntry) :
    List MergeEntry × Nat :=
  let tables := if x.pq then x.tables t q else q
  let metric := if x.pq then (if x.metric = 1 then 2 else 3) else x.metric
  let dims := if x.pq then x.m else x.dims
  let es := l.map fun e =>
    let base : MergeEntry := { id := e.id, query := qn, side := true, seq := e.seq, list := e.list }
    if e.delete || (npred != 0 && !predPass npred preds e.attr) then ({ base with mask := true }, 0)
    else match scoreKey metric x.elem dims tables e.vec with
      | some k => ({ base with key := k }, 0)
      | none => ({ base with mask := true }, 1)
  (es.map (·.1), (es.map (·.2)).sum)

/-! ## Versions and pins (R148, R150) -/

/-- Versions of an index that running queries pin. -/
def Indexes.pinned (ix : Indexes) (born : Nat) : List Nat :=
  (ix.queries.filter fun q => q.2.born == born).map fun q => q.2.ver

/-- Trim what no query sees any more: old versions, and side entries up to the lowest F in use (R150). -/
def Index.trim (x : Index) (pinned : List Nat) : Index :=
  let low := pinned.foldl min x.cur.seq
  { x with old := x.old.filter fun v => pinned.contains v.seq, side := x.side.filter fun e => decide (low < e.seq) }

/-- FOLD_TRIM: the last reader of a version may have ended. -/
def State.trimIx (s : State) (i : Nat) : State :=
  (s.modIx i fun x => x.trim (s.index.pinned x.born)).modIndex fun ix => { ix with
    gone := ix.gone.filter fun x => ix.pinned x.born != [] }

/-- Bytes of HBM that an index reserves (R134). -/
def Index.hbm (x : Index) : Nat :=
  x.lists * (2 * x.dims + 16) + x.lists * x.degree * 4 + x.sideCap * x.sideSize + ixF x 0x18 8 / 8192
    + (if x.pq then 512 * x.dims + 4 * x.dims ^ 2 else 0)

/-! ## Training (R155, R156) -/

/-- The first LISTS distinct vector numbers of the draw (R155 step 1). -/
def drawCentroids (seed vectors : Nat) : Nat → Nat → Nat → List Nat → List Nat
  | 0, _, _, acc => acc.reverse
  | fuel + 1, i, need, acc =>
    if need ≤ acc.length then acc.reverse
    else
      let c := generator seed 1 i % vectors
      drawCentroids seed vectors fuel (i + 1) need (if acc.contains c then acc else c :: acc)

/-- The DEGREE nearest centroids of each, as edges (R155 step 3). -/
def nearestEdges (metric dims degree : Nat) (cs : List Bytes) : Tab (List Nat) :=
  cs.zipIdx.map fun c =>
    (c.2, (bestLists degree ((cs.zipIdx.filter fun e => e.2 != c.2).map fun e => (e.2, rankOf metric dims c.1 e.1))).map (·.1))

/-- What a training of an index makes of its vectors; none where the rotation is singular (R156). -/
def Index.train (x : Index) (req : Bytes) (vs : List Bytes) : Option Trained :=
  let bs := vs.map (toBf16 x.inputElem x.dims)
  let first := (drawCentroids (fieldAt req 0x18 8) vs.length (2 ^ 32) 0 x.lists []).map fun n => bs.getD n []
  let cs := lloyds x.metric x.dims bs (fieldAt req 1 1) first
  let entry := (nearest x.metric x.dims cs (meanOf x.dims bs)).1
  let t : Trained := { centroids := cs, entry := if x.degree = 0 then 0 else entry
                       edges := if x.degree = 0 then [] else nearestEdges x.metric x.dims x.degree cs }
  if !x.pq then some t
  else match x.pqForm.form St.singular (fieldAt req 0x18 8) (fieldAt req 1 1) (fieldAt req 2 1) (vs.map (valuesOf x.inputElem x.dims)) with
    | some (r, b) => some { t with rotation := r, books := b }
    | none => none

end Sys2Proof.Machine
end

