-- ==== Sys2Proof/Machine/JobOps.lean ====
section
/-! DEFINITION. How the keeper makes channel jobs and takes in their completions (R107, R117, R118), and the SCAN command's segments
and seams (R130). -/

namespace Sys2Proof.Machine

/-! ## Descriptors and admission -/

/-- A descriptor of R110. -/
def JobForm.desc (f : JobForm) (ch job src cnt extStart seam : Nat) : Bytes :=
  leBytes 4 f.tag ++ leBytes 2 job ++ leBytes 1 ch ++ leBytes 1 f.ext ++ leBytes 2 f.bypass ++ leBytes 1 f.frame
    ++ leBytes 1 f.flags ++ leBytes 4 f.recLen ++ leBytes 8 src ++ leBytes 4 cnt ++ leBytes 2 f.key ++ leBytes 2 f.obj
    ++ leBytes 8 f.predAddr ++ leBytes 1 f.npred ++ leBytes 1 f.queries ++ leBytes 2 f.dims ++ leBytes 1 f.metric
    ++ leBytes 1 f.elem ++ leBytes 2 f.idOff ++ leBytes 2 f.attrOff ++ leBytes 2 f.vecOff ++ leBytes 2 f.fb
    ++ leBytes 2 (job / 65536 % 16) ++ leBytes 8 f.qaddr ++ leBytes 8 f.thr ++ leBytes 8 extStart ++ leBytes 8 seam
    ++ leBytes 4 f.maxRec ++ leBytes 4 f.dest ++ List.replicate 32 0

/-- Is a slot of the job ring free? -/
def Pipe.ringRoom (p : Pipe) : Bool := (p.jobTail + 1) % 256 != p.jobHead

/-- Admit a job: its descriptor goes into the ring, and JOB_TAIL moves past it (R107). -/
def State.admitJob (s : State) (ch : Nat) (j : ChJob) : State :=
  let p := s.pipe ch
  (s.writeMem (p.jobBase + 128 * p.jobTail) j.desc).modPipe ch fun p => { p with
    jobTail := (p.jobTail + 1) % 256, bound := p.bound ++ [{ j with t0 := s.hdCount, key := Tab.find s.sec.keys (jd j 0x1C 2) }] }

/-- Admit jobs while their rings have room: the state, the numbers admitted, the jobs left. -/
def admitTodo : List (Nat × ChJob) → State → State × List Nat × List (Nat × ChJob)
  | [], s => (s, [], [])
  | (ch, j) :: l, s =>
    if (s.pipe ch).ringRoom then
      let (s, a, r) := admitTodo l (s.admitJob ch j)
      (s, j.jobNo :: a, r)
    else
      let (s, a, r) := admitTodo l s
      (s, a, (ch, j) :: r)

/-- Write a job's page list to memory. -/
def putPages (a : Nat) (pages : List Bytes) (s : State) : State := s.writeMem a pages.flatten

/-- Stop the running jobs of a merge instance's command with ABORT_JOB (R109). -/
def State.abortJobs (s : State) (inst : Nat) : State :=
  (s.pipes.chans.filter fun c => match c.2.run with
    | some j => j.dest == inst && !j.drained
    | none => false).foldl (fun s c => (s.cutJob c.1 St.stopped 8).pump c.1) s

/-- Count the runs of a command's channel job as steps (R77, R109). -/
def State.stepTaken (s : State) (tag : Nat) (j : ChJob) : State :=
  s.modResult tag fun r => { r with steps := r.steps + 1 + b2n j.reran }

/-! ## Segments (R117) -/

/-- Channel on which a unit lies; one that no page holds counts on its number's channel. -/
def State.unitChannel (s : State) (u : Nat) : Nat :=
  let slot := s.ftl.slot u
  if slot = unmapped then u % 32 else s.part.euChannel (euOf slot)

/-- Runs of consecutive units that lie on one channel, `cap` units at most: channel, units. -/
def groupRuns (cap : Nat) : List (Nat × Nat) → List (Nat × List Nat)
  | [] => []
  | (c, u) :: l =>
    match groupRuns cap l with
    | (d, us) :: r => if c = d ∧ us.length < cap then (c, u :: us) :: r else (c, [u]) :: (d, us) :: r
    | [] => [(c, [u])]

/-- The segments of an LBA range of a namespace: channel, and the unit numbers within the namespace. -/
def State.segments (s : State) (nsid slba nlb : Nat) : List (Nat × List Nat) :=
  let us := s.part.unitSectors
  if nlb = 0 then [] else
  groupRuns (4096 / s.part.planes) (((List.range ((slba + nlb - 1) / us - slba / us + 1)).map (slba / us + ·)).map fun k =>
    (match unitIn (.ns nsid) s.ftl.space k with
     | some u => s.unitChannel u
     | none => k % 32, k))

/-- The page list of some units of a namespace, clipped to an LBA range: entries, and contents bound at admission (log 30). -/
def State.segmentPages (s : State) (nsid slba nlb : Nat) (ks : List Nat) : List (Bytes × Option (Bytes × Nat)) :=
  let us := s.part.unitSectors
  (ks.map fun k => match unitIn (.ns nsid) s.ftl.space k with
    | some u => s.unitEntries u (slba - k * us) (min us (slba + nlb - k * us)) (k * us)
    | none => []).flatten

/-- Contents of page-list entries by entry number. -/
def inlineOf (l : List (Bytes × Option (Bytes × Nat))) : Tab (Bytes × Nat) :=
  l.zipIdx.filterMap fun x => x.1.2.map fun d => (x.2, d)

/-! ## SCAN (R130) -/

/-- The shared fields of a SCAN's jobs. -/
def scanForm (tag nsid obj inst base : Nat) (d : Bytes) : JobForm :=
  let npred := fieldAt d 0x0A 1
  let sf := fieldAt d 2 2
  { tag := tag, ext := fieldAt d 0 1, frame := fieldAt d 1 1
    bypass := 0x180 + 32 * b2n (npred == 0) + 64 * b2n (bit sf 0)
    flags := 2 * b2n (bit sf 1), recLen := fieldAt d 4 4, key := nsid, obj := if bit sf 0 then 0 else obj
    predAddr := if npred = 0 then 0 else base, npred := npred, attrOff := if npred = 0 then 0xFFFF else fieldAt d 8 2, dest := inst }

/-- The predicate block of a SCAN. -/
def scanPreds (d : Bytes) : Bytes := [(d.drop 0x0B).headD 0, 0, 0, 0, 0, 0, 0, 0] ++ (d.drop 0x10).take (24 * fieldAt d 0x0A 1)

/-- The extents of a SCAN: SLBA, NLB. -/
def scanExtents (n : Nat) (d : Bytes) : List (Nat × Nat) :=
  (List.range n).map fun i => (fieldAt d (0xD0 + 16 * i) 8, fieldAt d (0xD8 + 16 * i) 4)

/-- A reserved or unused field of the input is set. -/
def scanReserved (n : Nat) (d : Bytes) : Bool :=
  decide (4 ≤ fieldAt d 1 1) || decide (4 ≤ fieldAt d 2 2) || fieldAt d 0x0C 4 != 0
    || ((d.drop (0x10 + 24 * fieldAt d 0x0A 1)).take (192 - 24 * fieldAt d 0x0A 1)).any (· != 0)
    || (List.range n).any fun i => fieldAt d (0xDC + 16 * i) 4 != 0

/-- The command checks of SCAN (R105, R117, R119, R130), in the order of R130's table. -/
def State.scanCheck (s : State) (t : Trk) (d : Bytes) : Option Nat :=
  let e := t.sqe
  let n := e.cmdDw % 256 + 1
  let form := scanForm 0 e.nsid e.object 0 0 d
  let proto : ChJob := { desc := form.desc 0 0 0 1 0 0, seam := some ([], false) }
  let npred := fieldAt d 0x0A 1
  let xs := scanExtents n d
  if e.inLen ≠ 0xD0 + 16 * n then some St.badLength
  else if scanReserved n d then some St.reservedField
  else if 1 < fieldAt d 0 1 ∨ 8 < npred ∨ 1 < fieldAt d 0x0B 1 ∨ proto.unfit [] = true then some St.unsupported
  else match (if npred = 0 then none else predBlockCheck npred (scanPreds d)) with
    | some st => some st
    | none =>
      if xs.any fun x => x.2 == 0 || decide (2 ^ 24 < x.2) then some St.unsupported
      else if fieldAt d 0 1 = 1 ∧ (xs.any fun x => x.1 % 4 != 0) = true then some St.badAlign
      else match s.nsRefusal t.fn e.nsid with
        | some (_, st) => some st
        | none =>
          if xs.any fun x => decide ((match Tab.find s.host.ns e.nsid with
              | some k => k.size
              | none => 0) < x.1 + x.2) then some St.idRange
          else if !bit (fieldAt d 2 2) 0 && (s.object 2 e.object).isNone then some St.noObject
          else none

/-- The jobs of one extent, numbered from `job`: channel, job, segment, and the address and bytes of its page list. -/
def State.extentJobs (s : State) (x : Scan) (base nsid slba nlb : Nat) (seams : Bool) :
    Nat → List (Nat × List Nat) → List (Nat × ChJob × Seg × Nat)
  | _, [] => []
  | job, (ch, ks) :: l =>
    let first := ks.headD 0 == slba / s.part.unitSectors
    let a := base + 256 + 0x30000 * job
    let ps := s.segmentPages nsid slba nlb ks
    let seam := seams && !(first && l == [])
    let j : ChJob := { desc := x.form.desc ch job (a + 0x20000) ps.length (slba * 4096) (if seam then a else 0)
                       tablesVer := x.tablesVer, tables := x.tables, inline := inlineOf ps, atEnd := l == []
                       pages := ps.map (·.1) }
    (ch, j, ⟨job % 2 ^ 20, first, l == []⟩, a + 0x20000) :: s.extentJobs x base nsid slba nlb seams (job + 1) l

/-- The jobs of all extents. -/
def State.scanJobs (s : State) (x : Scan) (base nsid : Nat) (seams : Bool) : Nat → List (Nat × Nat) → List (Nat × ChJob × Seg × Nat)
  | _, [] => []
  | job, (slba, nlb) :: l =>
    let js := s.extentJobs x base nsid slba nlb seams job (s.segments nsid slba nlb)
    js ++ s.scanJobs x base nsid seams (job + js.length) l

/-- Change a running SCAN. -/
def State.modScan (s : State) (tag : Nat) (f : Scan → Scan) : State :=
  s.modPipes fun p => match Tab.find p.scans tag with
    | some x => { p with scans := Tab.put p.scans tag (f x) }
    | none => p

/-- Admit what a SCAN still has to do. -/
def State.admitScan (s : State) (tag : Nat) : State :=
  match Tab.find s.pipes.scans tag with
  | some x =>
    let (s, a, r) := admitTodo x.todo s
    s.modScan tag fun x => { x with todo := r, open_ := x.open_ ++ a }
  | none => s

/-! ## Seams (R118) -/

/-- The fragments of the segments that follow, up to the next boundary; none while one has not completed. -/
def joinGo (frags : Tab Frag) : List Seg → Option (List SByte × Bool)
  | [] => some ([], false)
  | g :: l =>
    match Tab.find frags g.job with
    | none => none
    | some f =>
      if f.middle && !g.last then (joinGo frags l).map fun x => (f.head.take 65536 ++ x.1, decide (65536 < f.head.length) || x.2)
      else some (f.head.take 65536, decide (65536 < f.head.length))

/-- A segment and those after it. -/
def segsFrom (job : Nat) : List Seg → List Seg
  | [] => []
  | g :: l => if g.job = job then g :: l else segsFrom job l

/-- The seam after a segment: not ready, or its joined input; nothing to run where the segment was a middle one or the input is
empty. -/
def Scan.seamInput (x : Scan) (job : Nat) : Option (Option (List SByte × Bool)) :=
  match segsFrom job x.segs with
  | g :: l =>
    match Tab.find x.frags job with
    | none => none
    | some f =>
      if f.middle && !g.first then some none
      else (joinGo x.frags l).map fun h =>
        let all := f.tail.take 65536 ++ h.1
        if all = [] then none else some (all, decide (65536 < f.tail.length) || h.2)
  | [] => some none

/-- Seams that have nothing to run are done. -/
def State.skipSeams (s : State) (tag : Nat) : State :=
  match Tab.find s.pipes.scans tag with
  | some x =>
    let gone := x.seams.filter fun k => x.seamInput k == some none
    gone.foldl (fun s _ => s.mergeJobDone x.inst) (s.modScan tag fun x => { x with seams := x.seams.filter fun k => !gone.contains k })
  | none => s

/-- A SCAN fails: nothing further is admitted, and its running jobs are stopped (R130). -/
def State.failScan (s : State) (tag st : Nat) : State :=
  match Tab.find s.pipes.scans tag with
  | some x =>
    if x.failed.isSome then s
    else (s.modScan tag fun x => { x with failed := some st, todo := [], seams := [] }).abortJobs x.inst
  | none => s

/-- The keeper takes in the completion of a SCAN's job. -/
def State.scanProgress (s : State) (tag : Nat) (j : ChJob) : State :=
  match Tab.find s.pipes.scans tag with
  | some _ =>
    let s := (s.stepTaken tag j).modScan tag fun x => { x with
      open_ := x.open_.filter fun k => k != j.jobNo
      frags := if j.seam.isNone && jd j 0x50 8 != 0 then Tab.put x.frags j.jobNo ⟨j.head, j.tail, j.middle⟩ else x.frags }
    if j.status ≠ St.ok then s.failScan tag j.status
    else if s.stopping tag then s.failScan tag St.stopped
    else (s.skipSeams tag).admitScan tag
  | none => s

/-- Has the keeper stopped a command's jobs? -/
def State.scanFailed (s : State) (tag : Nat) : Bool :=
  match Tab.find s.pipes.scans tag with
  | some x => x.failed.isSome
  | none => false

/-- Nothing of the SCAN is left to run. -/
def Scan.over (x : Scan) : Bool := x.open_ == [] && x.todo == [] && x.seams == []

/-- No record of a merge instance is on its way. -/
def State.noneSent (s : State) (inst : Nat) : Bool := s.pipes.chans.all fun p => p.2.sent.all fun x => x.1 != inst

/-- The SCAN that an instance serves. -/
def State.scanOf (s : State) (inst : Nat) : Option (Nat × Scan) := s.pipes.scans.find? fun x => x.2.inst == inst

/-- End a SCAN whose work is over (R130). -/
def State.endScan (s : State) (tag : Nat) (x : Scan) : State :=
  let s := (s.dropMerge x.inst).modPipes fun p => { p with scans := Tab.del p.scans tag }
  (s.vendorEnd tag (x.failed.getD (if s.stopping tag then St.stopped else St.ok))).sweepObjects

/-- A record of a SCAN reaches the keeper: it goes to the result area (R130, R178). -/
def State.scanRecord (s : State) (tag : Nat) (r : Bytes) (bad : Bool) : State :=
  match Tab.find s.pipes.scans tag with
  | some x =>
    if x.failed = some St.resultFull then s else
    let r := if bad then r.set 0x0D ((r.getD 0x0D 0) ||| 1) else r
    if s.resultRoom tag 16 then
      let s := if bit (fieldAt r 0x0D 1) 0 then s.flagResult tag 4 else s
      s.emit tag r 1
    else s.failScan tag St.resultFull
  | none => s

end Sys2Proof.Machine
end

