-- ==== Sys2Proof/Machine/SpanOps.lean ====
section
/-! DEFINITION. Sending over the span (R405, R406, R409 to R411): configuration, frames, messages. -/

namespace Sys2Proof.Machine

/-! ## Configuration (R416) -/

/-- SPAN_NUMBER. -/
def Span.number (x : Span) : Nat := fieldAt x.config 0 1
/-- RTO_US. -/
def Span.rto (x : Span) : Nat := let v := fieldAt x.config 4 2; if v = 0 then 50 else v
/-- SLOW_US. -/
def Span.slowUs (x : Span) : Nat := let v := fieldAt x.config 6 2; if v = 0 then 1000 else v
/-- ABSENT_MS in µs. -/
def Span.absentUs (x : Span) : Nat := 1000 * (let v := fieldAt x.config 8 2; if v = 0 then 10 else v)
/-- SHARE_NS: may peers read the namespace? -/
def Span.shares (x : Span) (nsid : Nat) : Bool := decide (nsid ≠ 0) && bit (fieldAt x.config 0x10 16) (nsid - 1)
/-- The other shards of an index; none where it is not sharded. -/
def Span.shardsOf (x : Span) (index : Nat) : Option (List Nat) :=
  ((List.range 16).map fun i => (x.config.drop (0x20 + 24 * i)).take 24).findSome? fun e =>
    let n := fieldAt e 1 1
    if n ≠ 0 ∧ fieldAt e 0 1 = index then some (((e.drop 8).take n).map (·.toNat)) else none

/-! ## Ports and peers -/

/-- A port. -/
def Span.port (x : Span) (p : Nat) : SPort := if p = 0 then x.p0 else x.p1
/-- Change a port. -/
def State.modPort (s : State) (p : Nat) (f : SPort → SPort) : State :=
  s.modSpan fun x => if p = 0 then { x with p0 := f x.p0 } else { x with p1 := f x.p1 }
/-- A peer. -/
def State.peer (s : State) (n : Nat) : SPeer := Tab.get {} s.span.peers n
/-- Change a peer. -/
def State.modPeer (s : State) (n : Nat) (f : SPeer → SPeer) : State :=
  s.modSpan fun x => { x with peers := Tab.mod {} x.peers n f }
/-- A path of a peer. -/
def SPeer.path (x : SPeer) (p : Nat) : SPath := if p = 0 then x.p0 else x.p1
/-- Change a path. -/
def SPeer.setPath (x : SPeer) (p : Nat) (f : SPath → SPath) : SPeer :=
  if p = 0 then { x with p0 := f x.p0 } else { x with p1 := f x.p1 }
/-- Does work run with the peer? -/
def SPeer.live (x : SPeer) : Bool := x.state == .ready || x.state == .slow
/-- ST code with which messages to a peer fail that is not live (R412). -/
def SPeer.failSt (x : SPeer) : Nat := if x.state = .refused then St.peerRefused else St.peerAbsent
/-- Has the peer a path? -/
def SPeer.hasPath (x : SPeer) : Bool := x.p0.up || x.p1.up
/-- The port of a frame: traffic is spread over both paths where both exist (R406). -/
def SPeer.pick (x : SPeer) (seq : Nat) : Nat :=
  if x.p0.up && x.p1.up then seq % 2 else if x.p1.up then 1 else 0

/-- A change of state of a peer posts a SPAN event: event class 6, CODE the new state (R412). -/
def State.peerEvent (s : State) (n code port : Nat) : State := s.post 0x06 code [byteOf n, byteOf port]

/-- Put a peer into a state. -/
def State.setPeerState (s : State) (n : Nat) (x : PeerState) (port : Nat) : State :=
  if (s.peer n).state = x then s
  else (s.modPeer n fun p => { p with state := x, since := s.hdCount }).peerEvent n x.code port

/-! ## Frames (R409) -/

/-- A transport frame: header and payload. -/
def frameBytes (ty src dst cls flags seq ack credit epoch msg off : Nat) (d : Bytes) : Bytes :=
  [1, byteOf ty, byteOf src, byteOf dst, byteOf cls, byteOf flags] ++ leBytes 2 d.length ++ leBytes 4 seq ++ leBytes 4 ack
    ++ leBytes 2 credit ++ leBytes 2 epoch ++ leBytes 4 msg ++ leBytes 4 off ++ [0, 0, 0, 0] ++ d

/-- Send a frame on a port. -/
def State.wire (s : State) (port : Nat) (b : Bytes) : State :=
  (s.modSpan fun x => { x with out := x.out ++ [(port, b)] }).modPort port fun p => { p with tx := satAdd (2 ^ 64 - 1) p.tx 1 }

/-- Credit a peer is granted beyond the next SEQ expected from it; every READY peer has at least 4 frames (R410). -/
def SPeer.credit (x : SPeer) : Nat := x.grant - x.rxNext

/-- The bytes of a DATA frame as it is sent now. -/
def State.dataFrame (s : State) (n : Nat) (f : SFrame) : Bytes :=
  let p := s.peer n
  frameBytes 0 s.span.number n f.cls (b2n f.first + 2 * b2n f.last + 4 * b2n f.retx) f.seq p.rxNext p.credit p.epoch f.msg f.off f.data

/-- Send a control frame (ACK, NAK, OPEN) to a peer. -/
def State.control (s : State) (n port ty seq : Nat) (d : Bytes) : State :=
  let p := s.peer n
  s.wire port (frameBytes ty s.span.number n 0 0 seq p.rxNext p.credit p.epoch 0 0 d)

/-- An ACK frame. -/
def State.sendAck (s : State) (n : Nat) : State := if (s.peer n).hasPath then s.control n ((s.peer n).pick 0) 1 0 [] else s

/-- Change a frame that waits for its acknowledgement. -/
def SPeer.modFrame (x : SPeer) (seq : Nat) (f : SFrame → SFrame) : SPeer :=
  { x with unacked := x.unacked.map fun k => if k.seq = seq then f k else k }

/-- Send a frame, or send it again. -/
def State.sendFrame (s : State) (n : Nat) (f : SFrame) (port : Nat) : State :=
  let f := { f with retx := f.sent, sent := true, sentAt := s.hdCount, port := port }
  let again := f.retx
  let s := (s.modPeer n fun x => x.modFrame f.seq fun _ => f).wire port (s.dataFrame n f)
  if again then
    (s.modPort port fun p => { p with retx := satAdd 65535000 p.retx 1 }).modPeer n fun x => { x with
      resent := (x.resent.filter fun t => decide (s.hdCount < t + 1000000)) ++ [s.hdCount] }
  else s

/-- Send what a peer's credit allows (R410), where a path to it is up. -/
def State.sendAllowed (s : State) (n : Nat) : State :=
  let p := s.peer n
  if !p.hasPath then s else
  (p.unacked.filter fun f => !f.sent && decide (f.seq < p.limit)).foldl (fun s f => s.sendFrame n f (p.pick f.seq)) s

/-- Cut a message into frames. -/
def cutFrames (cls msg seq : Nat) : Nat → Nat → Bytes → List SFrame
  | 0, _, _ => []
  | k + 1, i, d =>
    { seq := seq + i, cls := cls, first := i == 0, last := decide (d.length ≤ 8192), msg := msg, off := 8192 * i, data := d.take 8192 }
      :: (if d.length ≤ 8192 then [] else cutFrames cls msg seq k (i + 1) (d.drop 8192))

/-- Send a message to a live peer: its number and the state (R411). -/
def State.spanSend (s : State) (n cls : Nat) (d : Bytes) (use : MsgUse) : Nat × State :=
  let p := s.peer n
  let fs := cutFrames cls p.nextMsg p.txNext (d.length / 8192 + 1) 0 d
  let s := s.modPeer n fun p => { p with
    nextMsg := p.nextMsg + 1, txNext := p.txNext + fs.length, unacked := p.unacked ++ fs, msgs := p.msgs ++ [⟨p.nextMsg, use⟩] }
  (p.nextMsg, s.sendAllowed n)

/-- Class codes of messages (R409). -/
def clsTile : Nat := 0
/-- Class QUERY. -/
def clsQuery : Nat := 1
/-- Class READ. -/
def clsRead : Nat := 2
/-- Class REPLY. -/
def clsReply : Nat := 3

/-- A REPLY: the number of the message it answers, its class, its ST code, and what it brings (the layout is the model's). -/
def State.spanReply (s : State) (n msg cls st : Nat) (d : Bytes) : State :=
  if (s.peer n).live then (s.spanSend n clsReply (leBytes 4 msg ++ leBytes 2 st ++ leBytes 1 cls ++ [0] ++ d) .reply).2 else s

end Sys2Proof.Machine
end

