-- ==== Sys2Proof/Machine/StoreOps.lean ====
section
/-! DEFINITION. Operations of the storage commands (spec/03, spec/17): checks, commits by granule, deallocation, secure discard,
log pages. -/

namespace Sys2Proof.Machine

/-! ## Checks (R54, R56, R69, R404) -/

/-- The refusal of a standard I/O command before it touches flash: common fields, namespace, the read-only state. -/
def State.ioCheck (s : State) (t : Trk) (writes : Bool) : Option (NvStatus × Nat) :=
  match s.nvmRefusal t with
  | some x => some x
  | none => if writes && s.ftl.readOnly then some (.writeProtected, St.readOnly) else none

/-- Size of a namespace in LBAs. -/
def State.nsSize (s : State) (n : Nat) : Nat := match Tab.find s.host.ns n with
  | some x => x.size
  | none => 0

/-- The refusal of an LBA range; `mdts`: the command transfers data, 2 MiB at most (R56). -/
def State.lbaCheck (s : State) (t : Trk) (mdts : Bool) : Option (NvStatus × Nat) :=
  if mdts && decide (512 < t.sqe.nlb) then some (.invalidField, St.unsupported)
  else if s.nsSize t.sqe.nsid < t.sqe.slba + t.sqe.nlb then some (.lbaOutOfRange, St.idRange)
  else none

/-- Run a started standard I/O command of an opcode: the checks, and then its own effect. -/
def State.ioRow (s : State) (tag opc : Nat) (writes mdts : Bool) (f : Trk → State → State) : State :=
  match s.startedAs tag opc with
  | some t =>
    if s.ftl.sanitizer.isSome then s.completeSanitizing tag
    else match s.ioCheck t writes with
      | some (st, c) => s.completeErr tag st c
      | none => match s.lbaCheck t mdts with
        | some (st, c) => s.completeErr tag st c
        | none => f t s
  | none => s

/-- A write that finds no erase unit any more fails, and the module becomes read-only (R404). -/
def State.writeFails (s : State) (tag : Nat) : State := s.enterReadOnly.completeErr tag .writeProtected St.readOnly

/-! ## Granules (R385, R386) -/

/-- The commit granules an LBA range touches. -/
def Part.granules (p : Part) (slba nlb : Nat) : List Nat :=
  if nlb = 0 then [] else
  (List.range ((slba + nlb - 1) / p.granule - slba / p.granule + 1)).map (slba / p.granule + ·)

/-- The new contents of a unit of which the LBAs from `lo` up to `hi` are written with `src`: the rest is merged from the present
contents, and a sector of it that cannot be decoded is marked in POISON (R386). `lost`: LBAs that cannot be decoded. -/
def State.mergeUnit (s : State) (ui lo hi : Nat) (src : Nat → Bytes) (lost : List Nat) (u : Nat) : Nat × Bytes × Nat :=
  let us := s.part.unitSectors
  let mapped := s.ftl.slot u != unmapped
  let parts := (List.range us).map fun j =>
    let lba := ui * us + j
    if lo ≤ lba ∧ lba < hi then (fitTo 4096 (src lba), false)
    else
      let (d, bad) := s.sector u j
      (d, bad || (mapped && lost.contains lba))
  (u, (parts.map (·.1)).flatten, ((parts.zipIdx.filter fun x => x.1.2).map fun x => 2 ^ x.2).sum)

/-- The units that the LBAs from `lo` up to `hi` of a namespace touch, with their new contents. -/
def State.mergeUnits (s : State) (nsid lo hi : Nat) (src : Nat → Bytes) (lost : List Nat) : List (Nat × Bytes × Nat) :=
  let us := s.part.unitSectors
  if hi ≤ lo then [] else
  ((List.range ((hi - 1) / us - lo / us + 1)).map (lo / us + ·)).filterMap fun ui =>
    (unitIn (.ns nsid) s.ftl.space ui).map (s.mergeUnit ui lo hi src lost)

/-- Do units follow each other? -/
def consecutive : List (Nat × Bytes × Nat) → Bool
  | a :: b :: l => a.1 + 1 == b.1 && consecutive (b :: l)
  | _ => true

/-- Commit the units of a granule: under one journal entry where they follow each other (R389). -/
def State.commitTogether (s : State) (kind : Nat) (l : List (Nat × Bytes × Nat)) (eus : List Nat) (group : Option Nat := none) : State :=
  let group := some (group.getD (s.ftl.jseq + 1))
  if consecutive l then s.commitUnits kind ((l.map (·.1)).headD 0) l eus group
  else (l.zip eus).foldl (fun s x => s.commitUnits kind x.1.1 [x.1] [x.2] group) s

/-- Room in the write buffer of 256 MiB for `n` more units (R385). -/
def State.bufferRoom (s : State) (n : Nat) : Bool := decide ((s.ftl.buf.length + n) * s.part.unitSize ≤ 268435456)

/-- Replace the contents of a unit that is buffered (R386): its mapping stays. -/
def Ftl.overwrite (f : Ftl) (u : Nat) (d : Bytes) (p : Nat) : Option Ftl :=
  match Tab.find f.buf (f.slot u) with
  | some b => some { f with buf := Tab.put f.buf (f.slot u) { b with data := d, poison := p } }
  | none => none

/-- Commit units: on GZ-6400-256 a buffered unit takes its sectors in place; otherwise each unit needs an erase unit of `eus`.
The erase units left, or none where the units cannot be placed now. -/
def State.commitPlaced (s : State) (l : List (Nat × Bytes × Nat)) (eus : List Nat) (group : Option Nat := none) :
    Option (State × List Nat) :=
  let inPlace := match s.part, l with
    | .p256, [(u, d, p)] => s.ftl.overwrite u d p
    | _, _ => none
  match inPlace with
  | some f => some ({ s with ftl := f }, eus)
  | none =>
    let n := l.length
    if n ≤ eus.length ∧ s.bufferRoom n = true ∧ canPlace false (eus.take n) s = true then
      some (s.commitTogether 0 l (eus.take n) group, eus.drop n)
    else none

/-- GRANULE_COMMIT: commit the named granules of a Write one after another, as far as they can be placed; those committed are
noted. -/
def commitGranules (tag nsid slba nlb : Nat) (src : Nat → Bytes) (lost : List Nat) : List Nat → List Nat → State → State
  | [], _, s => s
  | k :: l, eus, s =>
    if (Tab.get [] s.ftl.partials tag).contains k || !(s.part.granules slba nlb).contains k then
      commitGranules tag nsid slba nlb src lost l eus s
    else
      let lo := max slba (k * s.part.granule)
      let hi := min (slba + nlb) ((k + 1) * s.part.granule)
      match s.commitPlaced (s.mergeUnits nsid lo hi src lost) eus with
      | some (s, rest) =>
        commitGranules tag nsid slba nlb src lost l rest
          (s.modFtl fun f => { f with partials := Tab.put f.partials tag (Tab.get [] f.partials tag ++ [k]) })
      | none => s

/-- Have all granules of a Write been committed? -/
def State.allCommitted (s : State) (tag slba nlb : Nat) : Bool :=
  (s.part.granules slba nlb).all fun k => (Tab.get [] s.ftl.partials tag).contains k

/-- A Write has been committed whole: it completes, and the windows it touched are pending (R385, R154). -/
def State.writeDone (s : State) (tag nsid slba nlb : Nat) : State :=
  let s := s.modFtl fun f => { f with
    partials := Tab.del f.partials tag, hostBytes := f.hostBytes + nlb * 4096, writeCmds := f.writeCmds + 1 }
  (s.completeOk tag).markRange nsid (slba * 4096) ((slba + nlb) * 4096)

/-- LBA ranges in bytes. -/
def byteRanges (l : List (Nat × Nat)) : List (Nat × Nat) := l.map fun r => (r.1 * 4096, (r.1 + r.2) * 4096)

/-- A command that changes a bound namespace waits while the set of pending windows has no room for those it marks; it is counted once
(R154). -/
def State.windowWait (s : State) (tag : Nat) : State :=
  if Tab.has s.ftl.partials tag then s
  else (s.modFtl fun f => { f with partials := Tab.put f.partials tag [] }).modIndex fun x => { x with windowWaits := x.windowWaits + 1 }

/-! ## Deallocation (R397) -/

/-- The runs of logical units that are an owner's units from number `lo` up to `hi`. -/
def runsIn (o : SpaceOwner) : List Region → Nat → Nat → List (Nat × Nat)
  | [], _, _ => []
  | r :: l, lo, hi =>
    if r.owner = o then
      (if lo < min hi r.count then [(r.start + lo, min hi r.count - lo)] else []) ++ runsIn o l (lo - r.count) (hi - r.count)
    else runsIn o l lo hi

/-- Does a run of units hold the unit? -/
def inRuns (runs : List (Nat × Nat)) (u : Nat) : Bool := runs.any fun r => decide (r.1 ≤ u) && decide (u < r.1 + r.2)

/-- Unmap runs of units, one journal entry each. -/
def Ftl.unmapRuns (f : Ftl) (runs : List (Nat × Nat)) : Ftl := runs.foldl (fun f r => f.unmap r.1 r.2) f

/-- Units wholly inside an LBA range: first unit number and one past the last. -/
def Part.wholeUnits (p : Part) (slba nlb : Nat) : Nat × Nat :=
  ((slba + p.unitSectors - 1) / p.unitSectors, (slba + nlb) / p.unitSectors)

/-- The partly covered pieces of an LBA range. -/
def Part.edges (p : Part) (slba nlb : Nat) : List (Nat × Nat) :=
  let (a, b) := p.wholeUnits slba nlb
  if b < a then [(slba, slba + nlb)]
  else (if slba < a * p.unitSectors then [(slba, a * p.unitSectors)] else [])
    ++ (if b * p.unitSectors < slba + nlb then [(b * p.unitSectors, slba + nlb)] else [])

/-- Zero the partly covered units, each merged with what it held (R397); none where one cannot be placed now. `group`: the granule commit
that an edge from an LBA on belongs to. -/
def zeroEdges (nsid : Nat) (lost : List Nat) (group : Nat → Option Nat) : List (Nat × Nat) → List Nat → State → Option (State × List Nat)
  | [], eus, s => some (s, eus)
  | (lo, hi) :: l, eus, s =>
    match s.commitPlaced (s.mergeUnits nsid lo hi (fun _ => []) lost) eus (group lo) with
    | some (s, rest) => zeroEdges nsid lost group l rest s
    | none => none

/-- The units from `a` up to `b` of a namespace that lie in the granule of an edge, as they are unmapped with it (R65). -/
def State.zeroTied (s : State) (nsid a b : Nat) (group : Nat → Nat) (lo : Nat) : List Tied :=
  let us := s.part.unitSectors
  let k := lo / s.part.granule
  ((List.range (s.part.granule / us)).map (k * s.part.granule / us + ·)).filterMap fun ui =>
    if a ≤ ui ∧ ui < b then (unitIn (.ns nsid) s.ftl.space ui).map fun u => ⟨u, unmapped, s.ftl.slot u, group lo⟩ else none

/-- Deallocate an LBA range of a namespace: units wholly inside are unmapped, the others merged with zeros; what lies in one granule is one
commit (R65). -/
def State.zeroRange (s : State) (nsid slba nlb : Nat) (lost eus : List Nat) : Option (State × List Nat) :=
  let edges := s.part.edges slba nlb
  let first := (edges.headD (0, 0)).1 / s.part.granule
  let seq := s.ftl.jseq
  let group (lo : Nat) : Nat := seq + 1 + b2n (lo / s.part.granule ≠ first)
  match zeroEdges nsid lost (fun lo => some (group lo)) edges eus s with
  | some (s, rest) =>
    let (a, b) := s.part.wholeUnits slba nlb
    let tied := ((edges.map (·.1)).map (s.zeroTied nsid a b group)).flatten
    some (s.modFtl fun f => (f.unmapRuns (runsIn (.ns nsid) f.space a b)).tie tied, rest)
  | none => none

/-- Deallocate several LBA ranges. -/
def zeroRanges (nsid : Nat) (lost : List Nat) : List (Nat × Nat) → List Nat → State → Option State
  | [], _, s => some s
  | (slba, nlb) :: l, eus, s =>
    match s.zeroRange nsid slba nlb lost eus with
    | some (s, rest) => zeroRanges nsid lost l rest s
    | none => none

/-- The ranges of a Dataset Management command: SLBA and length of each 16-byte entry. -/
def dsmRanges (e : Sqe) (d : Bytes) : List (Nat × Nat) :=
  (List.range (bits e.cdw10 0 8 + 1)).map fun i => (fieldAt d (16 * i + 8) 8, fieldAt d (16 * i + 4) 4)

/-- Does a range lie beyond the namespace? -/
def State.rangesOut (s : State) (nsid : Nat) (l : List (Nat × Nat)) : Bool :=
  l.any fun r => decide (s.nsSize nsid < r.1 + r.2)

/-- The bound windows that ranges of a namespace deallocate (R154). -/
def unmarkRanges (nsid : Nat) (l : List (Nat × Nat)) (s : State) : State :=
  l.foldl (fun s r => s.unmarkRange nsid (r.1 * 4096) ((r.1 + r.2) * 4096)) s

/-! ## Secure discard (R398) -/

/-- The units that LBA ranges of a namespace touch, whole or in part, as runs. -/
def State.touched (s : State) (nsid : Nat) (l : List (Nat × Nat)) : List (Nat × Nat) :=
  (l.filter fun r => decide (0 < r.2)).flatMap fun r =>
    runsIn (.ns nsid) s.ftl.space (r.1 / s.part.unitSectors) ((r.1 + r.2 - 1) / s.part.unitSectors + 1)

/-- Unmap runs under one journal entry for each commit granule that holds a mapped unit, and drop their buffered copies. -/
def State.discardRuns (s : State) (runs : List (Nat × Nat)) : State :=
  let per := max 1 (s.part.granule / s.part.unitSectors)
  let gs := ((s.ftl.map.filter fun m => inRuns runs m.1).map fun m => m.1 / per).dedup
  s.modFtl fun f =>
    let f := gs.foldl (fun f g =>
      let us := (List.range per).filter fun i => inRuns runs (g * per + i)
      f.unmap (g * per + us.headD 0) us.length) f
    { f with buf := f.buf.filter fun b => !inRuns runs b.2.unit }

/-- Erase units that hold a copy of the units, other than the one the map points at. -/
def State.copyHolders (s : State) (runs : List (Nat × Nat)) : List Nat :=
  (s.media.pages.filterMap fun p => match p.2 with
    | .written _ t =>
      let slot := s.part.slotOf (p.1 / 2 ^ 30) (p.1 % 2 ^ 30)
      if slot ≠ unmapped ∧ tagKind t = 0 ∧ inRuns runs (tagUnit t) = true ∧ s.ftl.slot (tagUnit t) ≠ slot then some (euOf slot) else none
    | _ => none).dedup

/-- Relocate the valid units of an erase unit and erase it, where it is unpinned and they can be placed. -/
def State.emptyEu (s : State) (eu : Nat) (eus : List Nat) (ok : Bool) : State × List Nat :=
  let valid := s.ftl.validUnits eu
  let n := valid.length
  if s.pinned eu = false ∧ n ≤ eus.length ∧ ¬(eus.take n).contains eu ∧ canPlace false (eus.take n) s = true then
    ((relocate valid (eus.take n) s).eraseEu eu ok, eus.drop n)
  else (s, eus)

/-- Empty and erase each of the erase units that can be. `bad`: those whose erase fails. -/
def emptyEus (bad : List Nat) : List Nat → List Nat → State → State
  | [], _, s => s
  | e :: l, eus, s =>
    let (s, rest) := s.emptyEu e eus (!bad.contains e)
    emptyEus bad l rest s

/-- Run a secure discard of LBA ranges as far as it goes; true when no erase unit holds a copy any more. `key` names the command;
one secure discard runs at a time. -/
def State.secureDiscard (s : State) (key nsid : Nat) (l : List (Nat × Nat)) (lost eus bad : List Nat) : State × Bool :=
  match s.ftl.discard with
  | some (k, runs) =>
    if k = key then
      let s := emptyEus bad (s.copyHolders runs) eus s
      if s.copyHolders runs = [] then (s.modFtl fun f => { f with discard := none }, true) else (s, false)
    else (s, false)
  | none =>
    let whole := l.flatMap fun r =>
      let (a, b) := s.part.wholeUnits r.1 r.2
      runsIn (.ns nsid) s.ftl.space a b
    let runs := s.touched nsid l
    match zeroEdges nsid lost (fun _ => none) (l.flatMap fun r => s.part.edges r.1 r.2) eus (s.discardRuns whole) with
    | some (s, rest) =>
      let s := s.modFtl fun f => { f with discard := some (key, runs) }
      let s := emptyEus bad (s.copyHolders runs) rest s
      if s.copyHolders runs = [] then (s.modFtl fun f => { f with discard := none }, true) else (s, false)
    | none => (s, false)

/-! ## Reading (R391) -/

/-- A sector of a namespace: unit, sector of it, contents, and whether it is unrecoverable. -/
def State.readLba (s : State) (nsid lba : Nat) (lost : List Nat) : Option (Nat × Bytes × Bool) :=
  match s.lbaPlace nsid lba with
  | some (u, j) =>
    let (d, bad) := s.sector u j
    let slot := s.ftl.slot u
    let flash := slot != unmapped && !Tab.has s.ftl.buf slot
    let gone := bit (s.chan (s.part.euChannel (euOf slot))).lost (pgTarget (s.part.euBase (euOf slot)))
    some (u, d, bad || (flash && (lost.contains lba || gone)))
  | none => none

/-- The reports of the sectors a command could not recover. -/
def reportLost (nsid tag : Nat) : List (Nat × Nat) → State → State
  | [], s => s
  | (lba, u) :: l, s =>
    let slot := s.ftl.slot u
    let ch := s.part.euChannel (euOf slot)
    reportLost nsid tag l (s.report .hd (unrecovered slot ch (s.part.euBase (euOf slot)) nsid lba tag))

/-- The reports of the sectors that a retry corrected. -/
def reportRetried (nsid tag : Nat) : List Nat → State → State
  | [], s => s
  | lba :: l, s =>
    match s.lbaPlace nsid lba with
    | some (u, j) =>
      let slot := s.ftl.slot u
      if slot = unmapped ∨ Tab.has s.ftl.buf slot = true then reportRetried nsid tag l s
      else
        let ch := s.part.euChannel (euOf slot)
        reportRetried nsid tag l ((s.modFtl fun f => { f with cwRetry := f.cwRetry + 1 }).report .hd
          (flashRetry ch ((s.part.slotPages slot).getD (j / 4) 0) tag))
    | none => reportRetried nsid tag l s

/-- Read the LBAs of a command: the data of each, or none after the reports where one is unrecoverable. -/
def State.readLbas (s : State) (t : Trk) (tag : Nat) (lost retried : List Nat) : State × Option (List Bytes) :=
  let e := t.sqe
  let all := (List.range e.nlb).filterMap fun k => (s.readLba e.nsid (e.slba + k) lost).map fun x => (e.slba + k, x)
  let bad := all.filter fun x => x.2.2.2
  let s := reportRetried e.nsid tag retried s
  let s := s.modFtl fun f => { f with cwFirst := f.cwFirst + (e.nlb - retried.length - bad.length), cwLost := f.cwLost + bad.length }
  if bad = [] then (s, some (all.map fun x => x.2.2.1))
  else (reportLost e.nsid tag (bad.map fun x => (x.1, x.2.1)) s, none)

/-- A command meets an unrecoverable sector. -/
def State.readFails (s : State) (tag : Nat) : State :=
  (s.modFtl fun f => { f with mediaErrors := f.mediaErrors + 1 }).completeErr tag .unrecoveredRead St.mediaUnrecovered

/-- Write sectors to the host addresses of a command's data buffer. -/
def scatter : List Nat → List Bytes → State → State
  | a :: as_, b :: bs, s => scatter as_ bs (s.writeHost a b)
  | _, _, s => s

/-! ## Log pages (R57, R401, R402) -/

/-- °C as the 16-bit Kelvin of the NVMe log. -/
def kelvin (t : Int) : Nat := (t + 273).toNat

/-- Has the composite temperature crossed a threshold of a controller? (R401, R452, R57) -/
def State.tempCrossed (s : State) (fn : Nat) : Bool :=
  let t := kelvin s.power.tFlash
  let f := (s.ctrl fn).features
  let hi := Tab.get 0 f (featureKey 0x04 0) % 65536
  let lo := Tab.get 0 f (featureKey 0x04 (2 ^ 20)) % 65536
  decide (343 ≤ t) || (hi != 0 && decide (hi ≤ t)) || decide (t ≤ lo)

/-- Critical Warning. -/
def State.criticalWarning (s : State) (fn : Nat) : Nat :=
  b2n (decide (s.ftl.spare < 10)) + 2 * b2n (s.tempCrossed fn) + 4 * b2n (s.media.chans.any fun c => c.2.lost != 0)
    + 8 * b2n s.ftl.readOnly + 16 * b2n (s.power.holdupWeak || s.ftl.dumpLost)

/-- Percentage Used. -/
def Ftl.used (f : Ftl) : Nat := min 255 (f.peAvg / 1500)

/-- The SMART / Health Information log; busy time is a number the spec does not give (free). -/
def State.smartLog (s : State) (fn : Nat) : Bytes :=
  let f := s.ftl
  let p := s.power
  layFields 0 512 [(0, 1, s.criticalWarning fn), (1, 2, kelvin p.tFlash), (3, 1, f.spare), (4, 1, 10), (5, 1, f.used),
    (32, 16, (f.readBytes + 511999) / 512000), (48, 16, (f.hostBytes + 511999) / 512000), (64, 16, f.readCmds),
    (80, 16, f.writeCmds), (96, 16, s.freeNum), (112, 16, f.powerCycles), (128, 16, f.powerHours), (144, 16, f.dumps),
    (160, 16, f.mediaErrors), (176, 16, 0), (192, 4, Tab.get 0 f.tempHist 15 - f.critMinutes), (196, 4, f.critMinutes),
    (200, 2, kelvin p.tCd0), (202, 2, kelvin p.tCd1), (204, 2, kelvin p.tHd), (206, 2, kelvin p.tInlet), (208, 2, kelvin p.tOutlet)]

/-- A signed number as `k` bytes, two's complement. -/
def leInt (k : Nat) (n : Int) : Bytes := leBytes k (n % (256 ^ k : Nat)).toNat

/-- UNIT_LOG2. -/
def Part.unitLog2 : Part → Nat
  | .p064 => 14
  | .p128 => 15
  | .p256 => 16

/-- The vendor health log (R402). -/
def State.healthLog (s : State) : Bytes :=
  let f := s.ftl
  let q (n : Nat) : Bytes := leBytes 8 (min n (2 ^ 64 - 1))
  leBytes 4 1 ++ leBytes 1 (b2n f.readOnly + 2 * b2n f.spareLow + 4 * b2n (decide (150000 ≤ f.peAvg))
      + 8 * b2n (s.power.governor != 0) + 16 * b2n f.lifeDays.isNone)
    ++ leBytes 1 s.part.unitLog2 ++ leBytes 2 1500 ++ q eraseUnits ++ q f.factoryBad ++ q f.retiredErase ++ q f.retiredProgram
    ++ q f.retiredSoftware ++ q f.spareStart ++ leInt 8 f.spareLeft ++ leBytes 4 f.peAvg ++ leBytes 4 f.peMax
    ++ q (f.hostBytes / 1048576) ++ q (f.mediaBytes / 1048576) ++ q (f.gcBytes / 1048576) ++ q f.cwFirst ++ q f.cwRetry
    ++ q f.cwLost ++ q f.programFails ++ q f.eraseFails ++ q f.timeouts ++ q f.dumps ++ leBytes 4 f.replayMs
    ++ leBytes 4 (f.lifeDays.getD 0xFFFFFFFF) ++ q f.peRate ++ q f.freeEus ++ q f.freeMin ++ q 0
    ++ (List.range 16).flatMap (fun i => q (Tab.get 0 f.tempHist i))
    ++ leInt 1 (f.tempMin.getD 0) ++ leInt 1 (f.tempMax.getD 0) ++ List.replicate 190 0

/-- The Commands Supported and Effects log: CSUPP of each opcode, LBCC of those that change logical blocks (log 18). -/
def effectsLog : Bytes :=
  ((List.range 256).flatMap fun k => leBytes 4 (b2n (adminOpcodes.contains k) + 2 * b2n (k == 0x80 || k == 0x84)))
    ++ ((List.range 256).flatMap fun k => leBytes 4 (b2n (ioOpcodes.contains k) + 2 * b2n (k == 0x01 || k == 0x08 || k == 0x09)))
    ++ List.replicate 2048 0

/-- A log page, where the identifier names one. -/
def State.logPage (s : State) (fn lid : Nat) : Option Bytes :=
  match lid with
  | 0x01 => some (List.replicate 8192 0)
  | 0x02 => some (s.smartLog fn)
  | 0x03 => some (layFields 0 512 [(0, 1, 1), (8, 8, s.sec.version)])
  | 0x05 => some effectsLog
  | 0xC0 => some s.healthLog
  | 0xC1 => some (s.queueLog fn)
  | _ => none

end Sys2Proof.Machine
end

