-- ==== Sys2Proof/Machine/QueryOps.lean ====
section
/-! DEFINITION. Index queries (R140-R145, R148, R149, R414): checks, admission, list jobs, the end. -/

namespace Sys2Proof.Machine

/-! ## The input buffer (R140) -/

/-- QUERIES. -/
def qiQueries (d : Bytes) : Nat := fieldAt d 0 2
/-- K. -/
def qiK (d : Bytes) : Nat := fieldAt d 2 2
/-- NPROBE. -/
def qiProbe (d : Bytes) : Nat := fieldAt d 4 2
/-- SHADE_NPROBE. -/
def qiShade (d : Bytes) : Nat := fieldAt d 6 2
/-- RERANK. -/
def qiRerank (d : Bytes) : Nat := fieldAt d 8 2
/-- EF. -/
def qiEf (d : Bytes) : Nat := fieldAt d 0x0A 2
/-- FAIL_ON_POISON. -/
def qiFail (d : Bytes) : Bool := bit (fieldAt d 0x0C 1) 0
/-- PRED_COUNT. -/
def qiPreds (d : Bytes) : Nat := fieldAt d 0x0D 1
/-- The predicate block (R119) that the command's predicates make. -/
def qiBlock (d : Bytes) : Bytes := [(d.drop 0x0E).headD 0, 0, 0, 0, 0, 0, 0, 0] ++ (d.drop 0x40).take (24 * qiPreds d)
/-- A query's vector. -/
def Index.query (x : Index) (d : Bytes) (i : Nat) : Bytes := (d.drop (0x100 + i * x.querySize)).take x.d

/-- Replace bytes of a string. -/
def putBytes (off : Nat) (v d : Bytes) : Bytes := d.take off ++ v ++ d.drop (off + v.length)

/-- The shade form of an input (R143): NPROBE := SHADE_NPROBE, RERANK := 0. -/
def qiShaded (d : Bytes) : Bytes := putBytes 8 (leBytes 2 0) (putBytes 4 (leBytes 2 (qiShade d)) d)

/-- The command checks of INDEX_QUERY: R135, then R140 in the order of its table, then the result size (R75). -/
def Index.queryCheck (x : Index) (d : Bytes) (inLen resLen : Nat) : Option Nat :=
  let n := qiQueries d
  let p := qiPreds d
  if inLen ≠ 0x100 + n * x.querySize then some St.badLength
  else if 2 ≤ fieldAt d 0x0C 1 ∨ ((d.drop 0x0F).take 49).any (· != 0) = true
      ∨ ((d.drop (0x40 + 24 * p)).take (192 - 24 * p)).any (· != 0) = true then some St.reservedField
  else if n = 0 ∨ 64 < n ∨ qiK d = 0 ∨ 4096 < qiK d ∨ qiProbe d = 0 ∨ 1024 < qiProbe d ∨ qiProbe d < qiShade d
      ∨ (qiRerank d ≠ 0 ∧ (qiRerank d < qiK d ∨ 4096 < qiRerank d))
      ∨ (qiEf d ≠ 0 ∧ (qiEf d < qiProbe d ∨ 4096 < qiEf d)) ∨ 8 < p
      ∨ (qiRerank d ≠ 0 ∧ x.fullStore = false) ∨ 1 < fieldAt d 0x0E 1 then some St.unsupported
  else match (if p = 0 then none else predBlockCheck p (qiBlock d)) with
    | some st => some st
    | none => if resLen < 64 + n * (16 + 16 * qiK d) then some St.badLength else none

/-! ## Indexes by their creation -/

/-- Change an index by its creation, dropped or not. -/
def State.modBorn (s : State) (born : Nat) (f : Index → Index) : State :=
  let g (x : Index) : Index := if x.born = born then f x else x
  s.modIndex fun ix => { ix with all := ix.all.map fun p => (p.1, g p.2), gone := ix.gone.map g }

/-- An index by its creation. -/
def State.ixBorn (s : State) (born : Nat) : Option Index :=
  match s.index.all.find? fun p => p.2.born == born with
  | some p => some p.2
  | none => s.index.gone.find? fun x => x.born == born

/-- A version of an index by its fold sequence. -/
def Index.version (x : Index) (f : Nat) : Version :=
  if x.cur.seq = f then x.cur else (x.old.find? fun v => v.seq == f).getD {}

/-- Units that a version's extents hold. -/
def Version.units (v : Version) : List Nat := (v.lists.map fun l => (l.2.map (·.units)).flatten).flatten

/-- Units of an index's flash that something still names. -/
def Index.unitsHeld (x : Index) : List Nat :=
  x.cur.units ++ (x.old.map Version.units).flatten ++ (x.fullUnits.map (·.2)).flatten

/-- Full-store slots that a version's records name. -/
def Version.refs (v : Version) : List Nat := (v.lists.map fun l => (l.2.map fun e => e.recs.map fun r => fieldAt r 0x18 8).flatten).flatten

/-- Extents of the full store none of whose slots a version names are given up. -/
def Index.trimFull (x : Index) (slot : Nat) : Index :=
  let used := (x.cur.refs ++ (x.old.map Version.refs).flatten).map fun r => r / (65536 / max 1 slot)
  { x with fullUnits := x.fullUnits.filter fun u => used.contains u.1 }

/-- FOLD_TRIM (R150 step 6, R157): the last reader of a version or of a dropped index may have ended. Extents that no version names
are freed, and then a fold may start again (R147); a dropped index gives its space back. -/
def State.trimBorn (s : State) (born : Nat) : State :=
  match s.ixBorn born with
  | some x =>
    let y := (x.trim (s.index.pinned born)).trimFull ((x.f + 63) / 64 * 64)
    let freed := x.unitsHeld.filter fun u => !y.unitsHeld.contains u
    let s := (s.modFtl fun f => freed.foldl (fun f u => f.unmap u 1) f).modBorn born fun _ =>
      { y with foldStuck := y.foldStuck && freed == [] }
    if x.dropped && s.index.pinned born == [] then
      let s := s.modFtl fun f =>
        { (f.unmapRuns (f.units (.index born))) with space := f.space.filter fun r => r.owner != .index born }
      (s.modTiers fun t => { t with poolUsed := Tab.mod 0 t.poolUsed 2 (· - x.hbm) }).modIndex fun ix => { ix with
        gone := ix.gone.filter fun y => y.born != born }
    else s
  | none => s

/-! ## Admission (R141, R148, R149) -/

/-- Change a running query. -/
def State.modQuery (s : State) (key : Nat) (f : Query → Query) : State :=
  s.modIndex fun ix => match Tab.find ix.queries key with
    | some q => { ix with queries := Tab.put ix.queries key (f q) }
    | none => ix

/-- Passes of a list's queries: `cap` at most in each. -/
def passes (cap : Nat) : Nat → List Nat → List (List Nat)
  | 0, _ => []
  | n + 1, l => if l = [] then [] else l.take cap :: passes cap n (l.drop cap)

/-- Queries that one list job holds (R141). -/
def Index.perJob (x : Index) : Nat := if x.pq then min 64 (4096 / max 1 x.m) else 64

/-- The extents to score: list, extent number, extent, queries. Lists go in ascending number. -/
def Index.listWork (x : Index) (ver : Version) (chosen : List (List Nat)) : List (Nat × Nat × ExtRef × List Nat) :=
  let ls := (List.range x.lists).filter fun l => chosen.any fun c => c.contains l
  (ls.map fun l =>
    let qs := (List.range chosen.length).filter fun q => (chosen.getD q []).contains l
    ((passes x.perJob 64 qs).map fun p => (Tab.get [] ver.lists l).zipIdx.map fun e => (l, e.2, e.1, p)).flatten).flatten

/-- The shared fields of a query's list jobs (R136, R141). `base`: HBM that the keeper uses for the command. -/
def Index.jobForm (x : Index) (tag index inst base npred n : Nat) : JobForm :=
  { tag := tag, ext := 3, bypass := 64 + 32 * b2n (npred == 0), flags := 1, recLen := x.recSize, key := 256 + index
    predAddr := if npred = 0 then 0 else base, npred := npred, queries := n
    dims := if x.pq then x.m else x.dims, metric := if x.pq then (if x.metric = 1 then 2 else 3) else x.metric, elem := x.elem
    idOff := 0, attrOff := if npred = 0 then 0xFFFF else 8, vecOff := 0x20, fb := inst, qaddr := base + 0x8000000, dest := inst }

/-- The page list of a list extent. Its LBAs number the sectors of the units themselves (log 12). -/
def State.extentPages (s : State) (e : ExtRef) : List (Bytes × Option (Bytes × Nat)) :=
  (e.units.zipIdx.map fun u => s.unitEntries u.1 0 s.part.unitSectors (u.1 * s.part.unitSectors)).flatten

/-- What S7 reads of a query: PQ tables, or the vector on its 64 B boundary. -/
def Index.blockQuery (x : Index) (t : Trained) (q : Bytes) : Bytes :=
  if x.pq then fitTo (512 * x.m) (x.tables t q) else fitTo ((x.v + 63) / 64 * 64) q

/-- A list job. -/
def State.listJob (s : State) (x : Index) (t : Trained) (tag index inst base : Nat) (d : Bytes) (no : Nat)
    (w : Nat × Nat × ExtRef × List Nat) : Nat × ChJob :=
  let (list, ext, e, qs) := w
  let ch := s.unitChannel (e.units.headD 0)
  let ps := s.extentPages e
  let desc := (x.jobForm tag index inst base (qiPreds d) qs.length).desc ch no (base + 0x6000000 + 64 * (no % 65536)) ps.length
    (e.units.headD 0 * s.part.unitSize) 0
  (ch, { desc := desc, inline := inlineOf ps, pages := ps.map (·.1), listRef := some ⟨index, list, ext⟩
         inBlock := some (qiBlock d, qs.map fun q => x.blockQuery t (x.query d q)), qmap := qs })

/-- An entry of the job table (R173). -/
def jobEntry (seq list : Nat) (qs : List Nat) : Bytes :=
  leBytes 8 seq ++ leBytes 4 list ++ leBytes 4 0 ++ fitTo 64 (qs.map byteOf)

/-- The mask stream's entries for the whole command, and its NaN scores. -/
def Index.maskStream (x : Index) (t : Trained) (d : Bytes) (l : List SideEntry) : List MergeEntry × Nat :=
  let r := (List.range (qiQueries d)).map fun i => x.sideScan t (qiBlock d) (qiPreds d) i (x.query d i) l
  ((r.map (·.1)).flatten, (r.map (·.2)).sum)

/-- Deliver the side-list scan to an instance; a sentinel with CLOSE ends it. -/
def State.deliver (s : State) (inst : Nat) (l : List MergeEntry) (source : Nat) : State :=
  let last : MergeEntry := { id := noId, side := true, close := true, source := source, span := source, scan := true }
  (l ++ [last]).foldl (fun s e => s.mergeArrive inst e) s

/-- Admit what a query still has to do. -/
def State.admitQuery (s : State) (key : Nat) : State :=
  match Tab.find s.index.queries key with
  | some q =>
    let (s, a, r) := admitTodo q.todo s
    s.modQuery key fun q => { q with todo := r, jobs := q.jobs ++ a }
  | none => s

/-- Start a query: the snapshot and version are taken, the coarse step and the side scan run, the merge is opened, and the list jobs
are admitted (R141, R148, R149). `key`: the request tag, or the number of a peer's query. -/
def State.openQuery (s : State) (key tag index : Nat) (x : Index) (t : Trained) (d : Bytes) (inst base : Nat) (shade : Bool)
    (shards : List Nat) (asker : Option (Nat × Nat)) : State :=
  let n := qiQueries d
  let ver := x.cur
  let cs := (List.range n).map fun i => x.coarse t ver (qiProbe d) (qiEf d) (x.query d i)
  let work := x.listWork ver (cs.map (·.1))
  let jobs := work.zipIdx.map fun w => s.listJob x t tag index inst base d w.2 w.1
  let side := visibleSide ver.seq x.lastCommit x.side
  let (ms, nan) := x.maskStream t d side
  let own := if asker.isSome || shards != [] then s.span.number else 0
  let m := leBytes 2 inst ++ leBytes 1 n ++ [2] ++ leBytes 2 (max (qiK d) (qiRerank d)) ++ leBytes 2 (1 + shards.length)
    ++ leBytes 4 jobs.length ++ leBytes 4 1048576 ++ leBytes 8 (base + 0x10000000) ++ leBytes 8 (base + 0x10000)
  let s := s.writeMem (base + 0x10000) ((work.map fun w => jobEntry ver.seq w.1 w.2.2.2).flatten)
  let s := s.modBorn x.born fun x => { x with
    queries := x.queries + n, shadeQueries := x.shadeQueries + (if shade then n else 0)
    candidates := x.candidates + ((ms.filter fun e => !e.mask).length + nan), nanScores := x.nanScores + nan
    staleEdges := x.staleEdges + (cs.map (·.2)).sum }
  let q : Query :=
    { index := index, born := x.born, snap := x.lastCommit, ver := ver.seq, inst := inst, input := d, shade := shade
      rerank := qiRerank d, shards := shards, sums := List.replicate n (0, 0, 0, false), asker := asker
      lists := cs.map (·.1), stale := cs.map (·.2), lost := List.replicate n 0, poisoned := List.replicate n false
      todo := jobs }
  let s := s.modIndex fun ix => { ix with queries := Tab.put ix.queries key q }
  let s := (s.openMerge m tag [] own).deliver inst (ms.map fun e => { e with span := own, source := own, scan := true }) own
  s.admitQuery key

/-! ## Progress -/

/-- A query fails: nothing further is admitted, and its running jobs are stopped. -/
def State.failQuery (s : State) (key st : Nat) : State :=
  match Tab.find s.index.queries key with
  | some q =>
    if q.failed.isSome then s
    else (s.modQuery key fun q => { q with failed := some st, todo := [], shards := [] }).abortJobs q.inst
  | none => s

/-- The query that an instance serves. -/
def State.queryOf (s : State) (inst : Nat) : Option (Nat × Query) := s.index.queries.find? fun x => x.2.inst == inst

/-- The keeper takes in the completion of a list job. -/
def State.queryProgress (s : State) (key : Nat) (j : ChJob) : State :=
  match Tab.find s.index.queries key with
  | some q =>
    let hit (i : Nat) : Bool := j.qmap.contains i
    let s := (s.stepTaken key j).modQuery key fun q => { q with
      jobs := q.jobs.filter fun k => k != j.jobNo
      lost := q.lost.zipIdx.map fun l => if hit l.2 then l.1 + j.lostRecs else l.1
      poisoned := q.poisoned.zipIdx.map fun p => p.1 || (hit p.2 && j.poisoned) }
    let s := s.modBorn q.born fun x => { x with
      candidates := x.candidates + j.passed * j.qmap.length, nanScores := x.nanScores + j.nan, lost := x.lost + j.lostRecs }
    if j.status ≠ St.ok then s.failQuery key j.status
    else if s.stopping key then s.failQuery key St.stopped
    else s.admitQuery key
  | none => s

/-- Nothing of the query is left to run on this module. -/
def Query.over (q : Query) : Bool := q.jobs == [] && q.todo == []

/-! ## The end (R142, R144, R145, R414) -/

/-- The FP32 value of a key (R160). -/
def f32OfKey (k : Nat) : Nat := if 0x80000000 ≤ k then k - 0x80000000 else 0xFFFFFFFF - k

/-- Bytes of a full-store slot (R136). -/
def Index.fullSlot (x : Index) : Nat := (x.f + 63) / 64 * 64

/-- A slot of the full store; none where a sector of it cannot be read. -/
def State.fullVector (s : State) (x : Index) (ref : Nat) : Option Bytes :=
  let per := 65536 / max 1 x.fullSlot
  let units := Tab.get [] x.fullUnits (ref / per)
  let off := ref % per * x.fullSlot
  let secs := (List.range ((off + x.f + 4095) / 4096 - off / 4096)).map fun i =>
    let k := off / 4096 + i
    match units[k / s.part.unitSectors]? with
    | some u => s.sector u (k % s.part.unitSectors)
    | none => ([], true)
  if secs.any (·.2) then none else some (((secs.map (·.1)).flatten.drop (off % 4096)).take x.f)

/-- The full vector of an entry: the side list's, or the slot its record names. -/
def State.fullOf (s : State) (x : Index) (q : Query) (e : MergeEntry) (unreadable : List Nat) : Option Bytes :=
  if unreadable.contains e.id then none
  else if e.side then
    ((visibleSide q.ver q.snap x.side).find? fun y => y.id == e.id && !y.delete).map (·.full)
  else
    match ((Tab.get [] (x.version q.ver).lists e.list).map (·.recs)).flatten.find? fun r => fieldAt r 0 8 == e.id with
    | some r => s.fullVector x (fieldAt r 0x18 8)
    | none => none

/-- Rerank a query's entries in FULL_ELEM (R142): the entries with their new keys, best first, how many could not be read, and
how many scores were NaN, which drop their entries (R124). -/
def State.rerankOf (s : State) (x : Index) (q : Query) (v : Bytes) (es : List MergeEntry) (unreadable : List Nat) :
    List MergeEntry × Nat × Nat :=
  let fv := x.full v
  let r := es.map fun e => (e, s.fullOf x q e unreadable)
  let scored := r.filterMap fun p => match p.2 with
    | some b => (scoreKey x.metric x.fullElem x.dims fv b).map fun k => { p.1 with key := k }
    | none => none
  let lost := (r.filter fun p => p.2.isNone).length
  (scored.foldr insertEntry [], lost, r.length - lost - scored.length)

/-- A query's group: header and K entries (R144). -/
def groupBytes (qn gflags k tie stale lists lost : Nat) (info : MergeEntry → Nat) (es : List MergeEntry) : Bytes :=
  leBytes 1 qn ++ leBytes 1 gflags ++ leBytes 2 es.length ++ leBytes 2 (min tie 65535) ++ leBytes 2 (min stale 65535)
    ++ leBytes 2 (min lists 65535) ++ leBytes 2 (min lost 65535) ++ leBytes 4 0
    ++ (es.map fun e => leBytes 8 e.id ++ leBytes 4 (f32OfKey e.key) ++ leBytes 4 (info e)).flatten
    ++ (List.replicate (k - es.length) (leBytes 8 noId ++ leBytes 4 0xFF800000 ++ leBytes 4 0)).flatten

/-- What the end of a query makes of one of its queries: entries best first, TIE_COUNT, LISTS, LOST, STALE_EDGES, POISONED. -/
structure GroupEnd where
  entries : List MergeEntry := []
  tie : Nat := 0
  lists : Nat := 0
  lost : Nat := 0
  stale : Nat := 0
  poisoned : Bool := false
  /-- Scores of its rerank that were NaN. -/
  nan : Nat := 0
deriving DecidableEq, Repr

/-- The end of one query of a command on this module. -/
def State.groupEnd (s : State) (x : Index) (q : Query) (m : Merge) (unreadable : List Nat) (i : Nat) : GroupEnd :=
  let (es, tie) := m.best i
  let (es, bad, nan) := if q.rerank = 0 then (es, 0, 0) else s.rerankOf x q (x.query q.input i) es unreadable
  let r := q.sums.getD i (0, 0, 0, false)
  { entries := es, tie := tie, lists := (q.lists.getD i []).length + r.1, lost := q.lost.getD i 0 + bad + r.2.1
    stale := q.stale.getD i 0 + r.2.2.1, poisoned := q.poisoned.getD i false || r.2.2.2, nan := nan }

/-- Entries of shards that have been reranked join in (R414); entries from different modules are resolved by key, then by span
number. -/
def withRemote (q : Query) (i : Nat) (es : List MergeEntry) : List MergeEntry :=
  (q.remote.filter fun e => e.query == i).foldl (fun l e =>
    match l.find? (·.meets e) with
    | some h => if e.beats h then insertEntry e (l.filter fun y => !y.meets e) else l
    | none => insertEntry e l) es

/-- What a shard reports beside its entries, by query: LISTS, LOST, STALE_EDGES (4 bytes each) and POISONED in 4 bytes (the model's
layout). -/
def shardSums (gs : List GroupEnd) : Bytes :=
  (gs.map fun g => leBytes 4 g.lists ++ leBytes 4 g.lost ++ leBytes 4 g.stale ++ leBytes 4 (b2n g.poisoned)).flatten

/-- A shard answers the peer that asked (R414): sums, then the best max(K, RERANK) entries per query, the last with CLOSE. -/
def State.shardAnswer (s : State) (peer msg own : Nat) (gs : List GroupEnd) : State :=
  let es := ((gs.zipIdx.map fun g => g.1.entries.map fun e =>
    { e with query := g.2, mask := false, source := own, seq := 0, close := false }).flatten)
    ++ [{ id := noId, source := own, close := true : MergeEntry }]
  s.spanReply peer msg clsQuery St.ok (leBytes 4 gs.length ++ shardSums gs ++ (es.map mergeEntryBytes).flatten)

/-- Write the groups of a command and end it (R144, R145). -/
def State.writeGroups (s : State) (tag : Nat) (q : Query) (gs : List GroupEnd) : State :=
  let k := qiK q.input
  let anyShort := gs.any fun g => decide (g.entries.length < k)
  let anyPoison := gs.any (·.poisoned)
  let info (e : MergeEntry) : Nat := e.list + 2 ^ 22 * b2n e.side + 2 ^ 23 * b2n (q.rerank != 0)
  let s := gs.zipIdx.foldl (fun s g =>
    let es := g.1.entries.take k
    let fl := b2n (decide (es.length < k)) + 2 * b2n g.1.poisoned + 4 * b2n q.shade
    s.emit tag (groupBytes g.2 fl k g.1.tie g.1.stale g.1.lists g.1.lost info es) k 16) s
  let s := if anyShort then s.flagResult tag 2 else s
  let s := if anyPoison then s.flagResult tag 4 else s
  let s := if q.shade then s.flagResult tag 1 else s
  s.vendorEnd tag St.ok

/-- The query leaves: its pins go, and what only it held is freed. -/
def State.dropQuery (s : State) (key : Nat) (q : Query) : State :=
  ((s.dropMerge q.inst).modIndex fun ix => { ix with queries := Tab.del ix.queries key }).trimBorn q.born

/-- A query ends without results (R145, R414). -/
def State.endFailed (s : State) (key st : Nat) (q : Query) : State :=
  let s := s.dropQuery key q
  match q.asker with
  | some (peer, msg) => s.spanReply peer msg clsQuery st []
  | none => s.vendorEnd key st

/-- A query whose jobs and streams have ended (R142, R144). `unreadable`: IDs whose full-store slot cannot be read. -/
def State.endQuery (s : State) (key : Nat) (q : Query) (m : Merge) (unreadable : List Nat) : State :=
  match s.ixBorn q.born with
  | some x =>
    let gs := (List.range (qiQueries q.input)).map (s.groupEnd x q m unreadable)
    let bad := (gs.map (·.lost)).sum - (q.lost.sum + (q.sums.map fun r => r.2.1).sum)
    let s := s.modBorn q.born fun x => { x with lost := x.lost + bad, nanScores := x.nanScores + (gs.map (·.nan)).sum }
    if qiFail q.input ∧ (gs.any (·.poisoned)) = true then s.endFailed key St.poisoned q
    else
      let s := s.dropQuery key q
      match q.asker with
      | some (peer, msg) => s.shardAnswer peer msg s.span.number gs
      | none => s.writeGroups key q (gs.zipIdx.map fun g => { g.1 with entries := withRemote q g.2 g.1.entries })
  | none => s

end Sys2Proof.Machine
end

