-- ==== Sys2Proof/Machine/FoldOps.lean ====
section
/-! DEFINITION. Folds (R147, R150-R152, R387): what the new version holds, where its extents lie, the switch. -/

namespace Sys2Proof.Machine

/-! ## Contents of the new version (R150, R152) -/

/-- A list record made of a side entry (R136). -/
def Index.record (x : Index) (e : SideEntry) (ref : Nat) : Bytes :=
  fitTo x.recSize (leBytes 8 e.id ++ fitTo 16 e.attr ++ leBytes 8 ref ++ fitTo x.v e.vec)

/-- The ID of a list record. -/
def recId (r : Bytes) : Nat := fieldAt r 0 8

/-- The vector of a record or a side entry in the stored form, as the coarse step scores it. -/
def Index.bf16 (x : Index) (t : Trained) (v : Bytes) : Bytes :=
  if x.pq then bf16Bytes ((rotationMat x.dims t.rotation).map (dotF32 (x.pqForm.decode t.books v))) else toBf16 x.elem x.dims v

/-- The nearest LIVE centroid for a vector of a DEAD list: among the list's LIVE neighbours, or among all LIVE centroids without a
graph (R152). With no LIVE neighbour it is the entry centroid. -/
def Index.nearestLive (x : Index) (t : Trained) (ver : Version) (dead : Nat) (v : Bytes) : Nat :=
  let live := if x.degree = 0 then ver.live x.lists
    else (Tab.get [] ver.edges dead).filter fun l => l != dead && !Tab.get false ver.dead l
  match bestLists 1 (live.map fun l => (l, rankOf x.metric x.dims v (t.centroids.getD l []))) with
  | b :: _ => b.1
  | [] => t.entry

/-- Records that cannot be read: those that touch an unreadable sector of their extent, all of them where its coded area touches one
(R137), and those the media gives up (`lost`, by ID). -/
def State.extentLost (s : State) (x : Index) (e : ExtRef) (lost : List Nat) : List Nat :=
  let us := s.part.unitSectors
  let bad (k : Nat) : Bool := match e.units[k / us]? with
    | some u => (s.sector u (k % us)).2
    | none => false
  let badSecs := (List.range 16).filter bad
  (e.recs.zipIdx.filter fun r =>
    let a := 256 + r.2 * x.recSize
    lost.contains (recId r.1) || badSecs.any fun k => if e.coded = 0 then
      decide (a < 4096 * k + 4096) && decide (4096 * k < a + x.recSize) else decide (4096 * k < 256 + e.coded)).map
      fun r => recId r.1

/-- What a fold is to write: records by list, of the affected lists; the dead lists; entries whose full vectors go to the full store,
with their slots. -/
structure FoldPlan where
  lists : List (Nat × List Bytes) := []
  dead : Tab Bool := []
  edges : Tab (List Nat) := []
  full : List (Nat × Bytes) := []
  /-- Records dropped as unreadable: list, extent number, how many. -/
  dropped : List (Nat × Nat × Nat) := []
deriving DecidableEq, Repr

/-- Records of all lists while a fold is planned. -/
abbrev ListRecs := Tab (List Bytes)

/-- Put a record at the end of a list. -/
def addRec (m : ListRecs) (l : Nat) (r : Bytes) : ListRecs := Tab.mod [] m l fun rs => rs ++ [r]

/-- The lists to retire (R152): LIVE lists other than the entry centroid's that hold fewer than `minList` records; at least one list
stays LIVE, the lowest-numbered one where all would go. -/
def Index.retirees (x : Index) (t : Trained) (m : ListRecs) (minList : Nat) : List Nat :=
  let live := x.cur.live x.lists
  let out := live.filter fun l => decide ((Tab.get [] m l).length < minList) && (x.degree == 0 || l != t.entry)
  if out.length < live.length then out else out.filter fun l => l != live.headD 0

/-- Edges of a holder after the repair (R152): each edge to a list that was DEAD before gives way to that list's LIVE neighbours,
nearest to the holder first, keeping DEGREE edges. -/
def Index.repair (x : Index) (t : Trained) (dead : Tab Bool) (h : Nat) (es : List Nat) : List Nat :=
  let gone := es.filter fun e => Tab.get false x.cur.dead e
  let keep := es.filter fun e => !Tab.get false x.cur.dead e
  let cand := ((gone.map fun g => Tab.get [] x.cur.edges g).flatten.dedup).filter fun c =>
    c != h && !Tab.get false dead c && !keep.contains c
  let rank (l : Nat) : Nat := rankOf x.metric x.dims (t.centroids.getD h []) (t.centroids.getD l [])
  keep ++ (bestLists (x.degree - keep.length) (cand.map fun l => (l, rank l))).map (·.1)

/-- Slots of the full store for new vectors: from the first extent number that holds nothing. -/
def Index.firstSlot (x : Index) : Nat :=
  match x.fullUnits.getLast? with
  | some e => (e.1 + 1) * (65536 / max 1 x.fullSlot)
  | none => 0

/-- The plan of a fold to F′ (R150 steps 1 to 3, R152). -/
def State.foldPlan (s : State) (x : Index) (t : Trained) (f : Fold) (lost : List Nat) : FoldPlan :=
  let side := visibleSide x.cur.seq f.to_ x.side
  let ids := side.map (·.id)
  let unread := (x.cur.lists.map fun l => l.2.zipIdx.map fun e => (l.1, e.2, s.extentLost x e.1 lost)).flatten
  let base0 : ListRecs := x.cur.lists.map fun l => (l.1, (l.2.map (·.recs)).flatten)
  let hitOld (r : Bytes) : Bool := ids.contains (recId r)
  let touched0 := (base0.filter fun l => l.2.any hitOld).map (·.1)
  let base : ListRecs := (base0.map fun l => (l.1, l.2.filter fun r => !hitOld r)).filter fun l => l.2 != []
  let ins := side.filter fun e => !e.delete
  let slot0 := x.firstSlot
  let placed := ins.zipIdx.map fun e =>
    let l := if Tab.get false x.cur.dead e.1.list then x.nearestLive t x.cur e.1.list (x.bf16 t e.1.vec) else e.1.list
    (l, x.record e.1 (if x.fullStore then slot0 + e.2 else 0))
  let isGone (lists : List Nat) (r : Bytes) : Bool :=
    (unread.any fun u => lists.contains u.1 && u.2.2.contains (recId r)) && !(ins.any fun e => e.id == recId r)
  let near := (touched0 ++ placed.map (·.1)).dedup
  let m := (placed.foldl (fun m p => addRec m p.1 p.2) base).map fun l =>
    if near.contains l.1 then (l.1, l.2.filter fun r => !isGone near r) else l
  let out := match f.minList with
    | some n => x.retirees t m n
    | none => []
  let dead := out.foldl (fun d l => Tab.set false d l true) x.cur.dead
  let ver' : Version := { x.cur with dead := dead }
  let moved := (out.map fun l => ((Tab.get [] m l).filter fun r => !isGone out r).map fun r => (x.nearestLive t ver' l (x.bf16 t ((r.drop 0x20).take x.v)), r)).flatten
  let m := moved.foldl (fun m p => addRec m p.1 p.2) (out.foldl (fun m l => Tab.del m l) m)
  let hit := (near ++ out ++ moved.map (·.1)).dedup
  let gone := (unread.filter fun u => hit.contains u.1)
  let old (l : Nat) : List Nat := ((Tab.get [] base0 l)).map recId
  { lists := (List.range x.lists).filterMap fun l => if hit.contains l then some (l, (Tab.get [] m l).filter fun r => !isGone hit r) else none
    dead := dead
    edges := x.cur.edges.map fun e => (e.1, x.repair t dead e.1 e.2)
    full := if x.fullStore then ins.zipIdx.map fun e => (slot0 + e.2, e.1.full) else []
    dropped := (gone.map fun u => (u.1, u.2.1, (u.2.2.filter fun i => (old u.1).contains i && !ids.contains i).length)).filter
      fun u => u.2.2 != 0 }

/-! ## Extents on flash (R137, R387) -/

/-- Cut records into extents. -/
def cutRecs (per : Nat) : Nat → List Bytes → List (List Bytes)
  | 0, _ => []
  | n + 1, l => if l = [] then [] else l.take per :: cutRecs per n (l.drop per)

/-- A record area coded as 1-byte elements in 32 × 32 tiles, the last filled with zeros (R137, R291). -/
def codedArea : Nat → Bytes → Bytes
  | 0, _ => []
  | n + 1, b => if b = [] then [] else ctEncode 1 (fitTo 1024 b) [] ++ codedArea n (b.drop 1024)

/-- The 64 KiB of a list extent; `area`: its record area, `coded`: CODED_BYTES. -/
def Index.extentBytes (x : Index) (index list ext fseq n coded : Nat) (area : Bytes) : Bytes :=
  fitTo 65536 (leBytes 4 1 ++ leBytes 1 index ++ leBytes 1 (b2n (coded != 0)) ++ leBytes 2 x.recSize ++ leBytes 4 list ++ leBytes 4 ext
    ++ leBytes 8 fseq ++ leBytes 4 n ++ leBytes 4 coded ++ List.replicate 224 0 ++ area)

/-- An extent to be written: the channel it belongs on (none for the full store), its contents, its list and records, CODED_BYTES. -/
structure NewExt where
  chan : Option Nat
  data : Bytes
  list : Nat := 0
  recs : List Bytes := []
  coded : Nat := 0
deriving DecidableEq, Repr

/-- How many of a list's records the next extent takes, and whether it is coded: with CT_LISTS as many as fit when coded, at most four
times the raw number, where they are no fewer than a raw extent takes (R137). -/
def Index.extentTakes (x : Index) (l : List Bytes) : Nat × Bool :=
  let per := 65280 / max 1 x.recSize
  let fits (n : Nat) : Bool := decide (min per l.length ≤ n) && decide (n ≤ l.length)
    && decide ((codedArea (n * x.recSize / 1024 + 1) (l.take n).flatten).length ≤ 65280)
  match (if x.ctLists then (List.range (4 * per + 1)).reverse.find? fits else none) with
  | some n => if n = 0 then (per, false) else (n, true)
  | none => (per, false)

/-- The extents of a list's records, from extent number `e` on. -/
def Index.listExtents (x : Index) (index list fseq : Nat) : Nat → Nat → List Bytes → List NewExt
  | 0, _, _ => []
  | fuel + 1, e, l =>
    if l = [] then [] else
    let (n, ct) := x.extentTakes l
    let recs := l.take n
    let area := if ct then codedArea (n * x.recSize / 1024 + 1) recs.flatten else recs.flatten
    let coded := if ct then area.length else 0
    { chan := some ((list + e) % 32), data := x.extentBytes index list e fseq recs.length coded area, list := list, recs := recs
      coded := coded } :: x.listExtents index list fseq fuel (e + 1) (l.drop n)

/-- The extents of a plan: those of the lists, then those of the full store. -/
def Index.newExtents (x : Index) (index : Nat) (f : Fold) (p : FoldPlan) : List NewExt :=
  let lists := (p.lists.map fun l => x.listExtents index l.1 f.to_ (l.2.length + 1) 0 l.2).flatten
  let perF := 65536 / max 1 x.fullSlot
  let fulls := (cutRecs perF (p.full.length + 1) (p.full.map fun v => fitTo x.fullSlot v.2)).map fun e =>
    ({ chan := none, data := fitTo 65536 e.flatten } : NewExt)
  lists ++ fulls

/-- Erase units of a channel. -/
def euPerChannel : Nat := 116480

/-- Has a channel no erase unit that could take a unit? -/
def State.chanFull (s : State) (ch : Nat) : Bool :=
  let mine := s.ftl.eus.filter fun e => s.part.euChannel e.1 == ch
  decide (euPerChannel ≤ mine.length) && mine.all fun e => match e.2 with
    | .opened n _ => decide (1152 ≤ n)
    | _ => true

/-- Is the placement of an extent on channel `c` the one R387 asks for? -/
def State.rightChannel (s : State) (want : Option Nat) (c : Nat) : Bool :=
  match want with
  | none => true
  | some w => (List.range ((c + 32 - w) % 32)).all fun i => s.chanFull ((w + i) % 32)

/-- Units of an index's reservation that nothing names, lowest first: as many as are asked for. -/
def State.freeIndexUnits (s : State) (x : Index) (n : Nat) : List Nat :=
  let held := x.unitsHeld
  (((s.ftl.units (.index x.born)).map fun r => (List.range (min r.2 (n + held.length))).map (r.1 + ·)).flatten.filter fun u =>
    !held.contains u).take n

/-- Write extents, each unit into the erase unit that the operand gives: the state, the extents as they lie, how many are displaced;
none where the erase units given are not those that R387 allows. -/
def placeExtents : List NewExt → List Nat → List Nat → State → Option (State × List (NewExt × List Nat) × Nat)
  | [], _, _, s => some (s, [], 0)
  | e :: l, us, eus, s =>
    let n := 65536 / s.part.unitSize
    let mine := us.take n
    let es := eus.take n
    let c := s.part.euChannel (es.headD 0)
    if es.length = n ∧ (es.all fun k => s.part.euChannel k == c) = true ∧ s.rightChannel e.chan c = true ∧ canPlace false es s = true then
      let ds := mine.zipIdx.map fun u => (u.1, ((e.data.drop (u.2 * s.part.unitSize)).take s.part.unitSize, 0))
      let s := s.commitTogether 1 ds es
      match placeExtents l (us.drop n) (eus.drop n) s with
      | some (s, r, d) => some (s, (e, mine) :: r, d + (match e.chan with
        | some w => b2n (w != c)
        | none => 0))
      | none => none
    else none

/-- The version that a fold leaves. -/
def Index.nextVersion (x : Index) (f : Fold) (p : FoldPlan) (placed : List (NewExt × List Nat)) : Version :=
  let mine (l : Nat) : List ExtRef :=
    (placed.filter fun e => e.1.chan.isSome && e.1.list == l).map fun e => { units := e.2, recs := e.1.recs, coded := e.1.coded }
  { seq := f.to_, dead := p.dead, edges := p.edges
    lists := p.lists.foldl (fun t l => Tab.set [] t l.1 (mine l.1)) x.cur.lists }

/-- A fold ends with ST_NO_SPACE: the old version stands (R150). -/
def State.foldNoSpace (s : State) (i : Nat) (f : Fold) : State :=
  let s := s.modIx i fun x => { x with fold := none, foldStuck := true }
  match f.op with
  | some op => s.opDone op St.noSpace
  | none => s

/-- The records that a fold dropped are reported, list by list (R145). -/
def reportDropped (index : Nat) : List (Nat × Nat × Nat) → State → State
  | [], s => s
  | d :: l, s => reportDropped index l (s.report .hd
      { cls := .indexUnreadable, source := index, partner := partnerHd, addr := d.1 * 2 ^ 32 + d.2.1 })

/-- The root record of a version goes to the copy that the current version does not use (R150 step 4). -/
def Index.writeRoot (x : Index) (f : Nat) : Index :=
  if x.root0 = some x.cur.seq then { x with root1 := some f } else { x with root0 := some f }

/-- The switch (R150 steps 4 to 6). -/
def State.foldSwitch (s : State) (i : Nat) (x : Index) (t : Trained) (f : Fold) (eus lost : List Nat) : State :=
  let p := s.foldPlan x t f lost
  let new := x.newExtents i f p
  let need := new.length * (65536 / s.part.unitSize)
  let units := s.freeIndexUnits x need
  if units.length < need ∨ (ixF x 0x18 8 = 0 ∧ (visibleSide x.cur.seq f.to_ x.side) ≠ []) then s.foldNoSpace i f
  else match placeExtents new units eus s with
    | none => s
    | some (s, placed, displaced) =>
      let ver := x.nextVersion f p placed
      let fulls := (placed.filter fun e => e.1.chan.isNone).map (·.2)
      let e0 := x.firstSlot / (65536 / max 1 x.fullSlot)
      let s := s.modIx i fun x => { x.writeRoot f.to_ with
        cur := ver, old := x.cur :: x.old, fold := none, foldStuck := false, folds := x.folds + 1, displaced := x.displaced + displaced
        fullUnits := fulls.zipIdx.foldl (fun t u => Tab.put t (e0 + u.2) u.1) x.fullUnits
        droppedUnreadable := x.droppedUnreadable + (p.dropped.map fun d => d.2.2).sum }
      let s := reportDropped i p.dropped s
      let s := match f.op with
        | some op => s.opDone op St.ok
        | none => s
      (s.trimBorn x.born).autoFold i

end Sys2Proof.Machine
end

