-- ==== Sys2Proof/Machine/Storage.lean ====
section
/-! DEFINITION. The storage commands (R385 to R391, R397 to R399), the translation layer's own work (R385, R389, R392, R393), the
health record (R402, R403), namespaces and log pages (R54, R57). -/

namespace Sys2Proof.Machine

/-! ## Read, Verify, Write -/

/-- READ (R391): `lost`, `retried`: LBAs of which no read decodes, or only a retry does; `dst`: the host address of each sector. -/
def execRead (tag : Nat) (lost retried dst : List Nat) (s : State) : Out :=
  .next (s.ioRow tag 0x02 false true fun t s =>
    match s.readLbas t tag lost retried with
    | (s, some d) =>
      let s := s.modFtl fun f => { f with readBytes := f.readBytes + t.sqe.nlb * 4096, readCmds := f.readCmds + 1 }
      ((scatter dst d s).completeOk tag).reply (.data d.flatten)
    | (s, none) => s.readFails tag)

/-- VERIFY (R64, R391). -/
def execVerify (tag : Nat) (lost retried : List Nat) (s : State) : Out :=
  .next (s.ioRow tag 0x0C false false fun t s =>
    match s.readLbas t tag lost retried with
    | (s, some _) => s.completeOk tag
    | (s, none) => s.readFails tag)

/-- Is a unit of an LBA range still to be programmed? With a weak hold-up bank no Write completes before (R444). -/
def State.anyBuffered (s : State) (nsid slba nlb : Nat) : Bool :=
  (List.range nlb).any fun k => match s.lbaPlace nsid (slba + k) with
    | some (u, _) => Tab.has s.ftl.buf (s.ftl.slot u)
    | none => false

/-- WRITE (R385, R386): the named granules are committed, each unit in the next erase unit of `eus`; the command completes when all
its granules are committed. `lost`: LBAs of merged units that cannot be decoded. -/
def execWrite (tag : Nat) (data : Bytes) (granules eus lost : List Nat) (s : State) : Out :=
  .next (s.ioRow tag 0x01 true true fun t s =>
    let e := t.sqe
    if s.windowsFull e.nsid false [(e.slba * 4096, (e.slba + e.nlb) * 4096)] then s.windowWait tag
    else
      let src (lba : Nat) : Bytes := (data.drop (4096 * (lba - e.slba))).take 4096
      let s := commitGranules tag e.nsid e.slba e.nlb src lost granules eus s
      if s.allCommitted tag e.slba e.nlb then
        (if s.power.holdupWeak && s.anyBuffered e.nsid e.slba e.nlb then s else s.writeDone tag e.nsid e.slba e.nlb)
      else if s.ftl.exhausted then (s.modFtl fun f => { f with partials := Tab.del f.partials tag }).writeFails tag
      else s)

/-- WRITE_ZEROES (R397). It waits where a partly covered unit cannot be placed. -/
def execWriteZeroes (tag : Nat) (eus lost : List Nat) (s : State) : Out :=
  .next (s.ioRow tag 0x08 true false fun t s =>
    let e := t.sqe
    if s.windowsFull e.nsid false [(e.slba * 4096, (e.slba + e.nlb) * 4096)] then s.windowWait tag
    else match s.zeroRange e.nsid e.slba e.nlb lost eus with
      | some (s, _) =>
        let s := s.modFtl fun f => { f with partials := Tab.del f.partials tag, writeCmds := f.writeCmds + 1 }
        (s.completeOk tag).markRange e.nsid (e.slba * 4096) ((e.slba + e.nlb) * 4096)
      | none => if s.ftl.exhausted then s.writeFails tag else s)

/-! ## Deallocation (R397, R398) -/

/-- Deallocate (AD) of CDW11. -/
def dsmAd (e : Sqe) : Bool := bit e.cdw11 2
/-- SECURE of CDW13 (R398). -/
def dsmSecure (e : Sqe) : Bool := bit e.cdw13 14

/-- Run a started Dataset Management command: its checks, then its effect on its ranges. -/
def State.dsmRow (s : State) (tag : Nat) (secure : Bool) (data : Bytes) (f : Trk → List (Nat × Nat) → State → State) : State :=
  match s.startedAs tag 0x09 with
  | some t =>
    if s.ftl.sanitizer.isSome then s.completeSanitizing tag
    else match s.ioCheck t true with
      | some (st, c) => s.completeErr tag st c
      | none =>
        let l := dsmRanges t.sqe data
        if dsmSecure t.sqe && !dsmAd t.sqe then s.completeErr tag .invalidField St.unsupported
        else if s.rangesOut t.sqe.nsid l then s.completeErr tag .lbaOutOfRange St.idRange
        else if dsmSecure t.sqe = secure then f t l s else s
  | none => s

/-- DATASET_MANAGEMENT (R397): without Deallocate the attributes are hints. -/
def execDatasetManagement (tag : Nat) (data : Bytes) (eus lost : List Nat) (s : State) : Out :=
  .next (s.dsmRow tag false data fun t l s =>
    if dsmAd t.sqe then
      if s.windowsFull t.sqe.nsid true (byteRanges l) then s.windowWait tag
      else match zeroRanges t.sqe.nsid lost l eus s with
      | some s => unmarkRanges t.sqe.nsid l (s.completeOk tag)
      | none => if s.ftl.exhausted then s.writeFails tag else s
    else s.completeOk tag)

/-- SECURE_DISCARD (R398): it completes when no erase unit holds a copy any more; until then its row comes again. `bad`: erase
units whose erase fails. -/
def execSecureDiscard (tag : Nat) (data : Bytes) (eus lost bad : List Nat) (s : State) : Out :=
  .next (s.dsmRow tag true data fun t l s =>
    if s.windowsFull t.sqe.nsid true (byteRanges l) then s.windowWait tag
    else match s.secureDiscard tag t.sqe.nsid l lost eus bad with
    | (s, true) => unmarkRanges t.sqe.nsid l (s.completeOk tag)
    | (s, false) => s)

/-! ## Namespaces (R54, R399) -/

/-- The lowest NSID not in use. -/
def HostSide.freeNsid (h : HostSide) : Option Nat := ((List.range 128).map (· + 1)).find? fun n => !Tab.has h.ns n

/-- Unmap and release everything a namespace holds. -/
def State.dropUnits (s : State) (o : SpaceOwner) : State :=
  let runs := s.ftl.units o
  s.modFtl fun f =>
    let f := f.unmapRuns runs
    { f with buf := f.buf.filter fun b => !inRuns runs b.2.unit, space := f.space.filter fun r => r.owner != o }

/-- The sectors of the boot flash that held an old key are erased: the older copy of the key slots is left half-erased (R477). -/
def Sec.wipeOldKeys (x : Sec) : Sec :=
  if x.keys0.seq < x.keys1.seq then { x with keys0 := if x.keys0 = .blank then .blank else .bad }
  else { x with keys1 := if x.keys1 = .blank then .blank else .bad }

/-- A fresh key for a KEY_SLOT (R476). -/
def State.drawKey (s : State) (slot : Nat) : State :=
  (s.modSec fun x => x.putKeys (Tab.put x.keys slot (Config.random s.free))).used

/-- Create a namespace of `nsze` LBAs (R54, R69). -/
def admCreateNs (nsze ncap : Nat) : Admin := fun s =>
  let units := (nsze + s.part.unitSectors - 1) / s.part.unitSectors
  match s.host.freeNsid with
  | none => Admin.refuse .nsIdUnavailable St.noSpace s
  | some n =>
    if nsze = 0 ∨ nsze ≠ ncap then Admin.refuse .invalidField St.unsupported s
    else match s.ftl.alloc (.ns n) units with
      | none => Admin.refuse .nsInsufficient St.noSpace s
      | some f =>
        ((({ s with ftl := f }).modHost fun h => { h with ns := Tab.put h.ns n { size := nsze } }).drawKey n, { dw0 := n }, [])

/-- Delete a namespace (R54): its units, its key and its binding go. -/
def admDeleteNs (e : Sqe) : Admin := fun s =>
  if e.nsid = 0 ∨ 128 < e.nsid then Admin.refuse .invalidNamespace St.idRange s
  else if Tab.has s.host.ns e.nsid then
    let s := s.eraseBound e.nsid
    let s := s.modIndex fun x => { x with bindings := Tab.del x.bindings e.nsid }
    let s := s.dropUnits (.ns e.nsid)
    ((s.modHost fun h => { h with ns := Tab.del h.ns e.nsid }).modSec fun x => x.putKeys (Tab.del x.keys e.nsid), {}, [])
  else Admin.refuse .invalidNamespace St.noObject s

/-- NAMESPACE_MANAGEMENT: NSZE and NCAP of the data. -/
def execNamespaceManagement (fn : Fin 2) (e : Sqe) (nsze ncap : Nat) (s : State) : Out :=
  .next (s.admin fn e (match bits e.cdw10 0 4 with
    | 0 => admCreateNs nsze ncap
    | 1 => admDeleteNs e
    | _ => Admin.refuse .invalidField St.unsupported))

/-- A crypto erase of a namespace (R400, R477): a fresh key, and its units are unmapped. -/
def State.cryptoErase (s : State) (n : Nat) : State :=
  let s := ((s.drawKey n).modSec Sec.wipeOldKeys).eraseBound n
  let runs := s.ftl.units (.ns n)
  s.modFtl fun f => { (f.unmapRuns runs) with buf := f.buf.filter fun b => !inRuns runs b.2.unit }

/-- The name under which a Format's secure discard runs. -/
def formatKey (fn : Nat) (e : Sqe) : Nat := 2 ^ 20 + fn * 65536 + e.cid % 65536

/-- Does a secure discard of this name go on? -/
def State.discardOpen (s : State) (key : Nat) : Bool := match s.ftl.discard with
  | some d => d.1 == key
  | none => false

/-- FORMAT_NVM (R399) by SES. A secure discard whose erasures wait for pinned erase units goes on when the row comes again. -/
def execFormatNvm (fn : Fin 2) (e : Sqe) (eus bad : List Nat) (s : State) : Out :=
  let all : List (Nat × Nat) := [(0, s.nsSize e.nsid)]
  let refused : Option (NvStatus × Nat) := match s.nsRefusal fn e.nsid with
    | some x => some x
    | none =>
      if bits e.cdw10 0 9 ≠ 0 ∨ 2 < bits e.cdw10 9 3 ∨ (bits e.cdw10 9 3 = 2 ∧ s.cap 15 = false) then
        some (.invalidField, St.unsupported)
      else none
  .next (match refused with
    | some (st, c) => s.admin fn e (Admin.refuse st c)
    | none =>
      if !(s.adminServes fn || (s.ctrlServes fn && s.discardOpen (formatKey fn e))) then s else
      match bits e.cdw10 9 3 with
      | 0 => s.admin fn e fun s =>
        let s := s.modFtl fun f => f.unmapRuns (f.units (.ns e.nsid))
        (unmarkRanges e.nsid all s, {}, [])
      | 1 =>
        match s.secureDiscard (formatKey fn e) e.nsid all [] eus bad with
        | (s, true) => s.admin fn e fun s => (unmarkRanges e.nsid all s, {}, [])
        | (s, false) => s
      | _ => s.admin fn e fun s => (s.cryptoErase e.nsid, {}, []))

/-! ## Log pages (R57) -/

/-- Get Log Page: NUMD dwords from an offset. -/
def admGetLogPage (fn : Nat) (e : Sqe) : Admin := fun s =>
  match s.logPage fn (bits e.cdw10 0 8) with
  | some b =>
    let n := 4 * (bits e.cdw10 16 16 + 65536 * bits e.cdw11 0 16 + 1)
    let off := bits e.cdw12 0 32 + 2 ^ 32 * bits e.cdw13 0 32
    if b.length < off then Admin.refuse .invalidField St.unsupported s
    else (s.used, {}, (b.drop off).take n)
  | none => Admin.refuse .invalidField St.unsupported s

/-- GET_LOG_PAGE. -/
def execGetLogPage (fn : Fin 2) (e : Sqe) (s : State) : Out := .next (s.admin fn e (admGetLogPage fn e))

/-! ## The translation layer's own work -/

/-- Slots of the next wordline group of an open erase unit, once all three have been given. -/
def Ftl.nextGroup (f : Ftl) (eu : Nat) : Option (List Nat) :=
  match f.eu eu with
  | .opened n p => if p + 3 ≤ n then some ((List.range 3).map (eu * 1152 + p + ·)) else none
  | _ => none

/-- What a slot's pages are programmed with: its buffered copy, or filler where that was dropped. -/
def State.slotCopy (s : State) (k : Nat) : BufUnit :=
  match Tab.find s.ftl.buf k with
  | some b => b
  | none => { unit := 0xFFFFFFFF, data := List.replicate s.part.unitSize 0 }

/-- Units of a group that hosts wrote. -/
def State.hostUnits (s : State) (g : List Nat) : Nat := (g.filter fun k => (s.slotCopy k).kind == 0 && Tab.has s.ftl.buf k).length

/-- A program of a wordline group passes (R385). -/
def State.programGroup (s : State) (eu : Nat) (g : List Nat) : State :=
  let n := s.hostUnits g
  let paced := decide (s.ftl.freeEus < 65536)
  let s := g.foldl (fun s k => s.programUnit k (s.slotCopy k)) s
  let s := s.modFtl fun f => ({ f with
    buf := f.buf.filter fun b => !g.contains b.1, mediaBytes := f.mediaBytes + 3 * s.part.unitSize
    credit := if paced then f.credit - n else 0 } : Ftl).tie (g.filterMap fun k => (Tab.find f.buf k).map fun b => ⟨b.unit, k, b.was, b.group⟩)
  match s.ftl.eu eu with
  | .opened m p => (s.setWps eu (p + 3)).modFtl fun f => f.advanceEu eu m (p + 3)
  | _ => s

/-- A program fails (R396): the group's pages are undefined; its units and the erase unit's other valid units are written elsewhere,
and the erase unit is retired. -/
def State.programFails (s : State) (eu : Nat) (g eus : List Nat) : State :=
  let valid := s.ftl.validUnits eu
  let n := valid.length
  if n ≤ eus.length ∧ ¬(eus.take n).contains eu ∧ canPlace true (eus.take n) s = true then
    let s := relocate valid (eus.take n) s
    let s := s.modFtl fun f => { f with programFails := f.programFails + 1, buf := f.buf.filter fun b => euOf b.1 != eu }
    let ch := s.part.euChannel eu
    let s := undefPages ch (g.flatMap s.part.slotPages) s
    (s.setWps eu 1152).retireEu eu 1
  else s

/-- WRITE_BUFFER_PROGRAM (R385, R392, R396): the next wordline group of an open erase unit is programmed. While the free pool is
below 65,536, each unit a host wrote waits for one that collection has freed. -/
def execWriteBufferProgram (eu : Nat) (ok : Bool) (eus : List Nat) (s : State) : Out :=
  .next (match s.ftl.nextGroup eu with
    | some g =>
      if !s.serving || s.media.hold || s.media.flush then s
      else if s.ftl.freeEus < 65536 ∧ s.ftl.credit < s.hostUnits g then s
      else if ok then s.programGroup eu g
      else s.programFails eu g eus
    | none => s)

/-- The victim of R392: the closed, unpinned erase unit with the fewest valid units; among equals the one that closed first. -/
def State.isVictim (s : State) (eu : Nat) : Bool :=
  let f := s.ftl
  match f.eu eu with
  | .closed q =>
    let n := f.valid eu
    !s.pinned eu && f.eus.all fun x => match x.2 with
      | .closed r => s.pinned x.1 || decide (n < f.valid x.1) || (f.valid x.1 == n && decide (q ≤ r))
      | _ => true
  | _ => false

/-- Units of an index stay on their channel (R387). -/
def State.channelKept (s : State) (eu : Nat) (valid : List (Nat × Nat)) (eus : List Nat) : Bool :=
  (valid.zip eus).all fun x =>
    s.part.euChannel x.2 == s.part.euChannel eu || !(s.ftl.space.any fun r => match r.owner with
      | .index _ => decide (r.start ≤ x.1.1) && decide (x.1.1 < r.start + r.count)
      | _ => false)

/-- GARBAGE_COLLECTION (R392 to R394): the victim's valid units are relocated into `eus`, and the victim is erased. An erase unit that
is to be retired is emptied in the same way and then retired (R396, R437). -/
def execGarbageCollection (victim : Nat) (eus : List Nat) (ok : Bool) (s : State) : Out :=
  let valid := s.ftl.validUnits victim
  let n := valid.length
  let free := s.serving ∧ s.media.hold = false ∧ s.media.flush = false ∧ n ≤ eus.length ∧ ¬(eus.take n).contains victim
    ∧ s.channelKept victim valid eus = true
  match s.ftl.eu victim with
  | .failed aux => .next (if free ∧ s.pinned victim = false ∧ canPlace true (eus.take n) s = true then
      let s := relocate valid (eus.take n) s
      ((s.modFtl fun f => { f with buf := f.buf.filter fun b => euOf b.1 != victim }).setWps victim 1152).retireEu victim aux
    else s)
  | _ =>
  .next (if free ∧ s.ftl.freeEus < 98304 ∧ s.isVictim victim = true ∧ s.ftl.holdsOld victim = false ∧ canPlace false (eus.take n) s = true then
    let s := (relocate valid (eus.take n) s).eraseEu victim ok
    s.modFtl fun f => { f with credit := f.credit + (1152 - n) }
    else s)

/-- JSEQ of a journal entry. -/
def entryJseq (b : Bytes) : Nat := fieldAt b 0 6

/-- MAP_CHECKPOINT (R389): a 64 MiB chunk of the map is written; entries before the oldest chunk in force are no longer needed. -/
def execMapCheckpoint (chunk : Fin 256) (s : State) : Out :=
  .next (if s.serving then
    s.modFtl fun f =>
      let f := f.log 4 1 (chunk * 2 ^ 24) [chunk]
      let f := { f with checkpoints := Tab.set 0 f.checkpoints chunk f.jseq }
      let low := (List.range 256).foldl (fun m k => min m (Tab.get 0 f.checkpoints k)) f.jseq
      { f with journal := f.journal.filter fun b => decide (low ≤ entryJseq b) }
    else s)

/-! ## Health (R402, R403) -/

/-- Bin of TEMP_HIST. -/
def tempBin (t : Int) : Nat := if t < 0 then 0 else if 70 ≤ t then 15 else t.toNat / 5 + 1

/-- FLASH_TEMP_POLL (R402): the flash package sensors, once a minute. -/
def execFlashTempPoll (temps : List Int) (s : State) : Out :=
  .next (match temps with
    | [] => s
    | t :: l =>
      if !s.serving then s else
      let hot := l.foldl max t
      let low := l.foldl min t
      let s := s.modFtl fun f => { f with
        tempHist := Tab.mod 0 f.tempHist (tempBin hot) (· + 1)
        critMinutes := f.critMinutes + b2n (decide (80 ≤ hot))
        tempMin := some (min low (f.tempMin.getD low)), tempMax := some (max hot (f.tempMax.getD hot)) }
      let s := s.modMgmt fun m => { m with flashTemps := temps.zipIdx.map fun x => (x.2, x.1) }
      -- a reading across a threshold of R452 is FLASH_TEMP_CROSSING's
      let band (t : Int) : List Bool := [70, 76, 80].map fun k => decide (k ≤ t)
      s.modPower fun p => { p with tFlash := if band hot = band p.tFlash then hot else p.tFlash })

/-- PE_RATE_BUCKET (R403): an hour of power-on time has passed; LIFE_DAYS is projected again. -/
def execPeRateBucket (s : State) : Out :=
  .next (if s.serving then
    let s := s.modFtl fun f => { f with buckets := (f.peAvg :: f.buckets).take 169, powerHours := f.powerHours + 1 }
    let short := match s.ftl.lifeDays with
      | some d => decide (d < 180)
      | none => false
    let was := s.ftl.lifeShort
    let s := s.modFtl fun f => { f with lifeShort := short }
    (if short && !was then s.post 0x05 4 [] else s).healthCheck
    else s)

end Sys2Proof.Machine
end

