-- ==== Sys2Proof/Machine/Index.lean ====
section
/-! DEFINITION. The commands of the vector index (spec/06). -/

namespace Sys2Proof.Machine

/-! ## Queries -/

/-- Send a query to the other shards (R414). The message names the index in 4 bytes before the input buffer (the model's layout). -/
def fanOut (key index : Nat) (d : Bytes) : List Nat → State → State
  | [], s => s
  | p :: l, s => fanOut key index d l (s.spanSend p clsQuery (leBytes 4 index ++ d) (.query key)).2

/-- A trained index that commands may name (R135, R157). -/
def State.usable (s : State) (i : Nat) : Option (Index × Trained) :=
  match s.ix i with
  | some x => x.trained.map fun t => (x, t)
  | none => none

/-- INDEX_QUERY (R140, R141, R148). `d`: the input; `inst`, `base`: the merge unit's number and the HBM that the keeper uses;
`miss`: the deadline monitor predicts a miss (R143). -/
def execIndexQuery (tag : Nat) (d : Bytes) (inst base : Nat) (miss : Bool) (s : State) : Out :=
  .next (s.vendorRow tag 0x83 (fun _ => false) fun t s =>
    let i := t.sqe.object
    match s.usable i with
    | none => s.vendorRefuse tag St.noObject
    | some (x, tr) =>
      match x.queryCheck d t.sqe.inLen t.sqe.resLen with
      | some st => s.vendorRefuse tag st
      | none =>
        let shards := (s.span.shardsOf i).getD []
        match shards.find? fun p => !(s.peer p).live with
        | some p => s.vendorRefuse tag (s.peer p).failSt
        | none =>
          if 4095 < inst ∨ Tab.has s.sel.merges inst = true then s
          else
            let late := decide (t.sqe.deadline < s.hdCount - t.fetchCount)
            let shade := decide (qiShade d ≠ 0) && decide (t.sqe.deadline ≠ 0) && (miss || late)
            let d := if shade then qiShaded d else d
            let s := (s.admitTag tag).openResult tag x.lastCommit
            fanOut tag i d shards (s.openQuery tag tag i x tr d inst base shade shards none))

/-! ## Inserts and deletes (R146, R147) -/

/-- The side entries of an insert. -/
def Index.insertEntries (x : Index) (t : Trained) (n : Nat) (d : Bytes) : List SideEntry :=
  (List.range n).map fun i =>
    let e := (d.drop (i * x.insertSize)).take x.insertSize
    let v := (e.drop 0x18).take x.d
    { id := fieldAt e 0 8, attr := (e.drop 8).take 16, list := x.assign t v, vec := x.store t v, full := x.full v }

/-- The side entries of a delete (log 32). -/
def Index.deleteEntries (x : Index) (n : Nat) (d : Bytes) : List SideEntry :=
  (List.range n).map fun i => { delete := true, id := fieldAt d (8 * i) 8, list := x.listOf (fieldAt d (8 * i) 8) }

/-- Is a padding byte of an insert entry set? -/
def Index.padSet (x : Index) (n : Nat) (d : Bytes) : Bool :=
  (List.range n).any fun i => ((d.drop (i * x.insertSize + 0x18 + x.d)).take (x.insertSize - 0x18 - x.d)).any (· != 0)

/-- Entries of an INDEX_INSERT or INDEX_DELETE (CMD_DW). -/
def writeCount (e : Sqe) : Nat := e.cmdDw % 65536 + 1

/-- The checks of an insert or delete at admission (R133, R146, R147). An insert that would take the index past 2^36 vectors (R22, R131)
is refused with ST_NO_SPACE: no rule gives the code (DESIGN CHOICE, log 90). -/
def State.writeCheck (s : State) (x : Index) (e : Sqe) (d : Bytes) : Option Nat :=
  let n := writeCount e
  let ins := e.opc == 0x85
  if e.inLen ≠ n * (if ins then x.insertSize else 8) then some St.badLength
  else if ins && x.padSet n d then some St.reservedField
  else if ins && (List.range n).any (fun i => fieldAt d (i * x.insertSize) 8 == noId) then some St.idRange
  else if s.ftl.readOnly then some St.readOnly
  else if x.sideCap < n ∨ (ins && !x.vectorRoom n) = true then some St.noSpace
  else none

/-- Commit an insert or delete and complete it (R76, R146). -/
def State.commitWrite (s : State) (tag i : Nat) (x : Index) (t : Trained) (e : Sqe) (d : Bytes) : State :=
  let n := writeCount e
  let seq := x.lastCommit + n
  (s.commitEntries i (if e.opc = 0x85 then x.insertEntries t n d else x.deleteEntries n d)).vendorEndWith tag St.ok
    (seq % 2 ^ 32) (seq / 2 ^ 32)

/-- An insert or delete: checked, then committed or left to wait for room. -/
def indexWrite (tag opc : Nat) (d : Bytes) (s : State) : State :=
  s.vendorRow tag opc (fun _ => false) fun k s =>
    match s.usable k.sqe.object with
    | none => s.vendorRefuse tag St.noObject
    | some (x, t) =>
      match s.writeCheck x k.sqe d with
      | some st => s.vendorRefuse tag st
      | none =>
        if x.room (writeCount k.sqe) then (s.admitTag tag).commitWrite tag k.sqe.object x t k.sqe d
        else (s.admitTag tag).modIx k.sqe.object fun x => { x with waiting := x.waiting ++ [(tag, d)], insertWaits := x.insertWaits + 1 }

/-- INDEX_INSERT. -/
def execIndexInsert (tag : Nat) (d : Bytes) (s : State) : Out := .next (indexWrite tag 0x85 d s)
/-- INDEX_DELETE. -/
def execIndexDelete (tag : Nat) (d : Bytes) (s : State) : Out := .next (indexWrite tag 0x89 d s)

/-- A waiting insert or delete leaves the wait. -/
def State.unwait (s : State) (i tag : Nat) : State :=
  s.modIx i fun x => { x with waiting := x.waiting.filter fun w => w.1 != tag }

/-- INDEX_WRITE_ROOM (R147): a waiting insert or delete finds room, or fails. One that is to stop has not started (R67). -/
def execIndexWriteRoom (tag : Nat) (s : State) : Out :=
  .next (match s.trk tag with
    | some k =>
      let i := k.sqe.object
      match s.usable i with
      | some (x, t) =>
        match x.waiting.find? fun w => w.1 == tag with
        | some w =>
          if s.stopping tag then (s.unwait i tag).complete tag { status := .abortedSqDeletion, dw0 := St.stopped, dw1 := tag }
          else if s.ftl.readOnly then (s.unwait i tag).vendorEnd tag St.readOnly
          else if x.room (writeCount k.sqe) then (s.unwait i tag).commitWrite tag i x t k.sqe w.2
          else if x.foldStuck then (s.unwait i tag).vendorEnd tag St.noSpace
          else s
        | none => s
      | none => s
    | none => s)

/-! ## INDEX_CREATE and INDEX_DROP (R134, R135, R157) -/

/-- The refusal of INDEX_CREATE (R134, R135). -/
def State.createCheck (s : State) (p : Bytes) : Option Nat :=
  let x : Index := { form := p }
  let part := fieldAt p 0x14 1
  let cap := fieldAt p 0x18 8
  if (s.ix (fieldAt p 0 1)).isSome then some St.busy
  else if 4194304 < x.lists then some St.idRange
  else if 127 < part then some St.idRange
  else if 5 < x.elem ∨ 1 < x.metric ∨ x.dims < 32 ∨ 4096 < x.dims ∨ x.dims % 32 ≠ 0
      ∨ (if x.pq then x.m < 8 ∨ 256 < x.m ∨ x.m % 8 ≠ 0 ∨ x.dims % x.m ≠ 0 ∨ 1 < x.inputElem
         else x.m ≠ 0 ∨ x.inputElem ≠ x.elem)
      ∨ (if x.fullStore then 1 < x.fullElem else x.fullElem ≠ 0)
      ∨ (x.degree ≠ 0 ∧ (x.degree < 8 ∨ 32 < x.degree)) ∨ (65536 < x.lists ∧ x.degree = 0) ∨ x.lists = 0
      ∨ ixF x 0xB 1 < 10 ∨ 90 < ixF x 0xB 1 ∨ x.sideCap < 4096 ∨ 16777216 < x.sideCap ∨ cap % 65536 ≠ 0 then some St.unsupported
  else if Tab.has s.sched.parts part = false then some St.noObject
  else none

/-- INDEX_CREATE. -/
def indexCreate : AmpBody := fun j s =>
  let p := j.payload
  let i := fieldAt p 0 1
  match s.createCheck p with
  | some st => ampRefuse st s
  | none =>
    let x : Index := { form := p, born := s.index.nextBorn }
    match s.ftl.alloc (.index x.born) (fieldAt p 0x18 8 / s.part.unitSize) with
    | none => ampRefuse St.noSpace s
    | some f =>
      if s.fits 2 x.hbm then
        let s := (({ s with ftl := f }).modTiers fun t => { t with poolUsed := Tab.mod 0 t.poolUsed 2 (· + x.hbm) }).modIndex fun ix =>
          { ix with all := Tab.put ix.all i x, nextBorn := ix.nextBorn + 1 }
        ampAnswer (s.drawKey (256 + i)) []
      else ampRefuse St.noSpace s

/-- INDEX_CREATE. -/
def execIndexCreate (mb : Fin 3) (s : State) : Out := .next (ampExec mb 0x0301 indexCreate s)

/-- End an index's fold and training with an ST code. -/
def State.stopIndexWork (s : State) (x : Index) (st : Nat) : State :=
  let s := match x.fold with
    | some f => (match f.op with
      | some op => s.opDone op st
      | none => s)
    | none => s
  match x.training with
  | some t => s.opDone t.op st
  | none => s

/-- End commands that wait for an index's room. -/
def endWaiting (st : Nat) : List (Nat × Bytes) → State → State
  | [], s => s
  | w :: l, s => endWaiting st l (s.vendorEnd w.1 st)

/-- Remove an index (R157). -/
def State.dropIndex (s : State) (i : Nat) (x : Index) : State :=
  let s := s.stopIndexWork x St.stopped
  let s := endWaiting St.noObject x.waiting s
  let bound := (s.index.bindings.filter fun b => b.2.index == i).map (·.1)
  let s := s.modIndex fun ix => { ix with
    all := Tab.del ix.all i, gone := ix.gone ++ [{ x with dropped := true, fold := none, training := none, waiting := [] }]
    ingested := ix.ingested.filter fun e => e.1 != x.born, erasing := ix.erasing.filter fun e => e.1 != x.born
    bindings := ix.bindings.filter fun b => b.2.index != i, pending := ix.pending.filter fun w => !bound.contains w.nsid }
  (s.modSec fun k => k.putKeys (Tab.del k.keys (256 + i))).trimBorn x.born

/-- INDEX_DROP. -/
def indexDrop : AmpBody := fun j s =>
  let i := fieldAt j.payload 0 1
  match s.ix i with
  | some x => ampAnswer (s.dropIndex i x) []
  | none => ampRefuse St.noObject s

/-- INDEX_DROP. -/
def execIndexDrop (mb : Fin 3) (s : State) : Out := .next (ampExec mb 0x0302 indexDrop s)

/-! ## Training (R155, R156) -/

/-- Does the index hold no vectors? Deletes in the side list are none. -/
def Index.empty (x : Index) : Bool := (x.side.all fun e => e.delete) && x.cur.lists.all fun l => l.2.all fun e => e.recs == []

/-- The refusal of INDEX_TRAIN. -/
def State.trainCheck (s : State) (x : Index) (p : Bytes) : Option Nat :=
  let ns := fieldAt p 4 4
  let n := fieldAt p 0x10 4
  if s.ftl.readOnly then some St.readOnly
  else if x.training.isSome || x.fold.isSome || !x.empty then some St.busy
  else if ns = 0 ∨ 128 < ns then some St.idRange
  else if fieldAt p 1 1 = 0 ∨ 64 < fieldAt p 1 1 ∨ (if x.pq then 8 < fieldAt p 2 1 else fieldAt p 2 1 ≠ 0)
      ∨ n < x.lists ∨ 16777216 < n ∨ (x.pq = true ∧ n < 256) then some St.unsupported
  else match Tab.find s.host.ns ns with
    | none => some St.noObject
    | some k => if k.size * 4096 < fieldAt p 8 8 * 4096 + n * x.d then some St.idRange else none

/-- INDEX_TRAIN. -/
def indexTrain : AmpBody := fun j s =>
  let i := fieldAt j.payload 0 1
  match s.ix i with
  | none => ampRefuse St.noObject s
  | some x =>
    match s.trainCheck x j.payload with
    | some st => ampRefuse st s
    | none => ampLong (.train i) (fun id s => s.modIx i fun x => { x with training := some ⟨id, j.payload⟩ }) s

/-- INDEX_TRAIN. -/
def execIndexTrain (mb : Fin 3) (s : State) : Out := .next (ampExec mb 0x0303 indexTrain s)

/-- Sectors of a namespace from an LBA on: the data and the LBAs, with their units, that cannot be recovered. -/
def State.readSectors (s : State) (nsid slba n : Nat) (lost : List Nat) : Bytes × List (Nat × Nat) :=
  let all := (List.range n).filterMap fun k => (s.readLba nsid (slba + k) lost).map fun x => (slba + k, x)
  ((all.map fun x => x.2.2.1).flatten, (all.filter fun x => x.2.2.2).map fun x => (x.1, x.2.1))

/-- The training vectors. -/
def cutVectors (size : Nat) : Nat → Bytes → List Bytes
  | 0, _ => []
  | n + 1, b => b.take size :: cutVectors size n (b.drop size)

/-- INDEX_TRAIN_DONE. `lost`: LBAs of the training set that the media cannot recover. -/
def execIndexTrainDone (i : Fin 256) (lost : List Nat) (s : State) : Out :=
  .next (match s.ix i with
    | some x =>
      match x.training with
      | some t =>
        let n := fieldAt t.req 0x10 4
        let ns := fieldAt t.req 4 4
        let (d, bad) := s.readSectors ns (fieldAt t.req 8 8) ((n * x.d + 4095) / 4096) lost
        if bad ≠ [] then
          ((reportLost ns noTag bad s).modIx i fun x => { x with training := none }).opDone t.op St.mediaUnrecovered
        else match x.train t.req (cutVectors x.d n d) with
          | some r =>
            (s.modIx i fun x => { x with
              training := none, trained := some r
              cur := { x.cur with dead := [], edges := r.edges } }).opDone t.op St.ok
          | none => (s.modIx i fun x => { x with training := none }).opDone t.op St.singular
      | none => s
    | none => s)

/-! ## Folds (R150, R151) -/

/-- The refusal of INDEX_FOLD. -/
def State.foldCheck (s : State) (x : Index) (p : Bytes) : Option Nat :=
  let re := bit (fieldAt p 1 1) 0
  let m := fieldAt p 4 4
  if s.ftl.readOnly then some St.readOnly
  else if x.fold.isSome || x.training.isSome then some St.busy
  else if (if re then m = 0 ∨ 65536 < m else m ≠ 0) then some St.unsupported
  else none

/-- INDEX_FOLD. With nothing to move it ends at once. -/
def indexFold : AmpBody := fun j s =>
  let p := j.payload
  let i := fieldAt p 0 1
  match s.ix i with
  | none => ampRefuse St.noObject s
  | some x =>
    match s.foldCheck x p with
    | some st => ampRefuse st s
    | none => ampLong (.fold i) (fun id s =>
        let s := s.modIx i fun x => { x with foldStuck := false }
        if x.side.any fun e => decide (x.cur.seq < e.seq) then
          s.modIx i fun x => { x with
            fold := some { op := some id, to_ := x.lastCommit, minList := if bit (fieldAt p 1 1) 0 then some (fieldAt p 4 4) else none } }
        else s.opDone id St.ok) s

/-- INDEX_FOLD. -/
def execIndexFold (mb : Fin 3) (s : State) : Out := .next (ampExec mb 0x0304 indexFold s)

/-- FOLD_SWITCH (R150): the root record of the running fold is durable. `eus`: the erase unit of each unit written, in order;
`lost`: IDs of records that the media cannot recover. -/
def execFoldSwitch (i : Fin 256) (eus lost : List Nat) (s : State) : Out :=
  .next (match s.usable i with
    | some (x, t) =>
      match x.fold with
      | some f => if s.ftl.readOnly then s else s.foldSwitch i x t f eus lost
      | none => s
    | none => s)

/-! ## Ingest (R153, R154) -/

/-- The refusal of a binding. -/
def State.bindCheck (s : State) (p : Bytes) : Option Nat :=
  let ns := fieldAt p 0 4
  let i := fieldAt p 4 1
  let unbind := bit (fieldAt p 5 1) 0
  if ns = 0 ∨ 128 < ns then some St.idRange
  else if Tab.has s.host.ns ns = false then some St.noObject
  else if unbind then
    (if i ≠ 0 ∨ fieldAt p 6 1 ≠ 0 ∨ fieldAt p 8 2 ≠ 0 ∨ fieldAt p 0x10 8 ≠ 0 then some St.reservedField else none)
  else match s.ix i with
    | none => some St.noObject
    | some x =>
      if fieldAt p 6 1 < 12 ∨ 16 < fieldAt p 6 1 then some St.unsupported
      else match s.object 1 (fieldAt p 8 2) with
        | none => some St.noObject
        | some o =>
          if fieldAt o.data 0x30 2 ≠ x.dims ∨ fieldAt o.data 0x32 1 ≠ x.inputElem then some St.unsupported else none

/-- INDEX_BIND. An unbound namespace has no pending windows. -/
def indexBind : AmpBody := fun j s =>
  let p := j.payload
  let ns := fieldAt p 0 4
  match s.bindCheck p with
  | some st => ampRefuse st s
  | none =>
    let b : Binding := { index := fieldAt p 4 1, model := fieldAt p 8 2, windowLog2 := fieldAt p 6 1, attr := fieldAt p 0x10 8 }
    ampAnswer (s.modIndex fun ix =>
      if bit (fieldAt p 5 1) 0 then
        { ix with bindings := Tab.del ix.bindings ns, pending := ix.pending.filter fun w => w.nsid != ns }
      else { ix with bindings := Tab.put ix.bindings ns b }) []

/-- INDEX_BIND. -/
def execIndexBind (mb : Fin 3) (s : State) : Out := .next (ampExec mb 0x0305 indexBind s)

/-- Bytes without their trailing zeros. -/
def dropZeros (b : Bytes) : Bytes := (b.reverse.dropWhile (· == 0)).reverse

/-- The first pending window goes. -/
def State.windowDone (s : State) : State := s.modIndex fun ix => { ix with pending := ix.pending.drop 1 }

/-- The embedding of a window fails: once more, then it is skipped (R154). -/
def State.windowFails (s : State) (w : Window) (i : Nat) : State :=
  if w.failed then
    ((s.windowDone.modIx i fun x => { x with ingestFailed := x.ingestFailed + 1 })).report .hd
      { cls := .ingestFailed, source := w.nsid, partner := partnerHd, addr := w.pos }
  else s.modIndex fun ix => { ix with pending := { w with failed := true } :: ix.pending.drop 1 }

/-- Is a window's text cut to the input limit of the binding's model (R154)? -/
def State.windowCut (s : State) (model : Nat) (text : Bytes) : Bool :=
  match s.object 1 model with
  | some o =>
    let tok := ((s.object 4 (fieldAt o.data 0x0A 2)).getD {}).data
    decide (fieldAt o.data 0x24 4 < (encode tok text).1.length)
  | none => false

/-- A window has been read: its ID is deleted where nothing but zeros is left, else inserted with its embedding. -/
def State.windowRead (s : State) (w : Window) (b : Binding) (x : Index) (t : Trained) (d : Bytes) (emb : Option Bytes) : State :=
  let id := windowId w.nsid w.pos
  let text := dropZeros d
  if text = [] then
    ((s.windowDone.modIx b.index fun x => { x with ingestDone := x.ingestDone + 1 }).forget x.born id).commitEntries b.index
      [{ delete := true, id := id, list := x.listOf id }]
  else match emb with
    | none => s.windowFails w b.index
    | some v =>
      let v := fitTo x.d v
      let s := (s.windowDone.forget x.born id).modIndex fun y => { y with ingested := y.ingested ++ [(x.born, id)] }
      (s.modIx b.index fun x => { x with
        ingestDone := x.ingestDone + 1, truncated := x.truncated + b2n (s.windowCut b.model text) }).commitEntries b.index
          [{ id := id, attr := leBytes 8 b.attr ++ leBytes 8 id, list := x.assign t v, vec := x.store t v, full := x.full v }]

/-- INGEST_WINDOW_PROCESS (R154): a deletion that waits for room, else the first pending window. `emb`: the embedding of its text, none
where embedding fails. -/
def execIngestWindowProcess (ok : Bool) (emb : Bytes) (s : State) : Out :=
  .next (if s.index.erasing ≠ [] then s.eraseNext else match s.index.pending with
    | [] => s
    | w :: _ =>
      match Tab.find s.index.bindings w.nsid with
      | none => s.windowDone
      | some b =>
        match s.usable b.index with
        | none => s
        | some (x, t) =>
          if s.ftl.readOnly || !x.room 1 || !x.vectorRoom 1 then s else
          let (d, bad) := s.readSectors w.nsid (w.pos / 4096) (b.window / 4096) []
          if bad ≠ [] then s.windowFails w b.index else s.windowRead w b x t d (if ok then some emb else none))

/-! ## INDEX_STATS (R158) -/

/-- The counters of an index. -/
def State.indexStats (s : State) (i : Nat) (x : Index) : Bytes :=
  let q (n : Nat) : Bytes := leBytes 8 (min n (2 ^ 64 - 1))
  let main := x.mainVectors
  let pins := (x.old.filter fun v => (s.index.pinned x.born).contains v.seq).length
  let pend := (s.index.pending.filter fun w => match Tab.find s.index.bindings w.nsid with
    | some b => b.index == i
    | none => false).length + (s.index.erasing.filter fun e => e.1 == x.born).length
  q x.lastCommit ++ q x.cur.seq ++ q main ++ q x.side.length ++ q pins ++ q x.queries ++ q x.shadeQueries ++ q x.candidates
    ++ q x.nanScores ++ q x.staleEdges ++ q x.cur.dead.length ++ q x.lost ++ q x.droppedUnreadable ++ q x.folds ++ q pend
    ++ q x.ingestDone ++ q x.ingestFailed ++ q x.truncated ++ q x.insertWaits ++ q x.displaced

/-- INDEX_STATS. -/
def indexStats : AmpBody := fun j s =>
  let i := fieldAt j.payload 0 1
  match s.ix i with
  | some x => ampAnswer s (s.indexStats i x)
  | none => ampRefuse St.noObject s

/-- INDEX_STATS. -/
def execIndexStats (mb : Fin 3) (s : State) : Out := .next (ampExec mb 0x0306 indexStats s)

end Sys2Proof.Machine
end

