-- ==== Sys2Proof/Machine/Generate.lean ====
section
/-! DEFINITION. GENERATE, EMBED and RUN: admission, and what a committed step of a model delivers (R304, R311-R325, R351-R353). -/

namespace Sys2Proof.Machine

/-! ## Programs and partitions (R343, R351, R352) -/

/-- The checks of a program on a partition: ST_NO_OBJECT where either is not there, ST_UNSUPPORTED where the cluster count does not
suit the program. -/
def State.programCheck (s : State) (p prog : Nat) : Option Nat :=
  match s.part? p, s.object 0 prog with
  | some x, some o =>
    let n := (s.clustersOf x.mask).length
    if n < fieldAt o.data 0x0C 1 ∨ fieldAt o.data 0x0D 1 < n then some St.unsupported else none
  | _, _ => some St.noObject

/-- The code with which a command of a split model ends for want of a peer: that of the lowest part whose peer is ABSENT, FAULTY or
REFUSED; none where every part's peer is live (R324). `m`: the manifest of part 0. -/
def State.splitSt (s : State) (m : Bytes) : Option Nat :=
  (((List.range (fieldAt m 0x35 1)).drop 1).map fun i => s.peer (fieldAt m (0x40 + i) 1)).findSome? fun p =>
    if p.live then none else some p.failSt

/-- A task of a host command (R346, R353): its stamp is the fetch, its deadline absolute. -/
def makeTask (kind tag : Nat) (t : Trk) (o : Obj) (a : Alloc) (seed : Nat) : Task :=
  Task.runs (o := o)
  { kind := kind, tag := tag, stamp := t.fetchCount
    deadline := if t.sqe.deadline = 0 then none else some (t.fetchCount + t.sqe.deadline)
    code := a.code, grants := a.grants ++ [(a.arg, t.sqe.inLen), (a.res, t.sqe.resLen - 64)]
    argAddr := a.arg, argLen := t.sqe.inLen, resAddr := a.res, resRoom := t.sqe.resLen - 64
    session := if t.sqe.sessionValid then some t.sqe.session else none, seed := seed }

/-- A command that has passed its checks is admitted: its program's code, behind the object's header, and its argument block are
staged, and its result header is written. -/
def State.stage (s : State) (tag : Nat) (k : Task) (o : Obj) (d : Bytes) (flags : Nat := 0) : State :=
  let s := (s.admitTag tag).writeMem k.code (o.data.drop 64)
  (s.writeMem k.argAddr d).openResult tag 0 flags

/-- Admit a command and queue its task. -/
def State.launch (s : State) (tag p : Nat) (k : Task) (o : Obj) (d : Bytes) : State := (s.stage tag k o d).addTask p k

/-- A command takes its session at admission: it is ACTIVE and BUSY (R297). -/
def State.takeSession (s : State) (tag : Nat) (t : Trk) : State :=
  if t.sqe.sessionValid then s.modSession t.sqe.session fun x => { x with state := .active, busy := some tag } else s

/-- A command that names a session is refused: the session is not held by it any longer. -/
def State.refuseSes (s : State) (tag : Nat) (t : Trk) (st : Nat) : State :=
  let s := if t.sqe.sessionValid then
      s.modSession t.sqe.session fun x => if x.busy = some tag then { x with busy := none } else x
    else s
  s.vendorRefuse tag st

/-- Go on where the session of a GENERATE or RUN is ready (R297, R298). -/
def State.withSession (s : State) (tag : Nat) (t : Trk) (f : State → State) : State :=
  match s.sessionVerdict tag t with
  | .refuse st => s.refuseSes tag t st
  | .wait => s.sessionWait t.sqe.session tag
  | .resume => s.beginResume t.sqe.session tag
  | .ready => f s

/-- RUN (R352, R353). -/
def execRun (tag : Nat) (d : Bytes) (a : Alloc) (s : State) : Out :=
  .next (s.vendorRow tag 0x9B (fun t => t.sqe.sessionValid && !s.cap 6) (fun t s =>
    let p := t.sqe.cmdDw % 256
    match s.programCheck p t.sqe.object with
    | some st => s.refuseSes tag t st
    | none => s.withSession tag t fun s =>
      let s := s.takeSession tag t
      let seed := if t.sqe.sessionValid then (s.session t.sqe.session).seed else s.freeNum
      let o := (s.object 0 t.sqe.object).getD {}
      (s.used).launch tag p (makeTask 0 tag t o a (u64 seed)) o d))

/-! ## GENERATE: admission (R312, R313) -/

/-- TEMPERATURE is 0. -/
def greedy (b : Bytes) : Bool := (f32 (fieldAt b 0 4)).isZero

/-- The sampling block's checks: reserved fields, ranges, length (R312; log 28). `draft`: SPECULATE has the draft it needs. -/
def samplingSt (b : Bytes) (draft : Bool) : Option Nat :=
  let g := fieldAt b 0x0C 1
  let br := fieldAt b 0x0D 1
  let dp := fieldAt b 0x0E 1
  let te := f32 (fieldAt b 0 4)
  let tp := f32 (fieldAt b 4 4)
  let teOk := te.isZero || (te.ge (f32 0x3C23D70A) && (Fv.ofInt 100).ge te)
  let tpOk := tp.gt (Fv.ofInt 0) && (Fv.ofInt 1).ge tp
  if b.length < 64 then some St.badLength
  else if g / 16 ≠ 0 ∨ fieldAt b 0x0F 1 ≠ 0 ∨ fieldAt b 0x1C 4 ≠ 0 then some St.reservedField
  else if !teOk || !tpOk || decide (4096 < fieldAt b 8 2)
      || (if bit g 1 then !(decide (1 ≤ br) && decide (br ≤ 8) && decide (1 ≤ dp) && decide (dp ≤ 8) && decide (br * dp ≤ 64) && draft)
          else decide (br ≠ 0) || decide (dp ≠ 0)) then some St.unsupported
  else if b.length ≠ 64 + fieldAt b 0x18 4 * (if bit g 0 then 4 else 1) then some St.badLength
  else none

/-- The prompt's tokens: given, or encoded; and the cuts MAX_CHUNK made. -/
def promptTokens (tok b : Bytes) : List Nat × Nat :=
  if bit (fieldAt b 0x0C 1) 0 then ((List.range (fieldAt b 0x18 4)).map fun i => fieldAt b (64 + 4 * i) 4, 0)
  else encode tok (b.drop 64)

/-- Count the cuts of an encoding (R308). -/
def State.countSplits (s : State) (n : Nat) : State :=
  s.modTokens fun t => { t with forcedSplits := satAdd (2 ^ 32 - 1) t.forcedSplits n }

/-- The shade of a manifest and its program as they are installed now (R325). -/
def State.bindShade (s : State) (g : Gen) : Gen :=
  let o := s.object 1 (fieldAt g.man 0x0C 2)
  { g with shadeObj := o, shadeProg := o.bind fun o => s.object 0 (fieldAt o.data 8 2) }

/-- Bytes of a draft's private KV: record and directory of its MAX_CONTEXT tokens (R319). -/
def draftBytes (m : Bytes) : Nat :=
  let n := chunksOf (kvTileCount m (kvPages m (manContext m)))
  (64 + 8 * n + 15) / 16 * 16 + 65536 * n

/-- What taking the draft's KV comes to. -/
inductive DraftKv where
  | ok (s : State) (g : Gen)
  | noSpace
  /-- The place is not free: the keeper gives another. -/
  | place

/-- The draft of a speculating command takes its private KV at `a` and prefills it with the most recent tokens, MAX_CONTEXT at the most
(R319). It takes its space from the KV pool, which R319 does not name (DESIGN CHOICE, log 96). -/
def State.takeDraft (s : State) (g : Gen) (a : Nat) : DraftKv :=
  if !g.speculate then .ok s { g with draft := none } else
  match s.object 1 (fieldAt g.man 0x0E 2) with
  | none => .ok s { g with draft := none }
  | some o =>
    let m := o.data.take 256
    let n := chunksOf (kvTileCount m (kvPages m (manContext m)))
    let size := draftBytes m
    let head := size - 65536 * n
    if !s.fits 4 size then .noSpace
    else if a % 64 = 0 && s.freeRange a size then
      let chunks := (List.range n).map fun k => a + head + 65536 * k
      let s := chunks.foldl (fun s c => s.take 4 c 65536) (s.take 4 a head)
      let s := (s.clearMem a (a + size)).writeMem a (kvRecord m s.hdCount (kvTileCount m (kvPages m (manContext m))) chunks)
      .ok s { g with draft := some { model := o.id, man := m, root := a, tokens := min g.held (manContext m) } }
    else .place

/-- After a switch to the shade, speculation goes on with the shade's draft (R321): the former draft's KV is freed, and the new one takes
its place; where it does not fit there, decoding is plain (DESIGN CHOICE, log 96). -/
def State.redraft (s : State) (tag : Nat) : State :=
  match Tab.find s.tokens.gens tag with
  | some g =>
    match g.draft with
    | some d =>
      if g.speculate ∧ fieldAt g.man 0x0E 2 = d.model then s
      else
        let (s, g) := match (s.freeDraft g).takeDraft g d.root with
          | .ok s g => (s, g)
          | _ => (s.freeDraft g, { g with draft := none, speculate := false })
        s.modTokens fun x => { x with gens := Tab.put x.gens tag g }
    | none => s
  | none => s

/-- The monitor's check after a committed step, and the draft's KV where it has switched (R319-R321). -/
def State.checkMiss (s : State) (tag : Nat) : State := (s.monitor tag false true).redraft tag

/-- Steps 4 to 6 of R313, the draft's KV (R319), and the task. `o`: the model. -/
def State.generateReady (s : State) (tag : Nat) (t : Trk) (o : Obj) (d : Bytes) (a : Alloc) : State :=
  let start := s
  let m := o.data.take 256
  let ses := s.session t.sqe.session
  let sv := t.sqe.sessionValid
  if sv ∧ (ses.model ≠ t.sqe.object ∨ ses.shape ≠ manShape m) then s.refuseSes tag t St.unsupported
  else
    let tok := ((s.object 4 (fieldAt m 0x0A 2)).getD {}).data
    let (ids, cuts) := promptTokens tok d
    let s := (s.countSplits cuts).modTokens fun x => if bit (fieldAt d 0x0C 1) 0 then x else
      { x with queue := x.queue ++ [(tag, true, (d.length - 64 + 65535) / 65536)] }
    let held := if sv then ses.tokens else 0
    if ids.any (fun i => decide (fieldAt m 0x1C 4 ≤ i)) then s.refuseSes tag t St.idRange
    else if (ids = [] ∧ held = 0) ∨ manContext m < held + ids.length + 1 then s.refuseSes tag t St.badLength
    else
      let before := s
      let set := bit (fieldAt d 0x0C 1) 2 || !sv
      let seed := if set then fieldAt d 0x10 8 else ses.seed
      let counter := if set then 0 else ses.counter
      let s := s.takeSession tag t
      let s := if sv then s.modSession t.sqe.session fun x => { x with seed := seed, counter := counter } else s
      let g : Gen :=
        { model := t.sqe.object, man := m, tok := tok, session := if sv then some t.sqe.session else none, sampling := d.take 64
          speculate := bit (fieldAt d 0x0C 1) 1, outTokens := bit t.sqe.cmdDw 16, maxNew := t.sqe.cmdDw % 65536 + 1
          prompt := ids.length, held := held + ids.length, done := held, seed := seed, counter := counter }
      let s := (s.modTokens fun x => { x with gens := Tab.put x.gens tag (s.bindShade g) }).monitor tag true false
      match s.takeDraft ((Tab.find s.tokens.gens tag).getD g) a.draft with
      | .noSpace => before.refuseSes tag t St.noSpace
      | .place => start
      | .ok s g =>
        let s := s.modTokens fun x => { x with gens := Tab.put x.gens tag g }
        let k := makeTask 1 tag t (s.programOf g) a seed
        let k := match g.draft with
          | some d => { k with grants := k.grants ++ [(d.root, draftBytes d.man)] }
          | none => k
        s.launch tag (fieldAt g.man 0x34 1) k (s.programOf g) d

/-- The checks of a model that a command runs: kind, split part, partition and program, peers (R313, R322, R324, R351). -/
def State.modelCheck (s : State) (o : Obj) (kinds : List Nat) : Option Nat :=
  let m := o.data
  if !kinds.contains (manKind m) || fieldAt m 0x36 1 != 0 then some St.unsupported
  else (s.programCheck (fieldAt m 0x34 1) (fieldAt m 8 2)).or (s.splitSt m)

/-- GENERATE (R313). `d`: the input buffer. The DRAFT of a model that is not installed is not judged (log 28). -/
def execGenerate (tag : Nat) (d : Bytes) (a : Alloc) (s : State) : Out :=
  .next (s.vendorRow tag 0x97 (fun t => (t.sqe.sessionValid && !s.cap 6) || (bit (fieldAt d 0x0C 1) 1 && !s.cap 4)) (fun t s =>
    let model := s.object 1 t.sqe.object
    let draft := match model with
      | some o => s.draftOk (o.data.take 256)
      | none => true
    match samplingSt d draft with
    | some st => s.refuseSes tag t st
    | none =>
      match model with
      | none => s.refuseSes tag t St.noObject
      | some o =>
        match s.modelCheck o [0] with
        | some st => s.refuseSes tag t st
        | none => s.withSession tag t fun s => s.generateReady tag t o d a))

/-! ## EMBED: admission (R322, R323) -/

/-- The items of an EMBED input: texts or token lists, whether a reserved field is set, and the bytes they end at; none where the
input ends within an item. -/
def embedItems (tokens : Bool) (b : Bytes) : Nat → Nat → List Bytes → Bool → Option (List Bytes × Bool × Nat)
  | 0, pos, l, r => some (l.reverse, r, pos)
  | n + 1, pos, l, r =>
    if b.length < pos + 8 then none
    else
      let size := fieldAt b pos 4 * (if tokens then 4 else 1)
      embedItems tokens b n (pos + 8 + up8' size) ((b.drop (pos + 8)).take size :: l) (r || decide (fieldAt b (pos + 4) 4 ≠ 0))
where
  /-- Round up to a multiple of 8. -/
  up8' (k : Nat) : Nat := (k + 7) / 8 * 8

/-- FMT code of an ELEM code 0 to 4 (R122). -/
def elemFmt (e : Nat) : Nat := [10, 9, 0, 1, 2].getD e 10

/-- Bytes of a result vector or score. -/
def outBytes (m : Bytes) (rerank : Bool) : Nat := if rerank then 4 else fieldAt m 0x30 2 * (elemBits (elemFmt (fieldAt m 0x32 1)) / 8)

/-- Token counts of the items as they run, whether one was cut, and whether a query leaves no room (R323). -/
def embedCounts (rerank : Bool) (maxIn : Nat) (lens : List Nat) : List Nat × Bool × Bool :=
  if rerank then
    match lens with
    | q :: l => (l.map fun c => q + 1 + min c (maxIn - q - 1), l.any (fun c => decide (maxIn < q + 1 + c)), decide (maxIn - 1 ≤ q))
    | [] => ([], false, false)
  else (lens.map (min maxIn), lens.any (fun c => decide (maxIn < c)), false)

/-- EMBED (R322, R323). -/
def execEmbed (tag : Nat) (d : Bytes) (a : Alloc) (s : State) : Out :=
  .next (s.vendorRow tag 0x93 (fun _ => false) (fun t s =>
    let tokens := bit t.sqe.cmdDw 0
    let rerank := bit t.sqe.cmdDw 1
    let n := fieldAt d 0 4
    let items := embedItems tokens d (min n 4097) 8 [] (decide (fieldAt d 4 4 ≠ 0))
    let model : Option Obj := if t.sqe.nsid = 0 then s.object 1 t.sqe.object
      else (Tab.find s.index.bindings t.sqe.nsid).bind fun b => s.object 1 b.model
    if d.length < 8 then s.vendorRefuse tag St.badLength
    else if (match items with
      | some (_, r, _) => r
      | none => decide (fieldAt d 4 4 ≠ 0)) then s.vendorRefuse tag St.reservedField
    else if n < (if rerank then 2 else 1) ∨ 4096 < n then s.vendorRefuse tag St.unsupported
    else match items with
      | none => s.vendorRefuse tag St.badLength
      | some (l, _, pos) =>
        if pos ≠ d.length then s.vendorRefuse tag St.badLength
        else match model with
          | none => s.vendorRefuse tag St.noObject
          | some o =>
            let m := o.data.take 256
            match s.modelCheck o [if rerank then 2 else 1] with
            | some st => s.vendorRefuse tag st
            | none =>
              let tok := ((s.object 4 (fieldAt m 0x0A 2)).getD {}).data
              let enc := l.map fun b => if tokens then ((List.range (b.length / 4)).map fun i => fieldAt b (4 * i) 4, 0) else encode tok b
              let s := s.countSplits (enc.map (·.2)).sum
              let (counts, cut, full) := embedCounts rerank (fieldAt m 0x24 4) (enc.map fun x => x.1.length)
              if tokens && enc.any (fun x => x.1.any fun i => decide (fieldAt m 0x1C 4 ≤ i)) then s.vendorRefuse tag St.idRange
              else if full then s.vendorRefuse tag St.badLength
              else if t.sqe.resLen < 64 + counts.length * outBytes m rerank then s.vendorRefuse tag St.badLength
              else
                let g : Gen := { model := o.id, man := m, tok := tok, embed := true, items := counts, rerank := rerank
                                 inTokens := counts.sum
                                 shadeObj := (s.bindShade { man := m }).shadeObj, shadeProg := (s.bindShade { man := m }).shadeProg
                                 scale := (o.data.drop (fieldAt m 0x70 8)).take 16 }
                let free := s.freeNum
                let s := s.used.modTokens fun x => { x with
                  gens := Tab.put x.gens tag g
                  queue := if tokens then x.queue else x.queue ++ [(tag, true, (d.length + 65535) / 65536)] }
                let s := s.monitor tag true false
                let g := (Tab.find s.tokens.gens tag).getD g
                let k := makeTask 2 tag t (s.programOf g) a free
                (s.stage tag k (s.programOf g) d (2 * b2n g.shade + 8 * b2n cut)).addTask (fieldAt g.man 0x34 1) k))

/-! ## Sampling (R311, R315) -/

/-- EXP of R242 on FP32 operands, as the weights of R315. -/
def sampleWeight (mx r : Fv) (x : Nat) : Nat := toF32 (expF (f32Mul (f32Sub (f32 x) mx) r))

/-- Prefix sums of FP64 values. -/
def prefixSums : Fv → List Fv → List Fv
  | _, [] => []
  | a, x :: l =>
    let b := f64Add a x
    b :: prefixSums b l

/-- The token of one draw (R315); none where every logit is a NaN. -/
def sampleToken (b : Bytes) (seed counter : Nat) (logits : List Nat) : Option Nat :=
  let keys := logits.map (keyOf 0 false)
  if keys.all (·.isNone) then none
  else if greedy b then ((topk 1 keys).picks.head?).map (·.1)
  else
    let k := if fieldAt b 8 2 = 0 then 4096 else fieldAt b 8 2
    let best := ((topk 1 keys).picks.head?).map (·.1)
    let mx := f32 (logits.getD (best.getD 0) 0)
    let r := f32Div (Fv.ofInt 1) (f32 (fieldAt b 0 4))
    let w := logits.map (sampleWeight mx r)
    let val (i : Nat) : Fv := Fmt.fp32.decode (w.getD i 0)
    let picks := (topk k keys).picks
    let chosen := picks.map (·.1)
    let valid := (validKeys 0 keys).map (·.1)
    let total := f64Add (mass (chosen.map val)) (mass ((valid.filter fun i => !chosen.contains i).map val))
    let need := f64Mul (f32 (fieldAt b 4 4)) total
    let ranked := sortKeys picks
    let cum := prefixSums (.fin false 0 0) (ranked.map fun p => val p.1)
    let n := (cum.findIdx? fun c => c.ge need).getD (ranked.length - 1)
    let u : Fv := .fin false (generator seed 0 counter) (-32)
    let bound := f64Mul u (cum.getD n (.fin false 0 0))
    let j := ((cum.take (n + 1)).findIdx? fun c => c.gt bound).getD n
    (ranked[j]?).map (·.1)

/-- The walk of a verification step (R317): tokens sampled from the root on, until one is no child of the position. `chains`: those
that still agree with the walk, each with the logits of the nodes ahead. -/
def treeWalk (b : Bytes) (seed : Nat) : Nat → Nat → List Nat → List (List Nat × List (List Nat)) → Option (List Nat)
  | 0, counter, logits, _ => (sampleToken b seed counter logits).map fun t => [t]
  | fuel + 1, counter, logits, chains =>
    match sampleToken b seed counter logits with
    | none => none
    | some t =>
      let on := chains.filter fun c => c.1.head? == some t
      match on with
      | [] => some [t]
      | c :: _ =>
        match treeWalk b seed fuel (counter + 1) (c.2.headD []) (on.map fun c => (c.1.tail, c.2.tail)) with
        | some l => some (t :: l)
        | none => none

/-! ## Committed steps of a GENERATE (R314, R316) -/

/-- How a token ends a generation (R316). -/
inductive GenEnd where
  | none
  /-- STOP or EOS: committed, counted, not delivered. -/
  | stop
  | max
  | context
deriving DecidableEq, Repr

/-- Is a token a stop token? -/
def isStop (g : Gen) (t : Nat) : Bool :=
  ((List.range 8).any fun i => fieldAt g.sampling (0x20 + 4 * i) 4 == t && t != 0xFFFFFFFF)
    || (bit (fieldAt g.sampling 0x0C 1) 3 && fieldAt g.man 0x28 4 == t)

/-- Deliver one token's output (R309, R316): its bytes. -/
def Gen.output (g : Gen) (t : Nat) : Bytes × Bytes × Nat :=
  if g.outTokens then (leBytes 4 t, g.tail, 0) else utf8Emit g.tail (tokText g.tok t)

/-- Commit one token: the generation as it then stands and its end. The result area may be full: then nothing is committed. -/
def State.commitToken (s : State) (tag t : Nat) : State × GenEnd × Bool :=
  match Tab.find s.tokens.gens tag with
  | none => (s, .max, false)
  | some g =>
    let stop := isStop g t
    let (out, tail, rep) := if stop then ([], g.tail, 0) else g.output t
    let full : Bool := match (s.trk tag).bind (·.result) with
      | some r => decide ((((s.trk tag).map (·.sqe.resLen)).getD 0) < 64 + r.bytes + r.newBytes + out.length)
      | none => false
    if full then (s, .none, true)
    else
      let s := if stop then s else s.emit tag out 1
      let g := { g with done := g.done + 1, held := g.held + 1, fresh := g.fresh + 1, counter := u64 (g.counter + 1), tail := tail
                        lastToken := if stop then g.lastToken else t }
      let s := s.modTokens fun x => { x with gens := Tab.put x.gens tag g, replaced := satAdd (2 ^ 32 - 1) x.replaced rep }
      (s, if stop then .stop else if g.maxNew ≤ g.fresh then .max else if manContext g.man ≤ g.held then .context else .none, false)

/-- Commit the tokens of a step in order up to the end; tokens beyond it are discarded (R316). -/
def commitTokens (tag : Nat) : List Nat → State → State × GenEnd × Bool
  | [], s => (s, .none, false)
  | t :: l, s =>
    match s.commitToken tag t with
    | (s, .none, false) => commitTokens tag l s
    | r => r

/-- The draft's KV follows the committed tokens: the most recent ones (R319). -/
def Gen.syncDraft (g : Gen) : Gen := { g with draft := g.draft.map fun d => { d with tokens := min g.held (manContext d.man) } }

/-- The session as the committed tokens leave it (R296), and the draft's KV. -/
def State.syncSession (s : State) (tag : Nat) : State :=
  match Tab.find s.tokens.gens tag with
  | some g =>
    let s := s.modTokens fun x => { x with gens := Tab.put x.gens tag g.syncDraft }
    match g.session with
    | some i => s.modSession i fun x => { x with
        tokens := g.done, pages := kvPages g.man g.done, counter := g.counter, lastToken := g.lastToken }
    | none => s
  | none => s

/-- What the commit of a step gives the monitor: go on, or the code with which the command ends. -/
def State.commitGen (s : State) (tag : Nat) (d : StepData) : State × Option Nat :=
  match Tab.find s.tokens.gens tag with
  | none => (s, none)
  | some g =>
    if 0 < g.prompt then
      let n := min 256 g.prompt
      let s := s.modTokens fun x => { x with gens := Tab.put x.gens tag { g with prompt := g.prompt - n, done := g.done + n } }
      ((s.syncSession tag), none)
    else
      let toks := if g.speculate then
          treeWalk g.sampling g.seed 8 g.counter d.logits ((d.chains.zip d.nodes).map fun c => (c.1, c.2))
        else (sampleToken g.sampling g.seed g.counter d.logits).map fun t => [t]
      match toks with
      | none => (s, some St.stepFailed)
      | some l =>
        let s := s.modTokens fun x => { x with gens := Tab.mod {} x.gens tag fun g => { g with verifySteps := g.verifySteps + 1 } }
        let s := if g.shade && !g.shadeShown then
            (s.flagResult tag 1).modTokens fun x => { x with gens := Tab.mod {} x.gens tag fun g => { g with shadeShown := true } }
          else s
        let (s, e, full) := commitTokens tag l s
        let s := (s.syncSession tag).writeHeader tag
        (match e with
          | .context => s.flagResult tag 3
          | _ => s, if full then some St.resultFull else if e = .none then none else some St.ok)

/-! ## Committed steps of an EMBED (R323) -/

/-- Items of the next step: up to 64 items or 16,384 tokens, one alone where it is longer. -/
def embedTake : Nat → Nat → List Nat → Nat
  | _, _, [] => 0
  | n, used, c :: l => if n = 0 then 1 + embedTake 1 c l
    else if n < 64 ∧ used + c ≤ 16384 then 1 + embedTake (n + 1) (used + c) l else 0

/-- A vector as delivered: normalised where the manifest says so, in the output format (R211, R323). -/
def embedVector (g : Gen) (v : List Nat) : Bytes :=
  let x := v.map f32
  let n := f32Sqrt ((x.map fun a => f32Mul a a).foldl f32Add (.fin false 0 0))
  let x := if bit (fieldAt g.man 0x33 1) 2 && !n.isZero then x.map fun a => f32Div a n else x
  let f := elemFmt (fieldAt g.man 0x32 1)
  let sc := f32 (fieldAt g.scale 0 4)
  packCodes (elemBits f) (x.map fun a =>
    (narrow f false none (signed 32 (fieldAt g.scale 4 4)) (if f = 9 ∨ f = 10 then a else f32Div a sc)).1)

/-- The commit of a step of an EMBED. -/
def State.commitEmbed (s : State) (tag : Nat) (d : StepData) : State × Option Nat :=
  match Tab.find s.tokens.gens tag with
  | none => (s, none)
  | some g =>
    let k := embedTake 0 0 g.items
    let out := d.vectors.take k
    let s := out.foldl (fun s v => s.emit tag (if g.rerank then leBytes 4 (v.headD 0) else embedVector g v) 1 1) s
    let rest := g.items.drop k
    let s := s.modTokens fun x => { x with gens := Tab.put x.gens tag { g with items := rest } }
    (s, if rest = [] then some St.ok else none)

/-- TOKENIZER_SLICE (R310): the unit serves its requests in arrival order, a slice of 64 KiB at a time. -/
def execTokenizerSlice (s : State) : Out :=
  .next (s.modTokens fun t => { t with queue := match t.queue with
    | [] => []
    | (tag, e, n) :: l => if n ≤ 1 then l else (tag, e, n - 1) :: l })

/-- TK_STATUS (R326). -/
def Tokens.status (t : Tokens) : Nat :=
  min 4095 (t.queue.filter (·.2.1)).length
    + 2 ^ 12 * min 4095 (t.gens.filter fun p => !p.2.embed && !p.2.outTokens).length
/-- TK_COUNTS (R326). -/
def Tokens.counts (t : Tokens) : Nat := t.forcedSplits + 2 ^ 32 * t.replaced

end Sys2Proof.Machine
end

