-- ==== Sys2Proof/Machine/Sched.lean ====
section
/-! DEFINITION. Steps, ecalls, pre-emption (R349, R350, R353-R359, R431, R432), and the ends of queues whose commands must stop. -/

namespace Sys2Proof.Machine

/-! ## The step barrier (R349, R354) -/

/-- Do operations issued by the task's cores still run? Keeper descriptors and update jobs are not waited for (R349). -/
def State.opsLeft (s : State) (gs : List Nat) : Bool :=
  gs.any (fun g =>
    let c := s.cluster g
    c.mxuBusy || c.movers.any (fun j => !j.keeper && j.epoch == c.epoch))
    || s.sel.units.any fun u => (u.2.queue ++ u.2.run.toList).any fun j => !j.keeper && gs.contains j.g && j.epoch == (s.cluster j.g).epoch

/-- Codes latched in CL_FAULT and MV_ERR of the clusters (R202, R283). -/
def State.latched (s : State) (gs : List Nat) : List Nat :=
  (gs.map fun g =>
    let c := s.cluster g
    (if c.faultFirst then [c.faultSt] else []) ++ (if c.mvFirst then [c.mvSt] else [])).flatten

/-- Stages that the SAT_LIMIT decision widens (R231): none where the step has been run widened already. -/
def Task.toWiden (t : Task) : List StageKey :=
  if t.widened ≠ [] then []
  else (t.sat.filter fun z => bit z.key.word 16 && decide (z.key.limit < z.count) && z.key.limit != 0xFFFFFFFF).map (·.key)

/-- Append the uncommitted RUN_EMIT pieces to the result area, up to the first that does not fit (R75, R353). -/
def emitPieces (tag : Nat) : List Bytes → State → State × Bool
  | [], s => (s, false)
  | b :: l, s =>
    let s := s.emit tag b 1 1
    match (s.trk tag).bind (·.result) with
    | some r => if r.full then (s, true) else emitPieces tag l s
    | none => emitPieces tag l s

/-- Commit the step's results (R314, R323, R353): the state, and the code with which the command ends, where it ends. A step of a split
model does not commit while a part's peer is not live (R324). -/
def State.commitStep (s : State) (t : Task) (d : StepData) : State × Option Nat :=
  let (s, full) := emitPieces t.tag t.emitted s
  let gone := (Tab.find s.tokens.gens t.tag).bind fun g => s.splitSt g.man
  if full then (s, some St.resultFull)
  else if t.kind ≠ 0 ∧ gone.isSome then (s, gone)
  else if t.kind = 1 then s.commitGen t.tag d
  else if t.kind = 2 then s.commitEmbed t.tag d
  else (s, none)

/-- The KV tensor of a GENERATE's session grows to the pages that the commit has left it (R299). -/
def State.growSession (s : State) (t : Task) (d : StepData) : KvRoom :=
  match t.session, Tab.find s.tokens.gens t.tag with
  | some i, some g => if g.embed then .ok s else s.growKv i g.man d.chunks
  | _, _ => .ok s

/-- The closing step of a GENERATE waits for room in the KV pool (R299). -/
def State.waitKv (s : State) (t : Task) (n : Nat) : State :=
  match t.session with
  | some i => s.modSession i fun x => { x with wants := n }
  | none => s

/-- Release the cores that wait at the mark: the instruction has executed. -/
def releaseCores (ended : List Nat) (gs : List Nat) (s : State) : State :=
  forClusters (fun g s => if ended.contains g then s else s.modCl g fun c => c.retire) gs s

/-- Actions 1 to 5 of R349, once every core has arrived or ended. -/
def State.closeStep (s : State) (p : Nat) (t : Task) (gs : List Nat) (d : StepData) : State :=
  let codes := s.latched gs
  if t.crimson || decide (t.now ≠ []) || codes.contains St.poisoned then
    let s := s.stepRun t.tag
    if s.reloading gs then
      (s.modPart p fun x => { x with run := x.run.map fun t => { t with rerunDue := true } }).holdCores gs
    else s.faultedStep p
  else
    match codes.head? with
    | some st => (s.stepRun t.tag).endTask p st
    | none =>
      if t.toWiden ≠ [] then ((s.latchSat gs).stepRun t.tag).rerunStep p t.toWiden false
      else
        let (s1, e) := ((s.latchSat gs).stepRun t.tag).commitStep t d
        match s1.growSession t d with
        | .waits n => s.waitKv t n
        | .places => s
        | .none => (s.stepRun t.tag).endTask p St.noSpace
        | .ok s =>
          let s := s.modPart p fun x => { x with steps := satAdd (2 ^ 64 - 1) x.steps 1 }
          match e with
          | some st => s.endTask p st
          | none =>
            if s.stopping t.tag then s.endTask p St.stopped
            else if gs.all t.ended.contains then s.endTask p St.ok
            else
              let s := (releaseCores t.ended gs s).snapshot p gs
              match Tab.find s.tokens.gens t.tag with
              | some g => if !g.embed && fieldAt g.man 7 1 == 1 then (s.checkMiss t.tag).afterSwitch p t else s
              | none => s

/-- The barrier: when every core of the task has arrived or ended and its operations have completed, the step closes. -/
def State.barrier (s : State) (p : Nat) (d : StepData) : State :=
  match s.part? p with
  | some x =>
    match x.run with
    | some t =>
      let gs := s.clustersOf x.mask
      if gs.all (fun g => t.arrived.contains g || t.ended.contains g) && !t.rerunDue && !s.opsLeft gs then s.closeStep p t gs d
      else s
    | none => s
  | none => s

/-- STEP_MARK (R349): core `g` executes its mark. Sent again while it waits, it asks whether the operations have completed. -/
def execStepMark (w : MarkWord) (d : StepData) (s : State) : Out :=
  let g := w.g
  .next (s.xlz g w.f7 [w.rd.val, w.rs1.val, w.rs2.val] false fun s => match s.sched.partOf g with
    | some (p, x) =>
      match x.run with
      | some t =>
        if !t.ended.contains g.val then
          let s := s.modTask g fun t => { t with arrived := if t.arrived.contains g.val then t.arrived else t.arrived ++ [g.val] }
          (s.stall g .step).barrier p d
        else s
      | none => s
    | none => s)

/-- RUN_EMIT (R353): the bytes are held until the step commits (R431). -/
def execRunEmit (g : Fin 128) (a n : Nat) (s : State) : Out :=
  .next (if (s.cluster g).runs && (s.taskOf g).isSome then
    let (st, s) := s.checkRead (.steward g) (some g.val) a n
    if st = St.ok then
      let b := s.bytesAt a n
      (s.modTask g fun t => { t with emitted := t.emitted ++ [b] }).modCl g fun c => c.retire
    else if st = St.poisoned then s.faultNow g
    else s.stepEnds g st
    else s)

/-- TASK_END (R353, R354): the core ends; the last end closes the task's last step, another code ends the task at once. -/
def execTaskEnd (g : Fin 128) (code : Nat) (d : StepData) (s : State) : Out :=
  .next (match s.sched.partOf g with
    | some (p, x) =>
      match x.run with
      | some t =>
        if t.ended.contains g.val then s.barrier p d
        else if (s.cluster g).runs then
          if code ≠ St.ok then s.endTask p code
          else
            let s := s.modTask g fun t => { t with ended := t.ended ++ [g.val] }
            (s.modCl g fun c => { c.stop with halt := true }).barrier p d
        else s
      | none => s
    | none => s)

/-! ## Pre-emption (R347, R355-R359) -/

/-- Begin a pre-emption: HALT on every cluster of the partition. -/
def State.preempt (s : State) (p : Nat) : State :=
  match s.part? p with
  | some x => (s.modPart p fun x => { x with switch := some ⟨s.hdCount⟩ }).holdCores (s.clustersOf x.mask)
  | none => s

/-- QUANTUM_EXPIRY (R347): at the end of a quantum the rule chooses again; another queue pre-empts. -/
def execQuantumExpiry (p : Fin 128) (s : State) : Out :=
  .next (match s.part? p with
    | some x =>
      if x.run.isSome && x.switch.isNone && decide (x.quantumFrom + x.quantum ≤ s.hdCount) then
        let s := s.modPart p fun x => { x.charge s.hdCount with quantumFrom := s.hdCount }
        match (s.part? p).bind (·.choose) with
        | some k => if k = x.runQueue then s else s.preempt p
        | none => s
      else s
    | none => s)

/-- The saved image of a cluster (R357). A bad word met in it sets RERUN (R359). -/
def State.saveCluster (s : State) (g ws : Nat) : Save :=
  let c := s.cluster g
  let rs := c.saveRegions ws
  let base := spAddr g 0
  let inRegion (a : Nat) : Bool := decide (base ≤ a) && rs.contains ((a - base) / 65536 * 65536)
  let und := (rs.map fun r => (s.undef.filter fun u => decide (u.lo < base + r + 65536) && decide (base + r < u.hi)).map fun u =>
    (max u.lo (base + r) - base, min u.hi (base + r + 65536) - base, u.par)).flatten
  { cl := { c with movers := c.movers.filter fun j => !j.keeper }
    mem := (s.mem.filter fun p => inRegion p.1).map fun p => (p.1 - base, p.2)
    poison := (s.poison.filter fun p => p.2 && inRegion (p.1 * 8)).map fun p => (p.1 - base / 8, true)
    und := und, snap := Tab.get {} s.sched.snaps g, regions := rs
    rerun := s.poison.any fun p => p.2 && inRegion (p.1 * 8) }

/-- What R357 lays down of a save area's contents, by offset. The inner layout of the rest (CSRs, progress, chain state, the MXUs) is not
given: those bytes are undefined (log 100). `tag`, `step`: request tag and step number. -/
def Save.parts (v : Save) (g tag step : Nat) : List (Nat × Bytes) :=
  let k := v.cl.core
  let reg (t : Tab Nat) (n : Nat) : Bytes := ((List.range 32).map fun i => leBytes n (Tab.get 0 t i)).flatten
  [(0, leBytes 4 1 ++ leBytes 4 tag ++ leBytes 2 g ++ leBytes 1 (b2n v.rerun) ++ [0] ++ leBytes 8 (65536 * v.regions.length) ++ leBytes 8 step),
   (0x20, List.replicate 32 0), (0x40, reg k.x 8), (0x140, reg k.f 8), (0x340, reg k.v 64)]
    ++ (v.cl.movers.zipIdx.map fun m => (0xB40 + 80 * m.2, m.1.desc))
    ++ [(0x1040, ((List.range 4096).map fun i => leBytes 2 (Tab.get 0 v.cl.slots i)).flatten),
        (0x3040, (List.range 3072).map fun i =>
          byteOf ((List.range 8).map fun b => b2n (!Tab.get false v.cl.clean (8 * i + b)) * 2 ^ b).sum),
        (0x3D40, List.replicate 704 0)]

/-- Write a save area (R357): the parts of its fixed 606,208 bytes, and the working set region by region. -/
def State.writeArea (s : State) (a g tag step : Nat) (v : Save) : State :=
  let s := s.undefine a (a + 606208 + 65536 * v.regions.length)
  let s := (v.parts g tag step).foldl (fun s p => s.writeMem (a + p.1) p.2) s
  v.regions.zipIdx.foldl (fun s r =>
    s.writeMem (a + 0x94000 + 65536 * r.2) (s.bytesAt (spAddr g r.1) 65536)) s

/-- Write the save areas of clusters, each at its address. -/
def writeAreas (tag step : Nat) : List (Nat × Save) → List Nat → State → State
  | v :: l, a :: as, s => writeAreas tag step l as (s.writeArea a v.1 tag step v.2)
  | _, _, s => s

/-- What stays on a cluster whose task has been saved: its queues are empty but for the keeper's descriptors. -/
def Cluster.vacate (c : Cluster) : Cluster :=
  let empty (x : Gang) : Gang := { x with queue := [], active := [] }
  { c with g0 := empty c.g0, g1 := empty c.g1, g2 := empty c.g2, g3 := empty c.g3, movers := c.movers.filter (·.keeper)
           waiting := none, remote := none }

/-- Give save areas their places; none where one is not free. -/
def State.takeAreas (s : State) : List Nat → List Nat → Option State
  | [], _ => some s
  | n :: l, a :: as => if s.freeRange a n then (s.take 3 a n).takeAreas l as else none
  | _ :: _, [] => none

/-- The pre-emption is not made (R357): the running task goes on, and PREEMPT_WAITS counts it. -/
def State.preemptWaits (s : State) (p : Nat) (gs : List Nat) : State :=
  let s := s.modPart p fun x => { x with switch := none, preemptWaits := satAdd (2 ^ 64 - 1) x.preemptWaits 1 }
  forClusters (fun g s => s.modCl g fun c => { c with halt := false }.go) gs s

/-- SAVE_COMPLETE (R355, R357, R358): the state of the running task is in its save areas, at the places the keeper allocated where it
had none; the next task is restored or starts. `giveUp`: no room can be made for the areas. -/
def execSaveComplete (p : Fin 128) (addrs : List Nat) (giveUp : Bool) (s : State) : Out :=
  .next (match s.part? p with
    | some x =>
      match x.run, x.switch with
      | some t, some w =>
        let gs := s.clustersOf x.mask
        let sizes := s.saveBytes gs t.wsMask
        let total := sizes.sum
        let room := t.saveAreas ≠ [] || s.fits 3 total
        if !room then (if giveUp then s.preemptWaits p gs else s)
        else
          match (if t.saveAreas ≠ [] then some s else s.takeAreas sizes addrs) with
          | none => s
          | some s =>
            let saves := gs.map fun g => (g, s.saveCluster g t.wsMask)
            let s := writeAreas t.tag t.stepNo saves (if t.saveAreas ≠ [] then t.saveAreas else addrs) s
            let s := forClusters (fun g s => s.modCl g Cluster.vacate) gs s
            let k := x.runQueue
            let t := { t with saved := saves, isSaved := true, saveSize := total
                              saveAreas := if t.saveAreas ≠ [] then t.saveAreas else addrs.take sizes.length }
            let s := s.modPart p fun x =>
              let x := x.charge w.since
              let x := x.setQueue k { x.queue k with tasks := t :: (x.queue k).tasks }
              { x with run := none, switch := none, savedOut := some total, preemptions := satAdd (2 ^ 64 - 1) x.preemptions 1 }
            (s.dispatchPoint p).modPart p fun x => match x.savedOut with
              | some n => { x with savedOut := none, switchUs := satAdd (2 ^ 64 - 1) x.switchUs (20 + moveUs n gs.length)
                                   switchBytes := satAdd (2 ^ 64 - 1) x.switchBytes n }
              | none => x
      | _, _ => s
    | none => s)

/-! ## Commands that must stop (R67, R68, R359) -/

/-- Take the tasks of commands that must stop out of a queue. -/
def Partition.takeStopped (p : Partition) (stop : Task → Bool) : List Task × Partition :=
  let f (q : RunQueue) : RunQueue := { q with tasks := q.tasks.filter fun t => !stop t }
  ((p.q0.tasks ++ p.q1.tasks ++ p.q2.tasks ++ p.q3.tasks).filter stop,
    { p with q0 := f p.q0, q1 := f p.q1, q2 := f p.q2, q3 := f p.q3 })

/-- End the queued and saved tasks of commands that must stop: none is started or restored; their save areas are freed. -/
def State.sweepPart (s : State) (p : Nat) : State :=
  match s.part? p with
  | some x =>
    let (l, x') := x.takeStopped fun t => s.stopping t.tag
    let s := s.modPart p fun _ => x'
    l.foldl (fun s t => (t.saveAreas.foldl State.release s).commandEnd t.tag St.stopped) s
  | none => s

/-- Sweep every partition. -/
def State.sweepStopped (s : State) : State := (s.sched.parts.map (·.1)).foldl State.sweepPart s

/-- CONTROLLER_RESET_DONE (R68): the queues are deleted, their tracker entries freed, and CSTS.RDY reaches 0. The features
take their defaults again (log 17). -/
def execControllerResetDone (fn : Fin 2) (s : State) : Out :=
  let s := s.sweepStopped
  .next (if (s.ctrl fn).resetting && !s.vendorLeft fn then
    (s.modHost fun h => h.dropTrk fn).modCtrl fn fun c =>
      { c with resetting := false, rdy := false, sqs := [], cqs := [], features := [], turn := 0, stalled := false }
    else s)

/-- DELETE_IO_SQ_DONE (R67): once no fetched command of the queue is left without its completion. In a controller reset nothing is
posted (R68). -/
def execDeleteIoSqDone (fn : Fin 2) (q : Nat) (s : State) : Out :=
  let s := s.sweepStopped
  .next (match Tab.find (s.ctrl fn).sqs q with
    | some sq =>
      match sq.deleting with
      | some cid =>
        if (s.ctrl fn).resetting || s.queueBusy fn q then s
        else (s.modCtrl fn fun c => { c with sqs := Tab.del c.sqs q }).adminEnd fn { cid := cid } {} []
      | none => s
    | none => s)

end Sys2Proof.Machine
end

