-- ==== Sys2Proof/Machine/Part.lean ====
section
/-! DEFINITION. PART_SET and PART_READ (R343-R345, R360). -/

namespace Sys2Proof.Machine

/-- The HBM windows of a PART_SET. -/
def psWindows (p : Bytes) : List (Nat × Nat) :=
  (List.range (min 8 (fieldAt p 0x34 1))).map fun i => (fieldAt p (0x40 + 16 * i) 8, fieldAt p (0x48 + 16 * i) 8)

/-- A queue of a PART_SET, with what of an older one goes on. -/
def psQueue (p : Bytes) (k : Nat) (q : RunQueue) : RunQueue :=
  { q with priority := fieldAt p (0x24 + 4 * k) 1, weight := fieldAt p (0x25 + 4 * k) 1, preempt := bit (fieldAt p (0x26 + 4 * k) 1) 0 }

/-- QUANTUM_US, KIND_QUEUE and QUEUES of a PART_SET, the part that WEIGHTS_ONLY applies. -/
def Partition.weights (x : Partition) (p : Bytes) : Partition :=
  { x with
    quantum := fieldAt p 0x18 4, kindQueue := (List.range 8).map fun k => fieldAt p (0x1C + k) 1
    q0 := psQueue p 0 x.q0, q1 := psQueue p 1 x.q1, q2 := psQueue p 2 x.q2, q3 := psQueue p 3 x.q3 }

/-- Are QUANTUM_US, KIND_QUEUE or QUEUES out of range? -/
def psWeightsBad (p : Bytes) : Bool :=
  decide (fieldAt p 0x18 4 < 100) || decide (100000 < fieldAt p 0x18 4)
    || (List.range 8).any (fun k => decide (3 < fieldAt p (0x1C + k) 1))
    || (List.range 4).any fun k => decide (3 < fieldAt p (0x24 + 4 * k) 1) || fieldAt p (0x25 + 4 * k) 1 == 0

/-- Are the windows out of range: aligned to 64 KiB, within the HBM, unused ones 0? -/
def psWindowsBad (p : Bytes) : Bool :=
  decide (8 < fieldAt p 0x34 1)
    || (psWindows p).any (fun w => w.1 % 65536 != 0 || w.2 % 65536 != 0 || decide (0x001800000000 < w.1 + w.2))
    || ((p.drop (0x40 + 16 * fieldAt p 0x34 1)).take (128 - 16 * fieldAt p 0x34 1)).any (· != 0)

/-- Does the partition hold a task, a model that names it or an index that names it? (R345) -/
def State.partInUse (s : State) (n : Nat) (x : Partition) : Bool :=
  x.run.isSome || decide (0 < x.waitingTasks)
    || s.amp.objects.any (fun o => o.2.cls == 1 && fieldAt o.2.data 0x34 1 == n)
    || s.index.all.any fun i => fieldAt i.2.form 0x14 1 == n

/-- Clusters of a mask that are not lost, as a mask. -/
def State.liveMask (s : State) (mask : Nat) : Nat := ((s.clustersOf mask).map fun g => 2 ^ g).sum

/-- Clusters that a partition gives up belong to none, and are held with ENABLE 0 (R343). `old`, `new`: the masks before and after. -/
def State.letGo (s : State) (old new : Nat) : State :=
  forClusters (fun g s => s.modCl g fun c => { c with enable := false })
    ((List.range 128).filter fun g => bit old g && !bit new g) s

/-- PART_SET that changes or makes a partition. -/
def partApply (p : Bytes) (n : Nat) (s : State) : State × JobPhase :=
  let mask := fieldAt p 8 16
  let old := s.part? n
  let same := match old with
    | some x => x.mask == mask && x.tenant == fieldAt p 4 4 && x.hbm == psWindows p
    | none => false
  if psWeightsBad p || psWindowsBad p || mask == 0 then ampRefuse St.unsupported s
  else if s.sched.parts.any fun q => q.1 != n && q.2.mask &&& mask != 0 then ampRefuse St.busy s
  else if (match old with
      | some x => !same && s.partInUse n x
      | none => false) then ampRefuse St.busy s
  else
    let fresh := match old with
      | some x => x.tenant != fieldAt p 4 4
      | none => true
    let x := (old.getD {}).weights p
    -- until the tenant's first task, clusters that join the partition are cleared too (R262, R345)
    let due := if fresh then s.liveMask mask
      else if x.begun then x.toClear
      else (((s.clustersOf mask).filter fun g => bit x.toClear g || !bit x.mask g).map fun g => 2 ^ g).sum
    let x := { x with
      tenant := fieldAt p 4 4, mask := mask, hbm := psWindows p, toClear := due, begun := x.begun && !fresh }
    let s := s.letGo (old.getD {}).mask mask
    ampAnswer ((s.modSched fun c => { c with parts := Tab.put c.parts n x }).dispatchPoint n) []

/-- PART_SET. -/
def partSet : AmpBody := fun j s =>
  let p := j.payload
  let n := fieldAt p 0 1
  if 127 < n then ampRefuse St.idRange s
  else if bit (fieldAt p 1 1) 0 then
    (match s.part? n with
     | none => ampRefuse St.noObject s
     | some x =>
       if s.partInUse n x then ampRefuse St.busy s
       else ampAnswer ((s.letGo x.mask 0).modSched fun c => { c with parts := Tab.del c.parts n }) [])
  else if bit (fieldAt p 1 1) 1 then
    (if (s.part? n).isNone then ampRefuse St.noObject s
     else if psWeightsBad p then ampRefuse St.unsupported s
     else ampAnswer ((s.modPart n fun x => x.weights p).dispatchPoint n) [])
  else partApply p n s

/-- PART_SET. -/
def execPartSet (mb : Fin 3) (s : State) : Out := .next (ampExec mb 0x0401 partSet s)

/-- The settings of a partition as R344 lays them out; clusters that are lost are not in MASK. -/
def State.partSettings (s : State) (n : Nat) (x : Partition) : Bytes :=
  let q (r : RunQueue) : Bytes := leBytes 1 r.priority ++ leBytes 1 r.weight ++ leBytes 1 (b2n r.preempt) ++ [0]
  leBytes 1 n ++ [0, 0, 0] ++ leBytes 4 x.tenant ++ leBytes 16 (s.liveMask x.mask) ++ leBytes 4 x.quantum
    ++ fitTo 8 (x.kindQueue.map byteOf) ++ q x.q0 ++ q x.q1 ++ q x.q2 ++ q x.q3 ++ leBytes 1 x.hbm.length ++ List.replicate 11 0
    ++ fitTo 128 ((x.hbm.map fun w => leBytes 8 w.1 ++ leBytes 8 w.2).flatten)

/-- The 320 bytes of PART_READ. -/
def State.partStats (s : State) (n : Nat) (x : Partition) : Bytes :=
  let q (v : Nat) : Bytes := leBytes 8 (min v (2 ^ 64 - 1))
  let tasks := x.q0.tasks ++ x.q1.tasks ++ x.q2.tasks ++ x.q3.tasks
  s.partSettings n x
    ++ leBytes 4 (match x.run with
      | some t => t.tag
      | none => 0xFFFFFFFF)
    ++ leBytes 4 x.q0.tasks.length ++ leBytes 4 x.q1.tasks.length ++ leBytes 4 x.q2.tasks.length ++ leBytes 4 x.q3.tasks.length
    ++ leBytes 1 (tasks.filter (·.isSaved)).length ++ [0, 0, 0]
    ++ q x.tasksDone ++ q x.preemptions ++ q x.switchUs ++ q x.switchBytes ++ q x.steps ++ q x.reruns ++ q x.preemptWaits
    ++ (List.range 4).flatMap (fun k => q (Tab.get 0 x.runUs k)) ++ List.replicate 16 0

/-- PART_READ. -/
def partRead : AmpBody := fun j s =>
  let n := fieldAt j.payload 0 1
  if 127 < n then ampRefuse St.idRange s
  else match s.part? n with
    | some x => ampAnswer s (s.partStats n x)
    | none => ampRefuse St.noObject s

/-- PART_READ. -/
def execPartRead (mb : Fin 3) (s : State) : Out := .next (ampExec mb 0x0402 partRead s)

end Sys2Proof.Machine
end

