-- ==== Sys2Proof/Machine/Objects.lean ====
section
/-! DEFINITION. HELLO, and the installation, removal and listing of objects (R88-R90, R95-R99, R304-R307, R332, R351). -/

namespace Sys2Proof.Machine

/-! ## HELLO (R88, R89) -/

/-- Clusters in service. -/
def State.clustersUp (s : State) : Nat := if s.sec.phase = .recovery then 0 else (s.clustersOf (2 ^ 128 - 1)).length

/-- The HELLO response. -/
def State.helloBytes (s : State) (mb : Nat) : Bytes :=
  leBytes 1 1 ++ leBytes 1 1 ++ leBytes 1 mb
    ++ leBytes 1 (b2n s.sec.owned + 2 * b2n s.isHeld + 4 * b2n s.ftl.readOnly)
    ++ leBytes 4 65536 ++ leBytes 2 256 ++ leBytes 1 s.clustersUp ++ leBytes 5 0
    ++ leBytes 16 s.sec.caps ++ leBytes 16 0 ++ leBytes 16 0
    ++ leBytes 8 (if s.sec.phase = .recovery then 0 else s.sec.version) ++ leBytes 8 s.sec.counter ++ leBytes 16 0

/-- HELLO (R88, R89): the only version is 1. -/
def hello : AmpBody := fun j s =>
  let p := j.payload
  if 1 < fieldAt p 0 1 ∨ fieldAt p 1 1 < 1 then ampRefuse St.version s
  else
    let s := s.modMb j.mb fun m => { m with
      version := some 1, caps1 := fieldAt p 0x10 16, caps2 := fieldAt p 0x20 16, caps3 := fieldAt p 0x30 16, eventsLost := 0 }
    let s := if j.mb = 2 then s.modAmp fun a => { a with helloEndpoint := some j.endpoint } else s
    ampAnswer s (s.helloBytes j.mb)

/-- HELLO. -/
def execHello (mb : Fin 3) (s : State) : Out := .next (ampExec mb 0x0001 hello s)

/-! ## Formats (R304, R305, R307, R332, R351) -/

/-- Are the bytes from `a` up to `b` all 0? -/
def zeroBytes (d : Bytes) (a b : Nat) : Bool := ((d.drop a).take (b - a)).all (· == 0)

/-- Does a number lie in a range? -/
def within (lo hi n : Nat) : Bool := decide (lo ≤ n) && decide (n ≤ hi)

/-- Is the header of an Efxifel program right? (R351) -/
def programOk (d : Bytes) : Bool :=
  let code := fieldAt d 8 4
  fieldAt d 0 4 == 1 && within 4 16777216 code && decide (fieldAt d 4 4 < code) && decide (64 + code ≤ d.length)
    && within 1 128 (fieldAt d 0x0C 1) && within (fieldAt d 0x0C 1) 128 (fieldAt d 0x0D 1) && zeroBytes d 0x0E 0x10

/-- Is the header of an update program right? (R332) -/
def updateProgramOk (d : Bytes) : Bool :=
  let code := fieldAt d 0x0C 4
  fieldAt d 0 4 == 1 && decide (fieldAt d 4 1 ≤ 2) && decide (fieldAt d 5 1 ≤ 4) && within 4 65536 code
    && decide (fieldAt d 8 4 < code) && decide (fieldAt d 0x10 4 ≤ 131072)
    && decide (64 + code + fieldAt d 0x10 4 ≤ d.length) && zeroBytes d 6 8 && zeroBytes d 0x14 0x40

/-- Is the number a power of two? -/
def powerOfTwo (n : Nat) : Bool := n != 0 && n &&& (n - 1) == 0

/-- Occupied merge slots of tokenizer tables. -/
def usedSlots (d : Bytes) : List (Nat × Nat × Nat × Nat) :=
  ((List.range (tokSlots d)).map (mergeSlot d)).filter fun m => m.1 != 0xFFFFFFFF

/-- Are tokenizer tables right? (R307) -/
def tokenizerOk (d : Bytes) : Bool :=
  let vocab := tokVocab d
  let merges := fieldAt d 8 4
  let text := fieldAt d 0x10 4
  let classes := fieldAt d 0x14 1
  let used := usedSlots d
  fieldAt d 0 4 == 1 && within 256 262144 vocab && decide (merges ≤ 1048576) && powerOfTwo (tokSlots d)
    && within (max 1 (2 * merges)) 4194304 (tokSlots d) && decide (text ≤ 16777216) && within 1 16 classes
    && within 16 1024 (fieldAt d 0x16 2) && zeroBytes d 0x15 0x16 && zeroBytes d 0x18 0x40
    && d.length == 0x560 + 8 * vocab + text + 16 * tokSlots d
    && (List.range 256).all (fun i => decide (fieldAt d (0x40 + i) 1 < classes))
    && (List.range vocab).all (fun i =>
        let (o, n, sp) := tokDir d i
        decide (n ≤ 256) && decide (o + n ≤ text) && decide (fieldAt d (0x560 + 8 * i + 6) 2 < 2) && (sp == (n == 0)))
    && (List.range 256).all (fun i =>
        let k := byteToken d (byteOf i)
        decide (k < vocab) && !(tokDir d k).2.2 && tokText d k == [byteOf i])
    && used.length == merges
    && used.all (fun (l, r, res, rank) =>
        decide (l < vocab) && decide (r < vocab) && decide (res < vocab) && decide (rank < merges)
          && tokText d res == tokText d l ++ tokText d r && mergeLookup d l r == some (res, rank))
    && (List.range merges).all fun k => used.any fun m => m.2.2.2 == k

/-- Is an FP32 code a positive, finite, normal number? (R220) -/
def scaleOk (c : Nat) : Bool := within 0x00800000 0x7F7FFFFF c

/-- Are the fields of a model's manifest in range, VOCAB apart? (R304, R305) -/
def manifestOk (d : Bytes) : Bool :=
  let kind := fieldAt d 4 1
  let dec := kind == 0
  let split := fieldAt d 0x35 1
  let outFmt := fieldAt d 0x32 1
  fieldAt d 0 4 == 1 && decide (256 ≤ d.length) && decide (kind ≤ 2) && decide (fieldAt d 5 1 ≤ 11)
    && (if dec then [0, 1, 9, 10].contains (manKv d) else manKv d == 0xFF)
    && decide (fieldAt d 7 1 ≤ 1) && within 1 256 (fieldAt d 0x10 2) && within 1 256 (fieldAt d 0x12 2)
    && within 1 (fieldAt d 0x12 2) (fieldAt d 0x14 2) && fieldAt d 0x12 2 % fieldAt d 0x14 2 == 0
    && within 32 512 (fieldAt d 0x16 2) && fieldAt d 0x16 2 % 32 == 0
    && within 256 65536 (fieldAt d 0x18 4) && fieldAt d 0x18 4 % 64 == 0 && within 256 262144 (fieldAt d 0x1C 4)
    && (if dec then within 32 1048576 (manContext d) && manContext d % 32 == 0 else manContext d == 0)
    && (if dec then fieldAt d 0x24 4 == 0 else within 16 65536 (fieldAt d 0x24 4))
    && decide (fieldAt d 0x28 4 < fieldAt d 0x1C 4)
    && (if kind = 2 then decide (fieldAt d 0x2C 4 < fieldAt d 0x1C 4) else fieldAt d 0x2C 4 == 0xFFFFFFFF)
    && (match kind with
      | 0 => fieldAt d 0x30 2 == 0
      | 1 => within 32 4096 (fieldAt d 0x30 2) && fieldAt d 0x30 2 % 32 == 0
      | _ => fieldAt d 0x30 2 == 1)
    && (if kind = 1 then decide (outFmt ≤ 4) else outFmt == 0)
    && decide (fieldAt d 0x33 1 < 8) && fieldAt d 0x33 1 % 4 != 3
    && decide (fieldAt d 0x34 1 ≤ 127) && within 1 16 split && decide (fieldAt d 0x36 1 < split)
    && (if split = 1 then fieldAt d 0x37 1 == 0 else decide (fieldAt d 0x37 1 ≤ 1))
    && zeroBytes d (0x40 + split) 0x50 && zeroBytes d 0x6A 0x6C && zeroBytes d 0x80 0x100
    && decide (fieldAt d 0x70 8 + fieldAt d 0x78 8 ≤ d.length) && decide (fieldAt d 0x38 8 ≤ fieldAt d 0x78 8)
    && (if 2 ≤ outFmt then scaleOk (fieldAt d (fieldAt d 0x70 8) 4) else true)

/-- The codebook lines of a LUT tile: its sub-tiles' 64 bytes each (R224). -/
def lutLines (body : Bytes) (t : LutTile) : List Bytes :=
  let b := bits (fieldAt body (t.line + 0x20) 1) 0 2 + 1
  (List.range t.subs).map fun i => (body.drop (t.line + i * (256 * b + 64))).take 64

/-- Is a codebook line wrong for codes of `b` bits: another b, a reserved field that is not 0, an entry beyond 2^b − 1 that is not 0, or
not whole? (R226) -/
def lutLineBad (b : Nat) (l : Bytes) : Bool :=
  l.length != 64 || fieldAt l 0x20 1 != b - 1 || !zeroBytes l 0x21 0x40 || !zeroBytes l (2 * 2 ^ b) 0x20

/-- Does a LUT tile of a body break R226 by itself? -/
def lutTileBad (body : Bytes) (t : LutTile) : Bool :=
  let b := bits (fieldAt body (t.line + 0x20) 1) 0 2 + 1
  decide (t.line < 256 * b) || (lutLines body t).any (lutLineBad b)

/-- Do copies of one column group's codebook differ? (R226) -/
def lutCopiesDiffer (body : Bytes) (l : List LutTile) : Bool :=
  l.any fun t => l.any fun u => t.group == u.group
    && (lutLines body t).any fun x => (lutLines body u).any fun y => x.take 32 != y.take 32

/-- Do the static scale records and LUT tiles of a body keep R220 and R226? Where they lie only the model's program knows, so its layout
comes with the command (log 43). -/
def bodyOk (body : Bytes) (y : BodyLayout) : Bool :=
  y.statics.all (fun x => staticOk ((body.drop x.1).take 16) (convWord x.2))
    && !y.tiles.any (lutTileBad body) && !lutCopiesDiffer body y.tiles

/-- The answer of R305 to a model. -/
def State.modelSt (s : State) (d : Bytes) (y : BodyLayout) : Nat :=
  if !manifestOk d then St.badObject
  else if (s.object 0 (fieldAt d 8 2)).isNone then St.noObject
  else match s.object 4 (fieldAt d 0x0A 2) with
    | none => St.noObject
    | some t =>
      if tokVocab t.data ≠ fieldAt d 0x1C 4 ∨ bodyOk ((d.drop (fieldAt d 0x70 8)).take (fieldAt d 0x78 8)) y = false then St.badObject
      else if (fieldAt d 5 1 = 11 ∧ s.cap 10 = false) ∨ (within 3 7 (fieldAt d 5 1) = true ∧ s.cap 11 = false) then St.unsupported
      else St.ok

/-- The answer of the format check of R98 to an object of a class. -/
def State.formatSt (s : State) (cls : Nat) (d : Bytes) (y : BodyLayout) : Nat :=
  let ok (b : Bool) : Nat := if b then St.ok else St.badObject
  match cls with
  | 0 => ok (programOk d)
  | 1 => s.modelSt d y
  | 2 => ok (!scanTablesBad d)
  | 3 => ok (updateProgramOk d)
  | _ => ok (tokenizerOk d)

/-! ## Space (R278, R306) -/

/-- Regions that a model's RESIDENT_BYTES take. -/
def residentNeed (cls : Nat) (d : Bytes) : Nat := if cls = 1 then (fieldAt d 0x38 8 + 65535) / 65536 else 0

/-- Allocations of an object: pool and bytes. The copies of its regions come first, then what lies in HBM only. -/
def objectAllocs (cls : Nat) (d : Bytes) : List (Nat × Nat) :=
  if cls = 1 then
    let rest := fieldAt d 0x78 8 - fieldAt d 0x38 8
    List.replicate (residentNeed cls d) (1, 65536) ++ (if rest = 0 then [] else [(3, rest)])
  else [(3, d.length)]

/-- RESIDENT regions of a cluster. -/
def Cluster.residents (c : Cluster) : Nat := ((List.range 384).filter fun k => c.isResident (k * 65536)).length

/-- Regions that a cluster can still take: at most 320 in all, in banks that are ON. -/
def Cluster.residentRoom (c : Cluster) : Nat :=
  min (320 - c.residents)
    ((List.range 384).filter fun k => decide (c.bank (k / 16) = .on) && !c.isResident (k * 65536)).length

/-- Clusters that a model's regions go to. -/
def State.modelClusters (s : State) (d : Bytes) : List Nat :=
  match s.part? (fieldAt d 0x34 1) with
  | some x => s.clustersOf x.mask
  | none => []

/-- Have the clusters room for `n` regions? -/
def State.residentFits (s : State) (gs : List Nat) (n : Nat) : Bool :=
  decide (n ≤ (gs.map fun g => (s.cluster g).residentRoom).sum)

/-- Are these free regions of the clusters, within their room? -/
def State.regionsFree (s : State) (gs : List Nat) (l : List (Nat × Nat)) : Bool :=
  decide l.Nodup && l.all (fun r => gs.contains r.1 && decide (r.2 < 384) && decide ((s.cluster r.1).bank (r.2 / 16) = .on)
      && !(s.cluster r.1).isResident (r.2 * 65536))
    && gs.all fun g => decide ((l.filter fun r => r.1 == g).length ≤ (s.cluster g).residentRoom)

/-- Do the pools hold the allocations? -/
def State.poolsFit (s : State) (l : List (Nat × Nat)) : Bool :=
  (List.range 5).all fun p => s.fits p ((l.filter fun x => x.1 == p).map (·.2)).sum

/-- Make allocations at the places the keeper chose; none where one is not free. -/
def takeAll : List (Nat × Nat) → List Nat → State → Option State
  | [], [], s => some s
  | x :: l, a :: as, s => if s.freeRange a x.2 then takeAll l as (s.take x.1 a x.2) else none
  | _, _, _ => none

/-- Copies lie in the stack of the die that holds their regions (R278). -/
def copiesRight : List (Nat × Nat) → List Nat → Bool
  | [], _ => true
  | r :: l, a :: as => decide (place a = .hbm (r.1 / 64)) && copiesRight l as
  | _ :: _, [] => false

/-- Fill and mark RESIDENT regions from `d`, with their copies (R261, R306). -/
def fillRegions (d : Bytes) : List (Nat × Nat) → List Nat → State → State
  | r :: l, a :: as, s =>
    let b := d.take 65536
    let s := (s.store (spAddr r.1 (r.2 * 65536)) b).writeMem a b
    let s := s.modCl r.1 fun c => { c with
      resident := Tab.set 0 c.resident (r.2 / 16) (setBit (Tab.get 0 c.resident (r.2 / 16)) (r.2 % 16))
      copies := Tab.put c.copies r.2 a }
    fillRegions (d.drop 65536) l as s
  | _, _, s => s

/-- What the placing of an object leads to. -/
inductive Placed where
  | done (s : State) (o : Obj)
  | refused (st : Nat)
  /-- The places named are not free: the keeper does not take them. -/
  | never
deriving DecidableEq, Repr

/-- Place an object (R98 stage 3, R306): `regions` and `space` are the places the keeper chose. -/
def State.placeObject (s : State) (o : Obj) (d : Bytes) (regions : List (Nat × Nat)) (space : List Nat) : Placed :=
  let need := residentNeed o.cls d
  let gs := if need = 0 then [] else s.modelClusters d
  let al := objectAllocs o.cls d
  if !s.residentFits gs need then .refused St.residentFull
  else if !s.poolsFit al then .refused St.noSpace
  else if regions.length ≠ need ∨ s.regionsFree gs regions = false ∨ copiesRight regions space = false then .never
  else match takeAll al space s with
    | none => .never
    | some s =>
      let body := if o.cls = 1 then (d.drop (fieldAt d 0x70 8)).take (fieldAt d 0x78 8) else d
      let res := if o.cls = 1 then fieldAt d 0x38 8 else 0
      let s := fillRegions (body.take res) regions space s
      let s := match space.drop need with
        | a :: _ => s.writeMem a (body.drop res)
        | [] => s
      .done s { o with data := d, regions := regions, space := space }

/-! ## Installation (R97, R98) -/

/-- Key of an object in the catalogue. -/
def objKey (cls id : Nat) : Nat := cls * 65536 + id

/-- The bytes of an extent; none where a sector cannot be recovered. -/
def State.extentBytes (s : State) (nsid slba size : Nat) (lost : List Nat) : Option Bytes :=
  let l := (List.range ((size + 4095) / 4096)).map fun k => s.readLba nsid (slba + k) lost
  if l.all fun x => match x with
      | some y => !y.2.2
      | none => false
  then some ((l.flatMap fun x => match x with
    | some y => y.2.1
    | none => []).take size)
  else none

/-- The object an OBJECT_INSTALL asks for. -/
def installOf (p : Bytes) : Obj :=
  { cls := fieldAt p 0 1, source := fieldAt p 1 1, id := fieldAt p 2 2, size := fieldAt p 8 8, nsid := fieldAt p 0x10 4
    slba := fieldAt p 0x18 8, digest := fieldAt p 0x20 32, data := p.drop 0x40 }

/-- Bytes of inline objects in the catalogue, other than under a key. -/
def Amp.inlineBytes (a : Amp) (key : Nat) : Nat :=
  ((a.objects.filter fun o => o.2.source == 0 && o.1 != key).map fun o => o.2.size).sum

/-- The refusal of OBJECT_INSTALL before it is accepted; ST_OK where there is none. -/
def State.installSt (s : State) (o : Obj) : Nat :=
  if 4 < o.cls ∨ 1 < o.source then St.unsupported
  else if o.source = 0 then
    if o.nsid ≠ 0 ∨ o.slba ≠ 0 then St.unsupported
    else if 67108864 < s.amp.inlineBytes (objKey o.cls o.id) + o.size then St.noSpace
    else St.ok
  else if o.size = 0 ∨ 2 ^ 36 < o.size then St.unsupported
  else if o.nsid = 0 ∨ 128 < o.nsid then St.idRange
  else if (Tab.find s.host.ns o.nsid).isNone then St.noObject
  else if s.nsSize o.nsid < o.slba + (o.size + 4095) / 4096 then St.idRange
  else St.ok

/-- OBJECT_INSTALL (R97). -/
def objectInstall : AmpBody := fun j s =>
  let o := installOf j.payload
  let st := s.installSt o
  if st ≠ St.ok then ampRefuse st s
  else ampLong (.install o.cls o.id) (fun id s => s.modAmp fun a => { a with installs := a.installs ++ [{ op := id, obj := o }] }) s

/-- OBJECT_INSTALL. -/
def execObjectInstall (mb : Fin 3) (s : State) : Out := .next (ampExec mb 0x0201 objectInstall s)

/-- End an installation. -/
def State.installEnds (s : State) (op st : Nat) : State :=
  (s.modAmp fun a => { a with installs := a.installs.filter fun i => i.op != op }).opDone op st

/-- The catalogue entry is written and the switch made; the old version is freed once nothing uses it (R98, R99). -/
def State.switchTo (s : State) (o : Obj) : State :=
  let key := objKey o.cls o.id
  (s.dropObject key).modAmp fun a => { a with
    objects := Tab.put a.objects key { o with ver := a.nextVer }, nextVer := a.nextVer + 1 }

/-- The stages of R98 for an object: reading, DIGEST, format, space. -/
def State.stages (s : State) (o : Obj) (lost : List Nat) (y : BodyLayout) (regions : List (Nat × Nat)) (space : List Nat) : Placed :=
  match if o.source = 0 then some o.data else s.extentBytes o.nsid o.slba o.size lost with
  | none => .refused St.mediaUnrecovered
  | some d =>
    if Config.sha256 d ≠ o.digest then .refused St.badDigest
    else
      let st := s.formatSt o.cls d y
      if st ≠ St.ok then .refused st else s.placeObject o d regions space

/-- OBJECT_INSTALL_DONE (R98). `lost`: LBAs that cannot be recovered; `body`: the layout of a model's body; `regions`, `space`: the places the keeper takes. Installations to
one ID switch in the order of their messages. One that would take the inline objects past 64 MiB ends with ST_NO_SPACE (R99). -/
def execObjectInstallDone (op : Nat) (lost : List Nat) (body : BodyLayout) (regions : List (Nat × Nat)) (space : List Nat) (s : State) :
    Out :=
  .next (match s.amp.installs.find? fun i => i.op == op with
    | some i =>
      let first := s.amp.installs.find? fun k => k.obj.cls == i.obj.cls && k.obj.id == i.obj.id
      if !s.serving || s.isHeld || (first.map (·.op)) != some op then s
      else match s.sweepObjects.stages i.obj lost body regions space with
        | .refused st => s.installEnds op st
        | .never => s
        | .done t o =>
        if o.source = 0 ∧ 67108864 < s.amp.inlineBytes (objKey o.cls o.id) + o.size then s.installEnds op St.noSpace
        else (t.switchTo o).installEnds op St.ok
    | none => s)

/-- OBJECT_REMOVE (R98, R99, R497). -/
def objectRemove : AmpBody := fun j s =>
  let cls := fieldAt j.payload 0 1
  let key := objKey cls (fieldAt j.payload 2 2)
  if 4 < cls then ampRefuse St.unsupported s
  else if Tab.has s.amp.objects key then ampAnswer (s.dropObject key) []
  else ampRefuse St.noObject s

/-- OBJECT_REMOVE. -/
def execObjectRemove (mb : Fin 3) (s : State) : Out := .next (ampExec mb 0x0202 objectRemove s)

/-- OBJECT_LIST (R497). -/
def objectList : AmpBody := fun j s =>
  let cls := fieldAt j.payload 0 1
  let first := fieldAt j.payload 2 2
  if 4 < cls then ampRefuse St.unsupported s
  else
    let l := s.amp.objects.filter fun o => decide (objKey cls first ≤ o.1) && decide (o.1 < objKey (cls + 1) 0)
    let r := l.take 1365
    let next := match r.getLast? with
      | some o => if r.length < l.length then o.2.id + 1 else 65536
      | none => 65536
    ampAnswer s (leBytes 4 r.length ++ leBytes 4 next ++ r.flatMap fun o =>
      leBytes 2 o.2.id ++ leBytes 1 o.2.source ++ leBytes 5 0 ++ leBytes 8 o.2.size ++ leBytes 32 o.2.digest)

/-- OBJECT_LIST. -/
def execObjectList (mb : Fin 3) (s : State) : Out := .next (ampExec mb 0x0203 objectList s)

/-! ## Restoring at start (R99) -/

/-- An object that could not be restored leaves the catalogue; OBJECT LOST is posted (R101). -/
def State.objectLost (s : State) (o : Obj) : State :=
  (s.modAmp fun a => { a with objects := Tab.del a.objects (objKey o.cls o.id) }).post 0x0A 1 (leBytes 1 o.cls ++ leBytes 2 o.id)

/-- Where the keeper puts an object that it restores. -/
def Restore.none : List (Nat × Nat) × List Nat := ([], [])

/-- Restore one object at the places named for it; its DIGEST, checked again, vouches for its body; one that R99 does not restore is lost; none where the places are not ones the keeper
can take. -/
def State.restoreOne (s : State) (o : Obj) (lost : List Nat) (at_ : List (Nat × Nat) × List Nat) : Option State :=
  let o := { o with regions := [], space := [] }
  match s.stages { o with data := if o.source = 0 then o.data else [] } lost {} at_.1 at_.2 with
  | .done s o => some (s.modAmp fun a => { a with objects := Tab.put a.objects (objKey o.cls o.id) o })
  | .refused _ => some (s.objectLost o)
  | .never => none

/-- Restore objects one after another. `places`: places by key of the catalogue. -/
def restoreList (lost : List Nat) (places : Tab (List (Nat × Nat) × List Nat)) : List Obj → State → Option State
  | [], s => some s
  | o :: l, s =>
    match s.restoreOne o lost (Tab.get Restore.none places (objKey o.cls o.id)) with
    | some s => restoreList lost places l s
    | none => none

/-- Restore the catalogue in the class order 4, 0, 2, 3, 1 (R99). -/
def State.restoreObjects (s : State) (lost : List Nat) (places : Tab (List (Nat × Nat) × List Nat)) : Option State :=
  let of (c : Nat) : List Obj := (s.amp.objects.map (·.2)).filter fun o => o.cls == c
  restoreList lost places (of 4 ++ of 0 ++ of 2 ++ of 3 ++ of 1) s

end Sys2Proof.Machine
end

