-- ==== Sys2Proof/Machine/Select.lean ====
section
/-! DEFINITION. The region selection units (R159, R168-R171). -/

namespace Sys2Proof.Machine

/-! ## Fields of the selection descriptor (R169) -/

/-- MODE. -/
def selMode (d : Bytes) : Nat := fieldAt d 0 1
/-- KFMT. -/
def selKfmt (d : Bytes) : Nat := fieldAt d 1 1
/-- VSRC. -/
def selVsrc (d : Bytes) : Nat := fieldAt d 2 1
/-- INVERT. -/
def selInvert (d : Bytes) : Bool := bit (fieldAt d 3 1) 0
/-- SORT. -/
def selSort (d : Bytes) : Bool := bit (fieldAt d 3 1) 1
/-- N. -/
def selN (d : Bytes) : Nat := fieldAt d 4 4
/-- K. -/
def selK (d : Bytes) : Nat := fieldAt d 8 4
/-- THRESH_KEY. -/
def selThresh (d : Bytes) : Nat := fieldAt d 0x0C 4
/-- KEY_ADDR. -/
def selKeyAddr (d : Bytes) : Nat := fieldAt d 0x10 8
/-- VAL_ADDR. -/
def selValAddr (d : Bytes) : Nat := fieldAt d 0x18 8
/-- RES_ADDR. -/
def selResAddr (d : Bytes) : Nat := fieldAt d 0x20 8
/-- ROW_ADDR. -/
def selRowAddr (d : Bytes) : Nat := fieldAt d 0x28 8
/-- ROW_BYTES. -/
def selRowBytes (d : Bytes) : Nat := fieldAt d 0x30 2
/-- DONE_SLOT. -/
def selSlot (d : Bytes) : Nat := fieldAt d 0x32 2
/-- INDEX_BASE. -/
def selBase (d : Bytes) : Nat := fieldAt d 0x34 4

/-- A region unit. -/
def State.selUnit (s : State) (u : Nat) : SelUnit := Tab.get {} s.sel.units u
/-- Change a region unit. -/
def State.modUnit (s : State) (u : Nat) (f : SelUnit → SelUnit) : State :=
  s.modSel fun x => { x with units := Tab.mod {} x.units u f }

/-- Bytes of a weight of the value stream. -/
def weightBytes (v : Nat) : Nat := if v = 2 then 4 else 2
/-- Value of a weight code. -/
def weightValue (v c : Nat) : Fv := if v = 2 then Fmt.fp32.decode c else if v = 3 then Fmt.fp16.decode c else Fmt.bf16.decode c

/-- Bytes of an entry (R170). -/
def entryBytes (gather : Bool) (d : Bytes) : Nat := if gather then 8 + selRowBytes d else 8

/-- Who a selection's accesses count as: keeper firmware, or the task that issued it (R169). -/
def SelJob.requester (j : SelJob) : Requester := if j.keeper then .keeper else .task (Fin.ofNat 128 j.g) j.grants

/-- A DONE_SLOT that names no flag, but for 0xFFFF from keeper firmware (R169). -/
def SelJob.badSlot (j : SelJob) : Bool := decide (4095 < selSlot j.desc) && !(j.keeper && selSlot j.desc == 0xFFFF)

/-- A field out of its range, or indices that pass 0xFFFF_FFFE (R169); DONE_SLOT aside. -/
def selOutOfRange (d : Bytes) : Bool :=
  let v := selVsrc d
  decide (1 < selMode d) || decide (5 < selKfmt d) || decide (4 < v) || (v == 1 && selKfmt d == 5)
    || decide (selN d = 0) || decide (16777216 < selN d) || decide (selK d = 0)
    || (if selMode d = 0 then decide (4096 < selK d) || decide (selThresh d ≠ 0) else decide (65536 < selK d))
    || (decide (v ≤ 1) && decide (selValAddr d ≠ 0)) || decide (selResAddr d % 64 ≠ 0)
    || decide (selRowBytes d % 8 ≠ 0) || decide (4096 < selRowBytes d)
    || decide (0xFFFFFFFE < selBase d + selN d - 1)

/-- Ranges a selection reads, and the one it writes. -/
def selRanges (gather : Bool) (d : Bytes) : List (Nat × Nat) × (Nat × Nat) :=
  ([(selKeyAddr d, selN d * keyBytes (selKfmt d))]
    ++ (if 2 ≤ selVsrc d then [(selValAddr d, selN d * weightBytes (selVsrc d))] else [])
    ++ (if gather ∧ selRowBytes d ≠ 0 then [(selRowAddr d, selN d * selRowBytes d)] else []),
    (selResAddr d, 64 + selK d * entryBytes gather d))

/-- The checks of R169 in their order; the unit's ranges in banks that are not ON answer as R32 lays down. -/
def State.selCheck (s : State) (j : SelJob) (gather : Bool) : Nat :=
  let d := j.desc
  let (rd, wr) := selRanges gather d
  let codes := (rd.map fun p => s.pieceSts j.requester false p.1 p.2).flatten ++ s.pieceSts j.requester true wr.1 wr.2
  match j.doomed with
  | some st => st
  | none =>
    if fieldAt d 3 1 / 4 ≠ 0 ∨ fieldAt d 0x38 8 ≠ 0 then St.reservedField
    else if selOutOfRange d || j.badSlot then St.unsupported
    else if codes.contains St.addrUnmapped then St.addrUnmapped
    else if codes.contains St.addrDenied then St.addrDenied
    else (codes.find? (· ≠ St.ok)).getD St.ok

/-- The result header (R170). -/
def selHeader (st flags passes count tie boundary sel out invalid cycles : Nat) : Bytes :=
  leBytes 2 st ++ leBytes 1 flags ++ leBytes 1 passes ++ leBytes 4 count ++ leBytes 4 tie ++ leBytes 4 boundary ++ leBytes 8 sel
    ++ leBytes 8 out ++ leBytes 4 invalid ++ leBytes 4 cycles ++ List.replicate 24 0

/-- Write a header where the result area can be written; one that meets a bank that is off is dropped and counted (R273). -/
def State.selWriteHeader (s : State) (j : SelJob) (b : Bytes) : State :=
  if j.desc = [] then s else (s.writeRange j.requester false (selResAddr j.desc) b).2

/-- A selection ends: DONE_SLOT and DONE_COUNT (R171). A flag that keeper firmware names belongs to no issuing cluster and is not set
(log 102). -/
def State.selEnd (s : State) (u : Nat) (j : SelJob) : State :=
  let s := s.modUnit u fun x => { x with done := (x.done + 1) % 65536 }
  if j.desc ≠ [] ∧ j.keeper = false ∧ selSlot j.desc < 4096 then s.postSlot j.g j.epoch (selSlot j.desc) else s

/-- A descriptor ends without a selection: refused or flushed. -/
def State.selRefuse (s : State) (u : Nat) (j : SelJob) (st : Nat) : State :=
  (s.selWriteHeader j (selHeader st 0 0 0 0 0 0 0 0 0)).selEnd u j

/-- sel.issue on a core (R159, R169, R197): the region's unit queues the descriptor, or the core stalls while 8 are queued. -/
def State.selIssue (s : State) (g : Fin 128) (f7 : Fin 128) (rd rs1 rs2 : Fin 32) : State :=
  s.xlz g f7 [rd.val, rs2.val] false fun s =>
    let c := s.cluster g
    let a := c.core.reg rs1
    match s.descCheck g a with
    | some st => s.xlzOperand g st
    | none =>
      if 8 ≤ (s.selUnit (g / 8)).queue.length then s.stall g .unitFull
      else
        let ((st, d), s) := s.fetchDesc (.steward g) (some g.val) a 64
        let j : SelJob := { desc := d, g := g, epoch := c.epoch, grants := s.grantsOn g, tag := s.tagOf (some g.val)
                            doomed := if st = St.ok then none else some st }
        (s.modUnit (g / 8) fun x => { x with queue := x.queue ++ [j] }).modCl g fun c => c.retire

/-- Keeper firmware queues a descriptor (R159); while 8 are queued it is answered ST_BUSY (DESIGN CHOICE, log 102). -/
def State.selQueue (s : State) (u : Nat) (d : Bytes) : State :=
  if 8 ≤ (s.selUnit u).queue.length then s.reply (.value St.busy)
  else s.modUnit u fun x => { x with queue := x.queue ++ [{ desc := fitTo 64 d, keeper := true }] }

/-- SEL_ISSUE. -/
def execSelIssue (who : SelIssuer) (f7 : Fin 128) (rd rs1 rs2 : Fin 32) (s : State) : Out :=
  .next (match who with
    | .core g => s.selIssue g f7 rd rs1 rs2
    | .keeper u d => s.selQueue u d)

/-- SELECTION_START (R162, R169): the next queued descriptor starts, or is refused. -/
def execSelectionStart (u : Fin 16) (s : State) : Out :=
  let x := s.selUnit u
  .next (match x.queue, x.run with
    | j :: l, none =>
      if x.enable then
        let st := s.selCheck j x.gather
        let s := s.modUnit u fun x => { x with queue := l }
        if st = St.ok then s.modUnit u fun x => { x with run := some { j with gather := x.gather } }
        else (s.modUnit u fun x => { x with refused := satAdd 65535 x.refused 1 }).selRefuse u j st
      else s
    | _, _ => s)

/-- Source codes of `n` elements of `k` bytes. -/
def State.codesAt (s : State) (a k n : Nat) : List Nat :=
  let b := s.bytesAt a (n * k)
  (List.range n).map fun i => fieldAt b (i * k) k

/-- The selection of a descriptor over its source values. -/
def selOf (d : Bytes) (keys : List (Option Nat)) : Selected :=
  let r := if selMode d = 0 then topk (selK d) keys else selectAbove (selK d) (selThresh d) keys
  if selSort d then { r with picks := sortKeys r.picks } else r

/-- The two sums (R167): values of the elements by position, those selected and the valid ones left out. -/
def selMasses (vals : List Fv) (keys : List (Option Nat)) (picks : List (Nat × Nat)) : Nat × Nat :=
  let chosen := picks.map (·.1)
  let pos := (validKeys 0 keys).map (·.1)
  let sum (l : List Nat) : Nat := Fmt.fp64.encode (mass (l.map fun i => vals.getD i (.fin false 0 0)))
  (sum (pos.filter chosen.contains), sum (pos.filter fun i => !chosen.contains i))

/-- Entries as written (R168, R170), with the sentinels of top-k mode. -/
def State.selEntries (s : State) (j : SelJob) (picks : List (Nat × Nat)) : Bytes :=
  let d := j.desc
  let row (i : Nat) : Bytes := if j.gather then s.bytesAt (selRowAddr d + i * selRowBytes d) (selRowBytes d) else []
  (picks.map fun p => leBytes 4 (p.1 + selBase d) ++ leBytes 4 p.2 ++ row p.1).flatten
    ++ (if selMode d = 0 then
        (List.replicate (selK d - picks.length)
          (leBytes 4 0xFFFFFFFF ++ leBytes 4 0 ++ List.replicate (entryBytes j.gather d - 8) 0)).flatten
      else [])

/-- The element of a stream in which a word lies. -/
def strideAt (w a k : Nat) : Nat := (w - a) / k

/-- A selection's failing read: the word, the passes begun, and INVALID up to it (R171). -/
structure SelFail where
  word : Nat
  passes : Nat
  invalid : Nat
deriving DecidableEq, Repr

/-- NaN source values among the first elements. -/
def invalidIn (keys : List (Option Nat)) (m : Nat) : Nat := ((keys.take m).filter (·.isNone)).length

/-- The first of the selected elements whose payload row holds a bad word: its position and the word. -/
def State.badRow (s : State) (d : Bytes) (picks : List (Nat × Nat)) : Option (Nat × Nat) :=
  (picks.filterMap fun p => (s.firstBad (selRowAddr d + p.1 * selRowBytes d) (selRowBytes d)).map fun w => (p.1, w)).head?

/-- The failing read of a selection, if one fails: in top-k mode the passes over the keys come first; in threshold mode keys,
weights and rows are read together, element by element (R162, R163, R165, R167). -/
def State.selFails (s : State) (j : SelJob) (keys : List (Option Nat)) (r : Selected) : Option SelFail :=
  let d := j.desc
  let n := selN d
  let k := keyBytes (selKfmt d)
  let wb := weightBytes (selVsrc d)
  let bk := (s.firstBad (selKeyAddr d) (n * k)).map fun w => (strideAt w (selKeyAddr d) k, w)
  let bw := if 2 ≤ selVsrc d ∧ j.gather = false then
      (s.used.firstBad (selValAddr d) (n * wb)).map fun w => (strideAt w (selValAddr d) wb, w)
    else none
  let br := if j.gather then s.used.badRow d r.picks else none
  if selMode d = 0 then
    match bk, bw, br with
    | some x, _, _ => some ⟨x.2, 1, invalidIn keys x.1⟩
    | none, some x, _ => some ⟨x.2, r.passes, invalidIn keys n⟩
    | none, none, some x => some ⟨x.2, r.passes, invalidIn keys n⟩
    | none, none, none => none
  else
    -- the key of an element is read before its weight and its row
    let l := (bk.map fun x => (2 * x.1, x.1, x.2)).toList ++ (bw.map fun x => (2 * x.1 + 1, x.1 + 1, x.2)).toList
      ++ (br.map fun x => (2 * x.1 + 1, x.1 + 1, x.2)).toList
    match l with
    | [] => none
    | x :: l =>
      let y := l.foldl (fun a b => if b.1 < a.1 then b else a) x
      some ⟨y.2.2, 0, invalidIn keys y.2.1⟩

/-- A selection that meets a bad word (R171): the fault of the attempt that issued it, the header, and the entry area undefined. -/
def State.selPoison (s : State) (u : Nat) (j : SelJob) (f : SelFail) (cycles : Nat) : State :=
  let d := j.desc
  let s := s.used.reportBadWord (if j.keeper then partnerHd else partnerOfCluster j.g) j.tag f.word
  let s := match badClass f.word with
    | some c => if j.keeper then s else s.noteAttempt j.g j.epoch (c.code, f.word)
    | none => s
  let a := selResAddr d + 64
  let s := s.undefine a (a + selK d * entryBytes j.gather d)
  let s := s.selWriteHeader j (selHeader St.poisoned 0 f.passes 0 0 0 0 0 f.invalid cycles)
  (s.modUnit u fun x => { x with poisoned := satAdd 65535 x.poisoned 1 }).selEnd u j

/-- The keys of a descriptor's source values. -/
def State.selKeys (s : State) (d : Bytes) : List (Option Nat) :=
  (s.codesAt (selKeyAddr d) (keyBytes (selKfmt d)) (selN d)).map (keyOf (selKfmt d) (selInvert d))

/-- The value stream (R167). -/
def State.selValues (s : State) (d : Bytes) : List Fv :=
  if selVsrc d = 1 then (s.codesAt (selKeyAddr d) (keyBytes (selKfmt d)) (selN d)).map (sourceValue (selKfmt d))
  else (s.codesAt (selValAddr d) (weightBytes (selVsrc d)) (if 2 ≤ selVsrc d then selN d else 0)).map (weightValue (selVsrc d))

/-- The entries and the header of a selection are written, and it ends (R170, R171); a source in a bank that has gone off since its start
answers ST_ADDR_UNMAPPED (R273). -/
def State.selWrite (s : State) (u : Nat) (j : SelJob) (keys : List (Option Nat)) (r : Selected) (cycles : Nat) : State :=
  let d := j.desc
  let (mi, mo) := if selVsrc d = 0 ∨ j.gather then (0, 0) else selMasses (s.selValues d) keys r.picks
  let entries := s.selEntries j r.picks
  let flags := b2n r.short + 2 * b2n r.trunc + 4 * b2n j.gather + 8 * b2n (selSort d)
  let rst := ((selRanges j.gather d).1.map fun p => s.accessSt j.requester false p.1 p.2).find? (· ≠ St.ok) |>.getD St.ok
  let (st, s) := if rst = St.ok then s.writeRange j.requester false (selResAddr d + 64) entries else (rst, s)
  (s.selWriteHeader j
    (if st = St.ok then selHeader St.ok flags r.passes r.picks.length r.tie r.boundary mi mo (invalidIn keys (selN d)) cycles
     else selHeader st 0 0 0 0 0 0 0 0 cycles)).selEnd u j

/-- SELECTION_COMPLETE (R163-R168, R170, R171). `cycles`: CYCLES of the header. -/
def execSelectionComplete (u : Fin 16) (cycles : Nat) (s : State) : Out :=
  .next (match (s.selUnit u).run with
    | some j =>
      let s := s.modUnit u fun x => { x with run := none }
      let keys := s.selKeys j.desc
      let r := selOf j.desc keys
      match s.selFails j keys r with
      | some f => s.selPoison u j f cycles
      | none => s.used.used.selWrite u j keys r cycles
    | none => s)

/-- End queued descriptors with ST_STOPPED. -/
def selStopAll (u : Nat) : List SelJob → State → State
  | [], s => s
  | j :: l, s => selStopAll u l (s.selRefuse u j St.stopped)

/-- SEL_FLUSH (SEL_CTRL). -/
def execSelFlush (u : Fin 16) (s : State) : Out :=
  .next (selStopAll u (s.selUnit u).queue (s.modUnit u fun x => { x with queue := [] }))

/-- SEL_ENABLE (SEL_CTRL): GATHER is written with it and takes effect at the next descriptor started (R168). -/
def execSelEnable (u : Fin 16) (on gather : Bool) (s : State) : Out :=
  .next (s.modUnit u fun x => { x with enable := on, gather := gather })

/-- SEL_STATUS. -/
def SelUnit.status (x : SelUnit) : Nat := x.queue.length + 16 * b2n x.run.isSome + 2 ^ 16 * x.done
/-- SEL_COUNTS. -/
def SelUnit.counts (x : SelUnit) : Nat := x.refused + 2 ^ 16 * x.poisoned

end Sys2Proof.Machine
end

