-- ==== Sys2Proof/Machine/BankPower.lean ====
section
/-! DEFINITION. What the power-down of a scratchpad bank waits for (R272), and the reload of RESIDENT regions (R270). -/

namespace Sys2Proof.Machine

/-! ## The inbound-write count (R272) -/

/-- Ranges that an operation in progress of cluster `h`'s gangs writes. -/
def opWrites (h : Nat) (c : Cluster) : MxuOp → List (Nat × Nat)
  | .drain addr stride rs _ _ rows =>
    (List.range rows).map fun i => (spAddr h (addr + i * stride), 4 * gangN c.gang + (if rs then 4 else 0))
  | .chain k => chainWrites k.desc
  | _ => []

/-- Ranges of scratchpad that the operations in progress of a cluster write: the mover's, and the gangs'. -/
def State.clusterWrites (s : State) (h : Nat) (c : Cluster) : List (Nat × Nat) :=
  (c.movers.filter fun j => j.started && j.doomed.isNone).flatMap (fun j => (mvStatus j.desc, 8) :: (s.mvSp j.desc).2)
    ++ ([0, 1, 2, 3].flatMap fun m => (c.gangAt m).active.flatMap fun a => opWrites h c a.op)

/-- Ranges that the selections in progress write. -/
def State.selectionWrites (s : State) : List (Nat × Nat) :=
  s.sel.units.filterMap fun u => u.2.run.map fun j => (selRanges j.gather j.desc).2

/-- Is the inbound-write count of a bank above zero? An operation in progress holds its writes as accepted until it ends (log 26). -/
def State.inbound (s : State) (g b : Nat) : Bool :=
  (s.cl.flatMap (fun p => s.clusterWrites p.1 p.2) ++ s.selectionWrites).any (rangesMeet (spAddr g (b * 2 ^ 20), 2 ^ 20))

/-- BANK_OFF (R272): within 10 µs of the request, once the inbound-write count is zero. -/
def execBankOff (g : Fin 128) (s : State) : Out :=
  let c := s.cluster g
  .next (match c.bankIn .downWait with
    | some b =>
      if s.inbound g b = false ∧ s.count (dieOfCluster g) ≤ c.pwrSince + 10 then s.modCl g fun c => c.bankEnds b .off St.ok else s
    | none => s)

/-! ## Reloads (R270) -/

/-- The 64 KiB at a recorded address; none where they cannot be read. With bit 63 set it names flash: [62:40] the namespace, [39:0] the
first LBA (log 62); else HBM. -/
def State.copyAt (s : State) (a : Nat) (lost : List Nat) : Option Bytes :=
  if bit a 63 then s.extentBytes (bits a 40 23) (bits a 0 40) 65536 lost
  else if s.accessSt .keeper false a 65536 = St.ok ∧ s.firstBad a 65536 = none then some (s.bytesAt a 65536) else none

/-- The 64 KiB of a region as the flash holds the object placed there: of the catalogue or of its extent (R99). -/
def State.flashCopy (s : State) (g k : Nat) (lost : List Nat) : Option Bytes :=
  match (s.amp.objects.map (·.2)).find? fun o => o.regions.contains (g, k) with
  | some o =>
    let i := o.regions.findIdx (· == (g, k))
    match if o.source = 0 then some o.data else s.extentBytes o.nsid o.slba o.size lost with
    | some d =>
      if Config.sha256 d = o.digest then
        let res := ((d.drop (fieldAt d 0x70 8)).take (fieldAt d 0x78 8)).take (fieldAt d 0x38 8)
        some (fitTo 65536 (res.drop (65536 * i)))
      else none
    | none => none
  | none => none

/-- What a reload writes: the recorded copy in HBM, or on flash when that is gone; none where neither can be read (R270). -/
def State.reloadData (s : State) (g k : Nat) (lost : List Nat) : Option Bytes :=
  match s.copyAt (Tab.get 0 (s.cluster g).copies k) lost with
  | some d => some d
  | none => s.flashCopy g k lost

/-- The reload of the region at an address ends: its bytes are written and a re-run that waited goes on, or it has failed (R270). -/
def State.reloaded (s : State) (g : Nat) (b : Fin 24) (a : Nat) : Option Bytes → State
  | some d =>
    let s := s.store a d
    match s.taskOf g with
    | some t => if t.rerunDue then s.faultNow g else s
    | none => s
  | none =>
    let s := s.report (dieOfCluster g) { cls := .spResidentLost, source := spSource g b, partner := partnerOfCluster g
                                         tag := s.tagOf (some g), addr := a, aux := 1 }
    s.stepEnds g St.stepFailed

/-- RESIDENT_RELOAD_DONE (R270): the region is written from its recorded copy. `lost`: LBAs that cannot be recovered; `ok`: the transfer
itself does not fail. A reload that fails keeps the mark, opens a Crimson record and ends the step with ST_STEP_FAILED. -/
def execResidentReloadDone (g : Fin 128) (b : Fin 24) (r : Fin 16) (lost : List Nat) (ok : Bool) (s : State) : Out :=
  let k := b.val * 16 + r.val
  .next (
    if !(s.cluster g).reloads.contains k then s
    else
      (s.modCl g fun c => { c with reloads := c.reloads.filter (· ≠ k) }).reloaded g b (spAddr g (k * 65536))
        (if ok then s.reloadData g k lost else none))

end Sys2Proof.Machine
end

