-- ==== Sys2Proof/Machine/FaultLog.lean ====
section
/-! DEFINITION. Storm windows, the fault log, its messages, scrubbing and retirement (R425-R438). -/

namespace Sys2Proof.Machine

/-! ## The storm window and the ring (R427, R438) -/

/-- Change a concentrator. -/
def State.modConc (s : State) (d : Die) (f : Conc → Conc) : State := s.modFaults fun x => x.setConc d (f (x.conc d))

/-- A slot of a concentrator's ring. -/
def State.ringSlot (s : State) (d : Die) (k : Nat) : Option RingSlot := Tab.find (s.faults.conc d).slots k

/-- Close the record of a slot and rewrite it in the ring. -/
def State.closeRecord (s : State) (d : Die) (k : Nat) (x : RingSlot) : State :=
  let x := { x with fr := { x.fr with closed := true } }
  (s.modConc d fun c => { c with slots := Tab.put c.slots k x }).writeMem ((s.faults.conc d).ringBase + 64 * k) x.fr.bytes

/-- FAULT_WINDOW_END (R427, R429): the local count has reached LAST_COUNT + 101. -/
def execFaultWindowEnd (d : Die) (k : Fin 256) (s : State) : Out :=
  .next (match s.ringSlot d k with
    | some x => if !x.fr.closed && decide (x.fr.lastCount + 101 ≤ s.count d) then s.closeRecord d k x else s
    | none => s)

/-- FAULT_RECORD_AGE_LIMIT (R427): the local count has reached FIRST_COUNT + 1,000,000. -/
def execFaultRecordAgeLimit (d : Die) (k : Fin 256) (s : State) : Out :=
  .next (match s.ringSlot d k with
    | some x => if !x.fr.closed && decide (x.fr.firstCount + 1000000 ≤ s.count d) then s.closeRecord d k x else s
    | none => s)

/-- HEAD moves over finished slots; each is free again. -/
def Conc.freeFinished : Nat → Conc → Conc
  | 0, c => c
  | n + 1, c =>
    match Tab.find c.slots c.head with
    | some x =>
      if x.finished ∧ 0 < c.used then
        Conc.freeFinished n { c with slots := Tab.del c.slots c.head, head := (c.head + 1) % 256, used := c.used - 1 }
      else c
    | none => c

/-- Free `n` slots from HEAD upward, whatever they hold. -/
def Conc.freeSlots : Nat → Conc → Conc
  | 0, c => c
  | n + 1, c => Conc.freeSlots n { c with slots := Tab.del c.slots c.head, head := (c.head + 1) % 256, used := c.used - 1 }

/-- A write of HEAD: one that passes TAIL is ignored (R438). -/
def Conc.headWrite (c : Conc) (v : Nat) : Conc :=
  let n := (v % 256 + 256 - c.head % 256) % 256
  if n ≤ c.used then Conc.freeSlots n c else c

/-- FC_HEAD_WRITE (R438). -/
def execFcHeadWrite (d : Die) (v : Nat) (s : State) : Out := .next (s.modConc d fun c => c.headWrite v)

/-! ## The fault log (R428, R430) -/

/-- The FAULT event LOG_DROP: severity of the record, and its number where it had one (R101). -/
def State.logDrop (s : State) (sev record : Nat) : State :=
  let s := s.modFaults fun f =>
    if sev = 1 then { f with droppedAmber := satAdd (2 ^ 32 - 1) f.droppedAmber 1 }
    else { f with droppedOther := satAdd (2 ^ 32 - 1) f.droppedOther 1 }
  s.post 0x01 2 (leBytes 1 sev ++ leBytes 4 record)

/-- Room for a record in the log (R430): the state with the room made, or none where the new record is dropped. -/
def State.logRoom (s : State) (sev : Nat) : Option State :=
  if s.faults.log.length < 4096 then some s
  else if sev = 1 then none
  else match s.faults.log.find? fun e => e.fr.sev == 1 with
    | some e => some ((s.modFaults fun f => { f with log := f.log.filter fun x => x.fr.record != e.fr.record }).logDrop 1 e.fr.record)
    | none => none

/-- The keeper takes the record of a slot in (R428): RECORD and TIME, the log, the FAULT event. -/
def State.intake (s : State) (d : Die) (k : Nat) (x : RingSlot) : State :=
  match s.logRoom x.fr.sev with
  | some s =>
    let n := s.faults.nextRecord
    let t := s.stamp
    let r := { x.fr with record := n, time := t.1, timeLocal := t.2, closed := false }
    let s := s.modFaults fun f => { f with log := f.log ++ [{ fr := r }], nextRecord := n + 1 }
    let s := s.modConc d fun c => { c with slots := Tab.put c.slots k { x with taken := true, number := n } }
    s.post 0x01 1 (leBytes 4 n ++ leBytes 1 r.sev ++ leBytes 2 r.cls)
  | none => (s.modConc d fun c => { c with slots := Tab.put c.slots k { x with taken := true } }).logDrop x.fr.sev 0

/-- FAULT_RECORD_INTAKE (R428, R430). -/
def execFaultRecordIntake (d : Die) (k : Fin 256) (s : State) : Out :=
  .next (match s.ringSlot d k with
    | some x => if !x.taken && s.alive then s.intake d k x else s
    | none => s)

/-- FAULT_RECORD_FINALISE (R428): a closed record's final counts go to its log entry, and its slot is freed. An entry that has
been acknowledged stays away (R429). -/
def execFaultRecordFinalise (d : Die) (k : Fin 256) (s : State) : Out :=
  .next (match s.ringSlot d k with
    | some x =>
      if x.taken && x.fr.closed && !x.finished && s.alive then
        let s := s.modFaults fun f => { f with log := f.log.map fun e =>
          if e.fr.record = x.number then
            { fr := { e.fr with count := x.fr.count, lastCount := x.fr.lastCount, partners := x.fr.partners, closed := true } }
          else e }
        s.modConc d fun c => Conc.freeFinished 256 { c with slots := Tab.put c.slots k { x with finished := true } }
      else s
    | none => s)

/-- FAULT_LOG_PERSIST (R430): the keeper writes a record to the system area. -/
def execFaultLogPersist (record : Nat) (s : State) : Out :=
  .next (if s.alive then
    s.modFaults fun f => { f with log := f.log.map fun e => if e.fr.record = record then { e with persisted := true } else e }
    else s)

/-- FAULT_READ (R430). -/
def faultRead : AmpBody := fun j s =>
  let first := fieldAt j.payload 0 4
  let n := fieldAt j.payload 4 4
  if n = 0 ∨ 1023 < n then ampRefuse St.unsupported s
  else
    let l := (s.faults.log.filter fun e => decide (first ≤ e.fr.record)).take n
    let next := match l.getLast? with
      | some e => e.fr.record + 1
      | none => s.faults.nextRecord
    ampAnswer s (leBytes 4 l.length ++ leBytes 4 next ++ leBytes 4 s.faults.droppedAmber ++ leBytes 4 s.faults.droppedOther
      ++ l.flatMap fun e => e.fr.bytes)

/-- FAULT_READ. -/
def execFaultRead (mb : Fin 3) (s : State) : Out := .next (ampExec mb 0x0601 faultRead s)

/-- FAULT_ACK (R430). -/
def faultAck : AmpBody := fun j s =>
  let n := fieldAt j.payload 0 4
  if s.faults.nextRecord ≤ n then ampRefuse St.idRange s
  else ampAnswer (s.modFaults fun f => { f with log := f.log.filter fun e => decide (n < e.fr.record) }) []

/-- FAULT_ACK. -/
def execFaultAck (mb : Fin 3) (s : State) : Out := .next (ampExec mb 0x0602 faultAck s)

/-! ## Scrubbing (R434-R436) -/

/-- The scrub that a request asks for. -/
def scrubOf (p : Bytes) : Scrub :=
  { space := fieldAt p 0 1, noRepair := bit (fieldAt p 1 1) 0, nsid := fieldAt p 4 4, start := fieldAt p 8 8, len := fieldAt p 16 8 }

/-- The refusal of a scrub (R434); ST_OK where there is none. -/
def State.scrubSt (s : State) (x : Scrub) : Nat :=
  match x.space with
  | 0 =>
    if x.nsid ≠ 0 ∨ x.start % 64 ≠ 0 ∨ x.len % 64 ≠ 0 then St.unsupported
    else if 0x001800000000 < x.start + x.len
        ∨ (pieces (x.len / 65536 + 2) x.start x.len).any (fun q => match place q.1 with
          | .hbm k => s.dieLost k
          | _ => true) = true then St.idRange
    else St.ok
  | 1 =>
    if x.nsid ≠ 0 ∨ x.start % 8 ≠ 0 ∨ x.len % 8 ≠ 0 ∨ x.start < 0x100000000000 ∨ 0x100100000000 < x.start + x.len
        ∨ (x.len ≠ 0 ∧ x.start / 2 ^ 25 ≠ (x.start + x.len - 1) / 2 ^ 25) then St.unsupported
    else if (pieces (x.len / 65536 + 2) x.start x.len).any (fun q => match place q.1 with
        | .sp g b _ => decide ((s.cluster g).bank b ≠ .on)
        | _ => true) then St.addrUnmapped
    else St.ok
  | 2 =>
    if x.nsid = 0 ∨ 128 < x.nsid then St.unsupported
    else if s.nsSize x.nsid < x.start + x.len then St.idRange
    else St.ok
  | _ => St.unsupported

/-- SCRUB_RANGE (R434). -/
def scrubRange : AmpBody := fun j s =>
  let x := scrubOf j.payload
  let st := s.scrubSt x
  if st ≠ St.ok then ampRefuse st s
  else if s.faults.scrubs.any fun y => y.space == x.space then ampRefuse St.busy s
  else ampLong (.scrub x.space) (fun id s => s.modFaults fun f => { f with scrubs := f.scrubs ++ [{ x with op := id, began := s.hdCount }] }) s

/-- SCRUB_RANGE. -/
def execScrubRange (mb : Fin 3) (s : State) : Out := .next (ampExec mb 0x0603 scrubRange s)

/-- The report of an HBM word that a scrub found, by the stack's controller. -/
def State.scrubHbm (s : State) (bad : Bool) (a : Nat) : State :=
  match place a with
  | .hbm k =>
    s.report (if k = 0 then .cd0 else .cd1)
      { cls := if bad then .hbmUncorrected else .hbmCorrected, source := a / 1024, partner := partnerHbm, addr := a
        st := if bad then St.poisoned else St.ok }
  | _ => s

/-- The eight-byte words of a range that a scrub finds bad: those marked, and those of `found` that lie in it. -/
def State.badWords (s : State) (x : Scrub) (found : List Nat) : List Nat :=
  let hit (a : Nat) : Bool := decide (x.start ≤ a) && decide (a < x.start + x.len)
  let known := (s.poison.filter fun p => p.2 && hit (p.1 * 8)).map fun p => p.1 * 8
  known ++ ((found.map fun a => a / 8 * 8).filter fun a => hit a && !known.contains a).eraseDups

/-- What a scrub counts: bytes read, corrected, the places of uncorrectable errors, repaired. -/
structure ScrubSum where
  checked : Nat
  corrected : Nat := 0
  bad : List Nat := []
  repaired : Nat := 0
deriving DecidableEq, Repr

/-- The summary of a scrub (R436). -/
def ScrubSum.bytes (r : ScrubSum) (us : Nat) : Bytes :=
  leBytes 8 r.checked ++ leBytes 8 r.corrected ++ leBytes 8 r.bad.length
    ++ leBytes 8 (r.bad.foldl min (2 ^ 64 - 1)) ++ leBytes 8 (if r.bad = [] then 2 ^ 64 - 1 else r.bad.foldl max 0)
    ++ leBytes 8 r.repaired ++ leBytes 8 us ++ leBytes 8 0

/-- A scrub of HBM: a corrected word is written back by its controller; a bad one stays poisoned (R424, R435). -/
def State.scrubStack (s : State) (x : Scrub) (ok bad : List Nat) : State × ScrubSum :=
  let bad := s.badWords x bad
  let ok := ((ok.map fun a => a / 8 * 8).filter fun a => decide (x.start ≤ a) && decide (a < x.start + x.len)
    && !bad.contains a).eraseDups
  let s := ok.foldl (fun s a => s.scrubHbm false a) s
  let s := bad.foldl (fun s a => (s.poisonWord a).scrubHbm true a) s
  (s, { checked := x.len, corrected := ok.length, bad := bad, repaired := if x.noRepair then 0 else ok.length })

/-- A scrub of a scratchpad: a parity error in a RESIDENT region has the region reloaded (R270, R435). -/
def State.scrubSp (s : State) (x : Scrub) (bad : List Nat) : State × ScrubSum :=
  let bad := s.badWords x bad
  let g := (x.start - 0x100000000000) / 2 ^ 25
  let was := (s.cluster g).reloads
  let s := bad.foldl (fun s a => (s.poisonWord a).metBad none a) s
  let s := if x.noRepair then s.modCl g fun c => { c with reloads := was } else s
  let regions := ((bad.map fun a => (a - spAddr g 0) / 65536).eraseDups).filter fun k => (s.cluster g).isResident (k * 65536)
  (s, { checked := x.len, bad := bad, repaired := if x.noRepair then 0 else regions.length })

/-- A scrub of a namespace: a unit of which a codeword was corrected only after a retry is relocated into one of `eus`; UNMAPPED units
are not counted (R435). -/
def State.scrubFlash (s : State) (x : Scrub) (retried lost eus : List Nat) : State × ScrubSum :=
  let lbas := (List.range x.len).filterMap fun i => (s.lbaPlace x.nsid (x.start + i)).bind fun q =>
    if s.ftl.slot q.1 = unmapped then none else some (x.start + i, q.1)
  let bad := lbas.filter fun l => match s.readLba x.nsid l.1 lost with
    | some r => r.2.2
    | none => false
  let ok := lbas.filter fun l => retried.contains l.1 && !bad.contains l
  let s := reportRetried x.nsid noTag (ok.map (·.1)) s
  let s := reportLost x.nsid noTag bad s
  let units := if x.noRepair then [] else ((ok.map (·.2)).eraseDups.map fun u => (u, s.ftl.slot u)).take eus.length
  let units := if canPlace true (eus.take units.length) s then units else []
  (relocate units eus s, { checked := 4096 * lbas.length, corrected := ok.length, bad := bad.map (·.1), repaired := units.length })

/-- SCRUB_DONE (R435, R436). `ok`: places of errors that were corrected; `bad`: places of errors that could not be; `eus`: erase units
for relocated units. -/
def execScrubDone (op : Nat) (ok bad eus : List Nat) (s : State) : Out :=
  .next (match s.faults.scrubs.find? fun x => x.op == op with
    | some x =>
      if !s.serving then s else
      let (s, r) := match x.space with
        | 0 => s.scrubStack x ok bad
        | 1 => s.scrubSp x bad
        | _ => s.scrubFlash x ok bad eus
      let s := s.modFaults fun f => { f with
        scrubs := f.scrubs.filter fun y => y.op != op
        summaries := Tab.put f.summaries op (r.bytes (s.hdCount - x.began)) }
      s.opDone op St.ok
    | none => s)

/-! ## Retirement (R437) -/

/-- RETIRE. `spare`: the DRAM bank of the row has a spare row left. -/
def retire (spare : Bool) : AmpBody := fun j s =>
  let a := fieldAt j.payload 8 8
  match fieldAt j.payload 0 1 with
  | 0 =>
    (match place a with
     | .hbm k =>
       if s.dieLost k then ampRefuse St.unsupported s
       else if s.faults.hbmRepaired.contains (a / 1024) then ampAnswer s []
       else if spare then ampAnswer (s.modFaults fun f => { f with hbmRepaired := f.hbmRepaired ++ [a / 1024] }) []
       else ampRefuse St.noSpace s
     | _ => ampRefuse St.unsupported s)
  | 1 =>
    (match place a with
     | .sp g b _ =>
       let (st, s) := s.retireBank g b
       if st = St.ok then ampAnswer s [] else ampRefuse st s
     | _ => ampRefuse St.unsupported s)
  | 2 =>
    let pg := a % 2 ^ 32
    if a / 2 ^ 39 ≠ 0 ∨ pg % 2048 ≠ 0 ∨ 2 ^ 30 ≤ pg then ampRefuse St.unsupported s
    else if 32 ≤ a / 2 ^ 32 ∨ s.part.targets ≤ pgTarget pg ∨ 3647 < pgBlock pg then ampRefuse St.idRange s
    else if 3640 ≤ pgBlock pg then ampRefuse St.unsupported s
    else
      let eu := euOf (s.part.slotOf (a / 2 ^ 32) pg)
      (match s.ftl.eu eu with
       | .retired => ampAnswer s []
       | .failed _ => ampAnswer s []
       | _ => ampAnswer (s.modFtl fun f => f.setEu eu (.failed 2)) [])
  | _ => ampRefuse St.unsupported s

/-- RETIRE. -/
def execRetire (mb : Fin 3) (spare : Bool) (s : State) : Out := .next (ampExec mb 0x0604 (retire spare) s)

/-! ## Concentrator registers (R438) -/

/-- FC_RING, FC_PTRS, FC_CTRL, FC_STATUS and FC_COUNTS of a die, by offset in the block. -/
def fcRegRead (s : State) (d : Die) (off : Nat) : Nat :=
  let c := s.faults.conc d
  match off with
  | 0x00 => c.ringBase
  | 0x08 => c.head + 256 * ((c.head + c.used) % 256)
  | 0x0C => b2n c.enable + 2 * b2n c.ie
  | 0x10 => c.openCount (s.count d) + 2 ^ 15 * b2n (decide (256 ≤ c.used))
  | 0x18 => c.dropped + 2 ^ 32 * c.reports
  | _ => 0

/-- A write of a concentrator register; RING_BASE only while ENABLE is 0. HEAD has its own row. -/
def fcRegWrite (d : Die) (off v : Nat) (s : State) : State :=
  s.modConc d fun c =>
    match off with
    | 0x00 => if c.enable then c else { c with ringBase := bits v 14 34 * 2 ^ 14 }
    | 0x08 => c.headWrite v
    | 0x0C => { c with enable := bit v 0, ie := bit v 1 }
    | _ => c

end Sys2Proof.Machine
end

