-- ==== Sys2Proof/Machine/Media.lean ====
section
/-! DEFINITION. The media ROM's commands and events (spec/16). -/

namespace Sys2Proof.Machine

/-! ## Ending and starting requests -/

/-- A request ends: its completion record in ring 0, or its data to S1 in ring 1. `bad`: codewords not delivered or not decoded. -/
def mediaAnswer (ch ring : Nat) (r : Bytes) (d : MDone) (bad : Nat) (s : State) : State :=
  if ring = 0 then s.mediaPost ch r d else pipeRead ch r d.st bad s

/-- A refusal at a request's turn. -/
def mediaRefuse (ch ring : Nat) (r : Bytes) (st : Nat) (s : State) : State := mediaAnswer ch ring r { st := st } 15 s

/-- An accepted request ends. -/
def mediaEnd (ch id : Nat) (o : MOp) (d : MDone) (bad : Nat) (s : State) : State :=
  mediaAnswer ch o.ring o.req { d with suspends := if rqWrites o.req then o.suspends else 0, elapsed := s.hdCount - o.t0 } bad
    (s.dropOp ch id)

/-- A CLOSE at its turn: the block is CLOSED, behind a program in progress when that has completed (R370, R381). -/
def closeBlock (ch k : Nat) (s : State) : State :=
  let busy := (s.chan ch).ops.any fun o =>
    rqOp o.2.req == 2 && (o.2.running || o.2.suspended) && pgBlk (rqPage o.2.req) == k
  s.modChan ch fun c => c.setBlock k (if busy then { c.block k with closing := true } else {})

/-- One waiting request: refused, started, or left waiting (R368, R372-R374). STATUS and CLOSE reach no array: at their turn they end. -/
def mediaTry (ch id : Nat) (s : State) : State :=
  let c := s.chan ch
  match Tab.find c.ops id with
  | some o =>
    if o.running || o.suspended then s else
    let ahead := c.ops.any fun x => decide (x.1 < id) && x.2.ring == o.ring && pgBlk (rqPage x.2.req) == pgBlk (rqPage o.req)
      && !(x.2.running || x.2.suspended)
    if rqReads o.req && !ahead && c.ops.any (fun x => x.2.erases (pgBlk (rqPage o.req))) then
      mediaEnd ch id o { st := St.blockBusy } 15 s
    else if rqOp o.req = 6 ∨ rqOp o.req = 7 then
      if ahead then s
      else mediaEnd ch id o {} 0 (if rqOp o.req = 7 then closeBlock ch (pgBlk (rqPage o.req)) s else s)
    else if s.mayStart c id o then
      match c.blockCheck o.req with
      | some st => mediaEnd ch id o { st := st } 15 s
      | none => s.startMedia ch id o
    else s
  | none => s

/-- Try requests in order. -/
def mediaTryAll (ch : Nat) : List Nat → State → State
  | [], s => s
  | i :: l, s => mediaTryAll ch l (mediaTry ch i s)

/-- Start whatever may start, in order of acceptance; URGENT programs first during a flush (R380). -/
def mediaPump (ch : Nat) (s : State) : State :=
  let ops := (s.chan ch).ops
  let urgent := if s.media.flush then (ops.filter fun o => rqUrgent o.2.req).map (·.1) else []
  mediaTryAll ch (urgent ++ ops.map (·.1)) s

/-- Is the target of a request lost? (R365) -/
def MChan.isLost (c : MChan) (r : Bytes) : Bool := bit c.lost (pgTarget (rqPage r))

/-- The ROM takes the next request of a ring, where it is one of operation `op`; `f` does what an accepted one asks for. -/
def mediaTake (ch ring op : Nat) (f : Bytes → State → State) (s : State) : State :=
  if !s.alive then s else
  match s.nextRequest ch ring with
  | some r =>
    if rqOp r ≠ op then s else
    let s := s.dropRequest ch ring
    match s.mediaCheck ch ring r with
    | some st => mediaRefuse ch ring r st s
    | none =>
      if op ≠ 8 ∧ (s.chan ch).isLost r then
        (mediaAnswer ch ring r { mresult := 4 } 15 s).modChan ch fun c => { c with timeouts := satAdd 65535 c.timeouts 1 }
      else if s.media.flush ∧ op ≠ 0 ∧ op ≠ 1 ∧ ¬rqUrgent r then mediaRefuse ch ring r St.stopped s
      else f r s
  | none => s

/-- May the program or erase be suspended now? (R373) -/
def MOp.suspendable (o : MOp) (now : Nat) : Bool :=
  o.running && rqWrites o.req
    && (if rqOp o.req = 3 then decide (o.since + 500 ≤ now) && decide (o.suspends < 10)
        else decide (o.since + 200 ≤ now) && decide (o.suspends < 4))

/-- Accept a request for the array: it starts now or waits; a read that waits for a die at work is counted (R373). -/
def mediaAccept (ch ring : Nat) (r : Bytes) (s : State) : State :=
  let id := (s.chan ch).nextOp
  let s := s.modChan ch fun c => { c with ops := Tab.put c.ops id { ring := ring, req := r, t0 := s.hdCount }, nextOp := id + 1 }
  let s := mediaTry ch id s
  let waits := match Tab.find (s.chan ch).ops id with
    | some o => rqReads r && !o.running && (s.chan ch).ops.any fun x =>
        rqWrites x.2.req && x.2.running && pgTarget (rqPage x.2.req) == pgTarget (rqPage r) && !x.2.suspendable s.hdCount
    | none => false
  if waits then s.modChan ch fun c => { c with readWaits := satAdd 65535 c.readWaits 1 } else s

/-- MEDIA_READ (R367, R372). -/
def execMediaRead (ch : Fin 32) (ring : Fin 2) (s : State) : Out := .next (mediaTake ch ring 0 (mediaAccept ch ring) s)
/-- MEDIA_READ_MARGIN (R375). -/
def execMediaReadMargin (ch : Fin 32) (s : State) : Out := .next (mediaTake ch 0 1 (mediaAccept ch 0) s)
/-- MEDIA_PROGRAM (R371). -/
def execMediaProgram (ch : Fin 32) (s : State) : Out := .next (mediaTake ch 0 2 (mediaAccept ch 0) s)
/-- MEDIA_ERASE (R370). -/
def execMediaErase (ch : Fin 32) (s : State) : Out := .next (mediaTake ch 0 3 (mediaAccept ch 0) s)

/-- End every operation in progress on a target as INTERRUPTED (R377). -/
def interruptAll (ch t : Nat) (p : MOp → Bool) : List (Nat × MOp) → State → State
  | [], s => s
  | (i, o) :: l, s =>
    interruptAll ch t p l
      (if (o.running || o.suspended) && pgTarget (rqPage o.req) == t && p o then
        mediaEnd ch i o { mresult := 5 } 15 (s.cutShort ch o.req)
      else s)

/-- MEDIA_RESET (R367, R377, R381). -/
def execMediaReset (ch : Fin 32) (s : State) : Out :=
  .next (mediaTake ch 0 4 (fun r s =>
    let s := interruptAll ch (pgTarget (rqPage r)) (fun _ => true) (s.chan ch).ops s
    mediaPump ch (mediaAnswer ch 0 r {} 0 s)) s)

/-- MEDIA_GET_FEATURES (R367): the parameter bytes are the target's. -/
def execMediaGetFeatures (ch : Fin 32) (v : Nat) (s : State) : Out :=
  .next (mediaTake ch 0 5 (fun r s => mediaAnswer ch 0 r { feature := some v } 0 s) s)

/-- MEDIA_STATUS (R367). -/
def execMediaStatus (ch : Fin 32) (s : State) : Out := .next (mediaTake ch 0 6 (mediaAccept ch 0) s)

/-- MEDIA_CLOSE (R370, R381): a program in progress completes first. -/
def execMediaClose (ch : Fin 32) (s : State) : Out :=
  .next (mediaTake ch 0 7 (mediaAccept ch 0) s)

/-- MEDIA_PARAMS (R378): the record replaces the old one for requests accepted from now on. -/
def execMediaParams (ch : Fin 32) (s : State) : Out :=
  .next (mediaTake ch 0 8 (fun r s =>
    let b := s.bytesAt (rqBuf r) 256
    mediaAnswer ch 0 r {} 0 (s.modChan ch fun c => { c with params := some b })) s)

/-! ## The end of operations (R369, R370, R375) -/

/-- The block after a program: the write pointer moves on, and a full block is CLOSED. -/
def MBlock.programmed (b : MBlock) (slc : Bool) : MBlock :=
  let wp := b.wp + (if slc then 1 else 3)
  if b.closing || decide ((if slc then 384 else 1152) ≤ wp) then {} else { b with wp := wp }

/-- Write the pages of a program that has passed. -/
def writePages (ch : Nat) : Nat → List (Bytes × Bytes) → State → State
  | _, [], s => s
  | p, (d, t) :: l, s => writePages ch (p + 1) l (s.setPage ch p (.written d t))

/-- The state that an ERASE or a passing ERASE_VERIFY opens a block in. -/
def openAs (slc : Bool) : BlockState := if slc then .openSlc else .openTlc

/-- A READ has ended. -/
def readDone (ch id : Nat) (o : MOp) (r : MediaRes) (s : State) : State :=
  let x := s.page ch (rqPage o.req)
  let tag := x.tagRead r
  let start := s.startSet ch (pgTarget (rqPage o.req)) tag
  let g := s.free
  let s := { s with free := s.free + 2 }
  let data := flipBytes r.flips (x.codewords (s.cover ch (rqPage o.req)) g (rqMask o.req) ++ (match tag with
    | some t => fitTo 32 t
    | none => freeBytes (g + 1) 32))
  let s := if o.ring = 0 then s.writeMem (rqBuf o.req) data else s
  mediaEnd ch id o
    { cflags := b2n o.suspender + 2 * b2n tag.isNone + 4 * b2n (x == .erased)
      thresh := (start + rqArg o.req) % 16
      stamp := match tag with
        | some t => fieldAt t 0 4
        | none => leNat (freeBytes (g + 1) 4) } r.bad s

/-- A READ_MARGIN has ended (R375). -/
def marginDone (ch id : Nat) (o : MOp) (r : MediaRes) (s : State) : State :=
  let c := s.chan ch
  let k := pgBlk (rqPage o.req)
  let b := c.block k
  if rqArg o.req = 0 then
    let fails := decide (fieldAt (c.params.getD []) 8 2 < r.weight)
    mediaEnd ch id o { cflags := b2n o.suspender, mresult := if fails then 3 else 0, weight := r.weight } 0 s
  else if r.result = 0 then
    let s := if b.state = .closed ∨ b.wp = 0 then s.modChan ch fun c => c.setBlock k { state := openAs (rqSlc o.req) } else s
    mediaEnd ch id o { cflags := b2n o.suspender } 0 s
  else mediaEnd ch id o { cflags := b2n o.suspender, mresult := 3 } 0 s

/-- A PROGRAM has ended. -/
def programDone (ch id : Nat) (o : MOp) (r : MediaRes) (s : State) : State :=
  let k := pgBlk (rqPage o.req)
  if r.result = 0 then
    let s := writePages ch (rqPage o.req) o.writes s
    mediaEnd ch id o {} 0 (s.modChan ch fun c => c.setBlock k ((c.block k).programmed (rqSlc o.req)))
  else mediaEnd ch id o { mresult := 1 } 0 (s.cutShort ch o.req)

/-- An ERASE has ended; its block verify is part of it (R375). -/
def eraseDone (ch id : Nat) (o : MOp) (r : MediaRes) (s : State) : State :=
  let k := pgBlk (rqPage o.req)
  if r.result = 0 then
    mediaEnd ch id o {} 0 ((s.fillBlock ch k false).modChan ch fun c => c.setBlock k { state := openAs (rqSlc o.req) })
  else mediaEnd ch id o { mresult := 2 } 0 (s.cutShort ch o.req)

/-- A suspended operation of a die goes on. -/
def resumeOp (t now : Nat) (x : Nat × MOp) : Nat × MOp :=
  if x.2.suspended && pgTarget (rqPage x.2.req) == t then
    (x.1, { x.2 with suspended := false, running := true, since := now, served := 0 })
  else x

/-- When no read of the die runs any more, its suspended operation goes on (R373). -/
def mediaResume (ch t : Nat) (s : State) : State :=
  let reads := (s.chan ch).ops.any fun x => x.2.running && rqReads x.2.req && pgTarget (rqPage x.2.req) == t
  if reads then s else s.modChan ch fun c => { c with ops := c.ops.map (resumeOp t s.hdCount) }

/-- MEDIA_OP_COMPLETE (R369). -/
def execMediaOpComplete (ch : Fin 32) (op : Nat) (r : MediaRes) (s : State) : Out :=
  .next (match Tab.find (s.chan ch).ops op with
    | some o =>
      if s.alive && o.running then
        let t := pgTarget (rqPage o.req)
        mediaPump ch (mediaResume ch t (match rqOp o.req with
          | 0 => readDone ch op o r s
          | 1 => marginDone ch op o r s
          | 2 => programDone ch op o r s
          | _ => eraseDone ch op o r s))
      else s
    | none => s)

/-- MEDIA_TIMEOUT (R369, R377): the ROM resets the target. -/
def execMediaTimeout (ch : Fin 32) (op : Nat) (s : State) : Out :=
  .next (match Tab.find (s.chan ch).ops op with
    | some o =>
      if s.alive && o.running then
        let t := pgTarget (rqPage o.req)
        let s := s.modChan ch fun c => { c with timeouts := satAdd 65535 c.timeouts 1 }
        let s := s.modFtl fun f => { f with timeouts := f.timeouts + 1 }
        let s := mediaEnd ch op o { mresult := 4 } 15 (s.cutShort ch o.req)
        mediaPump ch (interruptAll ch t (fun _ => true) (s.chan ch).ops s)
      else s
    | none => s)

/-- An operation is suspended. -/
def suspendOp (which : List Nat) (now : Nat) (x : Nat × MOp) : Nat × MOp :=
  if which.contains x.1 then
    (x.1, { x.2 with running := false, suspended := true, suspends := x.2.suspends + 1, since := now, served := 0 })
  else x

/-- MEDIA_SUSPEND (R373): with reads waiting for the die, its operations are suspended where each may be. -/
def execMediaSuspend (ch : Fin 32) (t : Fin 32) (s : State) : Out :=
  let die := (s.chan ch).ops.filter fun x => pgTarget (rqPage x.2.req) == t.val
  let writes := die.filter fun x => rqWrites x.2.req && x.2.running
  let waiting := die.any fun x => rqReads x.2.req && !x.2.running && !(die.any fun y => y.2.programsGroup x.2.req)
  .next (if s.alive && writes != [] && waiting && writes.all (fun x => x.2.suspendable s.hdCount) then
    let s := s.modChan ch fun c => { c with suspends := satAdd (2 ^ 32 - 1) c.suspends writes.length }
    mediaPump ch (s.modChan ch fun c => { c with ops := c.ops.map (suspendOp (writes.map (·.1)) s.hdCount) })
  else s)

/-! ## Inputs of the power manager (R380) -/

/-- Do something on every channel. -/
def onChannels (f : Nat → State → State) (s : State) : State := (List.range 32).foldl (fun s ch => f ch s) s

/-- HOLD rises or falls. -/
def mediaHold (on : Bool) (s : State) : State :=
  let s := s.modMedia fun m => { m with hold := on }
  if on then s else onChannels mediaPump s

/-- MEDIA_HOLD. -/
def execMediaHold (on : Bool) (s : State) : Out := .next (mediaHold on s)

/-- End what a flush stops: unstarted requests other than reads and URGENT programs. -/
def stopQueued (ch : Nat) : List (Nat × MOp) → State → State
  | [], s => s
  | (i, o) :: l, s =>
    stopQueued ch l
      (if !(o.running || o.suspended) && !rqReads o.req && !rqUrgent o.req then mediaEnd ch i o { st := St.stopped } 0 s else s)

/-- FLUSH on one channel: erases end INTERRUPTED; queued requests stop; URGENT programs start. -/
def flushChannel (ch : Nat) (s : State) : State :=
  let s := (List.range 32).foldl (fun s t => interruptAll ch t (fun o => rqOp o.req == 3) (s.chan ch).ops s) s
  mediaPump ch (stopQueued ch (s.chan ch).ops s)

/-- FLUSH. -/
def mediaFlush (s : State) : State := onChannels flushChannel (s.modMedia fun m => { m with flush := true, hold := true })

/-- MEDIA_FLUSH. -/
def execMediaFlush (s : State) : Out := .next (mediaFlush s)

/-- Power is lost or the module restarts: programs and erases under way leave their units undefined (R377); the ROM's state goes. -/
def mediaPowerLoss (s : State) : State :=
  let s := onChannels (fun ch s => ((s.chan ch).ops).foldl (fun s x =>
    if x.2.running || x.2.suspended then s.cutShort ch x.2.req else s) s) s
  s.modMedia fun m => { pages := m.pages }

/-! ## Entry, registers, temperature -/

/-- The reset entry of a channel's ROM (R365, R370): every block is CLOSED; READY. -/
def resetEntry (ch : Nat) (s : State) : State :=
  if s.alive && !(s.chan ch).ready then
    s.modChan ch fun c => { c with ready := true, params := none, blocks := [], ops := [], programs := 0 }
  else s

/-- ROM_RESET_ENTRY. -/
def execRomResetEntry (ch : Fin 32) (s : State) : Out := .next (resetEntry ch s)

/-- A fitted target does not answer (R365, R433): it is marked lost, a Crimson fault, and kept in the retired list. -/
def targetLost (ch t : Nat) (s : State) : State :=
  if s.alive && !(s.chan ch).ready && decide (t < s.part.targets) && !bit (s.chan ch).lost t then
    let s := s.modChan ch fun c => { c with lost := setBit c.lost t }
    let s := s.report .hd { cls := .targetLost, source := ch + 128 * t, partner := partnerHd }
    s.modFaults fun f => if f.lost.contains (.target ch t) then f else { f with lost := f.lost ++ [.target ch t] }
  else s

/-- TARGET_BRINGUP_TIMEOUT. -/
def execTargetBringupTimeout (ch : Fin 32) (t : Fin 32) (s : State) : Out := .next (targetLost ch t s)

/-- A ring's tail moves to `v`; a write that passes the head less one is ignored. -/
def ringTail (head tail v : Nat) : Nat :=
  if (v + 256 - tail % 256) % 256 ≤ (head + 511 - tail % 256) % 256 then v % 256 else tail

/-- MR_REQ_TAIL_WRITE (R366). -/
def execMrReqTailWrite (ch : Fin 32) (v : Nat) (s : State) : Out :=
  .next (s.modChan ch fun c => { c with reqTail := ringTail c.reqHead c.reqTail v })

/-- MR_CMPL_HEAD_WRITE (R369). -/
def execMrCmplHeadWrite (ch : Fin 32) (v : Nat) (s : State) : Out := .next (s.modChan ch fun c => { c with cmplHead := v % 256 })

/-- MR_ENABLE (R366): accepted requests finish after a 0. -/
def execMrEnable (ch : Fin 32) (on : Bool) (s : State) : Out := .next (s.modChan ch fun c => { c with enable := on })

/-- DIE_TEMP_SAMPLE (R376). -/
def execDieTempSample (ch : Fin 32) (t : Fin 32) (temp : Int) (s : State) : Out :=
  .next (if s.alive then s.modChan ch fun c => { c with temps := Tab.set 0 c.temps t temp } else s)

/-! ## Registers of the ROM blocks -/

/-- A register of a channel's ROM block. -/
def mrRegRead (s : State) (ch off : Nat) : Nat :=
  let c := s.chan ch
  match off with
  | 0x000 => c.reqBase
  | 0x008 => c.cmplBase
  | 0x010 => c.reqTail + 2 ^ 8 * c.reqHead + 2 ^ 16 * c.cmplHead + 2 ^ 24 * c.cmplTail
  | 0x014 => b2n c.enable + 2 * b2n c.ie
  | 0x018 => b2n c.ready + 2 * b2n c.params.isSome + 4 * b2n (s.media.hold || s.media.flush)
  | 0x01C => c.lost
  | 0x020 => c.timeouts + 2 ^ 16 * c.readWaits + 2 ^ 32 * c.suspends
  | _ => 0

/-- The fields of a channel's ROM block that have no row of their own (R14). -/
def mrRegWrite (ch off v : Nat) (s : State) : State :=
  match off with
  | 0x000 => s.modChan ch fun c => if c.enable then c else { c with reqBase := bits v 13 35 * 8192 }
  | 0x008 => s.modChan ch fun c => if c.enable then c else { c with cmplBase := bits v 13 35 * 8192 }
  | 0x014 => s.modChan ch fun c => { c with ie := bit v 1 }
  | _ => s

/-- The common block: MR_HOST_TIME and MR_ROM_ID. -/
def mrCommonRead (s : State) (off : Nat) : Nat :=
  match off with
  | 0x000 => s.media.minutes + 2 ^ 32 * b2n s.media.timeValid
  | 0x008 => Config.mediaRomVersion % 65536
  | _ => 0

/-- A write of MR_HOST_TIME: keeper firmware writes it from the host-time pair, by which alone host time enters the module (R9, R376);
it writes no other value (log 91). -/
def mrCommonWrite (off v : Nat) (s : State) : State :=
  match off with
  | 0x000 => if v = s.hostMinutes then s.feedHostTime else s
  | _ => s

end Sys2Proof.Machine
end

