-- ==== Sys2Proof/Machine/Merge.lean ====
section
/-! DEFINITION. The commands of the merge-select unit (R173-R178). -/

namespace Sys2Proof.Machine

/-- A candidate record that is passed on as it stands: its job number is not in it (R127, R178). -/
def rawEntry (r : Bytes) (bad : Bool) (ch : Nat) : MergeEntry :=
  { (mergeEntryOf r) with poison := bit (fieldAt r 0x0D 1) 0 || bad, mask := false, side := false, close := false, source := ch }

/-- A forwarded candidate (R174, R178): where S7 scored it, SEQ, LIST and QUERY come from the job table. -/
def State.forwardOf (s : State) (m : Merge) (r : Bytes) (bad : Bool) (ch : Nat) : MergeEntry :=
  if fieldAt r 0x0C 1 = 0xFF then rawEntry r bad ch else s.entryOfCandidate m r bad

/-- MERGE_INSTANCE_OPEN (R173, R175). `thr`: the initial thresholds by query. The status is answered. -/
def execMergeInstanceOpen (d : Bytes) (thr : List Nat) (s : State) : Out :=
  .next (match s.mergeCheck d with
    | some st => s.reply (.value st)
    | none => (s.openMerge (fitTo 32 d) noTag ((thr.zipIdx.filter fun t => t.1 != 0).map fun t => (t.2, t.1))).reply (.value St.ok))

/-- The oldest record that has arrived from a channel is handled (R174, R175, R178); while its instance has no room for it, it stays
where it is and the channel's queue backs up (R176). -/
def State.channelEntry (s : State) (ch : Nat) : State :=
  let p := s.pipe ch
  match p.sent with
  | (i, r, bad) :: rest =>
    if p.readable = 0 then s else
    let t := s.modPipe ch fun p => { p with sent := rest, readable := p.readable - 1 }
    match Tab.find s.sel.merges i with
    | some m =>
      if m.through then
        match s.scanOf i with
        | some (tag, _) => t.scanRecord tag r bad
        | none => t.modMerge i fun m => { m with forwarded := m.forwarded ++ [t.forwardOf m r bad ch] }
      else match m.fromChannel (s.entryOfCandidate m r bad) with
        | some x => t.mergeTo i m x
        | none => s
    | none => t
  | [] => s

/-- A merge entry with nonzero reserved bits (R11, R174). -/
def entryReserved (b : Bytes) : Bool :=
  decide (16 ≤ fieldAt b 0x0D 1) || decide (2 ^ 22 ≤ fieldAt b 0x18 4) || decide (fieldAt b 0x1C 4 ≠ 0)

/-- An entry of a stream: one of the side-list scan, or of another module (R174, R175, R414). -/
def entryFrom (m : Merge) (k : StreamKind) (b : Bytes) : MergeEntry :=
  match k with
  | .region => { (mergeEntryOf b) with span := m.own }
  | .sideScan => { (mergeEntryOf b) with span := m.own, scan := true }
  | .peer n => { (mergeEntryOf b) with span := n }

/-- An entry of a merge stream arrives at an instance. -/
def State.streamEntry (s : State) (i : Nat) (k : StreamKind) (b : Bytes) : State :=
  match Tab.find s.sel.merges i with
  | some m =>
    if entryReserved b then s.reply (.value St.reservedField)
    else if m.through then
      let e := entryFrom m k b
      s.modMerge i fun m => { m with forwarded := m.forwarded ++ [e], closes := m.closes + b2n e.close }
    else s.mergeArrive i (entryFrom m k b)
  | none => s

/-- MERGE_ENTRY_ARRIVAL: from a channel's crossing queue, or an entry of a stream. -/
def execMergeEntryArrival (a : MergeSource) (s : State) : Out :=
  .next (match a with
    | .chan ch => s.channelEntry ch
    | .stream i k b => s.streamEntry i k b)

/-- MERGE_INSTANCE_CLOSE (R177): the jobs and streams of an instance have ended. A SCAN or a query that it serves ends with it; the
entries of another one are answered. `unreadable`: IDs whose full-store slot cannot be read (R142). -/
def execMergeInstanceClose (i : Nat) (unreadable : List Nat) (s : State) : Out :=
  .next (match Tab.find s.sel.merges i with
    | none => s
    | some m =>
      match s.scanOf i, s.queryOf i with
      | some (tag, x), _ => if x.over && s.noneSent i then s.endScan tag x else s
      | none, some (key, q) =>
        if !q.over || !s.noneSent i then s
        else match q.failed with
          | some st => s.endFailed key st q
          | none =>
            if s.stopping key then s.endFailed key St.stopped q
            else if s.mergeEnded i m then s.endQuery key q m unreadable else s
      | none, none =>
        if s.mergeEnded i m then
          let out := if m.through then (m.forwarded.map mergeEntryBytes).flatten else ((List.range m.queries).map m.result).flatten
          (s.dropMerge i).reply (.data out)
        else s)

end Sys2Proof.Machine
end

