-- ==== Sys2Proof/Machine/Pipeline.lean ====
section
/-! DEFINITION. The commands of the channel pipelines (spec/05) and the SCAN command. -/

namespace Sys2Proof.Machine

/-! ## Admission (R107) -/

/-- A descriptor of the job ring as it is bound: its tables and their version, the key in force, and its page list. `atEnd`: its segment ends at its
extent's end. -/
def State.bindJob (s : State) (desc : Bytes) (atEnd : Bool) : ChJob :=
  let j : ChJob := { desc := desc, t0 := s.hdCount, atEnd := atEnd }
  let obj := if j.on 6 then s.object 2 (jd j 0x1E 2) else none
  let n := min 4096 (jd j 0x18 4)
  { j with
    tablesVer := (obj.map (·.ver)).getD 0, tables := (obj.map (·.data)).getD []
    key := Tab.find s.sec.keys (jd j 0x1C 2)
    pages := if j.on 0 then (List.range n).map fun i => s.bytesAt (jd j 0x10 8 + 16 * i) 16 else [] }

/-- Admit the descriptors of the ring before slot `v`. -/
def bindUpTo (ch v : Nat) : Nat → List Bool → State → State
  | 0, _, s => s
  | n + 1, ends, s =>
    let p := s.pipe ch
    if p.jobTail = v then s else
    let j := s.bindJob (s.bytesAt (p.jobBase + 128 * p.jobTail) 128) (ends.headD true)
    bindUpTo ch v n (ends.drop 1) (s.modPipe ch fun p => { p with jobTail := (p.jobTail + 1) % 256, bound := p.bound ++ [j] })

/-- CP_JOB_TAIL_WRITE (R107). `ends`: for each descriptor admitted, whether its segment ends at its extent's end. -/
def execCpJobTailWrite (ch : Fin 32) (v : Nat) (ends : List Bool) (s : State) : Out :=
  .next (bindUpTo ch (ringTail (s.pipe ch).jobHead (s.pipe ch).jobTail v) 256 ends s)

/-- CP_CMPL_HEAD_WRITE (R129). -/
def execCpCmplHeadWrite (ch : Fin 32) (v : Nat) (s : State) : Out := .next (s.modPipe ch fun p => { p with cmplHead := v % 256 })

/-- ABORT_JOB (R109): ignored when no job is running. -/
def execAbortJob (ch : Fin 32) (s : State) : Out :=
  .next (match (s.pipe ch).run with
    | some j => if j.drained then s else (s.cutJob ch St.stopped 8).pump ch
    | none => s)

/-- CP_ENABLE: 1 takes jobs from the ring; after a 0 the running job finishes. -/
def execCpEnable (ch : Fin 32) (on : Bool) (s : State) : Out := .next (s.modPipe ch fun p => { p with enable := on })

/-! ## Running (R104-R106, R121, R125) -/

/-- Has the command that an instance serves failed? -/
def State.destFailed (s : State) (inst : Nat) : Bool :=
  (match s.scanOf inst with
   | some x => x.2.failed.isSome
   | none => false)
    || (match s.queryOf inst with
      | some q => q.2.failed.isSome
      | none => false)

/-- A job that has been checked goes through the stages: S6 to S8 load their memories (R121, R125). -/
def State.beginJob (s : State) (ch : Nat) (j : ChJob) : State :=
  let j := { j with inBlock := some (s.stageIn j), thresholds := s.initThresholds j }
  let s := s.modPipe ch fun p => { p with run := some { j with loading := j.on 6 && j.tablesVer != p.loaded } }
  if s.destFailed j.dest then s.cutJob ch St.stopped 8 else s.advance ch

/-- Start a bound job: refused descriptors read nothing (R105, R110). -/
def State.startJob (s : State) (ch : Nat) (j : ChJob) : State :=
  match s.chJobCheck ch j j.pages with
  | some st => s.modPipe ch fun p => { p with run := some { j with fed := true, status := st, err := 7 } }
  | none => s.beginJob ch j

/-- May S0 start the next job while the running one is in later stages (R106)? The running job has nothing left to fetch. -/
def State.mayFetch (s : State) (ch : Nat) (j r : ChJob) : Bool :=
  (s.pipe ch).ahead.isNone && r.next == r.pages.length && r.reads == [] && (s.chJobCheck ch j j.pages).isNone

/-- CHANNEL_JOB_START (R106): the next job of the ring starts, or its S0 does while the previous job is in later stages. -/
def execChannelJobStart (ch : Fin 32) (s : State) : Out :=
  .next (
    let p := s.pipe ch
    match p.bound with
    | j :: l =>
      if !p.enable then s else
      let j := { j with serial := p.serial }
      let t := s.modPipe ch fun p => { p with bound := l, jobHead := (p.jobHead + 1) % 256, serial := p.serial + 1 }
      match p.run with
      | none => t.startJob ch j
      | some r => if s.mayFetch ch j r then (t.modPipe ch fun p => { p with ahead := some j }).advance ch else s
    | [] => s)

/-- S6_TABLE_LOAD_DONE (R121). -/
def execS6TableLoadDone (ch : Fin 32) (s : State) : Out :=
  .next (match (s.pipe ch).run with
    | some j =>
      if j.loading then
        ((s.modPipe ch fun p => { p with loaded := j.tablesVer }).modRun ch fun j => { j with loading := false }).advance ch
      else s
    | none => s)

/-- The command query of a job's query: as bound, or through QMAP (R174). -/
def State.commandQuery (s : State) (m : Merge) (j : ChJob) (q : Nat) : Nat :=
  match j.qmap[q]? with
  | some k => k
  | none => s.natAt (m.jobAddr + 80 * j.jobNo + 16 + q) 1

/-- S8_THRESHOLD_FEEDBACK (R125, R176): the threshold of a job's query rises to the one that the merge-select unit holds. -/
def execS8ThresholdFeedback (ch : Fin 32) (q : Nat) (s : State) : Out :=
  .next (match (s.pipe ch).run with
    | some j =>
      match Tab.find s.sel.merges (jd j 0x34 2) with
      | some m =>
        if j.on 8 && j.feedback && m.feedback && decide (q < j.queries) then
          let t := m.threshold (s.commandQuery m j q)
          s.modRun ch fun j => { j with
            thresholds := (List.range j.queries).map fun i => if i = q then max t (j.thresholds.getD i 0) else j.thresholds.getD i 0 }
        else s
      | none => s
    | none => s)

/-- CQ_FREE_VISIBLE (R45): the write side sees a freed word, and S9 goes on. -/
def execCqFreeVisible (q : Fin 64) (s : State) : Out :=
  .next (
    let s := s.modXq q fun x => { x with freed := x.freed - 1 }
    if q.val < 32 then (s.pump q).advance q else s)

/-- The keeper takes in a completion. -/
def State.takeCompletion (s : State) (j : ChJob) : State :=
  let s := if j.on 9 then s.mergeJobDone j.dest else s
  match s.scanOf j.dest with
  | some (tag, _) => s.scanProgress tag j
  | none => match s.queryOf j.dest with
    | some (key, _) => s.queryProgress key j
    | none => s

/-- The job that S0 has begun becomes the running one. -/
def State.promote (s : State) (ch : Nat) : State :=
  match (s.pipe ch).ahead with
  | some j => (s.modPipe ch fun p => { p with ahead := none }).beginJob ch j
  | none => s

/-- Post the completion record of a job whose last record has been flushed (R106, R129); the next one goes on. -/
def State.postJob (s : State) (ch : Nat) (j : ChJob) : State :=
  let p := s.pipe ch
  let s := s.modXq ch XQueue.flush
  let s := s.writeMem (p.cmplBase + 32 * p.cmplTail) (j.record s.hdCount)
  let s := s.modPipe ch fun p => { p with
    run := none, cmplTail := (p.cmplTail + 1) % 256, interrupts := p.interrupts + b2n p.cmplIe }
  (s.takeCompletion j).promote ch

/-- Complete the running job of a channel once it has drained. A full completion ring stalls the pipeline. -/
def State.finishJob (s : State) (ch : Nat) : State :=
  match (s.pipe ch).run with
  | some j => if j.drained && (s.pipe ch).room then s.postJob ch j else s
  | none => s

/-- CHANNEL_JOB_COMPLETE (R129). `fault`: the table or query memory has failed its parity (R121, R125): the job runs once more, and a
second failure ends it. -/
def execChannelJobComplete (ch : Fin 32) (fault : Bool) (s : State) : Out :=
  .next (match (s.pipe ch).run with
    | some j =>
      if fault && (j.on 6 || j.on 7) && (j.status == St.ok || j.status == St.poisoned) then
        let t := s.jobFault ch j
        if j.reran then t.finishJob ch else t
      else s.finishJob ch
    | none => s)

/-- CQ_WRITE (R41). A write in the cycle of a RESET is discarded (R48). On a channel's queue, which S9 never writes while FULL, a write
that overruns is a fault of the running job (R126). -/
def execCqWrite (q : Fin 64) (w : Bytes) (bad reset : Bool) (s : State) : Out :=
  let d := w.take (xqWidth q)
  .next (if reset then s.resetXq q
    else
      let t := if (s.xq q).fullWrite then s else s.modChannelOf q fun p => { p with sent := p.sent ++ [(p.dest, d, bad)] }
      let t := t.modXq q fun x => x.write d bad
      match (s.xq q).fullWrite && decide (q.val < 32), (s.pipe q).run with
      | true, some j => t.jobFault q j
      | _, _ => t)

/-! ## SCAN and its seams (R118, R130) -/

/-- SEAM_JOB: the seam after the segment of job `first` runs on a channel. `addr`: where the keeper joined the fragments. -/
def execSeamJob (tag first : Nat) (ch : Fin 32) (addr : Nat) (s : State) : Out :=
  .next (match Tab.find s.pipes.scans tag with
    | some x =>
      match x.seams.contains first, x.seamInput first with
      | true, some (some (l, long)) =>
        if x.failed.isSome || !(s.pipe ch).ringRoom then s else
        let l := l.map fun b => if b.err = 0 then b else { b with err := 6 }
        let s := (l.zipIdx.filter fun b => !b.1.good).foldl (fun s b => s.poisonWord (addr + b.2)) (s.writeMem addr (plainBytes l))
        let form := { x.form with bypass := x.form.bypass ||| 0xF, ext := 0 }
        let j : ChJob := { desc := form.desc ch x.nextJob addr (max 1 l.length) 0 0, tablesVer := x.tablesVer, tables := x.tables
                           seam := some (l, long) }
        (s.modScan tag fun x => { x with
          seams := x.seams.filter fun k => k != first, nextJob := x.nextJob + 1, open_ := x.open_ ++ [j.jobNo] }).admitJob ch j
      | _, _ => s
    | none => s)

/-- Do the segments of a SCAN have seams? (R118) -/
def scanSeams (d : Bytes) : Bool := fieldAt d 1 1 == 1 || (fieldAt d 1 1 == 0 && fieldAt d 0 1 != 1)

/-- Start an admitted SCAN. -/
def State.startScan (s : State) (tag : Nat) (t : Trk) (d : Bytes) (inst base : Nat) : State :=
  let e := t.sqe
  let obj := if bit (fieldAt d 2 2) 0 then none else s.object 2 e.object
  let x : Scan := { form := scanForm tag e.nsid e.object inst base d, tablesVer := (obj.map (·.ver)).getD 0
                    tables := (obj.map (·.data)).getD [], inst := inst }
  let js := s.scanJobs x base e.nsid (scanSeams d) 0 (scanExtents (e.cmdDw % 256 + 1) d)
  let segs := js.map fun j => j.2.2.1
  let seams := if scanSeams d then (segs.filter fun g => !g.last).map (·.job) else []
  let x := { x with todo := js.map fun j => (j.1, j.2.1), segs := segs, seams := seams, nextJob := js.length }
  let m := leBytes 2 inst ++ [1, 1] ++ leBytes 2 1 ++ leBytes 2 0 ++ leBytes 4 (min 1048576 (js.length + seams.length))
    ++ leBytes 4 4096 ++ leBytes 8 0 ++ leBytes 8 0
  let s := s.writeMem base (scanPreds d)
  let s := js.foldl (fun s j => putPages j.2.2.2 j.2.1.pages s) s
  let s := ((s.admitTag tag).openResult tag 0).openMerge m tag []
  (s.modPipes fun p => { p with scans := Tab.put p.scans tag x }).admitScan tag

/-- SCAN. `inst`, `base`: the merge instance and the HBM or hub SRAM that the keeper uses. -/
def execScan (tag : Nat) (d : Bytes) (inst base : Nat) (s : State) : Out :=
  .next (s.vendorRow tag 0x8F (fun _ => false) fun t s =>
    match s.scanCheck t d with
    | some st => s.vendorRefuse tag st
    | none => if 4095 < inst ∨ Tab.has s.sel.merges inst = true then s else s.startScan tag t d inst base)

/-! ## Registers of a channel -/

/-- Stages that hold data of a job: S0 to S2 while its input comes, S3 to S8 while records wait, S9 while candidates do. -/
def ChJob.busyStages (j : ChJob) : Nat :=
  let reading := !j.fed
  let rest := j.items != []
  (List.range 10).foldl (fun n k =>
    if j.on k && (if k ≤ 2 then reading else if k = 9 then j.emit != [] else rest) then n + 2 ^ k else n) 0

/-- A channel register by its offset. The times of CP_STALL are free numbers (log 35). -/
def cpRegRead (s : State) (ch off : Nat) : Nat :=
  let p := s.pipe ch
  match off with
  | 0x00 => p.jobBase
  | 0x08 => p.cmplBase
  | 0x10 => p.jobTail + 2 ^ 8 * p.jobHead + 2 ^ 16 * p.cmplHead + 2 ^ 24 * p.cmplTail
  | 0x14 => b2n p.enable + 4 * b2n p.cmplIe
  | 0x18 =>
    match p.run with
    | some j => (j.busyStages ||| ((p.ahead.map ChJob.busyStages).getD 0)) + 2 ^ 10 * b2n j.loading + 2 ^ 11 * b2n (j.emit != [] && (s.xq ch).fullWrite)
    | none => 0
  | 0x1C => Config.waited (100 + ch) 0x1C s.free s.fabric.cd0.now % 2 ^ 32
  | _ => 0

/-- The fields of a channel's registers that have no row of their own: the ring addresses and CMPL_IE. -/
def cpRegWrite (ch off v : Nat) (s : State) : State :=
  match off with
  | 0x00 => s.modPipe ch fun p => if p.enable then p else { p with jobBase := v / 2 ^ 15 % 2 ^ 33 * 2 ^ 15 }
  | 0x08 => s.modPipe ch fun p => if p.enable then p else { p with cmplBase := v / 2 ^ 13 % 2 ^ 35 * 2 ^ 13 }
  | 0x14 => s.modPipe ch fun p => { p with cmplIe := bit v 2 }
  | _ => s

end Sys2Proof.Machine
end

