-- ==== Sys2Proof/Machine/Sessions.lean ====
section
/-! DEFINITION. SESSION_CTL and the session engine (R295-R303). -/

namespace Sys2Proof.Machine

/-- End a SESSION_CTL with its resulting state (R76). -/
def State.sesEnd (s : State) (tag i : Nat) (st : SesState) : State :=
  (s.sessionDone i).vendorEndWith tag St.ok st.code 0

/-- The code of a missing peer of a session's model (R324): SESSION_CTL acts on all the parts. -/
def State.splitOf (s : State) (model : Nat) : Option Nat := (s.object 1 model).bind fun o => s.splitSt (o.data.take 256)

/-- Admission of a SESSION_CTL action other than OPEN: it waits for its session, and FREE sessions refuse it (R297, R298). A command
that names no session has none to act on (log 29). -/
def State.sessionCtl (s : State) (tag action : Nat) (f : Trk → Nat → Session → State → State) : State :=
  match s.startedAs tag 0x98 with
  | some t =>
    if sqeAction t.sqe = action ∨ (3 < sqeAction t.sqe ∧ action = 3) then
      s.vendorRow tag 0x98 (fun _ => false) fun t s =>
        if !t.sqe.sessionValid then s.vendorRefuse tag St.noObject
        else
          let i := t.sqe.session
          if s.mustWait tag t then s.sessionWait i tag
          else
            let x := s.session i
            if x.state = .free then s.refuseSes tag t St.noObject
            else match s.splitOf x.model with
              | some st => s.refuseSes tag t st
              | none => f t i x (s.holdSession i tag)
    else s
  | none => s

/-- The session OPEN takes: one that was never used, else the one freed longest ago (R297). -/
def Tiers.nextFree (t : Tiers) : Option (Nat × Tiers) :=
  if t.fresh < sessionCount then some (t.fresh, { t with fresh := t.fresh + 1 })
  else match t.freed with
    | i :: l => some (i, { t with freed := l })
    | [] => none

/-- SESSION_OPEN (R297). `root`, `chunk`: where the keeper puts the KV tensor record and its first directory chunk (R279). A record and a
chunk that do not fit the KV pool are refused (R278). -/
def execSessionOpen (tag : Nat) (p : KvPlace) (s : State) : Out :=
  .next (match s.startedAs tag 0x98 with
    | some t =>
      if sqeAction t.sqe = 0 then
        s.vendorRow tag 0x98 (fun _ => false) fun t s =>
          match s.object 1 t.sqe.object with
          | none => s.vendorRefuse tag St.noObject
          | some o =>
            let m := o.data.take 256
            if manKv m = 0xFF ∨ fieldAt m 0x36 1 ≠ 0 then s.vendorRefuse tag St.unsupported
            else match s.splitSt m with
              | some st => s.vendorRefuse tag st
              | none => match s.tiers.nextFree with
                | none => s.vendorRefuse tag St.noSpace
                | some (i, ts) =>
                  let n := kvRecordBytes m
                  if !s.fits 4 (n + 65536) then s.vendorRefuse tag St.noSpace
                  else if p.root % 64 = 0 && s.freeRange p.root n then
                    match ((s.modTiers fun _ => ts).take 4 p.root n).takeChunks 1 [p.chunk] with
                    | some s =>
                      let s := (s.writeMem p.root (kvRecord m s.hdCount 1 [p.chunk])).modSession i fun _ =>
                        { state := .active, model := t.sqe.object, shape := manShape m, root := p.root, lastUse := s.hdCount }
                      s.vendorEndWith tag St.ok i 0
                    | none => s
                  else s
      else s
    | none => s)

/-- The stored copy of a KV tensor (R297). -/
def State.kvImage (s : State) (r : Nat) : ColdImage :=
  { header := s.bytesAt r (s.recLen r)
    chunks := (List.range (s.recField r 0x14 4)).map fun k => s.bytesAt (s.natAt (r + 0x40 + 8 * k) 8) 65536
    tiles := (List.range (s.recTiles r)).filterMap fun i =>
      let l := s.loc r i
      if l.wh = 1 then some (i, s.bytesAt l.at_ l.len) else none }

/-- A session becomes COLD: its copy lies in the tier store at `pos`, in 16-byte units, and nothing of it is in T1 (R297). The place must be
free: none where it is not. -/
def State.makeCold (s : State) (i pos : Nat) : Option State :=
  let r := (s.session i).root
  let img := s.kvImage r
  if s.t2Free (16 * pos) img.size then
    some (((s.releaseKv r).takeT2 (16 * pos) img.size).modSession i fun x =>
      { x with state := .cold, root := pos, image := some img, op := none })
  else none

/-- SESSION_PARK (R297): to T1 at once; to T2 when its stored bytes are durable (R301). -/
def execSessionPark (tag : Nat) (s : State) : Out :=
  .next (s.sessionCtl tag 1 fun t i x s =>
    if sqeParkTier t.sqe = 0 then
      if x.state = .cold then s.sesEnd tag i .cold else (s.modSession i fun x => { x with state := .parked }).sesEnd tag i .parked
    else if s.ftl.readOnly then s.refuseSes tag t St.readOnly
    else if x.state = .cold then s.sesEnd tag i .cold
    else if s.storeFits x.root then (s.modSession i fun x => { x with op := some (.parkT2 tag) }).admitTag tag
    else s.refuseSes tag t St.noSpace)

/-- PARK_T2_DONE (R301). -/
def execParkT2Done (i : Fin 1048576) (pos : Nat) (s : State) : Out :=
  .next (match (s.session i).op with
    | some (.parkT2 tag) => match s.makeCold i pos with
      | some s => s.sesEnd tag i .cold
      | none => s
    | _ => s)

/-- SESSION_RESUME (R297). -/
def execSessionResume (tag : Nat) (s : State) : Out :=
  .next (s.sessionCtl tag 2 fun _ i x s =>
    if x.state = .cold then s.beginResume i tag
    else (s.modSession i fun x => { x with state := .active }).sesEnd tag i .active)

/-- Put the tiles of a stored copy back into T1, each at its new place (R301): WHERE 1, T2_COPY 0. -/
def restoreTiles (r : Nat) : List (Nat × Bytes) → List Nat → State → Option State
  | [], _, s => some s
  | (i, b) :: l, a :: as, s =>
    if s.freeRange a b.length then
      restoreTiles r l as (((s.take 4 a b.length).writeMem a b).setLoc r i { wh := 1, at_ := a, copy := false, len := b.length, pos := 0 })
    else none
  | _ :: _, [], _ => none

/-- Put the directory chunks back. -/
def restoreChunks (r : Nat) : Nat → List Bytes → List Nat → State → Option State
  | _, [], _, s => some s
  | k, b :: l, a :: as, s =>
    if s.freeRange a 65536 then
      restoreChunks r (k + 1) l as (((s.take 4 a 65536).writeMem a b).writeNat (r + 0x40 + 8 * k) 8 a)
    else none
  | _, _ :: _, [], _ => none

/-- A resume from COLD has no room, and none can be made (R299): its command ends with ST_NO_SPACE, and the session stays COLD. -/
def State.resumeFails (s : State) (i tag : Nat) : State :=
  let s := s.modSession i fun x => { x with op := none }
  match s.trk tag with
  | some t => if t.sqe.opc = 0x98 then (s.sessionDone i).vendorEnd tag St.noSpace else s.refuseSes tag t St.noSpace
  | none => s.sessionDone i

/-- RESUME_COLD_DONE (R297, R301): the record, the chunks and the tiles lie at the places the keeper allocated; the session is
ACTIVE and its stored copy is released. It waits while PARKED sessions can be demoted to make room (R299). A GENERATE or RUN that
waited for it is admitted when its row comes again. -/
def execResumeColdDone (i : Fin 1048576) (root : Nat) (chunks tiles : List Nat) (s : State) : Out :=
  let x := s.session i
  .next (match x.op, x.image with
    | some (.resume tag), some img =>
      let n := s.rootBytes x img
      if !s.fits 4 (n + img.room) then (if s.canDemote then s else s.resumeFails i tag)
      else if root % 64 = 0 && s.freeRange root n then
        let s1 := (s.take 4 root n).writeMem root img.header
        match (restoreChunks root 0 img.chunks chunks s1).bind (restoreTiles root img.tiles tiles) with
        | some s2 =>
          let s2 := (s2.releaseT2 (16 * x.root)).modSession i fun x => { x with state := .active, root := root, image := none, op := none }
          match s2.trk tag with
          | some t =>
            if t.sqe.opc = 0x98 then s2.sesEnd tag i .active
            else s2.modTrk tag fun t => { t with admitted := false }
          | none => s2.sessionDone i
        | none => s
      else s
    | _, _ => s)

/-- SESSION_CLOSE (R297): the session is FREE and joins the end of the free order. -/
def execSessionClose (tag : Nat) (s : State) : Out :=
  .next (s.sessionCtl tag 3 fun _ i x s =>
    let s := match x.image with
      | some _ => s.releaseT2 (16 * x.root)
      | none => s.releaseKv x.root
    let s := (s.sessionDone i).modSession i fun _ => {}
    (s.modTiers fun t => { t with freed := t.freed ++ [i] }).vendorEndWith tag St.ok SesState.free.code 0)

/-- SESSION_DEMOTION (R299): with no room in the KV pool, the PARKED session with the oldest LAST_USE becomes COLD. -/
def execSessionDemotion (i : Fin 1048576) (pos : Nat) (s : State) : Out :=
  .next (if s.kvFull && s.demotable i && s.demotables.all (fun k => decide ((s.session i).lastUse ≤ (s.session k).lastUse)) && !s.ftl.readOnly
      && s.storeFits (s.session i).root then
    match s.makeCold i pos with
    | some s => s.modTiers fun t => { t with demoted := satAdd (2 ^ 32 - 1) t.demoted 1 }
    | none => s
    else s)

/-- The session descriptor (R296). -/
def State.sessionDescriptor (s : State) (i : Nat) : Bytes :=
  let x := s.session i
  let stored := match x.image with
    | some img => img.size
    | none => if x.state = .free then 0 else s.storedBytes x.root
  leBytes 1 (x.state.code + 4 * b2n x.busy.isSome) ++ [0] ++ leBytes 2 x.model ++ leBytes 4 x.tokens ++ leBytes 4 x.pages
    ++ leBytes 4 ((stored + 1023) / 1024) ++ leBytes 8 x.root ++ leBytes 8 x.seed ++ leBytes 8 x.counter ++ leBytes 8 x.lastUse
    ++ leBytes 4 x.lastToken ++ List.replicate 12 0

/-- Sessions in a state. -/
def Tiers.inState (t : Tiers) (x : SesState) : Nat := (t.sessions.filter fun p => p.2.state == x).length
/-- SE_STATES (R303). -/
def Tiers.states (t : Tiers) : Nat := t.inState .active + 2 ^ 21 * t.inState .parked + 2 ^ 42 * t.inState .cold
/-- SE_EVENTS (R303). -/
def Tiers.eventsWord (t : Tiers) : Nat := t.lostAtRestart + 2 ^ 32 * t.demoted

end Sys2Proof.Machine
end

