-- ==== Sys2Proof/Machine/SpanMsg.lean ====
section
/-! DEFINITION. What the messages of the span bring (R406, R410-R415, R419): tiles, shard queries, reads, replies; the loss of paths and
peers. -/

namespace Sys2Proof.Machine

/-! ## Tiles (R244, R413) -/

/-- The model object of the task that runs on a cluster. -/
def State.modelOf (s : State) (g : Nat) : Nat :=
  match s.taskOf g with
  | some t => ((Tab.find s.tokens.gens t.tag).map (·.model)).getD 0
  | none => 0

/-- Row stride of rows at rising addresses. -/
def rowStride : List (Nat × Bytes) → Nat
  | a :: b :: _ => b.1 - a.1
  | _ => 0

/-- A TILE message (R413). The scale rows of an MX block follow its rows with an address, a stride and a size of their own, 4 bytes
each (the model's layout). -/
def tileMessage (obj : Nat) (b : ChainSend) : Bytes :=
  let w := (b.rows.headD (0, [])).2.length
  let data := b.rows.takeWhile fun r => r.2.length == w
  let scale := b.rows.drop data.length
  leBytes 2 obj ++ leBytes 2 b.cluster ++ leBytes 2 b.slot ++ leBytes 1 b.count ++ [0] ++ leBytes 4 (data.headD (0, [])).1
    ++ leBytes 2 data.length ++ leBytes 2 w ++ leBytes 4 (rowStride data) ++ (data.map (·.2)).flatten
    ++ (match scale with
      | [] => []
      | r :: _ => leBytes 4 r.1 ++ leBytes 4 (rowStride scale) ++ leBytes 4 r.2.length ++ (scale.map (·.2)).flatten)

/-- Rows of `w` bytes at a stride. -/
def rowsFrom (a stride w : Nat) : Nat → Bytes → List (Nat × Bytes)
  | 0, _ => []
  | n + 1, d => (a, d.take w) :: rowsFrom (a + stride) stride w n (d.drop w)

/-- The rows of a TILE message: cluster-local addresses and bytes. -/
def tileRows (d : Bytes) : List (Nat × Bytes) :=
  let n := fieldAt d 0x0C 2
  let w := fieldAt d 0x0E 2
  let rest := d.drop (0x14 + n * w)
  rowsFrom (fieldAt d 8 4) (fieldAt d 0x10 4) w n (d.drop 0x14)
    ++ (if rest = [] then [] else rowsFrom (fieldAt rest 0 4) (fieldAt rest 4 4) (fieldAt rest 8 4) n (rest.drop 12))

/-- Does a row lie in ON banks of the cluster and outside RESIDENT regions? -/
def Cluster.rowOk (c : Cluster) (r : Nat × Bytes) : Bool :=
  decide (r.1 + r.2.length ≤ spEnd) && (List.range (r.2.length / 65536 + 2)).all fun i =>
    let a := min (r.1 + 65536 * i) (r.1 + r.2.length - 1)
    c.bank (a / 2 ^ 20) == .on && !c.isResident a

/-- Is a TILE message from a peer accepted? (R413) -/
def State.tileOk (s : State) (peer : Nat) (d : Bytes) : Bool :=
  let g := fieldAt d 2 2
  match s.object 1 (fieldAt d 0 2) with
  | some o =>
    decide (g < 128) && ((o.data.drop 0x40).take (min 16 (fieldAt o.data 0x35 1))).any (fun b => b.toNat == peer)
      && (match Tab.find s.sched.parts (fieldAt o.data 0x34 1) with
        | some p => bit p.mask g
        | none => false)
      && (tileRows d).all (s.cluster g).rowOk
  | none => false

/-- The saved task of a cluster that runs a model (R419). -/
def State.savedFor (s : State) (g obj : Nat) : Option (Task × Save) :=
  (s.sched.parts.map fun p =>
    (p.2.q0.tasks ++ p.2.q1.tasks ++ p.2.q2.tasks ++ p.2.q3.tasks).filterMap fun t =>
      match Tab.find t.saved g with
      | some v => if ((Tab.find s.tokens.gens t.tag).map (·.model)).getD 0 = obj then some (t, v) else none
      | none => none).flatten.head?

/-- Change the saved image of a cluster of a task. -/
def State.modSaved (s : State) (tag g : Nat) (f : Save → Save) : State :=
  s.modWaiting fun t =>
    if t.tag = tag then
      (match Tab.find t.saved g with
       | some v => { t with saved := Tab.put t.saved g (f v) }
       | none => t)
    else t

/-- Write a row into a saved image. -/
def Save.row (v : Save) (r : Nat × Bytes) : Save := { v with mem := Tab.setRange 0 v.mem r.1 r.2 }

/-- Write a row into the working-set image of a cluster in its save area (R357, R419). -/
def State.writeImage (s : State) (t : Task) (g : Nat) (v : Save) (r : Nat × Bytes) : State :=
  let a := t.saveAreas.getD ((t.saved.map (·.1)).idxOf g) 0
  v.regions.zipIdx.foldl (fun s x =>
    let lo := max r.1 x.1
    let hi := min (r.1 + r.2.length) (x.1 + 65536)
    if lo < hi then s.writeMem (a + 0x94000 + 65536 * x.2 + (lo - x.1)) ((r.2.drop (lo - r.1)).take (hi - lo)) else s) s

/-- Take in a TILE message: written and its slot given, or none while the slot stays FULL. A pre-empted task of the model takes it in
its saved image. -/
def State.takeTile (s : State) (d : Bytes) : Option State :=
  let g := fieldAt d 2 2
  let slot := fieldAt d 4 2
  let n := fieldAt d 6 1
  match (if s.modelOf g = fieldAt d 0 2 then none else s.savedFor g (fieldAt d 0 2)) with
  | some (t, v) =>
    if v.cl.slotFull slot then none
    else some (((tileRows d).foldl (fun s r => s.writeImage t g v r) s).modSaved t.tag g fun v =>
      let v := (tileRows d).foldl Save.row v
      { v with cl := v.cl.setSlot slot true n })
  | none =>
    if (s.cluster g).slotFull slot then none
    else some (((tileRows d).foldl (fun s r => s.store (spAddr g r.1) r.2) s).modCl g fun c => c.setSlot slot true n)

/-- The block of a chain that a message carried has been acknowledged: the chain goes on (R244). -/
def State.blockSent (s : State) (g u msg : Nat) : State :=
  match (s.cluster g).chainAt u with
  | some k =>
    match k.parts with
    | .send b :: l => if b.msg = some msg then s.chainAdvance g u { k with parts := l } else s
    | _ => s
  | none => s

/-- The block of a chain cannot be delivered: the chain ends its step. -/
def State.blockFails (s : State) (g u msg st : Nat) : State :=
  match (s.cluster g).chainAt u with
  | some k =>
    match k.parts with
    | .send b :: _ => if b.msg = some msg then s.mxuFault g u st else s
    | _ => s
  | none => s

/-! ## Reads (R415) -/

/-- A SPAN_READ ends: its data, then the completion word, then the slot. -/
def State.endRead (s : State) (id st : Nat) (d : Bytes) : State :=
  match s.span.reads.find? fun r => r.id == id with
  | some r =>
    let s := s.modSpan fun x => { x with reads := x.reads.filter fun q => q.id != id }
    let s := if st = St.ok then s.store r.dst (fitTo r.len d) else s
    (s.store (r.dst + r.len) (leBytes 8 st)).postSlot r.g r.epoch r.slot
  | none => s

/-- Serve a peer's read: namespace, first LBA, sectors. -/
def State.serveRead (s : State) (peer msg : Nat) (d : Bytes) : State :=
  let ns := fieldAt d 0 4
  let slba := fieldAt d 4 8
  let n := fieldAt d 0x0C 2
  let size := match Tab.find s.host.ns ns with
    | some k => k.size
    | none => 0
  if !s.span.shares ns || n == 0 || decide (512 < n) || decide (size < slba + n) then s.spanReply peer msg clsRead St.addrDenied []
  else
    let all := (List.range n).filterMap fun k => (s.readLba ns (slba + k) []).map fun x => (slba + k, x)
    let bad := all.filter fun x => x.2.2.2
    if bad ≠ [] then
      (reportLost ns noTag (bad.map fun x => (x.1, x.2.1)) s).spanReply peer msg clsRead St.mediaUnrecovered []
    else s.spanReply peer msg clsRead St.ok ((all.map fun x => x.2.2.1).flatten)

/-! ## Shard answers (R414) -/

/-- The sums a shard reports, added to those the query holds. -/
def addSums (b : Bytes) (l : List (Nat × Nat × Nat × Bool)) : List (Nat × Nat × Nat × Bool) :=
  l.zipIdx.map fun x =>
    let f (k : Nat) : Nat := fieldAt b (16 * x.2 + 4 * k) 4
    (x.1.1 + f 0, x.1.2.1 + f 1, x.1.2.2.1 + f 2, x.1.2.2.2 || f 3 != 0)

/-- Merge entries of 32 bytes each. -/
def cutEntries : Nat → Bytes → List MergeEntry
  | 0, _ => []
  | n + 1, b => if b = [] then [] else mergeEntryOf (b.take 32) :: cutEntries n (b.drop 32)

/-- A shard's stream arrives at the origin: one stream of the merge, or entries kept beside it where the shards have reranked. -/
def State.shardStream (s : State) (key peer : Nat) (d : Bytes) : State :=
  match Tab.find s.index.queries key with
  | some q =>
    let n := fieldAt d 0 4
    let es := (cutEntries (d.length / 32 + 1) (d.drop (4 + 16 * n))).map fun e => { e with span := peer, source := peer }
    let s := s.modQuery key fun q => { q with
      sums := addSums (d.drop 4) q.sums, shards := q.shards.filter fun p => p != peer
      remote := if q.rerank = 0 then q.remote else q.remote ++ es.filter fun e => e.id != noId }
    let es := if q.rerank = 0 then es else es.filter fun e => e.close
    es.foldl (fun s e => s.mergeArrive q.inst e) s
  | none => s

/-- A message fails, or is answered with an error (R412-R415). -/
def State.messageFails (s : State) (m : OutMsg) (st : Nat) : State :=
  match m.use with
  | .tile g u => s.blockFails g u m.num st
  | .query key => s.failQuery key st
  | .read id => s.endRead id st []
  | .reply => s

/-- Fail the messages of a list. -/
def failMessages (st : Nat) : List OutMsg → State → State
  | [], s => s
  | m :: l, s => failMessages st l (s.messageFails m st)

/-- A message has ended (R411). Queries and reads go on until they are answered. -/
def State.messageEnds (s : State) (m : OutMsg) : State :=
  match m.use with
  | .tile g u => s.blockSent g u m.num
  | _ => s

/-- Take the ended messages of a peer: those no frame of which is unacknowledged. -/
def State.endMessages (s : State) (n : Nat) : State :=
  let p := s.peer n
  let ended := p.msgs.filter fun m => !(p.unacked.any fun f => f.msg == m.num)
  let waits (m : OutMsg) : Bool := match m.use with
    | .query _ => true
    | .read _ => true
    | _ => false
  let s := s.modPeer n fun p => { p with msgs := p.msgs.filter fun m => waits m || !ended.contains m }
  ended.foldl (fun s m => s.messageEnds m) s

/-! ## Loss of peers and paths (R406, R412) -/

/-- The shard queries that a peer asked for fail with it. -/
def State.failAskers (s : State) (n : Nat) : State :=
  s.modIndex fun ix => { ix with queries := ix.queries.map fun q =>
    (q.1, match q.2.asker with
      | some a => if a.1 = n then { q.2 with failed := some St.peerAbsent, todo := [] } else q.2
      | none => q.2) }

/-- A peer becomes FAULTY, ABSENT or REFUSED: every message to or from it fails, its secure associations and paths go (R412). -/
def State.failPeer (s : State) (n : Nat) (x : PeerState) (port : Nat) : State :=
  let p := s.peer n
  let s := s.modPeer n fun p => { p with
    p0 := {}, p1 := {}, unacked := [], msgs := [], held := [], parts := [], gapSince := none, nakDone := false, oldKey := false
    bad := [], resent := [], peerEpoch := none }
  let s := (s.failAskers n).setPeerState n x port
  failMessages (s.peer n).failSt p.msgs s

/-- Send the unacknowledged frames of a lost path on the other one (R406). -/
def State.moveFrames (s : State) (n port : Nat) : State :=
  let p := s.peer n
  let o := 1 - port
  if (p.path o).up then
    (p.unacked.filter fun f => f.sent && f.port == port).foldl (fun s f => s.sendFrame n f o) s
  else s

/-- A path is lost: PATH_LOST is posted, and its frames go on the other path. -/
def State.losePath (s : State) (n port : Nat) : State :=
  let up := ((s.peer n).path port).up
  let s := s.modPeer n fun p => p.setPath port fun _ => {}
  if up then (s.peerEvent n 8 port).moveFrames n port else s

/-- Every path of a port is lost. -/
def State.losePaths (s : State) (port : Nat) : State :=
  (s.span.peers.map (·.1)).foldl (fun s n => s.losePath n port) s

/-- A frame of a peer is bad: the 16th within a second makes the peer FAULTY (R412). -/
def State.badFrame (s : State) (n : Nat) (port : Nat) : State :=
  let p := s.peer n
  let l := (p.bad.filter fun t => decide (s.hdCount < t + 1000000)) ++ [s.hdCount]
  let s := s.modPeer n fun p => { p with bad := l }
  if p.live && decide (16 ≤ l.length) then s.failPeer n .faulty port else s

/-! ## Taking frames (R409, R410) -/

/-- Check a frame that is not an OPEN or SPDM frame. -/
def State.frameOk (s : State) (n port : Nat) (b : Bytes) : Bool :=
  let p := s.peer n
  decide (32 ≤ b.length) && fieldAt b 0 1 == 1 && decide (fieldAt b 5 1 < 8) && fieldAt b 0x1C 4 == 0
    && (if fieldAt b 1 1 = 0 then decide (fieldAt b 4 1 < 4) else fieldAt b 4 1 == 0)
    && fieldAt b 6 2 + 32 == b.length && decide (fieldAt b 6 2 ≤ 8192) && fieldAt b 3 1 == s.span.number
    && p.peerEpoch == some (fieldAt b 0x12 2) && (p.path port).up && p.live

/-- Take ACK and CREDIT of an accepted frame. -/
def State.takeAck (s : State) (n port : Nat) (b : Bytes) : State :=
  let p := s.peer n
  let ack := fieldAt b 0x0C 4
  let s := s.modPeer n fun p => { p with heard := s.hdCount }
  if p.txNext < ack then s.failPeer n .faulty port
  else
    let moved := decide (p.acked < ack)
    let first := p.unacked.find? fun f => f.seq + 1 == ack
    let rtt := match first with
      | some f => if f.retx then p.rtt else (7 * p.rtt + (s.hdCount - f.sentAt)) / 8
      | none => p.rtt
    let s := s.modPeer n fun p => { p with
      acked := max p.acked ack, unacked := p.unacked.filter fun f => decide (ack ≤ f.seq)
      limit := max p.limit (ack + fieldAt b 0x10 2), rtt := rtt
      advanced := if moved then s.hdCount else p.advanced
      p0 := if moved then { p.p0 with fails := 0 } else p.p0, p1 := if moved then { p.p1 with fails := 0 } else p.p1 }
    let s := if moved && p.state == .slow then s.setPeerState n .ready port else s
    (s.endMessages n).sendAllowed n

/-- Take a REPLY: the message it answers, its ST code, what it brings. -/
def State.takeReply (s : State) (n : Nat) (d : Bytes) : State :=
  let num := fieldAt d 0 4
  let st := fieldAt d 4 2
  match (s.peer n).msgs.find? fun m => m.num == num with
  | some m =>
    let s := s.modPeer n fun p => { p with msgs := p.msgs.filter fun k => k.num != num }
    if st ≠ St.ok then s.messageFails m st
    else match m.use with
      | .query key => s.shardStream key n (d.drop 8)
      | .read id => s.endRead id St.ok (d.drop 8)
      | _ => s
  | none => s

/-- A shard takes a QUERY message (R414). `inst`, `base`: what the keeper uses for it. -/
def State.takeQuery (s : State) (n msg : Nat) (d : Bytes) (inst base : Nat) : State :=
  let i := fieldAt d 0 4
  let q := d.drop 4
  match s.ix i with
  | none => s.spanReply n msg clsQuery St.noObject []
  | some x =>
    match x.trained with
    | none => s.spanReply n msg clsQuery St.noObject []
    | some t =>
      match x.queryCheck q q.length 2097152 with
      | some st => s.spanReply n msg clsQuery st []
      | none => s.openQuery (2 ^ 24 + 2 ^ 40 * n + msg) noTag i x t q inst base false [] (some (n, msg))

/-- A complete message is handled; none where it cannot be taken yet. -/
def State.takeMessage (s : State) (n cls msg : Nat) (d : Bytes) (inst base : Nat) : Option State :=
  match cls with
  | 0 => if s.tileOk n d then s.takeTile d else some (s.spanReply n msg clsTile St.addrDenied [])
  | 1 => if 4095 < inst ∨ Tab.has s.sel.merges inst = true then none else some (s.takeQuery n msg d inst base)
  | 2 => some (s.serveRead n msg d)
  | _ => some (s.takeReply n d)

/-- Deliver a frame that is next in order: its bytes join its message; none where a message that it completes must wait. -/
def State.takeFrame (s : State) (n : Nat) (b : Bytes) (inst base : Nat) : Option State :=
  let cls := fieldAt b 4 1
  let f := fieldAt b 5 1
  let p := s.peer n
  let d := (if bit f 0 then [] else Tab.get [] p.parts cls) ++ b.drop 32
  let next (s : State) : State := s.modPeer n fun p => { p with rxNext := p.rxNext + 1, grant := max p.grant (p.rxNext + 1 + 4) }
  if bit f 1 then
    (s.takeMessage n cls (fieldAt b 0x14 4) d inst base).map fun s =>
      next (s.modPeer n fun p => { p with parts := Tab.set [] p.parts cls [] })
  else some (next (s.modPeer n fun p => { p with parts := Tab.set [] p.parts cls d }))

/-- Deliver held frames that have become next in order. -/
def takeHeld (n inst base : Nat) : Nat → State → State
  | 0, s => s
  | k + 1, s =>
    let p := s.peer n
    match Tab.find p.held p.rxNext with
    | some b =>
      match s.takeFrame n b inst base with
      | some t => takeHeld n inst base k (t.modPeer n fun q => { q with held := Tab.del q.held p.rxNext })
      | none => s
    | none => s

/-- A DATA frame of a live peer (R410). -/
def State.takeData (s : State) (n port : Nat) (b : Bytes) (inst base : Nat) : State :=
  let p := s.peer n
  let seq := fieldAt b 8 4
  if seq < p.rxNext then s.sendAck n
  else if p.grant ≤ seq then s.failPeer n .faulty port
  else if seq = p.rxNext then
    match s.takeFrame n b inst base with
    | some t =>
      let t := takeHeld n inst base (p.held.length + 1) t
      let t := t.modPeer n fun q => { q with
        gapSince := if q.held = [] then none else some (q.gapSince.getD s.hdCount), nakDone := q.nakDone && q.held != [] }
      if (t.peer n).live then t.sendAck n else t
    | none => s
  else s.modPeer n fun p => { p with
    held := Tab.put p.held seq b, gapSince := some (p.gapSince.getD s.hdCount) }

end Sys2Proof.Machine
end

