-- ==== Sys2Proof/Machine/Span.lean ====
section
/-! DEFINITION. The commands of the span links (spec/18), and CHAIN_BLOCK_SEND. -/

namespace Sys2Proof.Machine

/-! ## CHAIN_BLOCK_SEND (R244) -/

/-- Send the next block of a chain to a peer as one TILE message; once sent it waits for the acknowledgement. `l`: what follows it. -/
def State.sendRemote (s : State) (g u n : Nat) (k : Chain) (b : ChainSend) (l : List ChainPart) : State :=
  let p := s.peer n
  if !p.live then s.mxuFault g u p.failSt
  else match b.msg with
    | some _ => s
    | none =>
      let b := { b with msg := some p.nextMsg, rows := b.rows.map fun r => (r.1, s.chainBytes k.tainted r.2) }
      let s := s.used.modCl g fun c => c.setChain u { k with parts := .send b :: l }
      (s.spanSend n clsTile (tileMessage (s.modelOf g) b) (.tile g u)).2

/-- CHAIN_BLOCK_SEND: the next finished N block of the chain in progress at a gang. -/
def execChainBlockSend (g : Fin 128) (u : Fin 4) (s : State) : Out :=
  .next (match (s.cluster g).chainAt u with
    | some k =>
      let s := s.chainRun g u k
      match (s.cluster g).chainAt u with
      | some k =>
        let s := s.chainAdvance g u k
        match (s.cluster g).chainAt u with
        | some k =>
          match k.parts with
          | .send b :: l => (match b.span with
            | some n => s.sendRemote g u n k b l
            | none => s.sendLocal g u k b l)
          | _ => s
        | none => s
      | none => s
    | none => s)

/-! ## Ports (R405-R407) -/

/-- Is the span permitted to speak with a peer? (R417) -/
def Span.permits (x : Span) (n : Nat) : Bool := Tab.has x.permitted n

/-- A discovery OPEN frame to a peer: it names the span number only. -/
def State.discover (s : State) (n port : Nat) : State :=
  s.wire port (frameBytes 3 s.span.number n 0 0 0 0 0 0 0 0 [])

/-- Begin bring-up of a peer over a port that is UP. -/
def State.bringUp (s : State) (n port : Nat) : State :=
  if (s.span.port port).link = .up ∧ ((s.peer n).path port).up = false then
    (s.modPeer n fun p => p.setPath port fun _ => { since := some s.hdCount }).discover n port
  else s

/-- Begin bring-up of every permitted peer over a port. -/
def State.bringUpAll (s : State) (port : Nat) : State := (s.span.permitted.map (·.1)).foldl (fun s n => s.bringUp n port) s

/-- SPAN_PORT_UP (R407 step 1): the PMD has trained and FEC has locked. While the module is Held both ports stay down (R416). -/
def execSpanPortUp (p : Fin 2) (s : State) : Out :=
  .next (
    let x := s.span.port p
    if x.enable && x.link != .up && !s.isHeld && s.alive && decide (s.power.ladder ≤ 1) && !s.faults.lost.contains (.port p) then
      ((s.modPort p fun x => { x with link := .up, fecLock := true }).peerEvent 0 7 p).bringUpAll p
    else s)

/-- A port goes down: its paths are lost, and PORT_DOWN is posted. -/
def State.portDown (s : State) (p : Nat) (to_ : SpanLink) : State :=
  let was := (s.span.port p).link
  let s := s.losePaths p
  let s := s.modPort p fun x => { x with link := to_, fecLock := false }
  if was = .up then s.peerEvent 0 6 p else s

/-- SPAN_PORT_DOWN (R406): a port leaves UP, or its training fails. -/
def execSpanPortDown (p : Fin 2) (s : State) : Out :=
  .next (
    let s := if (s.span.port p).link = .training then (s.modPort p fun x => { x with link := .down }).peerEvent 0 6 p else s
    s.portDown p .down)

/-- SL_RETRAIN: every path on the port is lost meanwhile. -/
def execSlRetrain (p : Fin 2) (s : State) : Out :=
  .next (if (s.span.port p).enable then s.portDown p .training else s)

/-- Give ENABLE of a port its value: 1 begins training, 0 takes the port down. -/
def State.enablePort (s : State) (p : Nat) (on : Bool) : State :=
  let was := (s.span.port p).enable
  let s := s.modPort p fun x => { x with enable := on }
  if on then (if was || s.isHeld then s else s.modPort p fun x => { x with link := .training }) else s.portDown p .down

/-- SL_ENABLE. -/
def execSlEnable (p : Fin 2) (on : Bool) (s : State) : Out := .next (s.enablePort p on)

/-! ## Bring-up (R407) -/

/-- A peer becomes READY on a path: a new EPOCH of the partner fails what is in flight (R412). -/
def State.ready (s : State) (n port epoch credit : Nat) : State :=
  let p := s.peer n
  let fresh := !p.live
  let changed := p.peerEpoch.isSome && p.peerEpoch != some epoch
  let s := if changed then failMessages St.peerAbsent p.msgs ((s.modPeer n fun p => { p with msgs := [] }).failAskers n) else s
  let s := if fresh || changed then s.modPeer n fun p => { p with
      txNext := 0, acked := 0, limit := 0, rxNext := 0, grant := 4, unacked := [], held := [], parts := [], gapSince := none
      nakDone := false, keyAt := s.hdCount, bad := [] } else s
  let s := s.modPeer n fun p => { (p.setPath port fun x => { x with up := true, since := none, fails := 0 }) with
    peerEpoch := some epoch, limit := max p.limit credit, heard := s.hdCount, advanced := s.hdCount }
  (if fresh then s.setPeerState n .ready port else s).sendAllowed n

/-- OPEN_FRAME. In the clear it only discovers a span number (step 2); encrypted, it exchanges the transport version and the EPOCH and
grants the first credits (step 6). -/
def execOpenFrame (port : Fin 2) (b : Bytes) (encrypted : Bool) (s : State) : Out :=
  .next (
    let n := fieldAt b 2 1
    let p := s.peer n
    if (s.span.port port).link ≠ .up ∨ b.length < 32 ∨ s.span.permits n = false then s
    else if !encrypted then
      (let s := s.modPort port fun x => { x with rx := satAdd (2 ^ 64 - 1) x.rx 1 }
       if (p.path port).up || (p.path port).since.isSome || p.state == .refused || p.state == .faulty then s else s.bringUp n port)
    else if !(p.path port).keyed then s.modPort port fun x => { x with malformed := satAdd 65535 x.malformed 1 }
    else
      let s := s.modPort port fun x => { x with rx := satAdd (2 ^ 64 - 1) x.rx 1 }
      if fieldAt b 0 1 ≠ 1 then s.failPeer n .refused port
      else s.ready n port (fieldAt b 0x12 2) (fieldAt b 0x10 2))

/-- SPDM_FRAME (R407 steps 3 to 5): authentication goes on, fails, or completes with the digest of the partner's certificate key; then
the module sends its encrypted OPEN. -/
def execSpdmFrame (port : Fin 2) (n : Nat) (r : SpdmResult) (s : State) : Out :=
  .next (
    let p := s.peer n
    if (p.path port).since.isNone ∨ s.span.permits n = false then s
    else
      let s := s.modPort port fun x => { x with rx := satAdd (2 ^ 64 - 1) x.rx 1 }
      match r with
      | .goesOn => s
      | .fails => s.failPeer n .refused port
      | .completes d =>
        if Tab.find s.span.permitted n ≠ some d then s.failPeer n .refused port
        else
          let s := if p.live then s else
            (s.modSpan fun x => { x with nextEpoch := x.nextEpoch + 1 }).modPeer n fun q => { q with epoch := s.span.nextEpoch }
          let s := s.modPeer n fun q => q.setPath port fun x => { x with keyed := true }
          let q := s.peer n
          s.wire port (frameBytes 3 s.span.number n 0 0 0 q.rxNext 4 q.epoch 0 0 []))

/-! ## Frames (R408-R412) -/

/-- A protected frame arrives on a port from a permitted peer: counted and dropped, or taken. `icv`: its integrity check holds. -/
def spanFrame (port : Nat) (ty : Nat) (b : Bytes) (icv : Bool) (f : Nat → State → State) (s : State) : State :=
  let n := fieldAt b 2 1
  let s := s.modSpan fun x => { x with out := [] }
  if (s.span.port port).link ≠ .up then s
  else if !icv then (s.modPort port fun x => { x with icv := satAdd 65535 x.icv 1 }).badFrame n port
  else if !s.frameOk n port b || fieldAt b 1 1 != ty then
    (s.modPort port fun x => { x with malformed := satAdd 65535 x.malformed 1 }).badFrame n port
  else f n (s.modPort port fun x => { x with rx := satAdd (2 ^ 64 - 1) x.rx 1 })

/-- DATA_FRAME (R410, R413-R415). `inst`, `base`: what the keeper uses for a shard query that the frame completes. -/
def execDataFrame (port : Fin 2) (b : Bytes) (icv : Bool) (inst base : Nat) (s : State) : Out :=
  .next (spanFrame port 0 b icv (fun n s =>
    let s := s.takeData n port b inst base
    if (s.peer n).live then s.takeAck n port b else s) s)

/-- ACK_FRAME. -/
def execAckFrame (port : Fin 2) (b : Bytes) (icv : Bool) (s : State) : Out :=
  .next (spanFrame port 1 b icv (fun n s => s.takeAck n port b) s)

/-- NAK_FRAME: the frame it names is sent again; the 8th NAK of one frame makes the peer FAULTY. -/
def execNakFrame (port : Fin 2) (b : Bytes) (icv : Bool) (s : State) : Out :=
  .next (spanFrame port 2 b icv (fun n s =>
    let seq := fieldAt b 8 4
    let s := s.takeAck n port b
    match (s.peer n).unacked.find? fun f => f.seq == seq && f.sent with
    | some f =>
      if 8 ≤ f.naks + 1 then s.failPeer n .faulty port
      else
        let f := { f with naks := f.naks + 1 }
        s.sendFrame n f ((s.peer n).pick seq)
    | none => s) s)

/-! ## Timers (R406, R410, R412, R408) -/

/-- RETRANSMISSION_TIMEOUT: RTO_US has passed since the frame was sent; the third in a row loses the path. -/
def execRetransmissionTimeout (n : Fin 256) (seq : Nat) (s : State) : Out :=
  .next (
    let p := s.peer n
    match p.unacked.find? fun f => f.seq == seq && f.sent with
    | some f =>
      if !p.live || !p.hasPath || decide (s.hdCount < f.sentAt + s.span.rto) then s
      else
        let s := s.modPeer n fun p => p.setPath f.port fun x => { x with fails := x.fails + 1 }
        if 3 ≤ ((s.peer n).path f.port).fails then s.losePath n f.port
        else if ((s.peer n).path f.port).up then s.sendFrame n f f.port
        else s.sendFrame n f ((s.peer n).pick seq)
    | none => s)

/-- GAP_TIMEOUT: half of RTO_US has passed with a gap. -/
def execGapTimeout (n : Fin 256) (s : State) : Out :=
  .next (
    let p := s.peer n
    match p.gapSince with
    | some t =>
      if p.live && p.hasPath && !p.nakDone && decide (2 * t + s.span.rto ≤ 2 * s.hdCount) then
        (s.modPeer n fun p => { p with nakDone := true }).control n (p.pick 0) 2 p.rxNext []
      else s
    | none => s)

/-- KEEPALIVE_TIMER. -/
def execKeepaliveTimer (n : Fin 256) (s : State) : Out := .next (if (s.peer n).live then s.sendAck n else s)

/-- SLOW_TIMEOUT: data is outstanding, the peer is heard, and SLOW_US has passed without progress. -/
def execSlowTimeout (n : Fin 256) (s : State) : Out :=
  .next (
    let p := s.peer n
    if p.state = .ready ∧ (p.unacked.any (·.sent)) = true ∧ p.advanced + s.span.slowUs ≤ s.hdCount
        ∧ s.hdCount < p.heard + s.span.absentUs then s.setPeerState n .slow (p.pick 0)
    else s)

/-- ABSENT_TIMEOUT: no frame has been accepted for ABSENT_MS. -/
def execAbsentTimeout (n : Fin 256) (s : State) : Out :=
  .next (
    let p := s.peer n
    if p.live && decide (p.heard + s.span.absentUs ≤ s.hdCount) then s.failPeer n .absent (p.pick 0) else s)

/-- BRINGUP_TIMEOUT: steps 3 to 6 have not completed within 100 ms. -/
def execBringupTimeout (n : Fin 256) (port : Fin 2) (s : State) : Out :=
  .next (match ((s.peer n).path port).since with
    | some t => if t + 100000 ≤ s.hdCount then s.failPeer n .refused port else s
    | none => s)

/-- Repeat bring-up over both ports. -/
def State.retry (s : State) (n : Nat) : State := if s.span.permits n then (s.bringUp n 0).bringUp n 1 else s

/-- FAULTY_RETRY_TIMER. -/
def execFaultyRetryTimer (n : Fin 256) (s : State) : Out :=
  .next (if (s.peer n).state = .faulty ∧ (s.peer n).since + 1000000 ≤ s.hdCount then s.retry n else s)

/-- REFUSED_RETRY_TIMER. -/
def execRefusedRetryTimer (n : Fin 256) (s : State) : Out :=
  .next (if (s.peer n).state = .refused ∧ (s.peer n).since + 60000000 ≤ s.hdCount then s.retry n else s)

/-- REKEY_TIMER: 24 h of session. -/
def execRekeyTimer (n : Fin 256) (s : State) : Out :=
  .next (
    let p := s.peer n
    if p.live && decide (p.keyAt + 86400000000 ≤ s.hdCount) then
      s.modPeer n fun p => { p with keyAt := s.hdCount, oldKey := true }
    else s)

/-- OLD_KEY_EXPIRY. -/
def execOldKeyExpiry (n : Fin 256) (s : State) : Out :=
  .next (
    let p := s.peer n
    if p.oldKey && decide (p.keyAt + 1000 ≤ s.hdCount) then s.modPeer n fun p => { p with oldKey := false } else s)

/-! ## SPAN_READ (R415) -/

/-- SPAN_READ, the ecall of the program on cluster `g`; its status is in a0 and answered (log 97). A peer that is not live answers at once through the
completion word. -/
def execSpanRead (g : Fin 128) (n : Fin 256) (nsid slba count dst slot : Nat) (s : State) : Out :=
  .next (
    let len := 4096 * count
    if !(s.cluster g).runs then s
    else if s.cap 8 = false ∨ count = 0 ∨ 512 < count ∨ 4096 ≤ slot then s.ecallEnds g St.unsupported
    else if s.mayReach (.steward g) dst (len + 8) = false ∨ (match place dst with
        | .hbm _ => false
        | _ => true) = true then s.ecallEnds g St.addrDenied
    else
      let id := s.span.nextRead
      let r : SRead := { id := id, dst := dst, len := len, g := g, epoch := (s.cluster g).epoch, slot := slot }
      let s := (s.modSpan fun x => { x with reads := x.reads ++ [r], nextRead := id + 1 }).ecallEnds g St.ok
      let p := s.peer n
      if p.live then (s.spanSend n clsRead (leBytes 4 nsid ++ leBytes 8 slba ++ leBytes 2 count ++ [0, 0]) (.read id)).2
      else s.endRead id p.failSt [])

/-! ## AMP messages (R416-R418) -/

/-- The shard tables of a SPAN_CONFIG in use: index, count, peers, unused bytes. -/
def shardRows (p : Bytes) : List (Nat × Nat × Bytes × Bytes) :=
  ((List.range 16).map fun i => (p.drop (0x20 + 24 * i)).take 24).filterMap fun e =>
    let n := fieldAt e 1 1
    if n = 0 then none else some (fieldAt e 0 1, n, (e.drop 8).take n, e.drop (8 + n))

/-- Are a SPAN_CONFIG's values out of range? (R416) -/
def spanConfigBad (p : Bytes) : Bool :=
  let x : Span := { config := p }
  let raw (o : Nat) : Nat := fieldAt p o 2
  let rows := shardRows p
  decide (1 < fieldAt p 2 1) || decide (1 < fieldAt p 3 1)
    || (raw 4 != 0 && (decide (raw 4 < 10) || decide (10000 < raw 4))) || (raw 6 != 0 && decide (raw 6 < 100))
    || (raw 8 != 0 && (decide (raw 8 < 2) || decide (1000 < raw 8)))
    || decide (x.slowUs ≤ x.rto) || decide (x.absentUs ≤ x.slowUs)
    || rows.any (fun r => decide (15 < r.2.1) || r.2.2.2.any (· != 0) || r.2.2.1.any fun b => b.toNat == x.number)
    || decide ((rows.map (·.1)).dedup.length ≠ rows.length)

/-- SPAN_CONFIG. -/
def spanConfig : AmpBody := fun j s =>
  let p := j.payload
  if spanConfigBad p then ampRefuse St.unsupported s
  else
    let old := s.span.config
    let renumber := fieldAt old 0 1 != fieldAt p 0 1
    let s := s.modSpan fun x => { x with config := p }
    let redo (s : State) (k : Nat) : State :=
      let s := if (renumber || fieldAt old (2 + k) 1 != fieldAt p (2 + k) 1) && (s.span.port k).link == .up then s.portDown k .training else s
      s.enablePort k (bit (fieldAt p 1 1) k)
    ampAnswer (redo (redo s 0) 1) []

/-- SPAN_CONFIG. -/
def execSpanConfig (mb : Fin 3) (s : State) : Out := .next (ampExec mb 0x0901 spanConfig s)

/-- SPAN_STATUS (R418). -/
def State.spanStatus (s : State) : Bytes :=
  let paths (k : Nat) : Nat := (s.span.peers.filter fun p => (p.2.path k).up).length
  let port (k : Nat) : Bytes := leBytes 1 (s.span.port k).link.code ++ leBytes 1 (paths k) ++ List.replicate 14 0
  port 0 ++ port 1 ++ (List.range 256).flatMap fun n =>
    if n = s.span.number then List.replicate 8 0 else
    let p := s.peer n
    leBytes 1 p.state.code ++ leBytes 1 (b2n p.p0.up + 2 * b2n p.p1.up)
      ++ leBytes 2 (min 65535 (p.resent.filter fun t => decide (s.hdCount < t + 1000000)).length) ++ leBytes 2 (min 65535 p.rtt) ++ [0, 0]

/-- SPAN_STATUS. -/
def execSpanStatus (mb : Fin 3) (s : State) : Out := .next (ampExec mb 0x0902 (fun _ s => ampAnswer s s.spanStatus) s)

/-- Entries of a SPAN_PEER_SET. -/
def peerEntries (p : Bytes) : List (Nat × Nat) :=
  (List.range (fieldAt p 0 4)).map fun i => (fieldAt p (4 + 36 * i) 1, fieldAt p (8 + 36 * i) 32)

/-- SPAN_PEER_SET. -/
def spanPeerSet : AmpBody := fun j s =>
  let es := peerEntries j.payload
  let ids := es.map (·.1)
  if 255 < es.length ∨ ids.dedup.length ≠ ids.length ∨ ids.contains s.span.number = true then ampRefuse St.unsupported s
  else
    let old := s.span.permitted
    let s := s.modSpan fun x => { x with permitted := es.foldl (fun t e => Tab.put t e.1 e.2) [] }
    let s := (old.filter fun e => !ids.contains e.1).foldl (fun s e => s.failPeer e.1 .refused 0) s
    let again := ids.filter fun n => !(s.peer n).live && !((s.peer n).p0.since.isSome || (s.peer n).p1.since.isSome)
      && (s.peer n).state != .faulty
    ampAnswer (again.foldl (fun s n => s.retry n) s) []

/-- SPAN_PEER_SET. -/
def execSpanPeerSet (mb : Fin 3) (s : State) : Out := .next (ampExec mb 0x0903 spanPeerSet s)

/-! ## Registers -/

/-- A span port register by its offset. No command tells of an uncorrectable codeword, so FEC_UNCORR is a free value (log 35). -/
def slRegRead (s : State) (p off : Nat) : Nat :=
  let x := s.span.port p
  match off with
  | 0x00 => b2n x.enable
  | 0x04 => x.link.code + 4 * b2n x.fecLock + 2 ^ 16 * min 255 (s.span.peers.filter fun q => (q.2.path p).up).length
  | 0x08 => x.tx
  | 0x10 => x.rx
  | 0x18 => min 65535 (Config.waited (256 + p) off s.free s.hdCount) + 2 ^ 16 * (x.retx / 1000) + 2 ^ 32 * x.malformed + 2 ^ 48 * x.icv
  | _ => 0

end Sys2Proof.Machine
end

