-- ==== Sys2Proof/Machine/Update.lean ====
section
/-! DEFINITION. The update units and their jobs (spec/14 R327-R337). -/

namespace Sys2Proof.Machine

/-- A field of an update job descriptor (R334). -/
abbrev uf (d : Bytes) (off k : Nat) : Nat := fieldAt d off k

/-- A part of `n` elements with its block scales. -/
def partBytes (n : Nat) : Nat := n + n / 32

/-- The ranges a job may write, and those it may only read (R333). -/
def updRanges (mode : Nat) (d : Bytes) : List (Nat × Nat) × List (Nat × Nat) :=
  let n := uf d 0x08 8
  let master := (uf d 0x10 8, (if mode = 2 then 4 else 2) * n)
  let grad := (uf d 0x18 8, if mode = 2 then 4 * n else partBytes n)
  let state := if uf d 3 1 = 0 then [] else [(uf d 0x20 8, uf d 3 1 * partBytes n)]
  let arg := (uf d 0x28 8, 4096)
  let area := (uf d 0x28 8 + 3072, 1024)
  match mode with
  | 0 => (master :: state, [grad, arg])
  | 1 => ([area], [master, grad, arg] ++ state)
  | _ => ([master, grad, area], [arg])

/-- The HBM stack of an address. -/
def stackOf (a : Nat) : Option Nat := match place a with
  | .hbm k => some k
  | _ => none

/-- The refusal of an update job descriptor (R334). `prog`: the program object's bytes. -/
def State.updCheck (s : State) (g : Nat) (d : Bytes) (prog : Option Bytes) : Option Nat :=
  let mode := fieldAt (prog.getD []) 4 1
  let (w, r) := updRanges mode d
  let all := w ++ r ++ [(uf d 0x38 8, 16)]
  let n := uf d 0x08 8
  let places := all.map fun x => (stackOf x.1, stackOf (x.1 + x.2 - 1))
  if s.cap 7 = false then some St.unsupported
  else if uf d 7 1 ≠ 0 then some St.reservedField
  else match prog with
    | none => some St.noObject
    | some p =>
      if uf d 2 1 = 0 ∨ 8 < uf d 2 1 ∨ 4096 ≤ uf d 4 2 ∨ n < 32 ∨ 2 ^ 31 < n ∨ n % 32 ≠ 0 ∨ uf d 3 1 ≠ fieldAt p 5 1
          ∨ (uf d 3 1 = 0 ∧ uf d 0x20 8 ≠ 0) ∨ ((w ++ r).any fun x => x.1 % 64 != 0) = true ∨ uf d 0x38 8 % 16 ≠ 0 then
        some St.unsupported
      else if (all.any fun x => !s.mayReach (.steward (Fin.ofNat 128 g)) x.1 x.2) = true then some St.addrDenied
      else if (places.all fun k => k.1.isSome && k.1 == (places.headD (none, none)).1 && k.2 == k.1) = false then some St.unsupported
      else none

/-- The completion word and the slot of a job (R334, R335). -/
def State.updPost (s : State) (g epoch : Nat) (d : Bytes) (st blocks : Nat) : State :=
  let a := uf d 0x38 8
  let s := if s.mayReach (.steward (Fin.ofNat 128 g)) a 16 then s.store a (leBytes 2 st ++ leBytes 6 blocks ++ leBytes 8 0) else s
  if uf d 4 2 < 4096 then s.postSlot g epoch (uf d 4 2) else s

/-- UPD_SUBMIT, the ecall of the program on cluster `g`: its code is answered. -/
def execUpdSubmit (g : Fin 128) (a : Nat) (s : State) : Out :=
  .next (
    if !(s.cluster g).runs then s
    else if s.mayReach (.steward g) a 64 = false ∨ (stackOf a).isNone = true then s.ecallEnds g St.addrDenied
    else
      let d := s.bytesAt a 64
      let prog := (s.object 3 (uf d 0 2)).map (·.data)
      let e := (s.cluster g).epoch
      match s.updCheck g d prog with
      | some st => (s.updPost g e d st 0).ecallEnds g st
      | none =>
        let mode := fieldAt (prog.getD []) 4 1
        let (w, r) := updRanges mode d
        let j : UJob := { id := s.upd.nextJob, desc := d, mode := mode, g := g, epoch := e, stack := (stackOf (uf d 0x10 8)).getD 0
                          seed := ((s.taskOf g).map (·.seed)).getD 0
                          reads := w ++ r, writes := w }
        (s.modUpd fun x => { x with jobs := x.jobs ++ [j], nextJob := x.nextJob + 1 }).ecallEnds g St.ok)

/-- Do two lists of ranges overlap? -/
def overlapAny (l m : List (Nat × Nat)) : Bool :=
  l.any fun x => m.any fun y => decide (x.1 < y.1 + y.2) && decide (y.1 < x.1 + x.2)

/-- Must a job wait for one before it, queued or running? (R335) -/
def Upd.mustWait (x : Upd) (j : UJob) : Bool := x.jobs.any fun k => decide (k.id < j.id) && overlapAny k.writes j.writes

/-- The slice of unit number `i` of `n`: first block and count; the lower slices are the larger (R335). -/
def sliceOf (blocks n i : Nat) : Nat × Nat :=
  let q := blocks / n
  let r := blocks % n
  (i * q + min i r, q + b2n (decide (i < r)))

/-- Change a job. -/
def Upd.modJob (x : Upd) (id : Nat) (f : UJob → UJob) : Upd := { x with jobs := x.jobs.map fun j => if j.id = id then f j else j }
/-- Change a unit. -/
def Upd.modUnit (x : Upd) (u : Nat) (f : UUnit → UUnit) : Upd := { x with units := Tab.mod {} x.units u f }

/-- UPDATE_JOB_START (R335): a queued job takes its units, which are idle ones of the stack that holds its tensor. -/
def execUpdateJobStart (id : Nat) (us : List (Fin 8)) (s : State) : Out :=
  .next (
    let x := s.upd
    match x.jobs.find? fun j => j.id == id with
    | some j =>
      let ns := us.map fun u => j.stack * 8 + u.val
      let free := ns.all fun n => (Tab.get {} x.units n).job.isNone
      if j.units != [] || decide (us.length ≠ uf j.desc 2 1) || decide (us.dedup.length ≠ us.length) || !free || x.mustWait j then s
      else
        let x := x.modJob id fun j => { j with units := ns }
        { s with upd := ns.zipIdx.foldl (fun x n => x.modUnit n.1 fun u =>
            let sl := if j.mode = 2 then (n.2, ns.length) else sliceOf (uf j.desc 8 8 / 32) ns.length n.2
            { u with job := some id, first := sl.1, count := sl.2, committed := [], running := true, rerun := false }) x }
    | none => s)

/-! ## Conversions of the runtime (R227, R228, R336) -/

/-- The key of an update job's random draws (R336). -/
def UJob.key (j : UJob) : Nat := u64 (j.seed + uf j.desc 0x30 8 * 0x9E3779B97F4A7C15)

/-- The random value for element `i` of a tensor: bits [31:16] of g (R336). -/
def UJob.draw (j : UJob) (i : Nat) : Nat := generator j.key (uf j.desc 6 1) i / 65536

/-- Store a block's new master elements: BF16, the rounding of R228 with the draws of R336 where the program asks for it. -/
def State.storeMaster (s : State) (j : UJob) (o : UpdOut) : State :=
  s.store (uf j.desc 0x10 8 + 64 * o.block)
    (((o.master.take 32).zipIdx.map fun p =>
      leBytes 2 (narrow 9 false (if o.random then some (j.draw (32 * o.block + p.2)) else none) 0 (f32 p.1)).1).flatten)

/-- Store a block of state tensor `t`: its MXFP8_E4M3 elements, then its scale (R227, R329). -/
def State.storeState (s : State) (j : UJob) (t : Nat) (o : UpdOut) (l : List Nat) : State :=
  let n := uf j.desc 8 8
  let base := uf j.desc 0x20 8 + t * partBytes n
  let draw (k : Nat) : Option Nat := if o.random then some (j.draw (32 * o.block + k)) else none
  let (e, codes) := mxBlock 3 draw ((l.take 32).map f32)
  (s.store (base + 32 * o.block) (codes.map (BitVec.ofNat 8))).store (base + n + o.block) [BitVec.ofNat 8 e]

/-- What a committed block holds: the master elements and the blocks of the state tensors that the routines convert. -/
def State.storeBlock (s : State) (j : UJob) (o : UpdOut) : State :=
  let s := if o.master = [] then s else s.storeMaster j o
  ((o.states.take (uf j.desc 3 1)).zipIdx).foldl (fun s p => if p.1 = [] then s else s.storeState j p.2 o p.1) s

/-- UPD_COMMIT, the ecall of a BLOCKWISE program: a block of the unit's slice is done (R333). `o`: what the runtime's conversions store
for it (R336). -/
def execUpdCommit (u : Fin 16) (o : UpdOut) (s : State) : Out :=
  .next (
    let k := Tab.get {} s.upd.units u
    match s.upd.jobOf u with
    | some j =>
      if k.running && j.mode == 0 && decide (k.first ≤ o.block) && decide (o.block < k.first + k.count) && !k.committed.contains o.block then
        (s.storeBlock j o).modUpd fun x => x.modUnit u fun k => { k with committed := k.committed ++ [o.block] }
      else s
    | none => s)

/-- A job whose units have all returned completes (R335). -/
def State.updFinish (s : State) (id : Nat) : State :=
  match s.upd.jobs.find? fun j => j.id == id with
  | some j =>
    if j.units.any fun u => (Tab.get {} s.upd.units u).running then s
    else
      let s := s.modUpd fun x =>
        { (j.units.foldl (fun x u => x.modUnit u fun k => { k with job := none, rerun := false, first := 0, count := 0, committed := [] }) x)
          with jobs := x.jobs.filter fun k => k.id != id }
      s.updPost j.g j.epoch j.desc j.status j.blocks
  | none => s

/-- A unit returns with a code. -/
def State.updReturn (s : State) (u : Nat) (id st : Nat) : State :=
  let n := (Tab.get {} s.upd.units u).committed.length
  let s := s.modUpd fun x =>
    (x.modUnit u fun k => { k with
      running := false, st := st, jobs := satAdd (2 ^ 32 - 1) k.jobs 1, failed := satAdd 65535 k.failed (b2n (st != St.ok)) }).modJob id
      fun j => { j with status := if j.status = St.ok then st else j.status, blocks := j.blocks + n }
  s.updFinish id

/-- Run a unit's slice again (R337). -/
def UUnit.again (k : UUnit) (whole : Bool) : UUnit :=
  { k with running := true, rerun := true, reruns := satAdd 65535 k.reruns 1, committed := if whole then [] else k.committed }

/-- The first block of a slice that is not committed. -/
def UUnit.nextBlock (k : UUnit) : Nat := (((List.range k.count).map (k.first + ·)).find? fun b => !k.committed.contains b).getD (k.first + k.count)

/-- An uncorrectable HBM read ends a slice's run (R337). -/
def State.updVermilion (s : State) (u : Nat) (j : UJob) : State :=
  let k := Tab.get {} s.upd.units u
  let at_ := if j.mode = 0 then k.nextBlock else 0
  if j.failedAt = some at_ ∨ j.status ≠ St.ok then s.updReturn u j.id St.stepFailed
  else
    let x := s.upd.modJob j.id fun j => { j with failedAt := some at_, blocks := if j.mode = 0 then j.blocks else 0 }
    { s with upd := if j.mode = 0 then x.modUnit u fun k => k.again false
                    else j.units.foldl (fun x n => x.modUnit n fun k => k.again true) x }

/-! ## The factor routine on memory (R339-R341) -/

/-- An FP32 matrix in memory: element (i, j) of the one at `a` with row stride `lda`. -/
def State.matAt (s : State) (a lda i j : Nat) : Fv := f32 (s.natAt (a + 4 * (i * lda + j)) 4)

/-- The rows of a lower triangle: address and bytes. -/
def lowerRows (a n lda : Nat) : List (Nat × Nat) := (List.range n).map fun i => (a + 4 * i * lda, 4 * (i + 1))

/-- Write the final columns over the lower triangle; the rest of it is undefined (R340). -/
def State.storeFactor (s : State) (a n lda : Nat) (cols : List (List Fv)) : State :=
  (List.range n).foldl (fun s i =>
    let row := a + 4 * i * lda
    let k := min cols.length (i + 1)
    let s := s.store row (((rowOf (cols.take k) i).map fun x => leBytes 4 (toF32 x)).flatten)
    if k ≤ i then s.undefine (row + 4 * k) (row + 4 * (i + 1)) else s) s

/-- Copy a lower triangle to a workspace of n × n elements (R341). -/
def State.copyLower (s : State) (a n lda ws : Nat) : State :=
  (List.range n).foldl (fun s i => s.store (ws + 4 * i * n) (s.bytesAt (a + 4 * i * lda) (4 * (i + 1)))) s

/-- A run of factor or factor_retry: the state with the matrix, the workspace and the result record, and the code it returns. With a
size that it does not take nothing is done but the record, whose PIVOT and ATTEMPTS have no value then (log 97). -/
def State.runFactor (s : State) (retry : Bool) (a n lda ws rec : Nat) : State × Nat :=
  if n = 0 ∨ 4096 < n ∨ lda < n then
    let r : FactorEnd := { status := St.unsupported, attempts := 0 }
    (((s.store rec r.record).undefine rec (rec + 4)).undefine (rec + 6) (rec + 7), St.unsupported)
  else
    let m := s.matAt a lda
    let r := if retry then factorRetry St.singular m n
      else let (c, p) := factor m n; { cols := c, pivot := p }
    let s := if retry then s.copyLower a n lda ws else s
    ((s.storeFactor a n lda r.cols).store rec r.record, r.status)

/-- A MATRIX job's program has run the routine on MASTER with GRAD as its workspace; the record is the start of the result area. The
matrix must lie within the job's window (R333). -/
def State.updFactor (s : State) (j : UJob) (retry : Bool) (n lda : Nat) : State × Nat :=
  let d := j.desc
  if j.mode ≠ 2 ∨ uf d 8 8 < lda * n ∨ uf d 8 8 < n * n then (s, St.addrDenied)
  else ((s.runFactor retry (uf d 0x10 8) n lda (uf d 0x18 8) (uf d 0x28 8 + 3072)).1, St.ok)

/-- UPDATE_SLICE_END (R335, R337): the program on a unit has returned, met an uncorrectable HBM read, or failed with a code. -/
def execUpdateSliceEnd (u : Fin 16) (r : SliceEnd) (s : State) : Out :=
  .next (
    if (Tab.get {} s.upd.units u).running then
      match s.upd.jobOf u with
      | some j => (match r with
        | .returned => s.updReturn u j.id St.ok
        | .factored retry n lda => let (s, st) := s.updFactor j retry n lda; s.updReturn u j.id st
        | .uncorrectable => s.updVermilion u j
        | .fails st => s.updReturn u j.id st)
      | none => s
    else s)

/-- A register of an update unit (R342). -/
def uuRegRead (s : State) (u off : Nat) : Nat :=
  let k := Tab.get {} s.upd.units u
  match off with
  | 0x00 => b2n k.running + 2 * b2n (k.running && k.rerun) + 2 ^ 16 * k.st
  | 0x08 => k.committed.length
  | 0x10 => k.failed + 2 ^ 16 * k.reruns + 2 ^ 32 * k.jobs
  | _ => 0

end Sys2Proof.Machine
end

