-- ==== Sys2Proof/Machine/RestartOps.lean ====
section
/-! DEFINITION. What a restart loses and keeps (R99, R287, R300, R370, R395, R429, R443, R445, R468), the flush before it, and what
Slate and Umber lose. Counters that run from the last exit from Ebony are kept by every other restart. -/

namespace Sys2Proof.Machine

/-! ## What is lost, part by part -/

/-- A controller at a restart: PERST# is a pin, and the statistics run from the last exit from Ebony (R79). -/
def Ctrl.restart (c : Ctrl) (ebony : Bool) : Ctrl := { perst := c.perst, stats := if ebony then {} else c.stats }

/-- The management mailbox through Ebony: its HELLO result, its events and a POWER_SET stay (R485); its key does not (R468). -/
def Mbox.throughEbony (m : Mbox) : Mbox := { m with key := none, lastCounter := 0, badRun := 0, lockUntil := 0 }

/-- Is the message a POWER_SET of the management mailbox? -/
def AmpJob.staysInEbony (j : AmpJob) : Bool := j.mb == 2 && j.op == 0x0501

/-- A mailbox after a restart: what counts since power-up stands (R497). -/
def Mbox.counted (m : Mbox) : Mbox := { badCheck := m.badCheck, replay := m.replay }

/-- The control plane at a restart: the catalogue stays (R99). -/
def Amp.restart (a : Amp) (ebony : Bool) : Amp :=
  if ebony then
    { m0 := a.m0.counted, m1 := a.m1.counted
      m2 := if a.jobs.any AmpJob.staysInEbony then a.m2.throughEbony else { a.m2.throughEbony with state := .idle }
      jobs := a.jobs.filter AmpJob.staysInEbony, objects := a.objects, nextVer := a.nextVer, lastNotice := a.lastNotice
      helloEndpoint := a.helloEndpoint, noticeDue := a.noticeDue }
  else { m0 := a.m0.counted, m1 := a.m1.counted, m2 := a.m2.counted, objects := a.objects, nextVer := a.nextVer }

/-- A concentrator at a restart: its ring is lost (R429). -/
def Conc.restart (c : Conc) (ebony : Bool) : Conc :=
  if ebony then {} else { reports := c.reports, dropped := c.dropped, interrupts := c.interrupts }

/-- The fault machinery at a restart: the log, the retired list and the repairs stay; open scrubs end (R430, R433, R436, R437). -/
def Faults.restart (f : Faults) (ebony : Bool) : Faults :=
  { f with
    cd0 := f.cd0.restart ebony, cd1 := f.cd1.restart ebony, hd := f.hd.restart ebony
    log := f.log.map fun e => { e with persisted := true }, scrubs := [], summaries := [] }

/-- Banks that the retired list names (R271). -/
def Faults.retiredBanks (f : Faults) (g : Nat) : Tab BankState :=
  f.lost.foldl (fun t u => match u with
    | .bank h b => if h = g then Tab.set .on t b .retired else t
    | _ => t) []

/-- A cluster whose power was off: only its counters, which run from the last exit from Ebony, and its retired banks stay. -/
def Cluster.restart (c : Cluster) (ebony : Bool) (banks : Tab BankState) : Cluster :=
  if ebony then { banks := banks }
  else
    { banks := banks, rowCycles := c.rowCycles, gatedColumns := c.gatedColumns, cvSat := c.cvSat, cvNonfinite := c.cvNonfinite
      cvWidened := c.cvWidened, cvLast := c.cvLast, parErrors := c.parErrors, underruns := c.underruns, overruns := c.overruns
      postedFull := c.postedFull, narrowWait := c.narrowWait, dropped := c.dropped, mvDone := c.mvDone, stalls := c.stalls
      writtenBack := c.writtenBack, cleanSkipped := c.cleanSkipped, fallback := c.fallback }

/-- A partition at a restart: it is kept (R99), its tasks are not (R300). -/
def Partition.restart (p : Partition) : Partition :=
  let q (r : RunQueue) : RunQueue := { r with v := 0, tasks := [] }
  { p with q0 := q p.q0, q1 := q p.q1, q2 := q p.q2, q3 := q p.q3, run := none, switch := none }

/-- A session at a restart: only a COLD one stays (R300). -/
def Session.restart (x : Session) : Session :=
  if x.state = .cold then { x with busy := none, waiting := [], op := none } else {}

/-- The tiers at a restart: managed tensors are lost with their T2 tiles (R287); every session that is not COLD becomes FREE and
joins the end of the free list (R300). -/
def Tiers.restart (t : Tiers) (ebony : Bool) : Tiers :=
  let gone := (t.sessions.filter fun p => p.2.state != .cold && p.2.state != .free).map (·.1)
  let kept := t.sessions.filter fun p => p.2.state == .cold
  { sessions := kept.map fun p => (p.1, p.2.restart), fresh := t.fresh, freed := t.freed ++ gone
    demoted := if ebony then 0 else t.demoted
    lostAtRestart := if ebony then 0 else satAdd (2 ^ 32 - 1) t.lostAtRestart gone.length
    store := t.store
    places := kept.filterMap fun p => p.2.image.map fun i => (16 * p.2.root, i.size) }

/-- An index at a restart: its standing version, its tables and its side list stay (R99); a fold or a training in progress ends. -/
def Index.restart (x : Index) : Index :=
  { x with
    old := [], fold := x.fold.map fun f => { f with op := none, to_ := x.lastCommit }, training := none, waiting := [] }

/-- The indexes at a restart; nothing reads any more, so old extents are freed (R150, R157). -/
def State.restartIndexes (s : State) : State :=
  let s := s.modIndex fun ix => { ix with queries := [], all := ix.all.map fun x => (x.1, x.2.restart) }
  let s := (s.index.all.map (·.2.born) ++ s.index.gone.map (·.born)).foldl State.trimBorn s
  s.modTiers fun t => { t with poolUsed := Tab.set 0 [] 2 (s.index.all.map fun x => x.2.hbm).sum }

/-- A selection unit's counters. -/
def SelUnit.counters (u : SelUnit) : SelUnit := { done := u.done, poisoned := u.poisoned, refused := u.refused }
/-- An update unit's counters. -/
def UUnit.counters (u : UUnit) : UUnit := { jobs := u.jobs, reruns := u.reruns, failed := u.failed }
/-- A media ROM's counters. -/
def MChan.counters (c : MChan) : MChan := { suspends := c.suspends, readWaits := c.readWaits, timeouts := c.timeouts }
/-- A span port's counters; ENABLE comes from SPAN_CONFIG at the next start. -/
def SPort.counters (p : SPort) : SPort :=
  { tx := p.tx, rx := p.rx, icv := p.icv, malformed := p.malformed, retx := p.retx }

/-- Selection machinery, update units and span links at a restart. -/
def State.restartEngines (s : State) (ebony : Bool) : State :=
  { s with
    sel := if ebony then {} else
      { units := Tab.mapAll {} SelUnit.counters s.sel.units, overflows := s.sel.overflows, masked := s.sel.masked
        duplicates := s.sel.duplicates }
    upd := if ebony then {} else { units := Tab.mapAll {} UUnit.counters s.upd.units }
    tokens := if ebony then {} else { replaced := s.tokens.replaced, forcedSplits := s.tokens.forcedSplits }
    pipes := {}
    span :=
      { config := s.span.config, permitted := s.span.permitted, p0 := if ebony then {} else s.span.p0.counters
        p1 := if ebony then {} else s.span.p1.counters, nextEpoch := s.span.nextEpoch } }

/-- The media at a restart: programs and erases under way leave their units undefined (R377). -/
def State.restartMedia (s : State) (ebony : Bool) : State :=
  let chans := s.media.chans
  (mediaPowerLoss s).modMedia fun m => { m with chans := if ebony then [] else Tab.mapAll {} MChan.counters chans }

/-- Open erase units lose their states; they become victims like any other closed one (R395). -/
def Ftl.closeOpen (f : Ftl) : Ftl :=
  (f.eus.filter fun e => match e.2 with
    | .opened _ _ => true
    | _ => false).foldl (fun f e => { (f.setEu e.1 (.closed f.closeSeq)) with closeSeq := f.closeSeq + 1 }) f

/-- The translation layer at a restart: the map, the journal, the health record and the dumped buffer stay; a sanitize begins
again, and a secure discard is to be finished, for nobody (R398, R400). -/
def Ftl.restart (f : Ftl) : Ftl :=
  { f.closeOpen with
    partials := [], credit := 0, discard := f.discard.map fun d => (2 ^ 40, d.2)
    sanitizer := f.sanitizer.map fun z => { block := z.block } }

/-- Everything that power or a restart takes. The contents of HBM, hub SRAM and scratchpads are undefined afterwards; the parity of
a scratchpad is too (R274). -/
def State.lose (s : State) (ebony : Bool) : State :=
  let s := s.restartMedia ebony
  let s := (s.modFtl Ftl.restart).modTiers fun t => t.restart ebony
  let s := s.restartIndexes
  let s := s.restartEngines ebony
  let s := s.modHost fun h => { h with c0 := h.c0.restart ebony, c1 := h.c1.restart ebony, trk := [], fetchSeq := 0 }
  let s := s.modAmp fun a => a.restart ebony
  let s := s.modFaults fun f => f.restart ebony
  let banks := s.faults.retiredBanks
  let s := { s with
    cl := ((List.range 128).map fun g => (g, (s.cluster g).restart ebony (banks g))).filter fun p : Nat × Cluster =>
      decide (p.2 ≠ ({} : Cluster))
    sched := { parts := s.sched.parts.map fun p : Nat × Partition => (p.1, p.2.restart), nextEpoch := s.sched.nextEpoch }
    mem := [], poison := []
    undef := [⟨0, 0x100000000000, s.free, false⟩, ⟨0x100000000000, 0x100100000000, s.free + 1, true⟩,
      ⟨0xF00000000000, 0xF00004000000, s.free + 2, false⟩]
    free := s.free + 3 }
  let s := s.modFabric fun f =>
    { cd0 := f.cd0, cd1 := f.cd1, hd := f.hd, links := f.links.filter fun l => decide (l.2.state = LinkState.lost) }
  let s := s.modSec fun x =>
    { x with
      phase := .off, held := 0, config := none, stage := none, verifyOp := none, commitOp := none, rebootAt := none
      wrap0 := none, wrap1 := none, wrap2 := none }
  (s.modPower fun p =>
    { p with
      ladder := 0, lastOper := 0, clock := 0, demandHold := 0, demandDraw := 0, demandTherm := 0, holdWarn := false
      holdFlash := false, target := 0xFF, nvmePs0 := 0, nvmePs1 := 0, lowSince := none, coolSince := none, flowOkSince := none
      recheckAt := none, woken := false
      holds := if ebony then 0 else p.holds, trips := if ebony then 0 else p.trips
      clockSteps := if ebony then 0 else p.clockSteps }).modMgmt fun m => { m with spdm := {} }

/-! ## Flush and reset (R443) -/

/-- Halt every steward core. -/
def State.haltCores (s : State) : State :=
  { s with cl := s.cl.map fun p => (p.1, if p.2.enable then { p.2.stop with halt := true } else p.2) }

/-- The flush of R443 begins, steps 1 and 2. -/
def State.beginFlush (s : State) (c : ResetCause) : State :=
  let s := mediaFlush s.haltCores
  let s := (s.portDown 0 .down).portDown 1 .down
  s.modPower fun p => { p with flushing := true, cause := c, holdWarn := false, demandHold := 0 }

/-- The module enters reset with what it holds lost (R443 step 5). -/
def State.enterReset (s : State) : State := (s.lose false).modPower fun p => { p with flushing := false, inReset := true }

/-- A crossing of COMMIT (R443, R456): a flush, or in Umber and Ebony, where nothing is buffered, the reset at once. During a flush or
in reset it changes nothing. -/
def State.commitCrossing (s : State) (c : ResetCause) : State :=
  if !s.alive then s
  else if s.power.ladder = 5 then
    ((s.lose true).modPower fun p => { p with inReset := true, cause := .ebony })
  else if s.power.ladder = 4 then (s.modPower fun p => { p with cause := c }).enterReset
  else s.beginFlush c

/-- The module leaves Ebony by its power command or by PERST#: the compute dies' always-on domains are powered, their counts start at 0
(R38), and the ROM boots. -/
def State.leaveEbony (s : State) (target : Nat) : State :=
  (s.modFabric fun f => { f with cd0 := {}, cd1 := {} }).modPower fun p =>
    { p with target := target, ladder := 0, cause := .ebony, woken := false }

/-- A restart that no input condition asks for: what it takes is lost, and the ROM boots again (R461, R466, R469). -/
def State.reboot (s : State) : State := (s.lose false).modPower fun p => { p with cause := .other }

/-- Once neither supply is present the always-on domain of HD is off too: its count, the host-time pair, the management mailbox and
the sideband's settings are lost (R38, R480). -/
def State.hdDown (s : State) : State :=
  if s.sideband then s
  else
    let s := s.lose true
    { s with
      amp := { s.amp.restart false with m0 := {}, m1 := {}, m2 := {} }
      power := { volts := s.power.volts, pwrDis := s.power.pwrDis, holdupMj := s.power.holdupMj, holdupWeak := s.power.holdupWeak
                 governor := s.power.governor }
      fabric := { s.fabric with cd0 := {}, cd1 := {}, hd := {}, pair := none }
      mgmt := {} }

/-! ## Slate and Umber (R445) -/

/-- A cluster in Slate or Umber: its compute-die state is lost; banks, marks and counters stay, and its RESIDENT regions are reloaded
on the way out. -/
def Cluster.slate (c : Cluster) : Cluster :=
  { c.restart false c.banks with resident := c.resident, copies := c.copies, entry := c.entry, epoch := c.epoch
                                 slotLimit := c.slotLimit, enable := c.enable, mvEnable := c.mvEnable }

/-- The scratchpad addresses of the RESIDENT regions. -/
def State.residentRanges (s : State) : List (Nat × Nat) :=
  s.cl.flatMap fun p => ((List.range 384).filter fun k => p.2.isResident (k * 65536)).map fun k =>
    (spAddr p.1 (k * 65536), spAddr p.1 ((k + 1) * 65536))

/-- The HBM ranges of installed objects (R278). -/
def State.objectRanges (s : State) : List (Nat × Nat) :=
  s.amp.objects.flatMap fun o => o.2.space.map fun a => (a, a + (Tab.get (0, 0) s.tiers.allocs a).2)

/-- Does a range of a list hold the address? -/
def inRanges (l : List (Nat × Nat)) (a : Nat) : Bool := l.any fun r => decide (r.1 ≤ a) && decide (a < r.2)

/-- Make a range of memory undefined but for the ranges of a list. -/
def State.undefineBut (s : State) (lo hi : Nat) (keep : List (Nat × Nat)) (par : Bool) : State :=
  let stays (a : Nat) : Bool := decide (a < lo) || decide (hi ≤ a) || inRanges keep a
  { s with
    mem := s.mem.filter fun p => stays p.1
    poison := s.poison.filter fun p => stays (p.1 * 8)
    undef := undefCut lo hi s.undef ++ keep.foldl (fun l r => undefCut r.1 r.2 l) [⟨lo, hi, s.free, par⟩]
    free := s.free + 1 }

/-- Compute dies without power: scratchpads and all compute-die state. RESIDENT regions hold their contents again on the way out. -/
def State.loseCompute (s : State) : State :=
  let s := s.undefineBut 0x100000000000 0x100100000000 s.residentRanges true
  let s := { s with cl := Tab.mapAll {} Cluster.slate s.cl }
  { s with
    sel := { s.sel with units := Tab.mapAll {} SelUnit.counters s.sel.units }
    upd := { units := Tab.mapAll {} UUnit.counters s.upd.units }
    sched := { s.sched with snaps := [] } }

/-- HBM without power: managed tensors and the sessions that are not COLD go (R287, R300); what R99 names is restored. -/
def State.loseHbm (s : State) : State :=
  let mine := s.amp.objects.flatMap fun o => o.2.space
  let kept := s.tiers.allocs.filter fun p => mine.contains p.1
  let s := s.undefineBut 0 0x001800000000 s.objectRanges false
  s.modTiers fun t => { t.restart false with
    allocs := kept
    poolUsed := kept.foldl (fun u p => Tab.mod 0 u p.2.1 (· + p.2.2)) (Tab.set 0 [] 2 (s.index.all.map fun x => x.2.hbm).sum) }

end Sys2Proof.Machine
end

