-- ==== Sys2Proof/Machine/Security.lean ====
section
/-! DEFINITION. Ownership, keys, the configuration record, erasure and firmware (R399, R400, R458-R478). -/

namespace Sys2Proof.Machine

/-! ## Keys (R467, R468) -/

/-- The wrap key of a mailbox. -/
def Sec.wrapKey (x : Sec) : Nat → Option Nat
  | 0 => x.wrap0
  | 1 => x.wrap1
  | _ => x.wrap2

/-- Set the wrap key of a mailbox. -/
def Sec.setWrap (x : Sec) (mb : Nat) (k : Option Nat) : Sec :=
  match mb with
  | 0 => { x with wrap0 := k }
  | 1 => { x with wrap1 := k }
  | _ => { x with wrap2 := k }

/-- The texts of R468. -/
def checkText : Bytes := [0x41, 0x4D, 0x50, 0x31, 0x20, 0x63, 0x68, 0x65, 0x63, 0x6B]
/-- "AMP1 wrap". -/
def wrapText : Bytes := [0x41, 0x4D, 0x50, 0x31, 0x20, 0x77, 0x72, 0x61, 0x70]

/-- Derive the keys of a mailbox under an owner key, and the response (R468). The module's nonce and its ephemeral key are fresh. -/
def State.deriveKeys (s : State) (mb : Nat) (owner : Nat) (nonce : Bytes) : State × Bytes :=
  let e := Config.random s.free
  let mn := leBytes 32 (Config.random (s.free + 1))
  let s := s.used.used
  let pub := leBytes 64 (Config.publicOf e)
  let z := Config.ecdh e owner
  let own := leBytes 32 (Config.sha256 (leBytes 64 owner))
  let salt := nonce ++ mn
  let key := Config.hkdf salt z (checkText ++ leBytes 1 mb ++ own)
  let wrap := Config.hkdf salt z (wrapText ++ leBytes 1 mb ++ own)
  let sig := Config.ecdsaSign Config.deviceKey (Config.sha256 (salt ++ pub ++ own))
  ((s.modMb mb fun m => { m with key := some key, lastCounter := 0 }).modSec fun x => x.setWrap mb (some wrap),
    mn ++ pub ++ leBytes 64 sig)

/-- The owner record is written (R458). -/
def Sec.writeOwner (x : Sec) (k : Nat) : Sec :=
  let c := Copy.write x.owner0 x.owner1 k
  { x with owner0 := c.1, owner1 := c.2, owned := true, ownerKey := k }

/-- KEY_AGREE (R467): a lost owner record leaves no owner key (R459). -/
def keyAgree : AmpBody := fun j s =>
  let p := j.payload
  let claim := bit (fieldAt p 0 1) 0
  let new := fieldAt p 0x28 64
  let nonce := (p.drop 8).take 32
  if !claim && new != 0 then ampRefuse St.unsupported s
  else if claim && s.sec.owned then ampRefuse St.busy s
  else if !claim && (!s.sec.owned || s.sec.held == 3) then ampRefuse St.noOwner s
  else if claim && !Config.validPoint new then ampRefuse St.unsupported s
  else
    let s := if claim then (s.modSec fun x => x.writeOwner new).post 0x07 2 (leBytes 1 j.mb) else s
    let (s, r) := s.deriveKeys j.mb s.sec.ownerKey nonce
    ampAnswer s r

/-- KEY_AGREE. -/
def execKeyAgree (mb : Fin 3) (s : State) : Out := .next (ampExec mb 0x0003 keyAgree s)

/-! ## The configuration record (R470-R473) -/

/-- Units that TIER_GIB of a record takes. -/
def State.tierUnits (s : State) (r : Option Bytes) : Nat := cfgField r 0x20 8 2048 * 2 ^ 30 / s.part.unitSize

/-- Is a record valid under an owner key? (R470) The tier store may take what namespaces and index reservations leave. -/
def State.recordOk (s : State) (owner : Nat) (r : Bytes) : Bool :=
  let mib (off d : Nat) := cfgField (some r) off 4 d
  r.length == 256 && fieldAt r 0xBC 4 == crc32c (r.take 0xBC)
    && Config.ecdsaVerify owner (Config.sha256 (r.take 0xC0)) (fieldAt r 0xC0 64)
    && fieldAt r 0 4 == 1 && decide (fieldAt r 8 2 < 128) && zeroBytes r 0x0A 0x10 && zeroBytes r 0x12 0x20
    && decide (fieldAt r 0x20 8 ≤ 65536) && zeroBytes r 0x38 0xBC
    && decide (mib 0x28 512 + mib 0x2C 3072 + mib 0x30 16384 + mib 0x34 12288 + 16384 + 96 + 1024 ≤ 98304)
    && decide (s.tierUnits (some r) ≤ s.ftl.freeUnits + s.ftl.held .tier)

/-- The outcome of R471 for the two copies: Held's cause or 0, and the record in force. -/
def State.selectConfig (s : State) : Nat × Option Bytes :=
  let x := s.sec
  let ok (c : Copy Bytes) : Option Bytes := c.value.filter (s.recordOk x.ownerKey)
  let blank (c : Copy Bytes) : Bool := c == .blank
  if blank x.cfgA && blank x.cfgB then (0, none)
  else if !x.owned then (2, none)
  else
    let best := match ok x.cfgA, ok x.cfgB with
      | some a, some b => if fieldAt a 4 4 < fieldAt b 4 4 then some b else some a
      | some a, none => some a
      | none, b => b
    let clean (c : Copy Bytes) : Bool := blank c || (ok c).isSome
    (if best.isSome && clean x.cfgA && clean x.cfgB then 0 else 1, best)

/-- The stored configuration record: the valid copy with the higher SEQ, whether or not it is in force (R471, R472). -/
def Sec.storedConfig (x : Sec) : Option Bytes := Copy.best x.cfgA x.cfgB

/-- CONFIG_READ (R472). -/
def configRead : AmpBody := fun _ s => ampAnswer s (s.sec.storedConfig.getD (List.replicate 256 0))

/-- CONFIG_READ. -/
def execConfigRead (mb : Fin 3) (s : State) : Out := .next (ampExec mb 0x0101 configRead s)

/-- An accepted record goes to the older copy; its masks take effect at once (R472). -/
def Sec.writeConfig (x : Sec) (r : Bytes) : Sec :=
  let seq := fieldAt r 4 4
  let toB := match x.config, x.cfgB.value with
    | some c, some b => decide (fieldAt b 4 4 < fieldAt c 4 4)
    | some _, none => true
    | none, _ => false
  if toB then { x with cfgB := .valid seq r, config := some r } else { x with cfgA := .valid seq r, config := some r }

/-! ## Step 9 of the boot sequence (R460) -/

/-- The tier store's logical units (R382, R472), and its key, drawn when it is first made (R476). -/
def State.allocTier (s : State) : State :=
  if s.ftl.held .tier ≠ 0 then s
  else match s.ftl.alloc .tier (s.tierUnits s.sec.pools) with
    | some f =>
      let s := { s with ftl := f }
      if Tab.has s.sec.keys 129 then s else s.drawKey 129
    | none => s

/-- Enable the span ports that SPAN_CONFIG asks for. -/
def State.spanUp (s : State) : State :=
  let up (p : Nat) (s : State) : State := if bit (fieldAt s.span.config 1 1) p then s.enablePort p true else s
  up 1 (up 0 s)

/-- Step 9 for a module that is not Held: the pools take the sizes of the record in force, installed structures are restored (R99), and
the span ports are enabled as SPAN_CONFIG set them (R407); none where an object cannot lie at the places named. -/
def State.openUp (s : State) (lost : List Nat) (places : Tab (List (Nat × Nat) × List Nat)) : Option State :=
  let s := (s.modSec fun x => { x with pools := x.config }).allocTier
  let s := s.modTiers fun t => { t with poolUsed := Tab.set 0 t.poolUsed 2 (s.index.all.map fun x => x.2.hbm).sum }
  (s.restoreObjects lost places).map State.spanUp

/-- CONFIG_WRITE (R472). In Held both copies are written and the module goes on from step 9, once
the keepers have reported ready (R473). `lost`, `places`: for the objects
restored then. -/
def configWrite (lost : List Nat) (places : Tab (List (Nat × Nat) × List Nat)) : AmpBody := fun j s0 =>
  let s := s0
  let r := j.payload
  let stored := match s.sec.storedConfig with
    | some c => fieldAt c 4 4
    | none => 0
  if !s.sec.owned || s.sec.held == 3 then ampRefuse St.noOwner s
  else if fieldAt r 4 4 ≤ stored then ampRefuse St.replay s
  else if !s.recordOk s.sec.ownerKey r then ampRefuse St.badObject s
  else if cfgField (some r) 0x20 8 2048 * 2 ^ 30 < s.tiers.storeUsed then ampRefuse St.busy s
  else if s.isHeld then
    let c : Copy Bytes := .valid (fieldAt r 4 4) r
    let s := s.modSec fun x => { x with cfgA := c, cfgB := c, config := some r, held := 0 }
    match if s.sec.phase = .running then s.openUp lost places else some s with
    | some s => ampAnswer (s.post 0x08 2 []) []
    | none => (s0, .ready)
  else ampAnswer (s.modSec fun x => x.writeConfig r) []

/-- CONFIG_WRITE. -/
def execConfigWrite (mb : Fin 3) (lost : List Nat) (places : Tab (List (Nat × Nat) × List Nat)) (s : State) : Out :=
  .next (ampExec mb 0x0102 (configWrite lost places) s)

/-! ## Sanitize (R400) -/

/-- Drop every index. -/
def dropIndexes : List (Nat × Index) → State → State
  | [], s => s
  | x :: l, s => dropIndexes l (s.dropIndex x.1 x.2)

/-- Free every session: its KV tensors or its copy in the tier store are released. -/
def freeSessions : List (Nat × Session) → State → State
  | [], s => s
  | (i, x) :: l, s =>
    let s := if x.state = .active ∨ x.state = .parked then s.releaseKv x.root else s
    freeSessions l (if x.state = .free then s
      else (s.modSession i fun _ => {}).modTiers fun t => { t with freed := t.freed ++ [i] })

/-- Erase every erase unit that is not retired; `bad`: those whose erase fails. One that was to be retired is. -/
def eraseAll (bad : List Nat) : List (Nat × EuState) → State → State
  | [], s => s
  | (e, .retired) :: l, s => eraseAll bad l (s.modFtl fun f => { f with eus := Tab.set .free f.eus e .retired })
  | (e, .failed aux) :: l, s => eraseAll bad l (s.retireEu e aux)
  | (e, _) :: l, s => eraseAll bad l (s.eraseEu e (!bad.contains e))

/-- Draw fresh keys for KEY_SLOTs. -/
def drawKeys : List Nat → State → State
  | [], s => s
  | k :: l, s => drawKeys l (s.drawKey k)

/-- Delete the IDs that bindings inserted (R154). -/
def eraseBindings : List Nat → State → State
  | [], s => s
  | n :: l, s => eraseBindings l (s.eraseBound n)

/-- The action of a sanitize on everything that users store. -/
def State.sanitizeNow (s : State) (block : Bool) (bad : List Nat) : State :=
  let s := dropIndexes s.index.all s
  let s := (s.amp.objects.map (·.1)).foldl State.dropObject s
  let s := freeSessions s.tiers.sessions s
  let s := s.modTiers fun t => { t with store := [], places := [] }
  let s := if block then s else (drawKeys (s.host.ns.map (·.1) ++ [129]) s).modSec Sec.wipeOldKeys
  let s := s.modFtl fun f => { (f.unmapRuns (f.space.map fun r => (r.start, r.count))) with buf := [], partials := [], discard := none }
  if block then eraseAll bad s.ftl.eus s else s

/-- May a sanitize begin, and which action? SANACT 2 block erase, 4 crypto erase. -/
def sanitizeAction (n : Nat) : Option Bool :=
  match n with
  | 2 => some true
  | 4 => some false
  | _ => none

/-- SANITIZE, the AMP message. -/
def sanitize : AmpBody := fun j s =>
  match sanitizeAction (fieldAt j.payload 0 1) with
  | none => ampRefuse St.unsupported s
  | some block =>
    if s.ftl.sanitizer.isSome then ampRefuse St.busy s
    else ampLong .sanitize (fun id s => s.modFtl fun f => { f with sanitizer := some { block := block, op := some id } }) s

/-- SANITIZE. -/
def execSanitize (mb : Fin 3) (s : State) : Out := .next (ampExec mb 0x0704 sanitize s)

/-- NVME_SANITIZE: Overwrite and reserved actions are refused; the command completes when the action has ended. -/
def execNvmeSanitize (fn : Fin 2) (e : Sqe) (s : State) : Out :=
  .next (match sanitizeAction (bits e.cdw10 0 3) with
    | none => s.admin fn e (Admin.refuse .invalidField St.unsupported)
    | some block =>
      if !s.cap 15 then s.admin fn e (Admin.refuse .invalidField St.unsupported)
      else if s.ftl.sanitizer.isSome then s.admin fn e (Admin.refuse .sanitizeInProgress s.freeNum)
      else if s.adminServes fn then s.modFtl fun f => { f with sanitizer := some { block := block, host := some (fn, e) } }
      else s)

/-- CSTS.RDY of the controllers that CC.EN asks for. -/
def State.raiseReady (s : State) : State :=
  s.modHost fun h => { h with
    c0 := { h.c0 with rdy := h.c0.rdy || (h.c0.en && !h.c0.resetting), cfs := false }
    c1 := { h.c1 with rdy := h.c1.rdy || (h.c1.en && !h.c1.resetting), cfs := false } }

/-- SANITIZE_DONE. One that a restart began again ends before CSTS.RDY. A block erase ends only when no job that has not completed names
a page of a block it erases (R108). -/
def execSanitizeDone (bad : List Nat) (s : State) : Out :=
  .next (match s.ftl.sanitizer with
    | none => s
    | some z =>
      if !s.serving || (z.block && s.ftl.eus.any fun x => s.pinned x.1) then s else
      let s := (s.sanitizeNow z.block bad).modFtl fun f => { f with sanitizer := none }
      match z.op, z.host with
      | some op, _ => s.opDone op St.ok
      | none, some (fn, e) => if decide (fn < 2) && s.ctrlServes fn then s.adminEnd fn e {} [] else s
      | none, none => s.raiseReady)

/-! ## Owner and namespace keys (R469, R477) -/

/-- Discard the keys of every mailbox. -/
def State.dropKeys (s : State) : State :=
  let f (m : Mbox) : Mbox := { m with key := none }
  (((s.modMb 0 f).modMb 1 f).modMb 2 f).modSec fun x => { x with wrap0 := none, wrap1 := none, wrap2 := none }

/-- A configuration record with another signature. -/
def resign (r : Bytes) (sig : Nat) : Bytes := r.take 0xC0 ++ leBytes 64 sig

/-- Critical messages sent on the other mailboxes and not yet executed find no key, or no owner, when their turn comes (R81, R478). -/
def State.failCritical (s : State) (mb st : Nat) : State :=
  s.modAmp fun a => { a with jobs := a.jobs.map fun k =>
    if k.critical && k.mb != mb && k.phase == .ready then { k with phase := .done st [] } else k }

/-- OWNER_SET (R469). -/
def ownerSet : AmpBody := fun j s =>
  let p := j.payload
  let new := fieldAt p 8 64
  let sig := fieldAt p 0x48 64
  if bit (fieldAt p 0 1) 0 then
    if new ≠ 0 ∨ sig ≠ 0 then ampRefuse St.unsupported s
    else
      let s := s.post 0x07 4 (leBytes 1 j.mb)
      let s := s.sanitizeNow false []
      let s := s.failCritical j.mb St.noOwner
      ampAnswer (s.modSec fun x => { x with
        cfgA := .blank, cfgB := .blank, config := none, owner0 := .blank, owner1 := .blank, owned := false, ownerKey := 0
        rebootAt := some (s.hdCount + 100000) }) []
  else if !Config.validPoint new then ampRefuse St.unsupported s
  else match s.sec.config with
    | some r =>
      if !Config.ecdsaVerify new (Config.sha256 (r.take 0xC0)) sig then ampRefuse St.badObject s
      else
        let c : Copy Bytes := .valid (fieldAt r 4 4) (resign r sig)
        let s := s.modSec fun x => { x.writeOwner new with cfgA := c, cfgB := c, config := some (resign r sig) }
        ampAnswer ((s.dropKeys.failCritical j.mb St.noKey).post 0x07 3 (leBytes 1 j.mb)) []
    | none =>
      if sig ≠ 0 then ampRefuse St.unsupported s
      else ampAnswer (((s.modSec fun x => x.writeOwner new).dropKeys.failCritical j.mb St.noKey).post 0x07 3 (leBytes 1 j.mb)) []

/-- OWNER_SET. -/
def execOwnerSet (mb : Fin 3) (s : State) : Out := .next (ampExec mb 0x0701 ownerSet s)

/-- Is a restart due that a message asked for? -/
def State.rebootDue (s : State) : Bool :=
  match s.sec.rebootAt with
  | some t => decide (t ≤ s.hdCount) && s.alive
  | none => false

/-- OWNER_RELEASE_RESTART (R469). -/
def execOwnerReleaseRestart (s : State) : Out :=
  .next (if s.rebootDue && s.sec.phase != .recovery && !(s.amp.jobs.any fun j => j.op == 0x0701) then s.reboot else s)

/-- NS_KEY_SET (R477). -/
def nsKeySet : AmpBody := fun j s =>
  let n := fieldAt j.payload 0 4
  if n = 0 ∨ 128 < n then ampRefuse St.idRange s
  else if !Tab.has s.host.ns n then ampRefuse St.noObject s
  else if (s.ftl.map.any fun m => inRuns (s.ftl.units (.ns n)) m.1) then ampRefuse St.busy s
  else
    let k := fieldAt j.payload 8 64 ^^^ Config.aesCtr ((s.sec.wrapKey j.mb).getD 0) j.counter
    if k / 2 ^ 256 % 2 ^ 256 = k % 2 ^ 256 then ampRefuse St.badObject s
    else ampAnswer (s.modSec fun x => x.putKeys (Tab.put x.keys n k)) []

/-- NS_KEY_SET. -/
def execNsKeySet (mb : Fin 3) (s : State) : Out := .next (ampExec mb 0x0702 nsKeySet s)

/-- CRYPTO_ERASE (R400, R477). -/
def cryptoErase : AmpBody := fun j s =>
  let n := fieldAt j.payload 0 4
  if n = 0 ∨ 128 < n then ampRefuse St.idRange s
  else if !Tab.has s.host.ns n then ampRefuse St.noObject s
  else ampAnswer (s.cryptoErase n) []

/-- CRYPTO_ERASE. -/
def execCryptoErase (mb : Fin 3) (s : State) : Out := .next (ampExec mb 0x0703 cryptoErase s)

/-! ## Firmware (R462-R466) -/

/-- The first check of R463 that an image fails, as its recovery reason. -/
def Sec.imageReason (x : Sec) (b : Bytes) : Option Nat :=
  let n := fieldAt b 4 4
  let key := fieldAt b 0x10 1
  if fieldAt b 0 4 ≠ 1 ∨ n < 4096 ∨ 33554432 < n ∨ n % 8 ≠ 0 ∨ 127 < fieldAt b 0x14 4 ∨ 1 < fieldAt b 0x11 1
      ∨ zeroBytes b 0x18 0x20 = false ∨ zeroBytes b 0xC0 0x100 = false ∨ Config.mediaRomVersion < fieldAt b 0x12 2 then some 1
  else if 3 < key ∨ x.revoked.contains key = true ∨ Config.sha256 ((b.drop 0x40).take 64) ≠ Config.keyDigest key then some 2
  else if !Config.ecdsaVerify (fieldAt b 0x40 64) (Config.sha256 (b.take 0x80)) (fieldAt b 0x80 64) then some 3
  else if Config.sha256 ((b.take n).drop 0x100) ≠ fieldAt b 0x20 32 then some 4
  else if fieldAt b 0x14 4 < x.counter then some 5
  else none

/-- FW_STAGE (R464). -/
def fwStage : AmpBody := fun j s =>
  let off := fieldAt j.payload 0 4
  let size := fieldAt j.payload 4 4
  let d := j.payload.drop 16
  if s.sec.verifyOp.isSome || s.sec.commitOp.isSome then ampRefuse St.busy s
  else
    let had : Option Bytes := if off = 0 then some []
      else match s.sec.stage with
        | some g => if g.data.length = off ∧ g.size = size then some g.data else none
        | none => none
    match had with
    | some b =>
      if size < b.length + d.length then ampRefuse St.badLength s
      else ampAnswer (s.modSec fun x => { x with stage := some { size := size, data := b ++ d } }) []
    | none => ampRefuse St.badLength s

/-- FW_STAGE. -/
def execFwStage (mb : Fin 3) (s : State) : Out := .next (ampExec mb 0x0801 fwStage s)

/-- FW_VERIFY. -/
def fwVerify : AmpBody := fun _ s =>
  if s.sec.verifyOp.isSome || s.sec.commitOp.isSome then ampRefuse St.busy s
  else ampLong .fwVerify (fun id s => s.modSec fun x => { x with verifyOp := some id }) s

/-- FW_VERIFY. -/
def execFwVerify (mb : Fin 3) (s : State) : Out := .next (ampExec mb 0x0802 fwVerify s)

/-- The end of a verification of what is staged (R465). -/
def Sec.verifySt (x : Sec) : Nat :=
  match x.stage with
  | none => St.badLength
  | some g =>
    if g.data.length < g.size then St.badLength
    else match x.imageReason g.data with
      | none => St.ok
      | some r => if r = 4 then St.badDigest else St.badObject

/-- FW_VERIFY_DONE (R465). -/
def execFwVerifyDone (s : State) : Out :=
  .next (match s.sec.verifyOp with
    | some op =>
      if !s.mailOn then s else
      let st := s.sec.verifySt
      (s.modSec fun x => { x with
        verifyOp := none, stage := x.stage.map fun g => { g with verified := decide (st = St.ok) } }).opDone op st
    | none => s)

/-- FW_COMMIT (R465): from its acceptance until the read-back passes the slot is torn. -/
def fwCommit : AmpBody := fun _ s =>
  if s.sec.verifyOp.isSome || s.sec.commitOp.isSome then ampRefuse St.busy s
  else match s.sec.stage with
    | some g =>
      if g.verified then ampLong .fwCommit (fun id s => s.modSec fun x => { x with commitOp := some id, slot := .torn }) s
      else ampRefuse St.noObject s
    | none => ampRefuse St.noObject s

/-- FW_COMMIT. -/
def execFwCommit (mb : Fin 3) (s : State) : Out := .next (ampExec mb 0x0803 fwCommit s)

/-- FW_COMMIT_DONE (R465, R466). `ok`: the image read back verifies; otherwise the slot stays torn and the operation ends as a
verification that fails on the body does. -/
def execFwCommitDone (ok : Bool) (s : State) : Out :=
  .next (match s.sec.commitOp, s.sec.stage with
    | some op, some g =>
      if !s.mailOn then s
      else if ok then
        (s.modSec fun x => { x with
          commitOp := none, slot := .image g.data
          rebootAt := if x.phase = .recovery then some (s.hdCount + 100000) else x.rebootAt }).opDone op St.ok
      else (s.modSec fun x => { x with commitOp := none }).opDone op St.badDigest
    | _, _ => s)

/-- RECOVERY_REBOOT (R466). -/
def execRecoveryReboot (s : State) : Out :=
  .next (if s.rebootDue && s.sec.phase == .recovery then s.reboot else s)

end Sys2Proof.Machine
end

