-- ==== Sys2Proof/Machine/Power.lean ====
section
/-! DEFINITION. The module power manager: input, hold, flush, ladder, peak window, clock, temperatures, governor (R438-R457,
R489). -/

namespace Sys2Proof.Machine

/-! ## The arithmetic clock (R449) -/

/-- The lowest level that a demand sets. -/
def Power.level (p : Power) : Nat := max p.demandHold (max p.demandDraw p.demandTherm)

/-- The clock follows the demands; a step is counted and posted. -/
def State.clockFollow (s : State) : State :=
  let l := s.power.level
  if l = s.power.clock then s
  else (s.modPower fun p => { p with clock := l, clockSteps := satAdd 65535 p.clockSteps 1 }).post 0x03 5 (leBytes 1 l)

/-- One level below the present one. -/
def Power.down (p : Power) : Nat := min 2 (p.clock + 1)

/-- Step down one level for current or draw. -/
def State.stepDown (s : State) : State :=
  (s.modPower fun p => { p with demandDraw := max p.demandDraw p.down }).clockFollow

/-! ## Hold (R442) -/

/-- HOLD of the media ROMs follows its two causes (R442, R452, R456). -/
def State.holdFollow (s : State) : State := mediaHold (s.power.holdWarn || s.power.holdFlash) s

/-- INPUT_WARN (R442, R456): the input, in units of 10 mV, falls through 36.0 V and stays above 33.0 V. In Ash, Slate and Umber the
clock takes no step; in Ebony nothing is held. -/
def execInputWarn (v : Nat) (s : State) : Out :=
  let s' := s.modPower fun p => { p with volts := v }
  .next (if !s.alive || decide (3600 ≤ v) || decide (v < 3300) then s
    else if s.power.holdWarn || s.power.ladder == 5 then s'
    else
      let s := s'.modPower fun p => { p with
        holdWarn := true, holds := satAdd 255 p.holds 1, demandHold := if p.ladder ≤ 1 then 2 else p.demandHold }
      s.holdFollow.clockFollow.post 0x03 1 [])

/-- HOLD_RELEASE (R442): the input has stayed at or above 37.0 V for 5 ms. -/
def execHoldRelease (v : Nat) (s : State) : Out :=
  .next (if s.alive && s.power.holdWarn && decide (3700 ≤ v) then
    let s := s.modPower fun p => { p with volts := v, holdWarn := false, demandHold := 0 }
    s.holdFollow.clockFollow.post 0x03 2 []
  else s)

/-! ## Flush, reset and start (R440, R443, R444, R456, R489) -/

/-- INPUT_COMMIT (R443): the input falls through 33.0 V. -/
def execInputCommit (v : Nat) (s : State) : Out :=
  .next (if v < 3300 then (s.modPower fun p => { p with volts := v }).commitCrossing .commit else s)

/-- FLUSH_DUMP_DONE (R443 steps 4 and 5): the fault log is written too (R430). -/
def execFlushDumpDone (s : State) : Out :=
  .next (if s.power.flushing then
    (s.modFtl fun f => { f with dumps := f.dumps + 1, dumpDue := true, dumpCut := none }).enterReset
  else s)

/-- INPUT_RESET (R439, R444): the input falls through 28.0 V. During a flush the dump has not passed: `undumped` are the slots of the
buffered units it does not hold. -/
def execInputReset (v : Nat) (undumped : List Nat) (s : State) : Out :=
  .next (if v < 2800 then
    let s := s.modPower fun p => { p with volts := v, vLost := true }
    let cut (s : State) : State := (s.modFtl fun f => { f with dumpDue := true, dumpCut := some undumped }).enterReset
    (if s.power.flushing then cut s
      else if s.power.inReset then s
      else if s.power.ladder = 5 then s.commitCrossing .commit
      else cut (s.modPower fun p => { p with cause := .commit })).hdDown
  else s)

/-- INPUT_OVERVOLTAGE (R440): handled as a crossing of COMMIT; the module stays in reset until the input has fallen below 55.0 V. -/
def execInputOvervoltage (v : Nat) (s : State) : Out :=
  .next (if 5600 < v then
    (s.modPower fun p => { p with volts := v, overvoltage := true }).commitCrossing .overvoltage
  else s)

/-- PWR_DIS_ASSERT (R489): acts as a crossing of COMMIT; the module is held in reset while the pin is high. -/
def execPwrDisAssert (s : State) : Out :=
  .next ((s.modPower fun p => { p with pwrDis := true }).commitCrossing .pwrDis)

/-- PWR_DIS_DEASSERT (R489). -/
def execPwrDisDeassert (s : State) : Out := .next (s.modPower fun p => { p with pwrDis := false })

/-- JUNCTION_COOLDOWN (R452): after a trip every junction reads at or below 85 °C. -/
def execJunctionCooldown (t0 t1 t2 : Int) (s : State) : Out :=
  .next (if s.power.tripLatch && decide (t0 ≤ 85) && decide (t1 ≤ 85) && decide (t2 ≤ 85) then
    s.modPower fun p => { p with tripLatch := false, tCd0 := t0, tCd1 := t1, tHd := t2 }
  else s)

/-- The compute dies' always-on domains start again after the 42 V input was lost, and on exit from Ebony (R38). -/
def State.restartCounts (s : State) : State :=
  if s.power.vLost || s.power.cause == .ebony then s.modFabric fun f => { f with cd0 := {}, cd1 := {} } else s

/-- START_CONDITION (R440, R443 step 6): the input has stayed at or above 37.0 V for 5 ms. The ROM boots next. -/
def execStartCondition (v : Nat) (s : State) : Out :=
  .next (if s.power.inReset && !s.power.pwrDis && !s.power.tripLatch && decide (3700 ≤ v)
      && (!s.power.overvoltage || decide (v < 5500)) then
    s.restartCounts.modPower fun p => { p with volts := v, inReset := false, overvoltage := false, vLost := false }
  else s)

/-- HOLDUP_MEASUREMENT (R444): abandoned during a hold (R456). -/
def execHoldupMeasurement (mj : Nat) (s : State) : Out :=
  .next (if !s.alive || s.power.holdWarn || s.power.ladder == 5 then s
    else
      let was := s.power.holdupWeak
      let weak := decide (mj < 1200)
      let s := s.modPower fun p => { p with holdupMj := mj, holdupWeak := weak }
      if weak && !was then s.post 0x03 7 [] else if was && !weak then s.post 0x03 8 [] else s)

/-! ## The ladder (R445-R448) -/

/-- The effective state (R446). -/
def State.effective (s : State) : Nat :=
  if s.power.target ≠ 0xFF then s.power.target
  else if s.host.bifurcated then min s.power.nvmePs0 s.power.nvmePs1 else s.power.nvmePs0

/-- May the module enter Ash or a deeper state? (R447) -/
def State.quiet (s : State) : Bool :=
  s.host.trk.isEmpty
    && s.sched.parts.all (fun p => p.2.run.isNone && p.2.switch.isNone && p.2.waitingTasks == 0)
    && s.pipes.chans.all (fun c => c.2.jobs.isEmpty) && s.amp.openOps == 0

/-- Program what is buffered of an open erase unit; the wordline group that is not full takes filler. -/
def drainEu (eu : Nat) : Nat → State → State
  | 0, s => s
  | n + 1, s =>
    match s.ftl.nextGroup eu with
    | some g => drainEu eu n (s.programGroup eu g)
    | none => s

/-- Entry to Umber or Ebony programs the write buffer to flash (R447). -/
def State.drainBuffer (s : State) : State :=
  (s.ftl.eus.map (·.1)).foldl (fun s e =>
    match s.ftl.eu e with
    | .opened n p => drainEu e 384 (s.modFtl fun f => f.setEu e (.opened ((n + 2) / 3 * 3) p))
    | _ => s) s

/-- Dispatch what waited for Ivory (R447). -/
def State.dispatchAll (s : State) : State := (s.sched.parts.map (·.1)).foldl State.dispatchPoint s

/-- The module takes a ladder state; STATE is posted (R455). -/
def State.setLadder (s : State) (k : Nat) : State :=
  (s.modPower fun p => { p with ladder := k, lastOper := if k ≤ 1 then k else p.lastOper }).post 0x03 4 (leBytes 1 k)

/-- Both span ports go down (R419, R445). -/
def State.spanDown (s : State) : State := (s.portDown 0 .down).portDown 1 .down

/-- Answer a POWER_SET whose state has been entered (R454). -/
def State.powerAnswer (s : State) : State :=
  if s.effective = s.power.ladder then s.workDone 0x0501 St.ok (leBytes 1 s.power.ladder ++ [0, 0, 0]) else s

/-- Enter the effective state. -/
def State.enterState (s : State) : State :=
  match s.effective with
  | 2 => s.spanDown.setLadder 2
  | 3 => s.spanDown.loseCompute.setLadder 3
  | 4 => s.drainBuffer.spanDown.loseCompute.loseHbm.setLadder 4
  | 5 =>
    let t := s.power.target
    ((s.drainBuffer.lose true).modPower fun p => { p with target := t }).setLadder 5
  | k =>
    let s := (s.setLadder k).modSpan fun x => { x with p0 := x.p0.retrain, p1 := x.p1.retrain }
    s.dispatchAll

/-- POWER_STATE_ENTRY (R446, R447, R456): the entry waits for HOLD_EXIT. -/
def execPowerStateEntry (s : State) : Out :=
  .next (if s.serving && !s.power.holdWarn && !s.power.woken && s.effective != s.power.ladder && s.power.ladder != 5
      && (decide (s.effective ≤ 1) || s.quiet) then s.enterState.powerAnswer
    else s)

/-- Would the state lose a session that is not COLD, or a managed tensor? (R454) -/
def State.wouldLose (s : State) : Bool :=
  s.tiers.sessions.any (fun x => x.2.state == .active || x.2.state == .parked)
    || s.tiers.allocs.any fun a => a.2.1 == 3 && !(s.amp.objects.any fun o => o.2.space.contains a.1)

/-- POWER_SET (R446, R448, R454). Ebony needs the auxiliary supply, and is left by this message only for another target. -/
def powerSet : AmpBody := fun j s =>
  let t := fieldAt j.payload 0 1
  if 5 < t ∧ t ≠ 0xFF then ampRefuse St.unsupported s
  else if t = 5 ∧ s.mgmt.aux = false then ampRefuse St.unsupported s
  else if bit (fieldAt j.payload 1 1) 0 ∧ (t = 4 ∨ t = 5) ∧ s.wouldLose then ampRefuse St.busy s
  else if s.power.ladder = 5 then
    (s.leaveEbony t, .working)
  else
    let s := if t ≠ 0xFF then s.wake else s
    let s := s.modPower fun p => { p with target := t, woken := false }
    if s.effective = s.power.ladder then ampAnswer s (leBytes 1 s.power.ladder ++ [0, 0, 0]) else (s, .working)

/-- POWER_SET. -/
def execPowerSet (mb : Fin 3) (s : State) : Out := .next (ampExec mb 0x0501 powerSet s)

/-- SET_FEATURES_POWER_MANAGEMENT (R57, R446): recorded, and in effect while no AMP target stands. -/
def execSetFeaturesPowerManagement (fn : Fin 2) (e : Sqe) (s : State) : Out :=
  .next (if featureId e ≠ 0x02 then s else s.admin fn e fun s =>
    let ps := bits e.cdw11 0 5
    if 4 < ps ∨ bit e.cdw10 31 = true then Admin.refuse .invalidField St.unsupported s
    else
      (s.modPower fun p => { p with
        nvmePs0 := if fn.val = 0 then ps else p.nvmePs0, nvmePs1 := if fn.val = 1 then ps else p.nvmePs1
        woken := p.woken && decide (p.target ≠ 0xFF) }, {}, []))

/-! ## Cooling (R451) -/

/-- Is the flow estimate, in L/min, below 1.5 with the draw above 300 W? An outlet no warmer than the inlet sets no limit. -/
def Power.lowFlow (p : Power) : Bool :=
  decide (300000 < p.draw) && decide (p.tInlet < p.tOutlet)
    && decide ((p.draw : Int) * 120 < 3 * 4186 * 1000 * (p.tOutlet - p.tInlet))

/-- Does the inlet read above 35 °C? -/
def Power.hotInlet (p : Power) : Bool := decide (35 < p.tInlet)

/-- A THERMAL event (R455): code, sensor, reading. -/
def State.thermal (s : State) (rise : Bool) (sensor : Nat) (t : Int) : State :=
  s.post 0x04 (if rise then 1 else 2) (leBytes 1 sensor ++ leInt 1 t)

/-- The window becomes another; PEAK is posted. -/
def State.setPeak (s : State) (k : Peak) : State :=
  if s.power.peak = k then s else (s.modPower fun p => { p with peak := k }).post 0x03 6 (leBytes 1 k.code)

/-- What a change of draw or coolant does to the cooling conditions. -/
def State.cooling (s : State) (before : Power) : State :=
  let p := s.power
  let s := if p.hotInlet = before.hotInlet then s else s.thermal p.hotInlet 4 p.tInlet
  let s := if p.lowFlow = before.lowFlow then s else s.thermal before.lowFlow 5 p.tOutlet
  if p.hotInlet || p.lowFlow then (s.modPower fun p => { p with flowOkSince := none }).setPeak .denied
  else if p.flowOkSince.isNone then s.modPower fun p => { p with flowOkSince := some s.hdCount }
  else s

/-- COOLANT_LIMIT_CROSSING (R451). -/
def execCoolantLimitCrossing (inlet outlet : Int) (s : State) : Out :=
  .next (if s.alive then (s.modPower fun p => { p with tInlet := inlet, tOutlet := outlet }).cooling s.power else s)

/-- DENIED_EXIT (R451): inlet and flow have been within limits for 10 s. -/
def execDeniedExit (s : State) : Out :=
  .next (match s.power.flowOkSince with
    | some t =>
      if s.power.peak = .denied ∧ t + 10000000 ≤ s.hdCount then
        (s.modPower fun p => { p with recoverUs := 0, recheckAt := none }).setPeak .spent
      else s
    | none => s)

/-! ## Current, draw and the peak window (R441, R450) -/

/-- CURRENT_LIMIT (R441): the 1 ms average input current in mA. -/
def execCurrentLimit (ma : Nat) (s : State) : Out :=
  .next (if s.alive && decide (20500 < ma) then (s.modPower fun p => { p with amps := ma }).stepDown else s)

/-- DRAW_AVERAGE_CROSSING (R450, R451): the 1 ms average draw in mW. -/
def execDrawAverageCrossing (mw : Nat) (s : State) : Out :=
  .next (if !s.alive then s else
    let before := s.power
    let s := s.modPower fun p => { p with
      draw := mw
      lowSince := if mw < 540000 then some (p.lowSince.getD s.hdCount) else none
      recoverUs := if 600000 < mw then 0 else p.recoverUs }
    let s := s.cooling before
    match s.power.peak with
    | .armed =>
      let s := if 600000 < mw then s.setPeak .opened else s
      if 760000 < mw then s.stepDown else s
    | .opened => if 760000 < mw then s.stepDown else s
    | _ => if 600000 < mw then s.stepDown else s)

/-- PEAK_WINDOW_EXPIRY (R450): after 40 s of window time. -/
def execPeakWindowExpiry (s : State) : Out :=
  .next (if s.alive && s.power.peak == .opened && decide (40000000 ≤ s.power.windowUs) then
    let s := s.modPower fun p => { p with demandDraw := max p.demandDraw 1, recoverUs := 0, recheckAt := some (s.hdCount + 10000) }
    (s.setPeak .spent).clockFollow
  else s)

/-- PEAK_SPENT_RECHECK (R450): 10 ms later. -/
def execPeakSpentRecheck (s : State) : Out :=
  .next (match s.power.recheckAt with
    | some t =>
      if s.alive && decide (t ≤ s.hdCount) then
        let s := s.modPower fun p => { p with recheckAt := none }
        if s.power.peak = .spent ∧ 600000 < s.power.draw then (s.modPower fun p => { p with demandDraw := 2 }).clockFollow else s
      else s
    | none => s)

/-- CLOCK_STEP_UP_TIMER (R450): after 1 s below 540 W one level up, where R441 allows it: `ma` is the 1 ms average current. -/
def execClockStepUpTimer (ma : Nat) (s : State) : Out :=
  .next (match s.power.lowSince with
    | some t =>
      if s.alive && decide (t + 1000000 ≤ s.hdCount) && decide (ma ≤ 20500) && s.power.demandDraw != 0 then
        (s.modPower fun p => { p with amps := ma, demandDraw := p.demandDraw - 1, lowSince := some s.hdCount }).clockFollow
      else s
    | none => s)

/-- PEAK_RECOVERY (R450): after 120 s at or below 600 W. -/
def execPeakRecovery (s : State) : Out :=
  .next (if s.alive && s.power.peak == .spent && decide (120000000 ≤ s.power.recoverUs) then
    (s.modPower fun p => { p with windowUs := 0, recoverUs := 0 }).setPeak .armed
  else s)

/-! ## Temperatures (R452) -/

/-- Events of a reading that moves from `a` to `b`: a rise through a threshold, or a fall. -/
def State.crossings (s : State) (sensor : Nat) (a b : Int) : List Int → State
  | [] => s
  | t :: l =>
    let s := if a < t ∧ t ≤ b then s.thermal true sensor b else if b < t ∧ t ≤ a then s.thermal false sensor b else s
    s.crossings sensor a b l

/-- Junction of a die: 0 CD0, 1 CD1, 2 HD. -/
def Power.junction (p : Power) : Nat → Int
  | 0 => p.tCd0
  | 1 => p.tCd1
  | _ => p.tHd

/-- Set a junction reading. -/
def Power.setJunction (p : Power) (k : Nat) (t : Int) : Power :=
  match k with
  | 0 => { p with tCd0 := t }
  | 1 => { p with tCd1 := t }
  | _ => { p with tHd := t }

/-- Does every junction read at or below 95 °C? -/
def Power.cool (p : Power) : Bool := decide (p.tCd0 ≤ 95) && decide (p.tCd1 ≤ 95) && decide (p.tHd ≤ 95)

/-- JUNCTION_TEMP_CROSSING (R452): one step for each rise through 100 °C, 0.8 GHz from 105 °C, a thermal trip at 110 °C. -/
def execJunctionTempCrossing (k : Fin 3) (t : Int) (s : State) : Out :=
  .next (if !s.alive then s else
    let a := s.power.junction k
    let s := s.modPower fun p => p.setJunction k t
    let s := s.modPower fun p => { p with coolSince := if p.cool then some (p.coolSince.getD s.hdCount) else none }
    let s := s.crossings (k + 1) a t [100, 105, 110]
    let s := if a < 100 ∧ 100 ≤ t then s.modPower fun p => { p with demandTherm := max p.demandTherm p.down } else s
    let s := (if 105 ≤ t then s.modPower fun p => { p with demandTherm := 2 } else s).clockFollow
    if 110 ≤ t then
      (s.modPower fun p => { p with trips := satAdd 255 p.trips 1, tripLatch := true }).commitCrossing .trip
    else s)

/-- THERMAL_STEP_UP (R452): after 1 s at or below 95 °C. -/
def execThermalStepUp (s : State) : Out :=
  .next (match s.power.coolSince with
    | some t =>
      if s.alive && decide (t + 1000000 ≤ s.hdCount) && s.power.demandTherm != 0 then
        (s.modPower fun p => { p with demandTherm := p.demandTherm - 1, coolSince := some s.hdCount }).clockFollow
      else s
    | none => s)

/-- FLASH_TEMP_CROSSING (R452): the hottest flash package; HOLD from 80 °C until 75 °C. -/
def execFlashTempCrossing (t : Int) (s : State) : Out :=
  .next (if !s.alive then s else
    let a := s.power.tFlash
    let s := s.modPower fun p => { p with tFlash := t }
    let s := s.crossings 0 a t [70]
    let s := if a < 80 ∧ 80 ≤ t then s.thermal true 0 t else s
    let s := if 75 < a ∧ t ≤ 75 then s.thermal false 0 t else s
    (s.modPower fun p => { p with holdFlash := decide (80 ≤ t) || (p.holdFlash && decide (75 < t)) }).holdFollow)

/-! ## Messages and registers (R453, R454, R457) -/

/-- WRITE_GOVERNOR (R453). -/
def writeGovernor : AmpBody := fun j s =>
  let r := fieldAt j.payload 0 4
  if r ≠ 0 ∧ (r < 100 ∨ 44000 < r) then ampRefuse St.unsupported s
  else ampAnswer (s.modPower fun p => { p with governor := r }) []

/-- WRITE_GOVERNOR. -/
def execWriteGovernor (mb : Fin 3) (s : State) : Out := .next (ampExec mb 0x0503 writeGovernor s)

/-- The 8 bytes of PM_TEMP. -/
def Power.temps (p : Power) : Bytes :=
  [0, 0] ++ leInt 1 p.tFlash ++ leInt 1 p.tOutlet ++ leInt 1 p.tInlet ++ leInt 1 p.tHd ++ leInt 1 p.tCd1 ++ leInt 1 p.tCd0

/-- HOLDING: HOLD is asserted under R442 or R452. -/
def Power.holding (p : Power) : Bool := p.holdWarn || p.holdFlash

/-- POWER_READ (R454). -/
def powerRead : AmpBody := fun _ s =>
  let p := s.power
  ampAnswer s (leBytes 1 p.ladder ++ leBytes 1 p.clock ++ leBytes 1 p.peak.code
    ++ leBytes 1 (b2n p.holding + 2 * b2n p.holdupWeak + 4 * b2n (p.governor != 0)) ++ leBytes 1 p.target
    ++ leBytes 1 p.nvmePs0 ++ leBytes 1 p.nvmePs1 ++ [0] ++ leBytes 4 p.draw ++ leBytes 4 (p.windowUs / 1000)
    ++ leBytes 4 (p.recoverUs / 1000) ++ leBytes 4 p.holdupMj ++ p.temps)

/-- POWER_READ. -/
def execPowerRead (mb : Fin 3) (s : State) : Out := .next (ampExec mb 0x0502 powerRead s)

/-- The PM registers by offset in the block; all are RO. -/
def pmRegRead (s : State) (off : Nat) : Nat :=
  let p := s.power
  match off with
  | 0x00 => p.amps % 65536 + 2 ^ 16 * (p.volts % 65536)
  | 0x04 => b2n p.holding + 2 * b2n p.flushing + 4 * b2n p.holdupWeak + 2 ^ 16 * p.peak.code + 2 ^ 18 * p.clock + 2 ^ 20 * p.ladder
  | 0x08 => p.recoverUs / 10000 % 65536 + 2 ^ 16 * (p.windowUs / 1000 % 65536)
  | 0x0C => p.holdupMj % 65536
  | 0x10 => p.clockSteps + 2 ^ 16 * p.trips + 2 ^ 24 * p.holds
  | 0x18 => leNat p.temps
  | _ => 0

end Sys2Proof.Machine
end

