-- ==== Sys2Proof/Machine/Boot.lean ====
section
/-! DEFINITION. The boot sequence, recovery mode, the supplies, and the host's way in: PERST#, CC.EN, queue creation, the submission
doorbell (R38, R51, R52, R58-R60, R68, R395, R448, R458-R461, R466, R479, R486). -/

namespace Sys2Proof.Machine

/-! ## Replay (R395, R444) -/

/-- What an incomplete dump takes away (R65, R444): every copy and every unmapping of the granule commits of which it lacks a buffered copy.
`cut`: the slots it does not hold. -/
def Ftl.cutTied (f : Ftl) (cut : List Nat) : List Tied :=
  let gone := (f.buf.filter fun b => cut.contains b.1 && !b.2.gc).map fun b => b.2.group
  (f.buf.map (fun b => (⟨b.2.unit, b.1, b.2.was, b.2.group⟩ : Tied)) ++ f.tied).filter fun t => gone.contains t.group

/-- The slot that a unit falls back to when its lost copies are taken away. -/
def fallback (gone : List Tied) (u : Nat) : Nat → Nat → Nat
  | 0, k => k
  | n + 1, k =>
    match gone.find? fun t => t.unit == u && t.slot == k with
    | some t => fallback gone u n t.was
    | none => k

/-- Units whose granule was lost keep their old contents. -/
def Ftl.cutBack (f : Ftl) (gone : List Tied) : Ftl :=
  { f with
    map := gone.foldl (fun m t => Tab.set unmapped m t.unit (fallback gone t.unit (gone.length + 1) (Tab.get unmapped m t.unit))) f.map
    buf := f.buf.filter fun b => !gone.any fun t => t.slot == b.1 }

/-- The dumped units that the map still names: they are placed in the buffer. -/
def Ftl.dumped (f : Ftl) : List BufUnit := (f.buf.filter fun b => f.slot b.2.unit == b.1).map (·.2)

/-- The placed units are journalled at their new slots. -/
def replayUnits : List BufUnit → List Nat → State → State
  | b :: l, e :: es, s => replayUnits l es (s.commitUnits b.kind b.unit [(b.unit, b.data, b.poison)] [e])
  | _, _, s => s

/-- Replay. `eus`: erase units that the placed units are programmed to; `ms`: how long it took. None where they have no room. -/
def State.replay (s : State) (eus : List Nat) (ms : Nat) : Option State :=
  let f := s.ftl
  let f := match f.dumpCut with
    | some cut => f.cutBack (f.cutTied cut)
    | none => f
  let units := f.dumped
  let s := s.modFtl fun g => { f with
    buf := [], tied := [], dumpDue := false, dumpCut := none, dumpLost := g.dumpCut.isSome, dumpSet := 1 - g.dumpSet, replayMs := ms }
  if units.length ≤ eus.length ∧ canPlace true (eus.take units.length) s = true then some (replayUnits units eus s).drainBuffer
  else none

/-! ## The steps of the boot sequence (R460) -/

/-- Are the two copies of a record lost? (R459) -/
def Copy.lost {α : Type} [DecidableEq α] (a b : Copy α) : Bool := (Copy.best a b).isNone && !(a == .blank && b == .blank)

/-- Step 2: the owner record and the key slots. -/
def Sec.readRecords (x : Sec) : Sec :=
  if Copy.lost x.owner0 x.owner1 || Copy.lost x.keys0 x.keys1 then { x with owned := true, ownerKey := 0, keys := [], held := 3 }
  else
    { x with
      owned := (Copy.best x.owner0 x.owner1).isSome, ownerKey := (Copy.best x.owner0 x.owner1).getD 0
      keys := (Copy.best x.keys0 x.keys1).getD [], held := 0 }

/-- Step 3: training starts on every port whose PERST# is deasserted (R52). -/
def State.trainPort (s : State) (fn : Nat) : State :=
  if s.hasFn fn then s.modCtrl fn fun c => { c with port := if !c.perst && c.port == .down then .training else c.port } else s

/-- The image in the slot: its header, or the recovery reason (R463, R465). -/
def Sec.image (x : Sec) : Except Nat Bytes :=
  match x.slot with
  | .shipped => .ok Config.shippedHeader
  | .torn => .error 4
  | .image b => match x.imageReason b with
    | some r => .error r
    | none => .ok (b.take 256)

/-- Step 4 for a valid image: the counter rises to its SVN, and REVOKE_LOWER blows the fuses below its KEY_INDEX (R460, R463). -/
def Sec.runImage (x : Sec) (h : Bytes) : Sec :=
  { x with
    header := h, version := fieldAt h 0x08 8, svn := fieldAt h 0x14 4, counter := max x.counter (fieldAt h 0x14 4)
    revoked := if bit (fieldAt h 0x11 1) 0 then
        x.revoked ++ (List.range (min 4 (fieldAt h 0x10 1))).filter fun k => !x.revoked.contains k
      else x.revoked }

/-- Every idle mailbox shows RECOVERY (R466). -/
def Mbox.recovering (m : Mbox) : Mbox := if m.state = .idle then { m with state := .recovery } else m

/-- GATHER of every selection unit, as ROM code and keeper firmware set it (R168). -/
def State.setGather (s : State) (on : Bool) : State :=
  s.modSel fun x => { x with units := (List.range 16).foldl (fun u i => Tab.mod {} u i fun y => { y with gather := on }) x.units }

/-- ROM recovery mode (R466): the selection units gather (R168), CSTS.CFS reads 1, CSTS.RDY stays 0. A POWER_SET that waited for the boot is refused as every message
but nine is. -/
def State.enterRecovery (s : State) (reason : Nat) : State :=
  let s := s.workDone 0x0501 St.unsupported []
  let s := s.modSec fun x => { x with phase := .recovery, lastReason := reason }
  let s := (s.modHost fun h => { h with c0 := { h.c0 with cfs := true }, c1 := { h.c1 with cfs := true } }).setGather true
  ((s.modMb 0 Mbox.recovering).modMb 1 Mbox.recovering).modMb 2 Mbox.recovering

/-- Step 5: the keepers start, the concentrators take reports (R438); the selection units gather during the start-up self-test, which
lasts until the module is ready (R168; its extent: DEDUCED, log 105). -/
def State.startKeepers (s : State) : State :=
  let on (c : Conc) : Conc := { c with enable := true }
  ((s.modFaults fun f => { f with cd0 := on f.cd0, cd1 := on f.cd1, hd := on f.hd }).modSec fun x =>
    { x with phase := .starting, startedAt := s.hdCount }).setGather true

/-- The targets of a channel that the retired list names. -/
def Faults.lostTargets (f : Faults) (ch : Nat) : List Nat :=
  f.lost.filterMap fun u => match u with
    | .target c t => if c = ch then some t else none
    | _ => none

/-- Step 6: the media ROMs run their reset entries; the isolation in the retired list is applied again (R365, R433). `lostT`: targets
that do not answer. -/
def State.bringUpMedia (s : State) (lostT : List (Nat × Nat)) : State :=
  let s := onChannels (fun ch s => s.modChan ch fun c => { c with lost := (s.faults.lostTargets ch).foldl setBit c.lost }) s
  let s := lostT.foldl (fun s x => if x.1 < 32 then targetLost x.1 x.2 s else s) s
  onChannels resetEntry s

/-- Step 7 (R471, R473): the configuration record in force, and Held. -/
def State.configure (s : State) : State :=
  let (c, r) := if s.sec.held = 3 then (3, none) else s.selectConfig
  let s := s.modSec fun x => { x with held := c, config := r }
  if c = 0 then s else (s.modSec fun x => { x with failedBoots := 0 }).post 0x08 1 (leBytes 1 c)

/-- Does the ROM boot next: the module is powered and out of reset, and nothing runs on it yet? -/
def State.bootDue (s : State) : Bool := s.alive && s.sec.phase == .off && s.power.ladder != 5

/-- Before step 1: the BIFURCATE strap is sampled when the module leaves Ebony or has been powered up (R51). -/
def State.samplePins (s : State) (strap : Bool) : State :=
  let s := s.modHost fun h => { h with strap := strap }
  if s.power.cause = .powerUp ∨ s.power.cause = .ebony then
    (s.modHost fun h => { h with bifurcated := strap }).modFtl fun f => { f with powerCycles := f.powerCycles + 1 }
  else s

/-- Steps 2 to 7. -/
def State.bootSteps (s : State) (lostT : List (Nat × Nat)) : State :=
  let s := ((s.modSec Sec.readRecords).trainPort 0).trainPort 1
  match s.sec.image with
  | .error r => s.enterRecovery r
  | .ok h => (((s.modSec fun x => x.runImage h).startKeepers).bringUpMedia lostT).configure

/-- BOOT, steps 1 to 8. `otpOk`: step 1 passes; `strap`: the BIFURCATE strap; `lostT`: flash targets that do not answer; `eus`, `ms`:
for replay. The ready report of the keepers follows. -/
def execBoot (otpOk strap : Bool) (lostT : List (Nat × Nat)) (eus : List Nat) (ms : Nat) (s : State) : Out :=
  .next (if !s.bootDue then s
    else if !otpOk then s.modSec fun x => { x with phase := .dead }
    else
      let t := (s.samplePins strap).bootSteps lostT
      if t.sec.phase = .starting ∧ t.ftl.dumpDue = true then (t.replay eus ms).getD s else t)

/-! ## The ready report (R461) -/

/-- DETAIL byte 1 of RESTARTED (R455); a restart after the loss of a die link has none that the spec states. -/
def State.restartCause (s : State) : Option Nat :=
  match s.power.cause with
  | .commit => some 0
  | .pwrDis => some 0
  | .overvoltage => some 1
  | .trip => some 2
  | .lostDie => some (s.freeNum % 256)
  | _ => none

/-- RESTARTED is posted after a restart under R443. -/
def State.postRestarted (s : State) : State :=
  match s.restartCause with
  | some c => (s.post 0x03 3 (leBytes 1 s.power.ladder ++ leBytes 1 c)).used
  | none => s

/-- A secure discard that a restart cut is finished before CSTS.RDY (R398). -/
def State.finishDiscard (s : State) (eus bad : List Nat) : State :=
  match s.ftl.discard with
  | some (_, runs) =>
    let s := emptyEus bad (s.copyHolders runs) eus s
    if s.copyHolders runs = [] then s.modFtl fun f => { f with discard := none } else s
  | none => s

/-- Does a sanitize that a restart began again hold CSTS.RDY back? (R400) -/
def State.sanitizeHolds (s : State) : Bool :=
  match s.ftl.sanitizer with
  | some z => z.op.isNone && z.host.isNone
  | none => false

/-- KEEPER_READY. `eus`, `bad`: for a secure discard that is to be finished; `lost`, `places`: for the objects restored. In Held
step 9 waits for a configuration record. -/
def execKeeperReady (eus bad lost : List Nat) (places : Tab (List (Nat × Nat) × List Nat)) (s : State) : Out :=
  .next (
    let t := s.finishDiscard eus bad
    if s.sec.phase != .starting || !s.alive || decide (s.sec.startedAt + 5000000 < s.hdCount) || t.ftl.discard.isSome then s
    else
      let t := (t.modSec fun x => { x with phase := .running }).setGather false
      match if t.isHeld then some t else (t.modSec fun x => { x with failedBoots := 0 }).openUp lost places with
      | none => s
      | some s =>
        let s := if s.sanitizeHolds then s else s.raiseReady
        (s.postRestarted.modPower fun p => { p with cause := .other }).powerAnswer)

/-- KEEPER_READY_TIMEOUT: after 5 s the ROM boots again; at the third time it enters recovery mode with KEEPER_TIMEOUT. -/
def execKeeperReadyTimeout (s : State) : Out :=
  .next (if s.sec.phase == .starting && s.alive && decide (s.sec.startedAt + 5000000 ≤ s.hdCount) then
    let s := s.modSec fun x => { x with failedBoots := x.failedBoots + 1 }
    if s.sec.failedBoots < 3 then s.reboot else ((s.reboot.trainPort 0).trainPort 1).enterRecovery 6
  else s)

/-! ## The supplies -/

/-- AUX_POWER_UP (R479): AUX_3V3 rises through 3.1 V, and ADDR_SEL is sampled. -/
def execAuxPowerUp (addrSel : Bool) (s : State) : Out :=
  .next (if s.mgmt.aux then s else s.modMgmt fun m => { m with aux := true, addrSel := addrSel })

/-- AUX_POWER_LOSS (R480, R486): with 42 V present the sideband is served on, and the endpoint ID is kept. -/
def execAuxPowerLoss (s : State) : Out := .next ((s.modMgmt fun m => { m with aux := false }).hdDown)

/-! ## PERST#, CC.EN and queues -/

/-- PERST_DEASSERT (R52, R448, R460): training starts from boot step 3 on; in Ebony the boot begins, whatever the AMP target was. -/
def execPerstDeassert (fn : Fin 2) (s : State) : Out :=
  .next (
    let s := s.modCtrl fn fun c => { c with perst := false }
    if !s.alive then s
    else if s.power.ladder = 5 then s.leaveEbony 0xFF
    else if s.sec.phase = .starting ∨ s.sec.phase = .running ∨ s.sec.phase = .recovery then s.trainPort fn
    else s)

/-- CONTROLLER_ENABLE (R59, R68): CC.EN goes from 0 to 1. `asqs`, `acqs`: entries of the admin queues, which hold 2 to 4,096. -/
def execControllerEnable (fn : Fin 2) (asqs acqs : Nat) (s : State) : Out :=
  let c := s.ctrl fn
  .next (if s.hasFn fn && s.alive && c.cfg && !c.en && !c.resetting && decide (2 ≤ asqs) && decide (asqs ≤ 4096)
      && decide (2 ≤ acqs) && decide (acqs ≤ 4096) then
    s.modCtrl fn fun c => { c with
      en := true, rdy := s.serving && !s.sanitizeHolds
      sqs := Tab.put c.sqs 0 { size := asqs, cq := 0 }, cqs := Tab.put c.cqs 0 { size := acqs, ien := true } }
  else s)

/-- CREATE_IO_SQ (R58, R59). -/
def execCreateIoSq (fn : Fin 2) (e : Sqe) (s : State) : Out := .next (s.admin fn e (admCreateSq s.isHeld fn e))

/-- CREATE_IO_CQ (R35, R58, R59). -/
def execCreateIoCq (fn : Fin 2) (e : Sqe) (s : State) : Out := .next (s.admin fn e (admCreateCq s.isHeld fn e))

/-- SQ_TAIL_DOORBELL (R60, R448): entries up to `v` can be fetched; an I/O doorbell takes the module out of a non-operational state. A
value outside the queue is ignored. -/
def sqTail (fn q v : Nat) (s : State) : State :=
  match Tab.find (s.ctrl fn).sqs q with
  | some sq =>
    if v < sq.size then
      let s := (s.modSq fn q fun x => { x with tail := v }).noteOrdered fn q
      if q = 0 then s else s.wake
    else s
  | none => s

/-- SQ_TAIL_DOORBELL. -/
def execSqTailDoorbell (fn : Fin 2) (q v : Nat) (s : State) : Out := .next (if s.alive then sqTail fn q v s else s)

end Sys2Proof.Machine
end

