-- ==== Sys2Proof/Machine/Isolate.lean ====
section
/-! DEFINITION. Detections, and the isolation of lost units (R422, R427, R433). -/

namespace Sys2Proof.Machine

/-- Put a unit into the retired list. -/
def State.lostUnit (s : State) (u : LostUnit) : State :=
  if s.faults.lost.contains u then s else s.modFaults fun f => { f with lost := f.lost ++ [u] }

/-- Does a link lie between clusters of a partition? The link of the compute dies where it has clusters on both; a network link of a die
where it has clusters in two regions of that die (which routes a step takes the spec leaves open; DEDUCED, log 101). -/
def linkBetween (key : Nat) (gs : List Nat) : Bool :=
  if key = 0 then (gs.any fun g => decide (g < 64)) && gs.any fun g => decide (64 ≤ g)
  else decide (16 ≤ key) && decide (((gs.filter fun g => g / 64 == (key - 16) % 3).map (· / 8)).dedup.length ≥ 2)

/-- The attempts that run across a lost link have met a Crimson fault of a link of their own (R432). -/
def State.linkCrimson (s : State) (key : Nat) : State :=
  s.modSched fun x => { x with parts := x.parts.map fun p =>
    (p.1, if linkBetween key (s.clustersOf p.2.mask) then { p.2 with run := p.2.run.map fun t => { t with crimson := true } } else p.2) }

/-- A link is lost. Without its link to HD a compute die stays out of service, after a full internal restart. -/
def State.isolateLink (s : State) (key : Nat) : State :=
  let s := (s.modFabric fun f => { f with links := Tab.set {} f.links key { state := .lost } }).lostUnit (.link key)
  let s := s.linkCrimson key
  match key with
  | 1 => (s.lostUnit (.die .cd0)).commitCrossing .lostDie
  | 2 => (s.lostUnit (.die .cd1)).commitCrossing .lostDie
  | _ => s

/-- The key of the link that SOURCE names on a die (R426). -/
def linkKey (d : Die) (source : Nat) : Nat := if source % 256 < 16 then source % 256 else 16 + 3 * (source % 256 - 16) + d.code

/-- Reinstall an object's regions that lay on a lost cluster, from their copies; the object leaves the catalogue where the places named
are not free or do not suffice. -/
def State.moveRegions (s : State) (g : Nat) (o : Obj) (to_ : List (Nat × Nat)) : State :=
  let gone := o.regions.filter fun r => r.1 == g
  let gs := s.modelClusters o.data
  if gone.length = to_.length ∧ s.regionsFree gs to_ = true then
    let pairs := (o.regions.zip o.space).filter fun x => x.1.1 == g
    let s := (pairs.zip to_).foldl (fun s x =>
      let a := x.1.2
      let r := x.2
      (s.store (spAddr r.1 (r.2 * 65536)) (s.bytesAt a 65536)).modCl r.1 fun c => { c with
        resident := Tab.set 0 c.resident (r.2 / 16) (setBit (Tab.get 0 c.resident (r.2 / 16)) (r.2 % 16))
        copies := Tab.put c.copies r.2 a }) s
    let new := (o.regions.zip o.space).foldl (fun (l, todo) x =>
      if x.1.1 = g then (l ++ [todo.headD x.1], todo.drop 1) else (l ++ [x.1], todo)) (([] : List (Nat × Nat)), to_)
    s.modAmp fun a => { a with objects := Tab.put a.objects (objKey o.cls o.id) { o with regions := new.1 } }
  else s.dropObject (objKey o.cls o.id)

/-- Objects with regions on a cluster. -/
def State.residentOn (s : State) (g : Nat) : List Obj :=
  (s.amp.objects.map (·.2)).filter fun o => o.regions.any fun r => r.1 == g

/-- Move the regions of objects one after another; each takes as many of the places named as it needs. -/
def moveAll (g : Nat) : List Obj → List (Nat × Nat) → State → State
  | [], _, s => s
  | o :: l, to_, s =>
    let n := (o.regions.filter fun r => r.1 == g).length
    moveAll g l (to_.drop n) (s.moveRegions g o (to_.take n))

/-- A cluster is lost: it is held with ENABLE 0, its partition's running task ends, and its RESIDENT regions move to `to_`. -/
def State.isolateCluster (s : State) (g : Nat) (to_ : List (Nat × Nat)) : State :=
  if 128 ≤ g ∨ s.clusterLost g = true then s else
  let part := s.sched.partOf g
  let objs := s.residentOn g
  let s := (s.lostUnit (.cluster g)).modCl g fun c => { c.stop with enable := false, halt := true }
  let s := match part with
    | some (p, _) => s.endTask p St.stepFailed
    | none => s
  moveAll g objs to_ s

/-- A NAND target is lost (R365): its units read as R391 says. -/
def State.isolateTarget (s : State) (ch t : Nat) : State :=
  (s.modChan ch fun c => { c with lost := setBit c.lost t }).lostUnit (.target ch t)

/-- The isolation of the unit that a report names. -/
def State.isolate (s : State) (d : Die) (r : Report) (to_ : List (Nat × Nat)) : State :=
  match r.cls with
  | .linkLost => s.isolateLink (linkKey d r.source)
  | .clusterLost => s.isolateCluster (r.source % 1024) to_
  | .targetLost => s.isolateTarget (r.source % 128) (r.source / 128 % 32)
  | .spanEngine => (s.portDown (r.source % 2) .down).lostUnit (.port (r.source % 2))
  | _ => s

/-- A word that cannot be corrected: whoever reads it gets no good data (R424). -/
def State.spoil (s : State) (r : Report) : State :=
  match r.cls with
  | .hbmUncorrected => s.poisonWord r.addr
  | .spParity => s.poisonWord r.addr
  | .sramUncorrected => if r.addr = 0 then s else s.poisonWord r.addr
  | _ => s

/-- FAULT_REPORT (R427, R433): a detection that no other command makes. `to_`: new places of RESIDENT regions. -/
def execFaultReport (d : Die) (r : Report) (to_ : List (Nat × Nat)) (s : State) : Out :=
  .next (((s.report d r).spoil r).isolate d r to_)

/-- LINK_RETRAIN_DONE (R26, R29, R433). -/
def execLinkRetrainDone (l : LinkId) (d : Die) (ok : Bool) (s : State) : Out :=
  .next (
    let t := linkRetrained l d ok s
    if (s.link l).state = .retraining ∧ ok = false then t.isolateLink l.key else t)

end Sys2Proof.Machine
end

