-- ==== Sys2Proof/Machine/Mgmt.lean ====
section
/-! DEFINITION. The management plane: MCTP control, NVMe-MI, SPDM, and the pins of the blade connector (R475, R479-R487). The formats
of the standards that these rules name are presumed (log 33). -/

namespace Sys2Proof.Machine

/-! ## What is served -/

/-- Does the always-on domain of HD serve the sideband by itself, no keeper and no boot ROM answering? (R460, R485) -/
def State.keepersOff (s : State) : Bool := s.power.ladder == 5 || !s.alive || s.sec.phase == .off || s.sec.phase == .dead

/-- The answer to a request over the sideband. -/
def State.answerMctp (s : State) (b : Bytes) : State := if s.sideband then s.reply (.data b) else s

/-! ## MCTP control (R480) -/

/-- SET_ENDPOINT_ID: operations 0 and 1 assign an ID from 8 to 254. -/
def execSetEndpointId (op eid : Nat) (s : State) : Out :=
  .next (if op ≤ 1 ∧ 8 ≤ eid ∧ eid ≤ 254 then
    if s.sideband then (s.modMgmt fun m => { m with eid := eid }).answerMctp [0, 0, byteOf eid, 0] else s
  else s.answerMctp [2])

/-- GET_ENDPOINT_ID. -/
def execGetEndpointId (s : State) : Out := .next (s.answerMctp [0, byteOf s.mgmt.eid, 0, 0])

/-- The message types offered. -/
def mctpTypes : Bytes := [0x00, 0x04, 0x05, 0x7E]

/-- GET_MCTP_VERSION_SUPPORT for a message type, 0xFF standing for the base specification. -/
def execGetMctpVersionSupport (typ : Nat) (s : State) : Out :=
  let v := Config.mctpVersions typ
  .next (if typ = 0xFF ∨ mctpTypes.contains (byteOf typ) = true then s.answerMctp ([0, byteOf (v.length / 4)] ++ v)
    else s.answerMctp [0x80])

/-- GET_MESSAGE_TYPE_SUPPORT. -/
def execGetMessageTypeSupport (s : State) : Out := .next (s.answerMctp ([0, 4] ++ mctpTypes))

/-- GET_VENDOR_DEFINED_MESSAGE_SUPPORT: one set, of the PCI vendor ID of R84. -/
def execGetVendorDefinedMessageSupport (sel : Nat) (s : State) : Out :=
  .next (s.answerMctp (if sel = 0 then [0, 0xFF, 0] ++ leBytes 2 Config.vendorId ++ [0, 0] else [2]))

/-! ## Health status and pins (R481, R482, R487) -/

/-- Composite temperature as one byte of °C; none while the main supply is off. -/
def State.ctemp (s : State) : Nat :=
  if s.keepersOff then 0x80 else if 126 < s.power.tFlash then 127 else (s.power.tFlash % 256).toNat

/-- Critical Warning of the subsystem: of either controller. -/
def State.warning (s : State) : Nat := s.criticalWarning 0 ||| (if s.hasFn 1 then s.criticalWarning 1 else 0)

/-- The health status: RDY, CFS, temperature, drive life used, spare, critical warning. -/
def State.health (s : State) : List Nat :=
  [b2n (s.host.c0.rdy || s.host.c1.rdy), b2n (s.host.c0.cfs || s.host.c1.cfs), s.ctemp, s.ftl.used, s.ftl.spare, s.warning]

/-- The Health Status Change bits: RDY 0, CFS 1, CTEMP 9, PDLU 10, SPARE 11, CWARN 12. -/
def State.healthChange (s : State) : Nat :=
  match s.mgmt.healthSeen with
  | none => 0
  | some l =>
    ([0, 1, 9, 10, 11, 12].zip (l.zip s.health)).foldl (fun n x => if x.2.1 = x.2.2 then n else n + 2 ^ x.1) 0

/-- Clear the Health Status Change bits. -/
def State.clearHealth (s : State) : State := s.modMgmt fun m => { m with healthSeen := some s.health }

/-- SMB_ALERT# is driven low (R481). -/
def State.smbAlert (s : State) : Bool :=
  !s.amp.m2.events.isEmpty || decide (s.healthChange &&& s.mgmt.healthEnable ≠ 0)

/-- FAULT_LED# is driven low (R487). -/
def State.faultLed (s : State) : Bool := s.warning != 0 || s.isHeld || s.sec.phase == .recovery

/-- ACT_LED# blinks: I/O commands are outstanding (R487). -/
def State.actLed (s : State) : Bool := !s.host.trk.isEmpty

/-- MCTP endpoint, Basic Management and VPD addresses (R479). -/
def Mgmt.addresses (m : Mgmt) : Nat × Nat × Nat := if m.addrSel then (0x1E, 0x6B, 0x57) else (0x1D, 0x6A, 0x53)

/-! ## NVMe-MI (R480, R482-R485) -/

/-- Response Message Statuses. -/
def miInternalError : Bytes := [0x02]
/-- Invalid Command Opcode. -/
def miInvalidOpcode : Bytes := [0x03]
/-- Invalid Parameter. -/
def miInvalidParameter : Bytes := [0x04]
/-- A successful response: three bytes of NVMe Management Response, data. -/
def miOk (r : Nat) (b : Bytes) : Bytes := [0] ++ leBytes 3 r ++ b

/-- An NVMe-MI command: a message whose integrity check fails is dropped; `always`: served in Ebony too. -/
def State.mi (s : State) (mic always : Bool) (f : State → State) : State :=
  if !s.sideband || !mic then s
  else if s.keepersOff && !always then s.answerMctp miInvalidOpcode
  else f s

/-- A port of the subsystem: 0 the SMBus port, then the PCIe ports. -/
def State.miPort (s : State) (p : Nat) : Option Bytes :=
  let (ep, _, vpd) := s.mgmt.addresses
  if p = 0 then some (layFields 0 32 [(0, 1, 2), (2, 2, 64), (8, 1, 2 * vpd), (9, 1, 3), (10, 1, 2 * ep), (11, 1, 3), (12, 1, 1)])
  else if s.hasFn (p - 1) then
    some (layFields 0 32 [(0, 1, 1), (2, 2, 64), (8, 1, 2), (9, 1, 0x3F), (10, 1, (s.ctrl (p - 1)).speed), (11, 1, if s.host.bifurcated then 4 else 8),
      (12, 1, (s.ctrl (p - 1)).width), (13, 1, p - 1)])
  else none

/-- A data structure by its type; `port`, `ctrl`: the identifiers in the request. -/
def State.miStructure (s : State) (typ port ctrl : Nat) : Option Bytes :=
  match typ with
  | 0 => some (layFields 0 32 [(0, 1, s.controllers.length), (1, 1, 1), (2, 1, 2)])
  | 1 => s.miPort port
  | 2 =>
    let l := s.controllers.filter fun k => decide (ctrl ≤ k)
    some (leBytes 2 l.length ++ l.flatMap (leBytes 2))
  | 3 =>
    if ctrl ≤ 1 ∧ s.hasFn ctrl = true then
      some (layFields 0 32 [(0, 1, ctrl + 1), (6, 2, ctrl), (8, 2, Config.vendorId), (10, 2, Config.pciIds % 65536), (12, 2, Config.vendorId),
        (14, 2, Config.pciIds / 65536)])
    else none
  | 4 => some (leBytes 2 7 ++ [0x08, 0x05, 0x08, 0x07, 0x08, 0xC0, 0x10, 0x02, 0x10, 0x06, 0x10, 0x09, 0x10, 0x0A])
  | _ => none

/-- READ_NVME_MI_DATA_STRUCTURE. -/
def execReadNvmeMiDataStructure (mic : Bool) (typ port ctrl : Nat) (s : State) : Out :=
  .next (s.mi mic true fun s =>
    match s.miStructure typ port ctrl with
    | some b => (s.answerMctp (miOk b.length b)).used.used
    | none => s.answerMctp miInvalidParameter)

/-- NVM_SUBSYSTEM_HEALTH_STATUS_POLL: Drive Functional, Reset Not Required and the links; smart warnings inverted; temperature; life
used; the Health Status Change bits. `clear`: they are cleared. -/
def execNvmSubsystemHealthStatusPoll (mic clear : Bool) (s : State) : Out :=
  .next (s.mi mic true fun s =>
    let up (c : Ctrl) : Nat := b2n (c.port == .up)
    let nss := 32 * b2n (s.serving) + 16 * b2n (s.sec.phase != .recovery) + 8 * up s.host.c0 + 4 * up s.host.c1
    let b := miOk 0 (leBytes 1 nss ++ leBytes 1 (255 - s.warning) ++ leBytes 1 s.ctemp ++ leBytes 1 s.ftl.used
      ++ leBytes 2 s.healthChange ++ [0, 0])
    (if clear then s.clearHealth else s).answerMctp b)

/-- The health of a controller: ID, CSTS, temperature in K, life used, spare, critical warning. -/
def State.ctrlHealth (s : State) (fn : Nat) : Bytes :=
  let c := s.ctrl fn
  leBytes 2 fn ++ leBytes 2 (b2n c.rdy + 2 * b2n c.cfs) ++ leBytes 2 (kelvin s.power.tFlash) ++ leBytes 1 s.ftl.used
    ++ leBytes 1 s.ftl.spare ++ leBytes 1 (s.criticalWarning fn) ++ List.replicate 7 0

/-- CONTROLLER_HEALTH_STATUS_POLL: controllers from `first` upward. -/
def execControllerHealthStatusPoll (mic clear : Bool) (first : Nat) (s : State) : Out :=
  .next (s.mi mic false fun s =>
    let l := s.controllers.filter fun k => decide (first ≤ k)
    let b := miOk (65536 * l.length) (l.flatMap s.ctrlHealth)
    (if clear then s.clearHealth else s).answerMctp b)

/-- CONFIGURATION_SET: 1 the SMBus frequency of port 0, 2 the enabled Health Status Change bits, 3 the transmission unit. The new
frequency applies from the next message (R486). -/
def execConfigurationSet (mic : Bool) (id port v : Nat) (s : State) : Out :=
  .next (s.mi mic false fun s =>
    if id = 1 ∧ port = 0 ∧ 1 ≤ v ∧ v ≤ 3 then (s.modMgmt fun m => { m with freq := v }).answerMctp (miOk 0 [])
    else if id = 2 then
      (s.modMgmt fun m => { m with
        healthEnable := v % 65536, healthSeen := some (m.healthSeen.getD s.health) }).answerMctp (miOk 0 [])
    else if id = 3 ∧ (s.miPort port).isSome = true ∧ v = 64 then s.answerMctp (miOk 0 [])
    else s.answerMctp miInvalidParameter)

/-- CONFIGURATION_GET. -/
def execConfigurationGet (mic : Bool) (id port : Nat) (s : State) : Out :=
  .next (s.mi mic false fun s =>
    if id = 1 ∧ port = 0 then s.answerMctp (miOk s.mgmt.freq [])
    else if id = 2 then s.answerMctp (miOk s.mgmt.healthEnable [])
    else if id = 3 ∧ (s.miPort port).isSome = true then s.answerMctp (miOk 64 [])
    else s.answerMctp miInvalidParameter)

/-- VPD_READ. -/
def execVpdRead (mic : Bool) (off len : Nat) (s : State) : Out :=
  .next (s.mi mic true fun s =>
    if off + len ≤ 256 then s.answerMctp (miOk 0 (((fitTo 256 Config.vpd).drop off).take len)) else s.answerMctp miInvalidParameter)

/-- NVME_MI_RESET (R486): type 0, an NVM Subsystem Reset; the management mailbox is not reset. -/
def execNvmeMiReset (mic : Bool) (typ : Nat) (s : State) : Out :=
  .next (s.mi mic false fun s => if typ = 0 then (subsystemReset s).answerMctp (miOk 0 []) else s.answerMctp miInvalidParameter)

/-- Flow estimate in mL/min (R451, R484). -/
def Power.flowMl (p : Power) : Nat :=
  if p.tOutlet - p.tInlet < 1 then 0xFFFF else min 0xFFFE (p.draw * 60 / (4186 * (p.tOutlet - p.tInlet).toNat))

/-- Flash packages fitted. -/
def Part.packages : Part → Nat
  | .p064 => 16
  | .p128 => 32
  | .p256 => 64

/-- 42 V absent or the module in Ebony. -/
def State.mainOff (s : State) : Bool := !s.mainOn || s.power.ladder == 5

/-- The sensor report (R484). `rails`: the readings of the eight rails. With MAIN_OFF only the input fields are valid: the other
readings are free values. -/
def State.sensors (s : State) (rails : Bytes) : Bytes :=
  let p := s.power
  let off := s.mainOff
  let g (k : Nat) (b : Bytes) : Bytes := if off then freeBytes (s.free + k) b.length else b
  leBytes 2 1 ++ leBytes 1 s.part.packages ++ leBytes 1 (b2n off) ++ leBytes 2 p.volts ++ leBytes 2 p.amps ++ leBytes 4 p.draw
    ++ g 0 (leBytes 2 (min 65535 p.holdupMj)) ++ g 1 (leBytes 2 p.flowMl) ++ List.replicate 16 0 ++ g 2 (fitTo 32 rails)
    ++ g 3 (fitTo 8 p.temps) ++ List.replicate 8 0
    ++ g 4 ((List.range 64).flatMap fun i => if i < s.part.packages then leInt 1 (Tab.get 0 s.mgmt.flashTemps i) else [0x80])
    ++ List.replicate 112 0

/-- SENSOR_READ. -/
def execSensorRead (mic : Bool) (rails : Bytes) (s : State) : Out :=
  .next (s.mi mic true fun s => (s.answerMctp (miOk 0 (s.sensors rails))).used.used.used.used.used)

/-- A tunnelled Admin command (R482). `d`: its data. -/
def tunnelled (fn : Nat) (e : Sqe) (d : Bytes) : Admin :=
  let fid := bits e.cdw10 0 8
  match e.opc with
  | 0x06 => admIdentify fn e
  | 0x02 => if [0x01, 0x02, 0xC0, 0xC1].contains fid then admGetLogPage fn e else Admin.refuse .invalidField St.unsupported
  | 0x0A => admGetFeatures fn e
  | 0x09 =>
    if fid = 0x04 then admSetFeatures fn e
    else if fid = 0x0E then admTimestamp d
    else Admin.refuse .invalidField St.unsupported
  | _ => Admin.refuse .invalidOpcode St.unsupported

/-- NVME_MI_ADMIN_COMMAND: served while the named controller has CSTS.RDY set. -/
def execNvmeMiAdminCommand (mic : Bool) (ctrl : Nat) (e : Sqe) (d : Bytes) (s : State) : Out :=
  .next (s.mi mic false fun s =>
    if ctrl ≤ 1 ∧ s.ctrlServes ctrl = true then
      let (s, c, b) := tunnelled ctrl e d s
      s.reply (.completion { c with cid := e.cid } b)
    else s.answerMctp miInternalError)

/-- The Management Interface commands that are served. -/
def miOpcodes : List Nat := [0x00, 0x01, 0x02, 0x03, 0x04, 0x05, 0x07, 0xC0]

/-- NVME_MI_UNSUPPORTED_COMMAND: any other opcode. -/
def execNvmeMiUnsupportedCommand (mic : Bool) (opc : Nat) (s : State) : Out :=
  .next (if miOpcodes.contains opc then s else s.mi mic true fun s => s.answerMctp miInvalidOpcode)

/-! ## SPDM (R474, R475, R485) -/

/-- A SPDM 1.2 message. -/
def spdmMsg (code p1 p2 : Nat) (b : Bytes) : Bytes := [0x12] ++ leBytes 1 code ++ leBytes 1 p1 ++ leBytes 1 p2 ++ b
/-- ERROR with its code and data. -/
def spdmError (code data : Nat) : Bytes := spdmMsg 0x7F code data []

/-- A SPDM request over the sideband: ERROR Busy where no keeper and no boot ROM runs. -/
def State.spdm (s : State) (f : State → State × Bytes) : State :=
  if !s.sideband then s
  else if s.keepersOff then s.answerMctp (spdmError 0x03 0)
  else
    let (s, b) := f s
    s.answerMctp b

/-- Change what the requester has negotiated. -/
def State.modSpdm (s : State) (f : Spdm → Spdm) : State := s.modMgmt fun m => { m with spdm := f m.spdm }

/-- A request that needs the negotiation done: ERROR UnexpectedRequest before it. -/
def afterAlgos (f : State → State × Bytes) (s : State) : State × Bytes :=
  if s.mgmt.spdm.algosDone then f s else (s, spdmError 0x04 0)

/-- GET_VERSION: 1.2; the negotiation begins again. -/
def execGetVersion (s : State) : Out :=
  .next (s.spdm fun s => (s.modSpdm fun _ => { versionAsked := true }, [0x10, 0x04, 0, 0, 0, 1, 0x00, 0x12]))

/-- Is attestation offered? (R90) -/
def State.attests (s : State) : Bool := s.sec.phase == .recovery || s.cap 13

/-- CAPABILITIES flags: certificates; challenge and signed measurements while ATTEST is enabled. -/
def State.spdmFlags (s : State) : Nat := 2 + (if s.attests then 4 + 16 else 0)

/-- GET_CAPABILITIES: `ver`, the version byte of the request. -/
def execGetCapabilities (ver : Nat) (s : State) : Out :=
  .next (s.spdm fun s =>
    if ver ≠ 0x12 then (s, spdmError 0x41 0)
    else if !s.mgmt.spdm.versionAsked then (s, spdmError 0x04 0)
    else (s.modSpdm fun x => { x with capsGiven := true },
      spdmMsg 0x61 0 0 ([0] ++ leBytes 1 (Config.spdmLimits 0) ++ [0, 0] ++ leBytes 4 s.spdmFlags ++ leBytes 4 (Config.spdmLimits 1)
        ++ leBytes 4 (Config.spdmLimits 2))))

/-- NEGOTIATE_ALGORITHMS: `asym`, `hash`, `meas`: the masks the requester offers. ECDSA P-256 is bit 4 and SHA-256 bit 0. -/
def execNegotiateAlgorithms (asym hash meas : Nat) (s : State) : Out :=
  .next (s.spdm fun s =>
    if !s.mgmt.spdm.capsGiven then (s, spdmError 0x04 0)
    else (s.modSpdm fun x => { x with algosDone := bit asym 4 && bit hash 0 },
      spdmMsg 0x63 0 0 (leBytes 2 36 ++ leBytes 1 (meas % 2) ++ [0] ++ leBytes 4 2 ++ leBytes 4 (16 * b2n (bit asym 4))
        ++ leBytes 4 (b2n (bit hash 0)) ++ List.replicate 16 0)))

/-- Digest of the certificate chain of slot 0. -/
def chainDigest : Bytes := leBytes 32 (Config.sha256 Config.certChain)

/-- GET_DIGESTS. -/
def execGetDigests (s : State) : Out := .next (s.spdm (afterAlgos fun s => (s, spdmMsg 0x01 0 1 chainDigest)))

/-- GET_CERTIFICATE: `len` bytes of slot 0 from `off`. -/
def execGetCertificate (slot off len : Nat) (s : State) : Out :=
  .next (s.spdm (afterAlgos fun s =>
    if slot ≠ 0 ∨ Config.certChain.length ≤ off then (s, spdmError 0x01 0)
    else
      let b := (Config.certChain.drop off).take len
      (s, spdmMsg 0x02 0 0 (leBytes 2 b.length ++ leBytes 2 (Config.certChain.length - off - b.length) ++ b))))

/-- Measurement 7: 0 normal, 1 Held, 2 recovery. -/
def State.bootState (s : State) : Nat := if s.sec.phase = .recovery then 2 else b2n s.isHeld

/-- A SHA-256 digest of what stands, or 32 zero bytes. -/
def digestOr (b : Option Bytes) : Bytes := match b with
  | some b => leBytes 32 (Config.sha256 b)
  | none => List.replicate 32 0

/-- A measurement: is it raw, and its value. In recovery no image runs. -/
def State.measurement (s : State) (k : Nat) : Bool × Bytes :=
  let x := s.sec
  let runs := x.phase != .recovery
  match k with
  | 1 => (false, digestOr (some Config.bootRom))
  | 2 => (false, digestOr (if runs then some x.header else none))
  | 3 => (true, leBytes 4 (if runs then x.svn else 0) ++ leBytes 1 x.counter)
  | 4 => (false, digestOr x.config)
  | 5 => (false, digestOr (if x.owned && x.held != 3 then some (leBytes 64 x.ownerKey) else none))
  | 6 => (true, leBytes 2 Config.mediaRomVersion)
  | _ => (true, leBytes 1 s.bootState)

/-- A measurement block. -/
def State.measureBlock (s : State) (k : Nat) : Bytes :=
  let (raw, v) := s.measurement k
  leBytes 1 k ++ [1] ++ leBytes 2 (v.length + 3) ++ leBytes 1 (k - 1 + 128 * b2n raw) ++ leBytes 2 v.length ++ v

/-- Every measurement. -/
def State.measures (s : State) : Bytes := (List.range 7).flatMap fun i => s.measureBlock (i + 1)

/-- Sign a response under the device key; `before`: the messages that precede it in the transcript. -/
def spdmSigned (before b : Bytes) : Bytes := b ++ leBytes 64 (Config.ecdsaSign Config.deviceKey (Config.sha256 (before ++ b)))

/-- CHALLENGE. `summary`: a measurement summary is asked for; `before`: the transcript so far. -/
def execChallenge (slot : Nat) (summary : Bool) (before : Bytes) (s : State) : Out :=
  .next (s.spdm fun s =>
    if !s.attests then (s, spdmError 0x07 0x83)
    else afterAlgos (fun s =>
      if slot ≠ 0 then (s, spdmError 0x01 0)
      else
        let nonce := leBytes 32 (Config.random s.free)
        (s.used, spdmSigned before (spdmMsg 0x03 0 1 (chainDigest ++ nonce
          ++ (if summary then leBytes 32 (Config.sha256 s.measures) else []) ++ [0, 0])))) s)

/-- GET_MEASUREMENTS. `op`: 0 their number, 1 to 7 one of them, 255 all. -/
def execGetMeasurements (op : Nat) (sign : Bool) (before : Bytes) (s : State) : Out :=
  .next (s.spdm fun s =>
    if !s.attests then (s, spdmError 0x07 0xE0)
    else afterAlgos (fun s =>
      if 7 < op ∧ op ≠ 255 then (s, spdmError 0x01 0)
      else
        let nonce := leBytes 32 (Config.random s.free)
        let r := if op = 0 then [] else if op = 255 then s.measures else s.measureBlock op
        let n := if op = 0 then 0 else if op = 255 then 7 else 1
        let b := spdmMsg 0x60 (if op = 0 then 7 else 0) 0 (leBytes 1 n ++ leBytes 3 r.length ++ r ++ nonce ++ [0, 0])
        (s.used, if sign then spdmSigned before b else b)) s)

/-- KEY_EXCHANGE: answered with ERROR UnsupportedRequest over MCTP. On a span port (`port`) it belongs to step 3 of R407: a fresh
key, signed, while the port is up. -/
def execKeyExchange (port : Option (Fin 2)) (before : Bytes) (s : State) : Out :=
  .next (match port with
    | none => s.spdm fun s => (s, spdmError 0x07 0xE4)
    | some p =>
      if s.serving && (s.span.port p).link == .up then
        let b := spdmMsg 0x64 0 0 (leBytes 32 (Config.random s.free) ++ leBytes 64 (Config.publicOf (Config.random (s.free + 1))))
        s.used.used.reply (.data (spdmSigned before b))
      else s)

end Sys2Proof.Machine
end

