-- ==== Sys2Proof/Machine/Registers.lean ====
section
/-! DEFINITION. The register blocks by address, BAR accesses, and accesses to the module address map (R14, R30-R34, R40, R204, R234,
R276, R303, R326, R423, R438). -/

namespace Sys2Proof.Machine

/-! ## Blocks that a cluster has (R204, R234, R276, R303) -/

/-- The gang that an MXU belongs to. -/
def Cluster.gangOf (c : Cluster) (m : Nat) : Gang := c.gangAt (if c.gang = 0 then m else if c.gang = 1 then m / 2 * 2 else 0)
/-- Is an MXU the lowest of its gang, whose operation queue is the gang's? (R186) -/
def Cluster.leads (c : Cluster) (m : Nat) : Bool := if c.gang = 0 then true else if c.gang = 1 then m % 2 == 0 else m == 0

/-- CL_STATUS. -/
def Cluster.statusWord (c : Cluster) : Nat :=
  ((List.range 4).map fun m => (if c.leads m then 2 ^ (4 * m) * min 8 (c.gangAt m).queue.length else 0) + 2 ^ (16 + m) * b2n (!(c.gangOf m).active.isEmpty)).sum
    + 2 ^ 20 * c.mvQueued + 2 ^ 25 * b2n c.waiting.isSome + 2 ^ 26 * b2n c.halted

/-- A cluster register. -/
def clRegRead (s : State) (g off : Nat) : Nat :=
  let c := s.cluster g
  match off with
  | 0x00 => b2n c.enable + 2 * b2n c.halt
  | 0x04 => c.statusWord
  | 0x08 => c.cfgWord
  | 0x0C => c.faultSt + 2 ^ 16 * b2n c.faultFirst + 2 ^ 17 * b2n c.faultMultiple
  | 0x10 => c.entry
  | 0x18 => c.rowCycles
  | 0x20 => c.gatedColumns
  | _ => 0

/-- The fields of the cluster registers without a row: CL_FAULT and CL_ENTRY. -/
def clRegWrite (g off v : Nat) (s : State) : State :=
  match off with
  | 0x0C => s.modCl g fun c => { c with
      faultFirst := c.faultFirst && !bit v 16, faultMultiple := c.faultMultiple && !bit v 17
      faultSt := if bit v 16 then 0 else c.faultSt }
  | 0x10 => s.modCl g fun c => if c.halted || !c.enable then { c with entry := bits v 2 46 * 4 } else c
  | _ => s

/-- A conversion counter. -/
def cvRegRead (s : State) (g off : Nat) : Nat :=
  let c := s.cluster g
  match off with
  | 0x00 => c.cvSat
  | 0x08 => c.cvWidened + 2 ^ 16 * c.cvNonfinite
  | 0x0C => c.cvLast
  | _ => 0

/-- A scratchpad register. -/
def spRegRead (s : State) (g off : Nat) : Nat :=
  let c := s.cluster g
  match off with
  | 0x04 => b2n c.pwrBusy + 2 * b2n c.clearing + 2 ^ 16 * c.pwrSt
  | 0x08 => c.pwrBank + 2 ^ 8 * b2n c.pwrUp + 2 ^ 9 * b2n c.pwrForce
  | 0x10 => ((List.range 24).map fun b => 4 ^ b * (c.bank b).code).sum
  | 0x18 => c.retireBank
  | 0x20 => c.slotLimit
  | 0x28 => c.parAddr + 2 ^ 25 * b2n c.parFirst + 2 ^ 26 * b2n c.parMultiple + 2 ^ 27 * b2n c.parResident + 2 ^ 48 * c.parErrors
  | 0x30 => 2 ^ 16 * c.postedFull + 2 ^ 32 * c.overruns + 2 ^ 48 * c.underruns
  | 0x38 => min (2 ^ 64 - 1) (c.narrowWait + Config.waited g (0x1000 + off) s.free s.fabric.cd0.now)
  | 0x40 => c.dropped
  | n => if 0x100 ≤ n ∧ n < 0x160 then Tab.get 0 c.resident ((n - 0x100) / 4) else 0

/-- The fields of the scratchpad registers without a row: those of SP_BANK_PWR and SP_RETIRE while GO is written 0, and SP_PARITY. -/
def spRegWrite (g off v : Nat) (s : State) : State :=
  match off with
  | 0x08 => if bit v 31 then s else s.modCl g fun c => { c with pwrBank := v % 32, pwrUp := bit v 8, pwrForce := bit v 9 }
  | 0x18 => if bit v 31 then s else s.modCl g fun c => { c with retireBank := v % 32 }
  | 0x28 => s.modCl g fun c => { c with
      parFirst := c.parFirst && !bit v 25, parMultiple := c.parMultiple && !bit v 26
      parAddr := if bit v 25 then 0 else c.parAddr, parResident := c.parResident && !bit v 25 }
  | _ => s

/-- A mover register. A stall counter holds what the model counts and a free number of cycles beside it (R294, log 35). -/
def mvRegRead (s : State) (g off : Nat) : Nat :=
  let c := s.cluster g
  match off with
  | 0x00 => b2n c.mvEnable
  | 0x04 => c.mvQueued + 2 ^ 5 * c.mvActive + 2 ^ 16 * (c.mvDone % 65536)
  | 0x08 => c.mvSt + 2 ^ 16 * b2n c.mvFirst + 2 ^ 17 * b2n c.mvMultiple
  | 0x50 => c.cleanSkipped + 2 ^ 32 * c.writtenBack
  | 0x58 => c.fallback
  | n => if 0x20 ≤ n ∧ n < 0x50 ∧ n % 8 = 0 then
      min (2 ^ 64 - 1) (Tab.get 0 c.stalls ((n - 0x20) / 8) + Config.waited g n s.free s.fabric.cd0.now)
    else 0

/-- MV_ERR. -/
def mvRegWrite (g off v : Nat) (s : State) : State :=
  match off with
  | 0x08 => s.modCl g fun c => { c with
      mvFirst := c.mvFirst && !bit v 16, mvMultiple := c.mvMultiple && !bit v 17, mvSt := if bit v 16 then 0 else c.mvSt }
  | _ => s

/-! ## Blocks of regions and of HD -/

/-- A region selection unit's register. -/
def selRegRead (s : State) (u off : Nat) : Nat :=
  let x := s.selUnit u
  match off with
  | 0x0 => b2n x.enable + 4 * b2n x.gather
  | 0x4 => x.status
  | 0x8 => x.counts
  | _ => 0

/-- The session engine's block. -/
def seRegRead (s : State) (off : Nat) : Nat :=
  match off with
  | 0x0 => s.tiers.states
  | 0x8 => s.tiers.eventsWord
  | _ => 0

/-- The tokenizer unit's block. -/
def tkRegRead (s : State) (off : Nat) : Nat :=
  let q (enc : Bool) : Nat := min 4095 (s.tokens.queue.filter fun x => x.2.1 == enc).length
  match off with
  | 0x0 => q true + 2 ^ 12 * q false
  | 0x8 => min (2 ^ 32 - 1) s.tokens.forcedSplits + 2 ^ 32 * min (2 ^ 32 - 1) s.tokens.replaced
  | _ => 0

/-! ## Addresses (R30) -/

/-- A register block: how it is read and written at an offset, and which of its registers are 64 bits wide; `keep`: a half that is not
written keeps its value, where the register has RW fields. -/
structure RegBlock where
  read : State → Nat → Nat := fun _ _ => 0
  write : Nat → Nat → State → State := fun _ _ s => s
  wide : List Nat := []
  keep : List Nat := []

/-- Blocks of a compute die: the block and the offset in it, by the offset in the die's device registers. -/
def cdBlock (d : Die) (off : Nat) : Option (RegBlock × Nat) :=
  let base := if d = .cd0 then 0 else 64
  let k := off / 0x100000
  let o := off % 0x100000
  if k = 1 then
    if o < 0x40000 then some ({ read := fun s => clRegRead s (base + o / 0x1000), write := clRegWrite (base + o / 0x1000)
                                wide := [0x10, 0x18, 0x20], keep := [0x10] }, o % 0x1000)
    else if o < 0x44000 then some ({ read := fun s => cvRegRead s (base + (o - 0x40000) / 0x100), wide := [0x00] }, o % 0x100)
    else none
  else if k = 2 ∧ o < 0x40000 then
    some ({ read := fun s => spRegRead s (base + o / 0x1000), write := spRegWrite (base + o / 0x1000)
            wide := [0x10, 0x28, 0x30, 0x38] }, o % 0x1000)
  else if k = 3 ∧ o < 0x8000 then
    some ({ read := fun s => selRegRead s (base / 8 + o / 0x1000) }, o % 0x1000)
  else if k = 4 then some ({ read := fun s n => Tab.get 0 (s.cluster (base + o / 0x4000)).slots (n / 4) }, o % 0x4000)
  else if k = 6 ∧ o < 0x40000 then
    some ({ read := fun s => mvRegRead s (base + o / 0x1000), write := mvRegWrite (base + o / 0x1000)
            wide := [0x20, 0x28, 0x30, 0x38, 0x40, 0x48, 0x50] }, o % 0x1000)
  else if k = 7 ∧ o < 0x8000 then
    some ({ read := fun s => uuRegRead s (base / 8 + o / 0x1000), wide := [0x08, 0x10] }, o % 0x1000)
  else if k = 8 ∧ o < 0x1000 then
    some ({ read := fun s => fcRegRead s d, write := fcRegWrite d, wide := [0x00, 0x18], keep := [0x00] }, o)
  else none

/-- Blocks of HD. -/
def hdBlock (off : Nat) : Option (RegBlock × Nat) :=
  let k := off / 0x100000
  let o := off % 0x100000
  if k = 4 then
    if o < 0x20000 then
      let ch := o / 0x1000
      let n := o % 0x1000
      if 0x100 ≤ n ∧ n < 0x110 then some ({ read := fun s => xqRegRead s ch, write := xqRegWrite ch }, n - 0x100)
      else some ({ read := fun s => cpRegRead s ch, write := cpRegWrite ch, wide := [0x00, 0x08], keep := [0x00, 0x08] }, n)
    else if 0x40200 ≤ o ∧ o < 0x40400 then
      let q := (o - 0x40000) / 16
      some ({ read := fun s => xqRegRead s q, write := xqRegWrite q }, o % 16)
    else none
  else if k = 5 ∧ o < 0x1000 then some ({ read := msRegRead, wide := [0x8] }, o)
  else if k = 6 ∧ o < 0x1000 then some ({ read := seRegRead, wide := [0x0, 0x8] }, o)
  else if k = 7 ∧ o < 0x1000 then some ({ read := tkRegRead, wide := [0x8] }, o)
  else if k = 8 then
    if o < 0x20000 then
      some ({ read := fun s => mrRegRead s (o / 0x1000), write := mrRegWrite (o / 0x1000), wide := [0x00, 0x08, 0x20]
              keep := [0x00, 0x08] }, o % 0x1000)
    else if o < 0x21000 then some ({ read := mrCommonRead, write := mrCommonWrite, wide := [0x00], keep := [0x00] }, o - 0x20000)
    else none
  else if k = 9 ∧ o < 0x2000 then some ({ read := fun s => slRegRead s (o / 0x1000), wide := [0x08, 0x10, 0x18] }, o % 0x1000)
  else if k = 0xA ∧ o < 0x1000 then
    some ({ read := fun s => fcRegRead s .hd, write := fcRegWrite .hd, wide := [0x00, 0x18], keep := [0x00] }, o)
  else if k = 0xB ∧ o < 0x1000 then some ({ read := pmRegRead, wide := [0x18] }, o)
  else none

/-- The block of an offset in a die's device registers. -/
def devBlock (d : Die) (off : Nat) : Option (RegBlock × Nat) := if d = .hd then hdBlock off else cdBlock d off

/-- Does a BAR offset's access obey R34? The mailbox data registers take 64-bit accesses only, the other mailbox registers 32-bit ones
only. -/
def barFits (bar off n : Nat) : Bool :=
  (n == 4 || n == 8) && off % n == 0
    && (bar != 1 || decide (0x30 ≤ off) || (n == 8) == (decide (0x10 ≤ off) && decide (off < 0x20)))

/-- 32 bits of a block at a multiple of 4. -/
def RegBlock.read32 (b : RegBlock) (s : State) (off : Nat) : Nat :=
  if b.wide.contains off then b.read s off % 2 ^ 32
  else if 4 ≤ off ∧ b.wide.contains (off - 4) = true then b.read s (off - 4) / 2 ^ 32 % 2 ^ 32
  else b.read s off % 2 ^ 32

/-- Write 32 bits of a block at a multiple of 4. -/
def RegBlock.write32 (b : RegBlock) (off v : Nat) (s : State) : State :=
  if b.wide.contains off then
    b.write off (v + (if b.keep.contains off then b.read s off / 2 ^ 32 * 2 ^ 32 else 0)) s
  else if 4 ≤ off ∧ b.wide.contains (off - 4) = true then
    b.write (off - 4) (v * 2 ^ 32 + (if b.keep.contains (off - 4) then b.read s (off - 4) % 2 ^ 32 else 0)) s
  else b.write off v s

/-- Read `n` bytes of a block, 4 or 8. -/
def RegBlock.readN (b : RegBlock) (s : State) (off n : Nat) : Nat :=
  if n = 8 then b.read32 s off + 2 ^ 32 * b.read32 s (off + 4) else b.read32 s off

/-- Write `n` bytes of a block, 4 or 8: a 64-bit register whole. -/
def RegBlock.writeN (b : RegBlock) (off n v : Nat) (s : State) : State :=
  if n = 8 then
    if b.wide.contains off then b.write off v s
    else b.write32 (off + 4) (v / 2 ^ 32 % 2 ^ 32) (b.write32 off (v % 2 ^ 32) s)
  else b.write32 off (v % 2 ^ 32) s

/-! ## The BARs (R33, R34) -/

/-- The NVMe registers whose values the spec gives (R56, R68): CAP, VS, CC.EN, CSTS, AQA. -/
def nvmeRegRead (s : State) (fn off : Nat) : Nat :=
  let c := s.ctrl fn
  let size (n : Option Nat) : Nat := n.getD 1 - 1
  match off with
  | 0x00 => 65535 + 2 ^ 16 + 60 * 2 ^ 24 + 2 ^ 36 + 2 ^ 37 + 4 * 2 ^ 52
  | 0x08 => 0x00020000
  | 0x14 => b2n c.en
  | 0x1C => b2n c.rdy + 2 * b2n c.cfs
  | 0x24 => size ((Tab.find c.sqs 0).map (·.size)) + 2 ^ 16 * size ((Tab.find c.cqs 0).map (·.size))
  | _ => 0

/-- BAR2/3: the mailbox. -/
def mbBlock (fn : Nat) : RegBlock := { read := fun s => mbRegRead s fn, write := mbRegWrite fn }

/-- A 32-bit word of BAR4/5: the MSI-X table and the pending bits. -/
def msixRead (s : State) (fn off : Nat) : Nat :=
  if off < 16 * (s.host.lastVector + 1) then Tab.get (2 ^ 96) s.fabric.msixTable (fn * 2048 + off / 16) / 2 ^ (8 * (off % 16)) % 2 ^ 32
  else if 0x8000 ≤ off ∧ off < 0x8000 + (s.host.lastVector + 1) / 8 then
    ((List.range 32).map fun i => 2 ^ i * b2n (Tab.get false s.fabric.msixPending (fn * 2048 + (off - 0x8000) * 8 + i))).sum
  else 0

/-- A write to the MSI-X table: of the vector control word only the mask bit; a vector that pends is sent once it is unmasked. -/
def msixWrite (fn off v : Nat) (s : State) : State :=
  if off < 16 * (s.host.lastVector + 1) then
    let k := fn * 2048 + off / 16
    let w := if off % 16 = 12 then v % 2 else v
    let old := Tab.get (2 ^ 96) s.fabric.msixTable k
    let sh := 8 * (off % 16)
    let new := old - old / 2 ^ sh % 2 ^ 32 * 2 ^ sh + w * 2 ^ sh
    let s := s.modFabric fun f => { f with msixTable := Tab.set (2 ^ 96) f.msixTable k new }
    if !bit new 96 && Tab.get false s.fabric.msixPending k then
      (s.modFabric fun f => { f with msixPending := Tab.set false f.msixPending k false }).signal fn (off / 16)
    else s
  else s

/-- The block of a BAR; the local count is read by its own rule. -/
def barBlock (fn : Nat) : Nat → RegBlock
  | 0 => { read := fun s => nvmeRegRead s fn, wide := [0x00] }
  | 1 => mbBlock fn
  | _ => { read := fun s => msixRead s fn, write := msixWrite fn }

/-- LOCAL_COUNT_LO and LOCAL_COUNT_HI of a die (R40). -/
def countRead (d : Die) (off n : Nat) (s : State) : State :=
  if off = 0 then countLoRead d (n == 8) s
  else s.reply (.value (match d with
    | .cd0 => s.fabric.cd0.latch
    | .cd1 => s.fabric.cd1.latch
    | .hd => s.fabric.hd.latch))

/-- Does a function answer at its BARs: it exists, and configuration space answers? (R52) -/
def State.barUp (s : State) (fn : Nat) : Bool := s.hasFn fn && (s.ctrl fn).cfg && s.alive

/-- A register of a function's configuration space (R53): 512 B of payload at most, 10-bit tags, ASPM L1 without L0s, ECRC; the
places of the fields are the PCIe base specification's (PRESUMED, log 92). -/
def cfgRead (s : State) (fn : Nat) (r : CfgReg) : Nat :=
  let c := s.ctrl fn
  match r with
  | .vendorId => Config.vendorId
  | .subsystemVendorId => Config.vendorId
  | .deviceCap => 2 + 2 ^ 28
  | .deviceCtl => c.devCtl
  | .deviceCap2 => 3 * 2 ^ 16
  | .deviceCtl2 => c.devCtl2
  | .linkCap => 6 + 16 * s.host.portWidths.headD 0 + 2 ^ 11
  | .linkCtl => c.linkCtl
  | .linkStatus => c.speed + 16 * c.width
  | .aerCtl => 0xA0 + c.aerCtl

/-- Device Control as written: a payload size above 512 B or a request size above 4,096 B leaves its field (R53). -/
def devCtlWrite (old v : Nat) : Nat :=
  let mps := if bits v 5 3 ≤ 2 then bits v 5 3 else bits old 5 3
  let mrrs := if bits v 12 3 ≤ 5 then bits v 12 3 else bits old 12 3
  bits v 0 5 + 32 * mps + 2 ^ 8 * bits v 8 4 + 2 ^ 12 * mrrs

/-- A write of a register of configuration space. -/
def cfgWrite (fn : Nat) (r : CfgReg) (v : Nat) (s : State) : State :=
  match r with
  | .deviceCtl => s.modCtrl fn fun c => { c with devCtl := devCtlWrite c.devCtl v }
  | .deviceCtl2 => s.modCtrl fn fun c => { c with devCtl2 := v &&& 0x1000 }
  | .linkCtl => s.modCtrl fn fun c => { c with linkCtl := v &&& 2 }
  | .aerCtl => s.modCtrl fn fun c => { c with aerCtl := v &&& 0x140 }
  | _ => s

/-- A configuration request (R52): until configuration space answers it is completed with Request Retry Status. `v`: the value of a
write. -/
def cfgAccess (fn : Nat) (r : CfgReg) (v : Option Nat) (s : State) : State :=
  if !s.hasFn fn then s.reply .unsupportedRequest
  else if !s.barUp fn then s.reply .requestRetry
  else match v with
    | none => s.reply (.value (cfgRead s fn r))
    | some v => cfgWrite fn r v s

/-- A read of `n` bytes at a BAR offset. Before configuration space answers no BAR is enabled: the access is an Unsupported Request
(PRESUMED, log 92). -/
def barRead (fn bar off n : Nat) (s : State) : State :=
  if !s.barUp fn then s.reply .unsupportedRequest
  else if !barFits bar off n || decide (0x10000 ≤ off) then s.reply .unsupportedRequest
  else if bar = 1 ∧ off = 0x18 then
    (s.modMb fn fun m => m.dataOut.1).reply (.value (s.amp.mb fn).dataOut.2)
  else if bar = 1 ∧ (off = 0x1000 ∨ off = 0x1004) then countRead .hd (off - 0x1000) n s
  else s.reply (.value ((barBlock fn bar).readN s off n))

/-- A write of `n` bytes at a BAR offset, to registers without a row of their own. -/
def barWrite (fn bar off n v : Nat) (s : State) : State :=
  if !s.barUp fn then s.reply .unsupportedRequest
  else if !barFits bar off n || decide (0x10000 ≤ off) then s.reply .unsupportedRequest
  else (barBlock fn bar).writeN off n v s

/-! ## REGISTER_WRITE (R14) -/

/-- A write to a device register by a unit of the module: the registers answer to keeper firmware, the ONFI registers to media ROM code
alone (R32). The spec says nothing of what those registers hold, so a write by media ROM code is taken and leaves no trace here; an
offset that no chapter gives a block ignores a keeper's write, as reserved BAR offsets do (DESIGN CHOICE, log 90). -/
def devWrite (r : Requester) (d : Die) (off n v : Nat) (s : State) : State :=
  let onfi := decide (d = .hd) && Config.onfi off
  match r with
  | .keeper =>
    if onfi then s.reply (.busError St.addrDenied)
    else match devBlock d off with
      | some (b, o) => b.writeN o n v s
      | none => s
  | .mediaRom => if onfi then s else s.reply (.busError St.addrDenied)
  | _ => s.reply (.busError St.addrDenied)

/-- Is the address in a die's device registers? -/
def devPlace (a : Nat) : Option (Die × Nat) :=
  match place a with
  | .dev d off => some (d, off)
  | _ => none

/-- REGISTER_WRITE: `n` bytes, 4 or 8 for a register, at a module address, a BAR offset, or a register of configuration space. A unit's
access of another width or alignment is denied, as the spec states no answer for it (DESIGN CHOICE, log 90). An address that holds no
register takes the bus error of R32 where it has one; a write of memory is BUS_ACCESS. -/
def execRegisterWrite (q : BusReq) (a n v : Nat) (s : State) : Out :=
  .next (match q with
    | .host fn bar => barWrite fn bar a n v s
    | .config fn r => cfgAccess fn r (some v) s
    | .unit r =>
      if !s.alive then s else
      match devPlace a with
      | some (d, off) => if (n = 4 ∨ n = 8) ∧ a % n = 0 then devWrite r d off n v s else s.reply (.busError St.addrDenied)
      | none =>
        let st := s.accessSt r true a n
        if st = St.ok ∨ st = St.bankOff then s else s.reply (.busError st))

/-! ## BUS_ACCESS (R32, R423) -/

/-- A read of a device register. What the ONFI registers answer to media ROM code the spec does not say: a free value. An offset that no
chapter gives a block reads 0 to the keeper (DESIGN CHOICE, log 90). -/
def devRead (r : Requester) (d : Die) (off n : Nat) (s : State) : State :=
  match r with
  | .keeper =>
    if off = 0 ∨ off = 4 then countRead d off n s
    else match devBlock d off with
      | some (b, o) => s.reply (.value (b.readN s o n))
      | none => if d = .hd ∧ Config.onfi off = true then s.reply (.busError St.addrDenied) else s.reply (.value 0)
  | .mediaRom => if d = .hd ∧ Config.onfi off = true then s.used.reply (.value s.freeNum) else s.reply (.busError St.addrDenied)
  | _ => s.reply (.busError St.addrDenied)

/-- The cluster whose step meets a bad word. -/
def reqCluster : Requester → Option Nat
  | .steward g => some g.val
  | .mover g => some g.val
  | _ => none

/-- A read of memory: the data, or a bus error with its ST code. -/
def memRead (r : Requester) (a n : Nat) (s : State) : State :=
  let (st, t) := s.checkRead r (reqCluster r) a n
  if st = St.ok then t.reply (.data (s.bytesAt a n)) else t.reply (.busError st)

/-- A write of memory: it changes nothing where it is refused; a write to a bank that is off is dropped and counted (R273). -/
def memWrite (r : Requester) (a : Nat) (b : Bytes) (s : State) : State :=
  let st := s.accessSt r true a b.length
  if st = St.ok then s.storeMerge (reqCluster r) a b
  else if st = St.bankOff then (s.dropWrites a 1).reply (.busError st)
  else s.reply (.busError st)

/-- BUS_ACCESS: a read of `n` bytes at `a`, or with `w` a write of those bytes. A unit's access to a device register that is not 4 or 8
bytes, or not aligned, is denied: the spec states widths for BAR accesses only (DESIGN CHOICE, log 90). -/
def execBusAccess (q : BusReq) (a n : Nat) (w : Option Bytes) (s : State) : Out :=
  .next (if !s.alive then s else
    match q, w with
    | .host fn bar, none => barRead fn bar a n s
    | .host fn bar, some b => barWrite fn bar a b.length (leNat b) s
    | .config fn r, none => cfgAccess fn r none s
    | .config fn r, some b => cfgAccess fn r (some (leNat b)) s
    | .unit r, none =>
      match devPlace a with
      | some (d, off) => if (n = 4 ∨ n = 8) ∧ a % n = 0 then devRead r d off n s else s.reply (.busError St.addrDenied)
      | none => memRead r a n s
    | .unit r, some b =>
      match devPlace a with
      | some (d, off) =>
        if (b.length = 4 ∨ b.length = 8) ∧ a % b.length = 0 then devWrite r d off b.length (leNat b) s
        else s.reply (.busError St.addrDenied)
      | none => memWrite r a b s)

end Sys2Proof.Machine
end

