-- ==== Sys2Proof/Machine/Tuning.lean ====
section
/-! DEFINITION. The runtime library's services to programs on steward cores: the tuning allocation (R327), checkpoints (R338) and the
factor routine (R339-R341). -/

namespace Sys2Proof.Machine

/-- Trainable parameters that a module holds at once (R327). -/
def trainableLimit : Nat := 2147483648

/-- Round up to a multiple of 64. -/
def lineUp (n : Nat) : Nat := (n + 63) / 64 * 64

/-- Bytes of a trainable tensor: master, gradient and state parts, each 64 B aligned (R329). -/
def tuningBytes (elems states : Nat) : Nat := lineUp (2 * elems) + lineUp (partBytes elems) + lineUp (states * partBytes elems)

/-- The tuning allocation (R327): refused where it would exceed the parameter limit or the tensor pool, and nothing is allocated. The space
lies in one stack (R329), at the place the keeper chose; the program goes on when that place is free. -/
def State.tuneAlloc (s : State) (g : Nat) (elems states a : Nat) : State :=
  let n := tuningBytes elems states
  if !s.cap 7 || elems = 0 || elems % 32 ≠ 0 || 4 < states then s.ecallEnds g St.unsupported
  else if trainableLimit < s.tiers.trainable + elems || !s.fits 3 n then s.ecallEnds g St.noSpace
  else if a % 64 = 0 && s.freeRange a n && stackOf a == stackOf (a + n - 1) then
    ((s.take 3 a n).modTiers fun t => { t with tuning := Tab.put t.tuning a { bytes := n, elems := elems } }).ecallEnds g St.ok
  else s

/-- A tuning tensor is freed. -/
def State.tuneFree (s : State) (g a : Nat) : State :=
  if Tab.has s.tiers.tuning a then
    ((s.release a).modTiers fun t => { t with tuning := Tab.del t.tuning a }).ecallEnds g St.ok
  else s.ecallEnds g St.noObject

/-! ## Checkpoints (R338) -/

/-- The parts a checkpoint copies: master, then the state tensors. -/
def ckptParts (c : Ckpt) : List (Nat × Nat) := (c.master, 2 * c.count) :: (if c.states = 0 then [] else [(c.state, c.states * partBytes c.count)])

/-- The header before the copied bytes. -/
def ckptHeader (c : Ckpt) (seed : Nat) (b : Bytes) : Bytes :=
  leBytes 4 1 ++ leBytes 1 c.states ++ leBytes 3 0 ++ leBytes 8 c.count ++ leBytes 8 c.stepNo ++ leBytes 8 seed ++ leBytes 4 (crc32c b)
    ++ List.replicate 28 0

/-- LBAs that a checkpoint takes. -/
def ckptLbas (c : Ckpt) : Nat := (64 + ((ckptParts c).map (·.2)).sum + 4095) / 4096

/-- Write the LBAs from `lo` up to `hi` of a namespace, granule by granule; none where one cannot be placed now. -/
def writeLbas (nsid lo hi : Nat) (src : Nat → Bytes) (lost : List Nat) : List Nat → List Nat → State → Option (State × List Nat)
  | [], eus, s => some (s, eus)
  | k :: l, eus, s =>
    match s.commitPlaced (s.mergeUnits nsid (max lo (k * s.part.granule)) (min hi ((k + 1) * s.part.granule)) src lost) eus with
    | some (s, rest) => writeLbas nsid lo hi src lost l rest s
    | none => none

/-- ckpt (R338): the copied bytes go to the extent behind the header's 64 bytes, and the LBA that holds the header is written last. While
the module is read-only it fails, and nothing in HBM changes. It waits while the flash has no place for it. -/
def State.checkpoint (s : State) (g : Fin 128) (c : Ckpt) : State :=
  if !s.cap 7 || c.count % 32 ≠ 0 || c.count = 0 || 4 < c.states then s.ecallEnds g St.unsupported
  else if s.ftl.readOnly then s.ecallEnds g St.readOnly
  else if !Tab.has s.host.ns c.nsid then s.ecallEnds g St.noObject
  else if s.nsSize c.nsid < c.slba + ckptLbas c then s.ecallEnds g St.idRange
  else if s.ftl.sanitizer.isSome then s
  else match s.loadPieces g (ckptParts c) with
    | (s, _, some (a, st)) => s.accessFault g 5 a st
    | (s, bs, none) =>
      let b := bs.flatten
      let all := ckptHeader c (((s.taskOf g).map (·.seed)).getD 0) b ++ b
      let src (lba : Nat) : Bytes := (all.drop (4096 * (lba - c.slba))).take 4096
      let hi := c.slba + ckptLbas c
      let rest := writeLbas c.nsid (c.slba + 1) hi src c.lost (s.part.granules (c.slba + 1) (ckptLbas c - 1)) c.eus s
      match rest.bind fun x => writeLbas c.nsid c.slba (c.slba + 1) src c.lost (s.part.granules c.slba 1) x.2 x.1 with
      | some (s, _) => s.ecallEnds g St.ok
      | none => if s.ftl.exhausted then s.enterReadOnly.ecallEnds g St.readOnly else s

/-! ## The factor routine on the steward cores (R339-R341) -/

/-- Ranges that the routine writes: the lower triangle, the workspace of the retry form, the result record. -/
def factorWrites (retry : Bool) (a n lda ws rec : Nat) : List (Nat × Nat) :=
  lowerRows a n lda ++ (if retry then [(ws, 4 * n * n)] else []) ++ [(rec, 16)]

/-- A call of factor or factor_retry: an access that is denied or meets a bad word is a fault of the core. -/
def State.factorCall (s : State) (g : Fin 128) (retry : Bool) (a n lda ws rec : Nat) : State :=
  let ok := decide (1 ≤ n) && decide (n ≤ 4096) && decide (n ≤ lda)
  match s.loadPieces g (if ok then lowerRows a n lda else []) with
  | (s, _, some (a, st)) => s.accessFault g 5 a st
  | (s, _, none) =>
    match ((if ok then factorWrites retry a n lda ws rec else [(rec, 16)]).map fun p => (p.1, s.accessSt (.steward g) true p.1 p.2)).find?
        fun p => p.2 ≠ St.ok with
    | some (a, st) => s.accessFault g 7 a st
    | none => let (s, st) := s.runFactor retry a n lda ws rec; s.ecallEnds g st

/-- A call of the runtime library by the program on a core. -/
def State.service (s : State) (g : Fin 128) : Service → State
  | .tuneAlloc elems states a => s.tuneAlloc g elems states a
  | .tuneFree a => s.tuneFree g a
  | .checkpoint c => s.checkpoint g c
  | .factor retry a n lda ws rec => s.factorCall g retry a n lda ws rec

end Sys2Proof.Machine
end

