-- ==== Sys2Proof/Machine/XlzWord.lean ====
section
/-! DEFINITION. Instruction words with the custom opcodes (R196, R197), and STEWARD_INSTRUCTION (R193). -/

namespace Sys2Proof.Machine

/-- A register field of an instruction word. -/
def wordReg (w lo : Nat) : Fin 32 := Fin.ofNat 32 (bits w lo 5)

/-- The instruction that a word with a custom opcode spells (R196, R197); illegal where its opcode and funct3 are not listed. `d`: what a
step.mark brings. -/
def execXlzWord (g : Fin 128) (w : Nat) (d : StepData) (s : State) : Out :=
  let f7 : Fin 128 := Fin.ofNat 128 (bits w 25 7)
  let rd := wordReg w 7
  let rs1 := wordReg w 15
  let rs2 := wordReg w 20
  match bits w 0 7, bits w 12 3 with
  | 0x0B, 0 => execTileLoad g f7 rd rs1 rs2 s
  | 0x0B, 1 => execTileStream g f7 rd rs1 rs2 s
  | 0x0B, 2 => execTileDrain g f7 rd rs1 rs2 s
  | 0x0B, 3 => execTileCfg g f7 rd rs1 rs2 s
  | 0x0B, 4 => execTileFence g f7 rd rs1 rs2 s
  | 0x0B, 5 => execChainGo g f7 rd rs1 rs2 s
  | 0x2B, 0 => execMvIssue g f7 rd rs1 rs2 s
  | 0x2B, 1 => execSelIssue (.core g) f7 rd rs1 rs2 s
  | 0x2B, 2 => execSlotWait g f7 rd rs1 rs2 s
  | 0x2B, 3 => execSlotTake g f7 rd rs1 rs2 s
  | 0x2B, 4 => execSlotGive g f7 rd rs1 rs2 s
  | 0x2B, 5 => execSlotPeek g f7 rd rs1 rs2 s
  | 0x2B, 6 => execSlotClear g f7 rd rs1 rs2 s
  | 0x2B, 7 => execStepMark ⟨g, f7, rd, rs1, rs2⟩ d s
  | _, _ => .next (s.illegal g)

/-- STEWARD_INSTRUCTION (R193, R195-R197): one instruction that is no memory access. -/
def execStewardInstruction (g : Fin 128) (i : RvStep) (s : State) : Out :=
  if !(s.cluster g).runs then .next s
  else match i with
    | .xlz w d => execXlzWord g w d s
    | .service c => .next (s.service g c)
    | i => .next (s.rvStep g i)

end Sys2Proof.Machine
end

