-- ==== Sys2Proof/Machine/Dispatch.lean ====
section
/-! DEFINITION. One arm per command: its meaning. -/

namespace Sys2Proof.Machine

/-- The effect of a command on everything but the queue. -/
def exec (i : Instr) (s : State) : Host.Outcome State Fault Refusal :=
  match i with
  | .registerWrite q a n v => Sys2Proof.Machine.execRegisterWrite q a n v s
  | .linkFlitReceive l far ok => Sys2Proof.Machine.execLinkFlitReceive l far ok s
  | .linkRetrainDone l d ok => Sys2Proof.Machine.execLinkRetrainDone l d ok s
  | .busAccess q a n w => Sys2Proof.Machine.execBusAccess q a n w s
  | .localCountLoRead d whole => Sys2Proof.Machine.execLocalCountLoRead d whole s
  | .cqWrite q w bad reset => Sys2Proof.Machine.execCqWrite q w bad reset s
  | .cqFlush q reset => Sys2Proof.Machine.execCqFlush q reset s
  | .cqWordReadable q n => Sys2Proof.Machine.execCqWordReadable q n s
  | .cqRead q reset => Sys2Proof.Machine.execCqRead q reset s
  | .cqFreeVisible q => Sys2Proof.Machine.execCqFreeVisible q s
  | .cqCtrlFlush q => Sys2Proof.Machine.execCqCtrlFlush q s
  | .cqReset q => Sys2Proof.Machine.execCqReset q s
  | .cqClrCounts q => Sys2Proof.Machine.execCqClrCounts q s
  | .cqThreshLevelWrite q v => Sys2Proof.Machine.execCqThreshLevelWrite q v s
  | .perstDeassert fn => Sys2Proof.Machine.execPerstDeassert fn s
  | .linkDown fn => Sys2Proof.Machine.execLinkDown fn s
  | .hotReset fn => Sys2Proof.Machine.execHotReset fn s
  | .functionLevelReset fn => Sys2Proof.Machine.execFunctionLevelReset fn s
  | .nvmSubsystemReset => Sys2Proof.Machine.execNvmSubsystemReset s
  | .ccEnClear fn => Sys2Proof.Machine.execCcEnClear fn s
  | .controllerResetDone fn => Sys2Proof.Machine.execControllerResetDone fn s
  | .sqTailDoorbell fn q v => Sys2Proof.Machine.execSqTailDoorbell fn q v s
  | .cqHeadDoorbell fn q v => Sys2Proof.Machine.execCqHeadDoorbell fn q v s
  | .commandFetch fn q cmds => Sys2Proof.Machine.execCommandFetch fn q cmds s
  | .commandStart tag => Sys2Proof.Machine.execCommandStart tag s
  | .invalidCommandOpcode fn tag e => Sys2Proof.Machine.execInvalidCommandOpcode fn tag e s
  | .deleteIoSq fn e => Sys2Proof.Machine.execDeleteIoSq fn e s
  | .deleteIoSqDone fn q => Sys2Proof.Machine.execDeleteIoSqDone fn q s
  | .createIoSq fn e => Sys2Proof.Machine.execCreateIoSq fn e s
  | .deleteIoCq fn e => Sys2Proof.Machine.execDeleteIoCq fn e s
  | .createIoCq fn e => Sys2Proof.Machine.execCreateIoCq fn e s
  | .identify fn e => Sys2Proof.Machine.execIdentify fn e s
  | .abort fn e => Sys2Proof.Machine.execAbort fn e s
  | .setFeatures fn e => Sys2Proof.Machine.execSetFeatures fn e s
  | .setFeaturesTimestamp fn e d => Sys2Proof.Machine.execSetFeaturesTimestamp fn e d s
  | .setFeaturesPowerManagement fn e => Sys2Proof.Machine.execSetFeaturesPowerManagement fn e s
  | .getFeatures fn e => Sys2Proof.Machine.execGetFeatures fn e s
  | .getLogPage fn e => Sys2Proof.Machine.execGetLogPage fn e s
  | .asynchronousEventRequest fn e => Sys2Proof.Machine.execAsynchronousEventRequest fn e s
  | .namespaceManagement fn e nsze ncap => Sys2Proof.Machine.execNamespaceManagement fn e nsze ncap s
  | .namespaceAttachment fn e l => Sys2Proof.Machine.execNamespaceAttachment fn e l s
  | .formatNvm fn e eus bad => Sys2Proof.Machine.execFormatNvm fn e eus bad s
  | .nvmeSanitize fn e => Sys2Proof.Machine.execNvmeSanitize fn e s
  | .flush tag => Sys2Proof.Machine.execFlush tag s
  | .write tag data granules eus lost => Sys2Proof.Machine.execWrite tag data granules eus lost s
  | .read tag lost retried dst => Sys2Proof.Machine.execRead tag lost retried dst s
  | .writeZeroes tag eus lost => Sys2Proof.Machine.execWriteZeroes tag eus lost s
  | .datasetManagement tag data eus lost => Sys2Proof.Machine.execDatasetManagement tag data eus lost s
  | .secureDiscard tag data eus lost bad => Sys2Proof.Machine.execSecureDiscard tag data eus lost bad s
  | .verify tag lost retried => Sys2Proof.Machine.execVerify tag lost retried s
  | .indexQuery tag d inst base miss => Sys2Proof.Machine.execIndexQuery tag d inst base miss s
  | .indexInsert tag d => Sys2Proof.Machine.execIndexInsert tag d s
  | .indexDelete tag d => Sys2Proof.Machine.execIndexDelete tag d s
  | .indexWriteRoom tag => Sys2Proof.Machine.execIndexWriteRoom tag s
  | .scan tag d inst base => Sys2Proof.Machine.execScan tag d inst base s
  | .embed tag d a => Sys2Proof.Machine.execEmbed tag d a s
  | .generate tag d a => Sys2Proof.Machine.execGenerate tag d a s
  | .sessionOpen tag p => Sys2Proof.Machine.execSessionOpen tag p s
  | .sessionPark tag => Sys2Proof.Machine.execSessionPark tag s
  | .sessionResume tag => Sys2Proof.Machine.execSessionResume tag s
  | .sessionClose tag => Sys2Proof.Machine.execSessionClose tag s
  | .run tag d a => Sys2Proof.Machine.execRun tag d a s
  | .resultHeaderTimer tag => Sys2Proof.Machine.execResultHeaderTimer tag s
  | .mbReqLenWrite fn wide v => Sys2Proof.Machine.execMbReqLenWrite fn wide v s
  | .mbDataInWrite fn wide v => Sys2Proof.Machine.execMbDataInWrite fn wide v s
  | .mbDataOutRead fn wide => Sys2Proof.Machine.execMbDataOutRead fn wide s
  | .mbSend fn => Sys2Proof.Machine.execMbSend fn s
  | .mbRelease fn => Sys2Proof.Machine.execMbRelease fn s
  | .mbAbandon fn => Sys2Proof.Machine.execMbAbandon fn s
  | .mbResponseReady mb => Sys2Proof.Machine.execMbResponseReady mb s
  | .mctpAmpMessage ep body => Sys2Proof.Machine.execMctpAmpMessage ep body s
  | .mgmtEventNotice => Sys2Proof.Machine.execMgmtEventNotice s
  | .hello mb => Sys2Proof.Machine.execHello mb s
  | .ampStatus mb => Sys2Proof.Machine.execAmpStatus mb s
  | .keyAgree mb => Sys2Proof.Machine.execKeyAgree mb s
  | .lockoutExpiry mb => Sys2Proof.Machine.execLockoutExpiry mb s
  | .eventRead mb => Sys2Proof.Machine.execEventRead mb s
  | .opStatus mb => Sys2Proof.Machine.execOpStatus mb s
  | .configRead mb => Sys2Proof.Machine.execConfigRead mb s
  | .configWrite mb lost places => Sys2Proof.Machine.execConfigWrite mb lost places s
  | .eventMask mb => Sys2Proof.Machine.execEventMask mb s
  | .timeRead mb => Sys2Proof.Machine.execTimeRead mb s
  | .objectInstall mb => Sys2Proof.Machine.execObjectInstall mb s
  | .objectInstallDone op lost body regions space => Sys2Proof.Machine.execObjectInstallDone op lost body regions space s
  | .objectRemove mb => Sys2Proof.Machine.execObjectRemove mb s
  | .objectList mb => Sys2Proof.Machine.execObjectList mb s
  | .indexCreate mb => Sys2Proof.Machine.execIndexCreate mb s
  | .indexDrop mb => Sys2Proof.Machine.execIndexDrop mb s
  | .indexTrain mb => Sys2Proof.Machine.execIndexTrain mb s
  | .indexTrainDone ix lost => Sys2Proof.Machine.execIndexTrainDone ix lost s
  | .indexFold mb => Sys2Proof.Machine.execIndexFold mb s
  | .foldSwitch ix eus lost => Sys2Proof.Machine.execFoldSwitch ix eus lost s
  | .indexBind mb => Sys2Proof.Machine.execIndexBind mb s
  | .indexStats mb => Sys2Proof.Machine.execIndexStats mb s
  | .ingestWindowProcess ok emb => Sys2Proof.Machine.execIngestWindowProcess ok emb s
  | .partSet mb => Sys2Proof.Machine.execPartSet mb s
  | .partRead mb => Sys2Proof.Machine.execPartRead mb s
  | .powerSet mb => Sys2Proof.Machine.execPowerSet mb s
  | .powerRead mb => Sys2Proof.Machine.execPowerRead mb s
  | .writeGovernor mb => Sys2Proof.Machine.execWriteGovernor mb s
  | .faultRead mb => Sys2Proof.Machine.execFaultRead mb s
  | .faultAck mb => Sys2Proof.Machine.execFaultAck mb s
  | .scrubRange mb => Sys2Proof.Machine.execScrubRange mb s
  | .scrubDone op ok bad eus => Sys2Proof.Machine.execScrubDone op ok bad eus s
  | .retire mb spare => Sys2Proof.Machine.execRetire mb spare s
  | .ownerSet mb => Sys2Proof.Machine.execOwnerSet mb s
  | .ownerReleaseRestart => Sys2Proof.Machine.execOwnerReleaseRestart s
  | .nsKeySet mb => Sys2Proof.Machine.execNsKeySet mb s
  | .cryptoErase mb => Sys2Proof.Machine.execCryptoErase mb s
  | .sanitize mb => Sys2Proof.Machine.execSanitize mb s
  | .sanitizeDone bad => Sys2Proof.Machine.execSanitizeDone bad s
  | .fwStage mb => Sys2Proof.Machine.execFwStage mb s
  | .fwVerify mb => Sys2Proof.Machine.execFwVerify mb s
  | .fwVerifyDone => Sys2Proof.Machine.execFwVerifyDone s
  | .fwCommit mb => Sys2Proof.Machine.execFwCommit mb s
  | .fwCommitDone ok => Sys2Proof.Machine.execFwCommitDone ok s
  | .recoveryReboot => Sys2Proof.Machine.execRecoveryReboot s
  | .spanConfig mb => Sys2Proof.Machine.execSpanConfig mb s
  | .spanStatus mb => Sys2Proof.Machine.execSpanStatus mb s
  | .spanPeerSet mb => Sys2Proof.Machine.execSpanPeerSet mb s
  | .unlistedAmpOpcode mb => Sys2Proof.Machine.execUnlistedAmpOpcode mb s
  | .cpJobTailWrite ch v ends => Sys2Proof.Machine.execCpJobTailWrite ch v ends s
  | .cpCmplHeadWrite ch v => Sys2Proof.Machine.execCpCmplHeadWrite ch v s
  | .abortJob ch => Sys2Proof.Machine.execAbortJob ch s
  | .cpEnable ch on => Sys2Proof.Machine.execCpEnable ch on s
  | .channelJobStart ch => Sys2Proof.Machine.execChannelJobStart ch s
  | .s6TableLoadDone ch => Sys2Proof.Machine.execS6TableLoadDone ch s
  | .s8ThresholdFeedback ch q => Sys2Proof.Machine.execS8ThresholdFeedback ch q s
  | .channelJobComplete ch fault => Sys2Proof.Machine.execChannelJobComplete ch fault s
  | .seamJob tag first ch addr => Sys2Proof.Machine.execSeamJob tag first ch addr s
  | .selectionStart u => Sys2Proof.Machine.execSelectionStart u s
  | .selectionComplete u cycles => Sys2Proof.Machine.execSelectionComplete u cycles s
  | .selFlush u => Sys2Proof.Machine.execSelFlush u s
  | .selEnable u on gather => Sys2Proof.Machine.execSelEnable u on gather s
  | .mergeInstanceOpen d thr => Sys2Proof.Machine.execMergeInstanceOpen d thr s
  | .mergeEntryArrival a => Sys2Proof.Machine.execMergeEntryArrival a s
  | .mergeInstanceClose n unreadable => Sys2Proof.Machine.execMergeInstanceClose n unreadable s
  | .tileLoad g f7 rd rs1 rs2 => Sys2Proof.Machine.execTileLoad g f7 rd rs1 rs2 s
  | .tileStream g f7 rd rs1 rs2 => Sys2Proof.Machine.execTileStream g f7 rd rs1 rs2 s
  | .tileDrain g f7 rd rs1 rs2 => Sys2Proof.Machine.execTileDrain g f7 rd rs1 rs2 s
  | .tileCfg g f7 rd rs1 rs2 => Sys2Proof.Machine.execTileCfg g f7 rd rs1 rs2 s
  | .tileFence g f7 rd rs1 rs2 => Sys2Proof.Machine.execTileFence g f7 rd rs1 rs2 s
  | .chainGo g f7 rd rs1 rs2 => Sys2Proof.Machine.execChainGo g f7 rd rs1 rs2 s
  | .mvIssue g f7 rd rs1 rs2 => Sys2Proof.Machine.execMvIssue g f7 rd rs1 rs2 s
  | .selIssue who f7 rd rs1 rs2 => Sys2Proof.Machine.execSelIssue who f7 rd rs1 rs2 s
  | .slotWait g f7 rd rs1 rs2 => Sys2Proof.Machine.execSlotWait g f7 rd rs1 rs2 s
  | .slotTake g f7 rd rs1 rs2 => Sys2Proof.Machine.execSlotTake g f7 rd rs1 rs2 s
  | .slotGive g f7 rd rs1 rs2 => Sys2Proof.Machine.execSlotGive g f7 rd rs1 rs2 s
  | .slotPeek g f7 rd rs1 rs2 => Sys2Proof.Machine.execSlotPeek g f7 rd rs1 rs2 s
  | .slotClear g f7 rd rs1 rs2 => Sys2Proof.Machine.execSlotClear g f7 rd rs1 rs2 s
  | .stepMark w d => Sys2Proof.Machine.execStepMark w d s
  | .stewardInstruction g r => Sys2Proof.Machine.execStewardInstruction g r s
  | .stewardLoad g ps d k => Sys2Proof.Machine.execStewardLoad g ps d k s
  | .stewardStore g ps k => Sys2Proof.Machine.execStewardStore g ps k s
  | .mxuOpStart g u => Sys2Proof.Machine.execMxuOpStart g u s
  | .mxuOpComplete g u k => Sys2Proof.Machine.execMxuOpComplete g u k s
  | .clMxuReset g => Sys2Proof.Machine.execClMxuReset g s
  | .clCoreReset g => Sys2Proof.Machine.execClCoreReset g s
  | .clHalt g on => Sys2Proof.Machine.execClHalt g on s
  | .clEnable g on => Sys2Proof.Machine.execClEnable g on s
  | .narrowGuarantee g => Sys2Proof.Machine.execNarrowGuarantee g s
  | .cvClr g => Sys2Proof.Machine.execCvClr g s
  | .chainComplete g u => Sys2Proof.Machine.execChainComplete g u s
  | .chainBlockSend g u => Sys2Proof.Machine.execChainBlockSend g u s
  | .tenantClear g => Sys2Proof.Machine.execTenantClear g s
  | .tenantClearDone g => Sys2Proof.Machine.execTenantClearDone g s
  | .spClrCounts g => Sys2Proof.Machine.execSpClrCounts g s
  | .slotReset g => Sys2Proof.Machine.execSlotReset g s
  | .bankPowerDown g b => Sys2Proof.Machine.execBankPowerDown g b s
  | .bankOff g => Sys2Proof.Machine.execBankOff g s
  | .bankPowerTimeout g => Sys2Proof.Machine.execBankPowerTimeout g s
  | .bankPowerDownForce g b => Sys2Proof.Machine.execBankPowerDownForce g b s
  | .bankForceOff g n => Sys2Proof.Machine.execBankForceOff g n s
  | .bankPowerUp g b force => Sys2Proof.Machine.execBankPowerUp g b force s
  | .bankPowerUpDone g => Sys2Proof.Machine.execBankPowerUpDone g s
  | .bankRetire g b => Sys2Proof.Machine.execBankRetire g b s
  | .slotWaitLimitWrite g v => Sys2Proof.Machine.execSlotWaitLimitWrite g v s
  | .spResidentWrite g b m => Sys2Proof.Machine.execSpResidentWrite g b m s
  | .slotWindowWrite g k v => Sys2Proof.Machine.execSlotWindowWrite g k v s
  | .slotWaitTimeout g send => Sys2Proof.Machine.execSlotWaitTimeout g send s
  | .remoteSlotArrival g => Sys2Proof.Machine.execRemoteSlotArrival g s
  | .residentReloadDone g b r lost ok => Sys2Proof.Machine.execResidentReloadDone g b r lost ok s
  | .mvPost g v => Sys2Proof.Machine.execMvPost g v s
  | .mvFlush g => Sys2Proof.Machine.execMvFlush g s
  | .mvEnable g on => Sys2Proof.Machine.execMvEnable g on s
  | .linear g => Sys2Proof.Machine.execLinear g s
  | .tileIn g => Sys2Proof.Machine.execTileIn g s
  | .tileOut g giveUp => Sys2Proof.Machine.execTileOut g giveUp s
  | .tensorIn g => Sys2Proof.Machine.execTensorIn g s
  | .tensorOut g giveUp => Sys2Proof.Machine.execTensorOut g giveUp s
  | .fill g => Sys2Proof.Machine.execFill g s
  | .copy g => Sys2Proof.Machine.execCopy g s
  | .transpose g => Sys2Proof.Machine.execTranspose g s
  | .moverDescriptorDone g k addrs => Sys2Proof.Machine.execMoverDescriptorDone g k addrs s
  | .tierDemotion places => Sys2Proof.Machine.execTierDemotion places s
  | .tilePromotion g k at_ => Sys2Proof.Machine.execTilePromotion g k at_ s
  | .sessionDemotion n pos => Sys2Proof.Machine.execSessionDemotion n pos s
  | .parkT2Done n pos => Sys2Proof.Machine.execParkT2Done n pos s
  | .resumeColdDone n root chunks tiles => Sys2Proof.Machine.execResumeColdDone n root chunks tiles s
  | .tokenizerSlice => Sys2Proof.Machine.execTokenizerSlice s
  | .updSubmit g a => Sys2Proof.Machine.execUpdSubmit g a s
  | .updateJobStart id us => Sys2Proof.Machine.execUpdateJobStart id us s
  | .updCommit u o => Sys2Proof.Machine.execUpdCommit u o s
  | .updateSliceEnd u r => Sys2Proof.Machine.execUpdateSliceEnd u r s
  | .quantumExpiry p => Sys2Proof.Machine.execQuantumExpiry p s
  | .saveComplete p addrs giveUp => Sys2Proof.Machine.execSaveComplete p addrs giveUp s
  | .runEmit g a n => Sys2Proof.Machine.execRunEmit g a n s
  | .taskEnd g code d => Sys2Proof.Machine.execTaskEnd g code d s
  | .romResetEntry ch => Sys2Proof.Machine.execRomResetEntry ch s
  | .targetBringupTimeout ch t => Sys2Proof.Machine.execTargetBringupTimeout ch t s
  | .mrReqTailWrite ch v => Sys2Proof.Machine.execMrReqTailWrite ch v s
  | .mrCmplHeadWrite ch v => Sys2Proof.Machine.execMrCmplHeadWrite ch v s
  | .mrEnable ch on => Sys2Proof.Machine.execMrEnable ch on s
  | .mediaRead ch ring => Sys2Proof.Machine.execMediaRead ch ring s
  | .mediaReadMargin ch => Sys2Proof.Machine.execMediaReadMargin ch s
  | .mediaProgram ch => Sys2Proof.Machine.execMediaProgram ch s
  | .mediaErase ch => Sys2Proof.Machine.execMediaErase ch s
  | .mediaReset ch => Sys2Proof.Machine.execMediaReset ch s
  | .mediaGetFeatures ch v => Sys2Proof.Machine.execMediaGetFeatures ch v s
  | .mediaStatus ch => Sys2Proof.Machine.execMediaStatus ch s
  | .mediaClose ch => Sys2Proof.Machine.execMediaClose ch s
  | .mediaParams ch => Sys2Proof.Machine.execMediaParams ch s
  | .mediaOpComplete ch op r => Sys2Proof.Machine.execMediaOpComplete ch op r s
  | .mediaTimeout ch op => Sys2Proof.Machine.execMediaTimeout ch op s
  | .mediaSuspend ch t => Sys2Proof.Machine.execMediaSuspend ch t s
  | .mediaHold on => Sys2Proof.Machine.execMediaHold on s
  | .mediaFlush => Sys2Proof.Machine.execMediaFlush s
  | .dieTempSample ch t temp => Sys2Proof.Machine.execDieTempSample ch t temp s
  | .writeBufferProgram eu ok eus => Sys2Proof.Machine.execWriteBufferProgram eu ok eus s
  | .garbageCollection victim eus ok => Sys2Proof.Machine.execGarbageCollection victim eus ok s
  | .mapCheckpoint chunk => Sys2Proof.Machine.execMapCheckpoint chunk s
  | .flashTempPoll temps => Sys2Proof.Machine.execFlashTempPoll temps s
  | .peRateBucket => Sys2Proof.Machine.execPeRateBucket s
  | .spanPortUp p => Sys2Proof.Machine.execSpanPortUp p s
  | .spanPortDown p => Sys2Proof.Machine.execSpanPortDown p s
  | .slRetrain p => Sys2Proof.Machine.execSlRetrain p s
  | .slEnable p on => Sys2Proof.Machine.execSlEnable p on s
  | .openFrame port b encrypted => Sys2Proof.Machine.execOpenFrame port b encrypted s
  | .spdmFrame port n r => Sys2Proof.Machine.execSpdmFrame port n r s
  | .dataFrame port b icv inst base => Sys2Proof.Machine.execDataFrame port b icv inst base s
  | .ackFrame port b icv => Sys2Proof.Machine.execAckFrame port b icv s
  | .nakFrame port b icv => Sys2Proof.Machine.execNakFrame port b icv s
  | .spanRead g n nsid slba count dst slot => Sys2Proof.Machine.execSpanRead g n nsid slba count dst slot s
  | .retransmissionTimeout n seq => Sys2Proof.Machine.execRetransmissionTimeout n seq s
  | .gapTimeout n => Sys2Proof.Machine.execGapTimeout n s
  | .keepaliveTimer n => Sys2Proof.Machine.execKeepaliveTimer n s
  | .slowTimeout n => Sys2Proof.Machine.execSlowTimeout n s
  | .absentTimeout n => Sys2Proof.Machine.execAbsentTimeout n s
  | .bringupTimeout n port => Sys2Proof.Machine.execBringupTimeout n port s
  | .faultyRetryTimer n => Sys2Proof.Machine.execFaultyRetryTimer n s
  | .refusedRetryTimer n => Sys2Proof.Machine.execRefusedRetryTimer n s
  | .rekeyTimer n => Sys2Proof.Machine.execRekeyTimer n s
  | .oldKeyExpiry n => Sys2Proof.Machine.execOldKeyExpiry n s
  | .faultReport d r to_ => Sys2Proof.Machine.execFaultReport d r to_ s
  | .faultWindowEnd d k => Sys2Proof.Machine.execFaultWindowEnd d k s
  | .faultRecordAgeLimit d k => Sys2Proof.Machine.execFaultRecordAgeLimit d k s
  | .faultRecordIntake d k => Sys2Proof.Machine.execFaultRecordIntake d k s
  | .faultRecordFinalise d k => Sys2Proof.Machine.execFaultRecordFinalise d k s
  | .faultLogPersist record => Sys2Proof.Machine.execFaultLogPersist record s
  | .fcHeadWrite d v => Sys2Proof.Machine.execFcHeadWrite d v s
  | .inputWarn v => Sys2Proof.Machine.execInputWarn v s
  | .holdRelease v => Sys2Proof.Machine.execHoldRelease v s
  | .inputCommit v => Sys2Proof.Machine.execInputCommit v s
  | .flushDumpDone => Sys2Proof.Machine.execFlushDumpDone s
  | .inputReset v undumped => Sys2Proof.Machine.execInputReset v undumped s
  | .inputOvervoltage v => Sys2Proof.Machine.execInputOvervoltage v s
  | .startCondition v => Sys2Proof.Machine.execStartCondition v s
  | .currentLimit ma => Sys2Proof.Machine.execCurrentLimit ma s
  | .holdupMeasurement mj => Sys2Proof.Machine.execHoldupMeasurement mj s
  | .powerStateEntry => Sys2Proof.Machine.execPowerStateEntry s
  | .drawAverageCrossing mw => Sys2Proof.Machine.execDrawAverageCrossing mw s
  | .peakWindowExpiry => Sys2Proof.Machine.execPeakWindowExpiry s
  | .peakSpentRecheck => Sys2Proof.Machine.execPeakSpentRecheck s
  | .clockStepUpTimer ma => Sys2Proof.Machine.execClockStepUpTimer ma s
  | .peakRecovery => Sys2Proof.Machine.execPeakRecovery s
  | .deniedExit => Sys2Proof.Machine.execDeniedExit s
  | .junctionTempCrossing k t => Sys2Proof.Machine.execJunctionTempCrossing k t s
  | .thermalStepUp => Sys2Proof.Machine.execThermalStepUp s
  | .flashTempCrossing t => Sys2Proof.Machine.execFlashTempCrossing t s
  | .pwrDisAssert => Sys2Proof.Machine.execPwrDisAssert s
  | .pwrDisDeassert => Sys2Proof.Machine.execPwrDisDeassert s
  | .auxPowerUp addrSel => Sys2Proof.Machine.execAuxPowerUp addrSel s
  | .auxPowerLoss => Sys2Proof.Machine.execAuxPowerLoss s
  | .boot otpOk strap lostT eus ms => Sys2Proof.Machine.execBoot otpOk strap lostT eus ms s
  | .keeperReady eus bad lost places => Sys2Proof.Machine.execKeeperReady eus bad lost places s
  | .keeperReadyTimeout => Sys2Proof.Machine.execKeeperReadyTimeout s
  | .setEndpointId op eid => Sys2Proof.Machine.execSetEndpointId op eid s
  | .getEndpointId => Sys2Proof.Machine.execGetEndpointId s
  | .getMctpVersionSupport typ => Sys2Proof.Machine.execGetMctpVersionSupport typ s
  | .getMessageTypeSupport => Sys2Proof.Machine.execGetMessageTypeSupport s
  | .getVendorDefinedMessageSupport sel => Sys2Proof.Machine.execGetVendorDefinedMessageSupport sel s
  | .readNvmeMiDataStructure mic typ port ctrl => Sys2Proof.Machine.execReadNvmeMiDataStructure mic typ port ctrl s
  | .nvmSubsystemHealthStatusPoll mic clear => Sys2Proof.Machine.execNvmSubsystemHealthStatusPoll mic clear s
  | .controllerHealthStatusPoll mic clear first => Sys2Proof.Machine.execControllerHealthStatusPoll mic clear first s
  | .configurationSet mic id port v => Sys2Proof.Machine.execConfigurationSet mic id port v s
  | .configurationGet mic id port => Sys2Proof.Machine.execConfigurationGet mic id port s
  | .vpdRead mic off len => Sys2Proof.Machine.execVpdRead mic off len s
  | .nvmeMiReset mic typ => Sys2Proof.Machine.execNvmeMiReset mic typ s
  | .sensorRead mic rails => Sys2Proof.Machine.execSensorRead mic rails s
  | .nvmeMiAdminCommand mic ctrl e d => Sys2Proof.Machine.execNvmeMiAdminCommand mic ctrl e d s
  | .nvmeMiUnsupportedCommand mic opc => Sys2Proof.Machine.execNvmeMiUnsupportedCommand mic opc s
  | .getVersion => Sys2Proof.Machine.execGetVersion s
  | .getCapabilities ver => Sys2Proof.Machine.execGetCapabilities ver s
  | .negotiateAlgorithms asym hash meas => Sys2Proof.Machine.execNegotiateAlgorithms asym hash meas s
  | .getDigests => Sys2Proof.Machine.execGetDigests s
  | .getCertificate slot off len => Sys2Proof.Machine.execGetCertificate slot off len s
  | .challenge slot summary before => Sys2Proof.Machine.execChallenge slot summary before s
  | .getMeasurements op sign before => Sys2Proof.Machine.execGetMeasurements op sign before s
  | .keyExchange port before => Sys2Proof.Machine.execKeyExchange port before s
  | .pcieLinkUp l => Sys2Proof.Machine.execPcieLinkUp l s
  | .controllerEnable fn asqs acqs => Sys2Proof.Machine.execControllerEnable fn asqs acqs s
  | .coolantLimitCrossing inlet outlet => Sys2Proof.Machine.execCoolantLimitCrossing inlet outlet s
  | .junctionCooldown t0 t1 t2 => Sys2Proof.Machine.execJunctionCooldown t0 t1 t2 s

end Sys2Proof.Machine
end

