-- ==== Sys2Proof/Machine/Tick.lean ====
section
/-! DEFINITION. A microsecond passes: what the module counts whatever is commanded (R38, R450; log 4). -/

namespace Sys2Proof.Machine

/-- Are the always-on domains of the compute dies powered? They are fed from 42 V in Ivory to Umber (R38); a reset that Ebony ended in
leaves them off until the start condition. -/
def State.cdPowered (s : State) : Bool := s.mainOn && s.power.ladder != 5 && !(s.power.inReset && s.power.cause == .ebony)

/-- A count advances. -/
def Count.up (on : Bool) (c : Count) : Count := if on then { c with now := (c.now + 1) % 2 ^ 64 } else c

/-- The window time and the 120 s count (R450). -/
def Power.tick (p : Power) : Power :=
  match p.peak with
  | .opened => if 600000 < p.draw then { p with windowUs := p.windowUs + 1 } else p
  | .spent => if p.draw ≤ 600000 then { p with recoverUs := p.recoverUs + 1 } else p
  | _ => p

/-- One microsecond. -/
def State.tick (s : State) : State :=
  let s := s.modFabric fun f =>
    { f with cd0 := f.cd0.up s.cdPowered, cd1 := f.cd1.up s.cdPowered, hd := f.hd.up s.sideband }
  if s.alive then s.modPower Power.tick else s

end Sys2Proof.Machine
end

