-- ==== Sys2Proof/WellFormed.lean ====
section
/-! DEFINITION. Well-formed commands: every operand within the width its field has in the spec. -/

namespace Sys2Proof

/-- Every field of a submission entry within its width (R71). -/
def Sqe.wf (e : Sqe) : Bool :=
  decide (e.opc < 2 ^ 8) && decide (e.flags < 2 ^ 8) && decide (e.cid < 2 ^ 16) && decide (e.nsid < 2 ^ 32)
    && decide (e.cdw2 < 2 ^ 32) && decide (e.cdw3 < 2 ^ 32) && decide (e.mptr < 2 ^ 64) && decide (e.prp1 < 2 ^ 64)
    && decide (e.prp2 < 2 ^ 64) && decide (e.cdw10 < 2 ^ 32) && decide (e.cdw11 < 2 ^ 32) && decide (e.cdw12 < 2 ^ 32)
    && decide (e.cdw13 < 2 ^ 32) && decide (e.cdw14 < 2 ^ 32) && decide (e.cdw15 < 2 ^ 32)

/-- Every operand of the command lies within its field. -/
def Instr.wf (i : Instr) : Bool :=
  match i with
  | .registerWrite _ a n v => decide (a < 2 ^ 48) && decide (n ≤ 8) && decide (v < 2 ^ (8 * n))
  | .linkFlitReceive _ _ _ => true
  | .linkRetrainDone _ _ _ => true
  | .busAccess _ a _ _ => decide (a < 2 ^ 48)
  | .localCountLoRead _ _ => true
  | .cqWrite q w _ _ => w.length == (if q.val < 32 then 16 else 8)
  | .cqFlush _ _ => true
  | .cqWordReadable _ _ => true
  | .cqRead _ _ => true
  | .cqFreeVisible _ => true
  | .cqCtrlFlush _ => true
  | .cqReset _ => true
  | .cqClrCounts _ => true
  | .cqThreshLevelWrite _ v => decide (v < 128)
  | .perstDeassert _ => true
  | .linkDown _ => true
  | .hotReset _ => true
  | .functionLevelReset _ => true
  | .nvmSubsystemReset => true
  | .ccEnClear _ => true
  | .controllerResetDone _ => true
  | .sqTailDoorbell _ _ v => decide (v < 65536)
  | .cqHeadDoorbell _ _ v => decide (v < 65536)
  | .commandFetch _ q cmds => decide (q ≤ 4096) && cmds.all (fun c => decide (c.1 < 1048576) && c.2.wf)
  | .commandStart tag => decide (tag < 1048576)
  | .invalidCommandOpcode _ _ e => e.wf
  | .deleteIoSq _ e => e.wf
  | .deleteIoSqDone _ _ => true
  | .createIoSq _ e => e.wf
  | .deleteIoCq _ e => e.wf
  | .createIoCq _ e => e.wf
  | .identify _ e => e.wf
  | .abort _ e => e.wf
  | .setFeatures _ e => e.wf
  | .setFeaturesTimestamp _ e d => e.wf && d.length == 8
  | .setFeaturesPowerManagement _ e => e.wf
  | .getFeatures _ e => e.wf
  | .getLogPage _ e => e.wf
  | .asynchronousEventRequest _ e => e.wf
  | .namespaceManagement _ e _ _ => e.wf
  | .namespaceAttachment _ e _ => e.wf
  | .formatNvm _ e _ _ => e.wf
  | .nvmeSanitize _ e => e.wf
  | .flush tag => decide (tag < 1048576)
  | .write tag _ _ _ _ => decide (tag < 1048576)
  | .read tag _ _ _ => decide (tag < 1048576)
  | .writeZeroes tag _ _ => decide (tag < 1048576)
  | .datasetManagement tag _ _ _ => decide (tag < 1048576)
  | .secureDiscard tag _ _ _ _ => decide (tag < 1048576)
  | .verify tag _ _ => decide (tag < 1048576)
  | .indexQuery tag _ inst _ _ => decide (tag < 1048576) && decide (inst < 4096)
  | .indexInsert tag _ => decide (tag < 1048576)
  | .indexDelete tag _ => decide (tag < 1048576)
  | .indexWriteRoom tag => decide (tag < 1048576)
  | .scan tag _ inst _ => decide (tag < 1048576) && decide (inst < 4096)
  | .embed tag _ _ => decide (tag < 1048576)
  | .generate tag _ _ => decide (tag < 1048576)
  | .sessionOpen tag _ => decide (tag < 1048576)
  | .sessionPark tag => decide (tag < 1048576)
  | .sessionResume tag => decide (tag < 1048576)
  | .sessionClose tag => decide (tag < 1048576)
  | .run tag _ _ => decide (tag < 1048576)
  | .resultHeaderTimer tag => decide (tag < 1048576)
  | .mbReqLenWrite _ _ v => decide (v < 2 ^ 32)
  | .mbDataInWrite _ _ v => decide (v < 2 ^ 64)
  | .mbDataOutRead _ _ => true
  | .mbSend _ => true
  | .mbRelease _ => true
  | .mbAbandon _ => true
  | .mbResponseReady _ => true
  | .mctpAmpMessage ep _ => decide (ep < 256)
  | .mgmtEventNotice => true
  | .hello _ => true
  | .ampStatus _ => true
  | .keyAgree _ => true
  | .lockoutExpiry _ => true
  | .eventRead _ => true
  | .opStatus _ => true
  | .configRead _ => true
  | .configWrite _ _ _ => true
  | .eventMask _ => true
  | .timeRead _ => true
  | .objectInstall _ => true
  | .objectInstallDone _ _ _ _ _ => true
  | .objectRemove _ => true
  | .objectList _ => true
  | .indexCreate _ => true
  | .indexDrop _ => true
  | .indexTrain _ => true
  | .indexTrainDone _ _ => true
  | .indexFold _ => true
  | .foldSwitch _ _ _ => true
  | .indexBind _ => true
  | .indexStats _ => true
  | .ingestWindowProcess _ _ => true
  | .partSet _ => true
  | .partRead _ => true
  | .powerSet _ => true
  | .powerRead _ => true
  | .writeGovernor _ => true
  | .faultRead _ => true
  | .faultAck _ => true
  | .scrubRange _ => true
  | .scrubDone _ _ _ _ => true
  | .retire _ _ => true
  | .ownerSet _ => true
  | .ownerReleaseRestart => true
  | .nsKeySet _ => true
  | .cryptoErase _ => true
  | .sanitize _ => true
  | .sanitizeDone _ => true
  | .fwStage _ => true
  | .fwVerify _ => true
  | .fwVerifyDone => true
  | .fwCommit _ => true
  | .fwCommitDone _ => true
  | .recoveryReboot => true
  | .spanConfig _ => true
  | .spanStatus _ => true
  | .spanPeerSet _ => true
  | .unlistedAmpOpcode _ => true
  | .cpJobTailWrite _ v _ => decide (v < 256)
  | .cpCmplHeadWrite _ v => decide (v < 256)
  | .abortJob _ => true
  | .cpEnable _ _ => true
  | .channelJobStart _ => true
  | .s6TableLoadDone _ => true
  | .s8ThresholdFeedback _ q => decide (q < 64)
  | .channelJobComplete _ _ => true
  | .seamJob tag _ _ _ => decide (tag < 1048576)
  | .selectionStart _ => true
  | .selectionComplete _ cycles => decide (cycles < 2 ^ 32)
  | .selFlush _ => true
  | .selEnable _ _ _ => true
  | .mergeInstanceOpen d _ => decide (d.length = 32)
  | .mergeEntryArrival _ => true
  | .mergeInstanceClose n _ => decide (n < 4096)
  | .tileLoad _ _ _ _ _ => true
  | .tileStream _ _ _ _ _ => true
  | .tileDrain _ _ _ _ _ => true
  | .tileCfg _ _ _ _ _ => true
  | .tileFence _ _ _ _ _ => true
  | .chainGo _ _ _ _ _ => true
  | .mvIssue _ _ _ _ _ => true
  | .selIssue w .. => match w with
    | .core .. => true
    | .keeper _ d => decide (d.length = 64)
  | .slotWait _ _ _ _ _ => true
  | .slotTake _ _ _ _ _ => true
  | .slotGive _ _ _ _ _ => true
  | .slotPeek _ _ _ _ _ => true
  | .slotClear _ _ _ _ _ => true
  | .stepMark .. => true
  | .stewardInstruction _ _ => true
  | .stewardLoad .. => true
  | .stewardStore .. => true
  | .mxuOpStart .. => true
  | .mxuOpComplete _ _ _ => true
  | .clMxuReset _ => true
  | .clCoreReset _ => true
  | .clHalt _ _ => true
  | .clEnable _ _ => true
  | .narrowGuarantee _ => true
  | .cvClr _ => true
  | .chainComplete _ _ => true
  | .chainBlockSend _ _ => true
  | .tenantClear _ => true
  | .tenantClearDone _ => true
  | .spClrCounts _ => true
  | .slotReset _ => true
  | .bankPowerDown _ _ => true
  | .bankOff _ => true
  | .bankPowerTimeout _ => true
  | .bankPowerDownForce _ _ => true
  | .bankForceOff _ _ => true
  | .bankPowerUp _ _ _ => true
  | .bankPowerUpDone _ => true
  | .bankRetire _ _ => true
  | .slotWaitLimitWrite _ v => decide (v < 2 ^ 32)
  | .spResidentWrite _ _ m => decide (m.regions < 2 ^ 32) && decide (m.copies.length ≤ 16) && m.copies.all (fun a => decide (a < 2 ^ 64))
  | .slotWindowWrite _ _ v => decide (v < 2 ^ 32)
  | .slotWaitTimeout _ _ => true
  | .remoteSlotArrival _ => true
  | .residentReloadDone _ _ _ _ _ => true
  | .mvPost _ v => decide (v < 2 ^ 64)
  | .mvFlush _ => true
  | .mvEnable _ _ => true
  | .linear _ => true
  | .tileIn _ => true
  | .tileOut _ _ => true
  | .tensorIn _ => true
  | .tensorOut _ _ => true
  | .fill _ => true
  | .copy _ => true
  | .transpose _ => true
  | .moverDescriptorDone _ _ _ => true
  | .tierDemotion _ => true
  | .tilePromotion _ _ _ => true
  | .sessionDemotion _ _ => true
  | .parkT2Done _ _ => true
  | .resumeColdDone _ _ _ _ => true
  | .tokenizerSlice => true
  | .updSubmit _ _ => true
  | .updateJobStart _ us => decide (us.length ≤ 8)
  | .updCommit _ _ => true
  | .updateSliceEnd _ _ => true
  | .quantumExpiry _ => true
  | .saveComplete _ _ _ => true
  | .runEmit _ a n => decide (a < 2 ^ 48) && decide (n < 2 ^ 48)
  | .taskEnd _ code _ => decide (code < 65536)
  | .romResetEntry _ => true
  | .targetBringupTimeout _ _ => true
  | .mrReqTailWrite _ v => decide (v < 256)
  | .mrCmplHeadWrite _ v => decide (v < 256)
  | .mrEnable _ _ => true
  | .mediaRead _ _ => true
  | .mediaReadMargin _ => true
  | .mediaProgram _ => true
  | .mediaErase _ => true
  | .mediaReset _ => true
  | .mediaGetFeatures _ v => decide (v < 4294967296)
  | .mediaStatus _ => true
  | .mediaClose _ => true
  | .mediaParams _ => true
  | .mediaOpComplete _ _ _ => true
  | .mediaTimeout _ _ => true
  | .mediaSuspend _ _ => true
  | .mediaHold _ => true
  | .mediaFlush => true
  | .dieTempSample _ _ temp => decide (-128 ≤ temp) && decide (temp ≤ 127)
  | .writeBufferProgram eu _ _ => decide (eu < 3727360)
  | .garbageCollection victim _ _ => decide (victim < 3727360)
  | .mapCheckpoint _ => true
  | .flashTempPoll _ => true
  | .peRateBucket => true
  | .spanPortUp _ => true
  | .spanPortDown _ => true
  | .slRetrain _ => true
  | .slEnable _ _ => true
  | .openFrame _ b _ => decide (32 ≤ b.length)
  | .spdmFrame _ n _ => decide (n < 256)
  | .dataFrame _ _ _ inst _ => decide (inst < 4096)
  | .ackFrame _ _ _ => true
  | .nakFrame _ _ _ => true
  | .spanRead _ _ _ _ _ _ _ => true
  | .retransmissionTimeout _ _ => true
  | .gapTimeout _ => true
  | .keepaliveTimer _ => true
  | .slowTimeout _ => true
  | .absentTimeout _ => true
  | .bringupTimeout _ _ => true
  | .faultyRetryTimer _ => true
  | .refusedRetryTimer _ => true
  | .rekeyTimer _ => true
  | .oldKeyExpiry _ => true
  | .faultReport _ r _ => decide (r.partner < 19)
  | .faultWindowEnd _ _ => true
  | .faultRecordAgeLimit _ _ => true
  | .faultRecordIntake _ _ => true
  | .faultRecordFinalise _ _ => true
  | .faultLogPersist _ => true
  | .fcHeadWrite _ v => decide (v < 256)
  | .inputWarn _ => true
  | .holdRelease _ => true
  | .inputCommit _ => true
  | .flushDumpDone => true
  | .inputReset _ _ => true
  | .inputOvervoltage _ => true
  | .startCondition _ => true
  | .currentLimit _ => true
  | .holdupMeasurement _ => true
  | .powerStateEntry => true
  | .drawAverageCrossing _ => true
  | .peakWindowExpiry => true
  | .peakSpentRecheck => true
  | .clockStepUpTimer _ => true
  | .peakRecovery => true
  | .deniedExit => true
  | .junctionTempCrossing _ _ => true
  | .thermalStepUp => true
  | .flashTempCrossing _ => true
  | .pwrDisAssert => true
  | .pwrDisDeassert => true
  | .auxPowerUp _ => true
  | .auxPowerLoss => true
  | .boot _ _ lostT _ ms => lostT.all (fun x => decide (x.1 < 32) && decide (x.2 < 32)) && decide (ms < 2 ^ 32)
  | .keeperReady _ _ _ _ => true
  | .keeperReadyTimeout => true
  | .setEndpointId op eid => decide (op < 256) && decide (eid < 256)
  | .getEndpointId => true
  | .getMctpVersionSupport typ => decide (typ < 256)
  | .getMessageTypeSupport => true
  | .getVendorDefinedMessageSupport sel => decide (sel < 256)
  | .readNvmeMiDataStructure _ typ port ctrl => decide (typ < 256) && decide (port < 256) && decide (ctrl < 65536)
  | .nvmSubsystemHealthStatusPoll _ _ => true
  | .controllerHealthStatusPoll _ _ first => decide (first < 65536)
  | .configurationSet _ id port v => decide (id < 256) && decide (port < 256) && decide (v < 65536)
  | .configurationGet _ id port => decide (id < 256) && decide (port < 256)
  | .vpdRead _ off len => decide (off < 65536) && decide (len < 65536)
  | .nvmeMiReset _ typ => decide (typ < 256)
  | .sensorRead _ rails => rails.length == 32
  | .nvmeMiAdminCommand _ ctrl e _ => decide (ctrl < 65536) && e.wf
  | .nvmeMiUnsupportedCommand _ opc => decide (opc < 256)
  | .getVersion => true
  | .getCapabilities ver => decide (ver < 256)
  | .negotiateAlgorithms asym hash meas => decide (asym < 2 ^ 32) && decide (hash < 2 ^ 32) && decide (meas < 256)
  | .getDigests => true
  | .getCertificate slot off len => decide (slot < 256) && decide (off < 65536) && decide (len < 65536)
  | .challenge slot _ _ => decide (slot < 256)
  | .getMeasurements op _ _ => decide (op < 256)
  | .keyExchange _ _ => true
  | .pcieLinkUp l => decide (l.speed < 16) && decide (l.width < 64)
  | .controllerEnable _ asqs acqs => decide (asqs < 2 ^ 16) && decide (acqs < 2 ^ 16)
  | .coolantLimitCrossing _ _ => true
  | .junctionCooldown _ _ _ => true

end Sys2Proof
end

