-- ==== Sys2Proof/Safety.lean ====
section
/-! DEFINITION. What a safe run is: every step answers a next state, and the memories keep their canonical form; and what a
command leaves unchanged. -/

namespace Sys2Proof.Machine

/-- Does a step answer a next state? -/
def goesOn (s : State) : Prop := ∃ t, step s = .next t

/-- A step that goes on and keeps a property. -/
def keeps (p : State → Prop) : Prop := ∀ s t, p s → step s = .next t → p t

/-- The tables of bytes are in their canonical form: addresses strictly rising, no byte listed that an unlisted address reads as. -/
def State.memoryWf (s : State) : Prop := Tab.wf 0 s.mem = true ∧ Tab.wf false s.poison = true ∧ Tab.wf 0 s.hostMem = true

/-- The parts of the state a command may change, beside the queue and the part, which none changes. -/
inductive Field where
  /-- Module memory with its poison marks and undefined ranges. -/
  | memory
  /-- Host memory (log 11). -/
  | hostMem
  /-- The counter of free values (log 8). -/
  | free
  /-- What the last reading command returned (log 5). -/
  | answer
  /-- Counts, crossings, links, MSI-X, configuration space (spec/02, 04). -/
  | fabric
  /-- Controllers, queues, namespaces (spec/03). -/
  | host
  /-- Mailboxes, the command processor, long operations, events (spec/04). -/
  | amp
  /-- Concentrators, the fault log, lost units (spec/19). -/
  | faults
  /-- Supplies, ladder, clocks, thermal (spec/20). -/
  | power
  /-- Boot, keys, owner and firmware records (spec/21). -/
  | sec
  /-- The management endpoint (spec/22). -/
  | mgmt
  /-- Clusters: their windows, slots, movers, matrix units (spec/08, 10, 11). -/
  | cl
  /-- The scheduler and partitions (spec/15). -/
  | sched
  /-- The tiers and the sessions (spec/12, 13). -/
  | tiers
  /-- The tokenizer unit and the commands it serves (spec/13). -/
  | tokens
  /-- The selection machinery (spec/07). -/
  | sel
  /-- The indexes (spec/06). -/
  | index
  /-- The channel pipelines (spec/05). -/
  | pipes
  /-- The media and its requests (spec/16). -/
  | media
  /-- The flash translation (spec/17). -/
  | ftl
  /-- The span links (spec/18). -/
  | span
  /-- The update units and objects (spec/14). -/
  | upd
deriving DecidableEq, Repr

/-- From `s` to `t` nothing has changed but the fields listed. -/
structure Frame (W : List Field) (s t : State) : Prop where
  pending : t.pending = s.pending
  part : t.part = s.part
  memory : Field.memory ∈ W ∨ (t.mem = s.mem ∧ t.poison = s.poison ∧ t.undef = s.undef)
  hostMem : Field.hostMem ∈ W ∨ t.hostMem = s.hostMem
  free : Field.free ∈ W ∨ t.free = s.free
  answer : Field.answer ∈ W ∨ t.answer = s.answer
  fabric : Field.fabric ∈ W ∨ t.fabric = s.fabric
  host : Field.host ∈ W ∨ t.host = s.host
  amp : Field.amp ∈ W ∨ t.amp = s.amp
  faults : Field.faults ∈ W ∨ t.faults = s.faults
  power : Field.power ∈ W ∨ t.power = s.power
  sec : Field.sec ∈ W ∨ t.sec = s.sec
  mgmt : Field.mgmt ∈ W ∨ t.mgmt = s.mgmt
  cl : Field.cl ∈ W ∨ t.cl = s.cl
  sched : Field.sched ∈ W ∨ t.sched = s.sched
  tiers : Field.tiers ∈ W ∨ t.tiers = s.tiers
  tokens : Field.tokens ∈ W ∨ t.tokens = s.tokens
  sel : Field.sel ∈ W ∨ t.sel = s.sel
  index : Field.index ∈ W ∨ t.index = s.index
  pipes : Field.pipes ∈ W ∨ t.pipes = s.pipes
  media : Field.media ∈ W ∨ t.media = s.media
  ftl : Field.ftl ∈ W ∨ t.ftl = s.ftl
  span : Field.span ∈ W ∨ t.span = s.span
  upd : Field.upd ∈ W ∨ t.upd = s.upd

/-! ## When a command is taken up

A command named by its tag, or an AMP message in turn on a mailbox, has its own effect under the conditions below; outside them it
is refused, or waits, as its row says. -/

/-- A started standard I/O command passes the checks of R56, R69, R400 and R404. -/
def State.ioAdmitted (s : State) (tag opc : Nat) (writes mdts : Bool) (t : Trk) : Prop :=
  s.startedAs tag opc = some t ∧ s.ftl.sanitizer = none ∧ s.ioCheck t writes = none ∧ s.lbaCheck t mdts = none

/-- A started vendor command passes the checks of R496, and is not to stop (R67). -/
def State.vendorAdmitted (s : State) (tag opc : Nat) (option : Bool) (t : Trk) : Prop :=
  s.startedAs tag opc = some t ∧ t.phase = .started ∧ s.ftl.sanitizer = none ∧ s.vendorCheck t.sqe option = none

/-- Message `j` is in turn on a mailbox and is executed: the mailboxes answer, its opcode is the row's, its feature is reported (R13),
and Held does not refuse it (R81, R96). -/
def State.ampTurnOf (s : State) (mb op : Nat) (j : AmpJob) : Prop :=
  s.mailOn = true ∧ ampTurn mb s.amp.jobs false = some j ∧ j.op = op ∧ j.missing = false
    ∧ (s.isHeld && ampHeldRefused.contains op) = false

/-- The response of the message in turn is fixed: its status and payload. -/
def State.ampDone (s : State) (mb st : Nat) (p : Bytes) : State :=
  s.modAmp fun a => { a with jobs := ampSetReady mb (.done st p) a.jobs }

/-- A long operation is open under the next number (R96). -/
def State.opened (s : State) (k : OpKind) : State :=
  s.modAmp fun a => { a with ops := Tab.put a.ops a.nextOp { kind := k }, nextOp := a.nextOp + 1 }

/-- What a command may change (everything else stays as it was). -/
def mayWrite : Instr → List Field
  | .registerWrite .. => [.answer, .fabric, .host, .amp, .faults, .cl, .pipes, .media]
  | .linkFlitReceive .. => [.memory, .fabric, .faults]
  | .linkRetrainDone .. => [.memory, .free, .fabric, .host, .amp, .faults, .power, .sec, .mgmt, .cl, .sched, .tiers, .tokens, .sel, .index, .pipes, .media, .ftl, .span, .upd]
  | .busAccess .. => [.memory, .free, .answer, .fabric, .host, .amp, .faults, .cl, .sched, .pipes, .media]
  | .localCountLoRead .. => [.answer, .fabric]
  | .cqWrite .. => [.memory, .fabric, .faults, .pipes, .media]
  | .cqFlush .. => [.fabric, .pipes]
  | .cqWordReadable .. => [.memory, .fabric, .faults]
  | .cqRead .. => [.answer, .fabric, .pipes]
  | .cqFreeVisible .. => [.memory, .fabric, .faults, .pipes, .media]
  | .cqCtrlFlush .. => [.fabric]
  | .cqReset .. => [.fabric, .pipes]
  | .cqClrCounts .. => [.fabric]
  | .cqThreshLevelWrite .. => [.fabric]
  | .perstDeassert .. => [.fabric, .host, .power]
  | .linkDown .. => [.fabric, .host, .amp, .tiers, .ftl]
  | .hotReset .. => [.fabric, .host, .amp, .tiers, .ftl]
  | .functionLevelReset .. => [.fabric, .host, .amp, .tiers, .ftl]
  | .nvmSubsystemReset => [.fabric, .host, .tiers, .ftl]
  | .ccEnClear .. => [.fabric, .host, .tiers, .ftl]
  | .controllerResetDone .. => [.hostMem, .fabric, .host, .amp, .cl, .sched, .tiers, .tokens]
  | .sqTailDoorbell .. => [.fabric, .host, .amp, .power, .span]
  | .cqHeadDoorbell .. => [.fabric, .host]
  | .commandFetch .. => [.host]
  | .commandStart .. => [.host]
  | .invalidCommandOpcode .. => [.answer, .fabric, .host, .tiers]
  | .deleteIoSq .. => [.answer, .fabric, .host, .tiers]
  | .deleteIoSqDone .. => [.hostMem, .answer, .fabric, .host, .amp, .cl, .sched, .tiers, .tokens]
  | .createIoSq .. => [.answer, .fabric, .host]
  | .deleteIoCq .. => [.answer, .fabric, .host]
  | .createIoCq .. => [.answer, .fabric, .host]
  | .identify .. => [.answer, .fabric, .host]
  | .abort .. => [.answer, .fabric, .host]
  | .setFeatures .. => [.answer, .fabric, .host]
  | .setFeaturesTimestamp .. => [.answer, .fabric, .host, .media]
  | .setFeaturesPowerManagement .. => [.answer, .fabric, .host, .power]
  | .getFeatures .. => [.answer, .fabric, .host]
  | .getLogPage .. => [.free, .answer, .fabric, .host]
  | .asynchronousEventRequest .. => [.answer, .fabric, .host]
  | .namespaceManagement .. => [.free, .answer, .fabric, .host, .sec, .index, .ftl]
  | .namespaceAttachment .. => [.answer, .fabric, .host]
  | .formatNvm .. => [.memory, .free, .answer, .fabric, .host, .amp, .faults, .sec, .index, .media, .ftl]
  | .nvmeSanitize .. => [.answer, .fabric, .host, .ftl]
  | .flush .. => [.free, .fabric, .host, .tiers]
  | .write .. => [.free, .fabric, .host, .amp, .tiers, .index, .media, .ftl]
  | .read .. => [.memory, .hostMem, .free, .answer, .fabric, .host, .faults, .tiers, .ftl]
  | .writeZeroes .. => [.free, .fabric, .host, .amp, .tiers, .index, .media, .ftl]
  | .datasetManagement .. => [.free, .fabric, .host, .amp, .tiers, .index, .media, .ftl]
  | .secureDiscard .. => [.memory, .free, .fabric, .host, .amp, .faults, .tiers, .index, .media, .ftl]
  | .verify .. => [.memory, .free, .fabric, .host, .faults, .tiers, .ftl]
  | .indexQuery .. => [.memory, .hostMem, .free, .fabric, .host, .cl, .tiers, .sel, .index, .pipes, .span]
  | .indexInsert .. => [.hostMem, .free, .fabric, .host, .tiers, .index]
  | .indexDelete .. => [.hostMem, .free, .fabric, .host, .tiers, .index]
  | .indexWriteRoom .. => [.hostMem, .fabric, .host, .tiers, .index]
  | .scan .. => [.memory, .hostMem, .free, .fabric, .host, .tiers, .sel, .pipes]
  | .embed .. => [.memory, .hostMem, .free, .fabric, .host, .amp, .cl, .sched, .tiers, .tokens]
  | .generate .. => [.memory, .hostMem, .free, .fabric, .host, .amp, .cl, .sched, .tiers, .tokens]
  | .sessionOpen .. => [.memory, .hostMem, .free, .fabric, .host, .tiers]
  | .sessionPark .. => [.hostMem, .free, .fabric, .host, .tiers]
  | .sessionResume .. => [.hostMem, .free, .fabric, .host, .tiers]
  | .sessionClose .. => [.hostMem, .free, .fabric, .host, .tiers]
  | .run .. => [.memory, .hostMem, .free, .fabric, .host, .amp, .cl, .sched, .tiers, .tokens]
  | .resultHeaderTimer .. => [.hostMem, .host]
  | .mbReqLenWrite .. => [.answer, .amp]
  | .mbDataInWrite .. => [.answer, .amp]
  | .mbDataOutRead .. => [.answer, .amp]
  | .mbSend .. => [.answer, .fabric, .amp, .power, .span]
  | .mbRelease .. => [.answer, .amp]
  | .mbAbandon .. => [.answer, .amp]
  | .mbResponseReady .. => [.answer, .fabric, .amp]
  | .mctpAmpMessage .. => [.answer, .fabric, .amp, .power, .span]
  | .mgmtEventNotice => [.answer, .amp]
  | .hello .. => [.amp]
  | .ampStatus .. => [.amp]
  | .keyAgree .. => [.free, .fabric, .amp, .sec]
  | .lockoutExpiry .. => [.amp]
  | .eventRead .. => [.amp]
  | .opStatus .. => [.amp]
  | .configRead .. => [.amp]
  | .configWrite .. => [.memory, .free, .fabric, .amp, .sec, .cl, .tiers, .ftl, .span]
  | .eventMask .. => [.amp]
  | .timeRead .. => [.amp]
  | .objectInstall .. => [.amp]
  | .objectInstallDone .. => [.memory, .fabric, .amp, .cl, .tiers]
  | .objectRemove .. => [.amp, .cl, .tiers]
  | .objectList .. => [.amp]
  | .indexCreate .. => [.free, .amp, .sec, .tiers, .index, .ftl]
  | .indexDrop .. => [.hostMem, .fabric, .host, .amp, .sec, .tiers, .index, .ftl]
  | .indexTrain .. => [.amp, .index]
  | .indexTrainDone .. => [.memory, .fabric, .amp, .faults, .index]
  | .indexFold .. => [.fabric, .amp, .index]
  | .foldSwitch .. => [.memory, .free, .fabric, .amp, .faults, .tiers, .index, .media, .ftl]
  | .indexBind .. => [.amp, .index]
  | .indexStats .. => [.amp]
  | .ingestWindowProcess .. => [.memory, .faults, .index]
  | .partSet .. => [.memory, .hostMem, .free, .fabric, .host, .amp, .cl, .sched, .tiers, .tokens]
  | .partRead .. => [.amp]
  | .powerSet .. => [.fabric, .amp, .power, .span]
  | .powerRead .. => [.amp]
  | .writeGovernor .. => [.amp, .power]
  | .faultRead .. => [.amp]
  | .faultAck .. => [.amp, .faults]
  | .scrubRange .. => [.amp, .faults]
  | .scrubDone .. => [.memory, .free, .fabric, .amp, .faults, .cl, .sched, .media, .ftl]
  | .retire .. => [.amp, .faults, .cl, .ftl]
  | .ownerSet .. => [.memory, .hostMem, .free, .fabric, .host, .amp, .faults, .sec, .cl, .tiers, .index, .media, .ftl]
  | .ownerReleaseRestart => [.memory, .free, .fabric, .host, .amp, .faults, .power, .sec, .mgmt, .cl, .sched, .tiers, .tokens, .sel, .index, .pipes, .media, .ftl, .span, .upd]
  | .nsKeySet .. => [.amp, .sec]
  | .cryptoErase .. => [.free, .amp, .sec, .index, .ftl]
  | .sanitize .. => [.amp, .ftl]
  | .sanitizeDone .. => [.memory, .hostMem, .free, .answer, .fabric, .host, .amp, .faults, .sec, .cl, .tiers, .index, .media, .ftl]
  | .fwStage .. => [.amp, .sec]
  | .fwVerify .. => [.amp, .sec]
  | .fwVerifyDone => [.fabric, .amp, .sec]
  | .fwCommit .. => [.amp, .sec]
  | .fwCommitDone .. => [.fabric, .amp, .sec]
  | .recoveryReboot => [.memory, .free, .fabric, .host, .amp, .faults, .power, .sec, .mgmt, .cl, .sched, .tiers, .tokens, .sel, .index, .pipes, .media, .ftl, .span, .upd]
  | .spanConfig .. => [.fabric, .amp, .span]
  | .spanStatus .. => [.amp]
  | .spanPeerSet .. => [.memory, .hostMem, .free, .fabric, .host, .amp, .cl, .sched, .tiers, .tokens, .index, .pipes, .media, .span]
  | .unlistedAmpOpcode .. => [.amp]
  | .cpJobTailWrite .. => [.pipes]
  | .cpCmplHeadWrite .. => [.pipes]
  | .abortJob .. => [.fabric, .pipes, .media]
  | .cpEnable .. => [.pipes]
  | .channelJobStart .. => [.memory, .fabric, .faults, .pipes, .media]
  | .s6TableLoadDone .. => [.memory, .fabric, .faults, .pipes, .media]
  | .s8ThresholdFeedback .. => [.pipes]
  | .channelJobComplete .. => [.memory, .fabric, .host, .faults, .sel, .index, .pipes, .media]
  | .seamJob .. => [.memory, .pipes]
  | .selectionStart .. => [.memory, .free, .cl, .sched, .sel]
  | .selectionComplete .. => [.memory, .free, .faults, .cl, .sched, .sel]
  | .selFlush .. => [.memory, .free, .cl, .sched, .sel]
  | .selEnable .. => [.sel]
  | .mergeInstanceOpen .. => [.answer, .sel]
  | .mergeEntryArrival .. => [.memory, .hostMem, .answer, .fabric, .host, .cl, .sel, .pipes, .media]
  | .mergeInstanceClose .. => [.hostMem, .answer, .fabric, .host, .amp, .cl, .tiers, .sel, .index, .pipes, .ftl, .span]
  | .tileLoad .. => [.memory, .hostMem, .free, .fabric, .host, .amp, .cl, .sched, .tiers, .tokens]
  | .tileStream .. => [.memory, .hostMem, .free, .fabric, .host, .amp, .cl, .sched, .tiers, .tokens]
  | .tileDrain .. => [.memory, .hostMem, .free, .fabric, .host, .amp, .cl, .sched, .tiers, .tokens]
  | .tileCfg .. => [.memory, .hostMem, .free, .fabric, .host, .amp, .cl, .sched, .tiers, .tokens]
  | .tileFence .. => [.memory, .hostMem, .free, .fabric, .host, .amp, .cl, .sched, .tiers, .tokens]
  | .chainGo .. => [.memory, .hostMem, .free, .fabric, .host, .amp, .faults, .cl, .sched, .tiers, .tokens]
  | .mvIssue .. => [.memory, .hostMem, .free, .fabric, .host, .amp, .faults, .cl, .sched, .tiers, .tokens]
  | .selIssue .. => [.memory, .hostMem, .free, .answer, .fabric, .host, .amp, .faults, .cl, .sched, .tiers, .tokens, .sel]
  | .slotWait .. => [.memory, .hostMem, .free, .fabric, .host, .amp, .cl, .sched, .tiers, .tokens]
  | .slotTake .. => [.memory, .hostMem, .free, .fabric, .host, .amp, .cl, .sched, .tiers, .tokens]
  | .slotGive .. => [.memory, .hostMem, .free, .fabric, .host, .amp, .cl, .sched, .tiers, .tokens]
  | .slotPeek .. => [.memory, .hostMem, .free, .fabric, .host, .amp, .cl, .sched, .tiers, .tokens]
  | .slotClear .. => [.memory, .hostMem, .free, .fabric, .host, .amp, .cl, .sched, .tiers, .tokens]
  | .stepMark .. => [.memory, .hostMem, .free, .fabric, .host, .amp, .cl, .sched, .tiers, .tokens]
  | .stewardInstruction .. => [.memory, .hostMem, .free, .answer, .fabric, .host, .amp, .faults, .cl, .sched, .tiers, .tokens, .sel, .media, .ftl]
  | .stewardLoad .. => [.memory, .hostMem, .free, .answer, .fabric, .host, .amp, .faults, .cl, .sched, .tiers, .tokens]
  | .stewardStore .. => [.memory, .hostMem, .free, .fabric, .host, .amp, .faults, .cl, .sched, .tiers, .tokens]
  | .mxuOpStart .. => [.cl]
  | .mxuOpComplete .. => [.memory, .hostMem, .free, .fabric, .host, .amp, .faults, .cl, .sched, .tiers, .tokens]
  | .clMxuReset .. => [.free, .cl]
  | .clCoreReset .. => [.cl]
  | .clHalt .. => [.cl]
  | .clEnable .. => [.cl]
  | .narrowGuarantee .. => [.cl]
  | .cvClr .. => [.cl]
  | .chainComplete .. => [.memory, .hostMem, .free, .fabric, .host, .amp, .faults, .cl, .sched, .tiers, .tokens]
  | .chainBlockSend .. => [.memory, .hostMem, .free, .fabric, .host, .amp, .faults, .cl, .sched, .tiers, .tokens, .span]
  | .tenantClear .. => [.cl]
  | .tenantClearDone .. => [.memory, .hostMem, .free, .fabric, .host, .amp, .cl, .sched, .tiers, .tokens]
  | .spClrCounts .. => [.cl]
  | .slotReset .. => [.cl]
  | .bankPowerDown .. => [.cl]
  | .bankOff .. => [.cl]
  | .bankPowerTimeout .. => [.cl]
  | .bankPowerDownForce .. => [.cl]
  | .bankForceOff .. => [.cl]
  | .bankPowerUp .. => [.cl]
  | .bankPowerUpDone .. => [.memory, .free, .cl]
  | .bankRetire .. => [.faults, .cl]
  | .slotWaitLimitWrite .. => [.cl]
  | .spResidentWrite .. => [.cl]
  | .slotWindowWrite .. => [.cl]
  | .slotWaitTimeout .. => [.memory, .hostMem, .free, .fabric, .host, .amp, .cl, .sched, .tiers, .tokens]
  | .remoteSlotArrival .. => [.cl]
  | .residentReloadDone .. => [.memory, .hostMem, .free, .fabric, .host, .amp, .faults, .cl, .sched, .tiers, .tokens]
  | .mvPost .. => [.memory, .free, .faults, .cl, .sched]
  | .mvFlush .. => [.memory, .free, .cl, .sched]
  | .mvEnable .. => [.cl]
  | .linear .. => [.cl]
  | .tileIn .. => [.cl]
  | .tileOut .. => [.cl]
  | .tensorIn .. => [.cl]
  | .tensorOut .. => [.cl]
  | .fill .. => [.cl]
  | .copy .. => [.cl]
  | .transpose .. => [.cl]
  | .moverDescriptorDone .. => [.memory, .free, .faults, .cl, .sched, .tiers]
  | .tierDemotion .. => [.memory, .tiers]
  | .tilePromotion .. => [.memory, .cl, .tiers]
  | .sessionDemotion .. => [.tiers]
  | .parkT2Done .. => [.hostMem, .fabric, .host, .tiers]
  | .resumeColdDone .. => [.memory, .hostMem, .fabric, .host, .tiers]
  | .tokenizerSlice => [.tokens]
  | .updSubmit .. => [.memory, .answer, .cl, .sched, .upd]
  | .updateJobStart .. => [.upd]
  | .updCommit .. => [.memory, .cl, .upd]
  | .updateSliceEnd .. => [.memory, .free, .cl, .sched, .upd]
  | .quantumExpiry .. => [.cl, .sched]
  | .saveComplete .. => [.memory, .hostMem, .free, .fabric, .host, .amp, .cl, .sched, .tiers, .tokens]
  | .runEmit .. => [.memory, .hostMem, .free, .fabric, .host, .amp, .faults, .cl, .sched, .tiers, .tokens]
  | .taskEnd .. => [.memory, .hostMem, .free, .fabric, .host, .amp, .cl, .sched, .tiers, .tokens]
  | .romResetEntry .. => [.media]
  | .targetBringupTimeout .. => [.memory, .faults, .media]
  | .mrReqTailWrite .. => [.media]
  | .mrCmplHeadWrite .. => [.media]
  | .mrEnable .. => [.media]
  | .mediaRead .. => [.memory, .free, .fabric, .faults, .pipes, .media, .ftl]
  | .mediaReadMargin .. => [.memory, .free, .fabric, .faults, .pipes, .media, .ftl]
  | .mediaProgram .. => [.memory, .free, .fabric, .faults, .pipes, .media, .ftl]
  | .mediaErase .. => [.memory, .free, .fabric, .faults, .pipes, .media, .ftl]
  | .mediaReset .. => [.memory, .free, .fabric, .faults, .pipes, .media, .ftl]
  | .mediaGetFeatures .. => [.memory, .free, .fabric, .faults, .pipes, .media, .ftl]
  | .mediaStatus .. => [.memory, .free, .fabric, .faults, .pipes, .media, .ftl]
  | .mediaClose .. => [.memory, .free, .fabric, .faults, .pipes, .media, .ftl]
  | .mediaParams .. => [.memory, .free, .fabric, .faults, .pipes, .media, .ftl]
  | .mediaOpComplete .. => [.memory, .free, .fabric, .faults, .pipes, .media, .ftl]
  | .mediaTimeout .. => [.memory, .free, .fabric, .faults, .pipes, .media, .ftl]
  | .mediaSuspend .. => [.memory, .free, .fabric, .faults, .pipes, .media, .ftl]
  | .mediaHold .. => [.memory, .free, .fabric, .faults, .pipes, .media, .ftl]
  | .mediaFlush => [.memory, .free, .fabric, .faults, .pipes, .media, .ftl]
  | .dieTempSample .. => [.media]
  | .writeBufferProgram .. => [.memory, .free, .fabric, .amp, .faults, .media, .ftl]
  | .garbageCollection .. => [.memory, .free, .fabric, .amp, .faults, .media, .ftl]
  | .mapCheckpoint .. => [.ftl]
  | .flashTempPoll .. => [.power, .mgmt, .ftl]
  | .peRateBucket => [.fabric, .amp, .ftl]
  | .spanPortUp .. => [.fabric, .amp, .span]
  | .spanPortDown .. => [.fabric, .amp, .span]
  | .slRetrain .. => [.fabric, .amp, .span]
  | .slEnable .. => [.fabric, .amp, .span]
  | .openFrame .. => [.memory, .hostMem, .free, .fabric, .host, .amp, .cl, .sched, .tiers, .tokens, .index, .pipes, .media, .span]
  | .spdmFrame .. => [.memory, .hostMem, .free, .fabric, .host, .amp, .cl, .sched, .tiers, .tokens, .index, .pipes, .media, .span]
  | .dataFrame .. => [.memory, .hostMem, .free, .fabric, .host, .amp, .faults, .cl, .sched, .tiers, .tokens, .sel, .index, .pipes, .media, .span]
  | .ackFrame .. => [.memory, .hostMem, .free, .fabric, .host, .amp, .cl, .sched, .tiers, .tokens, .index, .pipes, .media, .span]
  | .nakFrame .. => [.memory, .hostMem, .free, .fabric, .host, .amp, .cl, .sched, .tiers, .tokens, .index, .pipes, .media, .span]
  | .spanRead .. => [.memory, .answer, .cl, .sched, .span]
  | .retransmissionTimeout .. => [.fabric, .amp, .span]
  | .gapTimeout .. => [.span]
  | .keepaliveTimer .. => [.span]
  | .slowTimeout .. => [.fabric, .amp, .span]
  | .absentTimeout .. => [.memory, .hostMem, .free, .fabric, .host, .amp, .cl, .sched, .tiers, .tokens, .index, .pipes, .media, .span]
  | .bringupTimeout .. => [.memory, .hostMem, .free, .fabric, .host, .amp, .cl, .sched, .tiers, .tokens, .index, .pipes, .media, .span]
  | .faultyRetryTimer .. => [.span]
  | .refusedRetryTimer .. => [.span]
  | .rekeyTimer .. => [.span]
  | .oldKeyExpiry .. => [.span]
  | .faultReport .. => [.memory, .hostMem, .free, .fabric, .host, .amp, .faults, .power, .sec, .mgmt, .cl, .sched, .tiers, .tokens, .sel, .index, .pipes, .media, .ftl, .span, .upd]
  | .faultWindowEnd .. => [.memory, .faults]
  | .faultRecordAgeLimit .. => [.memory, .faults]
  | .faultRecordIntake .. => [.fabric, .amp, .faults]
  | .faultRecordFinalise .. => [.faults]
  | .faultLogPersist .. => [.faults]
  | .fcHeadWrite .. => [.faults]
  | .inputWarn .. => [.memory, .free, .fabric, .amp, .faults, .power, .pipes, .media, .ftl]
  | .holdRelease .. => [.memory, .free, .fabric, .amp, .faults, .power, .pipes, .media, .ftl]
  | .inputCommit .. => [.memory, .free, .fabric, .host, .amp, .faults, .power, .sec, .mgmt, .cl, .sched, .tiers, .tokens, .sel, .index, .pipes, .media, .ftl, .span, .upd]
  | .flushDumpDone => [.memory, .free, .fabric, .host, .amp, .faults, .power, .sec, .mgmt, .cl, .sched, .tiers, .tokens, .sel, .index, .pipes, .media, .ftl, .span, .upd]
  | .inputReset .. => [.memory, .free, .fabric, .host, .amp, .faults, .power, .sec, .mgmt, .cl, .sched, .tiers, .tokens, .sel, .index, .pipes, .media, .ftl, .span, .upd]
  | .inputOvervoltage .. => [.memory, .free, .fabric, .host, .amp, .faults, .power, .sec, .mgmt, .cl, .sched, .tiers, .tokens, .sel, .index, .pipes, .media, .ftl, .span, .upd]
  | .startCondition .. => [.fabric, .power]
  | .currentLimit .. => [.fabric, .amp, .power]
  | .holdupMeasurement .. => [.fabric, .amp, .power]
  | .powerStateEntry => [.memory, .hostMem, .free, .fabric, .host, .amp, .faults, .power, .sec, .mgmt, .cl, .sched, .tiers, .tokens, .sel, .index, .pipes, .media, .ftl, .span, .upd]
  | .drawAverageCrossing .. => [.fabric, .amp, .power]
  | .peakWindowExpiry => [.fabric, .amp, .power]
  | .peakSpentRecheck => [.fabric, .amp, .power]
  | .clockStepUpTimer .. => [.fabric, .amp, .power]
  | .peakRecovery => [.fabric, .amp, .power]
  | .deniedExit => [.fabric, .amp, .power]
  | .junctionTempCrossing .. => [.memory, .free, .fabric, .host, .amp, .faults, .power, .sec, .mgmt, .cl, .sched, .tiers, .tokens, .sel, .index, .pipes, .media, .ftl, .span, .upd]
  | .thermalStepUp => [.fabric, .amp, .power]
  | .flashTempCrossing .. => [.memory, .free, .fabric, .amp, .faults, .power, .pipes, .media, .ftl]
  | .pwrDisAssert => [.memory, .free, .fabric, .host, .amp, .faults, .power, .sec, .mgmt, .cl, .sched, .tiers, .tokens, .sel, .index, .pipes, .media, .ftl, .span, .upd]
  | .pwrDisDeassert => [.power]
  | .auxPowerUp .. => [.mgmt]
  | .auxPowerLoss => [.memory, .free, .fabric, .host, .amp, .faults, .power, .sec, .mgmt, .cl, .sched, .tiers, .tokens, .sel, .index, .pipes, .media, .ftl, .span, .upd]
  | .boot .. => [.memory, .free, .fabric, .host, .amp, .faults, .sec, .sel, .media, .ftl]
  | .keeperReady .. => [.memory, .free, .fabric, .host, .amp, .faults, .power, .sec, .cl, .tiers, .sel, .media, .ftl, .span]
  | .keeperReadyTimeout => [.memory, .free, .fabric, .host, .amp, .faults, .power, .sec, .mgmt, .cl, .sched, .tiers, .tokens, .sel, .index, .pipes, .media, .ftl, .span, .upd]
  | .setEndpointId .. => [.answer, .mgmt]
  | .getEndpointId => [.answer]
  | .getMctpVersionSupport .. => [.answer]
  | .getMessageTypeSupport => [.answer]
  | .getVendorDefinedMessageSupport .. => [.answer]
  | .readNvmeMiDataStructure .. => [.free, .answer]
  | .nvmSubsystemHealthStatusPoll .. => [.answer, .mgmt]
  | .controllerHealthStatusPoll .. => [.answer, .mgmt]
  | .configurationSet .. => [.answer, .mgmt]
  | .configurationGet .. => [.answer]
  | .vpdRead .. => [.answer]
  | .nvmeMiReset .. => [.answer, .fabric, .host, .tiers, .ftl]
  | .sensorRead .. => [.free, .answer]
  | .nvmeMiAdminCommand .. => [.free, .answer, .fabric, .host, .media]
  | .nvmeMiUnsupportedCommand .. => [.answer]
  | .getVersion => [.answer, .mgmt]
  | .getCapabilities .. => [.answer, .mgmt]
  | .negotiateAlgorithms .. => [.answer, .mgmt]
  | .getDigests => [.answer]
  | .getCertificate .. => [.answer]
  | .challenge .. => [.free, .answer]
  | .getMeasurements .. => [.free, .answer]
  | .keyExchange .. => [.free, .answer]
  | .pcieLinkUp .. => [.host]
  | .controllerEnable .. => [.host]
  | .coolantLimitCrossing .. => [.fabric, .amp, .power]
  | .junctionCooldown .. => [.power]

end Sys2Proof.Machine
end

