-- ==== Sys2Proof/Certificates/Slice0/Obligations.lean ====
section
/-! DEFINITION. The statements for the provers. Each names what it states; where a command completes, its statement's conclusion is the next
state that `exec` answers, under hypotheses on the state and the operands alone. What a command leaves unchanged is said by `Frame` for the
parts listed, and by EveryCommandKeepsItsFrame for every command. -/

open Sys2Proof Sys2Proof.Machine

/-! ## The machine as a whole -/

/-- One step takes the command at the front of the queue and runs it on the state with the queue's rest. -/
def Obligations.StepRunsFrontCommand : Prop :=
  ∀ (c : Instr) (rest : List Instr) (s : State), step { s with pending := c :: rest } = exec c { s with pending := rest }

/-- With no command waiting a step lets a microsecond pass, which is the model's choice (log 4): the HD count advances by one, modulo
2^64, while either supply is present, and stands otherwise; the counts apart nothing changes but the two times of the peak window. -/
def Obligations.EmptyQueueLetsAMicrosecondPass : Prop :=
  ∀ s : State, s.pending = [] → ∃ t, step s = .next t ∧ Frame [.fabric, .power] s t
    ∧ (s.sideband = true → t.fabric.hd.now = (s.fabric.hd.now + 1) % 2 ^ 64)
    ∧ (s.sideband = false → t.fabric.hd.now = s.fabric.hd.now)
    ∧ t.fabric = { s.fabric with
        cd0 := t.fabric.cd0, cd1 := t.fabric.cd1, hd := { s.fabric.hd with now := t.fabric.hd.now } }
    ∧ t.power = { s.power with windowUs := t.power.windowUs, recoverUs := t.power.recoverUs }

/-- Every command answers a next state, and changes no part of the state but those `mayWrite` lists for it; never the queue, never
which part this is. -/
def Obligations.EveryCommandKeepsItsFrame : Prop :=
  ∀ (c : Instr) (s : State), ∃ t, exec c s = .next t ∧ Frame (mayWrite c) s t

/-- Every step keeps the canonical form of the memories, from any state that has it. -/
def Obligations.StepKeepsMemoryForm : Prop :=
  keeps State.memoryWf

/-- No step lowers the anti-rollback counter or makes a revoked firmware key good again (R458: OTP fuses; R460: the counter is only
raised). -/
def Obligations.StepNeverRestoresAFuse : Prop :=
  ∀ s t, step s = .next t → s.sec.counter ≤ t.sec.counter ∧ ∀ k, k ∈ s.sec.revoked → k ∈ t.sec.revoked

/-- Right after reset: no command waits; every local count stands at 0 and no host time is bound (R38, R39); every crossing queue is empty,
with EMPTY its only status bit and its control word 0 (R42, R45); no owner exists and the module is not in the Held state; the mailboxes
are idle; and the memories have their canonical form. -/
def Obligations.ResetHoldsWhatTheSpecGives : Prop :=
  State.reset.pending = [] ∧ (∀ d, State.reset.count d = 0) ∧ State.reset.hostTime = none
    ∧ (∀ q : Fin 64, (State.reset.xq q).statusWord = 2 ^ 14) ∧ (∀ q : Fin 64, (State.reset.xq q).ctrlWord = 0)
    ∧ State.reset.sec.owned = false ∧ State.reset.sec.held = 0 ∧ (∀ k < 3, (State.reset.amp.mb k).state = .idle)
    ∧ State.reset.memoryWf

/-- Bytes written to module memory are read back, and every byte outside them reads as before, wherever the memory has its canonical
form (R30, R31). -/
def Obligations.MemoryReadsBackWhatIsWritten : Prop :=
  ∀ (s : State) (a : Nat) (b : Bytes), s.memoryWf →
    (∀ i (h : i < b.length), (s.writeMem a b).byteAt (a + i) = b[i])
      ∧ ∀ x, x < a ∨ a + b.length ≤ x → (s.writeMem a b).byteAt x = s.byteAt x

/-! ## Links, counts and crossing queues (spec/02) -/

/-- R26, R29, at each end of each link that is up: a good flit ends that end's run of replays and leaves the other end's; a bad one is
replayed, counted and reported; after 16 replays of one flit the link retrains. A link that retrains comes up with no replays counted;
one whose retraining fails is lost and kept in the list of lost units (links whose loss takes no die with it). -/
def Obligations.LinkReplaysThenRetrains : Prop :=
  (∀ s l far, (s.link l).state = .up → ∃ t, exec (.linkFlitReceive l far true) s = .next t ∧ Frame [.fabric] s t
      ∧ (t.link l).state = .up ∧ (t.link l).replays far = 0 ∧ (t.link l).replays (!far) = (s.link l).replays (!far)
      ∧ ∀ k, k.key ≠ l.key → t.link k = s.link k)
    ∧ (∀ s l far, (s.link l).state = .up → (s.link l).replays far < 16 → ∃ t, exec (.linkFlitReceive l far false) s = .next t
        ∧ Frame [.memory, .fabric, .faults] s t
        ∧ t.fabric = (s.setLink l ((s.link l).setReplays far ((s.link l).replays far + 1))).fabric
        ∧ (t.faults.conc (linkEnd l far)).reports = satAdd (2 ^ 32 - 1) (s.faults.conc (linkEnd l far)).reports 1)
    ∧ (∀ s l far, (s.link l).state = .up → 16 ≤ (s.link l).replays far →
        exec (.linkFlitReceive l far false) s = .next (s.setLink l { (s.link l) with state := .retraining }))
    ∧ (∀ s l d, (s.link l).state = .retraining → exec (.linkRetrainDone l d true) s = .next (s.setLink l {}))
    ∧ ∀ s l d, (s.link l).state = .retraining → l.key ≠ 1 → l.key ≠ 2 → ∃ t, exec (.linkRetrainDone l d false) s = .next t
        ∧ LostUnit.link l.key ∈ t.faults.lost ∧ (t.link l).state = .lost ∧ t.fabric.xq = s.fabric.xq ∧ t.fabric.hd = s.fabric.hd

/-- R40: a read of LOCAL_COUNT_LO returns the count or its low half and latches the high half of the same instant; only the latch and
the answer change. -/
def Obligations.CountReadIsOfOneInstant : Prop :=
  ∀ s d whole, ∃ t, exec (.localCountLoRead d whole) s = .next t ∧ Frame [.fabric, .answer] s t
    ∧ t.answer = .value (if whole then s.count d else s.count d % 2 ^ 32)
    ∧ (∀ e, t.count e = s.count e)
    ∧ (match d with
      | .cd0 => t.fabric.cd0.latch
      | .cd1 => t.fabric.cd1.latch
      | .hd => t.fabric.hd.latch) = s.count d / 2 ^ 32
    ∧ t.fabric.pair = s.fabric.pair ∧ t.fabric.xq = s.fabric.xq ∧ t.fabric.links = s.fabric.links ∧ t.fabric.msix = s.fabric.msix

/-- R41, R43, R45: a write while the write side sees the queue as full changes the overrun bit and its count and no more, where the queue
is no channel's that runs a job; a write that is accepted packs its word behind what the part-packed word holds, and 64 bytes make a read
word, which stands behind the earlier ones (for a channel's queue the word's destination is kept beside it). A read takes the oldest readable
word with its sideband, and leaves it counted as taken on the write side, until it is seen there as free; a read of an empty queue returns the
empty-read word and sets the underrun bit. -/
def Obligations.CrossingWordsArePackedAndReadInOrder : Prop :=
  (∀ s (q : Fin 64) w bad, (s.xq q).fullWrite = true → (q.val < 32 → (s.pipe q).run = none) →
      exec (.cqWrite q w bad false) s = .next (s.modXq q fun x =>
        { x with overrun := true, overrunCount := satAdd 65535 x.overrunCount 1 }))
    ∧ (∀ s (q : Fin 64) w bad, 32 ≤ q.val → (s.xq q).fullWrite = false → (s.xq q).part.length + (w.take 8).length < 64 →
        exec (.cqWrite q w bad false) s = .next (s.modXq q fun x =>
          { x with part := x.part ++ w.take 8, partBad := x.partBad || bad }))
    ∧ (∀ s (q : Fin 64) w bad, 32 ≤ q.val → (s.xq q).fullWrite = false → 64 ≤ (s.xq q).part.length + (w.take 8).length →
        exec (.cqWrite q w bad false) s = .next (s.modXq q fun x =>
          { x with flight := x.flight ++ [⟨(x.part ++ w.take 8).take 64, 0, x.partBad || bad⟩], part := [], partBad := false }))
    ∧ (∀ s (q : Fin 64) w bad, q.val < 32 → (s.xq q).fullWrite = false → ∃ t, exec (.cqWrite q w bad false) s = .next t
        ∧ t.fabric = (s.modXq q fun x => x.write (w.take 16) bad).fabric
        ∧ t.pipes = (s.modPipes fun p => { p with chans := Tab.mod {} p.chans q fun c =>
            { c with sent := c.sent ++ [(c.dest, w.take 16, bad)] } }).pipes)
    ∧ (∀ s (q : Fin 64) w ws, (s.xq q).ready = w :: ws → ∃ t, exec (.cqRead q false) s = .next t
      ∧ Frame [.fabric, .pipes, .answer] s t ∧ t.answer = .queueWord w.data w.valid w.bad false
      ∧ t.fabric = (s.modXq q fun x => { x with
          ready := ws, freed := x.freed + 1, poisonSeen := x.poisonSeen || w.bad
          poisonCount := if w.bad then satAdd 65535 x.poisonCount 1 else x.poisonCount }).fabric)
    ∧ (∀ s (q : Fin 64), (s.xq q).ready = [] → exec (.cqRead q false) s = .next
        ((s.modXq q fun x => { x with underrun := true }).reply (.queueWord (List.replicate 64 0) 0 false true)))
    ∧ (∀ s (q : Fin 64), 32 ≤ q.val → exec (.cqFreeVisible q) s = .next (s.modXq q fun x => { x with freed := x.freed - 1 }))
    ∧ ∀ s (q : Fin 64), q.val < 32 → (s.pipe q).run = none → (s.pipe q).ahead = none → ∃ t, exec (.cqFreeVisible q) s = .next t
        ∧ t.fabric = (s.modXq q fun x => { x with freed := x.freed - 1 }).fabric

/-- R42: the fill count is the number of readable words, from 0 to 64; a queue with a part-packed word and no readable one is read as empty;
a flush pads the part-packed word with zero bytes and tags it with its valid byte count, 0 for 64; with no part-packed word it makes no
word, and only the request to flush is done with; FLUSH written to the control register is that request. -/
def Obligations.CrossingFlushPadsAndTags : Prop :=
  (∀ x : XQueue, x.ready.length ≤ 64 → x.statusWord % 128 = x.ready.length)
    ∧ (∀ s (q : Fin 64), (s.xq q).ready = [] → (s.xq q).part ≠ [] → exec (.cqRead q false) s = .next
        ((s.modXq q fun x => { x with underrun := true }).reply (.queueWord (List.replicate 64 0) 0 false true)))
    ∧ (∀ s (q : Fin 64), (s.xq q).part ≠ [] → exec (.cqFlush q false) s = .next (s.modXq q fun x =>
      { x with flushReq := false, part := [], partBad := false
               flight := x.flight ++ [⟨x.part ++ List.replicate (64 - x.part.length) 0, x.part.length % 64, x.partBad⟩] }))
    ∧ (∀ s (q : Fin 64), (s.xq q).part = [] → exec (.cqFlush q false) s = .next (s.modXq q fun x => { x with flushReq := false }))
    ∧ ∀ s (q : Fin 64), exec (.cqCtrlFlush q) s = .next (s.modXq q fun x => { x with flushReq := true })

/-- R47: words become readable oldest first (here words of good parity, of which none is reported). Where the fill count crosses a level
other than 0 upward, the threshold bit is set and, where enabled, one interrupt is sent; where it does not, neither happens. THRESH_LEVEL
takes a value from 0 to 64 without setting the bit, and 65 to 127 leave it. -/
def Obligations.CrossingThresholdIsAnUpwardCrossing : Prop :=
  (∀ s (q : Fin 64) n, (∀ w ∈ (s.xq q).flight.take n, w.bad = false) → (s.xq q).level ≠ 0 → (s.xq q).ready.length < (s.xq q).level →
      (s.xq q).level ≤ (s.xq q).ready.length + ((s.xq q).flight.take n).length →
      exec (.cqWordReadable q n) s = .next (s.modXq q fun x =>
        { x with flight := x.flight.drop n, ready := x.ready ++ x.flight.take n, thresh := true
                 interrupts := x.interrupts + b2n x.threshIe }))
    ∧ (∀ s (q : Fin 64) n, (∀ w ∈ (s.xq q).flight.take n, w.bad = false) →
        ((s.xq q).level = 0 ∨ (s.xq q).level ≤ (s.xq q).ready.length
          ∨ (s.xq q).ready.length + ((s.xq q).flight.take n).length < (s.xq q).level) →
        exec (.cqWordReadable q n) s = .next (s.modXq q fun x =>
          { x with flight := x.flight.drop n, ready := x.ready ++ x.flight.take n }))
    ∧ (∀ s (q : Fin 64) v, v ≤ 64 → exec (.cqThreshLevelWrite q v) s = .next (s.modXq q fun x => { x with level := v }))
    ∧ ∀ s (q : Fin 64) v, 65 ≤ v → v ≤ 127 → exec (.cqThreshLevelWrite q v) s = .next s

/-- R49: RESET discards every word, including a part-packed one, and sets the fill count to 0 and FULL to 0. It does not clear the sticky
bits, THRESH_LEVEL, THRESH_IE or the counters. No other queue changes. A write or a flush in its cycle is lost with it; a read in
its cycle returns the empty-read word and sets UNDERRUN. CLR_COUNTS sets the
two counters to 0 and changes nothing else. -/
def Obligations.CrossingResetEmptiesTheQueue : Prop :=
  (∀ s (q : Fin 64), ∃ t, exec (.cqReset q) s = .next t ∧ Frame [.fabric, .pipes] s t
      ∧ (t.xq q).flight = [] ∧ (t.xq q).ready = [] ∧ (t.xq q).part = []
      ∧ (t.xq q).statusWord % 128 = 0 ∧ bit (t.xq q).statusWord 15 = false ∧ (t.xq q).fullWrite = false
      ∧ (t.xq q).overrun = (s.xq q).overrun ∧ (t.xq q).underrun = (s.xq q).underrun ∧ (t.xq q).thresh = (s.xq q).thresh
      ∧ (t.xq q).poisonSeen = (s.xq q).poisonSeen ∧ (t.xq q).level = (s.xq q).level ∧ (t.xq q).threshIe = (s.xq q).threshIe
      ∧ (t.xq q).overrunCount = (s.xq q).overrunCount ∧ (t.xq q).poisonCount = (s.xq q).poisonCount
      ∧ ∀ k, k ≠ q.val → t.xq k = s.xq k)
    ∧ (∀ s (q : Fin 64) w bad, exec (.cqWrite q w bad true) s = exec (.cqReset q) s ∧ exec (.cqFlush q true) s = exec (.cqReset q) s)
    ∧ (∀ s (q : Fin 64), ∃ t, exec (.cqRead q true) s = .next t ∧ t.answer = .queueWord (List.replicate 64 0) 0 false true
      ∧ (t.xq q).underrun = true ∧ (t.xq q).ready = [] ∧ (t.xq q).flight = [] ∧ (t.xq q).part = [])
    ∧ ∀ s (q : Fin 64), ∃ t, exec (.cqClrCounts q) s = .next t
      ∧ t = s.modXq q (fun x => { x with overrunCount := 0, poisonCount := 0 })
      ∧ (t.xq q).overrunCount = 0 ∧ (t.xq q).poisonCount = 0

/-! ## Boot, supplies, pins (spec/20, spec/21, spec/03) -/

/-- R458, R460: a module that is powered, out of reset and not yet started boots. A failed ROM check leaves it dead; an image that is
refused leads to recovery mode with its reason (R465, R466), where CSTS.CFS reads 1 and no fuse is blown; a good one, with no dump of a cut
to take in, raises the anti-rollback counter to its SVN, starts the keepers at this HD count, and takes the owner and the namespace keys from
the records read. -/
def Obligations.BootRunsTheStepsOfTheRom : Prop :=
  (∀ s strap lostT eus ms, s.bootDue = true →
        exec (.boot false strap lostT eus ms) s = .next (s.modSec fun x => { x with phase := .dead }))
    ∧ (∀ s strap lostT eus ms r, s.bootDue = true → s.sec.readRecords.image = .error r →
        ∃ t, exec (.boot true strap lostT eus ms) s = .next t ∧ t.sec.phase = .recovery ∧ t.sec.lastReason = r
          ∧ t.host.c0.cfs = true ∧ t.host.c1.cfs = true ∧ t.sec.counter = s.sec.counter ∧ t.sec.revoked = s.sec.revoked)
    ∧ ∀ s strap lostT eus ms h, s.bootDue = true → s.sec.readRecords.image = .ok h →
        ((s.samplePins strap).bootSteps lostT).ftl.dumpDue = false →
        ∃ t, exec (.boot true strap lostT eus ms) s = .next t ∧ t.sec.phase = .starting ∧ t.sec.startedAt = s.hdCount
          ∧ t.sec.header = h ∧ t.sec.counter = max s.sec.counter (fieldAt h 0x14 4) ∧ t.sec.svn = fieldAt h 0x14 4
          ∧ t.sec.owned = s.sec.readRecords.owned ∧ t.sec.keys = s.sec.readRecords.keys

/-- R461: keepers that report ready within 5 s of their start, with no discard of an earlier sanitize or deletion left to finish, put the
module in service: outside Held once the installed structures are restored, with no failed boot on record; in Held with the owner's
structures left alone and the count of failed boots as it was. A module that has waited 5 s boots again; at the third time it enters
recovery mode with KEEPER_TIMEOUT. -/
def Obligations.KeepersReportReadyOrTheRomBootsAgain : Prop :=
  (∀ s eus bad lost places u, s.sec.phase = .starting → s.alive = true → s.hdCount ≤ s.sec.startedAt + 5000000 → s.ftl.discard = none →
      s.sec.held = 0 →
      (((s.modSec fun x => { x with phase := .running }).setGather false).modSec fun x => { x with failedBoots := 0 }).openUp lost places
        = some u →
      ∃ t, exec (.keeperReady eus bad lost places) s = .next t ∧ t.sec.phase = u.sec.phase ∧ t.sec.failedBoots = u.sec.failedBoots
        ∧ t.amp.objects = u.amp.objects ∧ t.power.cause = .other)
    ∧ (∀ s eus bad lost places, s.sec.phase = .starting → s.alive = true → s.hdCount ≤ s.sec.startedAt + 5000000 → s.ftl.discard = none →
        s.sec.held ≠ 0 → ∃ t, exec (.keeperReady eus bad lost places) s = .next t ∧ t.sec.phase = .running ∧ t.power.cause = .other
          ∧ t.sec.failedBoots = s.sec.failedBoots ∧ t.amp.objects = s.amp.objects)
    ∧ (∀ s, s.sec.phase = .starting → s.alive = true → s.sec.startedAt + 5000000 ≤ s.hdCount → s.sec.failedBoots < 2 →
        ∃ t, exec .keeperReadyTimeout s = .next t ∧ t.sec.phase = .off ∧ t.sec.failedBoots = s.sec.failedBoots + 1 ∧ t.power.ladder = 0)
    ∧ ∀ s, s.sec.phase = .starting → s.alive = true → s.sec.startedAt + 5000000 ≤ s.hdCount → 2 ≤ s.sec.failedBoots →
        ∃ t, exec .keeperReadyTimeout s = .next t ∧ t.sec.phase = .recovery ∧ t.sec.lastReason = 6

/-- R38, R50, R52, R448, R479, R480, R486: the auxiliary supply rises and ADDR_SEL is sampled; while 42 V is present its loss takes nothing
but itself; without 42 V its loss takes the always-on domain: the HD count, the host-time pair and the management mailbox start anew and no
fuse changes. PERST# goes: in Ebony the module leaves that state to boot, the compute dies' counts at 0; otherwise the function's link
trains. A link that has trained holds its speed, its width and whether it runs in Flit mode, and configuration space answers. CC.EN makes
the controller of a module in service ready, with its two admin queues. -/
def Obligations.SuppliesAndPinsBringTheHostIn : Prop :=
  (∀ s a, s.mgmt.aux = false → exec (.auxPowerUp a) s = .next (s.modMgmt fun m => { m with aux := true, addrSel := a }))
    ∧ (∀ s, s.mainOn = true → exec .auxPowerLoss s = .next (s.modMgmt fun m => { m with aux := false }))
    ∧ (∀ s, s.mainOn = false → ∃ t, exec .auxPowerLoss s = .next t ∧ t.mgmt = {} ∧ t.fabric.hd = {} ∧ t.fabric.pair = none
        ∧ t.amp.m2 = {} ∧ t.sec.phase = .off ∧ t.sec.counter = s.sec.counter)
    ∧ (∀ s (fn : Fin 2), s.alive = true → s.power.ladder = 5 → exec (.perstDeassert fn) s = .next
        (((s.modCtrl fn fun c => { c with perst := false }).modFabric fun f => { f with cd0 := {}, cd1 := {} }).modPower fun p =>
          { p with target := 0xFF, ladder := 0, cause := .ebony, woken := false }))
    ∧ (∀ s (fn : Fin 2), s.alive = true → s.power.ladder ≠ 5 → s.sec.phase = .running → s.hasFn fn = true → (s.ctrl fn).port = .down →
        ∃ t, exec (.perstDeassert fn) s = .next t ∧ Frame [.host] s t ∧ (t.ctrl fn).perst = false ∧ (t.ctrl fn).port = .training)
    ∧ (∀ s (fn : Fin 2) speed width flit, (s.ctrl fn).port = .training → 1 ≤ speed → speed ≤ 6 → s.host.portWidths.contains width = true →
        exec (.pcieLinkUp ⟨fn, speed, width, flit⟩) s = .next (s.modCtrl fn fun c =>
          { c with port := .up, cfg := true, speed := speed, width := width, flit := flit || speed == 6 }))
    ∧ ∀ s (fn : Fin 2) a c, s.hasFn fn = true → s.serving = true → s.sanitizeHolds = false → (s.ctrl fn).cfg = true →
          (s.ctrl fn).en = false →
        (s.ctrl fn).resetting = false → 2 ≤ a → a ≤ 4096 → 2 ≤ c → c ≤ 4096 →
        ∃ t, exec (.controllerEnable fn a c) s = .next t ∧ Frame [.host] s t ∧ (t.ctrl fn).rdy = true ∧ (t.ctrl fn).en = true
          ∧ Tab.find (t.ctrl fn).sqs 0 = some { size := a, cq := 0 } ∧ Tab.find (t.ctrl fn).cqs 0 = some { size := c, ien := true }

/-! ## Queues and completions (spec/03) -/

/-- R62: the completion of a command goes into its completion queue where that has a slot, with the head of its submission queue and its
CID, and frees the tracker entry; where the queue is full the command is finished, keeps its entry and waits behind the earlier ones (here a
command that names no session, of a controller that is not in a reset). An admin command's completion goes into the admin completion queue
in the same way, with the head of the admin submission queue past the command, and is what the command answers. -/
def Obligations.CompletionIsPostedOrWaits : Prop :=
  (∀ (s : State) tag e t sq cq, s.trk tag = some t → (t.sqe.isVendor && t.sqe.sessionValid) = false → (s.ctrl t.fn).resetting = false →
      Tab.find (s.ctrl t.fn).sqs t.sq = some sq → Tab.find (s.ctrl t.fn).cqs sq.cq = some cq → cq.room = true →
      (s.complete tag e).host.trk = Tab.del s.host.trk tag ∧ Frame [.host, .fabric] s (s.complete tag e)
        ∧ Tab.find ((s.complete tag e).ctrl t.fn).cqs sq.cq = some { cq with
            posted := cq.posted ++ [{ e with sq := t.sq, sqHead := sq.head, cid := t.sqe.cid }], tail := (cq.tail + 1) % cq.size })
    ∧ (∀ (s : State) tag e t sq cq, s.trk tag = some t → (t.sqe.isVendor && t.sqe.sessionValid) = false →
          (s.ctrl t.fn).resetting = false →
        Tab.find (s.ctrl t.fn).sqs t.sq = some sq → Tab.find (s.ctrl t.fn).cqs sq.cq = some cq → cq.room = false →
        Frame [.host] s (s.complete tag e)
          ∧ (s.complete tag e).trk tag = some { t with
              phase := .finished, completion := some { e with sq := t.sq, sqHead := sq.head, cid := t.sqe.cid } }
          ∧ Tab.find ((s.complete tag e).ctrl t.fn).cqs sq.cq = some { cq with waiting := cq.waiting ++ [tag] })
    ∧ ∀ (s : State) fn e c b cq, Tab.find (s.ctrl fn).cqs 0 = some cq → cq.room = true →
        (s.adminEnd fn e c b).answer = .completion { c with sq := 0, sqHead := (s.takeAdmin fn).adminHead fn, cid := e.cid } b
          ∧ Frame [.host, .fabric, .answer] s (s.adminEnd fn e c b)
          ∧ Tab.find ((s.adminEnd fn e c b).ctrl fn).cqs 0 = some { cq with
              posted := cq.posted ++ [{ c with sq := 0, sqHead := (s.takeAdmin fn).adminHead fn, cid := e.cid }]
              tail := (cq.tail + 1) % cq.size }

/-- R35, R58, R59, R67, R69, with the completion as adminEnd posts it (CompletionIsPostedOrWaits): a contiguous I/O submission queue within
the range, not there yet, is made on a completion queue that exists, and one on a completion queue that does not is refused; a contiguous
completion queue is made with its vector and its interrupt enable, not with vector 1; neither is made in Held. A completion queue that a
submission queue uses stays, another is deleted. Delete I/O SQ marks the queue as deleting and stops its commands: one not started is
completed with Command Aborted due to SQ Deletion (its ST_STOPPED in Dword 0 is the model's, log 90), one started of the NVM set runs on,
one of the vendor set stops at its next step boundary; with no command left the queue goes and the deletion completes. -/
def Obligations.QueuesAreCreatedAndDeleted : Prop :=
  (∀ s (fn : Fin 2) e, s.adminServes fn = true → s.isHeld = false → bits e.cdw10 0 16 ≠ 0 → bits e.cdw10 0 16 ≤ s.host.maxQueue →
      Tab.find (s.ctrl fn).sqs (bits e.cdw10 0 16) = none → 1 ≤ bits e.cdw10 16 16 → bit e.cdw11 0 = true → bits e.cdw11 16 16 ≠ 0 →
      exec (.createIoSq fn e) s = .next (
        if (Tab.find (s.ctrl fn).cqs (bits e.cdw11 16 16)).isSome then (s.modCtrl fn fun c => { c with
          sqs := Tab.put c.sqs (bits e.cdw10 0 16) { size := bits e.cdw10 16 16 + 1, cq := bits e.cdw11 16 16 } }).adminEnd fn e {} []
        else s.adminEnd fn e (adminRefusal .cqInvalid St.noObject) []))
    ∧ (∀ s (fn : Fin 2) e, s.adminServes fn = true → s.isHeld = true →
        exec (.createIoSq fn e) s = .next (s.adminEnd fn e (adminRefusal .commandSequence St.held) [])
        ∧ exec (.createIoCq fn e) s = .next (s.adminEnd fn e (adminRefusal .commandSequence St.held) []))
    ∧ (∀ s (fn : Fin 2) e, s.adminServes fn = true → s.isHeld = false → bits e.cdw10 0 16 ≠ 0 → bits e.cdw10 0 16 ≤ s.host.maxQueue →
        Tab.find (s.ctrl fn).cqs (bits e.cdw10 0 16) = none → 1 ≤ bits e.cdw10 16 16 → bit e.cdw11 0 = true → bits e.cdw11 16 16 ≠ 1 →
        bits e.cdw11 16 16 ≤ s.host.lastVector →
        exec (.createIoCq fn e) s = .next ((s.modCtrl fn fun c => { c with
          cqs := Tab.put c.cqs (bits e.cdw10 0 16)
            { size := bits e.cdw10 16 16 + 1, vector := bits e.cdw11 16 16, ien := bit e.cdw11 1 } }).adminEnd fn e {} []))
    ∧ (∀ s (fn : Fin 2) e, s.adminServes fn = true → s.isHeld = false → bits e.cdw10 0 16 ≠ 0 → bits e.cdw10 0 16 ≤ s.host.maxQueue →
        Tab.find (s.ctrl fn).cqs (bits e.cdw10 0 16) = none → 1 ≤ bits e.cdw10 16 16 → bit e.cdw11 0 = true → bits e.cdw11 16 16 = 1 →
        exec (.createIoCq fn e) s = .next (s.adminEnd fn e (adminRefusal .invalidVector St.unsupported) []))
    ∧ (∀ s (fn : Fin 2) e, s.adminServes fn = true → bits e.cdw10 0 16 ≠ 0 → Tab.find (s.ctrl fn).cqs (bits e.cdw10 0 16) ≠ none →
        exec (.deleteIoCq fn e) s = .next (
          if (s.ctrl fn).sqs.any (fun p => p.2.cq == bits e.cdw10 0 16) then s.adminEnd fn e (adminRefusal .invalidQueueDeletion St.busy) []
          else (s.modCtrl fn fun c => { c with cqs := Tab.del c.cqs (bits e.cdw10 0 16) }).adminEnd fn e {} []))
    ∧ (∀ s (fn : Fin 2) e, s.adminServes fn = true → bits e.cdw10 0 16 ≠ 0 → Tab.find (s.ctrl fn).sqs (bits e.cdw10 0 16) ≠ none →
        exec (.deleteIoSq fn e) s = .next (stopAll (fun t => t.fn == fn.val && t.sq == bits e.cdw10 0 16) s.host.trk
          (s.modSq fn (bits e.cdw10 0 16) fun x => { x with deleting := some e.cid })))
    ∧ (∀ (s : State) tag t, t.phase = .fetched →
        stopOne tag t s = s.complete tag { status := .abortedSqDeletion, dw0 := St.stopped, dw1 := tag })
    ∧ (∀ (s : State) tag t, t.phase = .started → stopOne tag t s =
        if listedVendor t.sqe = true ∧ t.sqe.opc ≠ 0x98 then s.modTrk tag fun t => { t with phase := .stopping } else s)
    ∧ ∀ s (fn : Fin 2) q sq cid, Tab.find (s.sweepStopped.ctrl fn).sqs q = some sq → sq.deleting = some cid →
        (s.sweepStopped.ctrl fn).resetting = false → s.sweepStopped.queueBusy fn q = false →
        exec (.deleteIoSqDone fn q) s = .next
          ((s.sweepStopped.modCtrl fn fun c => { c with sqs := Tab.del c.sqs q }).adminEnd fn { cid := cid } {} [])

/-- R39, R57, R60, R66: Abort never aborts: its completion has Dword 0 bit 0 set, the request is counted, and beside that nothing changes but
the completion's posting; Identify of the controller returns its structure; Number of Queues, set and not to be saved, answers the number
the function offers and is kept; a feature is read back; Timestamp binds host time to the HD count of its taking; a log page is read from an
offset within it; an Asynchronous Event Request waits, eight at most (the refusal of a ninth is the model's, log 90). -/
def Obligations.AdminCommandsAnswer : Prop :=
  (∀ s (fn : Fin 2) e, s.adminServes fn = true → exec (.abort fn e) s = .next ((s.modStats fn fun t =>
      { t with abortRequests := satAdd (2 ^ 64 - 1) t.abortRequests 1 }).adminEnd fn e { dw0 := 1 } []))
    ∧ (∀ s (fn : Fin 2) e, s.adminServes fn = true → bits e.cdw10 0 8 = 0x01 → exec (.identify fn e) s =
        .next (s.adminEnd fn e {} (identifyController s.part fn s.ftl.freeUnits)))
    ∧ (∀ s (fn : Fin 2) e, s.adminServes fn = true → bits e.cdw10 0 8 = 0x07 → bit e.cdw10 31 = false →
        exec (.setFeatures fn e) s = .next ((s.modCtrl fn fun c => { c with features := Tab.set 0 c.features 0x07 e.cdw11 }).adminEnd fn e
          { dw0 := s.queuesWord } []))
    ∧ (∀ s (fn : Fin 2) e, s.adminServes fn = true → bits e.cdw10 0 8 = 0x08 → bits e.cdw10 8 3 = 0 → exec (.getFeatures fn e) s =
        .next (s.adminEnd fn e { dw0 := Tab.get 0 (s.ctrl fn).features 0x08 } []))
    ∧ (∀ s (fn : Fin 2) e d, s.adminServes fn = true → bits e.cdw10 0 8 = 0x0E → bit e.cdw10 31 = false →
        exec (.setFeaturesTimestamp fn e d) s = .next
          ((s.modFabric fun f => { f with pair := some (leNat (d.take 6), s.hdCount) }).feedHostTime.adminEnd fn e {} []))
    ∧ (∀ s (fn : Fin 2) e b, s.adminServes fn = true → s.logPage fn (bits e.cdw10 0 8) = some b →
        bits e.cdw12 0 32 + 2 ^ 32 * bits e.cdw13 0 32 ≤ b.length → exec (.getLogPage fn e) s = .next (s.used.adminEnd fn e {}
          ((b.drop (bits e.cdw12 0 32 + 2 ^ 32 * bits e.cdw13 0 32)).take (4 * (bits e.cdw10 16 16 + 65536 * bits e.cdw11 0 16 + 1)))))
    ∧ (∀ s (fn : Fin 2) e, s.adminServes fn = true → (s.ctrl fn).aers.length < 8 → exec (.asynchronousEventRequest fn e) s =
        .next ((s.takeAdmin fn).modCtrl fn fun c => { c with aers := c.aers ++ [e.cid] }))
    ∧ ∀ s (fn : Fin 2) e, s.adminServes fn = true → 8 ≤ (s.ctrl fn).aers.length →
        exec (.asynchronousEventRequest fn e) s = .next (s.adminEnd fn e (adminRefusal .invalidField St.unsupported) [])

/-- R68, R83: a reset of a function takes its controller out of service and resets its mailbox: the HELLO result and the wrap key go, every
event class is admitted again, and the queued events and a lockout stay; the other mailboxes are not touched. A link that goes down takes the
function's configuration space with it. CC.EN written to 0 and an NVM Subsystem Reset take their controllers out of service (here with no
command in the tracker) and leave the mailboxes; when no vendor command of the controller is left its queues, its tracker entries and its
features go and it is ready for CC.EN again. -/
def Obligations.ResetsOfAFunction : Prop :=
  (∀ s (fn : Fin 2), s.hasFn fn = true → ∃ t, exec (.hotReset fn) s = .next t ∧ exec (.functionLevelReset fn) s = .next t
      ∧ t.amp.mb fn = (s.amp.mb fn).hostReset
      ∧ (t.amp.mb fn).version = none ∧ (t.amp.mb fn).key = none ∧ (t.amp.mb fn).mask = 0xFFFE
      ∧ (t.amp.mb fn).events = (s.amp.mb fn).events ∧ (t.amp.mb fn).lockUntil = (s.amp.mb fn).lockUntil ∧ t.amp.m2 = s.amp.m2
      ∧ (s.host.trk = [] → (s.ctrl fn).en = true → (t.ctrl fn).en = false ∧ (t.ctrl fn).resetting = true))
    ∧ (∀ s (fn : Fin 2), s.hasFn fn = true → ∃ t, exec (.linkDown fn) s = .next t ∧ (t.ctrl fn).cfg = false
        ∧ t.amp.mb fn = (s.amp.mb fn).hostReset)
    ∧ (∀ s, s.host.trk = [] → s.host.c0.en = true → s.host.c1.en = true →
          ∃ t, exec .nvmSubsystemReset s = .next t ∧ Frame [.host, .ftl] s t
        ∧ t.host.c0.en = false ∧ t.host.c1.en = false ∧ t.host.c0.resetting = true ∧ t.host.c1.resetting = true)
    ∧ (∀ s (fn : Fin 2), s.host.trk = [] → (s.ctrl fn).en = true → exec (.ccEnClear fn) s = .next ((s.modCtrl fn fun c =>
        { c with en := false, resetting := true, aers := [], adminWait := [] }).modFtl (·.orphan fn)))
    ∧ ∀ s (fn : Fin 2), (s.sweepStopped.ctrl fn).resetting = true → s.sweepStopped.vendorLeft fn = false →
        exec (.controllerResetDone fn) s = .next ((s.sweepStopped.modHost fun h => h.dropTrk fn).modCtrl fn fun c =>
          { c with resetting := false, rdy := false, sqs := [], cqs := [], features := [], turn := 0, stalled := false })

/-- R60, R61, R63, R69, R78: a tail doorbell within its submission queue moves the tail; a head doorbell outside its completion queue changes
nothing, one within it frees the slots passed. With the admin queue idle, the I/O queue whose turn it is gives a command the free tracker
entry of the function's share that the sender names, and the queue's head moves on. A command starts when it is not ordered or no earlier
one of its queue is left; an ordered one does not before. An opcode no set offers is refused with ST_UNSUPPORTED. A result area with bytes
or records to report gets a header 1 ms after the last one. -/
def Obligations.CommandsAreFetchedAndStarted : Prop :=
  (∀ s (fn : Fin 2) q v sq, s.alive = true → Tab.find (s.ctrl fn).sqs q = some sq → v < sq.size → s.power.ladder < 2 → sq.stop = none →
      exec (.sqTailDoorbell fn q v) s = .next (s.modSq fn q fun x => { x with tail := v }))
    ∧ (∀ s (fn : Fin 2) q v cq, Tab.find (s.ctrl fn).cqs q = some cq → cq.size ≤ v → exec (.cqHeadDoorbell fn q v) s = .next s)
    ∧ (∀ s (fn : Fin 2) q v cq, q ≠ 0 → Tab.find (s.ctrl fn).cqs q = some cq → cq.waiting = [] → v < cq.size →
        (v + cq.size - (cq.tail + cq.size - cq.posted.length) % cq.size) % cq.size ≤ cq.posted.length →
        exec (.cqHeadDoorbell fn q v) s = .next (s.modCq fn q fun c => { c with
          posted := c.posted.drop ((v + cq.size - (cq.tail + cq.size - cq.posted.length) % cq.size) % cq.size) }))
    ∧ (∀ s (fn : Fin 2) q sq tag e, s.ctrlServes fn = true → s.adminIdle fn = true → (s.ctrl fn).nextTurn = some q →
          Tab.find (s.ctrl fn).sqs q = some sq →
        sq.eligible = true → s.host.inUse fn < (s.host.share fn).2 → s.tagFree fn tag = true →
        ∃ t, exec (.commandFetch fn q [(tag, e)]) s = .next t ∧ Frame [.host] s t
          ∧ t.trk tag = some { fn := fn, sq := q, sqe := e, seq := s.host.fetchSeq, fetchCount := s.hdCount }
          ∧ t.host.fetchSeq = s.host.fetchSeq + 1 ∧ (t.ctrl fn).turn = q
          ∧ ∃ x, Tab.find (t.ctrl fn).sqs q = some x ∧ x.head = (sq.head + 1) % sq.size ∧ x.stop = if e.ordered then some tag else none)
    ∧ (∀ s tag t, s.trk tag = some t → t.phase = .fetched → t.admitted = false →
        (t.sqe.ordered = true → s.host.trk.any (fun x => x.2.fn == t.fn && x.2.sq == t.sq && decide (x.2.seq < t.seq)) = false) →
        exec (.commandStart tag) s = .next (s.modTrk tag fun t => { t with phase := .started }))
    ∧ (∀ s tag t, s.trk tag = some t → t.sqe.ordered = true →
        s.host.trk.any (fun x => x.2.fn == t.fn && x.2.sq == t.sq && decide (x.2.seq < t.seq)) = true →
              exec (.commandStart tag) s = .next s)
    ∧ (∀ s (fn : Fin 2) tag t e, s.trk tag = some t → t.phase = .started → ioOpcodes.contains t.sqe.opc = false →
        exec (.invalidCommandOpcode fn (some tag) e) s = .next (s.completeErr tag .invalidOpcode St.unsupported))
    ∧ ∀ s tag t r, s.trk tag = some t → t.result = some r → (0 < r.newBytes ∨ 0 < r.newRecords) → r.updated + 1000 ≤ s.hdCount →
        ∃ u, exec (.resultHeaderTimer tag) s = .next u ∧ Frame [.host, .hostMem] s u
          ∧ u.trk tag = some { t with result := some { r with
              seq := r.seq + 1, bytes := r.bytes + r.newBytes, records := r.records + r.newRecords, newBytes := 0, newRecords := 0
              updated := s.hdCount } }

/-! ## Storage commands and namespaces (spec/03, spec/17) -/

/-- R391, R402, and Flush as R56 has it: a Read of sectors that decode returns their contents in order and is counted with its bytes; one
sector that cannot be recovered fails the whole command: nothing is returned and nothing reaches the host, and the media error is counted
while the read is not. A Verify of sectors that decode completes, with each codeword counted as decoded at the first attempt; a Flush
completes where no Write or Write Zeroes of its queue fetched before it is left, and has no other effect. -/
def Obligations.ReadsReturnWhatTheNamespaceHolds : Prop :=
  (∀ s tag t lost retried dst (u : Nat → Nat) (d : Nat → Bytes), s.ioAdmitted tag 0x02 false true t →
      (∀ k < t.sqe.nlb, s.readLba t.sqe.nsid (t.sqe.slba + k) lost = some (u k, d k, false)) →
      ∃ v, exec (.read tag lost retried dst) s = .next v ∧ v.answer = .data ((List.range t.sqe.nlb).flatMap d)
        ∧ v.ftl.readCmds = s.ftl.readCmds + 1 ∧ v.ftl.readBytes = s.ftl.readBytes + t.sqe.nlb * 4096)
    ∧ (∀ s tag t lost retried dst k u d, s.ioAdmitted tag 0x02 false true t → k < t.sqe.nlb →
        s.readLba t.sqe.nsid (t.sqe.slba + k) lost = some (u, d, true) →
        ∃ v, exec (.read tag lost retried dst) s = .next v ∧ v.answer = s.answer ∧ v.hostMem = s.hostMem
          ∧ v.ftl.mediaErrors = s.ftl.mediaErrors + 1 ∧ v.ftl.readCmds = s.ftl.readCmds)
    ∧ (∀ s tag t lost (u : Nat → Nat) (d : Nat → Bytes), s.ioAdmitted tag 0x0C false false t →
        (∀ k < t.sqe.nlb, s.readLba t.sqe.nsid (t.sqe.slba + k) lost = some (u k, d k, false)) →
        exec (.verify tag lost []) s = .next ((s.modFtl fun f => { f with cwFirst := f.cwFirst + t.sqe.nlb }).completeOk tag))
    ∧ ∀ s tag t, s.startedAs tag 0x00 = some t → s.ftl.sanitizer = none → s.nvmRefusal t = none →
        s.earlierHeld t (fun x => x.sqe.opc == 0x01 || x.sqe.opc == 0x08) = false → exec (.flush tag) s = .next (s.completeOk tag)

/-- R385, R397, R399: a Write completes only when all its granules are committed, and is then counted with its bytes (the row's granules are
committed as commitGranules does, with the sectors of a part-written unit merged, R386); until then what has been committed stays and its row
comes again. Write Zeroes and a Dataset Management with Deallocate zero their ranges and complete; without Deallocate a Dataset Management
changes nothing but its completion; a secure discard, begun earlier or now, completes when no erase unit holds a copy any more. -/
def Obligations.WritesCompleteWhenCommitted : Prop :=
  (∀ s tag t data granules eus lost s1, s.ioAdmitted tag 0x01 true true t →
        s.windowsFull t.sqe.nsid false [(t.sqe.slba * 4096, (t.sqe.slba + t.sqe.nlb) * 4096)] = false →
      s1 = commitGranules tag t.sqe.nsid t.sqe.slba t.sqe.nlb (fun lba => (data.drop (4096 * (lba - t.sqe.slba))).take 4096) lost
        granules eus s →
      (s1.allCommitted tag t.sqe.slba t.sqe.nlb = true → (s1.power.holdupWeak && s1.anyBuffered t.sqe.nsid t.sqe.slba t.sqe.nlb) = false →
        exec (.write tag data granules eus lost) s = .next (s1.writeDone tag t.sqe.nsid t.sqe.slba t.sqe.nlb)
          ∧ (s1.writeDone tag t.sqe.nsid t.sqe.slba t.sqe.nlb).ftl.hostBytes = s1.ftl.hostBytes + t.sqe.nlb * 4096
          ∧ (s1.writeDone tag t.sqe.nsid t.sqe.slba t.sqe.nlb).ftl.writeCmds = s1.ftl.writeCmds + 1)
        ∧ (s1.allCommitted tag t.sqe.slba t.sqe.nlb = false → s1.ftl.exhausted = false →
          exec (.write tag data granules eus lost) s = .next s1))
    ∧ (∀ s tag t eus lost s1 rest, s.ioAdmitted tag 0x08 true false t →
        s.windowsFull t.sqe.nsid false [(t.sqe.slba * 4096, (t.sqe.slba + t.sqe.nlb) * 4096)] = false →
        s.zeroRange t.sqe.nsid t.sqe.slba t.sqe.nlb lost eus = some (s1, rest) →
        exec (.writeZeroes tag eus lost) s = .next
          (((s1.modFtl fun f => { f with partials := Tab.del f.partials tag, writeCmds := f.writeCmds + 1 }).completeOk tag).markRange
            t.sqe.nsid (t.sqe.slba * 4096) ((t.sqe.slba + t.sqe.nlb) * 4096)))
    ∧ (∀ s tag t data eus lost, s.startedAs tag 0x09 = some t → s.ftl.sanitizer = none → s.ioCheck t true = none →
        dsmSecure t.sqe = false → s.rangesOut t.sqe.nsid (dsmRanges t.sqe data) = false →
        (dsmAd t.sqe = false → exec (.datasetManagement tag data eus lost) s = .next (s.completeOk tag))
          ∧ ∀ s1, dsmAd t.sqe = true → s.windowsFull t.sqe.nsid true (byteRanges (dsmRanges t.sqe data)) = false →
                zeroRanges t.sqe.nsid lost (dsmRanges t.sqe data) eus s = some s1 →
            exec (.datasetManagement tag data eus lost) s = .next (unmarkRanges t.sqe.nsid (dsmRanges t.sqe data) (s1.completeOk tag)))
    ∧ ∀ s tag t data eus lost bad s1 ended, s.startedAs tag 0x09 = some t → s.ftl.sanitizer = none → s.ioCheck t true = none →
        dsmSecure t.sqe = true → dsmAd t.sqe = true → s.rangesOut t.sqe.nsid (dsmRanges t.sqe data) = false →
        s.windowsFull t.sqe.nsid true (byteRanges (dsmRanges t.sqe data)) = false →
        s.secureDiscard tag t.sqe.nsid (dsmRanges t.sqe data) lost eus bad = (s1, ended) →
        exec (.secureDiscard tag data eus lost bad) s = .next (
          if ended then unmarkRanges t.sqe.nsid (dsmRanges t.sqe data) (s1.completeOk tag) else s1)

/-- R54, R69, R399, R400, R476: a namespace is made under the lowest free identifier, with its units and a key drawn for it, and its identifier
is the answer; deleting it takes it out and gives its units up; attachment names controllers the module has; a Format with Secure Erase
Setting 0 unmaps every unit of the namespace; a sanitize that is offered and not refused holds until its action has ended, and then nothing
of the tier store is left (a block erase only once no erase unit is pinned by a channel job). -/
def Obligations.NamespacesAreMadeAndCleared : Prop :=
  (∀ s (fn : Fin 2) e nsze n f, s.adminServes fn = true → bits e.cdw10 0 4 = 0 → s.host.freeNsid = some n → nsze ≠ 0 →
      s.ftl.alloc (.ns n) ((nsze + s.part.unitSectors - 1) / s.part.unitSectors) = some f →
      exec (.namespaceManagement fn e nsze nsze) s = .next
        (((({ s with ftl := f }).modHost fun h => { h with ns := Tab.put h.ns n { size := nsze } }).drawKey n).adminEnd fn e { dw0 := n } []))
    ∧ (∀ s (fn : Fin 2) e nsze ncap, s.adminServes fn = true → bits e.cdw10 0 4 = 1 → e.nsid ≠ 0 → e.nsid ≤ 128 →
        Tab.has s.host.ns e.nsid = true →
        ∃ u, exec (.namespaceManagement fn e nsze ncap) s = .next u ∧ u.host.ns = Tab.del s.host.ns e.nsid
          ∧ ∀ r ∈ u.ftl.space, r.owner ≠ .ns e.nsid)
    ∧ (∀ s (fn : Fin 2) e l n, s.adminServes fn = true → e.nsid ≠ 0 → e.nsid ≤ 128 → Tab.find s.host.ns e.nsid = some n →
        bits e.cdw10 0 4 ≤ 1 → (∀ k ∈ l, k ∈ s.controllers) →
        exec (.namespaceAttachment fn e l) s = .next ((s.modHost fun h =>
          { h with ns := Tab.put h.ns e.nsid (n.attach (bits e.cdw10 0 4 == 0) l) }).adminEnd fn e {} []))
    ∧ (∀ s (fn : Fin 2) e eus bad, s.adminServes fn = true → s.nsRefusal fn e.nsid = none → bits e.cdw10 0 9 = 0 → bits e.cdw10 9 3 = 0 →
        exec (.formatNvm fn e eus bad) s = .next ((unmarkRanges e.nsid [(0, s.nsSize e.nsid)]
          (s.modFtl fun f => f.unmapRuns (f.units (.ns e.nsid)))).adminEnd fn e {} []))
    ∧ (∀ s (fn : Fin 2) e block, sanitizeAction (bits e.cdw10 0 3) = some block → s.cap 15 = true → s.ftl.sanitizer = none →
        s.adminServes fn = true → exec (.nvmeSanitize fn e) s = .next
          (s.modFtl fun f => { f with sanitizer := some { block := block, host := some (fn, e) } }))
    ∧ ∀ s bad z, s.ftl.sanitizer = some z → s.serving = true →
        (z.block && s.ftl.eus.any fun x => s.pinned x.1) = false → ∃ u, exec (.sanitizeDone bad) s = .next u ∧ u.ftl.sanitizer = none
        ∧ u.tiers.store = [] ∧ u.tiers.storeUsed = 0

/-- R385, R389, R392, R402, R403: the translation layer's own work. The next wordline group of an open erase unit is programmed, not while
programs are held, and below 65,536 free erase units only as collection has freed; the victim, which holds no old copy that R65 may still
need, is collected when erase units run short, its valid units moved to erase units that have room on its channels, and freed units pace host
programs; a checkpoint of a chunk raises its journal number and leaves the map and the buffer; each minute's temperatures are counted (the
reading crosses no threshold here); an hour of power-on time is counted with PE_AVG at its end, 169 of them kept. -/
def Obligations.TranslationLayerWorks : Prop :=
  (∀ s eu eus g, s.ftl.nextGroup eu = some g → s.serving = true → s.media.hold = false → s.media.flush = false →
      (65536 ≤ s.ftl.freeEus ∨ s.hostUnits g ≤ s.ftl.credit) → exec (.writeBufferProgram eu true eus) s = .next (s.programGroup eu g))
    ∧ (∀ s eu ok eus, s.media.hold = true → exec (.writeBufferProgram eu ok eus) s = .next s)
    ∧ (∀ s v eus ok, s.serving = true → s.media.hold = false → s.media.flush = false → s.isVictim v = true → s.ftl.holdsOld v = false →
        s.ftl.freeEus < 98304 →
        (s.ftl.validUnits v).length ≤ eus.length → (eus.take (s.ftl.validUnits v).length).contains v = false →
        s.channelKept v (s.ftl.validUnits v) eus = true → canPlace false (eus.take (s.ftl.validUnits v).length) s = true →
        exec (.garbageCollection v eus ok) s = .next
          (((relocate (s.ftl.validUnits v) (eus.take (s.ftl.validUnits v).length) s).eraseEu v ok).modFtl fun f =>
            { f with credit := f.credit + (1152 - (s.ftl.validUnits v).length) }))
    ∧ (∀ s chunk, s.serving = true → ∃ u, exec (.mapCheckpoint chunk) s = .next u ∧ Frame [.ftl] s u ∧ u.ftl.map = s.ftl.map
        ∧ u.ftl.buf = s.ftl.buf ∧ u.ftl.checkpoints = Tab.set 0 s.ftl.checkpoints chunk u.ftl.jseq ∧ s.ftl.jseq < u.ftl.jseq)
    ∧ (∀ s t l, s.serving = true → ∃ u, exec (.flashTempPoll (t :: l)) s = .next u ∧ Frame [.ftl, .mgmt, .power] s u
        ∧ u.ftl.tempHist = Tab.mod 0 s.ftl.tempHist (tempBin (l.foldl max t)) (· + 1)
        ∧ u.ftl.critMinutes = s.ftl.critMinutes + b2n (decide (80 ≤ l.foldl max t))
        ∧ (l.foldl max t < 70 → s.power.tFlash < 70 → u.power.tFlash = l.foldl max t))
    ∧ ∀ s, s.serving = true → ∃ u, exec .peRateBucket s = .next u ∧ u.ftl.powerHours = s.ftl.powerHours + 1
        ∧ u.ftl.buckets = (s.ftl.peAvg :: s.ftl.buckets).take 169

/-! ## Vendor commands: sessions, generation, indexes (spec/12, spec/13, spec/06) -/

/-- R297, R299, R301: OPEN takes the next free session, ACTIVE under its model, with its KV record at the keeper's place; PARK to T1 and
RESUME of a session in T1 answer at once, PARK to T2 when the stored copy is durable; CLOSE frees the session to the end of the free
order; a demotion makes the PARKED session used longest ago COLD and counts it. -/
def Obligations.SessionsOpenParkResumeClose : Prop :=
  (∀ s tag t root chunk o i ts s1, s.vendorAdmitted tag 0x98 false t → sqeAction t.sqe = 0 → s.object 1 t.sqe.object = some o →
      manKv (o.data.take 256) ≠ 0xFF → fieldAt (o.data.take 256) 0x36 1 = 0 → s.splitSt (o.data.take 256) = none →
      s.tiers.nextFree = some (i, ts) → s.fits 4 (kvRecordBytes (o.data.take 256) + 65536) = true →
      (root % 64 = 0 ∧ s.freeRange root (kvRecordBytes (o.data.take 256)) = true) →
      ((s.modTiers fun _ => ts).take 4 root (kvRecordBytes (o.data.take 256))).takeChunks 1 [chunk] = some s1 →
      exec (.sessionOpen tag ⟨root, chunk⟩) s = .next
            (((s1.writeMem root (kvRecord (o.data.take 256) s1.hdCount 1 [chunk])).modSession i fun _ =>
        { state := .active, model := t.sqe.object, shape := manShape (o.data.take 256), root := root, lastUse := s1.hdCount
          }).vendorEndWith tag St.ok i 0))
    ∧ (∀ s tag t, s.vendorAdmitted tag 0x98 false t → sqeAction t.sqe = 1 → sqeParkTier t.sqe = 0 → t.sqe.sessionValid = true →
        s.mustWait tag t = false → (s.session t.sqe.session).state = .active → s.splitOf (s.session t.sqe.session).model = none →
              exec (.sessionPark tag) s = .next
          (((s.holdSession t.sqe.session tag).modSession t.sqe.session fun x => { x with state := .parked }).sesEnd tag t.sqe.session .parked))
    ∧ (∀ s tag t, s.vendorAdmitted tag 0x98 false t → sqeAction t.sqe = 1 → sqeParkTier t.sqe ≠ 0 → t.sqe.sessionValid = true →
        s.mustWait tag t = false → (s.session t.sqe.session).state = .active → s.splitOf (s.session t.sqe.session).model = none →
              s.ftl.readOnly = false →
        (s.holdSession t.sqe.session tag).storeFits (s.session t.sqe.session).root = true → exec (.sessionPark tag) s = .next
          (((s.holdSession t.sqe.session tag).modSession t.sqe.session fun x => { x with op := some (.parkT2 tag) }).admitTag tag))
    ∧ (∀ s tag t, s.vendorAdmitted tag 0x98 false t → sqeAction t.sqe = 2 → t.sqe.sessionValid = true → s.mustWait tag t = false →
        (s.session t.sqe.session).state = .parked → s.splitOf (s.session t.sqe.session).model = none → exec (.sessionResume tag) s = .next
          (((s.holdSession t.sqe.session tag).modSession t.sqe.session fun x => { x with state := .active }).sesEnd tag t.sqe.session .active))
    ∧ (∀ s tag t, s.vendorAdmitted tag 0x98 false t → sqeAction t.sqe = 3 → t.sqe.sessionValid = true → s.mustWait tag t = false →
        (s.session t.sqe.session).state = .parked → s.splitOf (s.session t.sqe.session).model = none →
              (s.session t.sqe.session).image = none →
        ∃ u : State, exec (.sessionClose tag) s = .next (u.vendorEndWith tag St.ok SesState.free.code 0)
          ∧ u.session t.sqe.session = {} ∧ u.tiers.freed = s.tiers.freed ++ [t.sqe.session])
    ∧ (∀ s i pos tag u, (s.session i.val).op = some (.parkT2 tag) → s.makeCold i pos = some u →
        exec (.parkT2Done i pos) s = .next (u.sesEnd tag i .cold))
    ∧ (∀ (s : State) (i : Fin 1048576) pos u, s.makeCold i pos = some u → u.session i = { s.session i with
        state := .cold, root := pos, image := some (s.kvImage (s.session i).root), op := none })
    ∧ (∀ s (i : Fin 1048576) pos u, s.kvFull = true → s.demotable i = true →
        (∀ k ∈ s.demotables, (s.session i).lastUse ≤ (s.session k).lastUse) →
        s.ftl.readOnly = false → s.storeFits (s.session i).root = true → s.makeCold i pos = some u →
              exec (.sessionDemotion i pos) s = .next
          (u.modTiers fun t => { t with demoted := satAdd (2 ^ 32 - 1) t.demoted 1 }))
    ∧ ∀ s (i : Fin 1048576) root chunks tiles tag img t n s2, (s.session i).op = some (.resume tag) → (s.session i).image = some img →
        n = s.rootBytes (s.session i) img → s.fits 4 (n + img.room) = true → (root % 64 = 0 ∧ s.freeRange root n = true) →
        (restoreChunks root 0 img.chunks chunks ((s.take 4 root n).writeMem root img.header)).bind (restoreTiles root img.tiles tiles)
          = some s2 →
        s2.trk tag = some t →
        ∃ u : State, u = (s2.releaseT2 (16 * (s.session i).root)).modSession i (fun x =>
            { x with state := .active, root := root, image := none, op := none })
          ∧ exec (.resumeColdDone i root chunks tiles) s = .next (
            if t.sqe.opc = 0x98 then u.sesEnd tag i .active else u.modTrk tag fun t => { t with admitted := false })

/-- R311 to R313, R323, R351 to R353: a GENERATE with tokens, without SPECULATE and without a session, whose sampling block, model,
program and prompt pass, queues a task of its kind on its model's partition, and holds its prompt, its limit of new tokens and its seed,
the counter at 0; an EMBED of one list of token IDs that passes its checks queues a task with the item's count; a RUN without a session
queues its program's task on the partition it names, under a seed the spec leaves open; the tokenizer serves its oldest request one slice
at a time. -/
def Obligations.GenerationCommandsQueueTheirTask : Prop :=
  (∀ s tag t d a o, s.vendorAdmitted tag 0x97 false t → t.sqe.sessionValid = false → bit (fieldAt d 0x0C 1) 1 = false →
      s.object 1 t.sqe.object = some o → samplingSt d (s.draftOk (o.data.take 256)) = none → s.modelCheck o [0] = none →
      bit (fieldAt d 0x0C 1) 0 = true → fieldAt d 0x18 4 ≠ 0 →
      (∀ k < fieldAt d 0x18 4, fieldAt d (64 + 4 * k) 4 < fieldAt (o.data.take 256) 0x1C 4) →
      fieldAt d 0x18 4 + 1 ≤ manContext (o.data.take 256) →
      ∃ (u : State) (k : Task) (g : Gen), exec (.generate tag d a) s = .next (u.addTask (fieldAt g.man 0x34 1) k) ∧ k.kind = 1 ∧
            k.tag = tag
        ∧ Tab.find u.tokens.gens tag = some g ∧ g.embed = false ∧ g.session = none ∧ g.prompt = fieldAt d 0x18 4
        ∧ g.maxNew = t.sqe.cmdDw % 65536 + 1 ∧ g.seed = fieldAt d 0x10 8 ∧ g.counter = 0 ∧ (g.shade = false → g.man = o.data.take 256))
    ∧ (∀ s tag t d a o n, s.vendorAdmitted tag 0x93 false t → t.sqe.nsid = 0 → s.object 1 t.sqe.object = some o →
        s.modelCheck o [1] = none → bit t.sqe.cmdDw 0 = true → bit t.sqe.cmdDw 1 = false → d.length = 16 + (4 * n + 7) / 8 * 8 →
        fieldAt d 0 4 = 1 → fieldAt d 4 4 = 0 → fieldAt d 8 4 = n → fieldAt d 12 4 = 0 → n ≤ fieldAt (o.data.take 256) 0x24 4 →
        (∀ i < n, fieldAt ((d.drop 16).take (4 * n)) (4 * i) 4 < fieldAt (o.data.take 256) 0x1C 4) →
        64 + outBytes (o.data.take 256) false ≤ t.sqe.resLen →
        ∃ (u : State) (k : Task) (g : Gen), exec (.embed tag d a) s = .next (u.addTask (fieldAt g.man 0x34 1) k) ∧ k.kind = 2 ∧
              k.tag = tag
          ∧ Tab.find u.tokens.gens tag = some g ∧ g.embed = true ∧ g.items = [n])
    ∧ (∀ s tag t d a, s.vendorAdmitted tag 0x9B false t → t.sqe.sessionValid = false →
        s.programCheck (t.sqe.cmdDw % 256) t.sqe.object = none →
        exec (.run tag d a) s = .next (s.used.launch tag (t.sqe.cmdDw % 256)
          (makeTask 0 tag t ((s.object 0 t.sqe.object).getD {}) a (u64 s.freeNum)) ((s.object 0 t.sqe.object).getD {}) d))
    ∧ ∀ s, ∃ u, exec .tokenizerSlice s = .next u ∧ Frame [.tokens] s u ∧ u.tokens.gens = s.tokens.gens
        ∧ ∀ tag e n l, s.tokens.queue = (tag, e, n) :: l → u.tokens.queue = if n ≤ 1 then l else (tag, e, n - 1) :: l

/-- R140, R146, R147, R130: an insert or delete that has room commits its entries and answers the commit sequence of the last of them;
one without room waits and is counted, and commits when room has come; a query of a local index opens over the snapshot of its
admission; a SCAN that passes its checks starts. -/
def Obligations.IndexCommandsCommitOrWait : Prop :=
  (∀ s tag t d x tr, s.vendorAdmitted tag 0x85 false t → s.usable t.sqe.object = some (x, tr) → s.writeCheck x t.sqe d = none →
      exec (.indexInsert tag d) s = .next (
        if x.room (writeCount t.sqe) then
          ((s.admitTag tag).commitEntries t.sqe.object (x.insertEntries tr (writeCount t.sqe) d)).vendorEndWith tag St.ok
            ((x.lastCommit + writeCount t.sqe) % 2 ^ 32) ((x.lastCommit + writeCount t.sqe) / 2 ^ 32)
        else (s.admitTag tag).modIx t.sqe.object fun x => { x with waiting := x.waiting ++ [(tag, d)], insertWaits := x.insertWaits + 1 }))
    ∧ (∀ s tag t d x tr, s.vendorAdmitted tag 0x89 false t → s.usable t.sqe.object = some (x, tr) → s.writeCheck x t.sqe d = none →
        x.room (writeCount t.sqe) = true → exec (.indexDelete tag d) s = .next
          (((s.admitTag tag).commitEntries t.sqe.object (x.deleteEntries (writeCount t.sqe) d)).vendorEndWith tag St.ok
            ((x.lastCommit + writeCount t.sqe) % 2 ^ 32) ((x.lastCommit + writeCount t.sqe) / 2 ^ 32)))
    ∧ (∀ s tag t d x tr, s.trk tag = some t → s.usable t.sqe.object = some (x, tr) →
          x.waiting.find? (fun w => w.1 == tag) = some (tag, d) →
        s.stopping tag = false → s.ftl.readOnly = false → x.room (writeCount t.sqe) = true → exec (.indexWriteRoom tag) s = .next
          ((s.unwait t.sqe.object tag).commitWrite tag t.sqe.object x tr t.sqe d))
    ∧ (∀ s tag t d x tr inst base miss, s.vendorAdmitted tag 0x83 false t → s.usable t.sqe.object = some (x, tr) →
        x.queryCheck d t.sqe.inLen t.sqe.resLen = none → s.span.shardsOf t.sqe.object = none → inst ≤ 4095 →
        Tab.has s.sel.merges inst = false → qiShade d = 0 → exec (.indexQuery tag d inst base miss) s = .next
          (((s.admitTag tag).openResult tag x.lastCommit).openQuery tag tag t.sqe.object x tr d inst base false [] none))
    ∧ ∀ s tag t d inst base, s.vendorAdmitted tag 0x8F false t → s.scanCheck t d = none → inst ≤ 4095 →
          Tab.has s.sel.merges inst = false →
        exec (.scan tag d inst base) s = .next (s.startScan tag t d inst base)

/-! ## Channel pipelines (spec/05) -/

/-- R105 to R109, R125, R129: a tail write that adds one descriptor binds its job then; an enabled channel takes its oldest job from the
ring, starts it when none runs, and reads its pages ahead when the running job has read all of its own and the new one passes its
checks; a refused job is marked with its status and reads nothing; an abort cuts the running job unless it has drained; loaded tables
free the job that waited for them; feedback raises a query's threshold to the merge instance's; the record of a drained job is posted, and
a full completion ring stalls the channel; a table fault in a job not run again yet is reported to HD and the job is run again. -/
def Obligations.ChannelJobsRunInRingOrder : Prop :=
  (∀ s (ch : Fin 32) v ends, ringTail (s.pipe ch).jobHead (s.pipe ch).jobTail v = ((s.pipe ch).jobTail + 1) % 256 →
      exec (.cpJobTailWrite ch v ends) s = .next (s.modPipe ch fun p => { p with
        jobTail := (p.jobTail + 1) % 256
        bound := p.bound ++ [s.bindJob (s.bytesAt ((s.pipe ch).jobBase + 128 * (s.pipe ch).jobTail) 128) (ends.headD true)] }))
    ∧ (∀ s (ch : Fin 32) v, exec (.cpCmplHeadWrite ch v) s = .next (s.modPipe ch fun p => { p with cmplHead := v % 256 }))
    ∧ (∀ s (ch : Fin 32) on, exec (.cpEnable ch on) s = .next (s.modPipe ch fun p => { p with enable := on }))
    ∧ (∀ s (ch : Fin 32) j, (s.pipe ch).run = some j →
          exec (.abortJob ch) s = .next (if j.drained then s else (s.cutJob ch St.stopped 8).pump ch))
    ∧ (∀ s (ch : Fin 32), (s.pipe ch).run = none → exec (.abortJob ch) s = .next s)
    ∧ (∀ s (ch : Fin 32) j l, (s.pipe ch).bound = j :: l → (s.pipe ch).enable = true → (s.pipe ch).run = none →
        exec (.channelJobStart ch) s = .next
          ((s.modPipe ch fun p => { p with bound := l, jobHead := (p.jobHead + 1) % 256, serial := p.serial + 1 }).startJob ch
            { j with serial := (s.pipe ch).serial }))
    ∧ (∀ s (ch : Fin 32) j l r, (s.pipe ch).bound = j :: l → (s.pipe ch).enable = true → (s.pipe ch).run = some r →
        s.mayFetch ch { j with serial := (s.pipe ch).serial } r = true →
        exec (.channelJobStart ch) s = .next
          ((s.modPipe ch fun p => { p with bound := l, jobHead := (p.jobHead + 1) % 256, serial := p.serial + 1
                                           ahead := some { j with serial := (s.pipe ch).serial } }).advance ch))
    ∧ (∀ (s : State) (ch : Fin 32) j st, s.chJobCheck ch j j.pages = some st → s.startJob ch j =
        s.modPipe ch fun p => { p with run := some { j with fed := true, status := st, err := 7 } })
    ∧ (∀ s (ch : Fin 32) j, (s.pipe ch).run = some j → j.loading = true → exec (.s6TableLoadDone ch) s = .next
        (((s.modPipe ch fun p => { p with loaded := j.tablesVer }).modRun ch fun j => { j with loading := false }).advance ch))
    ∧ (∀ s (ch : Fin 32) q j m, (s.pipe ch).run = some j → Tab.find s.sel.merges (jd j 0x34 2) = some m →
        (j.on 8 && j.feedback && m.feedback) = true → q < j.queries → exec (.s8ThresholdFeedback ch q) s = .next (s.modRun ch fun k =>
          { k with thresholds := (List.range k.queries).map fun i =>
              if i = q then max (m.threshold (s.commandQuery m j q)) (k.thresholds.getD i 0) else k.thresholds.getD i 0 }))
    ∧ (∀ s (ch : Fin 32) j, (s.pipe ch).run = some j → j.drained = true → (s.pipe ch).room = true →
        exec (.channelJobComplete ch false) s = .next (s.postJob ch j))
    ∧ (∀ s (ch : Fin 32) j, (s.pipe ch).run = some j → (s.pipe ch).room = false → exec (.channelJobComplete ch false) s = .next s)
    ∧ (∀ s (ch : Fin 32) j, (s.pipe ch).run = some j → (j.on 6 || j.on 7) = true → j.status = St.ok → j.reran = false →
        exec (.channelJobComplete ch true) s = .next ((s.report .hd
          { cls := .channelTable, source := ch, partner := partnerHd, tag := jd j 0 3 }).rerunJob ch))
    ∧ ∀ s tag first (ch : Fin 32) addr x l long, Tab.find s.pipes.scans tag = some x → x.seams.contains first = true →
        x.seamInput first = some (some (l, long)) → x.failed = none → (s.pipe ch).ringRoom = true →
        ∃ (u : State) (j : ChJob), exec (.seamJob tag first ch addr) s = .next (u.admitJob ch j) ∧ j.tables = x.tables
          ∧ j.seam = some (l.map fun b => if b.err = 0 then b else { b with err := 6 }, long)

/-! ## Mailboxes (spec/04) -/

/-- R82: in IDLE a length from 16 to 65,576 bytes enters FILLING; words are then appended until the request is whole; SEND submits it;
the response is read word by word, 0 past its end, and released; an abandoned message runs on, marked abandoned. A length below 16 and
data outside FILLING set SEQ_ERR and change nothing else. -/
def Obligations.HostMailboxMovesMessages : Prop :=
  (∀ s (fn : Fin 2) v, s.mbReach fn = true → (s.amp.mb fn).state = s.idleState → 16 ≤ v → v ≤ 65576 →
      exec (.mbReqLenWrite fn false v) s = .next (s.modMb fn fun m =>
        { m with state := .filling, reqBytes := v, inWords := 0, inData := [], outWords := 0 }))
    ∧ (∀ s (fn : Fin 2) v, s.mbReach fn = true → v < 16 →
          exec (.mbReqLenWrite fn false v) s = .next (s.modMb fn fun m => { m with seqErr := true }))
    ∧ (∀ s (fn : Fin 2) v, s.mbReach fn = true → (s.amp.mb fn).state = .filling →
          (s.amp.mb fn).inWords < ((s.amp.mb fn).reqBytes + 7) / 8 →
        exec (.mbDataInWrite fn true v) s = .next (s.modMb fn fun m =>
          { m with inData := m.inData ++ leBytes 8 v, inWords := m.inWords + 1 }))
    ∧ (∀ s (fn : Fin 2) v, s.mbReach fn = true → (s.amp.mb fn).state ≠ .filling →
        exec (.mbDataInWrite fn true v) s = .next (s.modMb fn fun m => { m with seqErr := true }))
    ∧ (∀ s (fn : Fin 2), s.mbReach fn = true → (s.amp.mb fn).state = .response →
          (s.amp.mb fn).outWords < ((s.amp.mb fn).resp.length + 7) / 8 →
        exec (.mbDataOutRead fn true) s = .next ((s.modMb fn fun m => { m with outWords := m.outWords + 1 }).reply
          (.value (leNat (((s.amp.mb fn).resp.drop (8 * (s.amp.mb fn).outWords)).take 8)))))
    ∧ (∀ s (fn : Fin 2), s.mbReach fn = true → ((s.amp.mb fn).resp.length + 7) / 8 ≤ (s.amp.mb fn).outWords →
        exec (.mbDataOutRead fn true) s = .next ((s.modMb fn fun m => m).reply (.value 0)))
    ∧ (∀ s (fn : Fin 2), s.mbReach fn = true → (s.amp.mb fn).state = .filling → exec (.mbSend fn) s = .next
        (ampSubmit fn ((s.amp.mb fn).inData.take (s.amp.mb fn).reqBytes)
          ((s.amp.mb fn).inWords == ((s.amp.mb fn).reqBytes + 7) / 8) 0 (s.modMb fn fun m => { m with state := .busy })))
    ∧ (∀ s (fn : Fin 2), s.mbReach fn = true → (s.amp.mb fn).state = .response → exec (.mbRelease fn) s = .next (s.modMb fn fun m =>
        { m with state := s.idleState, resp := [], inData := [] }))
    ∧ (∀ s (fn : Fin 2), s.mbReach fn = true → (s.amp.mb fn).state ≠ .response → ∃ t, exec (.mbRelease fn) s = .next t ∧ t = s)
    ∧ ∀ s (fn : Fin 2), s.mbReach fn = true → ∃ t, exec (.mbAbandon fn) s = .next t ∧ Frame [.amp] s t ∧ (t.amp.mb fn).state = s.idleState
        ∧ (t.amp.mb fn).resp = [] ∧ (∀ j ∈ t.amp.jobs, j.mb = fn.val → j.abandoned = true) ∧ t.amp.jobs.length = s.amp.jobs.length

/-- R82, R84, R85, R87, R93, R95, R497: the response of a host mailbox's oldest message done is placed and signalled, that of the
management mailbox is sent to the endpoint that asked, and that of an abandoned message is discarded; a request that finds the management mailbox BUSY is answered ST_BUSY; a notice
tells the endpoint of the last HELLO of events, at most one in 100 ms; a lockout ends at its HD count; an opcode no table lists is answered ST_BAD_OPCODE. -/
def Obligations.ResponsesAndNotices : Prop :=
  (∀ s (fn : Fin 2) j st p, s.mailOn = true → ampFirstDone fn s.amp.jobs = some (j, st, p) → j.abandoned = false →
      ∃ t, exec (.mbResponseReady (fn.castSucc)) s = .next t ∧ Frame [.amp, .fabric] s t ∧ (t.amp.mb fn).state = .response
        ∧ (t.amp.mb fn).resp = j.response st p ∧ t.amp.jobs = ampDropDone fn s.amp.jobs)
    ∧ (∀ s (mb : Fin 3) j st p, s.mailOn = true → ampFirstDone mb s.amp.jobs = some (j, st, p) → j.abandoned = true →
        exec (.mbResponseReady mb) s = .next (s.modAmp fun a => { a with jobs := ampDropDone mb a.jobs }))
    ∧ (∀ s j st p, s.mailOn = true → ampFirstDone 2 s.amp.jobs = some (j, st, p) → j.abandoned = false →
        ∃ t, exec (.mbResponseReady 2) s = .next t ∧ t.answer = .sent j.endpoint (mctpBody 2 (j.response st p)) ∧
              t.amp.m2.state = s.idleState)
    ∧ (∀ s ep b, s.sideband = true → s.mailOn = true → s.amp.m2.state = .busy →
        exec (.mctpAmpMessage ep (mctpBody 1 b)) s = .next (s.reply (.sent ep (mctpBody 2 (busyAnswer b)))))
    ∧ (∀ s ep b, s.sideband = true → s.mailOn = true → s.amp.m2.state ≠ .busy →
        exec (.mctpAmpMessage ep (mctpBody 1 b)) s = .next (ampSubmit 2 b true ep (s.modMb 2 fun m => { m with state := .busy })))
    ∧ (∀ s ep, s.amp.noticeDue = true → s.amp.m2.events ≠ [] → s.amp.helloEndpoint = some ep → s.sideband = true →
        (∀ t, s.amp.lastNotice = some t → t + 100000 ≤ s.hdCount) →
        exec .mgmtEventNotice s = .next ((s.modAmp fun a => { a with noticeDue := false, lastNotice := some s.hdCount }).reply
          (.sent ep (mctpBody 3 []))))
    ∧ (∀ s t, s.amp.lastNotice = some t → s.hdCount < t + 100000 → exec .mgmtEventNotice s = .next s)
    ∧ (∀ s (mb : Fin 3), (s.amp.mb mb).lockUntil ≠ 0 → (s.amp.mb mb).lockUntil ≤ s.hdCount →
        exec (.lockoutExpiry mb) s = .next (s.modMb mb fun m => { m with lockUntil := 0 }))
    ∧ ∀ s (mb : Fin 3) j, s.mailOn = true → ampTurn mb s.amp.jobs false = some j → j.op ∉ ampOpcodes →
        exec (.unlistedAmpOpcode mb) s = .next (s.ampDone mb St.badOpcode [])

/-! ## AMP messages (spec/04 and the section of each) -/

/-- R88, R89, R100, R468, R497: HELLO binds version 1 and the host's capabilities, and the events lost are counted from 0 again; AMP_STATUS,
TIME_READ and CONFIG_READ only answer; EVENT_READ removes the events it returns; EVENT_MASK replaces the whole mask; OP_STATUS tells how an
operation stands; a key agreement derives the mailbox's key and starts its counter at 0. -/
def Obligations.ProtocolMessagesAnswer : Prop :=
  (∀ s (mb : Fin 3) j, s.ampTurnOf mb 0x0001 j → fieldAt j.payload 0 1 ≤ 1 → 1 ≤ fieldAt j.payload 1 1 → j.mb = mb.val →
      ∃ t p, exec (.hello mb) s = .next (t.ampDone mb St.ok p) ∧ Frame [.amp] s t ∧ (t.amp.mb mb).version = some 1
        ∧ (t.amp.mb mb).caps1 = fieldAt j.payload 0x10 16 ∧ (t.amp.mb mb).eventsLost = 0 ∧ (t.amp.mb mb).key = (s.amp.mb mb).key)
    ∧ (∀ s (mb : Fin 3) j, s.ampTurnOf mb 0x0002 j → ∃ p, p.length = (if s.sec.phase = .recovery then 16 else 96)
        ∧ exec (.ampStatus mb) s = .next (s.ampDone mb St.ok p))
    ∧ (∀ s (mb : Fin 3) j, s.ampTurnOf mb 0x0104 j → exec (.timeRead mb) s = .next (s.ampDone mb St.ok
        (leBytes 8 (s.fabric.pair.getD (0, 0)).1 ++ leBytes 8 (s.fabric.pair.getD (0, 0)).2 ++ leBytes 8 s.hdCount
          ++ leBytes 1 (b2n s.fabric.pair.isSome) ++ leBytes 7 0)))
    ∧ (∀ s (mb : Fin 3) j, s.ampTurnOf mb 0x0101 j →
        exec (.configRead mb) s = .next (s.ampDone mb St.ok (s.sec.storedConfig.getD (List.replicate 256 0))))
    ∧ (∀ s (mb : Fin 3) j, s.ampTurnOf mb 0x0004 j → j.mb = mb.val → 1 ≤ fieldAt j.payload 0 4 → fieldAt j.payload 0 4 ≤ 2047 →
        s.sec.phase ≠ .recovery → (s.amp.mb mb).dropped = 0 → ∃ t, exec (.eventRead mb) s = .next (t.ampDone mb St.ok
            (leBytes 4 ((s.amp.mb mb).events.take (fieldAt j.payload 0 4)).length ++ leBytes 4 0
              ++ ((s.amp.mb mb).events.take (fieldAt j.payload 0 4)).flatMap Event.bytes))
          ∧ Frame [.amp] s t ∧ (t.amp.mb mb).events = (s.amp.mb mb).events.drop (fieldAt j.payload 0 4))
    ∧ (∀ s (mb : Fin 3) j, s.ampTurnOf mb 0x0103 j → exec (.eventMask mb) s = .next
        ((s.modMb j.mb fun m => { m with mask := fieldAt j.payload 0 2 }).ampDone mb St.ok []))
    ∧ (∀ s (mb : Fin 3) j o, s.ampTurnOf mb 0x0005 j → Tab.find s.amp.ops (fieldAt j.payload 0 4) = some o →
        exec (.opStatus mb) s = .next (s.ampDone mb St.ok (leBytes 4 (fieldAt j.payload 0 4) ++ leBytes 1 (b2n o.ended.isSome) ++ leBytes 1 0
          ++ leBytes 2 o.progress ++ leBytes 2 (o.ended.getD St.ok) ++ leBytes 6 0 ++ Tab.get [] s.faults.summaries (fieldAt j.payload 0 4))))
    ∧ (∀ s (mb : Fin 3) j, s.ampTurnOf mb 0x0005 j → Tab.find s.amp.ops (fieldAt j.payload 0 4) = none →
        exec (.opStatus mb) s = .next (s.ampDone mb St.noObject []))
    ∧ (∀ s (mb : Fin 3) j, s.ampTurnOf mb 0x0003 j → j.mb = mb.val → bit (fieldAt j.payload 0 1) 0 = false →
          fieldAt j.payload 0x28 64 = 0 →
        s.sec.owned = true → s.sec.held ≠ 3 → ∃ t p, exec (.keyAgree mb) s = .next (t.ampDone mb St.ok p) ∧ Frame [.amp, .sec, .free] s t
          ∧ (t.amp.mb mb).key ≠ none ∧ (t.amp.mb mb).lastCounter = 0 ∧ t.sec.ownerKey = s.sec.ownerKey)
    ∧ ∀ s (mb : Fin 3) j, s.ampTurnOf mb 0x0003 j → bit (fieldAt j.payload 0 1) 0 = true → s.sec.owned = true →
        exec (.keyAgree mb) s = .next (s.ampDone mb St.busy [])

/-- R97 to R99, R497: an installation that passes its checks is a long operation; one whose inline bytes do not have the digest it names
ends with ST_BAD_DIGEST; one that passes its stages, and leaves the inline objects within 64 MiB, switches the catalogue and ends ST_OK; a
removal takes the entry out, and without an entry is refused; a list that fits one response gives the class's objects from an ID on and
says that nothing follows. -/
def Obligations.ObjectsAreInstalledByStages : Prop :=
  (∀ s (mb : Fin 3) j, s.ampTurnOf mb 0x0201 j → s.installSt (installOf j.payload) = St.ok → s.amp.openOps < 16 →
      exec (.objectInstall mb) s = .next (((s.opened (.install (installOf j.payload).cls (installOf j.payload).id)).modAmp fun a =>
        { a with installs := a.installs ++ [{ op := s.amp.nextOp, obj := installOf j.payload }] }).ampDone mb St.ok (leBytes 4 s.amp.nextOp)))
    ∧ (∀ s op lost bodyOk regions space i, s.amp.installs = [i] → i.op = op → s.serving = true → s.isHeld = false → i.obj.source = 0 →
        Config.sha256 i.obj.data ≠ i.obj.digest →
        exec (.objectInstallDone op lost bodyOk regions space) s = .next (s.installEnds op St.badDigest))
    ∧ (∀ s op lost bodyOk regions space i t o, s.amp.installs = [i] → i.op = op → s.serving = true → s.isHeld = false →
        s.sweepObjects.stages i.obj lost bodyOk regions space = .done t o →
        ¬ (o.source = 0 ∧ 67108864 < s.amp.inlineBytes (objKey o.cls o.id) + o.size) →
        exec (.objectInstallDone op lost bodyOk regions space) s = .next ((t.switchTo o).installEnds op St.ok)
          ∧ Tab.find (t.switchTo o).amp.objects (objKey o.cls o.id) =
                some { o with ver := (t.dropObject (objKey o.cls o.id)).amp.nextVer })
    ∧ (∀ s (mb : Fin 3) j, s.ampTurnOf mb 0x0202 j → fieldAt j.payload 0 1 ≤ 4 →
        Tab.has s.amp.objects (objKey (fieldAt j.payload 0 1) (fieldAt j.payload 2 2)) = true →
        exec (.objectRemove mb) s = .next ((s.dropObject (objKey (fieldAt j.payload 0 1) (fieldAt j.payload 2 2))).ampDone mb St.ok []))
    ∧ (∀ s (mb : Fin 3) j, s.ampTurnOf mb 0x0202 j → fieldAt j.payload 0 1 ≤ 4 →
        Tab.has s.amp.objects (objKey (fieldAt j.payload 0 1) (fieldAt j.payload 2 2)) = false →
        exec (.objectRemove mb) s = .next (s.ampDone mb St.noObject []))
    ∧ ∀ s (mb : Fin 3) j l, s.ampTurnOf mb 0x0203 j → fieldAt j.payload 0 1 ≤ 4 →
        l = s.amp.objects.filter (fun o => decide (objKey (fieldAt j.payload 0 1) (fieldAt j.payload 2 2) ≤ o.1)
          && decide (o.1 < objKey (fieldAt j.payload 0 1 + 1) 0)) → l.length ≤ 1365 →
        exec (.objectList mb) s = .next (s.ampDone mb St.ok (leBytes 4 l.length ++ leBytes 4 65536 ++ l.flatMap fun o =>
          leBytes 2 o.2.id ++ leBytes 1 o.2.source ++ leBytes 5 0 ++ leBytes 8 o.2.size ++ leBytes 32 o.2.digest))

/-- R134 to R158: an index is created in its space under a fresh key and dropped with its bindings; training and folding are long operations of an index that is
not busy; a training set that can be read gives the index its tables, or ends the training with ST_SINGULAR where it has none; a fold
switches by the fold's plan; a binding names index, model and window; the statistics only answer; a window with text commits its entry
under the window's ID. -/
def Obligations.IndexMessagesAct : Prop :=
  (∀ s (mb : Fin 3) j (x : Index) f, s.ampTurnOf mb 0x0301 j → s.createCheck j.payload = none →
        x = { form := j.payload, born := s.index.nextBorn } →
      s.ftl.alloc (.index s.index.nextBorn) (fieldAt j.payload 0x18 8 / s.part.unitSize) = some f → s.fits 2 x.hbm = true →
      exec (.indexCreate mb) s = .next ((((({ s with ftl := f }).modTiers fun t =>
        { t with poolUsed := Tab.mod 0 t.poolUsed 2 (· + x.hbm) }).modIndex fun ix =>
          { ix with all := Tab.put ix.all (fieldAt j.payload 0 1) x, nextBorn := ix.nextBorn + 1 }).drawKey
            (256 + fieldAt j.payload 0 1)).ampDone mb St.ok []))
    ∧ (∀ s (mb : Fin 3) j x, s.ampTurnOf mb 0x0302 j → s.ix (fieldAt j.payload 0 1) = some x →
        exec (.indexDrop mb) s = .next ((s.dropIndex (fieldAt j.payload 0 1) x).ampDone mb St.ok []))
    ∧ (∀ s (mb : Fin 3) j x, s.ampTurnOf mb 0x0303 j → s.ix (fieldAt j.payload 0 1) = some x → s.trainCheck x j.payload = none →
        s.amp.openOps < 16 → exec (.indexTrain mb) s = .next (((s.opened (.train (fieldAt j.payload 0 1))).modIx (fieldAt j.payload 0 1)
          fun x => { x with training := some ⟨s.amp.nextOp, j.payload⟩ }).ampDone mb St.ok (leBytes 4 s.amp.nextOp)))
    ∧ (∀ s (i : Fin 256) lost x t d, s.ix i = some x → x.training = some t →
        s.readSectors (fieldAt t.req 4 4) (fieldAt t.req 8 8) ((fieldAt t.req 0x10 4 * x.d + 4095) / 4096) lost = (d, []) →
        exec (.indexTrainDone i lost) s = .next (match x.train t.req (cutVectors x.d (fieldAt t.req 0x10 4) d) with
          | some r => (s.modIx i fun x => { x with
              training := none, trained := some r, cur := { x.cur with dead := [], edges := r.edges } }).opDone t.op St.ok
          | none => (s.modIx i fun x => { x with training := none }).opDone t.op St.singular))
    ∧ (∀ s (mb : Fin 3) j x, s.ampTurnOf mb 0x0304 j → s.ix (fieldAt j.payload 0 1) = some x → s.foldCheck x j.payload = none →
        s.amp.openOps < 16 → (x.side.any fun e => decide (x.cur.seq < e.seq)) = true → bit (fieldAt j.payload 1 1) 0 = false →
        exec (.indexFold mb) s = .next
          ((((s.opened (.fold (fieldAt j.payload 0 1))).modIx (fieldAt j.payload 0 1) fun x => { x with foldStuck := false }).modIx
            (fieldAt j.payload 0 1) fun y => { y with fold := some { op := some s.amp.nextOp, to_ := x.lastCommit, minList := none } }).ampDone
              mb St.ok (leBytes 4 s.amp.nextOp)))
    ∧ (∀ s (i : Fin 256) eus lost x t f, s.usable i = some (x, t) → x.fold = some f → s.ftl.readOnly = false →
        exec (.foldSwitch i eus lost) s = .next (s.foldSwitch i x t f eus lost))
    ∧ (∀ s (mb : Fin 3) j (b : Binding), s.ampTurnOf mb 0x0305 j → s.bindCheck j.payload = none → bit (fieldAt j.payload 5 1) 0 = false →
        b = { index := fieldAt j.payload 4 1, model := fieldAt j.payload 8 2, windowLog2 := fieldAt j.payload 6 1
              attr := fieldAt j.payload 0x10 8 } → exec (.indexBind mb) s = .next
          ((s.modIndex fun ix => { ix with bindings := Tab.put ix.bindings (fieldAt j.payload 0 4) b }).ampDone mb St.ok []))
    ∧ (∀ s (mb : Fin 3) j x, s.ampTurnOf mb 0x0306 j → s.ix (fieldAt j.payload 0 1) = some x →
        exec (.indexStats mb) s = .next (s.ampDone mb St.ok (s.indexStats (fieldAt j.payload 0 1) x)))
    ∧ ∀ (s : State) (u : State) w l b x t v d, s.index.erasing = [] → s.index.pending = w :: l →
          Tab.find s.index.bindings w.nsid = some b →
        s.usable b.index = some (x, t) → s.ftl.readOnly = false → x.room 1 = true → x.vectorRoom 1 = true →
        s.readSectors w.nsid (w.pos / 4096) (b.window / 4096) [] = (d, []) → dropZeros d ≠ [] →
        u = (s.windowDone.forget x.born (windowId w.nsid w.pos)).modIndex (fun y =>
          { y with ingested := y.ingested ++ [(x.born, windowId w.nsid w.pos)] }) →
        exec (.ingestWindowProcess true v) s = .next ((u.modIx b.index fun x => { x with
          ingestDone := x.ingestDone + 1, truncated := x.truncated + b2n (u.windowCut b.model (dropZeros d)) }).commitEntries b.index
            [{ id := windowId w.nsid w.pos, attr := leBytes 8 b.attr ++ leBytes 8 (windowId w.nsid w.pos)
               list := x.assign t (fitTo x.d v), vec := x.store t (fitTo x.d v), full := x.full (fitTo x.d v) }])

/-- R344, R345, R446, R453, R454: a partition is made with its tenant, mask, windows and every live cluster to clear; one that nothing
uses is deleted, and its settings and counters are read; POWER_SET is refused
for reserved states and for Ebony without the auxiliary supply, and answered at once in the state asked for; POWER_READ only answers;
the governor takes 0, or 100 to 44,000. -/
def Obligations.PartitionAndPowerMessagesAct : Prop :=
  (∀ s (mb : Fin 3) j x, s.ampTurnOf mb 0x0401 j → fieldAt j.payload 0 1 ≤ 127 → bit (fieldAt j.payload 1 1) 0 = true →
      s.part? (fieldAt j.payload 0 1) = some x → exec (.partSet mb) s = .next (
        if s.partInUse (fieldAt j.payload 0 1) x then s.ampDone mb St.busy []
        else ((s.letGo x.mask 0).modSched fun c => { c with parts := Tab.del c.parts (fieldAt j.payload 0 1) }).ampDone mb St.ok []))
    ∧ (∀ s (mb : Fin 3) j (x : Partition), s.ampTurnOf mb 0x0401 j → fieldAt j.payload 0 1 ≤ 127 → bit (fieldAt j.payload 1 1) 0 = false →
        bit (fieldAt j.payload 1 1) 1 = false → psWeightsBad j.payload = false → psWindowsBad j.payload = false →
        fieldAt j.payload 8 16 ≠ 0 → s.sched.parts = [] → x = Partition.weights {} j.payload →
        exec (.partSet mb) s = .next (((s.modSched fun c => { c with parts := Tab.put c.parts (fieldAt j.payload 0 1) { x with
            tenant := fieldAt j.payload 4 4, mask := fieldAt j.payload 8 16, hbm := psWindows j.payload
            toClear := s.liveMask (fieldAt j.payload 8 16) } }).dispatchPoint (fieldAt j.payload 0 1)).ampDone mb St.ok []))
    ∧ (∀ s (mb : Fin 3) j x, s.ampTurnOf mb 0x0402 j → fieldAt j.payload 0 1 ≤ 127 → s.part? (fieldAt j.payload 0 1) = some x →
        exec (.partRead mb) s = .next (s.ampDone mb St.ok (s.partStats (fieldAt j.payload 0 1) x)))
    ∧ (∀ s (mb : Fin 3) j, s.ampTurnOf mb 0x0501 j → 5 < fieldAt j.payload 0 1 → fieldAt j.payload 0 1 ≠ 0xFF →
        exec (.powerSet mb) s = .next (s.ampDone mb St.unsupported []))
    ∧ (∀ s (mb : Fin 3) j, s.ampTurnOf mb 0x0501 j → fieldAt j.payload 0 1 = 5 → s.mgmt.aux = false →
        exec (.powerSet mb) s = .next (s.ampDone mb St.unsupported []))
    ∧ (∀ s (mb : Fin 3) j, s.ampTurnOf mb 0x0501 j → fieldAt j.payload 0 1 ≤ 1 → fieldAt j.payload 0 1 = s.power.ladder →
        (s.modPower fun p => { p with target := fieldAt j.payload 0 1, woken := false }).effective = s.power.ladder →
        exec (.powerSet mb) s = .next ((s.modPower fun p => { p with target := fieldAt j.payload 0 1, woken := false }).ampDone mb St.ok
          (leBytes 1 s.power.ladder ++ [0, 0, 0])))
    ∧ (∀ s (mb : Fin 3) j, s.ampTurnOf mb 0x0502 j → ∃ p, p.length = 32 ∧ exec (.powerRead mb) s = .next (s.ampDone mb St.ok p))
    ∧ ∀ s (mb : Fin 3) j, s.ampTurnOf mb 0x0503 j → exec (.writeGovernor mb) s = .next (
        if fieldAt j.payload 0 4 = 0 ∨ (100 ≤ fieldAt j.payload 0 4 ∧ fieldAt j.payload 0 4 ≤ 44000) then
          (s.modPower fun p => { p with governor := fieldAt j.payload 0 4 }).ampDone mb St.ok []
        else s.ampDone mb St.unsupported [])

/-- R430, R434 to R437: records of the fault log are read in order from a number on, and an acknowledgement takes those up to its number
away; one scrub of a space runs at a time, as a long operation, and the end of one of a stack with no bad word posts its summary; a row of a
stack is retired if a spare is left, a bank that is off is retired and lost, and an erase unit is marked for its data to be moved away. -/
def Obligations.FaultMessagesAct : Prop :=
  (∀ s (mb : Fin 3) j l, s.ampTurnOf mb 0x0601 j → 1 ≤ fieldAt j.payload 4 4 → fieldAt j.payload 4 4 ≤ 1023 →
      l = (s.faults.log.filter fun e => decide (fieldAt j.payload 0 4 ≤ e.fr.record)).take (fieldAt j.payload 4 4) →
      ∃ n, exec (.faultRead mb) s = .next (s.ampDone mb St.ok (leBytes 4 l.length ++ leBytes 4 n ++ leBytes 4 s.faults.droppedAmber
          ++ leBytes 4 s.faults.droppedOther ++ l.flatMap fun e => e.fr.bytes))
        ∧ (∀ e, l.getLast? = some e → n = e.fr.record + 1) ∧ (l = [] → n = s.faults.nextRecord))
    ∧ (∀ s (mb : Fin 3) j, s.ampTurnOf mb 0x0602 j → exec (.faultAck mb) s = .next (
        if s.faults.nextRecord ≤ fieldAt j.payload 0 4 then s.ampDone mb St.idRange []
        else (s.modFaults fun f => { f with log := f.log.filter fun e => decide (fieldAt j.payload 0 4 < e.fr.record) }).ampDone mb St.ok []))
    ∧ (∀ s (mb : Fin 3) j, s.ampTurnOf mb 0x0603 j → s.scrubSt (scrubOf j.payload) = St.ok → s.amp.openOps < 16 →
        (s.faults.scrubs.any fun y => y.space == (scrubOf j.payload).space) = false →
        exec (.scrubRange mb) s = .next (((s.opened (.scrub (scrubOf j.payload).space)).modFaults fun f => { f with
          scrubs := f.scrubs ++ [{ scrubOf j.payload with op := s.amp.nextOp, began := s.hdCount }] }).ampDone mb St.ok (leBytes 4 s.amp.nextOp)))
    ∧ (∀ s (mb : Fin 3) j, s.ampTurnOf mb 0x0603 j → s.scrubSt (scrubOf j.payload) = St.ok →
        (s.faults.scrubs.any fun y => y.space == (scrubOf j.payload).space) = true →
              exec (.scrubRange mb) s = .next (s.ampDone mb St.busy []))
    ∧ (∀ s op eus x, s.faults.scrubs = [x] → x.op = op → x.space = 0 → s.serving = true → s.poison = [] →
        exec (.scrubDone op [] [] eus) s = .next ((s.modFaults fun f => { f with
          scrubs := [], summaries := Tab.put f.summaries op (ScrubSum.bytes { checked := x.len } (s.hdCount - x.began)) }).opDone op St.ok))
    ∧ (∀ s (mb : Fin 3) j spare k, s.ampTurnOf mb 0x0604 j → fieldAt j.payload 0 1 = 0 → place (fieldAt j.payload 8 8) = .hbm k →
        s.dieLost k = false → s.faults.hbmRepaired.contains (fieldAt j.payload 8 8 / 1024) = false → exec (.retire mb spare) s = .next (
          if spare then (s.modFaults fun f =>
            { f with hbmRepaired := f.hbmRepaired ++ [fieldAt j.payload 8 8 / 1024] }).ampDone mb St.ok []
          else s.ampDone mb St.noSpace []))
    ∧ (∀ s (mb : Fin 3) j spare g b o, s.ampTurnOf mb 0x0604 j → fieldAt j.payload 0 1 = 1 → place (fieldAt j.payload 8 8) = .sp g b o →
        b < 24 → (s.cluster g).bank b = .off →
              exec (.retire mb spare) s = .next (((s.modCl g fun c => c.setBank b .retired).modFaults fun f =>
          { f with lost := f.lost ++ [.bank g b] }).ampDone mb St.ok []))
    ∧ ∀ s (mb : Fin 3) j spare a e, s.ampTurnOf mb 0x0604 j → fieldAt j.payload 0 1 = 2 → a = fieldAt j.payload 8 8 → a / 2 ^ 32 < 32 →
        a % 2 ^ 32 % 2048 = 0 → a % 2 ^ 32 < 2 ^ 30 → pgTarget (a % 2 ^ 32) < s.part.targets → pgBlock (a % 2 ^ 32) < 3640 →
        e = euOf (s.part.slotOf (a / 2 ^ 32) (a % 2 ^ 32)) → s.ftl.eu e ≠ .retired → (∀ n, s.ftl.eu e ≠ .failed n) →
        exec (.retire mb spare) s = .next ((s.modFtl fun f => f.setEu e (.failed 2)).ampDone mb St.ok [])

/-- R469 to R473, R477: a configuration record is taken only with a higher sequence number than the stored one and when it is valid under
the owner's key; in Held it takes effect at once and lets the module out; a release clears ownership and configuration and asks for a
restart, which comes once no OWNER_SET is left; a transfer without a configuration writes the new owner; a namespace key with unlike
halves is set and one with equal halves refused; a crypto erase and a sanitize act on a namespace that exists and a module that is not
sanitizing. -/
def Obligations.OwnerMessagesAct : Prop :=
  (∀ s (mb : Fin 3) j lost places, s.ampTurnOf mb 0x0102 j → s.sec.owned = true → s.sec.held ≠ 3 →
      fieldAt j.payload 4 4 ≤ (match s.sec.storedConfig with
        | some c => fieldAt c 4 4
        | none => 0) → exec (.configWrite mb lost places) s = .next (s.ampDone mb St.replay []))
    ∧ (∀ s (mb : Fin 3) j lost places, s.ampTurnOf mb 0x0102 j → s.sec.owned = true → s.sec.held = 0 →
        (match s.sec.storedConfig with
          | some c => fieldAt c 4 4
          | none => 0) < fieldAt j.payload 4 4 → s.tiers.storeUsed ≤ cfgField (some j.payload) 0x20 8 2048 * 2 ^ 30 →
                exec (.configWrite mb lost places) s = .next (
            if s.recordOk s.sec.ownerKey j.payload then (s.modSec fun x => x.writeConfig j.payload).ampDone mb St.ok []
            else s.ampDone mb St.badObject []))
    ∧ (∀ s (mb : Fin 3) j lost places u, s.ampTurnOf mb 0x0102 j → s.sec.owned = true → s.sec.held ≠ 0 → s.sec.held ≠ 3 →
        (match s.sec.storedConfig with
          | some c => fieldAt c 4 4
          | none => 0) < fieldAt j.payload 4 4 →
        s.tiers.storeUsed ≤ cfgField (some j.payload) 0x20 8 2048 * 2 ^ 30 → s.sec.phase = .running →
        (s.modSec fun x => { x with cfgA := .valid (fieldAt j.payload 4 4) j.payload, cfgB := .valid (fieldAt j.payload 4 4) j.payload
                                    config := some j.payload, held := 0 }).openUp lost places = some u →
        exec (.configWrite mb lost places) s = .next (
          if s.recordOk s.sec.ownerKey j.payload then (u.post 0x08 2 []).ampDone mb St.ok [] else s.ampDone mb St.badObject []))
    ∧ (∀ s (mb : Fin 3) j, s.ampTurnOf mb 0x0701 j → bit (fieldAt j.payload 0 1) 0 = true → fieldAt j.payload 8 64 = 0 →
        fieldAt j.payload 0x48 64 = 0 → ∃ t : State, exec (.ownerSet mb) s = .next (t.ampDone mb St.ok []) ∧ t.sec.owned = false
          ∧ t.sec.config = none ∧ t.sec.cfgA = .blank ∧ t.sec.cfgB = .blank ∧ t.tiers.store = []
          ∧ t.sec.rebootAt = some (s.hdCount + 100000))
    ∧ (∀ s (mb : Fin 3) j, s.ampTurnOf mb 0x0701 j → bit (fieldAt j.payload 0 1) 0 = false → s.sec.config = none →
          fieldAt j.payload 0x48 64 = 0 →
        exec (.ownerSet mb) s = .next (
          if Config.validPoint (fieldAt j.payload 8 64) then
            (((s.modSec fun x => x.writeOwner (fieldAt j.payload 8 64)).dropKeys.failCritical j.mb St.noKey).post 0x07 3
              (leBytes 1 j.mb)).ampDone mb St.ok []
          else s.ampDone mb St.unsupported []))
    ∧ (∀ s, s.rebootDue = true → s.sec.phase ≠ .recovery → (s.amp.jobs.any fun j => j.op == 0x0701) = false →
        exec .ownerReleaseRestart s = .next s.reboot)
    ∧ (∀ s (mb : Fin 3) j, s.ampTurnOf mb 0x0702 j → 1 ≤ fieldAt j.payload 0 4 → fieldAt j.payload 0 4 ≤ 128 →
        Tab.has s.host.ns (fieldAt j.payload 0 4) = true → s.ftl.map = [] → ∃ k, exec (.nsKeySet mb) s = .next (
          if k / 2 ^ 256 % 2 ^ 256 = k % 2 ^ 256 then s.ampDone mb St.badObject []
          else (s.modSec fun x => x.putKeys (Tab.put x.keys (fieldAt j.payload 0 4) k)).ampDone mb St.ok []))
    ∧ (∀ s (mb : Fin 3) j, s.ampTurnOf mb 0x0703 j → 1 ≤ fieldAt j.payload 0 4 → fieldAt j.payload 0 4 ≤ 128 →
        Tab.has s.host.ns (fieldAt j.payload 0 4) = true →
              exec (.cryptoErase mb) s = .next ((s.cryptoErase (fieldAt j.payload 0 4)).ampDone mb St.ok []))
    ∧ ∀ s (mb : Fin 3) j block, s.ampTurnOf mb 0x0704 j → sanitizeAction (fieldAt j.payload 0 1) = some block → s.ftl.sanitizer = none →
        s.amp.openOps < 16 → exec (.sanitize mb) s = .next (((s.opened .sanitize).modFtl fun f =>
          { f with sanitizer := some { block := block, op := some s.amp.nextOp } }).ampDone mb St.ok (leBytes 4 s.amp.nextOp))

/-- R463 to R466: an image is staged from offset 0 on without gaps; only a staging that has been verified can be committed; from the
acceptance of the commit the slot is torn, and it holds the image when the read-back verifies; in recovery mode the module then boots
again, 100 ms later. -/
def Obligations.FirmwareIsStagedVerifiedCommitted : Prop :=
  (∀ s (mb : Fin 3) j, s.ampTurnOf mb 0x0801 j → s.sec.verifyOp = none → s.sec.commitOp = none → fieldAt j.payload 0 4 = 0 →
      (j.payload.drop 16).length ≤ fieldAt j.payload 4 4 → exec (.fwStage mb) s = .next ((s.modSec fun x => { x with
        stage := some { size := fieldAt j.payload 4 4, data := j.payload.drop 16 } }).ampDone mb St.ok []))
    ∧ (∀ s (mb : Fin 3) j g, s.ampTurnOf mb 0x0801 j → s.sec.verifyOp = none → s.sec.commitOp = none → s.sec.stage = some g →
        fieldAt j.payload 0 4 ≠ 0 → fieldAt j.payload 0 4 ≠ g.data.length → exec (.fwStage mb) s = .next (s.ampDone mb St.badLength []))
    ∧ (∀ s (mb : Fin 3) j, s.ampTurnOf mb 0x0802 j → s.sec.verifyOp = none → s.sec.commitOp = none → s.amp.openOps < 16 →
        exec (.fwVerify mb) s = .next (((s.opened .fwVerify).modSec fun x => { x with verifyOp := some s.amp.nextOp }).ampDone mb St.ok
          (leBytes 4 s.amp.nextOp)))
    ∧ (∀ s op, s.sec.verifyOp = some op → s.mailOn = true → exec .fwVerifyDone s = .next ((s.modSec fun x => { x with
        verifyOp := none, stage := x.stage.map fun g => { g with verified := decide (s.sec.verifySt =
              St.ok) } }).opDone op s.sec.verifySt))
    ∧ (∀ s (mb : Fin 3) j g, s.ampTurnOf mb 0x0803 j → s.sec.verifyOp = none → s.sec.commitOp = none → s.sec.stage = some g →
        g.verified = false → exec (.fwCommit mb) s = .next (s.ampDone mb St.noObject []))
    ∧ (∀ s (mb : Fin 3) j g, s.ampTurnOf mb 0x0803 j → s.sec.verifyOp = none → s.sec.commitOp = none → s.sec.stage = some g →
        g.verified = true → s.amp.openOps < 16 → exec (.fwCommit mb) s = .next (((s.opened .fwCommit).modSec fun x =>
          { x with commitOp := some s.amp.nextOp, slot := .torn }).ampDone mb St.ok (leBytes 4 s.amp.nextOp)))
    ∧ (∀ s op g ok, s.sec.commitOp = some op → s.sec.stage = some g → s.mailOn = true → ∃ t, exec (.fwCommitDone ok) s = .next t
        ∧ t.sec.commitOp = none ∧ t.sec.slot = (if ok then .image g.data else s.sec.slot)
        ∧ (ok = true → s.sec.phase = .recovery → t.sec.rebootAt = some (s.hdCount + 100000)))
    ∧ ∀ s, s.rebootDue = true → s.sec.phase = .recovery → exec .recoveryReboot s = .next s.reboot

/-! ## Radix selection and merging (spec/07) -/

/-- R162 to R166: top-k selection writes the k best valid elements in original order: every element left out has a key of at most the
boundary, those of the boundary key that come first are taken, four passes at most are run, and TIE_COUNT and SHORT are as R163 and R164
lay down. Threshold mode takes, in original order, the first K valid elements whose key is at least THRESH_KEY, runs no histogram pass and
counts no ties. SORT reorders what is selected by descending key, the lower index first among equal keys, and loses nothing. -/
def Obligations.SelectionKeepsTheBestElements : Prop :=
  (∀ (k : Nat) (keys : List (Option Nat)), 0 < k → (∀ x, some x ∈ keys → x < 2 ^ 32) →
    (topk k keys).picks.Sublist (validKeys 0 keys)
      ∧ (topk k keys).picks.length = min k (validKeys 0 keys).length
      ∧ (∀ p ∈ (topk k keys).picks, (topk k keys).boundary ≤ p.2)
      ∧ (∀ p ∈ validKeys 0 keys, p ∉ (topk k keys).picks → p.2 ≤ (topk k keys).boundary
          ∧ ∀ q ∈ (topk k keys).picks, q.2 = p.2 → q.1 < p.1)
      ∧ (topk k keys).passes ≤ 4
      ∧ ((topk k keys).short = true ↔ (validKeys 0 keys).length < k)
      ∧ (topk k keys).tie = (if k < ((validKeys 0 keys).filter fun p => decide ((topk k keys).boundary ≤ p.2)).length
            ∧ k < (validKeys 0 keys).length
          then ((validKeys 0 keys).filter fun p => p.2 == (topk k keys).boundary).length else 0))
    ∧ (∀ (cap t : Nat) (keys : List (Option Nat)),
      (selectAbove cap t keys).picks.Sublist (validKeys 0 keys)
      ∧ (∀ p ∈ (selectAbove cap t keys).picks, t ≤ p.2)
      ∧ (selectAbove cap t keys).picks.length = min cap ((validKeys 0 keys).filter fun p => decide (t ≤ p.2)).length
      ∧ (∀ p ∈ validKeys 0 keys, t ≤ p.2 → p ∉ (selectAbove cap t keys).picks →
          (selectAbove cap t keys).picks.length = cap ∧ ∀ q ∈ (selectAbove cap t keys).picks, q.1 < p.1)
      ∧ ((selectAbove cap t keys).trunc = true ↔ cap < ((validKeys 0 keys).filter fun p => decide (t ≤ p.2)).length)
      ∧ (selectAbove cap t keys).passes = 0 ∧ (selectAbove cap t keys).tie = 0)
    ∧ ∀ (l : List (Nat × Nat)), (sortKeys l).Perm l
      ∧ (sortKeys l).Pairwise fun a b => b.2 < a.2 ∨ (a.2 = b.2 ∧ a.1 ≤ b.1)

/-- R175: what a merge instance holds does not depend on the order its entries arrive in, and an entry that comes again adds nothing
(entries of one module, no feedback, room for all: R176 and R414 say what happens otherwise). -/
def Obligations.MergeIgnoresTheOrderOfArrival : Prop :=
  ∀ (m : Merge) (l l' : List MergeEntry), m.held = [] → m.waiting = [] → m.feedback = false → l.length < m.cap → l.Perm l' →
    (∀ e ∈ l, e.poison = false ∧ e.query < m.queries ∧ e.span = 0) →
    (∀ a ∈ l, ∀ b ∈ l, a.meets b = true → a.seq = b.seq → a.key = b.key → a = b) →
    (l.foldl (fun m e => (m.arrive e).1) m).held.Perm (l'.foldl (fun m e => (m.arrive e).1) m).held
    ∧ ∀ e ∈ l, ((l ++ [e]).foldl (fun m e => (m.arrive e).1) m).held = (l.foldl (fun m e => (m.arrive e).1) m).held

/-- R159, R162 to R171, R173 to R178: a descriptor of a steward core or of keeper firmware is queued, started in its turn or refused, and
its run ends with entries, header and count, or with ST_POISONED at a bad word; a flush ends every queued one; an instance of the
merge-select unit is opened unless its descriptor is refused, takes entries of streams and of channels, and is closed with its output
once its jobs and streams have ended. -/
def Obligations.SelectionUnitsRun : Prop :=
  (∀ s (g : Fin 128) (r : Fin 32), (s.cluster g).runs = true → s.descCheck g ((s.cluster g).core.reg r) = none →
      (s.selUnit (g / 8)).queue.length < 8 → s.accessSt (.steward g) false ((s.cluster g).core.reg r) 64 = St.ok →
      s.firstBad ((s.cluster g).core.reg r) 64 = none →
      exec (.selIssue (.core g) 0 0 r 0) s = .next ((s.used.modUnit (g / 8) fun x => { x with queue := x.queue ++
          [{ desc := s.bytesAt ((s.cluster g).core.reg r) 64, g := g, epoch := (s.cluster g).epoch, doomed := none
             grants := s.grantsOn g, tag := s.tagOf (some g.val) }] }).modCl g fun c => c.retire))
    ∧ (∀ s (g : Fin 128) (r : Fin 32), (s.cluster g).runs = true → s.descCheck g ((s.cluster g).core.reg r) = none →
        8 ≤ (s.selUnit (g / 8)).queue.length → exec (.selIssue (.core g) 0 0 r 0) s = .next (s.stall g .unitFull))
    ∧ (∀ s (u : Fin 16) d f7 rd a b, (s.selUnit u).queue.length < 8 →
          exec (.selIssue (.keeper u d) f7 rd a b) s = .next (s.modUnit u fun x =>
        { x with queue := x.queue ++ [{ desc := fitTo 64 d, keeper := true }] }))
    ∧ (∀ s (u : Fin 16) j l, (s.selUnit u).queue = j :: l → (s.selUnit u).run = none → (s.selUnit u).enable = true →
        s.selCheck j (s.selUnit u).gather = St.ok → exec (.selectionStart u) s = .next
          ((s.modUnit u fun x => { x with queue := l }).modUnit u fun x => { x with run := some { j with gather := x.gather } }))
    ∧ (∀ s (u : Fin 16) j l, (s.selUnit u).queue = j :: l → (s.selUnit u).run = none → (s.selUnit u).enable = true →
        s.selCheck j (s.selUnit u).gather ≠ St.ok → exec (.selectionStart u) s = .next
          (((s.modUnit u fun x => { x with queue := l }).modUnit u fun x => { x with refused := satAdd 65535 x.refused 1 }).selRefuse u j
            (s.selCheck j (s.selUnit u).gather)))
    ∧ (∀ s (u : Fin 16) cycles j (t : State) keys r, (s.selUnit u).run = some j → t = (s.modUnit u fun x => { x with run := none }) →
        keys = t.selKeys j.desc → r = selOf j.desc keys →
        exec (.selectionComplete u cycles) s = .next (match t.selFails j keys r with
          | some f => t.selPoison u j f cycles
          | none => t.used.used.selWrite u j keys r cycles))
    ∧ (∀ (s v : State) (u : Nat) j keys r cycles, selVsrc j.desc = 0 → j.gather = false →
        (∀ p ∈ (selRanges j.gather j.desc).1, s.accessSt j.requester false p.1 p.2 = St.ok) →
        s.writeRange j.requester false (selResAddr j.desc + 64) (s.selEntries j r.picks) = (St.ok, v) →
        s.selWrite u j keys r cycles = (v.selWriteHeader j (selHeader St.ok (b2n r.short + 2 * b2n r.trunc + 8 * b2n (selSort j.desc))
          r.passes r.picks.length r.tie r.boundary 0 0 (invalidIn keys (selN j.desc)) cycles)).selEnd u j)
    ∧ (∀ s (u : Fin 16), exec (.selFlush u) s = .next (selStopAll u (s.selUnit u).queue (s.modUnit u fun x => { x with queue := [] })))
    ∧ (∀ s (u : Fin 16) on gather, exec (.selEnable u on gather) s = .next
          (s.modUnit u fun x => { x with enable := on, gather := gather }))
    ∧ (∀ s d thr, s.mergeCheck d = none → ∃ t, exec (.mergeInstanceOpen d thr) s = .next (t.reply (.value St.ok)) ∧ Frame [.sel] s t
        ∧ ∃ m, Tab.find t.sel.merges (fieldAt (fitTo 32 d) 0 2) = some m ∧ m.desc = fitTo 32 d ∧ m.held = []
          ∧ m.maskClosed = (fieldAt (fitTo 32 d) 6 2 == 0))
    ∧ (∀ s d thr st, s.mergeCheck d = some st → exec (.mergeInstanceOpen d thr) s = .next (s.reply (.value st)))
    ∧ (∀ s i k b m, Tab.find s.sel.merges i = some m → entryReserved b = false → m.through = false →
        exec (.mergeEntryArrival (.stream i k b)) s = .next (s.mergeTo i m (m.arrive (entryFrom m k b))))
    ∧ (∀ s i k b m, Tab.find s.sel.merges i = some m → entryReserved b = false → m.through = true →
        exec (.mergeEntryArrival (.stream i k b)) s = .next (s.modMerge i fun x => { x with
          forwarded := x.forwarded ++ [entryFrom m k b], closes := x.closes + b2n (entryFrom m k b).close }))
    ∧ (∀ s (ch : Fin 32) i r bad rest m x, (s.pipe ch).sent = (i, r, bad) :: rest → (s.pipe ch).readable ≠ 0 →
        Tab.find s.sel.merges i = some m → m.through = false → m.fromChannel (s.entryOfCandidate m r bad) = some x →
        exec (.mergeEntryArrival (.chan ch)) s = .next
          ((s.modPipe ch fun p => { p with sent := rest, readable := p.readable - 1 }).mergeTo i m x))
    ∧ (∀ s i ids m, Tab.find s.sel.merges i = some m → s.scanOf i = none → s.queryOf i = none → s.mergeEnded i m = true →
        m.through = false → exec (.mergeInstanceClose i ids) s = .next ((s.dropMerge i).reply (.data
          ((List.range m.queries).map m.result).flatten)))
    ∧ ∀ s i ids m, Tab.find s.sel.merges i = some m → s.scanOf i = none → s.queryOf i = none → s.mergeEnded i m = false →
        exec (.mergeInstanceClose i ids) s = .next s

/-! ## Clusters and matrix units (spec/08), fused chains (spec/10), scheduling (spec/15) -/

/-- R196 to R203: an Xlz instruction whose operands pass its checks queues its operation, waits while the queue is full, or has its effect
on the gangs' setting at once, and retires; a nonzero field that must be 0 is an illegal instruction; an operand that fails ends the step.
slot.wait waits until the flag is FULL and returns its count; slot.take empties it too; slot.give waits while it is FULL and fills it, in
another cluster by a message, while no earlier message of the core is under way; slot.peek never waits; slot.clear clears its own
cluster's flag at once and another's by a message; mv.issue queues a descriptor, or waits while 16 are queued (R263, R281). A word with
one of the two custom opcodes is the instruction its funct3 names, with the fields of R196; an unused funct3 is an illegal instruction. An
operation starts and ends in its gang's queue. -/
def Obligations.XlzInstructionsRun : Prop :=
  (∀ s (g : Fin 128) (a w : Fin 32), (s.cluster g).runs = true → (s.cluster g).async = none →
      let c := s.cluster g
      let v := c.core.reg w
      loadChecks s c (c.core.reg a) v = none → (c.gangAt (c.lead (bits v 0 2))).queue.length < 8 →
      exec (.tileLoad g 0 0 a w) s = .next (s.modCl g fun c =>
        let x := c.gangAt (s.cluster g |>.lead (bits v 0 2))
        let x := if x.viewSide then { x with view0 := some (bits v 2 4) } else { x with view1 := some (bits v 2 4) }
        (c.setGang (s.cluster g |>.lead (bits v 0 2)) { x with queue := x.queue ++
          [.load ((s.cluster g).core.reg a) (bits v 2 4) (bit v 7)] }).retire))
    ∧ (∀ s (g : Fin 128) (a w : Fin 32) st, (s.cluster g).runs = true → (s.cluster g).async = none →
        loadChecks s (s.cluster g) ((s.cluster g).core.reg a) ((s.cluster g).core.reg w) = some st →
        exec (.tileLoad g 0 0 a w) s = .next (s.xlzOperand g st))
    ∧ (∀ s (g : Fin 128) (f7 : Fin 128) (rd a w : Fin 32) d, (s.cluster g).runs = true → f7 ≠ 0 →
        exec (.tileLoad g f7 rd a w) s = .next (s.illegal g) ∧ exec (.tileStream g f7 rd a w) s = .next (s.illegal g)
        ∧ exec (.tileDrain g f7 rd a w) s = .next (s.illegal g) ∧ exec (.tileCfg g f7 rd a w) s = .next (s.illegal g)
        ∧ exec (.tileFence g f7 rd a w) s = .next (s.illegal g) ∧ exec (.chainGo g f7 rd a w) s = .next (s.illegal g)
        ∧ exec (.mvIssue g f7 rd a w) s = .next (s.illegal g) ∧ exec (.selIssue (.core g) f7 rd a w) s = .next (s.illegal g)
        ∧ exec (.slotWait g f7 rd a w) s = .next (s.illegal g) ∧ exec (.slotTake g f7 rd a w) s = .next (s.illegal g)
        ∧ exec (.slotGive g f7 rd a w) s = .next (s.illegal g) ∧ exec (.slotPeek g f7 rd a w) s = .next (s.illegal g)
        ∧ exec (.slotClear g f7 rd a w) s = .next (s.illegal g) ∧ exec (.stepMark ⟨g, f7, rd, a, w⟩ d) s = .next (s.illegal g))
    ∧ (∀ s (g f7 : Fin 128) (rd a b : Fin 32) w d, (s.cluster g).runs = true → f7 = Fin.ofNat 128 (bits w 25 7) → rd = wordReg w 7 →
        a = wordReg w 15 → b = wordReg w 20 →
        (bits w 0 7 = 0x0B →
          (bits w 12 3 = 0 → exec (.stewardInstruction g (.xlz w d)) s = exec (.tileLoad g f7 rd a b) s)
          ∧ (bits w 12 3 = 1 → exec (.stewardInstruction g (.xlz w d)) s = exec (.tileStream g f7 rd a b) s)
          ∧ (bits w 12 3 = 2 → exec (.stewardInstruction g (.xlz w d)) s = exec (.tileDrain g f7 rd a b) s)
          ∧ (bits w 12 3 = 3 → exec (.stewardInstruction g (.xlz w d)) s = exec (.tileCfg g f7 rd a b) s)
          ∧ (bits w 12 3 = 4 → exec (.stewardInstruction g (.xlz w d)) s = exec (.tileFence g f7 rd a b) s)
          ∧ (bits w 12 3 = 5 → exec (.stewardInstruction g (.xlz w d)) s = exec (.chainGo g f7 rd a b) s)
          ∧ (6 ≤ bits w 12 3 → exec (.stewardInstruction g (.xlz w d)) s = .next (s.illegal g)))
        ∧ (bits w 0 7 = 0x2B →
          (bits w 12 3 = 0 → exec (.stewardInstruction g (.xlz w d)) s = exec (.mvIssue g f7 rd a b) s)
          ∧ (bits w 12 3 = 1 → exec (.stewardInstruction g (.xlz w d)) s = exec (.selIssue (.core g) f7 rd a b) s)
          ∧ (bits w 12 3 = 2 → exec (.stewardInstruction g (.xlz w d)) s = exec (.slotWait g f7 rd a b) s)
          ∧ (bits w 12 3 = 3 → exec (.stewardInstruction g (.xlz w d)) s = exec (.slotTake g f7 rd a b) s)
          ∧ (bits w 12 3 = 4 → exec (.stewardInstruction g (.xlz w d)) s = exec (.slotGive g f7 rd a b) s)
          ∧ (bits w 12 3 = 5 → exec (.stewardInstruction g (.xlz w d)) s = exec (.slotPeek g f7 rd a b) s)
          ∧ (bits w 12 3 = 6 → exec (.stewardInstruction g (.xlz w d)) s = exec (.slotClear g f7 rd a b) s)
          ∧ (bits w 12 3 = 7 → exec (.stewardInstruction g (.xlz w d)) s = exec (.stepMark ⟨g, f7, rd, a, b⟩ d) s)))
    ∧ (∀ s (g : Fin 128) (a w : Fin 32), (s.cluster g).runs = true → (s.cluster g).async = none →
        let c := s.cluster g
        let v := c.core.reg w
        streamChecks c (c.core.reg a) v = none → (c.gangAt (c.lead (bits v 26 2))).queue.length < 8 →
        exec (.tileStream g 0 0 a w) s = .next (s.modCl g fun c =>
          let x := c.gangAt (s.cluster g |>.lead (bits v 26 2))
          (c.setGang (s.cluster g |>.lead (bits v 26 2)) { x with viewSide := x.viewSide != bit v 21, queue := x.queue ++
            [.stream ((s.cluster g).core.reg a) (bits v 32 16) (bits v 22 4) (bit v 21) (bit v 20) (bits v 10 10) (bits v 0 10 + 1)] }).retire))
    ∧ (∀ s (g : Fin 128) (a w : Fin 32), (s.cluster g).runs = true → (s.cluster g).async = none →
        let c := s.cluster g
        let v := c.core.reg w
        drainChecks c (c.core.reg a) v = none → (c.gangAt (c.lead (bits v 22 2))).queue.length < 8 →
        exec (.tileDrain g 0 0 a w) s = .next (s.modCl g fun c =>
          let x := c.gangAt (s.cluster g |>.lead (bits v 22 2))
          (c.setGang (s.cluster g |>.lead (bits v 22 2)) { x with queue := x.queue ++
            [.drain ((s.cluster g).core.reg a) (bits v 32 16) (bit v 21) (bit v 20) (bits v 10 10) (bits v 0 10 + 1)] }).retire))
    ∧ (∀ s (g : Fin 128) (rd a : Fin 32), (s.cluster g).runs = true → (s.cluster g).async = none →
        cfgChecks s ((s.cluster g).core.reg a) = none → (s.cluster g).mxuBusy = false →
        exec (.tileCfg g 0 rd a 0) s = .next (s.modCl g fun c => (c.configure ((s.cluster g).core.reg a)).retireWith rd c.cfgWord))
    ∧ (∀ s (g : Fin 128) (rd a : Fin 32), (s.cluster g).runs = true → (s.cluster g).async = none →
        cfgChecks s ((s.cluster g).core.reg a) = none → (s.cluster g).mxuBusy = true →
        exec (.tileCfg g 0 rd a 0) s = .next (s.stall g .cfg))
    ∧ (∀ s (g : Fin 128), (s.cluster g).runs = true → (s.cluster g).async = none →
        exec (.tileFence g 0 0 0 0) s = .next (if (s.cluster g).mxuBusy then s.stall g .fence else s.modCl g Cluster.retire))
    ∧ (∀ s (g : Fin 128) (u : Fin 4), u.val < (s.cluster g).gangs → ∀ fed, exec (.mxuOpStart g ⟨u, fed⟩) s =
        .next (s.modCl g fun c => (c.setGang (c.lead u) ((c.gangAt (c.lead u)).start fed)).markShared))
    ∧ (∀ s (g : Fin 128) (u : Fin 4) k addr fmt col buf al, u.val < (s.cluster g).gangs →
        ((s.cluster g).gangAt ((s.cluster g).lead u)).active[k]? = some ⟨.load addr fmt col, buf, al⟩ →
        exec (.mxuOpComplete g u k) s = .next ((s.modCl g fun c => c.setGang (c.lead u) ((c.gangAt (c.lead u)).take k)).loadDone g u
          addr fmt col buf))
    ∧ (∀ s (g : Fin 128) (u : Fin 4) addr stride afmt swap acc row n buf al, u.val < (s.cluster g).gangs →
        ((s.cluster g).gangAt ((s.cluster g).lead u)).active[0]? = some ⟨.stream addr stride afmt swap acc row n, buf, al⟩ →
        exec (.mxuOpComplete g u 0) s = .next ((s.modCl g fun c => c.setGang (c.lead u) ((c.gangAt (c.lead u)).take 0)).streamDone g u
          addr stride afmt acc row n buf al))
    ∧ (∀ s (g : Fin 128) (u : Fin 4) addr stride rs cl row n buf al, u.val < (s.cluster g).gangs →
        ((s.cluster g).gangAt ((s.cluster g).lead u)).active[0]? = some ⟨.drain addr stride rs cl row n, buf, al⟩ →
        exec (.mxuOpComplete g u 0) s = .next ((s.modCl g fun c => c.setGang (c.lead u) ((c.gangAt (c.lead u)).take 0)).drainRows g u
          addr stride rs cl row 0 n))
    ∧ (∀ s (g : Fin 128) (rd r : Fin 32), (s.cluster g).runs = true → slotChecks s g ((s.cluster g).core.reg r) true = none →
      let i := bits ((s.cluster g).core.reg r) 0 12
      ((s.cluster g).slotFull i = true →
        exec (.slotWait g 0 rd r 0) s = .next (s.modCl g fun c => c.retireWith rd (c.slotCount i))
        ∧ exec (.slotTake g 0 rd r 0) s = .next (s.modCl g fun c => (c.setSlot i false (c.slotCount i)).retireWith rd (c.slotCount i)))
      ∧ ((s.cluster g).slotFull i = false →
        exec (.slotWait g 0 rd r 0) s = .next (s.stall g (.slotRead i)) ∧ exec (.slotTake g 0 rd r 0) s = .next (s.stall g (.slotRead i)))
      ∧ exec (.slotPeek g 0 rd r 0) s = .next (s.modCl g fun c => c.retireWith rd (Tab.get 0 c.slots i)))
    ∧ (∀ s (g : Fin 128) (r w : Fin 32), (s.cluster g).runs = true → slotChecks s g ((s.cluster g).core.reg r) false = none →
        let i := bits ((s.cluster g).core.reg r) 0 12
        let h := bits ((s.cluster g).core.reg r) 12 10
        let n := (s.cluster g).core.reg w % 256
        (h = g.val → (s.cluster g).slotFull i = false →
              exec (.slotGive g 0 0 r w) s = .next (s.modCl g fun c => (c.setSlot i true n).retire))
        ∧ (h = g.val → (s.cluster g).slotFull i = true → exec (.slotGive g 0 0 r w) s = .next (s.stall g (.slotGive g i)))
        ∧ (h ≠ g.val → (s.cluster g).remote = none → exec (.slotGive g 0 0 r w) s = .next (s.modCl g fun c =>
            { c with remote := some ⟨h, i, some n⟩, waiting := some (.slotGive h i) }))
        ∧ (h = g.val → exec (.slotClear g 0 0 r 0) s = .next (s.modCl g fun c => (c.setSlot i false 0).retire))
        ∧ (h ≠ g.val → (s.cluster g).remote = none → exec (.slotClear g 0 0 r 0) s = .next (s.modCl g fun c =>
            { c with remote := some ⟨h, i, none⟩ })))
    ∧ (∀ s (g : Fin 128) (rd r : Fin 32) st, (s.cluster g).runs = true → slotChecks s g ((s.cluster g).core.reg r) true = some st →
        exec (.slotWait g 0 rd r 0) s = .next (s.xlzOperand g st))
    ∧ (∀ s (g : Fin 128) (r : Fin 32), (s.cluster g).runs = true → s.descCheck g ((s.cluster g).core.reg r) = none →
        (s.cluster g).mvQueued < 16 → s.accessSt (.mover g) false ((s.cluster g).core.reg r) 64 = St.ok →
        s.firstBad ((s.cluster g).core.reg r) 64 = none → exec (.mvIssue g 0 0 r 0) s = .next (s.used.modCl g fun c =>
          ({ c with movers := c.movers ++
              [{ desc := s.bytesAt ((s.cluster g).core.reg r) 64, epoch := (s.cluster g).epoch, doomed := none }] } : Cluster).retire))
    ∧ ∀ s (g : Fin 128) (r : Fin 32), (s.cluster g).runs = true → s.descCheck g ((s.cluster g).core.reg r) = none →
        16 ≤ (s.cluster g).mvQueued → exec (.mvIssue g 0 0 r 0) s = .next (s.stall g .unitFull)

/-- R235, R244, R249, R253: chain.go returns the code of the first check that fails, or queues the chain, with its scale records of that
moment, and returns 0; a chain that has run writes its parts in order: rows are stored, a block goes to its slot when the slot is EMPTY and
waits while it is FULL; once no part is left the completion slot is posted. -/
def Obligations.ChainsRunToTheirSlot : Prop :=
  (∀ s (g : Fin 128) (rd r w : Fin 32), (s.cluster g).runs = true → (s.cluster g).async = none →
      let a := (s.cluster g).core.reg r
      let v := (s.cluster g).core.reg w
      let d := s.bytesAt a (32 + 32 * min (fieldAt (s.bytesAt a 32) 0 1) 8)
      s.descCheck g a = none → slotChecks s g v true = none → s.accessSt (.steward g) false a d.length = St.ok →
      s.accessSt (.steward g) false a 32 = St.ok → s.firstBad a 32 = none → s.used.firstBad a d.length = none →
      chainCheck s.used.used g d ≠ St.ok → exec (.chainGo g 0 rd r w) s = .next (s.used.used.modCl g fun c =>
        c.retireWith rd (chainCheck s.used.used g d)))
    ∧ (∀ s (g : Fin 128) (rd r w : Fin 32), (s.cluster g).runs = true → (s.cluster g).async = none →
        let a := (s.cluster g).core.reg r
        let v := (s.cluster g).core.reg w
        let d := s.bytesAt a (32 + 32 * min (fieldAt (s.bytesAt a 32) 0 1) 8)
        s.descCheck g a = none → slotChecks s g v true = none → s.accessSt (.steward g) false a d.length = St.ok →
        s.accessSt (.steward g) false a 32 = St.ok → s.firstBad a 32 = none → s.used.firstBad a d.length = none →
        chainCheck s.used.used g d = St.ok → staticsOk d (s.used.used.chainStatics g d) = true →
        ((s.cluster g).gangAt ((s.cluster g).lead (chUnit d))).queue.length < 8 →
        exec (.chainGo g 0 rd r w) s = .next (s.used.used.modCl g fun c =>
          let x := c.gangAt ((s.cluster g).lead (chUnit d))
          (c.setGang ((s.cluster g).lead (chUnit d)) { x with queue := x.queue ++
            [.chain { desc := d, slot := bits v 0 12, pc := c.core.pc, statics := s.used.used.chainStatics g d
                      spans := chainSpans g c d }] }).retireWith rd St.ok))
    ∧ (∀ s t (g : Fin 128) (u : Fin 4) k k', (s.cluster g).chainAt u = some k → k.ran = true → t = s.chainAdvance g u k →
        (t.cluster g).chainAt u = some k' → k'.parts = [] →
        exec (.chainComplete g u) s = .next ((t.chainScratch g k').modCl g fun c =>
          (c.setGang (c.lead u) { c.gangAt (c.lead u) with active := [] }).postSlot k'.slot))
    ∧ (∀ s t v (g : Fin 128) (u : Fin 4) k k' b l p, (s.cluster g).chainAt u = some k → k.ran = true → t = s.chainAdvance g u k →
        (t.cluster g).chainAt u = some k' → k'.parts = .send b :: l → b.span = none →
        t.chainWrite g k'.tainted (b.rows.map fun r => .store (spAddr b.cluster r.1) r.2) = (St.ok, p, v) →
        exec (.chainBlockSend g u) s = .next (if (v.cluster b.cluster).slotFull b.slot then v.modCl g fun c => c.setChain u k'
          else (v.modCl b.cluster fun c => c.setSlot b.slot true b.count).chainAdvance g u { k' with parts := l }))
    ∧ (∀ (s v : State) g u k l, s.chainWrite g k.tainted k.parts = (St.ok, l, v) →
        s.chainAdvance g u k = v.modCl g fun c => c.setChain u { k with parts := l })
    ∧ ∀ (s v : State) (g : Nat) taint a b l, s.used.writeRange (.mover (Fin.ofNat 128 g)) false a (s.chainBytes taint b) = (St.ok, v) →
        s.chainWrite g taint (.store a b :: l) = v.chainWrite g taint l

/-- R193 to R195, R347, R349, R353 to R358, R423: a core's own instructions, loads and stores, of 16 or 32 bits; its mark, emission and
end; the end of a quantum; a save that finds no room is put off, and one into its places sets the task back at the front of its queue. -/
def Obligations.ProgramsStepEmitAndEnd : Prop :=
  (∀ s (g : Fin 128) sets target rvc, (s.cluster g).runs = true → exec (.stewardInstruction g (.plain sets (some target) rvc)) s = .next
      (s.modCl g fun c =>
        let c := ({ c with core := sets.foldl Core.apply c.core } : Cluster).retireBy (if rvc then 2 else 4)
        { c with core := { c.core with pc := target % 2 ^ 64 } }))
    ∧ (∀ s (g : Fin 128) sets rvc, (s.cluster g).runs = true → exec (.stewardInstruction g (.plain sets none rvc)) s = .next
        (s.modCl g fun c => ({ c with core := sets.foldl Core.apply c.core } : Cluster).retireBy (if rvc then 2 else 4)))
    ∧ (∀ s (g : Fin 128) rd n op v, (s.cluster g).runs = true → csrAllowed (s.cluster g).core.mode n true = true →
        exec (.stewardInstruction g (.csr rd n op v true)) s = .next ((s.modCl g fun c =>
          ({ c with core := c.core.csrWrite n (csrNew op (s.csrRead g n) v % 2 ^ 64) } : Cluster).retireWith rd (s.csrRead g n)).used))
    ∧ (∀ s (g : Fin 128) rd n op v w, (s.cluster g).runs = true → csrAllowed (s.cluster g).core.mode n w = false →
        exec (.stewardInstruction g (.csr rd n op v w)) s = .next (s.illegal g))
    ∧ (∀ s (g : Fin 128) a n d rvc, (s.cluster g).runs = true → misaligned (d == .fetch) (a, n) = false → d ≠ .fetch →
        s.accessSt (.steward g) false a n = St.ok → s.firstBad a n = none → exec (.stewardLoad g [(a, n)] d (.plain rvc)) s = .next
          (s.used.modCl g fun c => ({ c with core := c.core.loaded d [s.bytesAt a n] } : Cluster).retireBy (if rvc then 2 else 4)))
    ∧ (∀ s (g : Fin 128) a n d k, (s.cluster g).runs = true → misaligned (d == .fetch) (a, n) = true → d ≠ .fetch →
        exec (.stewardLoad g [(a, n)] d k) s = .next (s.modCl g fun c => c.trap 4 a none))
    ∧ (∀ s (g : Fin 128) a b rvc, (s.cluster g).runs = true → misaligned false (a, b.length) = false → a % 8 = 0 → b.length % 8 = 0 →
        s.accessSt (.steward g) true a b.length = St.ok →
              exec (.stewardStore g [(a, b)] (.plain rvc)) s = .next ((s.store a b).modCl g fun c =>
          ({ c with core := { c.core with reservation := (s.cluster g).core.reservation } } : Cluster).retireBy (if rvc then 2 else 4)))
    ∧ (∀ s (g : Fin 128) a b rd, (s.cluster g).runs = true → misaligned false (a, b.length) = false →
        (s.cluster g).reserves g a b.length = false → exec (.stewardStore g [(a, b)] (.sc rd)) s = .next
          ((s.modCl g fun c => { c with core := { c.core with reservation := none } }).modCl g fun c => c.retireWith rd 1))
    ∧ (∀ s (g : Fin 128) d p x t, s.sched.partOf g = some (p, x) → x.run = some t → (s.cluster g).runs = true → g.val ∉ t.ended →
        exec (.stepMark ⟨g, 0, 0, 0, 0⟩ d) s = .next (((s.modTask g fun t =>
          { t with arrived := if t.arrived.contains g.val then t.arrived else t.arrived ++ [g.val] }).stall g .step).barrier p d))
    ∧ (∀ s (g : Fin 128) a n, (s.cluster g).runs = true → (s.taskOf g).isSome = true → s.accessSt (.steward g) false a n = St.ok →
        s.firstBad a n = none → exec (.runEmit g a n) s = .next ((s.used.modTask g fun t =>
          { t with emitted := t.emitted ++ [s.bytesAt a n] }).modCl g fun c => c.retire))
    ∧ (∀ s (g : Fin 128) d p x t, s.sched.partOf g = some (p, x) → x.run = some t → (s.cluster g).runs = true → g.val ∉ t.ended →
        exec (.taskEnd g St.ok d) s = .next (((s.modTask g fun t => { t with ended := t.ended ++ [g.val] }).modCl g fun c =>
          { c.stop with halt := true }).barrier p d))
    ∧ (∀ s (g : Fin 128) code d p x t, s.sched.partOf g = some (p, x) → x.run = some t → (s.cluster g).runs = true → g.val ∉ t.ended →
        code ≠ St.ok → exec (.taskEnd g code d) s = .next (s.endTask p code))
    ∧ (∀ s (p : Fin 128) x k, s.part? p = some x → x.run.isSome = true → x.switch = none → x.quantumFrom + x.quantum ≤ s.hdCount →
        ({ x.charge s.hdCount with quantumFrom := s.hdCount } : Partition).choose = some k → k ≠ x.runQueue →
        exec (.quantumExpiry p) s = .next ((s.modPart p fun x => { x.charge s.hdCount with quantumFrom := s.hdCount }).preempt p))
    ∧ (∀ s (p : Fin 128) x t w, s.part? p = some x → x.run = some t → x.switch = some w → t.saveAreas = [] →
        s.fits 3 (s.saveBytes (s.clustersOf x.mask) t.wsMask).sum = false →
        exec (.saveComplete p [] true) s = .next (s.preemptWaits p (s.clustersOf x.mask)))
    ∧ ∀ (s u : State) (p : Fin 128) addrs giveUp x t w gs total saves, s.part? p = some x → x.run = some t → x.switch = some w →
        t.saveAreas ≠ [] → gs = s.clustersOf x.mask → total = (s.saveBytes gs t.wsMask).sum →
        saves = gs.map (fun g => (g, s.saveCluster g t.wsMask)) →
        u = forClusters (fun g s => s.modCl g Cluster.vacate) gs (writeAreas t.tag t.stepNo saves t.saveAreas s) →
        exec (.saveComplete p addrs giveUp) s = .next (((u.modPart p fun x =>
          let y := x.charge w.since
          let y := y.setQueue x.runQueue { y.queue x.runQueue with tasks :=
            { t with saved := saves, isSaved := true, saveSize := total } :: (y.queue x.runQueue).tasks }
          { y with run := none, switch := none, savedOut := some total
                   preemptions := satAdd (2 ^ 64 - 1) y.preemptions 1 }).dispatchPoint p).modPart p fun x =>
            match x.savedOut with
            | some n => { x with savedOut := none, switchUs := satAdd (2 ^ 64 - 1) x.switchUs (20 + moveUs n gs.length)
                                 switchBytes := satAdd (2 ^ 64 - 1) x.switchBytes n }
            | none => x)

/-! ## Scratchpads (spec/11), cluster control (spec/08, 09), movers and tiers (spec/12) -/

/-- R262, R276: TENANT_CLEAR starts on a halted, idle cluster; when it ends every byte of the cluster's window reads 0, in every bank that
is not retired, no region is RESIDENT and every slot flag is EMPTY with count 0. -/
def Obligations.TenantClearLeavesNothing : Prop :=
  (∀ s (g : Fin 128), (s.cluster g).halted = true → (s.cluster g).mxuBusy = false → (s.cluster g).mvQueued = 0 →
      exec (.tenantClear g) s = .next (s.modCl g fun c => { c with clearing := true }))
    ∧ ∀ s (g : Fin 128), (s.cluster g).clearing = true → s.sched.partOf g = none →
        ∃ t, exec (.tenantClearDone g) s = .next t ∧ t.cl = (s.modCl g Cluster.cleared).cl
          ∧ (∀ a, spAddr g 0 ≤ a → a < spAddr g 0 + spEnd → t.byteAt a = 0)
          ∧ ∀ a, a < spAddr g 0 ∨ spAddr g 0 + spEnd ≤ a → t.byteAt a = s.byteAt a

/-- R203, R204, R234, R257, R264, R267, R270, R276: the cluster's control and scratchpad registers act as their rows say. -/
def Obligations.ClusterControlActs : Prop :=
  (∀ s (g : Fin 128), exec (.clMxuReset g) s = .next (s.mxuReset g))
    ∧ (∀ s (g : Fin 128), ((s.cluster g).enable = false ∨ (s.cluster g).halted = true) →
        exec (.clCoreReset g) s = .next (s.modCl g Cluster.coreReset))
    ∧ (∀ s (g : Fin 128), exec (.clHalt g true) s = .next (s.modCl g fun c => { c.stop with halt := true })
        ∧ exec (.clHalt g false) s = .next (s.modCl g fun c => { c with halt := false }.go))
    ∧ (∀ s (g : Fin 128), exec (.clEnable g false) s = .next (s.modCl g fun c => { c.stop with enable := false })
        ∧ (s.clusterLost g = false → (s.sched.partOf g).isSome = true →
          exec (.clEnable g true) s = .next (s.modCl g fun c => { c with enable := true }.go))
        ∧ (s.clusterLost g = true → exec (.clEnable g true) s = .next s))
    ∧ (∀ s (g : Fin 128), exec (.cvClr g) s = .next
          (s.modCl g fun c => { c with cvSat := 0, cvNonfinite := 0, cvWidened := 0, cvLast := 0 }))
    ∧ (∀ s (g : Fin 128), exec (.narrowGuarantee g) s = .next
          (s.modCl g fun c => { c with narrowWait := satAdd (2 ^ 64 - 1) c.narrowWait 15 }))
    ∧ (∀ s (g : Fin 128), exec (.spClrCounts g) s = .next
          (s.modCl g fun c => { c with underruns := 0, overruns := 0, postedFull := 0, narrowWait := 0, dropped := 0, parErrors := 0 }))
    ∧ (∀ s (g : Fin 128), (s.cluster g).halted = true → exec (.slotReset g) s = .next (s.modCl g fun c => { c with slots := [] }))
    ∧ (∀ s (g : Fin 128) v, exec (.slotWaitLimitWrite g v) s = .next (s.modCl g fun c => { c with slotLimit := max 1024 v }))
    ∧ (∀ s (g : Fin 128) i v, (s.cluster g).halted = true → exec (.slotWindowWrite g i v) s =
        .next (s.modCl g fun c => c.setSlot i (bit v 8) (v % 256)))
    ∧ (∀ s (g : Fin 128) (b : Fin 24) v l, (s.cluster g).bank b = .on → exec (.spResidentWrite g b ⟨v, l⟩) s =
        .next (s.modCl g fun c => { c with
          resident := Tab.set 0 c.resident b (v % 65536), copies := recordCopies b v l c.copies
          reloads := c.reloads.filter fun k => k / 16 ≠ b.val || bit v (k % 16) }))
    ∧ (∀ s (g : Fin 128) (b : Fin 24) v l, (s.cluster g).bank b ≠ .on →
          exec (.spResidentWrite g b ⟨v, l⟩) s = .next (s.modCl g fun c => c))
    ∧ (∀ s (g : Fin 128) (b : Fin 24) (r : Fin 16) lost ok, (s.cluster g).reloads.contains (b.val * 16 + r.val) = true →
        exec (.residentReloadDone g b r lost ok) s = .next (((s.modCl g fun c =>
          { c with reloads := c.reloads.filter (· ≠ b.val * 16 + r.val) }).reloaded g b (spAddr g ((b.val * 16 + r.val) * 65536))
            (if ok then s.reloadData g (b.val * 16 + r.val) lost else none))))
    ∧ (∀ (s : State) g b a d, s.taskOf g = none → s.reloaded g b a (some d) = s.store a d)
    ∧ (∀ (s : State) g k a lost, Tab.get 0 (s.cluster g).copies k = a → bit a 63 = false → s.accessSt .keeper false a 65536 = St.ok →
        s.firstBad a 65536 = none → s.reloadData g k lost = some (s.bytesAt a 65536))
    ∧ (∀ s (g : Fin 128) m n, (s.cluster g).remote = some m → m.give = some n → (s.cluster m.dest).slotFull m.slot = false →
        exec (.remoteSlotArrival g) s = .next ((s.modCl m.dest fun c => c.setSlot m.slot true n).modCl g fun c =>
          { c with remote := none, waiting := none, core := { c.core with pc := c.core.pc + 4, instret := c.core.instret + 1 } }))
    ∧ (∀ s (g : Fin 128) m n, (s.cluster g).remote = some m → m.give = some n → (s.cluster m.dest).slotFull m.slot = true →
        exec (.remoteSlotArrival g) s = .next (s.modCl g fun c => { c with waiting := some (.slotGive m.dest m.slot) }))
    ∧ ∀ s (g : Fin 128) i, (s.cluster g).waiting = some (.slotRead i) → (s.cluster g).slotFull i = false →
        exec (.slotWaitTimeout g none) s = .next ((s.modCl g (Cluster.slotLimitHit true)).xlzOperand g St.slotUnderrun)

/-- R271 to R275: in Ivory and Pearl a bank that is ON and holds no RESIDENT region is powered down, at once under FORCE, otherwise once no
write to it is left or not at all; it comes back with contents that nothing states; one that is OFF may be retired, and then stays so. -/
def Obligations.BanksArePoweredAndRetired : Prop :=
  (∀ s (g : Fin 128) (b : Fin 32), b.val < 24 → (s.cluster g).pwrBusy = false → (s.cluster g).clearing = false → s.bankTime = true →
      (s.cluster g).bankResident b = false → (s.cluster g).bank b = .on →
      exec (.bankPowerDown g b) s = .next (s.modCl g fun c => { c.setBank b .downWait with
          pwrBank := b, pwrUp := false, pwrForce := false, pwrBusy := true, pwrSince := s.count (dieOfCluster g) })
      ∧ exec (.bankPowerDownForce g b) s = .next (s.modCl g fun c => { c.setBank b .downForce with
          pwrBank := b, pwrUp := false, pwrForce := true, pwrBusy := true, pwrSince := s.count (dieOfCluster g) }))
    ∧ (∀ s (g : Fin 128) (b : Fin 32), b.val < 24 → (s.cluster g).pwrBusy = false → (s.cluster g).clearing = false →
        (s.cluster g).bankResident b = true → exec (.bankPowerDown g b) s = .next (s.modCl g fun c =>
          { c with pwrBank := b, pwrUp := false, pwrForce := false, pwrSt := St.busy }))
    ∧ (∀ s (g : Fin 128) b, (s.cluster g).bankIn .downWait = some b → s.inbound g b = false →
        s.count (dieOfCluster g) ≤ (s.cluster g).pwrSince + 10 → exec (.bankOff g) s = .next (s.modCl g fun c => c.bankEnds b .off St.ok))
    ∧ (∀ s (g : Fin 128) b, (s.cluster g).bankIn .downWait = some b → (s.cluster g).pwrSince + 10 ≤ s.count (dieOfCluster g) →
        exec (.bankPowerTimeout g) s = .next (s.modCl g fun c => c.bankEnds b .on St.busy))
    ∧ (∀ s (g : Fin 128) n b, (s.cluster g).bankIn .downForce = some b → exec (.bankForceOff g n) s = .next (s.modCl g fun c =>
        { c.bankEnds b .off St.ok with dropped := satAdd (2 ^ 32 - 1) c.dropped n }))
    ∧ (∀ s (g : Fin 128) (b : Fin 32) force, b.val < 24 → (s.cluster g).pwrBusy = false → (s.cluster g).clearing = false →
        (s.cluster g).bank b = .off → exec (.bankPowerUp g b force) s = .next (s.modCl g fun c => { c.setBank b .upping with
          pwrBank := b, pwrUp := true, pwrForce := force, pwrBusy := true, pwrSince := s.count (dieOfCluster g) }))
    ∧ (∀ s (g : Fin 128) b, (s.cluster g).bankIn .upping = some b → ∃ t, exec (.bankPowerUpDone g) s = .next t
        ∧ t.cl = (s.modCl g fun c => (c.bankEnds b .on St.ok).dirty (b * 2 ^ 20) (2 ^ 20)).cl
        ∧ (∀ a, spAddr g (b * 2 ^ 20) ≤ a → a < spAddr g ((b + 1) * 2 ^ 20) → t.byteAt a = Config.freeByte s.free a)
        ∧ ∀ a, a < spAddr g (b * 2 ^ 20) ∨ spAddr g ((b + 1) * 2 ^ 20) ≤ a → t.byteAt a = s.byteAt a)
    ∧ (∀ s (g : Fin 128) (b : Fin 32), b.val < 24 → (s.cluster g).bank b = .off → ∃ t, exec (.bankRetire g b) s = .next t
        ∧ t.faults.lost = s.faults.lost ++ [.bank g b] ∧ t.cl = ((s.modCl g fun c => c.setBank b .retired).modCl g fun c =>
          { c with retireBank := b, pwrSt := St.ok }).cl)
    ∧ ∀ s (g : Fin 128) (b : Fin 32), b.val < 24 → (s.cluster g).bank b ≠ .off → (s.cluster g).bank b ≠ .retired →
        exec (.bankRetire g b) s = .next (s.modCl g fun c => { c with retireBank := b, pwrSt := St.busy })

/-- R280 to R286, R303: the first descriptor of an operation that no earlier one holds back is started, or doomed to the code of the check
it fails; when one ends its completion word and slot are posted, and a code other than ST_OK is latched, and of a LINEAR move the bytes are
in place; the keeper posts, flushes and enables; the oldest tensor is demoted tile by tile when the pool is full, and a tile in T2 is
brought up. -/
def Obligations.MoversMoveWhatTheyAreGiven : Prop :=
  (∀ s (g : Fin 128) op k j, (s.cluster g).mvEnable = true → (s.cluster g).mvActive < 4 →
        s.mvNext op [] (s.cluster g).movers 0 = some (k, j) →
      j.doomed = none → s.mvCheck g j = St.ok →
      (op = 0 → exec (.linear g) s = .next (s.modJob g k fun j => { j with started := true, waitTile := none }))
      ∧ (op = 5 → exec (.fill g) s = .next (s.modJob g k fun j => { j with started := true, waitTile := none }))
      ∧ (op = 6 → exec (.copy g) s = .next (s.modJob g k fun j => { j with started := true, waitTile := none }))
      ∧ (op = 7 → exec (.transpose g) s = .next (s.modJob g k fun j => { j with started := true, waitTile := none }))
      ∧ (op = 1 → exec (.tileIn g) s = .next (s.modJob g k fun j =>
          { j with started := true, waitTile := s.inT2 (mvSrc j.desc) (s.mvTiles j.desc) }))
      ∧ (op = 3 → exec (.tensorIn g) s = .next (s.modJob g k fun j =>
          { j with started := true, waitTile := s.inT2 (mvSrc j.desc) (s.mvTiles j.desc) }))
      ∧ (s.fits (s.recPool (mvDst j.desc)) ((s.outCoded g j.desc).map fun p => coded16 p.2).sum = true →
          (op = 2 → exec (.tileOut g false) s = .next (s.modJob g k fun j => { j with started := true, waitTile := none }))
          ∧ (op = 4 → exec (.tensorOut g false) s = .next (s.modJob g k fun j => { j with started := true, waitTile := none }))))
    ∧ (∀ s u (g : Fin 128) op k j giveUp, (s.cluster g).mvEnable = true → (s.cluster g).mvActive < 4 →
        s.mvNext op [] (s.cluster g).movers 0 = some (k, j) → j.doomed = none → s.mvCheck g j ≠ St.ok →
        u = s.modJob g k (fun x => { x with started := true, doomed := some (s.mvCheck g j) }) →
        (op = 0 → exec (.linear g) s = .next u) ∧ (op = 1 → exec (.tileIn g) s = .next u)
        ∧ (op = 2 → exec (.tileOut g giveUp) s = .next u) ∧ (op = 3 → exec (.tensorIn g) s = .next u)
        ∧ (op = 4 → exec (.tensorOut g giveUp) s = .next u) ∧ (op = 5 → exec (.fill g) s = .next u)
        ∧ (op = 6 → exec (.copy g) s = .next u) ∧ (op = 7 → exec (.transpose g) s = .next u))
    ∧ (∀ s u (g : Fin 128) k j addrs o, (s.cluster g).movers[k]? = some j → j.started = true → j.waitTile = none →
        s.mvRun g j addrs = some (o, u) → exec (.moverDescriptorDone g k addrs) s = .next
          ((u.modCl g fun c => { c with movers := c.movers.eraseIdx k }).mvEnd g j o.st o.units o.skipped true))
    ∧ (∀ s (g : Fin 128) k j addrs, (s.cluster g).movers[k]? = some j → j.started = true → j.waitTile = none → j.doomed = none →
        mvOp j.desc = 0 → s.accessSt (j.requester g) false (mvSrc j.desc) (mvCount j.desc) = St.ok →
        s.firstBad (mvSrc j.desc) (mvCount j.desc) = none → mvCount j.desc ≠ 0 →
        s.accessSt (j.requester g) true (mvDst j.desc) (mvCount j.desc) = St.ok →
        exec (.moverDescriptorDone g k addrs) s = .next
              (((s.store (mvDst j.desc) (s.bytesAt (mvSrc j.desc) (mvCount j.desc))).used.modCl g
          fun c => { c with movers := c.movers.eraseIdx k }).mvEnd g j St.ok (mvCount j.desc) 0 true))
    ∧ (∀ s (g : Fin 128) k j addrs st, (s.cluster g).movers[k]? = some j → j.started = true → j.doomed = some st →
        exec (.moverDescriptorDone g k addrs) s = .next
              ((s.modCl g fun c => { c with movers := c.movers.eraseIdx k }).mvEnd g j st 0 0 true))
    ∧ (∀ s (g : Fin 128) v, (s.cluster g).mvQueued < 16 → s.accessSt .keeper false (64 * bits v 6 42) 64 = St.ok →
        s.firstBad (64 * bits v 6 42) 64 = none → exec (.mvPost g v) s = .next (s.used.modCl g fun c => { c with movers := c.movers ++
          [{ desc := s.bytesAt (64 * bits v 6 42) 64, keeper := true, epoch := c.epoch, doomed := none }] }))
    ∧ (∀ s (g : Fin 128) v, 16 ≤ (s.cluster g).mvQueued → exec (.mvPost g v) s = .next (s.modCl g fun c => c.mvFail St.busy))
    ∧ (∀ s (g : Fin 128), exec (.mvFlush g) s = .next (mvStopAll g ((s.cluster g).movers.filter fun j => !j.started)
        (s.modCl g fun c => { c with movers := c.movers.filter (·.started) })))
    ∧ (∀ s (g : Fin 128) on, exec (.mvEnable g on) s = .next (s.modCl g fun c => { c with mvEnable := on }))
    ∧ (∀ s places r u, s.oldestTensor = some r → s.tensorFull = true → demoteTiles r (s.demotedTiles r) places s = some u →
        exec (.tierDemotion places) s = .next u)
    ∧ (∀ (s : State) r i l p ps, (s.loc r i).copy = false → s.t2Free (16 * p) (s.loc r i).len = true →
        demoteTiles r (i :: l) (p :: ps) s = demoteTiles r l ps ((((s.takeT2 (16 * p) (s.loc r i).len).writeT2 (16 * p)
          (s.bytesAt (s.loc r i).at_ (s.loc r i).len)).setLoc r i
            { wh := 2, at_ := 16 * p, copy := false, len := (s.loc r i).len, pos := 0 }).release (s.loc r i).at_))
    ∧ (∀ s (g : Fin 128) k j i r a, (s.cluster g).movers[k]? = some j → j.waitTile = some i → mvRecord j.desc = some r → j.doomed = none →
        s.freeRange a (s.loc r i).len = true → s.fits (s.recPool r) (s.loc r i).len = true →
        ∃ t u, exec (.tilePromotion g k (some a)) s = .next t ∧ u = ((s.take (s.recPool r) a (s.loc r i).len).writeMem a
            (s.t2Bytes (s.loc r i).at_ (s.loc r i).len)).setLoc r i
              { wh := 1, at_ := a, copy := true, len := (s.loc r i).len, pos := (s.loc r i).at_ }
          ∧ t = u.modJob g k fun j => { j with waitTile := u.inT2 r (u.mvTiles j.desc) })
    ∧ ∀ s (g : Fin 128) k j i r, (s.cluster g).movers[k]? = some j → j.waitTile = some i → mvRecord j.desc = some r → j.doomed = none →
        exec (.tilePromotion g k none) s = .next (s.modJob g k fun j => { j with doomed := some St.mediaUnrecovered })

/-! ## Updates (spec/14), the media ROM (spec/16), fault records (spec/19) -/

/-- R332 to R337, R339: a descriptor that passes its checks becomes a queued job, another is answered with its code; the answer stands in a0
of the core that asked (a0 is the model's choice, log 97); a job takes idle units of its stack once no earlier one stands in its way; a
committed block of a slice is stored and counted once; the program's return, a failure, the factor routine's end and an uncorrectable
read each end a unit's slice; a matrix of a size outside the factor routine's range is ST_UNSUPPORTED. -/
def Obligations.UpdateJobsRun : Prop :=
  (∀ s (g : Fin 128) a, (s.cluster g).runs = true → s.mayReach (.steward g) a 64 = true → (stackOf a).isSome = true →
      s.updCheck g (s.bytesAt a 64) ((s.object 3 (uf (s.bytesAt a 64) 0 2)).map (·.data)) = none →
      ∃ j, exec (.updSubmit g a) s = .next (((s.modUpd fun x => { x with jobs := x.jobs ++ [j], nextJob := x.nextJob + 1 }).modCl g fun c =>
          c.retireWith 10 St.ok).reply (.value St.ok))
        ∧ j.id = s.upd.nextJob ∧ j.desc = s.bytesAt a 64 ∧ j.g = g ∧ j.units = [])
    ∧ (∀ s (g : Fin 128) a st, (s.cluster g).runs = true → s.mayReach (.steward g) a 64 = true → (stackOf a).isSome = true →
        s.updCheck g (s.bytesAt a 64) ((s.object 3 (uf (s.bytesAt a 64) 0 2)).map (·.data)) = some st →
        exec (.updSubmit g a) s = .next (((s.updPost g (s.cluster g).epoch (s.bytesAt a 64) st 0).modCl g fun c =>
          c.retireWith 10 st).reply (.value st)))
    ∧ (∀ s (g : Fin 128) a, (s.cluster g).runs = true → s.mayReach (.steward g) a 64 = false →
        exec (.updSubmit g a) s = .next ((s.modCl g fun c => c.retireWith 10 St.addrDenied).reply (.value St.addrDenied)))
    ∧ (∀ s id (us : List (Fin 8)) j, (s.upd.jobs.find? fun j => j.id == id) = some j → j.units = [] → us.length = uf j.desc 2 1 →
        us.dedup.length = us.length → ((us.map fun u => j.stack * 8 + u.val).all fun n => (Tab.get {} s.upd.units n).job.isNone) = true →
        s.upd.mustWait j = false → ∃ t, exec (.updateJobStart id us) s = .next t ∧ Frame [.upd] s t
          ∧ ∀ k ∈ t.upd.jobs, k.id = id → k.units = us.map fun u => j.stack * 8 + u.val)
    ∧ (∀ s id (us : List (Fin 8)) j, (s.upd.jobs.find? fun j => j.id == id) = some j → s.upd.mustWait j = true →
        exec (.updateJobStart id us) s = .next s)
    ∧ (∀ s (u : Fin 16) o j, s.upd.jobOf u = some j → j.mode = 0 → (Tab.get {} s.upd.units u).running = true →
        (Tab.get {} s.upd.units u).first ≤ o.block → o.block < (Tab.get {} s.upd.units u).first + (Tab.get {} s.upd.units u).count →
        o.block ∉ (Tab.get {} s.upd.units u).committed →
        exec (.updCommit u o) s = .next ((s.storeBlock j o).modUpd fun x =>
          x.modUnit u fun k => { k with committed := k.committed ++ [o.block] }))
    ∧ (∀ s (u : Fin 16) o, o.block ∈ (Tab.get {} s.upd.units u).committed → exec (.updCommit u o) s = .next s)
    ∧ (∀ s (u : Fin 16) j, (Tab.get {} s.upd.units u).running = true → s.upd.jobOf u = some j →
        exec (.updateSliceEnd u .returned) s = .next (s.updReturn u j.id St.ok)
        ∧ (∀ st, exec (.updateSliceEnd u (.fails st)) s = .next (s.updReturn u j.id st))
        ∧ (∀ retry n lda, exec (.updateSliceEnd u (.factored retry n lda)) s =
            .next ((s.updFactor j retry n lda).1.updReturn u j.id (s.updFactor j retry n lda).2))
        ∧ exec (.updateSliceEnd u .uncorrectable) s = .next (s.updVermilion u j))
    ∧ ∀ (s : State) retry a n lda ws rec, (n = 0 ∨ 4096 < n ∨ lda < n) → (s.runFactor retry a n lda ws rec).2 = St.unsupported

/-- R365 to R375: a request in its turn that passes its checks is accepted for the array, or done at once where it does not touch the array;
one that fails is answered with its code; a program, an erase, a read and a margin read end with the pages, the block and the completion
record their rules give. -/
def Obligations.MediaRequestsRun : Prop :=
  (∀ s (ch : Fin 32) (ring : Fin 2) r, s.alive = true → s.nextRequest ch ring = some r → rqOp r = 0 →
      let u := s.dropRequest ch ring
      u.mediaCheck ch ring r = none → (u.chan ch).isLost r = false → exec (.mediaRead ch ring) s = .next (mediaAccept ch ring r u))
    ∧ (∀ s (ch : Fin 32) (ring : Fin 2) r st, s.alive = true → s.nextRequest ch ring = some r → rqOp r = 0 →
        (s.dropRequest ch ring).mediaCheck ch ring r = some st →
        exec (.mediaRead ch ring) s = .next (mediaRefuse ch ring r st (s.dropRequest ch ring)))
    ∧ (∀ s u (ch : Fin 32) r v st, s.alive = true → s.nextRequest ch 0 = some r →
        (s.dropRequest ch 0).mediaCheck ch 0 r = some st → u = mediaRefuse ch 0 r st (s.dropRequest ch 0) →
        (rqOp r = 1 → exec (.mediaReadMargin ch) s = .next u) ∧ (rqOp r = 2 → exec (.mediaProgram ch) s = .next u)
        ∧ (rqOp r = 3 → exec (.mediaErase ch) s = .next u) ∧ (rqOp r = 4 → exec (.mediaReset ch) s = .next u)
        ∧ (rqOp r = 5 → exec (.mediaGetFeatures ch v) s = .next u) ∧ (rqOp r = 6 → exec (.mediaStatus ch) s = .next u)
        ∧ (rqOp r = 7 → exec (.mediaClose ch) s = .next u) ∧ (rqOp r = 8 → exec (.mediaParams ch) s = .next u))
    ∧ (∀ s (ch : Fin 32) r v, s.alive = true → s.nextRequest ch 0 = some r →
        let u := s.dropRequest ch 0
        u.mediaCheck ch 0 r = none → (u.chan ch).isLost r = false → u.media.flush = false →
        (rqOp r = 1 → exec (.mediaReadMargin ch) s = .next (mediaAccept ch 0 r u))
        ∧ (rqOp r = 2 → exec (.mediaProgram ch) s = .next (mediaAccept ch 0 r u))
        ∧ (rqOp r = 3 → exec (.mediaErase ch) s = .next (mediaAccept ch 0 r u))
        ∧ (rqOp r = 4 → exec (.mediaReset ch) s = .next (mediaPump ch (mediaAnswer ch 0 r {} 0
            (interruptAll ch (pgTarget (rqPage r)) (fun _ => true) (u.chan ch).ops u))))
        ∧ (rqOp r = 5 → exec (.mediaGetFeatures ch v) s = .next (mediaAnswer ch 0 r { feature := some v } 0 u))
        ∧ (rqOp r = 6 → exec (.mediaStatus ch) s = .next (mediaAccept ch 0 r u))
        ∧ (rqOp r = 7 → exec (.mediaClose ch) s = .next (mediaAccept ch 0 r u))
        ∧ (rqOp r = 8 → exec (.mediaParams ch) s = .next (mediaAnswer ch 0 r {} 0
            (u.modChan ch fun c => { c with params := some (u.bytesAt (rqBuf r) 256) }))))
    ∧ (∀ s (ch : Fin 32) op r o, s.alive = true → Tab.find (s.chan ch).ops op = some o → o.running = true → rqOp o.req = 2 →
          r.result = 0 →
        exec (.mediaOpComplete ch op r) s = .next (mediaPump ch (mediaResume ch (pgTarget (rqPage o.req)) (mediaEnd ch op o {} 0
          ((writePages ch (rqPage o.req) o.writes s).modChan ch fun c => c.setBlock (pgBlk (rqPage o.req))
            (((writePages ch (rqPage o.req) o.writes s).chan ch |>.block (pgBlk (rqPage o.req))).programmed (rqSlc o.req)))))))
    ∧ (∀ s (ch : Fin 32) op r o, s.alive = true → Tab.find (s.chan ch).ops op = some o → o.running = true → rqOp o.req = 3 →
          r.result = 0 →
        exec (.mediaOpComplete ch op r) s = .next (mediaPump ch (mediaResume ch (pgTarget (rqPage o.req)) (mediaEnd ch op o {} 0
          ((s.fillBlock ch (pgBlk (rqPage o.req)) false).modChan ch fun c =>
            c.setBlock (pgBlk (rqPage o.req)) { state := openAs (rqSlc o.req) })))))
    ∧ (∀ s (ch : Fin 32) op r o, s.alive = true → Tab.find (s.chan ch).ops op = some o → o.running = true → rqOp o.req = 3 →
          r.result ≠ 0 →
        exec (.mediaOpComplete ch op r) s = .next
              (mediaPump ch (mediaResume ch (pgTarget (rqPage o.req)) (mediaEnd ch op o { mresult := 2 } 0
          (s.cutShort ch o.req)))))
    ∧ ∀ s (ch : Fin 32) op r o, s.alive = true → Tab.find (s.chan ch).ops op = some o → o.running = true → rqOp o.req = 0 →
        exec (.mediaOpComplete ch op r) s = .next (mediaPump ch (mediaResume ch (pgTarget (rqPage o.req)) (readDone ch op o r s)))

/-- R365 to R369, R373, R376, R377, R380, R433: the rings' pointers, the enable, a time-out, a suspension, HOLD and FLUSH, the ROM's reset
entry, a target that does not answer, a temperature sample. -/
def Obligations.MediaRomIsControlled : Prop :=
  (∀ s (ch : Fin 32) v, exec (.mrReqTailWrite ch v) s = .next
        (s.modChan ch fun c => { c with reqTail := ringTail c.reqHead c.reqTail v }))
    ∧ (∀ head tail n, head < 256 → tail < 256 → n ≤ (head + 255 - tail) % 256 → ringTail head tail (tail + n) = (tail + n) % 256)
    ∧ (∀ head tail n, head < 256 → tail < 256 → (head + 255 - tail) % 256 < n → n < 256 → ringTail head tail (tail + n) = tail)
    ∧ (∀ s (ch : Fin 32) v, exec (.mrCmplHeadWrite ch v) s = .next (s.modChan ch fun c => { c with cmplHead := v % 256 }))
    ∧ (∀ s (ch : Fin 32) on, exec (.mrEnable ch on) s = .next (s.modChan ch fun c => { c with enable := on }))
    ∧ (∀ s (ch : Fin 32) (t : Fin 32) temp, s.alive = true → exec (.dieTempSample ch t temp) s =
        .next (s.modChan ch fun c => { c with temps := Tab.set 0 c.temps t temp }))
    ∧ (∀ s (ch : Fin 32), s.alive = true → (s.chan ch).ready = false → exec (.romResetEntry ch) s = .next (s.modChan ch fun c =>
        { c with ready := true, params := none, blocks := [], ops := [], programs := 0 }))
    ∧ (∀ s (ch : Fin 32) (t : Fin 32), s.alive = true → (s.chan ch).ready = false → t.val < s.part.targets →
          bit (s.chan ch).lost t = false →
        ∃ u, exec (.targetBringupTimeout ch t) s = .next u ∧ .target ch.val t.val ∈ u.faults.lost ∧ u.part = s.part)
    ∧ (∀ s (ch : Fin 32) op o, s.alive = true → Tab.find (s.chan ch).ops op = some o → o.running = true →
        ∃ u, u = mediaEnd ch op o { mresult := 4 } 15 (((s.modChan ch fun c => { c with timeouts := satAdd 65535 c.timeouts 1 }).modFtl
            fun f => { f with timeouts := f.timeouts + 1 }).cutShort ch o.req)
          ∧ exec (.mediaTimeout ch op) s = .next (mediaPump ch (interruptAll ch (pgTarget (rqPage o.req)) (fun _ => true) (u.chan ch).ops u)))
    ∧ (∀ s (ch : Fin 32) (t : Fin 32), s.alive = true →
        let die := (s.chan ch).ops.filter fun x => pgTarget (rqPage x.2.req) == t.val
        let writes := die.filter fun x => rqWrites x.2.req && x.2.running
        writes ≠ [] → (die.any fun x => rqReads x.2.req && !x.2.running && !(die.any fun y => y.2.programsGroup x.2.req)) = true →
        (writes.all fun x => x.2.suspendable s.hdCount) = true →
        exec (.mediaSuspend ch t) s = .next (mediaPump ch
          ((s.modChan ch fun c => { c with suspends := satAdd (2 ^ 32 - 1) c.suspends writes.length }).modChan ch fun c =>
            { c with ops := c.ops.map (suspendOp (writes.map (·.1)) s.hdCount) })))
    ∧ (∀ s, exec (.mediaHold true) s = .next (s.modMedia fun m => { m with hold := true })
        ∧ exec (.mediaHold false) s = .next (onChannels mediaPump (s.modMedia fun m => { m with hold := false })))
    ∧ ∀ s, exec .mediaFlush s = .next (onChannels flushChannel (s.modMedia fun m => { m with flush := true, hold := true }))

/-- R427 to R430, R433, R438: a detection is recorded, spoils what it names and isolates the unit; a record closes 101 µs after its last
report or 1 s after its first; the keeper takes it in, finalises and persists it; HEAD frees finished slots. -/
def Obligations.FaultRecordsAreKept : Prop :=
  (∀ s d r to_, exec (.faultReport d r to_) s = .next (((s.report d r).spoil r).isolate d r to_))
    ∧ (∀ s d (k : Fin 256) x, s.ringSlot d k = some x → x.fr.closed = false → x.fr.lastCount + 101 ≤ s.count d →
        exec (.faultWindowEnd d k) s = .next (s.closeRecord d k x))
    ∧ (∀ s d (k : Fin 256) x, s.ringSlot d k = some x → s.count d < x.fr.lastCount + 101 → exec (.faultWindowEnd d k) s = .next s)
    ∧ (∀ s d (k : Fin 256) x, s.ringSlot d k = some x → x.fr.closed = false → x.fr.firstCount + 1000000 ≤ s.count d →
        exec (.faultRecordAgeLimit d k) s = .next (s.closeRecord d k x))
    ∧ (∀ s d (k : Fin 256) x, s.ringSlot d k = some x → x.fr.closed = true →
        exec (.faultWindowEnd d k) s = .next s ∧ exec (.faultRecordAgeLimit d k) s = .next s)
    ∧ (∀ s d (k : Fin 256) x, s.ringSlot d k = some x → x.taken = false → s.alive = true →
        exec (.faultRecordIntake d k) s = .next (s.intake d k x))
    ∧ (∀ s d (k : Fin 256) x, s.ringSlot d k = some x → x.taken = true → x.fr.closed = true → x.finished = false → s.alive = true →
        ∃ t, exec (.faultRecordFinalise d k) s = .next t ∧ Frame [.faults] s t ∧ t.faults.log.length = s.faults.log.length
          ∧ ∀ e ∈ t.faults.log, e.fr.record = x.number → e.fr.count = x.fr.count ∧ e.fr.lastCount = x.fr.lastCount ∧ e.fr.closed = true)
    ∧ (∀ s record, s.alive = true → ∃ t, exec (.faultLogPersist record) s = .next t ∧ Frame [.faults] s t
        ∧ (∀ e ∈ t.faults.log, e.fr.record = record → e.persisted = true) ∧ t.faults.log.map (·.fr) = s.faults.log.map (·.fr))
    ∧ ∀ s d v, exec (.fcHeadWrite d v) s = .next (s.modConc d fun c => c.headWrite v)

/-! ## Span links (spec/18) -/

/-- R405 to R407, R416 to R418: a port is enabled, trained, up and down; bring-up exchanges OPEN frames and certificates with permitted peers
only; SPAN_CONFIG, SPAN_STATUS and SPAN_PEER_SET take effect once admitted. -/
def Obligations.SpanPortsAndPeersComeUp : Prop :=
  (∀ s (p : Fin 2), (s.span.port p).enable = true → (s.span.port p).link ≠ .up → s.isHeld = false → s.alive = true → s.power.ladder ≤ 1 →
      s.faults.lost.contains (.port p) = false → exec (.spanPortUp p) s = .next
        (((s.modPort p fun x => { x with link := .up, fecLock := true }).peerEvent 0 7 p).bringUpAll p))
    ∧ (∀ s (p : Fin 2), s.isHeld = true → exec (.spanPortUp p) s = .next s)
    ∧ (∀ s (p : Fin 2), (s.span.port p).link = .up → exec (.spanPortDown p) s = .next (((s.losePaths p).modPort p fun x =>
        { x with link := .down, fecLock := false }).peerEvent 0 6 p))
    ∧ (∀ s (p : Fin 2), (s.span.port p).enable = true → exec (.slRetrain p) s = .next (s.portDown p .training))
    ∧ (∀ s (p : Fin 2), (s.span.port p).enable = false → s.isHeld = false → exec (.slEnable p true) s = .next
        ((s.modPort p fun x => { x with enable := true }).modPort p fun x => { x with link := .training }))
    ∧ (∀ s (p : Fin 2), exec (.slEnable p false) s = .next ((s.modPort p fun x => { x with enable := false }).portDown p .down))
    ∧ (∀ s (port : Fin 2) b enc, s.span.permits (fieldAt b 2 1) = false → exec (.openFrame port b enc) s = .next s)
    ∧ (∀ s (port : Fin 2) b, let n := fieldAt b 2 1
        (s.span.port port).link = .up → 32 ≤ b.length → s.span.permits n = true → ((s.peer n).path port).keyed = true →
              fieldAt b 0 1 = 1 →
        exec (.openFrame port b true) s = .next ((s.modPort port fun x => { x with rx := satAdd (2 ^ 64 - 1) x.rx 1 }).ready n port
          (fieldAt b 0x12 2) (fieldAt b 0x10 2)))
    ∧ (∀ s (port : Fin 2) n, ((s.peer n).path port).since.isSome = true → s.span.permits n = true →
        exec (.spdmFrame port n .fails) s = .next
              ((s.modPort port fun x => { x with rx := satAdd (2 ^ 64 - 1) x.rx 1 }).failPeer n .refused port)
        ∧ exec (.spdmFrame port n .goesOn) s = .next (s.modPort port fun x => { x with rx := satAdd (2 ^ 64 - 1) x.rx 1 })
        ∧ ∀ d, Tab.find s.span.permitted n ≠ some d → exec (.spdmFrame port n (.completes d)) s = .next
          ((s.modPort port fun x => { x with rx := satAdd (2 ^ 64 - 1) x.rx 1 }).failPeer n .refused port))
    ∧ (∀ s (n : Fin 256) (port : Fin 2) t, ((s.peer n).path port).since = some t → t + 100000 ≤ s.hdCount →
        exec (.bringupTimeout n port) s = .next (s.failPeer n .refused port))
    ∧ (∀ s (n : Fin 256), (s.peer n).state = .faulty → (s.peer n).since + 1000000 ≤ s.hdCount → s.span.permits n = true →
        exec (.faultyRetryTimer n) s = .next ((s.bringUp n 0).bringUp n 1))
    ∧ (∀ s (n : Fin 256), (s.peer n).state = .refused → (s.peer n).since + 60000000 ≤ s.hdCount → s.span.permits n = true →
        exec (.refusedRetryTimer n) s = .next ((s.bringUp n 0).bringUp n 1))
    ∧ (∀ s (mb : Fin 3) j, s.ampTurnOf mb 0x0902 j → exec (.spanStatus mb) s = .next (s.ampDone mb St.ok s.spanStatus))
    ∧ (∀ s (mb : Fin 3) j, s.ampTurnOf mb 0x0901 j → spanConfigBad j.payload = true →
        exec (.spanConfig mb) s = .next (s.ampDone mb St.unsupported []))
    ∧ (∀ s (mb : Fin 3) j, s.ampTurnOf mb 0x0901 j → spanConfigBad j.payload = false → (s.span.port 0).link ≠ .up →
          (s.span.port 1).link ≠ .up →
        exec (.spanConfig mb) s = .next ((((s.modSpan fun x => { x with config := j.payload }).enablePort 0 (bit (fieldAt j.payload 1 1) 0)).enablePort 1
          (bit (fieldAt j.payload 1 1) 1)).ampDone mb St.ok []))
    ∧ (∀ s (mb : Fin 3) j, s.ampTurnOf mb 0x0903 j → (peerEntries j.payload).length ≤ 255 →
        ((peerEntries j.payload).map (·.1)).dedup.length = ((peerEntries j.payload).map (·.1)).length →
        ((peerEntries j.payload).map (·.1)).contains s.span.number = false →
        ∃ t : State, exec (.spanPeerSet mb) s = .next (t.ampDone mb St.ok [])
          ∧ t.span.permitted = (peerEntries j.payload).foldl (fun t e => Tab.put t e.1 e.2) [])
    ∧ ∀ s (mb : Fin 3) j, s.ampTurnOf mb 0x0903 j → 255 < (peerEntries j.payload).length →
        exec (.spanPeerSet mb) s = .next (s.ampDone mb St.unsupported [])

/-- R406, R408 to R415: a protected frame that arrives whole and in form from a live peer over a port that is up is taken; one whose ICV
fails is counted and dropped; the timers send again, lose the path, ask again, slow and fail the peer, and turn the keys over; SPAN_READ
asks a peer that is live, and is refused without effect for a bad operand; its answer stands in a0 (the model's choice, log 97). -/
def Obligations.SpanFramesAndTimersAct : Prop :=
  (∀ s (port : Fin 2) b inst base, let n := fieldAt b 2 1
      let u := s.modSpan fun x => { x with out := [] }
      let v := u.modPort port fun x => { x with rx := satAdd (2 ^ 64 - 1) x.rx 1 }
      (s.span.port port).link = .up → u.frameOk n port b = true →
      (fieldAt b 1 1 = 0 → exec (.dataFrame port b true inst base) s = .next
        (let t := v.takeData n port b inst base
         if (t.peer n).live then t.takeAck n port b else t))
      ∧ (fieldAt b 1 1 = 1 → exec (.ackFrame port b true) s = .next (v.takeAck n port b))
      ∧ (fieldAt b 1 1 = 2 → ((v.takeAck n port b).peer n).unacked.find? (fun f => f.seq == fieldAt b 8 4 && f.sent) = none →
        exec (.nakFrame port b true) s = .next (v.takeAck n port b))
      ∧ (∀ f, fieldAt b 1 1 = 2 → ((v.takeAck n port b).peer n).unacked.find? (fun f => f.seq == fieldAt b 8 4 && f.sent) = some f →
        f.naks < 7 → exec (.nakFrame port b true) s = .next ((v.takeAck n port b).sendFrame n { f with naks := f.naks + 1 }
          (((v.takeAck n port b).peer n).pick (fieldAt b 8 4))))
      ∧ (∀ f, fieldAt b 1 1 = 2 → ((v.takeAck n port b).peer n).unacked.find? (fun f => f.seq == fieldAt b 8 4 && f.sent) = some f →
        7 ≤ f.naks → exec (.nakFrame port b true) s = .next ((v.takeAck n port b).failPeer n .faulty port)))
    ∧ (∀ s (port : Fin 2) b, (s.span.port port).link = .up →
        let t := ((s.modSpan fun x => { x with out := [] }).modPort port fun x => { x with icv := satAdd 65535 x.icv 1 }).badFrame (fieldAt b 2 1) port
        exec (.dataFrame port b false 0 0) s = .next t ∧ exec (.ackFrame port b false) s = .next t ∧
              exec (.nakFrame port b false) s = .next t)
    ∧ (∀ s (n : Fin 256) seq f, (s.peer n).unacked.find? (fun f => f.seq == seq && f.sent) = some f → (s.peer n).live = true →
        (s.peer n).hasPath = true → f.sentAt + s.span.rto ≤ s.hdCount →
        let t := s.modPeer n fun p => p.setPath f.port fun x => { x with fails := x.fails + 1 }
        (3 ≤ ((t.peer n).path f.port).fails → exec (.retransmissionTimeout n seq) s = .next (t.losePath n f.port))
        ∧ (((t.peer n).path f.port).fails < 3 → ((t.peer n).path f.port).up = true →
          exec (.retransmissionTimeout n seq) s = .next (t.sendFrame n f f.port)))
    ∧ (∀ s (n : Fin 256) t, (s.peer n).gapSince = some t → (s.peer n).live = true → (s.peer n).hasPath = true →
          (s.peer n).nakDone = false → 2 * t + s.span.rto ≤ 2 * s.hdCount →
        exec (.gapTimeout n) s = .next ((s.modPeer n fun p => { p with nakDone := true }).control n ((s.peer n).pick 0) 2 (s.peer n).rxNext []))
    ∧ (∀ s (n : Fin 256), exec (.keepaliveTimer n) s = .next (if (s.peer n).live then s.sendAck n else s))
    ∧ (∀ s (n : Fin 256), (s.peer n).state = .ready → (s.peer n).unacked.any (·.sent) = true →
          (s.peer n).advanced + s.span.slowUs ≤ s.hdCount →
        s.hdCount < (s.peer n).heard + s.span.absentUs → exec (.slowTimeout n) s = .next (s.setPeerState n .slow ((s.peer n).pick 0)))
    ∧ (∀ s (n : Fin 256), (s.peer n).live = true → (s.peer n).heard + s.span.absentUs ≤ s.hdCount →
        exec (.absentTimeout n) s = .next (s.failPeer n .absent ((s.peer n).pick 0)))
    ∧ (∀ s (n : Fin 256), (s.peer n).live = true → (s.peer n).keyAt + 86400000000 ≤ s.hdCount →
        exec (.rekeyTimer n) s = .next (s.modPeer n fun p => { p with keyAt := s.hdCount, oldKey := true }))
    ∧ (∀ s (n : Fin 256), (s.peer n).oldKey = true → (s.peer n).keyAt + 1000 ≤ s.hdCount →
        exec (.oldKeyExpiry n) s = .next (s.modPeer n fun p => { p with oldKey := false }))
    ∧ (∀ s (g : Fin 128) (n : Fin 256) nsid slba count dst slot k, (s.cluster g).runs = true → s.cap 8 = true → 1 ≤ count → count ≤ 512 →
        slot < 4096 → s.mayReach (.steward g) dst (4096 * count + 8) = true → place dst = .hbm k → (s.peer n).live = true →
        ∃ t, t = ((s.modSpan fun x => { x with
              reads := x.reads ++ [{ id := s.span.nextRead, dst := dst, len := 4096 * count, g := g, epoch := (s.cluster g).epoch, slot := slot }]
              nextRead := s.span.nextRead + 1 }).modCl g fun c => c.retireWith 10 St.ok).reply (.value St.ok)
          ∧ exec (.spanRead g n nsid slba count dst slot) s = .next
            (t.spanSend n clsRead (leBytes 4 nsid ++ leBytes 8 slba ++ leBytes 2 count ++ [0, 0]) (.read s.span.nextRead)).2)
    ∧ ∀ s (g : Fin 128) (n : Fin 256) nsid slba count dst slot, (s.cluster g).runs = true →
        (s.cap 8 = false ∨ count = 0 ∨ 512 < count ∨ 4096 ≤ slot) → exec (.spanRead g n nsid slba count dst slot) s = .next
          ((s.modCl g fun c => c.retireWith 10 St.unsupported).reply (.value St.unsupported))

/-! ## Power, hold-up and thermal limits (spec/20) -/

/-- R440, R442 to R444, R456, R489: the input falling through WARN holds the media and steps the clock until it has recovered; through COMMIT
it begins the flush, whose end enters reset; through RESET the module is in reset whatever stands; an overvoltage and PWR_DIS act as COMMIT
does; the start condition leaves reset, but not while a cause that holds it stands; the hold-up bank is measured. -/
def Obligations.InputHoldsFlushesAndResets : Prop :=
  (∀ s v, s.alive = true → v < 3600 → 3300 ≤ v → s.power.holdWarn = false → s.power.ladder ≠ 5 →
      exec (.inputWarn v) s = .next (((s.modPower fun p => { p with volts := v, holdWarn := true, holds := satAdd 255 p.holds 1
                                                                    demandHold := if p.ladder ≤ 1 then 2 else p.demandHold }).holdFollow.clockFollow).post 0x03 1 []))
    ∧ (∀ s v, s.alive = true → v < 3600 → 3300 ≤ v → s.power.ladder = 5 →
          exec (.inputWarn v) s = .next (s.modPower fun p => { p with volts := v }))
    ∧ (∀ s v, s.alive = true → s.power.holdWarn = true → 3700 ≤ v → exec (.holdRelease v) s = .next
        (((s.modPower fun p => { p with volts := v, holdWarn := false, demandHold := 0 }).holdFollow.clockFollow).post 0x03 2 []))
    ∧ (∀ s v, v < 3300 → exec (.inputCommit v) s = .next ((s.modPower fun p => { p with volts := v }).commitCrossing .commit))
    ∧ (∀ s v, 3300 ≤ v → exec (.inputCommit v) s = .next s)
    ∧ (∀ s, s.power.flushing = true → exec .flushDumpDone s = .next
        ((s.modFtl fun f => { f with dumps := f.dumps + 1, dumpDue := true, dumpCut := none }).enterReset))
    ∧ (∀ s v u, v < 2800 → s.power.flushing = true → exec (.inputReset v u) s = .next
        (((s.modPower fun p => { p with volts := v, vLost := true }).modFtl fun f => { f with dumpDue := true, dumpCut := some u }).enterReset.hdDown))
    ∧ (∀ s v u, v < 2800 → s.power.flushing = false → s.power.inReset = true →
        exec (.inputReset v u) s = .next (s.modPower fun p => { p with volts := v, vLost := true }).hdDown)
    ∧ (∀ s v, 5600 < v → exec (.inputOvervoltage v) s = .next
        ((s.modPower fun p => { p with volts := v, overvoltage := true }).commitCrossing .overvoltage))
    ∧ (∀ s v, v ≤ 5600 → exec (.inputOvervoltage v) s = .next s)
    ∧ (∀ s, exec .pwrDisAssert s = .next ((s.modPower fun p => { p with pwrDis := true }).commitCrossing .pwrDis)
        ∧ exec .pwrDisDeassert s = .next (s.modPower fun p => { p with pwrDis := false }))
    ∧ (∀ s t0 t1 t2, s.power.tripLatch = true → t0 ≤ 85 → t1 ≤ 85 → t2 ≤ 85 → exec (.junctionCooldown t0 t1 t2) s = .next
        (s.modPower fun p => { p with tripLatch := false, tCd0 := t0, tCd1 := t1, tHd := t2 }))
    ∧ (∀ s t0 t1 t2, (85 < t0 ∨ 85 < t1 ∨ 85 < t2) → exec (.junctionCooldown t0 t1 t2) s = .next s)
    ∧ (∀ s v, s.power.inReset = true → s.power.pwrDis = false → s.power.tripLatch = false → 3700 ≤ v →
        (s.power.overvoltage = false ∨ v < 5500) → ∃ t, exec (.startCondition v) s = .next t ∧ Frame [.fabric, .power] s t
          ∧ t.power = { s.power with volts := v, inReset := false, overvoltage := false, vLost := false })
    ∧ (∀ s v, (s.power.pwrDis = true ∨ s.power.tripLatch = true ∨ v < 3700 ∨ (s.power.overvoltage = true ∧ 5500 ≤ v)) →
        exec (.startCondition v) s = .next s)
    ∧ (∀ s mj, s.alive = true → s.power.holdWarn = false → s.power.ladder ≠ 5 → ∃ t, exec (.holdupMeasurement mj) s = .next t
        ∧ t.power = { s.power with holdupMj := mj, holdupWeak := decide (mj < 1200) })
    ∧ ∀ s mj, s.power.holdWarn = true → exec (.holdupMeasurement mj) s = .next s

/-- R57, R441, R445 to R452, R456: a ladder state is entered when it is the effective one and no work stands in the way; NVMe power states are
recorded; draw, current and temperature step the clock down and it steps up again when their conditions have lasted; the peak window opens,
expires, recovers and is denied. -/
def Obligations.LadderClockAndHeatAct : Prop :=
  (∀ s, s.serving = true → s.power.holdWarn = false → s.power.woken = false → s.effective ≠ s.power.ladder → s.power.ladder ≠ 5 →
      (s.effective ≤ 1 ∨ s.quiet = true) → exec .powerStateEntry s = .next s.enterState.powerAnswer)
    ∧ (∀ s, (s.power.holdWarn = true ∨ s.effective = s.power.ladder) → exec .powerStateEntry s = .next s)
    ∧ (∀ s (fn : Fin 2) e, featureId e = 0x02 → s.adminServes fn = true → bits e.cdw11 0 5 ≤ 4 → bit e.cdw10 31 = false →
          exec (.setFeaturesPowerManagement fn e) s = .next
        ((s.modPower fun p => { p with nvmePs0 := if fn.val = 0 then bits e.cdw11 0 5 else p.nvmePs0
                                       nvmePs1 := if fn.val = 1 then bits e.cdw11 0 5 else p.nvmePs1
                                       woken := p.woken && decide (p.target ≠ 0xFF) }).adminEnd fn e {} []))
    ∧ (∀ s (fn : Fin 2) e, featureId e = 0x02 → s.adminServes fn = true → 4 < bits e.cdw11 0 5 → ∃ t,
        exec (.setFeaturesPowerManagement fn e) s = .next t ∧ t.power = s.power)
    ∧ (∀ s ma, s.alive = true → 20500 < ma → ∃ t, exec (.currentLimit ma) s = .next t ∧ t.power.amps = ma
        ∧ t.power.clock = max s.power.demandHold (max (max s.power.demandDraw (min 2 (s.power.clock + 1))) s.power.demandTherm))
    ∧ (∀ s ma, ma ≤ 20500 → exec (.currentLimit ma) s = .next s)
    ∧ (∀ s mw, s.alive = true → mw ≤ 600000 →
          ∃ t, exec (.drawAverageCrossing mw) s = .next t ∧ t.power.draw = mw ∧ t.power.clock = s.power.clock
        ∧ t.power.lowSince = (if mw < 540000 then some (s.power.lowSince.getD s.hdCount) else none))
    ∧ (∀ s mw, s.alive = true → 760000 < mw → ∃ t, exec (.drawAverageCrossing mw) s = .next t ∧ t.power.draw = mw
        ∧ t.power.clock = max s.power.demandHold (max (max s.power.demandDraw (min 2 (s.power.clock + 1))) s.power.demandTherm))
    ∧ (∀ s, s.alive = true → s.power.peak = .opened → 40000000 ≤ s.power.windowUs → ∃ t, exec .peakWindowExpiry s = .next t
        ∧ t.power.peak = .spent ∧ t.power.recoverUs = 0 ∧ t.power.recheckAt = some (s.hdCount + 10000) ∧ 1 ≤ t.power.demandDraw)
    ∧ (∀ s k, s.alive = true → s.power.recheckAt = some k → k ≤ s.hdCount → s.power.peak = .spent → 600000 < s.power.draw →
        ∃ t, exec .peakSpentRecheck s = .next t ∧ t.power.recheckAt = none ∧ t.power.demandDraw = 2 ∧ 2 ≤ t.power.clock)
    ∧ (∀ s k ma, s.alive = true → s.power.lowSince = some k → k + 1000000 ≤ s.hdCount → ma ≤ 20500 → s.power.demandDraw ≠ 0 →
        ∃ t, exec (.clockStepUpTimer ma) s = .next t ∧ t.power.demandDraw = s.power.demandDraw - 1 ∧ t.power.lowSince = some s.hdCount
          ∧ t.power.clock = max s.power.demandHold (max (s.power.demandDraw - 1) s.power.demandTherm))
    ∧ (∀ s, s.alive = true → s.power.peak = .spent → 120000000 ≤ s.power.recoverUs → ∃ t, exec .peakRecovery s = .next t
        ∧ t.power.peak = .armed ∧ t.power.windowUs = 0 ∧ t.power.recoverUs = 0)
    ∧ (∀ s k, s.power.flowOkSince = some k → s.power.peak = .denied → k + 10000000 ≤ s.hdCount → ∃ t, exec .deniedExit s = .next t
        ∧ t.power.peak = .spent ∧ t.power.recoverUs = 0)
    ∧ (∀ s inlet outlet, s.alive = true → 35 < inlet → ∃ t, exec (.coolantLimitCrossing inlet outlet) s = .next t
        ∧ t.power.peak = .denied ∧ t.power.flowOkSince = none ∧ t.power.tInlet = inlet ∧ t.power.tOutlet = outlet)
    ∧ (∀ s (k : Fin 3) (t : Int), s.alive = true → 105 ≤ t → t < 110 → ∃ u, exec (.junctionTempCrossing k t) s = .next u
        ∧ u.power.junction k = t ∧ u.power.demandTherm = 2 ∧ 2 ≤ u.power.clock ∧ u.power.tripLatch = s.power.tripLatch ∧
              u.power.coolSince = none)
    ∧ (∀ s k, s.alive = true → s.power.coolSince = some k → k + 1000000 ≤ s.hdCount → s.power.demandTherm ≠ 0 →
        ∃ t, exec .thermalStepUp s = .next t ∧ t.power.demandTherm = s.power.demandTherm - 1 ∧ t.power.coolSince = some s.hdCount
          ∧ t.power.clock = max s.power.demandHold (max s.power.demandDraw (s.power.demandTherm - 1)))
    ∧ (∀ s (t : Int), s.alive = true → 80 ≤ t → ∃ u, exec (.flashTempCrossing t) s = .next u ∧ u.power.tFlash = t
        ∧ u.power.holdFlash = true ∧ u.media.hold = true ∧ u.power.holdWarn = s.power.holdWarn)
    ∧ ∀ s (t : Int), s.alive = true → s.power.tFlash < 70 → t < 70 → exec (.flashTempCrossing t) s = .next
        (s.modPower fun p => { p with tFlash := t, holdFlash := false }).holdFollow

/-! ## Management plane (spec/22, spec/21), register accesses (spec/00, spec/02) -/

/-- R474, R475, R479 to R487: MCTP control, NVMe-MI and SPDM requests are answered from the state they ask for; a request in Ebony, in reset
or after a failed boot is answered as the always-on domain answers; a message whose integrity check fails is dropped. -/
def Obligations.ManagementRequestsAreAnswered : Prop :=
  (∀ s op eid, s.sideband = true → op ≤ 1 → 8 ≤ eid → eid ≤ 254 → exec (.setEndpointId op eid) s = .next
      ((s.modMgmt fun m => { m with eid := eid }).reply (.data [0, 0, byteOf eid, 0])))
    ∧ (∀ s op eid, s.sideband = true → (1 < op ∨ eid < 8 ∨ 254 < eid) → exec (.setEndpointId op eid) s = .next (s.reply (.data [2])))
    ∧ (∀ s, s.sideband = true → exec .getEndpointId s = .next (s.reply (.data [0, byteOf s.mgmt.eid, 0, 0]))
        ∧ exec .getMessageTypeSupport s = .next (s.reply (.data [0, 4, 0x00, 0x04, 0x05, 0x7E]))
        ∧ exec (.getVendorDefinedMessageSupport 0) s = .next (s.reply (.data ([0, 0xFF, 0] ++ leBytes 2 Config.vendorId ++ [0, 0])))
        ∧ exec (.getMctpVersionSupport 0xFF) s = .next
              (s.reply (.data ([0, byteOf ((Config.mctpVersions 0xFF).length / 4)] ++ Config.mctpVersions 0xFF))))
    ∧ (∀ s, s.sideband = false → exec .getEndpointId s = .next s ∧ exec .getVersion s = .next s ∧ exec (.vpdRead true 0 1) s = .next s)
    ∧ (∀ s typ port ctrl b, s.sideband = true → s.miStructure typ port ctrl = some b →
          exec (.readNvmeMiDataStructure true typ port ctrl) s =
        .next (s.reply (.data (miOk b.length b))).used.used)
    ∧ (∀ s clear, s.sideband = true → ∃ b, exec (.nvmSubsystemHealthStatusPoll true clear) s = .next
        ((if clear then s.clearHealth else s).reply (.data b)))
    ∧ (∀ s clear first, s.sideband = true → s.keepersOff = false → ∃ b, exec (.controllerHealthStatusPoll true clear first) s = .next
        ((if clear then s.clearHealth else s).reply (.data b)))
    ∧ (∀ s v, s.sideband = true → s.keepersOff = false → 1 ≤ v → v ≤ 3 → exec (.configurationSet true 1 0 v) s = .next
        ((s.modMgmt fun m => { m with freq := v }).reply (.data [0, 0, 0, 0])))
    ∧ (∀ s, s.sideband = true → s.keepersOff = false → exec (.configurationGet true 1 0) s = .next
        (s.reply (.data ([0] ++ leBytes 3 s.mgmt.freq ++ []))))
    ∧ (∀ s off len, s.sideband = true → off + len ≤ 256 → exec (.vpdRead true off len) s = .next
        (s.reply (.data (miOk 0 (((fitTo 256 Config.vpd).drop off).take len)))))
    ∧ (∀ s, s.sideband = true → s.keepersOff = false → (subsystemReset s).sideband = true → exec (.nvmeMiReset true 0) s = .next
        ((subsystemReset s).reply (.data (miOk 0 []))))
    ∧ (∀ s rails, s.sideband = true → exec (.sensorRead true rails) s = .next
        (s.reply (.data (miOk 0 (s.sensors rails)))).used.used.used.used.used)
    ∧ (∀ s ctrl e d, s.sideband = true → s.keepersOff = false → ctrl ≤ 1 → s.ctrlServes ctrl = true →
          exec (.nvmeMiAdminCommand true ctrl e d) s =
        .next ((tunnelled ctrl e d s).1.reply (.completion { (tunnelled ctrl e d s).2.1 with cid := e.cid } (tunnelled ctrl e d s).2.2)))
    ∧ (∀ s opc, s.sideband = true → opc ∉ miOpcodes →
          exec (.nvmeMiUnsupportedCommand true opc) s = .next (s.reply (.data miInvalidOpcode)))
    ∧ (∀ s rails clear, s.sideband = true →
          exec (.sensorRead false rails) s = .next s ∧ exec (.nvmSubsystemHealthStatusPoll false clear) s = .next s
        ∧ exec (.nvmeMiReset false 0) s = .next s)
    ∧ (∀ s, s.sideband = true → s.keepersOff = true → exec .getVersion s = .next (s.reply (.data (spdmError 0x03 0)))
        ∧ exec .getDigests s = .next (s.reply (.data (spdmError 0x03 0)))
        ∧ ∀ id port v, exec (.configurationSet true id port v) s = .next (s.reply (.data miInvalidOpcode)))
    ∧ (∀ s, s.sideband = true → s.keepersOff = false →
          ∃ t : State, exec .getVersion s = .next (t.reply (.data [0x10, 0x04, 0, 0, 0, 1, 0x00, 0x12]))
        ∧ Frame [.mgmt] s t ∧ t.mgmt.spdm.algosDone = false ∧ t.mgmt.spdm.versionAsked = true)
    ∧ (∀ s, s.sideband = true → s.keepersOff = false → s.mgmt.spdm.versionAsked = true →
          ∃ (t : State) (b : Bytes), exec (.getCapabilities 0x12) s =
        .next (t.reply (.data b)) ∧ Frame [.mgmt] s t ∧ t.mgmt.spdm.capsGiven = true)
    ∧ (∀ s asym hash meas, s.sideband = true → s.keepersOff = false → s.mgmt.spdm.capsGiven = true → ∃ (t : State) (b : Bytes),
        exec (.negotiateAlgorithms asym hash meas) s = .next (t.reply (.data b)) ∧ Frame [.mgmt] s t
        ∧ t.mgmt.spdm.algosDone = (bit asym 4 && bit hash 0))
    ∧ (∀ s, s.sideband = true → s.keepersOff = false → s.mgmt.spdm.algosDone = true →
        exec .getDigests s = .next (s.reply (.data (spdmMsg 0x01 0 1 chainDigest)))
        ∧ (∀ off len, exec (.getCertificate 0 off len) s = .next (s.reply (.data
            (if Config.certChain.length ≤ off then spdmError 0x01 0
             else spdmMsg 0x02 0 0 (leBytes 2 ((Config.certChain.drop off).take len).length
               ++ leBytes 2 (Config.certChain.length - off - ((Config.certChain.drop off).take len).length)
               ++ (Config.certChain.drop off).take len)))))
        ∧ (s.attests = true → ∀ before, exec (.challenge 0 true before) s = .next (s.used.reply (.data (spdmSigned before
            (spdmMsg 0x03 0 1 (chainDigest ++ leBytes 32 (Config.random s.free) ++ leBytes 32 (Config.sha256 s.measures) ++ [0, 0]))))))
        ∧ (s.attests = true → ∀ before, exec (.getMeasurements 255 true before) s = .next (s.used.reply (.data (spdmSigned before
            (spdmMsg 0x60 0 0 (leBytes 1 7 ++ leBytes 3 s.measures.length ++ s.measures ++ leBytes 32 (Config.random s.free) ++ [0, 0])))))))
    ∧ (∀ s before, s.sideband = true → s.keepersOff = false →
          exec (.keyExchange none before) s = .next (s.reply (.data (spdmError 0x07 0xE4))))
    ∧ ∀ s (p : Fin 2) before, s.serving = true → (s.span.port p).link = .up → exec (.keyExchange (some p) before) s = .next
        (s.used.used.reply (.data (spdmSigned before
          (spdmMsg 0x64 0 0 (leBytes 32 (Config.random s.free) ++ leBytes 64 (Config.publicOf (Config.random (s.free + 1))))))))

/-- R14, R30 to R34, R52, R53: the keeper writes the fields of a device register and a steward core does not; a host access to a BAR that
does not fit its register, or that comes before configuration space answers, is an Unsupported Request, and a configuration request is
answered with Request Retry until then (for a BAR access before then the spec states no answer: the model's choice, log 92); a steward
core reads and writes the memory it may reach, and is answered with a bus error for the rest. -/
def Obligations.RegistersAndMemoryAnswerOnTheBus : Prop :=
  (∀ s a n v d off b o, s.alive = true → place a = .dev d off → (n = 4 ∨ n = 8) → a % n = 0 → (d ≠ .hd ∨ Config.onfi off = false) →
      devBlock d off = some (b, o) → exec (.registerWrite (.unit .keeper) a n v) s = .next (b.writeN o n v s))
    ∧ (∀ s (g : Fin 128) a n v d off, s.alive = true → place a = .dev d off → (n = 4 ∨ n = 8) → a % n = 0 →
        exec (.registerWrite (.unit (.steward g)) a n v) s = .next (s.reply (.busError St.addrDenied)))
    ∧ (∀ s fn (bar : Fin 3) a n v, s.barUp fn = true → barFits bar a n = true → a < 0x10000 →
        exec (.registerWrite (.host fn bar) a n v) s = .next ((barBlock fn bar).writeN a n v s))
    ∧ (∀ s fn (bar : Fin 3) a n v, s.barUp fn = true → barFits bar a n = false →
          exec (.registerWrite (.host fn bar) a n v) s = .next (s.reply .unsupportedRequest))
    ∧ (∀ s fn (bar : Fin 3) a n v, s.barUp fn = false →
          exec (.registerWrite (.host fn bar) a n v) s = .next (s.reply .unsupportedRequest))
    ∧ (∀ s fn r, s.alive = true → s.hasFn fn.val = true → exec (.busAccess (.config fn r) 0 4 none) s =
        .next (s.reply (if s.barUp fn then .value (cfgRead s fn r) else .requestRetry)))
    ∧ (∀ s fn r v, s.hasFn fn.val = true → exec (.registerWrite (.config fn r) 0 4 v) s =
        .next (if s.barUp fn then cfgWrite fn r v s else s.reply .requestRetry))
    ∧ (∀ s a n d off b o, s.alive = true → place a = .dev d off → (n = 4 ∨ n = 8) → a % n = 0 → off ≠ 0 → off ≠ 4 →
          devBlock d off = some (b, o) →
        exec (.busAccess (.unit .keeper) a n none) s = .next (s.reply (.value (b.readN s o n))))
    ∧ (∀ s (g : Fin 128) a n, s.alive = true → devPlace a = none → s.accessSt (.steward g) false a n = St.ok → s.firstBad a n = none →
        exec (.busAccess (.unit (.steward g)) a n none) s = .next (s.used.reply (.data (s.bytesAt a n))))
    ∧ (∀ s (g : Fin 128) a n, s.alive = true → devPlace a = none → s.accessSt (.steward g) false a n ≠ St.ok →
        exec (.busAccess (.unit (.steward g)) a n none) s = .next (s.reply (.busError (s.accessSt (.steward g) false a n))))
    ∧ (∀ s (g : Fin 128) a b, s.alive = true → devPlace a = none → a % 8 = 0 → b.length % 8 = 0 →
          s.accessSt (.steward g) true a b.length = St.ok →
        exec (.busAccess (.unit (.steward g)) a b.length (some b)) s = .next (s.store a b))
    ∧ (∀ s r a b, s.alive = true → devPlace a = none → s.accessSt r true a b.length ≠ St.ok → s.accessSt r true a b.length ≠ St.bankOff →
        exec (.busAccess (.unit r) a b.length (some b)) s = .next (s.reply (.busError (s.accessSt r true a b.length))))
    ∧ (∀ s fn (bar : Fin 3) a n, s.alive = true → s.barUp fn = true → barFits bar a n = false →
        exec (.busAccess (.host fn bar) a n none) s = .next (s.reply .unsupportedRequest))
    ∧ ∀ s fn a n, s.alive = true → s.barUp fn = true → barFits 0 a n = true → a < 0x10000 →
        exec (.busAccess (.host fn 0) a n none) s = .next (s.reply (.value ((barBlock fn 0).readN s a n)))

/-! ## Formats (spec/09) and the tile codec (spec/12) -/

/-- R205, R206, R208: every code of a number format stands for a value that encodes to that code again, NaN apart, whose encoding is the
canonical one: formats E4M3, E5M2, E3M2, E2M3, E2M1, FP16, BF16, FP32 and FP64. -/
def Obligations.NumberFormatsRoundTrip : Prop :=
  ∀ f ∈ [Fmt.e4m3, Fmt.e5m2, Fmt.e3m2, Fmt.e2m3, Fmt.e2m1, Fmt.fp16, Fmt.bf16, Fmt.fp32, Fmt.fp64], ∀ c < 2 ^ f.width,
    f.decode c ≠ .nan → f.encode (f.decode c) = c

/-- R289 to R292: a coded tile decodes to the units and side bytes it was coded from, and codes to no more than 16 + 1,024 × E + SIDE_BYTES
bytes, rounded up to 8. -/
def Obligations.CodedTilesAreLossless : Prop :=
  ∀ e ∈ [1, 2, 4], ∀ elems side : Bytes, elems.length = 1024 * e → side.length ≤ 1024 →
    ctDecode e side.length (ctEncode e elems side) = some (elems, side)
      ∧ (ctEncode e elems side).length ≤ up8 (16 + 1024 * e + side.length)
end

