-- ==== Sys2Proof/Laws/Admit.lean ====
section
/-! SUPPORT. What the shared admissions do once a command is taken up: standard I/O, vendor, admin and AMP. -/

namespace Sys2Proof.Machine

theorem State.ioRow_admitted {s : State} {tag opc : Nat} {writes mdts : Bool} {t : Trk} (f : Trk → State → State)
    (h : s.ioAdmitted tag opc writes mdts t) : s.ioRow tag opc writes mdts f = f t s := by
  obtain ⟨h1, h2, h3, h4⟩ := h
  simp only [State.ioRow, h1, h2, h3, h4]; rfl

theorem State.vendorRow_admitted {s : State} {tag opc : Nat} {option : Trk → Bool} {t : Trk} (f : Trk → State → State)
    (h : s.vendorAdmitted tag opc (option t) t) : s.vendorRow tag opc option f = f t s := by
  obtain ⟨h1, h2, h3, h4⟩ := h
  simp only [State.vendorRow, h1, h2, h3, h4]; rfl

theorem State.admin_serves {s : State} {fn : Nat} (e : Sqe) (f : Admin) (h : s.adminServes fn = true) :
    s.admin fn e f = (f s).1.adminEnd fn e (f s).2.1 (f s).2.2 := by
  simp only [State.admin, h, if_true]

/-- The message in turn is executed: its response stands as its body says. -/
theorem ampExec_turn {s : State} {mb op : Nat} {j : AmpJob} (f : AmpBody) (h : s.ampTurnOf mb op j) :
    ampExec mb op f s = (f j s).1.modAmp fun a => { a with jobs := ampSetReady mb (f j s).2 a.jobs } := by
  obtain ⟨h1, h2, h3, h4, h5⟩ := h
  simp only [ampExec, h1, h2, h3, h4, h5, if_true, Bool.false_eq_true, if_false]

theorem ampExec_done {s : State} {mb op : Nat} {j : AmpJob} {f : AmpBody} {u : State} {st : Nat} {p : Bytes}
    (h : s.ampTurnOf mb op j) (hf : f j s = (u, .done st p)) : ampExec mb op f s = u.ampDone mb st p := by
  rw [ampExec_turn f h, hf]; rfl

theorem ampLong_opens {s : State} (k : OpKind) (f : Nat → State → State) (h : s.amp.openOps < 16) :
    ampLong k f s = (f s.amp.nextOp (s.opened k), .done St.ok (leBytes 4 s.amp.nextOp)) := by
  simp only [ampLong, State.opOpen, h, if_true]; rfl

theorem ampLong_full {s : State} (k : OpKind) (f : Nat → State → State) (h : ¬s.amp.openOps < 16) :
    ampLong k f s = (s, .done St.busy []) := by
  simp only [ampLong, State.opOpen, h, if_false]; rfl

end Sys2Proof.Machine
end

