-- ==== Sys2Proof/Laws/Dispatch.lean ====
section
/-! SUPPORT. The arm of every command: one lemma each. -/

namespace Sys2Proof.Machine

@[simp] theorem exec_registerWrite (q a n v) (s : State) : exec (.registerWrite q a n v) s = execRegisterWrite q a n v s := rfl
@[simp] theorem exec_linkFlitReceive (l far ok) (s : State) : exec (.linkFlitReceive l far ok) s = execLinkFlitReceive l far ok s := rfl
@[simp] theorem exec_linkRetrainDone (l d ok) (s : State) : exec (.linkRetrainDone l d ok) s = execLinkRetrainDone l d ok s := rfl
@[simp] theorem exec_busAccess (q a n w) (s : State) : exec (.busAccess q a n w) s = execBusAccess q a n w s := rfl
@[simp] theorem exec_localCountLoRead (d whole) (s : State) : exec (.localCountLoRead d whole) s = execLocalCountLoRead d whole s := rfl
@[simp] theorem exec_cqWrite (q w bad reset) (s : State) : exec (.cqWrite q w bad reset) s = execCqWrite q w bad reset s := rfl
@[simp] theorem exec_cqFlush (q reset) (s : State) : exec (.cqFlush q reset) s = execCqFlush q reset s := rfl
@[simp] theorem exec_cqWordReadable (q n) (s : State) : exec (.cqWordReadable q n) s = execCqWordReadable q n s := rfl
@[simp] theorem exec_cqRead (q reset) (s : State) : exec (.cqRead q reset) s = execCqRead q reset s := rfl
@[simp] theorem exec_cqFreeVisible (q) (s : State) : exec (.cqFreeVisible q) s = execCqFreeVisible q s := rfl
@[simp] theorem exec_cqCtrlFlush (q) (s : State) : exec (.cqCtrlFlush q) s = execCqCtrlFlush q s := rfl
@[simp] theorem exec_cqReset (q) (s : State) : exec (.cqReset q) s = execCqReset q s := rfl
@[simp] theorem exec_cqClrCounts (q) (s : State) : exec (.cqClrCounts q) s = execCqClrCounts q s := rfl
@[simp] theorem exec_cqThreshLevelWrite (q v) (s : State) : exec (.cqThreshLevelWrite q v) s = execCqThreshLevelWrite q v s := rfl
@[simp] theorem exec_perstDeassert (fn) (s : State) : exec (.perstDeassert fn) s = execPerstDeassert fn s := rfl
@[simp] theorem exec_linkDown (fn) (s : State) : exec (.linkDown fn) s = execLinkDown fn s := rfl
@[simp] theorem exec_hotReset (fn) (s : State) : exec (.hotReset fn) s = execHotReset fn s := rfl
@[simp] theorem exec_functionLevelReset (fn) (s : State) : exec (.functionLevelReset fn) s = execFunctionLevelReset fn s := rfl
@[simp] theorem exec_nvmSubsystemReset (s : State) : exec (.nvmSubsystemReset) s = execNvmSubsystemReset s := rfl
@[simp] theorem exec_ccEnClear (fn) (s : State) : exec (.ccEnClear fn) s = execCcEnClear fn s := rfl
@[simp] theorem exec_controllerResetDone (fn) (s : State) : exec (.controllerResetDone fn) s = execControllerResetDone fn s := rfl
@[simp] theorem exec_sqTailDoorbell (fn q v) (s : State) : exec (.sqTailDoorbell fn q v) s = execSqTailDoorbell fn q v s := rfl
@[simp] theorem exec_cqHeadDoorbell (fn q v) (s : State) : exec (.cqHeadDoorbell fn q v) s = execCqHeadDoorbell fn q v s := rfl
@[simp] theorem exec_commandFetch (fn q cmds) (s : State) : exec (.commandFetch fn q cmds) s = execCommandFetch fn q cmds s := rfl
@[simp] theorem exec_commandStart (tag) (s : State) : exec (.commandStart tag) s = execCommandStart tag s := rfl
@[simp] theorem exec_invalidCommandOpcode (fn tag e) (s : State) : exec (.invalidCommandOpcode fn tag e) s = execInvalidCommandOpcode fn tag e s := rfl
@[simp] theorem exec_deleteIoSq (fn e) (s : State) : exec (.deleteIoSq fn e) s = execDeleteIoSq fn e s := rfl
@[simp] theorem exec_deleteIoSqDone (fn q) (s : State) : exec (.deleteIoSqDone fn q) s = execDeleteIoSqDone fn q s := rfl
@[simp] theorem exec_createIoSq (fn e) (s : State) : exec (.createIoSq fn e) s = execCreateIoSq fn e s := rfl
@[simp] theorem exec_deleteIoCq (fn e) (s : State) : exec (.deleteIoCq fn e) s = execDeleteIoCq fn e s := rfl
@[simp] theorem exec_createIoCq (fn e) (s : State) : exec (.createIoCq fn e) s = execCreateIoCq fn e s := rfl
@[simp] theorem exec_identify (fn e) (s : State) : exec (.identify fn e) s = execIdentify fn e s := rfl
@[simp] theorem exec_abort (fn e) (s : State) : exec (.abort fn e) s = execAbort fn e s := rfl
@[simp] theorem exec_setFeatures (fn e) (s : State) : exec (.setFeatures fn e) s = execSetFeatures fn e s := rfl
@[simp] theorem exec_setFeaturesTimestamp (fn e d) (s : State) : exec (.setFeaturesTimestamp fn e d) s = execSetFeaturesTimestamp fn e d s := rfl
@[simp] theorem exec_setFeaturesPowerManagement (fn e) (s : State) : exec (.setFeaturesPowerManagement fn e) s = execSetFeaturesPowerManagement fn e s := rfl
@[simp] theorem exec_getFeatures (fn e) (s : State) : exec (.getFeatures fn e) s = execGetFeatures fn e s := rfl
@[simp] theorem exec_getLogPage (fn e) (s : State) : exec (.getLogPage fn e) s = execGetLogPage fn e s := rfl
@[simp] theorem exec_asynchronousEventRequest (fn e) (s : State) : exec (.asynchronousEventRequest fn e) s = execAsynchronousEventRequest fn e s := rfl
@[simp] theorem exec_namespaceManagement (fn e nsze ncap) (s : State) : exec (.namespaceManagement fn e nsze ncap) s = execNamespaceManagement fn e nsze ncap s := rfl
@[simp] theorem exec_namespaceAttachment (fn e l) (s : State) : exec (.namespaceAttachment fn e l) s = execNamespaceAttachment fn e l s := rfl
@[simp] theorem exec_formatNvm (fn e eus bad) (s : State) : exec (.formatNvm fn e eus bad) s = execFormatNvm fn e eus bad s := rfl
@[simp] theorem exec_nvmeSanitize (fn e) (s : State) : exec (.nvmeSanitize fn e) s = execNvmeSanitize fn e s := rfl
@[simp] theorem exec_flush (tag) (s : State) : exec (.flush tag) s = execFlush tag s := rfl
@[simp] theorem exec_write (tag data granules eus lost) (s : State) : exec (.write tag data granules eus lost) s = execWrite tag data granules eus lost s := rfl
@[simp] theorem exec_read (tag lost retried dst) (s : State) : exec (.read tag lost retried dst) s = execRead tag lost retried dst s := rfl
@[simp] theorem exec_writeZeroes (tag eus lost) (s : State) : exec (.writeZeroes tag eus lost) s = execWriteZeroes tag eus lost s := rfl
@[simp] theorem exec_datasetManagement (tag data eus lost) (s : State) : exec (.datasetManagement tag data eus lost) s = execDatasetManagement tag data eus lost s := rfl
@[simp] theorem exec_secureDiscard (tag data eus lost bad) (s : State) : exec (.secureDiscard tag data eus lost bad) s = execSecureDiscard tag data eus lost bad s := rfl
@[simp] theorem exec_verify (tag lost retried) (s : State) : exec (.verify tag lost retried) s = execVerify tag lost retried s := rfl
@[simp] theorem exec_indexQuery (tag d inst base miss) (s : State) : exec (.indexQuery tag d inst base miss) s = execIndexQuery tag d inst base miss s := rfl
@[simp] theorem exec_indexInsert (tag d) (s : State) : exec (.indexInsert tag d) s = execIndexInsert tag d s := rfl
@[simp] theorem exec_indexDelete (tag d) (s : State) : exec (.indexDelete tag d) s = execIndexDelete tag d s := rfl
@[simp] theorem exec_indexWriteRoom (tag) (s : State) : exec (.indexWriteRoom tag) s = execIndexWriteRoom tag s := rfl
@[simp] theorem exec_scan (tag d inst base) (s : State) : exec (.scan tag d inst base) s = execScan tag d inst base s := rfl
@[simp] theorem exec_embed (tag d a) (s : State) : exec (.embed tag d a) s = execEmbed tag d a s := rfl
@[simp] theorem exec_generate (tag d a) (s : State) : exec (.generate tag d a) s = execGenerate tag d a s := rfl
@[simp] theorem exec_sessionOpen (tag p) (s : State) : exec (.sessionOpen tag p) s = execSessionOpen tag p s := rfl
@[simp] theorem exec_sessionPark (tag) (s : State) : exec (.sessionPark tag) s = execSessionPark tag s := rfl
@[simp] theorem exec_sessionResume (tag) (s : State) : exec (.sessionResume tag) s = execSessionResume tag s := rfl
@[simp] theorem exec_sessionClose (tag) (s : State) : exec (.sessionClose tag) s = execSessionClose tag s := rfl
@[simp] theorem exec_run (tag d a) (s : State) : exec (.run tag d a) s = execRun tag d a s := rfl
@[simp] theorem exec_resultHeaderTimer (tag) (s : State) : exec (.resultHeaderTimer tag) s = execResultHeaderTimer tag s := rfl
@[simp] theorem exec_mbReqLenWrite (fn wide v) (s : State) : exec (.mbReqLenWrite fn wide v) s = execMbReqLenWrite fn wide v s := rfl
@[simp] theorem exec_mbDataInWrite (fn wide v) (s : State) : exec (.mbDataInWrite fn wide v) s = execMbDataInWrite fn wide v s := rfl
@[simp] theorem exec_mbDataOutRead (fn wide) (s : State) : exec (.mbDataOutRead fn wide) s = execMbDataOutRead fn wide s := rfl
@[simp] theorem exec_mbSend (fn) (s : State) : exec (.mbSend fn) s = execMbSend fn s := rfl
@[simp] theorem exec_mbRelease (fn) (s : State) : exec (.mbRelease fn) s = execMbRelease fn s := rfl
@[simp] theorem exec_mbAbandon (fn) (s : State) : exec (.mbAbandon fn) s = execMbAbandon fn s := rfl
@[simp] theorem exec_mbResponseReady (mb) (s : State) : exec (.mbResponseReady mb) s = execMbResponseReady mb s := rfl
@[simp] theorem exec_mctpAmpMessage (ep body) (s : State) : exec (.mctpAmpMessage ep body) s = execMctpAmpMessage ep body s := rfl
@[simp] theorem exec_mgmtEventNotice (s : State) : exec (.mgmtEventNotice) s = execMgmtEventNotice s := rfl
@[simp] theorem exec_hello (mb) (s : State) : exec (.hello mb) s = execHello mb s := rfl
@[simp] theorem exec_ampStatus (mb) (s : State) : exec (.ampStatus mb) s = execAmpStatus mb s := rfl
@[simp] theorem exec_keyAgree (mb) (s : State) : exec (.keyAgree mb) s = execKeyAgree mb s := rfl
@[simp] theorem exec_lockoutExpiry (mb) (s : State) : exec (.lockoutExpiry mb) s = execLockoutExpiry mb s := rfl
@[simp] theorem exec_eventRead (mb) (s : State) : exec (.eventRead mb) s = execEventRead mb s := rfl
@[simp] theorem exec_opStatus (mb) (s : State) : exec (.opStatus mb) s = execOpStatus mb s := rfl
@[simp] theorem exec_configRead (mb) (s : State) : exec (.configRead mb) s = execConfigRead mb s := rfl
@[simp] theorem exec_configWrite (mb lost places) (s : State) : exec (.configWrite mb lost places) s = execConfigWrite mb lost places s := rfl
@[simp] theorem exec_eventMask (mb) (s : State) : exec (.eventMask mb) s = execEventMask mb s := rfl
@[simp] theorem exec_timeRead (mb) (s : State) : exec (.timeRead mb) s = execTimeRead mb s := rfl
@[simp] theorem exec_objectInstall (mb) (s : State) : exec (.objectInstall mb) s = execObjectInstall mb s := rfl
@[simp] theorem exec_objectInstallDone (op lost body regions space) (s : State) : exec (.objectInstallDone op lost body regions space) s = execObjectInstallDone op lost body regions space s := rfl
@[simp] theorem exec_objectRemove (mb) (s : State) : exec (.objectRemove mb) s = execObjectRemove mb s := rfl
@[simp] theorem exec_objectList (mb) (s : State) : exec (.objectList mb) s = execObjectList mb s := rfl
@[simp] theorem exec_indexCreate (mb) (s : State) : exec (.indexCreate mb) s = execIndexCreate mb s := rfl
@[simp] theorem exec_indexDrop (mb) (s : State) : exec (.indexDrop mb) s = execIndexDrop mb s := rfl
@[simp] theorem exec_indexTrain (mb) (s : State) : exec (.indexTrain mb) s = execIndexTrain mb s := rfl
@[simp] theorem exec_indexTrainDone (ix lost) (s : State) : exec (.indexTrainDone ix lost) s = execIndexTrainDone ix lost s := rfl
@[simp] theorem exec_indexFold (mb) (s : State) : exec (.indexFold mb) s = execIndexFold mb s := rfl
@[simp] theorem exec_foldSwitch (ix eus lost) (s : State) : exec (.foldSwitch ix eus lost) s = execFoldSwitch ix eus lost s := rfl
@[simp] theorem exec_indexBind (mb) (s : State) : exec (.indexBind mb) s = execIndexBind mb s := rfl
@[simp] theorem exec_indexStats (mb) (s : State) : exec (.indexStats mb) s = execIndexStats mb s := rfl
@[simp] theorem exec_ingestWindowProcess (ok emb) (s : State) : exec (.ingestWindowProcess ok emb) s = execIngestWindowProcess ok emb s := rfl
@[simp] theorem exec_partSet (mb) (s : State) : exec (.partSet mb) s = execPartSet mb s := rfl
@[simp] theorem exec_partRead (mb) (s : State) : exec (.partRead mb) s = execPartRead mb s := rfl
@[simp] theorem exec_powerSet (mb) (s : State) : exec (.powerSet mb) s = execPowerSet mb s := rfl
@[simp] theorem exec_powerRead (mb) (s : State) : exec (.powerRead mb) s = execPowerRead mb s := rfl
@[simp] theorem exec_writeGovernor (mb) (s : State) : exec (.writeGovernor mb) s = execWriteGovernor mb s := rfl
@[simp] theorem exec_faultRead (mb) (s : State) : exec (.faultRead mb) s = execFaultRead mb s := rfl
@[simp] theorem exec_faultAck (mb) (s : State) : exec (.faultAck mb) s = execFaultAck mb s := rfl
@[simp] theorem exec_scrubRange (mb) (s : State) : exec (.scrubRange mb) s = execScrubRange mb s := rfl
@[simp] theorem exec_scrubDone (op ok bad eus) (s : State) : exec (.scrubDone op ok bad eus) s = execScrubDone op ok bad eus s := rfl
@[simp] theorem exec_retire (mb spare) (s : State) : exec (.retire mb spare) s = execRetire mb spare s := rfl
@[simp] theorem exec_ownerSet (mb) (s : State) : exec (.ownerSet mb) s = execOwnerSet mb s := rfl
@[simp] theorem exec_ownerReleaseRestart (s : State) : exec (.ownerReleaseRestart) s = execOwnerReleaseRestart s := rfl
@[simp] theorem exec_nsKeySet (mb) (s : State) : exec (.nsKeySet mb) s = execNsKeySet mb s := rfl
@[simp] theorem exec_cryptoErase (mb) (s : State) : exec (.cryptoErase mb) s = execCryptoErase mb s := rfl
@[simp] theorem exec_sanitize (mb) (s : State) : exec (.sanitize mb) s = execSanitize mb s := rfl
@[simp] theorem exec_sanitizeDone (bad) (s : State) : exec (.sanitizeDone bad) s = execSanitizeDone bad s := rfl
@[simp] theorem exec_fwStage (mb) (s : State) : exec (.fwStage mb) s = execFwStage mb s := rfl
@[simp] theorem exec_fwVerify (mb) (s : State) : exec (.fwVerify mb) s = execFwVerify mb s := rfl
@[simp] theorem exec_fwVerifyDone (s : State) : exec (.fwVerifyDone) s = execFwVerifyDone s := rfl
@[simp] theorem exec_fwCommit (mb) (s : State) : exec (.fwCommit mb) s = execFwCommit mb s := rfl
@[simp] theorem exec_fwCommitDone (ok) (s : State) : exec (.fwCommitDone ok) s = execFwCommitDone ok s := rfl
@[simp] theorem exec_recoveryReboot (s : State) : exec (.recoveryReboot) s = execRecoveryReboot s := rfl
@[simp] theorem exec_spanConfig (mb) (s : State) : exec (.spanConfig mb) s = execSpanConfig mb s := rfl
@[simp] theorem exec_spanStatus (mb) (s : State) : exec (.spanStatus mb) s = execSpanStatus mb s := rfl
@[simp] theorem exec_spanPeerSet (mb) (s : State) : exec (.spanPeerSet mb) s = execSpanPeerSet mb s := rfl
@[simp] theorem exec_unlistedAmpOpcode (mb) (s : State) : exec (.unlistedAmpOpcode mb) s = execUnlistedAmpOpcode mb s := rfl
@[simp] theorem exec_cpJobTailWrite (ch v ends) (s : State) : exec (.cpJobTailWrite ch v ends) s = execCpJobTailWrite ch v ends s := rfl
@[simp] theorem exec_cpCmplHeadWrite (ch v) (s : State) : exec (.cpCmplHeadWrite ch v) s = execCpCmplHeadWrite ch v s := rfl
@[simp] theorem exec_abortJob (ch) (s : State) : exec (.abortJob ch) s = execAbortJob ch s := rfl
@[simp] theorem exec_cpEnable (ch on) (s : State) : exec (.cpEnable ch on) s = execCpEnable ch on s := rfl
@[simp] theorem exec_channelJobStart (ch) (s : State) : exec (.channelJobStart ch) s = execChannelJobStart ch s := rfl
@[simp] theorem exec_s6TableLoadDone (ch) (s : State) : exec (.s6TableLoadDone ch) s = execS6TableLoadDone ch s := rfl
@[simp] theorem exec_s8ThresholdFeedback (ch q) (s : State) : exec (.s8ThresholdFeedback ch q) s = execS8ThresholdFeedback ch q s := rfl
@[simp] theorem exec_channelJobComplete (ch fault) (s : State) : exec (.channelJobComplete ch fault) s = execChannelJobComplete ch fault s := rfl
@[simp] theorem exec_seamJob (tag first ch addr) (s : State) : exec (.seamJob tag first ch addr) s = execSeamJob tag first ch addr s := rfl
@[simp] theorem exec_selectionStart (u) (s : State) : exec (.selectionStart u) s = execSelectionStart u s := rfl
@[simp] theorem exec_selectionComplete (u cycles) (s : State) : exec (.selectionComplete u cycles) s = execSelectionComplete u cycles s := rfl
@[simp] theorem exec_selFlush (u) (s : State) : exec (.selFlush u) s = execSelFlush u s := rfl
@[simp] theorem exec_selEnable (u on gather) (s : State) : exec (.selEnable u on gather) s = execSelEnable u on gather s := rfl
@[simp] theorem exec_mergeInstanceOpen (d thr) (s : State) : exec (.mergeInstanceOpen d thr) s = execMergeInstanceOpen d thr s := rfl
@[simp] theorem exec_mergeEntryArrival (a) (s : State) : exec (.mergeEntryArrival a) s = execMergeEntryArrival a s := rfl
@[simp] theorem exec_mergeInstanceClose (n unreadable) (s : State) : exec (.mergeInstanceClose n unreadable) s = execMergeInstanceClose n unreadable s := rfl
@[simp] theorem exec_tileLoad (g f7 rd rs1 rs2) (s : State) : exec (.tileLoad g f7 rd rs1 rs2) s = execTileLoad g f7 rd rs1 rs2 s := rfl
@[simp] theorem exec_tileStream (g f7 rd rs1 rs2) (s : State) : exec (.tileStream g f7 rd rs1 rs2) s = execTileStream g f7 rd rs1 rs2 s := rfl
@[simp] theorem exec_tileDrain (g f7 rd rs1 rs2) (s : State) : exec (.tileDrain g f7 rd rs1 rs2) s = execTileDrain g f7 rd rs1 rs2 s := rfl
@[simp] theorem exec_tileCfg (g f7 rd rs1 rs2) (s : State) : exec (.tileCfg g f7 rd rs1 rs2) s = execTileCfg g f7 rd rs1 rs2 s := rfl
@[simp] theorem exec_tileFence (g f7 rd rs1 rs2) (s : State) : exec (.tileFence g f7 rd rs1 rs2) s = execTileFence g f7 rd rs1 rs2 s := rfl
@[simp] theorem exec_chainGo (g f7 rd rs1 rs2) (s : State) : exec (.chainGo g f7 rd rs1 rs2) s = execChainGo g f7 rd rs1 rs2 s := rfl
@[simp] theorem exec_mvIssue (g f7 rd rs1 rs2) (s : State) : exec (.mvIssue g f7 rd rs1 rs2) s = execMvIssue g f7 rd rs1 rs2 s := rfl
@[simp] theorem exec_selIssue (who f7 rd rs1 rs2) (s : State) : exec (.selIssue who f7 rd rs1 rs2) s = execSelIssue who f7 rd rs1 rs2 s := rfl
@[simp] theorem exec_slotWait (g f7 rd rs1 rs2) (s : State) : exec (.slotWait g f7 rd rs1 rs2) s = execSlotWait g f7 rd rs1 rs2 s := rfl
@[simp] theorem exec_slotTake (g f7 rd rs1 rs2) (s : State) : exec (.slotTake g f7 rd rs1 rs2) s = execSlotTake g f7 rd rs1 rs2 s := rfl
@[simp] theorem exec_slotGive (g f7 rd rs1 rs2) (s : State) : exec (.slotGive g f7 rd rs1 rs2) s = execSlotGive g f7 rd rs1 rs2 s := rfl
@[simp] theorem exec_slotPeek (g f7 rd rs1 rs2) (s : State) : exec (.slotPeek g f7 rd rs1 rs2) s = execSlotPeek g f7 rd rs1 rs2 s := rfl
@[simp] theorem exec_slotClear (g f7 rd rs1 rs2) (s : State) : exec (.slotClear g f7 rd rs1 rs2) s = execSlotClear g f7 rd rs1 rs2 s := rfl
@[simp] theorem exec_stepMark (w d) (s : State) : exec (.stepMark w d) s = execStepMark w d s := rfl
@[simp] theorem exec_stewardInstruction (g r) (s : State) : exec (.stewardInstruction g r) s = execStewardInstruction g r s := rfl
@[simp] theorem exec_stewardLoad (g ps d k) (s : State) : exec (.stewardLoad g ps d k) s = execStewardLoad g ps d k s := rfl
@[simp] theorem exec_stewardStore (g ps k) (s : State) : exec (.stewardStore g ps k) s = execStewardStore g ps k s := rfl
@[simp] theorem exec_mxuOpStart (g u) (s : State) : exec (.mxuOpStart g u) s = execMxuOpStart g u s := rfl
@[simp] theorem exec_mxuOpComplete (g u k) (s : State) : exec (.mxuOpComplete g u k) s = execMxuOpComplete g u k s := rfl
@[simp] theorem exec_clMxuReset (g) (s : State) : exec (.clMxuReset g) s = execClMxuReset g s := rfl
@[simp] theorem exec_clCoreReset (g) (s : State) : exec (.clCoreReset g) s = execClCoreReset g s := rfl
@[simp] theorem exec_clHalt (g on) (s : State) : exec (.clHalt g on) s = execClHalt g on s := rfl
@[simp] theorem exec_clEnable (g on) (s : State) : exec (.clEnable g on) s = execClEnable g on s := rfl
@[simp] theorem exec_narrowGuarantee (g) (s : State) : exec (.narrowGuarantee g) s = execNarrowGuarantee g s := rfl
@[simp] theorem exec_cvClr (g) (s : State) : exec (.cvClr g) s = execCvClr g s := rfl
@[simp] theorem exec_chainComplete (g u) (s : State) : exec (.chainComplete g u) s = execChainComplete g u s := rfl
@[simp] theorem exec_chainBlockSend (g u) (s : State) : exec (.chainBlockSend g u) s = execChainBlockSend g u s := rfl
@[simp] theorem exec_tenantClear (g) (s : State) : exec (.tenantClear g) s = execTenantClear g s := rfl
@[simp] theorem exec_tenantClearDone (g) (s : State) : exec (.tenantClearDone g) s = execTenantClearDone g s := rfl
@[simp] theorem exec_spClrCounts (g) (s : State) : exec (.spClrCounts g) s = execSpClrCounts g s := rfl
@[simp] theorem exec_slotReset (g) (s : State) : exec (.slotReset g) s = execSlotReset g s := rfl
@[simp] theorem exec_bankPowerDown (g b) (s : State) : exec (.bankPowerDown g b) s = execBankPowerDown g b s := rfl
@[simp] theorem exec_bankOff (g) (s : State) : exec (.bankOff g) s = execBankOff g s := rfl
@[simp] theorem exec_bankPowerTimeout (g) (s : State) : exec (.bankPowerTimeout g) s = execBankPowerTimeout g s := rfl
@[simp] theorem exec_bankPowerDownForce (g b) (s : State) : exec (.bankPowerDownForce g b) s = execBankPowerDownForce g b s := rfl
@[simp] theorem exec_bankForceOff (g n) (s : State) : exec (.bankForceOff g n) s = execBankForceOff g n s := rfl
@[simp] theorem exec_bankPowerUp (g b force) (s : State) : exec (.bankPowerUp g b force) s = execBankPowerUp g b force s := rfl
@[simp] theorem exec_bankPowerUpDone (g) (s : State) : exec (.bankPowerUpDone g) s = execBankPowerUpDone g s := rfl
@[simp] theorem exec_bankRetire (g b) (s : State) : exec (.bankRetire g b) s = execBankRetire g b s := rfl
@[simp] theorem exec_slotWaitLimitWrite (g v) (s : State) : exec (.slotWaitLimitWrite g v) s = execSlotWaitLimitWrite g v s := rfl
@[simp] theorem exec_spResidentWrite (g b m) (s : State) : exec (.spResidentWrite g b m) s = execSpResidentWrite g b m s := rfl
@[simp] theorem exec_slotWindowWrite (g k v) (s : State) : exec (.slotWindowWrite g k v) s = execSlotWindowWrite g k v s := rfl
@[simp] theorem exec_slotWaitTimeout (g send) (s : State) : exec (.slotWaitTimeout g send) s = execSlotWaitTimeout g send s := rfl
@[simp] theorem exec_remoteSlotArrival (g) (s : State) : exec (.remoteSlotArrival g) s = execRemoteSlotArrival g s := rfl
@[simp] theorem exec_residentReloadDone (g b r lost ok) (s : State) : exec (.residentReloadDone g b r lost ok) s = execResidentReloadDone g b r lost ok s := rfl
@[simp] theorem exec_mvPost (g v) (s : State) : exec (.mvPost g v) s = execMvPost g v s := rfl
@[simp] theorem exec_mvFlush (g) (s : State) : exec (.mvFlush g) s = execMvFlush g s := rfl
@[simp] theorem exec_mvEnable (g on) (s : State) : exec (.mvEnable g on) s = execMvEnable g on s := rfl
@[simp] theorem exec_linear (g) (s : State) : exec (.linear g) s = execLinear g s := rfl
@[simp] theorem exec_tileIn (g) (s : State) : exec (.tileIn g) s = execTileIn g s := rfl
@[simp] theorem exec_tileOut (g giveUp) (s : State) : exec (.tileOut g giveUp) s = execTileOut g giveUp s := rfl
@[simp] theorem exec_tensorIn (g) (s : State) : exec (.tensorIn g) s = execTensorIn g s := rfl
@[simp] theorem exec_tensorOut (g giveUp) (s : State) : exec (.tensorOut g giveUp) s = execTensorOut g giveUp s := rfl
@[simp] theorem exec_fill (g) (s : State) : exec (.fill g) s = execFill g s := rfl
@[simp] theorem exec_copy (g) (s : State) : exec (.copy g) s = execCopy g s := rfl
@[simp] theorem exec_transpose (g) (s : State) : exec (.transpose g) s = execTranspose g s := rfl
@[simp] theorem exec_moverDescriptorDone (g k addrs) (s : State) : exec (.moverDescriptorDone g k addrs) s = execMoverDescriptorDone g k addrs s := rfl
@[simp] theorem exec_tierDemotion (places) (s : State) : exec (.tierDemotion places) s = execTierDemotion places s := rfl
@[simp] theorem exec_tilePromotion (g k at_) (s : State) : exec (.tilePromotion g k at_) s = execTilePromotion g k at_ s := rfl
@[simp] theorem exec_sessionDemotion (n pos) (s : State) : exec (.sessionDemotion n pos) s = execSessionDemotion n pos s := rfl
@[simp] theorem exec_parkT2Done (n pos) (s : State) : exec (.parkT2Done n pos) s = execParkT2Done n pos s := rfl
@[simp] theorem exec_resumeColdDone (n root chunks tiles) (s : State) : exec (.resumeColdDone n root chunks tiles) s = execResumeColdDone n root chunks tiles s := rfl
@[simp] theorem exec_tokenizerSlice (s : State) : exec (.tokenizerSlice) s = execTokenizerSlice s := rfl
@[simp] theorem exec_updSubmit (g a) (s : State) : exec (.updSubmit g a) s = execUpdSubmit g a s := rfl
@[simp] theorem exec_updateJobStart (id us) (s : State) : exec (.updateJobStart id us) s = execUpdateJobStart id us s := rfl
@[simp] theorem exec_updCommit (u o) (s : State) : exec (.updCommit u o) s = execUpdCommit u o s := rfl
@[simp] theorem exec_updateSliceEnd (u r) (s : State) : exec (.updateSliceEnd u r) s = execUpdateSliceEnd u r s := rfl
@[simp] theorem exec_quantumExpiry (p) (s : State) : exec (.quantumExpiry p) s = execQuantumExpiry p s := rfl
@[simp] theorem exec_saveComplete (p addrs giveUp) (s : State) : exec (.saveComplete p addrs giveUp) s = execSaveComplete p addrs giveUp s := rfl
@[simp] theorem exec_runEmit (g a n) (s : State) : exec (.runEmit g a n) s = execRunEmit g a n s := rfl
@[simp] theorem exec_taskEnd (g code d) (s : State) : exec (.taskEnd g code d) s = execTaskEnd g code d s := rfl
@[simp] theorem exec_romResetEntry (ch) (s : State) : exec (.romResetEntry ch) s = execRomResetEntry ch s := rfl
@[simp] theorem exec_targetBringupTimeout (ch t) (s : State) : exec (.targetBringupTimeout ch t) s = execTargetBringupTimeout ch t s := rfl
@[simp] theorem exec_mrReqTailWrite (ch v) (s : State) : exec (.mrReqTailWrite ch v) s = execMrReqTailWrite ch v s := rfl
@[simp] theorem exec_mrCmplHeadWrite (ch v) (s : State) : exec (.mrCmplHeadWrite ch v) s = execMrCmplHeadWrite ch v s := rfl
@[simp] theorem exec_mrEnable (ch on) (s : State) : exec (.mrEnable ch on) s = execMrEnable ch on s := rfl
@[simp] theorem exec_mediaRead (ch ring) (s : State) : exec (.mediaRead ch ring) s = execMediaRead ch ring s := rfl
@[simp] theorem exec_mediaReadMargin (ch) (s : State) : exec (.mediaReadMargin ch) s = execMediaReadMargin ch s := rfl
@[simp] theorem exec_mediaProgram (ch) (s : State) : exec (.mediaProgram ch) s = execMediaProgram ch s := rfl
@[simp] theorem exec_mediaErase (ch) (s : State) : exec (.mediaErase ch) s = execMediaErase ch s := rfl
@[simp] theorem exec_mediaReset (ch) (s : State) : exec (.mediaReset ch) s = execMediaReset ch s := rfl
@[simp] theorem exec_mediaGetFeatures (ch v) (s : State) : exec (.mediaGetFeatures ch v) s = execMediaGetFeatures ch v s := rfl
@[simp] theorem exec_mediaStatus (ch) (s : State) : exec (.mediaStatus ch) s = execMediaStatus ch s := rfl
@[simp] theorem exec_mediaClose (ch) (s : State) : exec (.mediaClose ch) s = execMediaClose ch s := rfl
@[simp] theorem exec_mediaParams (ch) (s : State) : exec (.mediaParams ch) s = execMediaParams ch s := rfl
@[simp] theorem exec_mediaOpComplete (ch op r) (s : State) : exec (.mediaOpComplete ch op r) s = execMediaOpComplete ch op r s := rfl
@[simp] theorem exec_mediaTimeout (ch op) (s : State) : exec (.mediaTimeout ch op) s = execMediaTimeout ch op s := rfl
@[simp] theorem exec_mediaSuspend (ch t) (s : State) : exec (.mediaSuspend ch t) s = execMediaSuspend ch t s := rfl
@[simp] theorem exec_mediaHold (on) (s : State) : exec (.mediaHold on) s = execMediaHold on s := rfl
@[simp] theorem exec_mediaFlush (s : State) : exec (.mediaFlush) s = execMediaFlush s := rfl
@[simp] theorem exec_dieTempSample (ch t temp) (s : State) : exec (.dieTempSample ch t temp) s = execDieTempSample ch t temp s := rfl
@[simp] theorem exec_writeBufferProgram (eu ok eus) (s : State) : exec (.writeBufferProgram eu ok eus) s = execWriteBufferProgram eu ok eus s := rfl
@[simp] theorem exec_garbageCollection (victim eus ok) (s : State) : exec (.garbageCollection victim eus ok) s = execGarbageCollection victim eus ok s := rfl
@[simp] theorem exec_mapCheckpoint (chunk) (s : State) : exec (.mapCheckpoint chunk) s = execMapCheckpoint chunk s := rfl
@[simp] theorem exec_flashTempPoll (temps) (s : State) : exec (.flashTempPoll temps) s = execFlashTempPoll temps s := rfl
@[simp] theorem exec_peRateBucket (s : State) : exec (.peRateBucket) s = execPeRateBucket s := rfl
@[simp] theorem exec_spanPortUp (p) (s : State) : exec (.spanPortUp p) s = execSpanPortUp p s := rfl
@[simp] theorem exec_spanPortDown (p) (s : State) : exec (.spanPortDown p) s = execSpanPortDown p s := rfl
@[simp] theorem exec_slRetrain (p) (s : State) : exec (.slRetrain p) s = execSlRetrain p s := rfl
@[simp] theorem exec_slEnable (p on) (s : State) : exec (.slEnable p on) s = execSlEnable p on s := rfl
@[simp] theorem exec_openFrame (port b encrypted) (s : State) : exec (.openFrame port b encrypted) s = execOpenFrame port b encrypted s := rfl
@[simp] theorem exec_spdmFrame (port n r) (s : State) : exec (.spdmFrame port n r) s = execSpdmFrame port n r s := rfl
@[simp] theorem exec_dataFrame (port b icv inst base) (s : State) : exec (.dataFrame port b icv inst base) s = execDataFrame port b icv inst base s := rfl
@[simp] theorem exec_ackFrame (port b icv) (s : State) : exec (.ackFrame port b icv) s = execAckFrame port b icv s := rfl
@[simp] theorem exec_nakFrame (port b icv) (s : State) : exec (.nakFrame port b icv) s = execNakFrame port b icv s := rfl
@[simp] theorem exec_spanRead (g n nsid slba count dst slot) (s : State) : exec (.spanRead g n nsid slba count dst slot) s = execSpanRead g n nsid slba count dst slot s := rfl
@[simp] theorem exec_retransmissionTimeout (n seq) (s : State) : exec (.retransmissionTimeout n seq) s = execRetransmissionTimeout n seq s := rfl
@[simp] theorem exec_gapTimeout (n) (s : State) : exec (.gapTimeout n) s = execGapTimeout n s := rfl
@[simp] theorem exec_keepaliveTimer (n) (s : State) : exec (.keepaliveTimer n) s = execKeepaliveTimer n s := rfl
@[simp] theorem exec_slowTimeout (n) (s : State) : exec (.slowTimeout n) s = execSlowTimeout n s := rfl
@[simp] theorem exec_absentTimeout (n) (s : State) : exec (.absentTimeout n) s = execAbsentTimeout n s := rfl
@[simp] theorem exec_bringupTimeout (n port) (s : State) : exec (.bringupTimeout n port) s = execBringupTimeout n port s := rfl
@[simp] theorem exec_faultyRetryTimer (n) (s : State) : exec (.faultyRetryTimer n) s = execFaultyRetryTimer n s := rfl
@[simp] theorem exec_refusedRetryTimer (n) (s : State) : exec (.refusedRetryTimer n) s = execRefusedRetryTimer n s := rfl
@[simp] theorem exec_rekeyTimer (n) (s : State) : exec (.rekeyTimer n) s = execRekeyTimer n s := rfl
@[simp] theorem exec_oldKeyExpiry (n) (s : State) : exec (.oldKeyExpiry n) s = execOldKeyExpiry n s := rfl
@[simp] theorem exec_faultReport (d r to_) (s : State) : exec (.faultReport d r to_) s = execFaultReport d r to_ s := rfl
@[simp] theorem exec_faultWindowEnd (d k) (s : State) : exec (.faultWindowEnd d k) s = execFaultWindowEnd d k s := rfl
@[simp] theorem exec_faultRecordAgeLimit (d k) (s : State) : exec (.faultRecordAgeLimit d k) s = execFaultRecordAgeLimit d k s := rfl
@[simp] theorem exec_faultRecordIntake (d k) (s : State) : exec (.faultRecordIntake d k) s = execFaultRecordIntake d k s := rfl
@[simp] theorem exec_faultRecordFinalise (d k) (s : State) : exec (.faultRecordFinalise d k) s = execFaultRecordFinalise d k s := rfl
@[simp] theorem exec_faultLogPersist (record) (s : State) : exec (.faultLogPersist record) s = execFaultLogPersist record s := rfl
@[simp] theorem exec_fcHeadWrite (d v) (s : State) : exec (.fcHeadWrite d v) s = execFcHeadWrite d v s := rfl
@[simp] theorem exec_inputWarn (v) (s : State) : exec (.inputWarn v) s = execInputWarn v s := rfl
@[simp] theorem exec_holdRelease (v) (s : State) : exec (.holdRelease v) s = execHoldRelease v s := rfl
@[simp] theorem exec_inputCommit (v) (s : State) : exec (.inputCommit v) s = execInputCommit v s := rfl
@[simp] theorem exec_flushDumpDone (s : State) : exec (.flushDumpDone) s = execFlushDumpDone s := rfl
@[simp] theorem exec_inputReset (v undumped) (s : State) : exec (.inputReset v undumped) s = execInputReset v undumped s := rfl
@[simp] theorem exec_inputOvervoltage (v) (s : State) : exec (.inputOvervoltage v) s = execInputOvervoltage v s := rfl
@[simp] theorem exec_startCondition (v) (s : State) : exec (.startCondition v) s = execStartCondition v s := rfl
@[simp] theorem exec_currentLimit (ma) (s : State) : exec (.currentLimit ma) s = execCurrentLimit ma s := rfl
@[simp] theorem exec_holdupMeasurement (mj) (s : State) : exec (.holdupMeasurement mj) s = execHoldupMeasurement mj s := rfl
@[simp] theorem exec_powerStateEntry (s : State) : exec (.powerStateEntry) s = execPowerStateEntry s := rfl
@[simp] theorem exec_drawAverageCrossing (mw) (s : State) : exec (.drawAverageCrossing mw) s = execDrawAverageCrossing mw s := rfl
@[simp] theorem exec_peakWindowExpiry (s : State) : exec (.peakWindowExpiry) s = execPeakWindowExpiry s := rfl
@[simp] theorem exec_peakSpentRecheck (s : State) : exec (.peakSpentRecheck) s = execPeakSpentRecheck s := rfl
@[simp] theorem exec_clockStepUpTimer (ma) (s : State) : exec (.clockStepUpTimer ma) s = execClockStepUpTimer ma s := rfl
@[simp] theorem exec_peakRecovery (s : State) : exec (.peakRecovery) s = execPeakRecovery s := rfl
@[simp] theorem exec_deniedExit (s : State) : exec (.deniedExit) s = execDeniedExit s := rfl
@[simp] theorem exec_junctionTempCrossing (k t) (s : State) : exec (.junctionTempCrossing k t) s = execJunctionTempCrossing k t s := rfl
@[simp] theorem exec_thermalStepUp (s : State) : exec (.thermalStepUp) s = execThermalStepUp s := rfl
@[simp] theorem exec_flashTempCrossing (t) (s : State) : exec (.flashTempCrossing t) s = execFlashTempCrossing t s := rfl
@[simp] theorem exec_pwrDisAssert (s : State) : exec (.pwrDisAssert) s = execPwrDisAssert s := rfl
@[simp] theorem exec_pwrDisDeassert (s : State) : exec (.pwrDisDeassert) s = execPwrDisDeassert s := rfl
@[simp] theorem exec_auxPowerUp (addrSel) (s : State) : exec (.auxPowerUp addrSel) s = execAuxPowerUp addrSel s := rfl
@[simp] theorem exec_auxPowerLoss (s : State) : exec (.auxPowerLoss) s = execAuxPowerLoss s := rfl
@[simp] theorem exec_boot (otpOk strap lostT eus ms) (s : State) : exec (.boot otpOk strap lostT eus ms) s = execBoot otpOk strap lostT eus ms s := rfl
@[simp] theorem exec_keeperReady (eus bad lost places) (s : State) : exec (.keeperReady eus bad lost places) s = execKeeperReady eus bad lost places s := rfl
@[simp] theorem exec_keeperReadyTimeout (s : State) : exec (.keeperReadyTimeout) s = execKeeperReadyTimeout s := rfl
@[simp] theorem exec_setEndpointId (op eid) (s : State) : exec (.setEndpointId op eid) s = execSetEndpointId op eid s := rfl
@[simp] theorem exec_getEndpointId (s : State) : exec (.getEndpointId) s = execGetEndpointId s := rfl
@[simp] theorem exec_getMctpVersionSupport (typ) (s : State) : exec (.getMctpVersionSupport typ) s = execGetMctpVersionSupport typ s := rfl
@[simp] theorem exec_getMessageTypeSupport (s : State) : exec (.getMessageTypeSupport) s = execGetMessageTypeSupport s := rfl
@[simp] theorem exec_getVendorDefinedMessageSupport (sel) (s : State) : exec (.getVendorDefinedMessageSupport sel) s = execGetVendorDefinedMessageSupport sel s := rfl
@[simp] theorem exec_readNvmeMiDataStructure (mic typ port ctrl) (s : State) : exec (.readNvmeMiDataStructure mic typ port ctrl) s = execReadNvmeMiDataStructure mic typ port ctrl s := rfl
@[simp] theorem exec_nvmSubsystemHealthStatusPoll (mic clear) (s : State) : exec (.nvmSubsystemHealthStatusPoll mic clear) s = execNvmSubsystemHealthStatusPoll mic clear s := rfl
@[simp] theorem exec_controllerHealthStatusPoll (mic clear first) (s : State) : exec (.controllerHealthStatusPoll mic clear first) s = execControllerHealthStatusPoll mic clear first s := rfl
@[simp] theorem exec_configurationSet (mic id port v) (s : State) : exec (.configurationSet mic id port v) s = execConfigurationSet mic id port v s := rfl
@[simp] theorem exec_configurationGet (mic id port) (s : State) : exec (.configurationGet mic id port) s = execConfigurationGet mic id port s := rfl
@[simp] theorem exec_vpdRead (mic off len) (s : State) : exec (.vpdRead mic off len) s = execVpdRead mic off len s := rfl
@[simp] theorem exec_nvmeMiReset (mic typ) (s : State) : exec (.nvmeMiReset mic typ) s = execNvmeMiReset mic typ s := rfl
@[simp] theorem exec_sensorRead (mic rails) (s : State) : exec (.sensorRead mic rails) s = execSensorRead mic rails s := rfl
@[simp] theorem exec_nvmeMiAdminCommand (mic ctrl e d) (s : State) : exec (.nvmeMiAdminCommand mic ctrl e d) s = execNvmeMiAdminCommand mic ctrl e d s := rfl
@[simp] theorem exec_nvmeMiUnsupportedCommand (mic opc) (s : State) : exec (.nvmeMiUnsupportedCommand mic opc) s = execNvmeMiUnsupportedCommand mic opc s := rfl
@[simp] theorem exec_getVersion (s : State) : exec (.getVersion) s = execGetVersion s := rfl
@[simp] theorem exec_getCapabilities (ver) (s : State) : exec (.getCapabilities ver) s = execGetCapabilities ver s := rfl
@[simp] theorem exec_negotiateAlgorithms (asym hash meas) (s : State) : exec (.negotiateAlgorithms asym hash meas) s = execNegotiateAlgorithms asym hash meas s := rfl
@[simp] theorem exec_getDigests (s : State) : exec (.getDigests) s = execGetDigests s := rfl
@[simp] theorem exec_getCertificate (slot off len) (s : State) : exec (.getCertificate slot off len) s = execGetCertificate slot off len s := rfl
@[simp] theorem exec_challenge (slot summary before) (s : State) : exec (.challenge slot summary before) s = execChallenge slot summary before s := rfl
@[simp] theorem exec_getMeasurements (op sign before) (s : State) : exec (.getMeasurements op sign before) s = execGetMeasurements op sign before s := rfl
@[simp] theorem exec_keyExchange (port before) (s : State) : exec (.keyExchange port before) s = execKeyExchange port before s := rfl
@[simp] theorem exec_pcieLinkUp (l) (s : State) : exec (.pcieLinkUp l) s = execPcieLinkUp l s := rfl
@[simp] theorem exec_controllerEnable (fn asqs acqs) (s : State) : exec (.controllerEnable fn asqs acqs) s = execControllerEnable fn asqs acqs s := rfl
@[simp] theorem exec_coolantLimitCrossing (inlet outlet) (s : State) : exec (.coolantLimitCrossing inlet outlet) s = execCoolantLimitCrossing inlet outlet s := rfl
@[simp] theorem exec_junctionCooldown (t0 t1 t2) (s : State) : exec (.junctionCooldown t0 t1 t2) s = execJunctionCooldown t0 t1 t2 s := rfl

end Sys2Proof.Machine
end

