-- ==== Sys2Proof/Laws/State.lean ====
section
/-! SUPPORT. One lemma per field per update of the state. -/

namespace Sys2Proof.Machine

/-! ## `State.modFabric` -/

@[simp] theorem State.modFabric_pending (s : State) (f) : (s.modFabric f).pending = s.pending := rfl
@[simp] theorem State.modFabric_part (s : State) (f) : (s.modFabric f).part = s.part := rfl
@[simp] theorem State.modFabric_free (s : State) (f) : (s.modFabric f).free = s.free := rfl
@[simp] theorem State.modFabric_answer (s : State) (f) : (s.modFabric f).answer = s.answer := rfl
@[simp] theorem State.modFabric_mem (s : State) (f) : (s.modFabric f).mem = s.mem := rfl
@[simp] theorem State.modFabric_poison (s : State) (f) : (s.modFabric f).poison = s.poison := rfl
@[simp] theorem State.modFabric_undef (s : State) (f) : (s.modFabric f).undef = s.undef := rfl
@[simp] theorem State.modFabric_hostMem (s : State) (f) : (s.modFabric f).hostMem = s.hostMem := rfl
@[simp] theorem State.modFabric_fabric (s : State) (f) : (s.modFabric f).fabric = f s.fabric := rfl
@[simp] theorem State.modFabric_host (s : State) (f) : (s.modFabric f).host = s.host := rfl
@[simp] theorem State.modFabric_amp (s : State) (f) : (s.modFabric f).amp = s.amp := rfl
@[simp] theorem State.modFabric_faults (s : State) (f) : (s.modFabric f).faults = s.faults := rfl
@[simp] theorem State.modFabric_power (s : State) (f) : (s.modFabric f).power = s.power := rfl
@[simp] theorem State.modFabric_sec (s : State) (f) : (s.modFabric f).sec = s.sec := rfl
@[simp] theorem State.modFabric_mgmt (s : State) (f) : (s.modFabric f).mgmt = s.mgmt := rfl
@[simp] theorem State.modFabric_cl (s : State) (f) : (s.modFabric f).cl = s.cl := rfl
@[simp] theorem State.modFabric_sched (s : State) (f) : (s.modFabric f).sched = s.sched := rfl
@[simp] theorem State.modFabric_tiers (s : State) (f) : (s.modFabric f).tiers = s.tiers := rfl
@[simp] theorem State.modFabric_tokens (s : State) (f) : (s.modFabric f).tokens = s.tokens := rfl
@[simp] theorem State.modFabric_sel (s : State) (f) : (s.modFabric f).sel = s.sel := rfl
@[simp] theorem State.modFabric_index (s : State) (f) : (s.modFabric f).index = s.index := rfl
@[simp] theorem State.modFabric_pipes (s : State) (f) : (s.modFabric f).pipes = s.pipes := rfl
@[simp] theorem State.modFabric_media (s : State) (f) : (s.modFabric f).media = s.media := rfl
@[simp] theorem State.modFabric_ftl (s : State) (f) : (s.modFabric f).ftl = s.ftl := rfl
@[simp] theorem State.modFabric_span (s : State) (f) : (s.modFabric f).span = s.span := rfl
@[simp] theorem State.modFabric_upd (s : State) (f) : (s.modFabric f).upd = s.upd := rfl

/-! ## `State.modHost` -/

@[simp] theorem State.modHost_pending (s : State) (f) : (s.modHost f).pending = s.pending := rfl
@[simp] theorem State.modHost_part (s : State) (f) : (s.modHost f).part = s.part := rfl
@[simp] theorem State.modHost_free (s : State) (f) : (s.modHost f).free = s.free := rfl
@[simp] theorem State.modHost_answer (s : State) (f) : (s.modHost f).answer = s.answer := rfl
@[simp] theorem State.modHost_mem (s : State) (f) : (s.modHost f).mem = s.mem := rfl
@[simp] theorem State.modHost_poison (s : State) (f) : (s.modHost f).poison = s.poison := rfl
@[simp] theorem State.modHost_undef (s : State) (f) : (s.modHost f).undef = s.undef := rfl
@[simp] theorem State.modHost_hostMem (s : State) (f) : (s.modHost f).hostMem = s.hostMem := rfl
@[simp] theorem State.modHost_fabric (s : State) (f) : (s.modHost f).fabric = s.fabric := rfl
@[simp] theorem State.modHost_host (s : State) (f) : (s.modHost f).host = f s.host := rfl
@[simp] theorem State.modHost_amp (s : State) (f) : (s.modHost f).amp = s.amp := rfl
@[simp] theorem State.modHost_faults (s : State) (f) : (s.modHost f).faults = s.faults := rfl
@[simp] theorem State.modHost_power (s : State) (f) : (s.modHost f).power = s.power := rfl
@[simp] theorem State.modHost_sec (s : State) (f) : (s.modHost f).sec = s.sec := rfl
@[simp] theorem State.modHost_mgmt (s : State) (f) : (s.modHost f).mgmt = s.mgmt := rfl
@[simp] theorem State.modHost_cl (s : State) (f) : (s.modHost f).cl = s.cl := rfl
@[simp] theorem State.modHost_sched (s : State) (f) : (s.modHost f).sched = s.sched := rfl
@[simp] theorem State.modHost_tiers (s : State) (f) : (s.modHost f).tiers = s.tiers := rfl
@[simp] theorem State.modHost_tokens (s : State) (f) : (s.modHost f).tokens = s.tokens := rfl
@[simp] theorem State.modHost_sel (s : State) (f) : (s.modHost f).sel = s.sel := rfl
@[simp] theorem State.modHost_index (s : State) (f) : (s.modHost f).index = s.index := rfl
@[simp] theorem State.modHost_pipes (s : State) (f) : (s.modHost f).pipes = s.pipes := rfl
@[simp] theorem State.modHost_media (s : State) (f) : (s.modHost f).media = s.media := rfl
@[simp] theorem State.modHost_ftl (s : State) (f) : (s.modHost f).ftl = s.ftl := rfl
@[simp] theorem State.modHost_span (s : State) (f) : (s.modHost f).span = s.span := rfl
@[simp] theorem State.modHost_upd (s : State) (f) : (s.modHost f).upd = s.upd := rfl

/-! ## `State.modAmp` -/

@[simp] theorem State.modAmp_pending (s : State) (f) : (s.modAmp f).pending = s.pending := rfl
@[simp] theorem State.modAmp_part (s : State) (f) : (s.modAmp f).part = s.part := rfl
@[simp] theorem State.modAmp_free (s : State) (f) : (s.modAmp f).free = s.free := rfl
@[simp] theorem State.modAmp_answer (s : State) (f) : (s.modAmp f).answer = s.answer := rfl
@[simp] theorem State.modAmp_mem (s : State) (f) : (s.modAmp f).mem = s.mem := rfl
@[simp] theorem State.modAmp_poison (s : State) (f) : (s.modAmp f).poison = s.poison := rfl
@[simp] theorem State.modAmp_undef (s : State) (f) : (s.modAmp f).undef = s.undef := rfl
@[simp] theorem State.modAmp_hostMem (s : State) (f) : (s.modAmp f).hostMem = s.hostMem := rfl
@[simp] theorem State.modAmp_fabric (s : State) (f) : (s.modAmp f).fabric = s.fabric := rfl
@[simp] theorem State.modAmp_host (s : State) (f) : (s.modAmp f).host = s.host := rfl
@[simp] theorem State.modAmp_amp (s : State) (f) : (s.modAmp f).amp = f s.amp := rfl
@[simp] theorem State.modAmp_faults (s : State) (f) : (s.modAmp f).faults = s.faults := rfl
@[simp] theorem State.modAmp_power (s : State) (f) : (s.modAmp f).power = s.power := rfl
@[simp] theorem State.modAmp_sec (s : State) (f) : (s.modAmp f).sec = s.sec := rfl
@[simp] theorem State.modAmp_mgmt (s : State) (f) : (s.modAmp f).mgmt = s.mgmt := rfl
@[simp] theorem State.modAmp_cl (s : State) (f) : (s.modAmp f).cl = s.cl := rfl
@[simp] theorem State.modAmp_sched (s : State) (f) : (s.modAmp f).sched = s.sched := rfl
@[simp] theorem State.modAmp_tiers (s : State) (f) : (s.modAmp f).tiers = s.tiers := rfl
@[simp] theorem State.modAmp_tokens (s : State) (f) : (s.modAmp f).tokens = s.tokens := rfl
@[simp] theorem State.modAmp_sel (s : State) (f) : (s.modAmp f).sel = s.sel := rfl
@[simp] theorem State.modAmp_index (s : State) (f) : (s.modAmp f).index = s.index := rfl
@[simp] theorem State.modAmp_pipes (s : State) (f) : (s.modAmp f).pipes = s.pipes := rfl
@[simp] theorem State.modAmp_media (s : State) (f) : (s.modAmp f).media = s.media := rfl
@[simp] theorem State.modAmp_ftl (s : State) (f) : (s.modAmp f).ftl = s.ftl := rfl
@[simp] theorem State.modAmp_span (s : State) (f) : (s.modAmp f).span = s.span := rfl
@[simp] theorem State.modAmp_upd (s : State) (f) : (s.modAmp f).upd = s.upd := rfl

/-! ## `State.modFaults` -/

@[simp] theorem State.modFaults_pending (s : State) (f) : (s.modFaults f).pending = s.pending := rfl
@[simp] theorem State.modFaults_part (s : State) (f) : (s.modFaults f).part = s.part := rfl
@[simp] theorem State.modFaults_free (s : State) (f) : (s.modFaults f).free = s.free := rfl
@[simp] theorem State.modFaults_answer (s : State) (f) : (s.modFaults f).answer = s.answer := rfl
@[simp] theorem State.modFaults_mem (s : State) (f) : (s.modFaults f).mem = s.mem := rfl
@[simp] theorem State.modFaults_poison (s : State) (f) : (s.modFaults f).poison = s.poison := rfl
@[simp] theorem State.modFaults_undef (s : State) (f) : (s.modFaults f).undef = s.undef := rfl
@[simp] theorem State.modFaults_hostMem (s : State) (f) : (s.modFaults f).hostMem = s.hostMem := rfl
@[simp] theorem State.modFaults_fabric (s : State) (f) : (s.modFaults f).fabric = s.fabric := rfl
@[simp] theorem State.modFaults_host (s : State) (f) : (s.modFaults f).host = s.host := rfl
@[simp] theorem State.modFaults_amp (s : State) (f) : (s.modFaults f).amp = s.amp := rfl
@[simp] theorem State.modFaults_faults (s : State) (f) : (s.modFaults f).faults = f s.faults := rfl
@[simp] theorem State.modFaults_power (s : State) (f) : (s.modFaults f).power = s.power := rfl
@[simp] theorem State.modFaults_sec (s : State) (f) : (s.modFaults f).sec = s.sec := rfl
@[simp] theorem State.modFaults_mgmt (s : State) (f) : (s.modFaults f).mgmt = s.mgmt := rfl
@[simp] theorem State.modFaults_cl (s : State) (f) : (s.modFaults f).cl = s.cl := rfl
@[simp] theorem State.modFaults_sched (s : State) (f) : (s.modFaults f).sched = s.sched := rfl
@[simp] theorem State.modFaults_tiers (s : State) (f) : (s.modFaults f).tiers = s.tiers := rfl
@[simp] theorem State.modFaults_tokens (s : State) (f) : (s.modFaults f).tokens = s.tokens := rfl
@[simp] theorem State.modFaults_sel (s : State) (f) : (s.modFaults f).sel = s.sel := rfl
@[simp] theorem State.modFaults_index (s : State) (f) : (s.modFaults f).index = s.index := rfl
@[simp] theorem State.modFaults_pipes (s : State) (f) : (s.modFaults f).pipes = s.pipes := rfl
@[simp] theorem State.modFaults_media (s : State) (f) : (s.modFaults f).media = s.media := rfl
@[simp] theorem State.modFaults_ftl (s : State) (f) : (s.modFaults f).ftl = s.ftl := rfl
@[simp] theorem State.modFaults_span (s : State) (f) : (s.modFaults f).span = s.span := rfl
@[simp] theorem State.modFaults_upd (s : State) (f) : (s.modFaults f).upd = s.upd := rfl

/-! ## `State.modPower` -/

@[simp] theorem State.modPower_pending (s : State) (f) : (s.modPower f).pending = s.pending := rfl
@[simp] theorem State.modPower_part (s : State) (f) : (s.modPower f).part = s.part := rfl
@[simp] theorem State.modPower_free (s : State) (f) : (s.modPower f).free = s.free := rfl
@[simp] theorem State.modPower_answer (s : State) (f) : (s.modPower f).answer = s.answer := rfl
@[simp] theorem State.modPower_mem (s : State) (f) : (s.modPower f).mem = s.mem := rfl
@[simp] theorem State.modPower_poison (s : State) (f) : (s.modPower f).poison = s.poison := rfl
@[simp] theorem State.modPower_undef (s : State) (f) : (s.modPower f).undef = s.undef := rfl
@[simp] theorem State.modPower_hostMem (s : State) (f) : (s.modPower f).hostMem = s.hostMem := rfl
@[simp] theorem State.modPower_fabric (s : State) (f) : (s.modPower f).fabric = s.fabric := rfl
@[simp] theorem State.modPower_host (s : State) (f) : (s.modPower f).host = s.host := rfl
@[simp] theorem State.modPower_amp (s : State) (f) : (s.modPower f).amp = s.amp := rfl
@[simp] theorem State.modPower_faults (s : State) (f) : (s.modPower f).faults = s.faults := rfl
@[simp] theorem State.modPower_power (s : State) (f) : (s.modPower f).power = f s.power := rfl
@[simp] theorem State.modPower_sec (s : State) (f) : (s.modPower f).sec = s.sec := rfl
@[simp] theorem State.modPower_mgmt (s : State) (f) : (s.modPower f).mgmt = s.mgmt := rfl
@[simp] theorem State.modPower_cl (s : State) (f) : (s.modPower f).cl = s.cl := rfl
@[simp] theorem State.modPower_sched (s : State) (f) : (s.modPower f).sched = s.sched := rfl
@[simp] theorem State.modPower_tiers (s : State) (f) : (s.modPower f).tiers = s.tiers := rfl
@[simp] theorem State.modPower_tokens (s : State) (f) : (s.modPower f).tokens = s.tokens := rfl
@[simp] theorem State.modPower_sel (s : State) (f) : (s.modPower f).sel = s.sel := rfl
@[simp] theorem State.modPower_index (s : State) (f) : (s.modPower f).index = s.index := rfl
@[simp] theorem State.modPower_pipes (s : State) (f) : (s.modPower f).pipes = s.pipes := rfl
@[simp] theorem State.modPower_media (s : State) (f) : (s.modPower f).media = s.media := rfl
@[simp] theorem State.modPower_ftl (s : State) (f) : (s.modPower f).ftl = s.ftl := rfl
@[simp] theorem State.modPower_span (s : State) (f) : (s.modPower f).span = s.span := rfl
@[simp] theorem State.modPower_upd (s : State) (f) : (s.modPower f).upd = s.upd := rfl

/-! ## `State.modSec` -/

@[simp] theorem State.modSec_pending (s : State) (f) : (s.modSec f).pending = s.pending := rfl
@[simp] theorem State.modSec_part (s : State) (f) : (s.modSec f).part = s.part := rfl
@[simp] theorem State.modSec_free (s : State) (f) : (s.modSec f).free = s.free := rfl
@[simp] theorem State.modSec_answer (s : State) (f) : (s.modSec f).answer = s.answer := rfl
@[simp] theorem State.modSec_mem (s : State) (f) : (s.modSec f).mem = s.mem := rfl
@[simp] theorem State.modSec_poison (s : State) (f) : (s.modSec f).poison = s.poison := rfl
@[simp] theorem State.modSec_undef (s : State) (f) : (s.modSec f).undef = s.undef := rfl
@[simp] theorem State.modSec_hostMem (s : State) (f) : (s.modSec f).hostMem = s.hostMem := rfl
@[simp] theorem State.modSec_fabric (s : State) (f) : (s.modSec f).fabric = s.fabric := rfl
@[simp] theorem State.modSec_host (s : State) (f) : (s.modSec f).host = s.host := rfl
@[simp] theorem State.modSec_amp (s : State) (f) : (s.modSec f).amp = s.amp := rfl
@[simp] theorem State.modSec_faults (s : State) (f) : (s.modSec f).faults = s.faults := rfl
@[simp] theorem State.modSec_power (s : State) (f) : (s.modSec f).power = s.power := rfl
@[simp] theorem State.modSec_sec (s : State) (f) : (s.modSec f).sec = f s.sec := rfl
@[simp] theorem State.modSec_mgmt (s : State) (f) : (s.modSec f).mgmt = s.mgmt := rfl
@[simp] theorem State.modSec_cl (s : State) (f) : (s.modSec f).cl = s.cl := rfl
@[simp] theorem State.modSec_sched (s : State) (f) : (s.modSec f).sched = s.sched := rfl
@[simp] theorem State.modSec_tiers (s : State) (f) : (s.modSec f).tiers = s.tiers := rfl
@[simp] theorem State.modSec_tokens (s : State) (f) : (s.modSec f).tokens = s.tokens := rfl
@[simp] theorem State.modSec_sel (s : State) (f) : (s.modSec f).sel = s.sel := rfl
@[simp] theorem State.modSec_index (s : State) (f) : (s.modSec f).index = s.index := rfl
@[simp] theorem State.modSec_pipes (s : State) (f) : (s.modSec f).pipes = s.pipes := rfl
@[simp] theorem State.modSec_media (s : State) (f) : (s.modSec f).media = s.media := rfl
@[simp] theorem State.modSec_ftl (s : State) (f) : (s.modSec f).ftl = s.ftl := rfl
@[simp] theorem State.modSec_span (s : State) (f) : (s.modSec f).span = s.span := rfl
@[simp] theorem State.modSec_upd (s : State) (f) : (s.modSec f).upd = s.upd := rfl

/-! ## `State.modMgmt` -/

@[simp] theorem State.modMgmt_pending (s : State) (f) : (s.modMgmt f).pending = s.pending := rfl
@[simp] theorem State.modMgmt_part (s : State) (f) : (s.modMgmt f).part = s.part := rfl
@[simp] theorem State.modMgmt_free (s : State) (f) : (s.modMgmt f).free = s.free := rfl
@[simp] theorem State.modMgmt_answer (s : State) (f) : (s.modMgmt f).answer = s.answer := rfl
@[simp] theorem State.modMgmt_mem (s : State) (f) : (s.modMgmt f).mem = s.mem := rfl
@[simp] theorem State.modMgmt_poison (s : State) (f) : (s.modMgmt f).poison = s.poison := rfl
@[simp] theorem State.modMgmt_undef (s : State) (f) : (s.modMgmt f).undef = s.undef := rfl
@[simp] theorem State.modMgmt_hostMem (s : State) (f) : (s.modMgmt f).hostMem = s.hostMem := rfl
@[simp] theorem State.modMgmt_fabric (s : State) (f) : (s.modMgmt f).fabric = s.fabric := rfl
@[simp] theorem State.modMgmt_host (s : State) (f) : (s.modMgmt f).host = s.host := rfl
@[simp] theorem State.modMgmt_amp (s : State) (f) : (s.modMgmt f).amp = s.amp := rfl
@[simp] theorem State.modMgmt_faults (s : State) (f) : (s.modMgmt f).faults = s.faults := rfl
@[simp] theorem State.modMgmt_power (s : State) (f) : (s.modMgmt f).power = s.power := rfl
@[simp] theorem State.modMgmt_sec (s : State) (f) : (s.modMgmt f).sec = s.sec := rfl
@[simp] theorem State.modMgmt_mgmt (s : State) (f) : (s.modMgmt f).mgmt = f s.mgmt := rfl
@[simp] theorem State.modMgmt_cl (s : State) (f) : (s.modMgmt f).cl = s.cl := rfl
@[simp] theorem State.modMgmt_sched (s : State) (f) : (s.modMgmt f).sched = s.sched := rfl
@[simp] theorem State.modMgmt_tiers (s : State) (f) : (s.modMgmt f).tiers = s.tiers := rfl
@[simp] theorem State.modMgmt_tokens (s : State) (f) : (s.modMgmt f).tokens = s.tokens := rfl
@[simp] theorem State.modMgmt_sel (s : State) (f) : (s.modMgmt f).sel = s.sel := rfl
@[simp] theorem State.modMgmt_index (s : State) (f) : (s.modMgmt f).index = s.index := rfl
@[simp] theorem State.modMgmt_pipes (s : State) (f) : (s.modMgmt f).pipes = s.pipes := rfl
@[simp] theorem State.modMgmt_media (s : State) (f) : (s.modMgmt f).media = s.media := rfl
@[simp] theorem State.modMgmt_ftl (s : State) (f) : (s.modMgmt f).ftl = s.ftl := rfl
@[simp] theorem State.modMgmt_span (s : State) (f) : (s.modMgmt f).span = s.span := rfl
@[simp] theorem State.modMgmt_upd (s : State) (f) : (s.modMgmt f).upd = s.upd := rfl

/-! ## `State.modSched` -/

@[simp] theorem State.modSched_pending (s : State) (f) : (s.modSched f).pending = s.pending := rfl
@[simp] theorem State.modSched_part (s : State) (f) : (s.modSched f).part = s.part := rfl
@[simp] theorem State.modSched_free (s : State) (f) : (s.modSched f).free = s.free := rfl
@[simp] theorem State.modSched_answer (s : State) (f) : (s.modSched f).answer = s.answer := rfl
@[simp] theorem State.modSched_mem (s : State) (f) : (s.modSched f).mem = s.mem := rfl
@[simp] theorem State.modSched_poison (s : State) (f) : (s.modSched f).poison = s.poison := rfl
@[simp] theorem State.modSched_undef (s : State) (f) : (s.modSched f).undef = s.undef := rfl
@[simp] theorem State.modSched_hostMem (s : State) (f) : (s.modSched f).hostMem = s.hostMem := rfl
@[simp] theorem State.modSched_fabric (s : State) (f) : (s.modSched f).fabric = s.fabric := rfl
@[simp] theorem State.modSched_host (s : State) (f) : (s.modSched f).host = s.host := rfl
@[simp] theorem State.modSched_amp (s : State) (f) : (s.modSched f).amp = s.amp := rfl
@[simp] theorem State.modSched_faults (s : State) (f) : (s.modSched f).faults = s.faults := rfl
@[simp] theorem State.modSched_power (s : State) (f) : (s.modSched f).power = s.power := rfl
@[simp] theorem State.modSched_sec (s : State) (f) : (s.modSched f).sec = s.sec := rfl
@[simp] theorem State.modSched_mgmt (s : State) (f) : (s.modSched f).mgmt = s.mgmt := rfl
@[simp] theorem State.modSched_cl (s : State) (f) : (s.modSched f).cl = s.cl := rfl
@[simp] theorem State.modSched_sched (s : State) (f) : (s.modSched f).sched = f s.sched := rfl
@[simp] theorem State.modSched_tiers (s : State) (f) : (s.modSched f).tiers = s.tiers := rfl
@[simp] theorem State.modSched_tokens (s : State) (f) : (s.modSched f).tokens = s.tokens := rfl
@[simp] theorem State.modSched_sel (s : State) (f) : (s.modSched f).sel = s.sel := rfl
@[simp] theorem State.modSched_index (s : State) (f) : (s.modSched f).index = s.index := rfl
@[simp] theorem State.modSched_pipes (s : State) (f) : (s.modSched f).pipes = s.pipes := rfl
@[simp] theorem State.modSched_media (s : State) (f) : (s.modSched f).media = s.media := rfl
@[simp] theorem State.modSched_ftl (s : State) (f) : (s.modSched f).ftl = s.ftl := rfl
@[simp] theorem State.modSched_span (s : State) (f) : (s.modSched f).span = s.span := rfl
@[simp] theorem State.modSched_upd (s : State) (f) : (s.modSched f).upd = s.upd := rfl

/-! ## `State.modTiers` -/

@[simp] theorem State.modTiers_pending (s : State) (f) : (s.modTiers f).pending = s.pending := rfl
@[simp] theorem State.modTiers_part (s : State) (f) : (s.modTiers f).part = s.part := rfl
@[simp] theorem State.modTiers_free (s : State) (f) : (s.modTiers f).free = s.free := rfl
@[simp] theorem State.modTiers_answer (s : State) (f) : (s.modTiers f).answer = s.answer := rfl
@[simp] theorem State.modTiers_mem (s : State) (f) : (s.modTiers f).mem = s.mem := rfl
@[simp] theorem State.modTiers_poison (s : State) (f) : (s.modTiers f).poison = s.poison := rfl
@[simp] theorem State.modTiers_undef (s : State) (f) : (s.modTiers f).undef = s.undef := rfl
@[simp] theorem State.modTiers_hostMem (s : State) (f) : (s.modTiers f).hostMem = s.hostMem := rfl
@[simp] theorem State.modTiers_fabric (s : State) (f) : (s.modTiers f).fabric = s.fabric := rfl
@[simp] theorem State.modTiers_host (s : State) (f) : (s.modTiers f).host = s.host := rfl
@[simp] theorem State.modTiers_amp (s : State) (f) : (s.modTiers f).amp = s.amp := rfl
@[simp] theorem State.modTiers_faults (s : State) (f) : (s.modTiers f).faults = s.faults := rfl
@[simp] theorem State.modTiers_power (s : State) (f) : (s.modTiers f).power = s.power := rfl
@[simp] theorem State.modTiers_sec (s : State) (f) : (s.modTiers f).sec = s.sec := rfl
@[simp] theorem State.modTiers_mgmt (s : State) (f) : (s.modTiers f).mgmt = s.mgmt := rfl
@[simp] theorem State.modTiers_cl (s : State) (f) : (s.modTiers f).cl = s.cl := rfl
@[simp] theorem State.modTiers_sched (s : State) (f) : (s.modTiers f).sched = s.sched := rfl
@[simp] theorem State.modTiers_tiers (s : State) (f) : (s.modTiers f).tiers = f s.tiers := rfl
@[simp] theorem State.modTiers_tokens (s : State) (f) : (s.modTiers f).tokens = s.tokens := rfl
@[simp] theorem State.modTiers_sel (s : State) (f) : (s.modTiers f).sel = s.sel := rfl
@[simp] theorem State.modTiers_index (s : State) (f) : (s.modTiers f).index = s.index := rfl
@[simp] theorem State.modTiers_pipes (s : State) (f) : (s.modTiers f).pipes = s.pipes := rfl
@[simp] theorem State.modTiers_media (s : State) (f) : (s.modTiers f).media = s.media := rfl
@[simp] theorem State.modTiers_ftl (s : State) (f) : (s.modTiers f).ftl = s.ftl := rfl
@[simp] theorem State.modTiers_span (s : State) (f) : (s.modTiers f).span = s.span := rfl
@[simp] theorem State.modTiers_upd (s : State) (f) : (s.modTiers f).upd = s.upd := rfl

/-! ## `State.modTokens` -/

@[simp] theorem State.modTokens_pending (s : State) (f) : (s.modTokens f).pending = s.pending := rfl
@[simp] theorem State.modTokens_part (s : State) (f) : (s.modTokens f).part = s.part := rfl
@[simp] theorem State.modTokens_free (s : State) (f) : (s.modTokens f).free = s.free := rfl
@[simp] theorem State.modTokens_answer (s : State) (f) : (s.modTokens f).answer = s.answer := rfl
@[simp] theorem State.modTokens_mem (s : State) (f) : (s.modTokens f).mem = s.mem := rfl
@[simp] theorem State.modTokens_poison (s : State) (f) : (s.modTokens f).poison = s.poison := rfl
@[simp] theorem State.modTokens_undef (s : State) (f) : (s.modTokens f).undef = s.undef := rfl
@[simp] theorem State.modTokens_hostMem (s : State) (f) : (s.modTokens f).hostMem = s.hostMem := rfl
@[simp] theorem State.modTokens_fabric (s : State) (f) : (s.modTokens f).fabric = s.fabric := rfl
@[simp] theorem State.modTokens_host (s : State) (f) : (s.modTokens f).host = s.host := rfl
@[simp] theorem State.modTokens_amp (s : State) (f) : (s.modTokens f).amp = s.amp := rfl
@[simp] theorem State.modTokens_faults (s : State) (f) : (s.modTokens f).faults = s.faults := rfl
@[simp] theorem State.modTokens_power (s : State) (f) : (s.modTokens f).power = s.power := rfl
@[simp] theorem State.modTokens_sec (s : State) (f) : (s.modTokens f).sec = s.sec := rfl
@[simp] theorem State.modTokens_mgmt (s : State) (f) : (s.modTokens f).mgmt = s.mgmt := rfl
@[simp] theorem State.modTokens_cl (s : State) (f) : (s.modTokens f).cl = s.cl := rfl
@[simp] theorem State.modTokens_sched (s : State) (f) : (s.modTokens f).sched = s.sched := rfl
@[simp] theorem State.modTokens_tiers (s : State) (f) : (s.modTokens f).tiers = s.tiers := rfl
@[simp] theorem State.modTokens_tokens (s : State) (f) : (s.modTokens f).tokens = f s.tokens := rfl
@[simp] theorem State.modTokens_sel (s : State) (f) : (s.modTokens f).sel = s.sel := rfl
@[simp] theorem State.modTokens_index (s : State) (f) : (s.modTokens f).index = s.index := rfl
@[simp] theorem State.modTokens_pipes (s : State) (f) : (s.modTokens f).pipes = s.pipes := rfl
@[simp] theorem State.modTokens_media (s : State) (f) : (s.modTokens f).media = s.media := rfl
@[simp] theorem State.modTokens_ftl (s : State) (f) : (s.modTokens f).ftl = s.ftl := rfl
@[simp] theorem State.modTokens_span (s : State) (f) : (s.modTokens f).span = s.span := rfl
@[simp] theorem State.modTokens_upd (s : State) (f) : (s.modTokens f).upd = s.upd := rfl

/-! ## `State.modSel` -/

@[simp] theorem State.modSel_pending (s : State) (f) : (s.modSel f).pending = s.pending := rfl
@[simp] theorem State.modSel_part (s : State) (f) : (s.modSel f).part = s.part := rfl
@[simp] theorem State.modSel_free (s : State) (f) : (s.modSel f).free = s.free := rfl
@[simp] theorem State.modSel_answer (s : State) (f) : (s.modSel f).answer = s.answer := rfl
@[simp] theorem State.modSel_mem (s : State) (f) : (s.modSel f).mem = s.mem := rfl
@[simp] theorem State.modSel_poison (s : State) (f) : (s.modSel f).poison = s.poison := rfl
@[simp] theorem State.modSel_undef (s : State) (f) : (s.modSel f).undef = s.undef := rfl
@[simp] theorem State.modSel_hostMem (s : State) (f) : (s.modSel f).hostMem = s.hostMem := rfl
@[simp] theorem State.modSel_fabric (s : State) (f) : (s.modSel f).fabric = s.fabric := rfl
@[simp] theorem State.modSel_host (s : State) (f) : (s.modSel f).host = s.host := rfl
@[simp] theorem State.modSel_amp (s : State) (f) : (s.modSel f).amp = s.amp := rfl
@[simp] theorem State.modSel_faults (s : State) (f) : (s.modSel f).faults = s.faults := rfl
@[simp] theorem State.modSel_power (s : State) (f) : (s.modSel f).power = s.power := rfl
@[simp] theorem State.modSel_sec (s : State) (f) : (s.modSel f).sec = s.sec := rfl
@[simp] theorem State.modSel_mgmt (s : State) (f) : (s.modSel f).mgmt = s.mgmt := rfl
@[simp] theorem State.modSel_cl (s : State) (f) : (s.modSel f).cl = s.cl := rfl
@[simp] theorem State.modSel_sched (s : State) (f) : (s.modSel f).sched = s.sched := rfl
@[simp] theorem State.modSel_tiers (s : State) (f) : (s.modSel f).tiers = s.tiers := rfl
@[simp] theorem State.modSel_tokens (s : State) (f) : (s.modSel f).tokens = s.tokens := rfl
@[simp] theorem State.modSel_sel (s : State) (f) : (s.modSel f).sel = f s.sel := rfl
@[simp] theorem State.modSel_index (s : State) (f) : (s.modSel f).index = s.index := rfl
@[simp] theorem State.modSel_pipes (s : State) (f) : (s.modSel f).pipes = s.pipes := rfl
@[simp] theorem State.modSel_media (s : State) (f) : (s.modSel f).media = s.media := rfl
@[simp] theorem State.modSel_ftl (s : State) (f) : (s.modSel f).ftl = s.ftl := rfl
@[simp] theorem State.modSel_span (s : State) (f) : (s.modSel f).span = s.span := rfl
@[simp] theorem State.modSel_upd (s : State) (f) : (s.modSel f).upd = s.upd := rfl

/-! ## `State.modIndex` -/

@[simp] theorem State.modIndex_pending (s : State) (f) : (s.modIndex f).pending = s.pending := rfl
@[simp] theorem State.modIndex_part (s : State) (f) : (s.modIndex f).part = s.part := rfl
@[simp] theorem State.modIndex_free (s : State) (f) : (s.modIndex f).free = s.free := rfl
@[simp] theorem State.modIndex_answer (s : State) (f) : (s.modIndex f).answer = s.answer := rfl
@[simp] theorem State.modIndex_mem (s : State) (f) : (s.modIndex f).mem = s.mem := rfl
@[simp] theorem State.modIndex_poison (s : State) (f) : (s.modIndex f).poison = s.poison := rfl
@[simp] theorem State.modIndex_undef (s : State) (f) : (s.modIndex f).undef = s.undef := rfl
@[simp] theorem State.modIndex_hostMem (s : State) (f) : (s.modIndex f).hostMem = s.hostMem := rfl
@[simp] theorem State.modIndex_fabric (s : State) (f) : (s.modIndex f).fabric = s.fabric := rfl
@[simp] theorem State.modIndex_host (s : State) (f) : (s.modIndex f).host = s.host := rfl
@[simp] theorem State.modIndex_amp (s : State) (f) : (s.modIndex f).amp = s.amp := rfl
@[simp] theorem State.modIndex_faults (s : State) (f) : (s.modIndex f).faults = s.faults := rfl
@[simp] theorem State.modIndex_power (s : State) (f) : (s.modIndex f).power = s.power := rfl
@[simp] theorem State.modIndex_sec (s : State) (f) : (s.modIndex f).sec = s.sec := rfl
@[simp] theorem State.modIndex_mgmt (s : State) (f) : (s.modIndex f).mgmt = s.mgmt := rfl
@[simp] theorem State.modIndex_cl (s : State) (f) : (s.modIndex f).cl = s.cl := rfl
@[simp] theorem State.modIndex_sched (s : State) (f) : (s.modIndex f).sched = s.sched := rfl
@[simp] theorem State.modIndex_tiers (s : State) (f) : (s.modIndex f).tiers = s.tiers := rfl
@[simp] theorem State.modIndex_tokens (s : State) (f) : (s.modIndex f).tokens = s.tokens := rfl
@[simp] theorem State.modIndex_sel (s : State) (f) : (s.modIndex f).sel = s.sel := rfl
@[simp] theorem State.modIndex_index (s : State) (f) : (s.modIndex f).index = f s.index := rfl
@[simp] theorem State.modIndex_pipes (s : State) (f) : (s.modIndex f).pipes = s.pipes := rfl
@[simp] theorem State.modIndex_media (s : State) (f) : (s.modIndex f).media = s.media := rfl
@[simp] theorem State.modIndex_ftl (s : State) (f) : (s.modIndex f).ftl = s.ftl := rfl
@[simp] theorem State.modIndex_span (s : State) (f) : (s.modIndex f).span = s.span := rfl
@[simp] theorem State.modIndex_upd (s : State) (f) : (s.modIndex f).upd = s.upd := rfl

/-! ## `State.modPipes` -/

@[simp] theorem State.modPipes_pending (s : State) (f) : (s.modPipes f).pending = s.pending := rfl
@[simp] theorem State.modPipes_part (s : State) (f) : (s.modPipes f).part = s.part := rfl
@[simp] theorem State.modPipes_free (s : State) (f) : (s.modPipes f).free = s.free := rfl
@[simp] theorem State.modPipes_answer (s : State) (f) : (s.modPipes f).answer = s.answer := rfl
@[simp] theorem State.modPipes_mem (s : State) (f) : (s.modPipes f).mem = s.mem := rfl
@[simp] theorem State.modPipes_poison (s : State) (f) : (s.modPipes f).poison = s.poison := rfl
@[simp] theorem State.modPipes_undef (s : State) (f) : (s.modPipes f).undef = s.undef := rfl
@[simp] theorem State.modPipes_hostMem (s : State) (f) : (s.modPipes f).hostMem = s.hostMem := rfl
@[simp] theorem State.modPipes_fabric (s : State) (f) : (s.modPipes f).fabric = s.fabric := rfl
@[simp] theorem State.modPipes_host (s : State) (f) : (s.modPipes f).host = s.host := rfl
@[simp] theorem State.modPipes_amp (s : State) (f) : (s.modPipes f).amp = s.amp := rfl
@[simp] theorem State.modPipes_faults (s : State) (f) : (s.modPipes f).faults = s.faults := rfl
@[simp] theorem State.modPipes_power (s : State) (f) : (s.modPipes f).power = s.power := rfl
@[simp] theorem State.modPipes_sec (s : State) (f) : (s.modPipes f).sec = s.sec := rfl
@[simp] theorem State.modPipes_mgmt (s : State) (f) : (s.modPipes f).mgmt = s.mgmt := rfl
@[simp] theorem State.modPipes_cl (s : State) (f) : (s.modPipes f).cl = s.cl := rfl
@[simp] theorem State.modPipes_sched (s : State) (f) : (s.modPipes f).sched = s.sched := rfl
@[simp] theorem State.modPipes_tiers (s : State) (f) : (s.modPipes f).tiers = s.tiers := rfl
@[simp] theorem State.modPipes_tokens (s : State) (f) : (s.modPipes f).tokens = s.tokens := rfl
@[simp] theorem State.modPipes_sel (s : State) (f) : (s.modPipes f).sel = s.sel := rfl
@[simp] theorem State.modPipes_index (s : State) (f) : (s.modPipes f).index = s.index := rfl
@[simp] theorem State.modPipes_pipes (s : State) (f) : (s.modPipes f).pipes = f s.pipes := rfl
@[simp] theorem State.modPipes_media (s : State) (f) : (s.modPipes f).media = s.media := rfl
@[simp] theorem State.modPipes_ftl (s : State) (f) : (s.modPipes f).ftl = s.ftl := rfl
@[simp] theorem State.modPipes_span (s : State) (f) : (s.modPipes f).span = s.span := rfl
@[simp] theorem State.modPipes_upd (s : State) (f) : (s.modPipes f).upd = s.upd := rfl

/-! ## `State.modMedia` -/

@[simp] theorem State.modMedia_pending (s : State) (f) : (s.modMedia f).pending = s.pending := rfl
@[simp] theorem State.modMedia_part (s : State) (f) : (s.modMedia f).part = s.part := rfl
@[simp] theorem State.modMedia_free (s : State) (f) : (s.modMedia f).free = s.free := rfl
@[simp] theorem State.modMedia_answer (s : State) (f) : (s.modMedia f).answer = s.answer := rfl
@[simp] theorem State.modMedia_mem (s : State) (f) : (s.modMedia f).mem = s.mem := rfl
@[simp] theorem State.modMedia_poison (s : State) (f) : (s.modMedia f).poison = s.poison := rfl
@[simp] theorem State.modMedia_undef (s : State) (f) : (s.modMedia f).undef = s.undef := rfl
@[simp] theorem State.modMedia_hostMem (s : State) (f) : (s.modMedia f).hostMem = s.hostMem := rfl
@[simp] theorem State.modMedia_fabric (s : State) (f) : (s.modMedia f).fabric = s.fabric := rfl
@[simp] theorem State.modMedia_host (s : State) (f) : (s.modMedia f).host = s.host := rfl
@[simp] theorem State.modMedia_amp (s : State) (f) : (s.modMedia f).amp = s.amp := rfl
@[simp] theorem State.modMedia_faults (s : State) (f) : (s.modMedia f).faults = s.faults := rfl
@[simp] theorem State.modMedia_power (s : State) (f) : (s.modMedia f).power = s.power := rfl
@[simp] theorem State.modMedia_sec (s : State) (f) : (s.modMedia f).sec = s.sec := rfl
@[simp] theorem State.modMedia_mgmt (s : State) (f) : (s.modMedia f).mgmt = s.mgmt := rfl
@[simp] theorem State.modMedia_cl (s : State) (f) : (s.modMedia f).cl = s.cl := rfl
@[simp] theorem State.modMedia_sched (s : State) (f) : (s.modMedia f).sched = s.sched := rfl
@[simp] theorem State.modMedia_tiers (s : State) (f) : (s.modMedia f).tiers = s.tiers := rfl
@[simp] theorem State.modMedia_tokens (s : State) (f) : (s.modMedia f).tokens = s.tokens := rfl
@[simp] theorem State.modMedia_sel (s : State) (f) : (s.modMedia f).sel = s.sel := rfl
@[simp] theorem State.modMedia_index (s : State) (f) : (s.modMedia f).index = s.index := rfl
@[simp] theorem State.modMedia_pipes (s : State) (f) : (s.modMedia f).pipes = s.pipes := rfl
@[simp] theorem State.modMedia_media (s : State) (f) : (s.modMedia f).media = f s.media := rfl
@[simp] theorem State.modMedia_ftl (s : State) (f) : (s.modMedia f).ftl = s.ftl := rfl
@[simp] theorem State.modMedia_span (s : State) (f) : (s.modMedia f).span = s.span := rfl
@[simp] theorem State.modMedia_upd (s : State) (f) : (s.modMedia f).upd = s.upd := rfl

/-! ## `State.modFtl` -/

@[simp] theorem State.modFtl_pending (s : State) (f) : (s.modFtl f).pending = s.pending := rfl
@[simp] theorem State.modFtl_part (s : State) (f) : (s.modFtl f).part = s.part := rfl
@[simp] theorem State.modFtl_free (s : State) (f) : (s.modFtl f).free = s.free := rfl
@[simp] theorem State.modFtl_answer (s : State) (f) : (s.modFtl f).answer = s.answer := rfl
@[simp] theorem State.modFtl_mem (s : State) (f) : (s.modFtl f).mem = s.mem := rfl
@[simp] theorem State.modFtl_poison (s : State) (f) : (s.modFtl f).poison = s.poison := rfl
@[simp] theorem State.modFtl_undef (s : State) (f) : (s.modFtl f).undef = s.undef := rfl
@[simp] theorem State.modFtl_hostMem (s : State) (f) : (s.modFtl f).hostMem = s.hostMem := rfl
@[simp] theorem State.modFtl_fabric (s : State) (f) : (s.modFtl f).fabric = s.fabric := rfl
@[simp] theorem State.modFtl_host (s : State) (f) : (s.modFtl f).host = s.host := rfl
@[simp] theorem State.modFtl_amp (s : State) (f) : (s.modFtl f).amp = s.amp := rfl
@[simp] theorem State.modFtl_faults (s : State) (f) : (s.modFtl f).faults = s.faults := rfl
@[simp] theorem State.modFtl_power (s : State) (f) : (s.modFtl f).power = s.power := rfl
@[simp] theorem State.modFtl_sec (s : State) (f) : (s.modFtl f).sec = s.sec := rfl
@[simp] theorem State.modFtl_mgmt (s : State) (f) : (s.modFtl f).mgmt = s.mgmt := rfl
@[simp] theorem State.modFtl_cl (s : State) (f) : (s.modFtl f).cl = s.cl := rfl
@[simp] theorem State.modFtl_sched (s : State) (f) : (s.modFtl f).sched = s.sched := rfl
@[simp] theorem State.modFtl_tiers (s : State) (f) : (s.modFtl f).tiers = s.tiers := rfl
@[simp] theorem State.modFtl_tokens (s : State) (f) : (s.modFtl f).tokens = s.tokens := rfl
@[simp] theorem State.modFtl_sel (s : State) (f) : (s.modFtl f).sel = s.sel := rfl
@[simp] theorem State.modFtl_index (s : State) (f) : (s.modFtl f).index = s.index := rfl
@[simp] theorem State.modFtl_pipes (s : State) (f) : (s.modFtl f).pipes = s.pipes := rfl
@[simp] theorem State.modFtl_media (s : State) (f) : (s.modFtl f).media = s.media := rfl
@[simp] theorem State.modFtl_ftl (s : State) (f) : (s.modFtl f).ftl = f s.ftl := rfl
@[simp] theorem State.modFtl_span (s : State) (f) : (s.modFtl f).span = s.span := rfl
@[simp] theorem State.modFtl_upd (s : State) (f) : (s.modFtl f).upd = s.upd := rfl

/-! ## `State.modSpan` -/

@[simp] theorem State.modSpan_pending (s : State) (f) : (s.modSpan f).pending = s.pending := rfl
@[simp] theorem State.modSpan_part (s : State) (f) : (s.modSpan f).part = s.part := rfl
@[simp] theorem State.modSpan_free (s : State) (f) : (s.modSpan f).free = s.free := rfl
@[simp] theorem State.modSpan_answer (s : State) (f) : (s.modSpan f).answer = s.answer := rfl
@[simp] theorem State.modSpan_mem (s : State) (f) : (s.modSpan f).mem = s.mem := rfl
@[simp] theorem State.modSpan_poison (s : State) (f) : (s.modSpan f).poison = s.poison := rfl
@[simp] theorem State.modSpan_undef (s : State) (f) : (s.modSpan f).undef = s.undef := rfl
@[simp] theorem State.modSpan_hostMem (s : State) (f) : (s.modSpan f).hostMem = s.hostMem := rfl
@[simp] theorem State.modSpan_fabric (s : State) (f) : (s.modSpan f).fabric = s.fabric := rfl
@[simp] theorem State.modSpan_host (s : State) (f) : (s.modSpan f).host = s.host := rfl
@[simp] theorem State.modSpan_amp (s : State) (f) : (s.modSpan f).amp = s.amp := rfl
@[simp] theorem State.modSpan_faults (s : State) (f) : (s.modSpan f).faults = s.faults := rfl
@[simp] theorem State.modSpan_power (s : State) (f) : (s.modSpan f).power = s.power := rfl
@[simp] theorem State.modSpan_sec (s : State) (f) : (s.modSpan f).sec = s.sec := rfl
@[simp] theorem State.modSpan_mgmt (s : State) (f) : (s.modSpan f).mgmt = s.mgmt := rfl
@[simp] theorem State.modSpan_cl (s : State) (f) : (s.modSpan f).cl = s.cl := rfl
@[simp] theorem State.modSpan_sched (s : State) (f) : (s.modSpan f).sched = s.sched := rfl
@[simp] theorem State.modSpan_tiers (s : State) (f) : (s.modSpan f).tiers = s.tiers := rfl
@[simp] theorem State.modSpan_tokens (s : State) (f) : (s.modSpan f).tokens = s.tokens := rfl
@[simp] theorem State.modSpan_sel (s : State) (f) : (s.modSpan f).sel = s.sel := rfl
@[simp] theorem State.modSpan_index (s : State) (f) : (s.modSpan f).index = s.index := rfl
@[simp] theorem State.modSpan_pipes (s : State) (f) : (s.modSpan f).pipes = s.pipes := rfl
@[simp] theorem State.modSpan_media (s : State) (f) : (s.modSpan f).media = s.media := rfl
@[simp] theorem State.modSpan_ftl (s : State) (f) : (s.modSpan f).ftl = s.ftl := rfl
@[simp] theorem State.modSpan_span (s : State) (f) : (s.modSpan f).span = f s.span := rfl
@[simp] theorem State.modSpan_upd (s : State) (f) : (s.modSpan f).upd = s.upd := rfl

/-! ## `State.modUpd` -/

@[simp] theorem State.modUpd_pending (s : State) (f) : (s.modUpd f).pending = s.pending := rfl
@[simp] theorem State.modUpd_part (s : State) (f) : (s.modUpd f).part = s.part := rfl
@[simp] theorem State.modUpd_free (s : State) (f) : (s.modUpd f).free = s.free := rfl
@[simp] theorem State.modUpd_answer (s : State) (f) : (s.modUpd f).answer = s.answer := rfl
@[simp] theorem State.modUpd_mem (s : State) (f) : (s.modUpd f).mem = s.mem := rfl
@[simp] theorem State.modUpd_poison (s : State) (f) : (s.modUpd f).poison = s.poison := rfl
@[simp] theorem State.modUpd_undef (s : State) (f) : (s.modUpd f).undef = s.undef := rfl
@[simp] theorem State.modUpd_hostMem (s : State) (f) : (s.modUpd f).hostMem = s.hostMem := rfl
@[simp] theorem State.modUpd_fabric (s : State) (f) : (s.modUpd f).fabric = s.fabric := rfl
@[simp] theorem State.modUpd_host (s : State) (f) : (s.modUpd f).host = s.host := rfl
@[simp] theorem State.modUpd_amp (s : State) (f) : (s.modUpd f).amp = s.amp := rfl
@[simp] theorem State.modUpd_faults (s : State) (f) : (s.modUpd f).faults = s.faults := rfl
@[simp] theorem State.modUpd_power (s : State) (f) : (s.modUpd f).power = s.power := rfl
@[simp] theorem State.modUpd_sec (s : State) (f) : (s.modUpd f).sec = s.sec := rfl
@[simp] theorem State.modUpd_mgmt (s : State) (f) : (s.modUpd f).mgmt = s.mgmt := rfl
@[simp] theorem State.modUpd_cl (s : State) (f) : (s.modUpd f).cl = s.cl := rfl
@[simp] theorem State.modUpd_sched (s : State) (f) : (s.modUpd f).sched = s.sched := rfl
@[simp] theorem State.modUpd_tiers (s : State) (f) : (s.modUpd f).tiers = s.tiers := rfl
@[simp] theorem State.modUpd_tokens (s : State) (f) : (s.modUpd f).tokens = s.tokens := rfl
@[simp] theorem State.modUpd_sel (s : State) (f) : (s.modUpd f).sel = s.sel := rfl
@[simp] theorem State.modUpd_index (s : State) (f) : (s.modUpd f).index = s.index := rfl
@[simp] theorem State.modUpd_pipes (s : State) (f) : (s.modUpd f).pipes = s.pipes := rfl
@[simp] theorem State.modUpd_media (s : State) (f) : (s.modUpd f).media = s.media := rfl
@[simp] theorem State.modUpd_ftl (s : State) (f) : (s.modUpd f).ftl = s.ftl := rfl
@[simp] theorem State.modUpd_span (s : State) (f) : (s.modUpd f).span = s.span := rfl
@[simp] theorem State.modUpd_upd (s : State) (f) : (s.modUpd f).upd = f s.upd := rfl

/-! ## `State.modCl` -/

@[simp] theorem State.modCl_pending (s : State) (g : Nat) (f : Cluster → Cluster) : (s.modCl g f).pending = s.pending := rfl
@[simp] theorem State.modCl_part (s : State) (g : Nat) (f : Cluster → Cluster) : (s.modCl g f).part = s.part := rfl
@[simp] theorem State.modCl_free (s : State) (g : Nat) (f : Cluster → Cluster) : (s.modCl g f).free = s.free := rfl
@[simp] theorem State.modCl_answer (s : State) (g : Nat) (f : Cluster → Cluster) : (s.modCl g f).answer = s.answer := rfl
@[simp] theorem State.modCl_mem (s : State) (g : Nat) (f : Cluster → Cluster) : (s.modCl g f).mem = s.mem := rfl
@[simp] theorem State.modCl_poison (s : State) (g : Nat) (f : Cluster → Cluster) : (s.modCl g f).poison = s.poison := rfl
@[simp] theorem State.modCl_undef (s : State) (g : Nat) (f : Cluster → Cluster) : (s.modCl g f).undef = s.undef := rfl
@[simp] theorem State.modCl_hostMem (s : State) (g : Nat) (f : Cluster → Cluster) : (s.modCl g f).hostMem = s.hostMem := rfl
@[simp] theorem State.modCl_fabric (s : State) (g : Nat) (f : Cluster → Cluster) : (s.modCl g f).fabric = s.fabric := rfl
@[simp] theorem State.modCl_host (s : State) (g : Nat) (f : Cluster → Cluster) : (s.modCl g f).host = s.host := rfl
@[simp] theorem State.modCl_amp (s : State) (g : Nat) (f : Cluster → Cluster) : (s.modCl g f).amp = s.amp := rfl
@[simp] theorem State.modCl_faults (s : State) (g : Nat) (f : Cluster → Cluster) : (s.modCl g f).faults = s.faults := rfl
@[simp] theorem State.modCl_power (s : State) (g : Nat) (f : Cluster → Cluster) : (s.modCl g f).power = s.power := rfl
@[simp] theorem State.modCl_sec (s : State) (g : Nat) (f : Cluster → Cluster) : (s.modCl g f).sec = s.sec := rfl
@[simp] theorem State.modCl_mgmt (s : State) (g : Nat) (f : Cluster → Cluster) : (s.modCl g f).mgmt = s.mgmt := rfl
@[simp] theorem State.modCl_cl (s : State) (g : Nat) (f : Cluster → Cluster) : (s.modCl g f).cl = Tab.mod {} s.cl g f := rfl
@[simp] theorem State.modCl_sched (s : State) (g : Nat) (f : Cluster → Cluster) : (s.modCl g f).sched = s.sched := rfl
@[simp] theorem State.modCl_tiers (s : State) (g : Nat) (f : Cluster → Cluster) : (s.modCl g f).tiers = s.tiers := rfl
@[simp] theorem State.modCl_tokens (s : State) (g : Nat) (f : Cluster → Cluster) : (s.modCl g f).tokens = s.tokens := rfl
@[simp] theorem State.modCl_sel (s : State) (g : Nat) (f : Cluster → Cluster) : (s.modCl g f).sel = s.sel := rfl
@[simp] theorem State.modCl_index (s : State) (g : Nat) (f : Cluster → Cluster) : (s.modCl g f).index = s.index := rfl
@[simp] theorem State.modCl_pipes (s : State) (g : Nat) (f : Cluster → Cluster) : (s.modCl g f).pipes = s.pipes := rfl
@[simp] theorem State.modCl_media (s : State) (g : Nat) (f : Cluster → Cluster) : (s.modCl g f).media = s.media := rfl
@[simp] theorem State.modCl_ftl (s : State) (g : Nat) (f : Cluster → Cluster) : (s.modCl g f).ftl = s.ftl := rfl
@[simp] theorem State.modCl_span (s : State) (g : Nat) (f : Cluster → Cluster) : (s.modCl g f).span = s.span := rfl
@[simp] theorem State.modCl_upd (s : State) (g : Nat) (f : Cluster → Cluster) : (s.modCl g f).upd = s.upd := rfl

/-! ## `State.reply` -/

@[simp] theorem State.reply_pending (s : State) (a : Answer) : (s.reply a).pending = s.pending := rfl
@[simp] theorem State.reply_part (s : State) (a : Answer) : (s.reply a).part = s.part := rfl
@[simp] theorem State.reply_free (s : State) (a : Answer) : (s.reply a).free = s.free := rfl
@[simp] theorem State.reply_answer (s : State) (a : Answer) : (s.reply a).answer = a := rfl
@[simp] theorem State.reply_mem (s : State) (a : Answer) : (s.reply a).mem = s.mem := rfl
@[simp] theorem State.reply_poison (s : State) (a : Answer) : (s.reply a).poison = s.poison := rfl
@[simp] theorem State.reply_undef (s : State) (a : Answer) : (s.reply a).undef = s.undef := rfl
@[simp] theorem State.reply_hostMem (s : State) (a : Answer) : (s.reply a).hostMem = s.hostMem := rfl
@[simp] theorem State.reply_fabric (s : State) (a : Answer) : (s.reply a).fabric = s.fabric := rfl
@[simp] theorem State.reply_host (s : State) (a : Answer) : (s.reply a).host = s.host := rfl
@[simp] theorem State.reply_amp (s : State) (a : Answer) : (s.reply a).amp = s.amp := rfl
@[simp] theorem State.reply_faults (s : State) (a : Answer) : (s.reply a).faults = s.faults := rfl
@[simp] theorem State.reply_power (s : State) (a : Answer) : (s.reply a).power = s.power := rfl
@[simp] theorem State.reply_sec (s : State) (a : Answer) : (s.reply a).sec = s.sec := rfl
@[simp] theorem State.reply_mgmt (s : State) (a : Answer) : (s.reply a).mgmt = s.mgmt := rfl
@[simp] theorem State.reply_cl (s : State) (a : Answer) : (s.reply a).cl = s.cl := rfl
@[simp] theorem State.reply_sched (s : State) (a : Answer) : (s.reply a).sched = s.sched := rfl
@[simp] theorem State.reply_tiers (s : State) (a : Answer) : (s.reply a).tiers = s.tiers := rfl
@[simp] theorem State.reply_tokens (s : State) (a : Answer) : (s.reply a).tokens = s.tokens := rfl
@[simp] theorem State.reply_sel (s : State) (a : Answer) : (s.reply a).sel = s.sel := rfl
@[simp] theorem State.reply_index (s : State) (a : Answer) : (s.reply a).index = s.index := rfl
@[simp] theorem State.reply_pipes (s : State) (a : Answer) : (s.reply a).pipes = s.pipes := rfl
@[simp] theorem State.reply_media (s : State) (a : Answer) : (s.reply a).media = s.media := rfl
@[simp] theorem State.reply_ftl (s : State) (a : Answer) : (s.reply a).ftl = s.ftl := rfl
@[simp] theorem State.reply_span (s : State) (a : Answer) : (s.reply a).span = s.span := rfl
@[simp] theorem State.reply_upd (s : State) (a : Answer) : (s.reply a).upd = s.upd := rfl

/-! ## `State.used` -/

@[simp] theorem State.used_pending (s : State)  : (s.used).pending = s.pending := rfl
@[simp] theorem State.used_part (s : State)  : (s.used).part = s.part := rfl
@[simp] theorem State.used_free (s : State)  : (s.used).free = s.free + 1 := rfl
@[simp] theorem State.used_answer (s : State)  : (s.used).answer = s.answer := rfl
@[simp] theorem State.used_mem (s : State)  : (s.used).mem = s.mem := rfl
@[simp] theorem State.used_poison (s : State)  : (s.used).poison = s.poison := rfl
@[simp] theorem State.used_undef (s : State)  : (s.used).undef = s.undef := rfl
@[simp] theorem State.used_hostMem (s : State)  : (s.used).hostMem = s.hostMem := rfl
@[simp] theorem State.used_fabric (s : State)  : (s.used).fabric = s.fabric := rfl
@[simp] theorem State.used_host (s : State)  : (s.used).host = s.host := rfl
@[simp] theorem State.used_amp (s : State)  : (s.used).amp = s.amp := rfl
@[simp] theorem State.used_faults (s : State)  : (s.used).faults = s.faults := rfl
@[simp] theorem State.used_power (s : State)  : (s.used).power = s.power := rfl
@[simp] theorem State.used_sec (s : State)  : (s.used).sec = s.sec := rfl
@[simp] theorem State.used_mgmt (s : State)  : (s.used).mgmt = s.mgmt := rfl
@[simp] theorem State.used_cl (s : State)  : (s.used).cl = s.cl := rfl
@[simp] theorem State.used_sched (s : State)  : (s.used).sched = s.sched := rfl
@[simp] theorem State.used_tiers (s : State)  : (s.used).tiers = s.tiers := rfl
@[simp] theorem State.used_tokens (s : State)  : (s.used).tokens = s.tokens := rfl
@[simp] theorem State.used_sel (s : State)  : (s.used).sel = s.sel := rfl
@[simp] theorem State.used_index (s : State)  : (s.used).index = s.index := rfl
@[simp] theorem State.used_pipes (s : State)  : (s.used).pipes = s.pipes := rfl
@[simp] theorem State.used_media (s : State)  : (s.used).media = s.media := rfl
@[simp] theorem State.used_ftl (s : State)  : (s.used).ftl = s.ftl := rfl
@[simp] theorem State.used_span (s : State)  : (s.used).span = s.span := rfl
@[simp] theorem State.used_upd (s : State)  : (s.used).upd = s.upd := rfl

/-! ## `State.poisonWord` -/

@[simp] theorem State.poisonWord_pending (s : State) (a : Nat) : (s.poisonWord a).pending = s.pending := rfl
@[simp] theorem State.poisonWord_part (s : State) (a : Nat) : (s.poisonWord a).part = s.part := rfl
@[simp] theorem State.poisonWord_free (s : State) (a : Nat) : (s.poisonWord a).free = s.free := rfl
@[simp] theorem State.poisonWord_answer (s : State) (a : Nat) : (s.poisonWord a).answer = s.answer := rfl
@[simp] theorem State.poisonWord_mem (s : State) (a : Nat) : (s.poisonWord a).mem = s.mem := rfl
@[simp] theorem State.poisonWord_poison (s : State) (a : Nat) : (s.poisonWord a).poison = Tab.set false s.poison (a / 8) true := rfl
@[simp] theorem State.poisonWord_undef (s : State) (a : Nat) : (s.poisonWord a).undef = s.undef := rfl
@[simp] theorem State.poisonWord_hostMem (s : State) (a : Nat) : (s.poisonWord a).hostMem = s.hostMem := rfl
@[simp] theorem State.poisonWord_fabric (s : State) (a : Nat) : (s.poisonWord a).fabric = s.fabric := rfl
@[simp] theorem State.poisonWord_host (s : State) (a : Nat) : (s.poisonWord a).host = s.host := rfl
@[simp] theorem State.poisonWord_amp (s : State) (a : Nat) : (s.poisonWord a).amp = s.amp := rfl
@[simp] theorem State.poisonWord_faults (s : State) (a : Nat) : (s.poisonWord a).faults = s.faults := rfl
@[simp] theorem State.poisonWord_power (s : State) (a : Nat) : (s.poisonWord a).power = s.power := rfl
@[simp] theorem State.poisonWord_sec (s : State) (a : Nat) : (s.poisonWord a).sec = s.sec := rfl
@[simp] theorem State.poisonWord_mgmt (s : State) (a : Nat) : (s.poisonWord a).mgmt = s.mgmt := rfl
@[simp] theorem State.poisonWord_cl (s : State) (a : Nat) : (s.poisonWord a).cl = s.cl := rfl
@[simp] theorem State.poisonWord_sched (s : State) (a : Nat) : (s.poisonWord a).sched = s.sched := rfl
@[simp] theorem State.poisonWord_tiers (s : State) (a : Nat) : (s.poisonWord a).tiers = s.tiers := rfl
@[simp] theorem State.poisonWord_tokens (s : State) (a : Nat) : (s.poisonWord a).tokens = s.tokens := rfl
@[simp] theorem State.poisonWord_sel (s : State) (a : Nat) : (s.poisonWord a).sel = s.sel := rfl
@[simp] theorem State.poisonWord_index (s : State) (a : Nat) : (s.poisonWord a).index = s.index := rfl
@[simp] theorem State.poisonWord_pipes (s : State) (a : Nat) : (s.poisonWord a).pipes = s.pipes := rfl
@[simp] theorem State.poisonWord_media (s : State) (a : Nat) : (s.poisonWord a).media = s.media := rfl
@[simp] theorem State.poisonWord_ftl (s : State) (a : Nat) : (s.poisonWord a).ftl = s.ftl := rfl
@[simp] theorem State.poisonWord_span (s : State) (a : Nat) : (s.poisonWord a).span = s.span := rfl
@[simp] theorem State.poisonWord_upd (s : State) (a : Nat) : (s.poisonWord a).upd = s.upd := rfl

/-! ## `State.writeHost` -/

@[simp] theorem State.writeHost_pending (s : State) (a : Nat) (b : Bytes) : (s.writeHost a b).pending = s.pending := rfl
@[simp] theorem State.writeHost_part (s : State) (a : Nat) (b : Bytes) : (s.writeHost a b).part = s.part := rfl
@[simp] theorem State.writeHost_free (s : State) (a : Nat) (b : Bytes) : (s.writeHost a b).free = s.free := rfl
@[simp] theorem State.writeHost_answer (s : State) (a : Nat) (b : Bytes) : (s.writeHost a b).answer = s.answer := rfl
@[simp] theorem State.writeHost_mem (s : State) (a : Nat) (b : Bytes) : (s.writeHost a b).mem = s.mem := rfl
@[simp] theorem State.writeHost_poison (s : State) (a : Nat) (b : Bytes) : (s.writeHost a b).poison = s.poison := rfl
@[simp] theorem State.writeHost_undef (s : State) (a : Nat) (b : Bytes) : (s.writeHost a b).undef = s.undef := rfl
@[simp] theorem State.writeHost_hostMem (s : State) (a : Nat) (b : Bytes) : (s.writeHost a b).hostMem = Tab.setRange 0 s.hostMem a b := rfl
@[simp] theorem State.writeHost_fabric (s : State) (a : Nat) (b : Bytes) : (s.writeHost a b).fabric = s.fabric := rfl
@[simp] theorem State.writeHost_host (s : State) (a : Nat) (b : Bytes) : (s.writeHost a b).host = s.host := rfl
@[simp] theorem State.writeHost_amp (s : State) (a : Nat) (b : Bytes) : (s.writeHost a b).amp = s.amp := rfl
@[simp] theorem State.writeHost_faults (s : State) (a : Nat) (b : Bytes) : (s.writeHost a b).faults = s.faults := rfl
@[simp] theorem State.writeHost_power (s : State) (a : Nat) (b : Bytes) : (s.writeHost a b).power = s.power := rfl
@[simp] theorem State.writeHost_sec (s : State) (a : Nat) (b : Bytes) : (s.writeHost a b).sec = s.sec := rfl
@[simp] theorem State.writeHost_mgmt (s : State) (a : Nat) (b : Bytes) : (s.writeHost a b).mgmt = s.mgmt := rfl
@[simp] theorem State.writeHost_cl (s : State) (a : Nat) (b : Bytes) : (s.writeHost a b).cl = s.cl := rfl
@[simp] theorem State.writeHost_sched (s : State) (a : Nat) (b : Bytes) : (s.writeHost a b).sched = s.sched := rfl
@[simp] theorem State.writeHost_tiers (s : State) (a : Nat) (b : Bytes) : (s.writeHost a b).tiers = s.tiers := rfl
@[simp] theorem State.writeHost_tokens (s : State) (a : Nat) (b : Bytes) : (s.writeHost a b).tokens = s.tokens := rfl
@[simp] theorem State.writeHost_sel (s : State) (a : Nat) (b : Bytes) : (s.writeHost a b).sel = s.sel := rfl
@[simp] theorem State.writeHost_index (s : State) (a : Nat) (b : Bytes) : (s.writeHost a b).index = s.index := rfl
@[simp] theorem State.writeHost_pipes (s : State) (a : Nat) (b : Bytes) : (s.writeHost a b).pipes = s.pipes := rfl
@[simp] theorem State.writeHost_media (s : State) (a : Nat) (b : Bytes) : (s.writeHost a b).media = s.media := rfl
@[simp] theorem State.writeHost_ftl (s : State) (a : Nat) (b : Bytes) : (s.writeHost a b).ftl = s.ftl := rfl
@[simp] theorem State.writeHost_span (s : State) (a : Nat) (b : Bytes) : (s.writeHost a b).span = s.span := rfl
@[simp] theorem State.writeHost_upd (s : State) (a : Nat) (b : Bytes) : (s.writeHost a b).upd = s.upd := rfl

end Sys2Proof.Machine
end

