-- ==== Sys2Proof/Laws/Tab.lean ====
section
/-! SUPPORT. The sparse tables: reading after writing, and that every operation keeps the canonical form. -/

namespace Sys2Proof.Machine

variable {α : Type}

/-! ## Reading after writing -/

@[simp] theorem Tab.get_nil (d : α) (k : Nat) : Tab.get d [] k = d := rfl

theorem Tab.find_put (t : Tab α) (k j : Nat) (v : α) :
    Tab.find (Tab.put t k v) j = if j = k then some v else Tab.find t j := by
  induction t with
  | nil => simp [Tab.put, Tab.find]
  | cons p t ih =>
    obtain ⟨i, a⟩ := p
    simp only [Tab.put]
    split
    · simp [Tab.find]
    · split
      · subst_vars; simp only [Tab.find]; split <;> simp_all
      · simp only [Tab.find, ih]; split
        · split
          · omega
          · rfl
        · rfl

@[simp] theorem Tab.get_put (d : α) (t : Tab α) (k j : Nat) (v : α) :
    Tab.get d (Tab.put t k v) j = if j = k then v else Tab.get d t j := by
  simp only [Tab.get, Tab.find_put]; split <;> rfl

/-! ## The canonical form -/

theorem Tab.rising_mono {lo lo' : Nat} (h : lo' ≤ lo) {t : Tab α} (ht : Tab.rising lo t = true) : Tab.rising lo' t = true := by
  cases t with
  | nil => rfl
  | cons p t =>
    simp only [Tab.rising, Bool.and_eq_true, decide_eq_true_eq] at ht ⊢
    exact ⟨by omega, ht.2⟩

theorem Tab.rising_put {lo : Nat} {t : Tab α} (ht : Tab.rising lo t = true) {k : Nat} (hk : lo ≤ k) (v : α) :
    Tab.rising lo (Tab.put t k v) = true := by
  induction t generalizing lo with
  | nil => simp [Tab.put, Tab.rising, hk]
  | cons p t ih =>
    simp only [Tab.rising, Bool.and_eq_true, decide_eq_true_eq] at ht
    simp only [Tab.put]
    split
    · simp only [Tab.rising, Bool.and_eq_true, decide_eq_true_eq]; exact ⟨hk, by omega, ht.2⟩
    · split
      · subst_vars; simp only [Tab.rising, Bool.and_eq_true, decide_eq_true_eq]; exact ⟨hk, ht.2⟩
      · simp only [Tab.rising, Bool.and_eq_true, decide_eq_true_eq]; exact ⟨ht.1, ih ht.2 (by omega)⟩

theorem Tab.rising_del {lo : Nat} {t : Tab α} (ht : Tab.rising lo t = true) (k : Nat) : Tab.rising lo (Tab.del t k) = true := by
  induction t generalizing lo with
  | nil => rfl
  | cons p t ih =>
    simp only [Tab.rising, Bool.and_eq_true, decide_eq_true_eq] at ht
    simp only [Tab.del]
    split
    · exact ih (Tab.rising_mono (by omega) ht.2)
    · simp only [Tab.rising, Bool.and_eq_true, decide_eq_true_eq]; exact ⟨ht.1, ih ht.2⟩

theorem Tab.rising_filter {lo : Nat} {t : Tab α} (ht : Tab.rising lo t = true) (p : Nat × α → Bool) :
    Tab.rising lo (t.filter p) = true := by
  induction t generalizing lo with
  | nil => rfl
  | cons q t ih =>
    simp only [Tab.rising, Bool.and_eq_true, decide_eq_true_eq] at ht
    simp only [List.filter]
    split
    · simp only [Tab.rising, Bool.and_eq_true, decide_eq_true_eq]; exact ⟨ht.1, ih ht.2⟩
    · exact Tab.rising_mono (by omega) (ih ht.2)

theorem Tab.all_put {q : Nat × α → Bool} {t : Tab α} (ht : t.all q = true) {k : Nat} {v : α} (hv : q (k, v) = true) :
    (Tab.put t k v).all q = true := by
  induction t with
  | nil => simp [Tab.put, hv]
  | cons p t ih =>
    simp only [List.all_cons, Bool.and_eq_true] at ht
    simp only [Tab.put]
    split
    · simp [hv, ht.1, ht.2]
    · split
      · simp [hv, ht.2]
      · simp [ht.1, ih ht.2]

theorem Tab.all_del {q : Nat × α → Bool} {t : Tab α} (ht : t.all q = true) (k : Nat) : (Tab.del t k).all q = true := by
  induction t with
  | nil => rfl
  | cons p t ih =>
    simp only [List.all_cons, Bool.and_eq_true] at ht
    simp only [Tab.del]
    split
    · exact ih ht.2
    · simp [ht.1, ih ht.2]

theorem Tab.find_del (t : Tab α) (k j : Nat) : Tab.find (Tab.del t k) j = if j = k then none else Tab.find t j := by
  induction t with
  | nil => simp [Tab.del, Tab.find]
  | cons p t ih =>
    obtain ⟨i, a⟩ := p
    simp only [Tab.del]
    by_cases hk : k = i
    · subst hk
      simp only [if_pos, ih, Tab.find]
      by_cases hj : j = k <;> simp [hj]
    · simp only [if_neg hk, Tab.find, ih]
      by_cases hj : j = i
      · subst hj; simp [show ¬ j = k from fun e => hk e.symm]
      · simp [hj]

variable [DecidableEq α]

@[simp] theorem Tab.wf_nil (d : α) : Tab.wf d [] = true := rfl

theorem Tab.wf_set {d : α} {t : Tab α} (h : Tab.wf d t = true) (k : Nat) (v : α) : Tab.wf d (Tab.set d t k v) = true := by
  simp only [Tab.wf, Bool.and_eq_true] at h ⊢
  simp only [Tab.set]
  split
  · exact ⟨Tab.rising_del h.1 k, Tab.all_del h.2 k⟩
  · rename_i hv
    exact ⟨Tab.rising_put h.1 (Nat.zero_le k) v, Tab.all_put h.2 (by simpa using hv)⟩

theorem Tab.wf_setRange {d : α} (vs : List α) {t : Tab α} (h : Tab.wf d t = true) (k : Nat) :
    Tab.wf d (Tab.setRange d t k vs) = true := by
  induction vs generalizing t k with
  | nil => exact h
  | cons v vs ih => exact ih (Tab.wf_set h k v) (k + 1)

theorem Tab.wf_filter {d : α} {t : Tab α} (h : Tab.wf d t = true) (p : Nat × α → Bool) : Tab.wf d (t.filter p) = true := by
  simp only [Tab.wf, Bool.and_eq_true] at h ⊢
  refine ⟨Tab.rising_filter h.1 p, ?_⟩
  simp only [List.all_eq_true] at h ⊢
  exact fun x hx => h.2 x (List.mem_of_mem_filter hx)

/-- A read after a write gives the value written, and every other key is as before. -/
@[simp] theorem Tab.get_set (d : α) (t : Tab α) (k j : Nat) (v : α) :
    Tab.get d (Tab.set d t k v) j = if j = k then v else Tab.get d t j := by
  simp only [Tab.set]
  split
  · rename_i hv
    simp only [Tab.get, Tab.find_del]
    split <;> simp [hv]
  · exact Tab.get_put d t k j v

@[simp] theorem Tab.get_mod (d : α) (t : Tab α) (k j : Nat) (f : α → α) :
    Tab.get d (Tab.mod d t k f) j = if j = k then f (Tab.get d t k) else Tab.get d t j := Tab.get_set d t k j _

/-- The keys outside the range written are as before. -/
theorem Tab.get_setRange_outside {d : α} (vs : List α) (t : Tab α) (k j : Nat)
    (hj : j < k ∨ k + vs.length ≤ j) : Tab.get d (Tab.setRange d t k vs) j = Tab.get d t j := by
  induction vs generalizing t k with
  | nil => rfl
  | cons v vs ih =>
    simp only [List.length_cons] at hj
    simp only [Tab.setRange]
    rw [ih _ (k + 1) (by omega), Tab.get_set, if_neg (by omega)]

/-- The keys of the range written hold what was written. -/
theorem Tab.get_setRange_inside {d : α} (vs : List α) (t : Tab α) (k i : Nat) (hi : i < vs.length) :
    Tab.get d (Tab.setRange d t k vs) (k + i) = vs[i] := by
  induction vs generalizing t k i with
  | nil => simp at hi
  | cons v vs ih =>
    simp only [Tab.setRange]
    cases i with
    | zero => rw [Tab.get_setRange_outside vs _ (k + 1) (k + 0) (by omega), Tab.get_set]; simp
    | succ i =>
      have := ih (Tab.set d t k v) (k + 1) i (by simpa using hi)
      rw [show k + (i + 1) = k + 1 + i by omega, this]; simp

end Sys2Proof.Machine
end

