-- ==== Sys2Proof/Laws/Frame.lean ====
section
/-! SUPPORT. What running from one state to another keeps: everything but the fields listed, the canonical form of the
memories, the fuses, the count of free values; and how it composes. -/

namespace Sys2Proof.Machine

/-- From `s` to `t` only the listed fields change, the memories keep their canonical form, and no fuse is restored. -/
structure Runs (W : List Field) (s t : State) : Prop where
  frame : Frame W s t
  wf : s.memoryWf → t.memoryWf
  counter : s.sec.counter ≤ t.sec.counter
  revoked : ∀ k ∈ s.sec.revoked, k ∈ t.sec.revoked
  taken : s.free ≤ t.free

/-- The outcome is a next state, reached in that way. -/
def Ends (W : List Field) (s : State) (o : Out) : Prop := ∃ t, o = .next t ∧ Runs W s t

variable {W : List Field} {s0 s t : State}

theorem Frame.refl (W : List Field) (s : State) : Frame W s s := by constructor <;> first | rfl | exact .inr rfl | exact .inr ⟨rfl, rfl, rfl⟩

theorem Frame.trans {r : State} (h : Frame W r s) (k : Frame W s t) : Frame W r t where
  pending := k.pending.trans h.pending
  part := k.part.trans h.part
  memory := k.memory.elim .inl fun a => h.memory.elim .inl fun b => .inr ⟨a.1.trans b.1, a.2.1.trans b.2.1, a.2.2.trans b.2.2⟩
  hostMem := k.hostMem.elim .inl fun a => h.hostMem.elim .inl fun b => .inr (a.trans b)
  free := k.free.elim .inl fun a => h.free.elim .inl fun b => .inr (a.trans b)
  answer := k.answer.elim .inl fun a => h.answer.elim .inl fun b => .inr (a.trans b)
  fabric := k.fabric.elim .inl fun a => h.fabric.elim .inl fun b => .inr (a.trans b)
  host := k.host.elim .inl fun a => h.host.elim .inl fun b => .inr (a.trans b)
  amp := k.amp.elim .inl fun a => h.amp.elim .inl fun b => .inr (a.trans b)
  faults := k.faults.elim .inl fun a => h.faults.elim .inl fun b => .inr (a.trans b)
  power := k.power.elim .inl fun a => h.power.elim .inl fun b => .inr (a.trans b)
  sec := k.sec.elim .inl fun a => h.sec.elim .inl fun b => .inr (a.trans b)
  mgmt := k.mgmt.elim .inl fun a => h.mgmt.elim .inl fun b => .inr (a.trans b)
  cl := k.cl.elim .inl fun a => h.cl.elim .inl fun b => .inr (a.trans b)
  sched := k.sched.elim .inl fun a => h.sched.elim .inl fun b => .inr (a.trans b)
  tiers := k.tiers.elim .inl fun a => h.tiers.elim .inl fun b => .inr (a.trans b)
  tokens := k.tokens.elim .inl fun a => h.tokens.elim .inl fun b => .inr (a.trans b)
  sel := k.sel.elim .inl fun a => h.sel.elim .inl fun b => .inr (a.trans b)
  index := k.index.elim .inl fun a => h.index.elim .inl fun b => .inr (a.trans b)
  pipes := k.pipes.elim .inl fun a => h.pipes.elim .inl fun b => .inr (a.trans b)
  media := k.media.elim .inl fun a => h.media.elim .inl fun b => .inr (a.trans b)
  ftl := k.ftl.elim .inl fun a => h.ftl.elim .inl fun b => .inr (a.trans b)
  span := k.span.elim .inl fun a => h.span.elim .inl fun b => .inr (a.trans b)
  upd := k.upd.elim .inl fun a => h.upd.elim .inl fun b => .inr (a.trans b)

theorem Frame.mono {V : List Field} (hV : V ⊆ W) (h : Frame V s t) : Frame W s t where
  pending := h.pending
  part := h.part
  memory := h.memory.imp_left (hV ·)
  hostMem := h.hostMem.imp_left (hV ·)
  free := h.free.imp_left (hV ·)
  answer := h.answer.imp_left (hV ·)
  fabric := h.fabric.imp_left (hV ·)
  host := h.host.imp_left (hV ·)
  amp := h.amp.imp_left (hV ·)
  faults := h.faults.imp_left (hV ·)
  power := h.power.imp_left (hV ·)
  sec := h.sec.imp_left (hV ·)
  mgmt := h.mgmt.imp_left (hV ·)
  cl := h.cl.imp_left (hV ·)
  sched := h.sched.imp_left (hV ·)
  tiers := h.tiers.imp_left (hV ·)
  tokens := h.tokens.imp_left (hV ·)
  sel := h.sel.imp_left (hV ·)
  index := h.index.imp_left (hV ·)
  pipes := h.pipes.imp_left (hV ·)
  media := h.media.imp_left (hV ·)
  ftl := h.ftl.imp_left (hV ·)
  span := h.span.imp_left (hV ·)
  upd := h.upd.imp_left (hV ·)

theorem Runs.refl (W : List Field) (s : State) : Runs W s s := ⟨Frame.refl W s, id, Nat.le_refl _, fun _ h => h, Nat.le_refl _⟩

theorem Runs.trans {r : State} (h : Runs W r s) (k : Runs W s t) : Runs W r t :=
  ⟨h.frame.trans k.frame, k.wf ∘ h.wf, h.counter.trans k.counter, fun x hx => k.revoked x (h.revoked x hx), h.taken.trans k.taken⟩

theorem Runs.mono {V : List Field} (hV : V ⊆ W) (h : Runs V s t) : Runs W s t := ⟨h.frame.mono hV, h.wf, h.counter, h.revoked, h.taken⟩

/-- A change that leaves memory, host memory, the fuses and the free values alone. -/
theorem Runs.step (h : Runs W s0 s) (hf : Frame W s t) (hm : t.mem = s.mem) (hp : t.poison = s.poison)
    (hh : t.hostMem = s.hostMem) (hs : t.sec = s.sec) (hr : t.free = s.free) : Runs W s0 t :=
  h.trans ⟨hf, by simp only [State.memoryWf, hm, hp, hh]; exact id, by rw [hs], by rw [hs]; exact fun _ h => h, by rw [hr]⟩

@[simp] theorem ends_next : Ends W s0 (.next s) ↔ Runs W s0 s := by
  constructor
  · rintro ⟨t, h, ht⟩; cases h; exact ht
  · exact fun h => ⟨s, rfl, h⟩

theorem Ends.of_eq {o : Out} (h : Ends W s0 o) (e : o = .next t) : Runs W s0 t := by subst e; exact ends_next.1 h

theorem Runs.ite {p : Prop} [Decidable p] (hs : Runs W s0 s) (ht : Runs W s0 t) : Runs W s0 (if p then s else t) := by
  split
  · exact hs
  · exact ht

theorem Runs.of_fst {α : Type} {p : State × α} {a : α} (e : p = (t, a)) (h : Runs W s0 p.1) : Runs W s0 t := by subst e; exact h

theorem Runs.of_snd {α : Type} {p : α × State} {a : α} (e : p = (a, t)) (h : Runs W s0 p.2) : Runs W s0 t := by subst e; exact h

/-- Where an operation that may fail answers, it has run so. -/
def OptRuns {α : Type} (W : List Field) (s : State) (f : α → State) (o : Option α) : Prop := ∀ p, o = some p → Runs W s (f p)

theorem optRuns_none {α : Type} (f : α → State) : OptRuns W s0 f none := by intro p h; cases h

theorem optRuns_some {α : Type} {f : α → State} {p : α} (h : Runs W s0 (f p)) : OptRuns W s0 f (some p) := by
  intro q e; cases e; exact h

theorem optRuns_id (h : Runs W s0 t) : OptRuns W s0 id (some t) := optRuns_some h

theorem optRuns_map {α β : Type} {f : α → State} {o : Option β} {g : β → α} {k : β → State} (h : OptRuns W s0 k o)
    (hg : ∀ b, Runs W s0 (k b) → Runs W s0 (f (g b))) : OptRuns W s0 f (o.map g) := by
  intro p e
  cases o with
  | none => cases e
  | some b => cases e; exact hg b (h b rfl)

theorem optRuns_bind {α β : Type} {f : α → State} {o : Option β} {g : β → Option α} {k : β → State} (h : OptRuns W s0 k o)
    (hg : ∀ b, Runs W s0 (k b) → OptRuns W s0 f (g b)) : OptRuns W s0 f (o.bind g) := by
  intro p e
  cases o with
  | none => cases e
  | some b => exact hg b (h b rfl) p e

theorem optRuns_bind_id {α : Type} {f : α → State} {o : Option State} {g : State → Option α} (h : OptRuns W s0 id o)
    (hg : ∀ t, Runs W s0 t → OptRuns W s0 f (g t)) : OptRuns W s0 f (o.bind g) := optRuns_bind (k := id) h hg

theorem optRuns_map_id {o : Option State} {g : State → State} (h : OptRuns W s0 id o)
    (hg : ∀ t, Runs W s0 t → Runs W s0 (g t)) : OptRuns W s0 id (o.map g) := optRuns_map (k := id) h hg

theorem optRuns_getD {o : Option State} (h : OptRuns W s0 id o) (hs : Runs W s0 s) : Runs W s0 (o.getD s) := by
  cases o with
  | none => exact hs
  | some t => exact h t rfl

theorem Runs.of_some {o : Option State} (e : o = some t) (h : OptRuns W s0 id o) : Runs W s0 t := h t e

theorem Runs.of_some_fst {α : Type} {o : Option (State × α)} {a : α} (e : o = some (t, a)) (h : OptRuns W s0 Prod.fst o) :
    Runs W s0 t := h (t, a) e

theorem Runs.of_some_snd {α : Type} {o : Option (α × State)} {a : α} (e : o = some (a, t)) (h : OptRuns W s0 Prod.snd o) :
    Runs W s0 t := h (a, t) e

theorem Runs.of_snd2 {α β : Type} {p : α × β × State} {a : α} {b : β} (e : p = (a, b, t)) (h : Runs W s0 p.2.2) : Runs W s0 t := by
  subst e; exact h

theorem Runs.of_some_mid {α β : Type} {o : Option (α × State × β)} {a : α} {b : β} (e : o = some (a, t, b))
    (h : OptRuns W s0 (fun p => p.2.1) o) : Runs W s0 t := h (a, t, b) e

/-- The count of free values advances. -/
theorem Runs.taking (hfree : Field.free ∈ W) (h : Runs W s0 s) (n : Nat) : Runs W s0 { s with free := s.free + n } :=
  h.trans ⟨by constructor <;> first | rfl | exact .inl hfree | exact .inr rfl | exact .inr ⟨rfl, rfl, rfl⟩, id, Nat.le_refl _,
    fun _ h => h, Nat.le_add_right _ _⟩

/-- Folding an operation that runs so runs so. -/
theorem runs_foldl {α : Type} {f : State → α → State} (hf : ∀ t a, Runs W s0 t → Runs W s0 (f t a)) (l : List α)
    (h : Runs W s0 s) : Runs W s0 (l.foldl f s) := by
  induction l generalizing s with
  | nil => exact h
  | cons a l ih => exact ih (hf s a h)

theorem State.modFabric_runs (hfabric : Field.fabric ∈ W) (h : Runs W s0 s) (f : Fabric → Fabric) : Runs W s0 (s.modFabric f) :=
  h.step (by constructor <;> first | rfl | exact .inl hfabric | exact .inr rfl | exact .inr ⟨rfl, rfl, rfl⟩) rfl rfl rfl rfl rfl

theorem State.modHost_runs (hhost : Field.host ∈ W) (h : Runs W s0 s) (f : HostSide → HostSide) : Runs W s0 (s.modHost f) :=
  h.step (by constructor <;> first | rfl | exact .inl hhost | exact .inr rfl | exact .inr ⟨rfl, rfl, rfl⟩) rfl rfl rfl rfl rfl

theorem State.modAmp_runs (hamp : Field.amp ∈ W) (h : Runs W s0 s) (f : Amp → Amp) : Runs W s0 (s.modAmp f) :=
  h.step (by constructor <;> first | rfl | exact .inl hamp | exact .inr rfl | exact .inr ⟨rfl, rfl, rfl⟩) rfl rfl rfl rfl rfl

theorem State.modFaults_runs (hfaults : Field.faults ∈ W) (h : Runs W s0 s) (f : Faults → Faults) : Runs W s0 (s.modFaults f) :=
  h.step (by constructor <;> first | rfl | exact .inl hfaults | exact .inr rfl | exact .inr ⟨rfl, rfl, rfl⟩) rfl rfl rfl rfl rfl

theorem State.modPower_runs (hpower : Field.power ∈ W) (h : Runs W s0 s) (f : Power → Power) : Runs W s0 (s.modPower f) :=
  h.step (by constructor <;> first | rfl | exact .inl hpower | exact .inr rfl | exact .inr ⟨rfl, rfl, rfl⟩) rfl rfl rfl rfl rfl

theorem State.modMgmt_runs (hmgmt : Field.mgmt ∈ W) (h : Runs W s0 s) (f : Mgmt → Mgmt) : Runs W s0 (s.modMgmt f) :=
  h.step (by constructor <;> first | rfl | exact .inl hmgmt | exact .inr rfl | exact .inr ⟨rfl, rfl, rfl⟩) rfl rfl rfl rfl rfl

theorem State.modSched_runs (hsched : Field.sched ∈ W) (h : Runs W s0 s) (f : Sched → Sched) : Runs W s0 (s.modSched f) :=
  h.step (by constructor <;> first | rfl | exact .inl hsched | exact .inr rfl | exact .inr ⟨rfl, rfl, rfl⟩) rfl rfl rfl rfl rfl

theorem State.modTiers_runs (htiers : Field.tiers ∈ W) (h : Runs W s0 s) (f : Tiers → Tiers) : Runs W s0 (s.modTiers f) :=
  h.step (by constructor <;> first | rfl | exact .inl htiers | exact .inr rfl | exact .inr ⟨rfl, rfl, rfl⟩) rfl rfl rfl rfl rfl

theorem State.modTokens_runs (htokens : Field.tokens ∈ W) (h : Runs W s0 s) (f : Tokens → Tokens) : Runs W s0 (s.modTokens f) :=
  h.step (by constructor <;> first | rfl | exact .inl htokens | exact .inr rfl | exact .inr ⟨rfl, rfl, rfl⟩) rfl rfl rfl rfl rfl

theorem State.modSel_runs (hsel : Field.sel ∈ W) (h : Runs W s0 s) (f : Selection → Selection) : Runs W s0 (s.modSel f) :=
  h.step (by constructor <;> first | rfl | exact .inl hsel | exact .inr rfl | exact .inr ⟨rfl, rfl, rfl⟩) rfl rfl rfl rfl rfl

theorem State.modIndex_runs (hindex : Field.index ∈ W) (h : Runs W s0 s) (f : Indexes → Indexes) : Runs W s0 (s.modIndex f) :=
  h.step (by constructor <;> first | rfl | exact .inl hindex | exact .inr rfl | exact .inr ⟨rfl, rfl, rfl⟩) rfl rfl rfl rfl rfl

theorem State.modPipes_runs (hpipes : Field.pipes ∈ W) (h : Runs W s0 s) (f : Pipes → Pipes) : Runs W s0 (s.modPipes f) :=
  h.step (by constructor <;> first | rfl | exact .inl hpipes | exact .inr rfl | exact .inr ⟨rfl, rfl, rfl⟩) rfl rfl rfl rfl rfl

theorem State.modMedia_runs (hmedia : Field.media ∈ W) (h : Runs W s0 s) (f : Media → Media) : Runs W s0 (s.modMedia f) :=
  h.step (by constructor <;> first | rfl | exact .inl hmedia | exact .inr rfl | exact .inr ⟨rfl, rfl, rfl⟩) rfl rfl rfl rfl rfl

theorem State.modFtl_runs (hftl : Field.ftl ∈ W) (h : Runs W s0 s) (f : Ftl → Ftl) : Runs W s0 (s.modFtl f) :=
  h.step (by constructor <;> first | rfl | exact .inl hftl | exact .inr rfl | exact .inr ⟨rfl, rfl, rfl⟩) rfl rfl rfl rfl rfl

theorem State.modSpan_runs (hspan : Field.span ∈ W) (h : Runs W s0 s) (f : Span → Span) : Runs W s0 (s.modSpan f) :=
  h.step (by constructor <;> first | rfl | exact .inl hspan | exact .inr rfl | exact .inr ⟨rfl, rfl, rfl⟩) rfl rfl rfl rfl rfl

theorem State.modUpd_runs (hupd : Field.upd ∈ W) (h : Runs W s0 s) (f : Upd → Upd) : Runs W s0 (s.modUpd f) :=
  h.step (by constructor <;> first | rfl | exact .inl hupd | exact .inr rfl | exact .inr ⟨rfl, rfl, rfl⟩) rfl rfl rfl rfl rfl

theorem State.modCl_runs (hcl : Field.cl ∈ W) (h : Runs W s0 s) (g : Nat) (f : Cluster → Cluster) : Runs W s0 (s.modCl g f) :=
  h.step (by constructor <;> first | rfl | exact .inl hcl | exact .inr rfl | exact .inr ⟨rfl, rfl, rfl⟩) rfl rfl rfl rfl rfl

theorem State.reply_runs (hanswer : Field.answer ∈ W) (h : Runs W s0 s) (a : Answer) : Runs W s0 (s.reply a) :=
  h.step (by constructor <;> first | rfl | exact .inl hanswer | exact .inr rfl | exact .inr ⟨rfl, rfl, rfl⟩) rfl rfl rfl rfl rfl

/-- The fuses are never lowered by a change of the security state that does not lower them. -/
theorem State.modSec_runs (hsec : Field.sec ∈ W) (h : Runs W s0 s) (f : Sec → Sec) (hc : s.sec.counter ≤ (f s.sec).counter)
    (hr : ∀ k ∈ s.sec.revoked, k ∈ (f s.sec).revoked) : Runs W s0 (s.modSec f) :=
  h.trans ⟨by constructor <;> first | rfl | exact .inl hsec | exact .inr rfl | exact .inr ⟨rfl, rfl, rfl⟩, id, hc, hr, Nat.le_refl _⟩

@[simp] theorem Sec.putKeys_counter (x : Sec) (k) : (x.putKeys k).counter = x.counter := rfl
@[simp] theorem Sec.putKeys_revoked (x : Sec) (k) : (x.putKeys k).revoked = x.revoked := rfl

theorem State.used_runs (hfree : Field.free ∈ W) (h : Runs W s0 s) : Runs W s0 s.used :=
  h.trans ⟨by constructor <;> first | rfl | exact .inl hfree | exact .inr rfl | exact .inr ⟨rfl, rfl, rfl⟩, id, Nat.le_refl _,
    fun _ h => h, Nat.le_succ _⟩

theorem State.writeMem_runs (hmemory : Field.memory ∈ W) (h : Runs W s0 s) (a : Nat) (b : Bytes) : Runs W s0 (s.writeMem a b) := by
  unfold State.writeMem
  split
  · exact h
  · exact h.trans ⟨by constructor <;> first | rfl | exact .inl hmemory | exact .inr rfl | exact .inr ⟨rfl, rfl, rfl⟩,
      fun w => ⟨Tab.wf_setRange b w.1 a, Tab.wf_filter w.2.1 _, w.2.2⟩, Nat.le_refl _, fun _ h => h, Nat.le_refl _⟩

theorem State.poisonWord_runs (hmemory : Field.memory ∈ W) (h : Runs W s0 s) (a : Nat) : Runs W s0 (s.poisonWord a) :=
  h.trans ⟨by constructor <;> first | rfl | exact .inl hmemory | exact .inr rfl | exact .inr ⟨rfl, rfl, rfl⟩,
    fun w => ⟨w.1, by rw [State.poisonWord_poison]; exact Tab.wf_set w.2.1 _ _, w.2.2⟩, Nat.le_refl _, fun _ h => h, Nat.le_refl _⟩

theorem State.undefine_runs (hmemory : Field.memory ∈ W) (hfree : Field.free ∈ W) (h : Runs W s0 s) (lo hi : Nat) (p : Bool) :
    Runs W s0 (s.undefine lo hi p) := by
  unfold State.undefine
  split
  · exact h
  · exact h.trans ⟨by constructor <;> first | rfl | exact .inl hmemory | exact .inl hfree | exact .inr rfl | exact .inr ⟨rfl, rfl, rfl⟩,
      fun w => ⟨Tab.wf_filter w.1 _, Tab.wf_filter w.2.1 _, w.2.2⟩, Nat.le_refl _, fun _ h => h, Nat.le_succ _⟩

theorem State.clearMem_runs (hmemory : Field.memory ∈ W) (h : Runs W s0 s) (lo hi : Nat) : Runs W s0 (s.clearMem lo hi) :=
  h.trans ⟨by constructor <;> first | rfl | exact .inl hmemory | exact .inr rfl | exact .inr ⟨rfl, rfl, rfl⟩,
    fun w => ⟨Tab.wf_filter w.1 _, Tab.wf_filter w.2.1 _, w.2.2⟩, Nat.le_refl _, fun _ h => h, Nat.le_refl _⟩

theorem State.writeHost_runs (hhostMem : Field.hostMem ∈ W) (h : Runs W s0 s) (a : Nat) (b : Bytes) : Runs W s0 (s.writeHost a b) :=
  h.trans ⟨by constructor <;> first | rfl | exact .inl hhostMem | exact .inr rfl | exact .inr ⟨rfl, rfl, rfl⟩,
    fun w => ⟨w.1, w.2.1, Tab.wf_setRange b w.2.2 a⟩, Nat.le_refl _, fun _ h => h, Nat.le_refl _⟩

end Sys2Proof.Machine
end

