-- ==== Sys2Proof/Laws/Ops.lean ====
section
/-! SUPPORT. The shared operations: what each leaves as it was, and what it writes. -/

namespace Sys2Proof.Machine

/-! ## Module memory -/

@[simp] theorem State.writeMem_pending (s : State) (a : Nat) (b : Bytes) : (s.writeMem a b).pending = s.pending := by unfold State.writeMem; split <;> rfl
@[simp] theorem State.writeMem_part (s : State) (a : Nat) (b : Bytes) : (s.writeMem a b).part = s.part := by unfold State.writeMem; split <;> rfl
@[simp] theorem State.writeMem_free (s : State) (a : Nat) (b : Bytes) : (s.writeMem a b).free = s.free := by unfold State.writeMem; split <;> rfl
@[simp] theorem State.writeMem_answer (s : State) (a : Nat) (b : Bytes) : (s.writeMem a b).answer = s.answer := by unfold State.writeMem; split <;> rfl
@[simp] theorem State.writeMem_hostMem (s : State) (a : Nat) (b : Bytes) : (s.writeMem a b).hostMem = s.hostMem := by unfold State.writeMem; split <;> rfl
@[simp] theorem State.writeMem_fabric (s : State) (a : Nat) (b : Bytes) : (s.writeMem a b).fabric = s.fabric := by unfold State.writeMem; split <;> rfl
@[simp] theorem State.writeMem_host (s : State) (a : Nat) (b : Bytes) : (s.writeMem a b).host = s.host := by unfold State.writeMem; split <;> rfl
@[simp] theorem State.writeMem_amp (s : State) (a : Nat) (b : Bytes) : (s.writeMem a b).amp = s.amp := by unfold State.writeMem; split <;> rfl
@[simp] theorem State.writeMem_faults (s : State) (a : Nat) (b : Bytes) : (s.writeMem a b).faults = s.faults := by unfold State.writeMem; split <;> rfl
@[simp] theorem State.writeMem_power (s : State) (a : Nat) (b : Bytes) : (s.writeMem a b).power = s.power := by unfold State.writeMem; split <;> rfl
@[simp] theorem State.writeMem_sec (s : State) (a : Nat) (b : Bytes) : (s.writeMem a b).sec = s.sec := by unfold State.writeMem; split <;> rfl
@[simp] theorem State.writeMem_mgmt (s : State) (a : Nat) (b : Bytes) : (s.writeMem a b).mgmt = s.mgmt := by unfold State.writeMem; split <;> rfl
@[simp] theorem State.writeMem_cl (s : State) (a : Nat) (b : Bytes) : (s.writeMem a b).cl = s.cl := by unfold State.writeMem; split <;> rfl
@[simp] theorem State.writeMem_sched (s : State) (a : Nat) (b : Bytes) : (s.writeMem a b).sched = s.sched := by unfold State.writeMem; split <;> rfl
@[simp] theorem State.writeMem_tiers (s : State) (a : Nat) (b : Bytes) : (s.writeMem a b).tiers = s.tiers := by unfold State.writeMem; split <;> rfl
@[simp] theorem State.writeMem_tokens (s : State) (a : Nat) (b : Bytes) : (s.writeMem a b).tokens = s.tokens := by unfold State.writeMem; split <;> rfl
@[simp] theorem State.writeMem_sel (s : State) (a : Nat) (b : Bytes) : (s.writeMem a b).sel = s.sel := by unfold State.writeMem; split <;> rfl
@[simp] theorem State.writeMem_index (s : State) (a : Nat) (b : Bytes) : (s.writeMem a b).index = s.index := by unfold State.writeMem; split <;> rfl
@[simp] theorem State.writeMem_pipes (s : State) (a : Nat) (b : Bytes) : (s.writeMem a b).pipes = s.pipes := by unfold State.writeMem; split <;> rfl
@[simp] theorem State.writeMem_media (s : State) (a : Nat) (b : Bytes) : (s.writeMem a b).media = s.media := by unfold State.writeMem; split <;> rfl
@[simp] theorem State.writeMem_ftl (s : State) (a : Nat) (b : Bytes) : (s.writeMem a b).ftl = s.ftl := by unfold State.writeMem; split <;> rfl
@[simp] theorem State.writeMem_span (s : State) (a : Nat) (b : Bytes) : (s.writeMem a b).span = s.span := by unfold State.writeMem; split <;> rfl
@[simp] theorem State.writeMem_upd (s : State) (a : Nat) (b : Bytes) : (s.writeMem a b).upd = s.upd := by unfold State.writeMem; split <;> rfl

/-- What a range reads as depends on the stored bytes and on the ranges without a value alone. -/
theorem State.bytesAt_congr {s t : State} (hm : t.mem = s.mem) (hu : t.undef = s.undef) (a n : Nat) : t.bytesAt a n = s.bytesAt a n := by
  induction n generalizing a with
  | zero => rfl
  | succ n ih => simp only [State.bytesAt, State.byteAt, hm, hu, ih]

@[simp] theorem State.used_bytesAt (s : State) (a n : Nat) : s.used.bytesAt a n = s.bytesAt a n :=
  State.bytesAt_congr (s := s) (t := s.used) rfl rfl a n

theorem undefAt_cut_inside (l : List Undef) {lo hi x : Nat} (h : lo ≤ x ∧ x < hi) : undefAt (undefCut lo hi l) x = none := by
  induction l with
  | nil => rfl
  | cons u l ih =>
    simp only [undefCut]
    split
    · rename_i d
      simp only [undefAt]
      rw [if_neg (by omega)]
      exact ih
    · by_cases h1 : u.lo < lo <;> by_cases h2 : hi < u.hi <;>
        simp only [h1, h2, if_true, if_false, List.nil_append, List.cons_append, undefAt] <;> (repeat rw [if_neg (by omega)]) <;>
        exact ih

theorem undefAt_cut_outside (l : List Undef) {lo hi x : Nat} (h : x < lo ∨ hi ≤ x) : undefAt (undefCut lo hi l) x = undefAt l x := by
  induction l with
  | nil => rfl
  | cons u l ih =>
    simp only [undefCut]
    split
    · simp only [undefAt, ih]
    · by_cases h1 : u.lo < lo <;> by_cases h2 : hi < u.hi <;>
        simp only [h1, h2, if_true, if_false, List.nil_append, List.cons_append, undefAt, ih] <;> (repeat' split) <;>
        first | rfl | omega

/-! ## Reports -/

/-- A report changes its die's concentrator and the ring slot it writes in memory. -/
@[simp] theorem State.report_faults (s : State) (d : Die) (r : Report) :
    (s.report d r).faults = s.faults.setConc d ((s.faults.conc d).report d (s.count d) r).1 := by
  unfold State.report
  dsimp only
  split
  · split <;> simp
  · rfl

@[simp] theorem State.report_pending (s : State) (d : Die) (r : Report) : (s.report d r).pending = s.pending := by
  unfold State.report; dsimp only; split <;> (try split) <;> simp
@[simp] theorem State.report_part (s : State) (d : Die) (r : Report) : (s.report d r).part = s.part := by
  unfold State.report; dsimp only; split <;> (try split) <;> simp
@[simp] theorem State.report_free (s : State) (d : Die) (r : Report) : (s.report d r).free = s.free := by
  unfold State.report; dsimp only; split <;> (try split) <;> simp
@[simp] theorem State.report_answer (s : State) (d : Die) (r : Report) : (s.report d r).answer = s.answer := by
  unfold State.report; dsimp only; split <;> (try split) <;> simp
@[simp] theorem State.report_hostMem (s : State) (d : Die) (r : Report) : (s.report d r).hostMem = s.hostMem := by
  unfold State.report; dsimp only; split <;> (try split) <;> simp
@[simp] theorem State.report_fabric (s : State) (d : Die) (r : Report) : (s.report d r).fabric = s.fabric := by
  unfold State.report; dsimp only; split <;> (try split) <;> simp
@[simp] theorem State.report_host (s : State) (d : Die) (r : Report) : (s.report d r).host = s.host := by
  unfold State.report; dsimp only; split <;> (try split) <;> simp
@[simp] theorem State.report_amp (s : State) (d : Die) (r : Report) : (s.report d r).amp = s.amp := by
  unfold State.report; dsimp only; split <;> (try split) <;> simp
@[simp] theorem State.report_power (s : State) (d : Die) (r : Report) : (s.report d r).power = s.power := by
  unfold State.report; dsimp only; split <;> (try split) <;> simp
@[simp] theorem State.report_sec (s : State) (d : Die) (r : Report) : (s.report d r).sec = s.sec := by
  unfold State.report; dsimp only; split <;> (try split) <;> simp
@[simp] theorem State.report_mgmt (s : State) (d : Die) (r : Report) : (s.report d r).mgmt = s.mgmt := by
  unfold State.report; dsimp only; split <;> (try split) <;> simp
@[simp] theorem State.report_cl (s : State) (d : Die) (r : Report) : (s.report d r).cl = s.cl := by
  unfold State.report; dsimp only; split <;> (try split) <;> simp
@[simp] theorem State.report_sched (s : State) (d : Die) (r : Report) : (s.report d r).sched = s.sched := by
  unfold State.report; dsimp only; split <;> (try split) <;> simp
@[simp] theorem State.report_tiers (s : State) (d : Die) (r : Report) : (s.report d r).tiers = s.tiers := by
  unfold State.report; dsimp only; split <;> (try split) <;> simp
@[simp] theorem State.report_tokens (s : State) (d : Die) (r : Report) : (s.report d r).tokens = s.tokens := by
  unfold State.report; dsimp only; split <;> (try split) <;> simp
@[simp] theorem State.report_sel (s : State) (d : Die) (r : Report) : (s.report d r).sel = s.sel := by
  unfold State.report; dsimp only; split <;> (try split) <;> simp
@[simp] theorem State.report_index (s : State) (d : Die) (r : Report) : (s.report d r).index = s.index := by
  unfold State.report; dsimp only; split <;> (try split) <;> simp
@[simp] theorem State.report_pipes (s : State) (d : Die) (r : Report) : (s.report d r).pipes = s.pipes := by
  unfold State.report; dsimp only; split <;> (try split) <;> simp
@[simp] theorem State.report_media (s : State) (d : Die) (r : Report) : (s.report d r).media = s.media := by
  unfold State.report; dsimp only; split <;> (try split) <;> simp
@[simp] theorem State.report_ftl (s : State) (d : Die) (r : Report) : (s.report d r).ftl = s.ftl := by
  unfold State.report; dsimp only; split <;> (try split) <;> simp
@[simp] theorem State.report_span (s : State) (d : Die) (r : Report) : (s.report d r).span = s.span := by
  unfold State.report; dsimp only; split <;> (try split) <;> simp
@[simp] theorem State.report_upd (s : State) (d : Die) (r : Report) : (s.report d r).upd = s.upd := by
  unfold State.report; dsimp only; split <;> (try split) <;> simp

@[simp] theorem Faults.conc_setConc (f : Faults) (d : Die) (c : Conc) : (f.setConc d c).conc d = c := by cases d <;> rfl

@[simp] theorem Faults.setConc_lost (f : Faults) (d : Die) (c : Conc) : (f.setConc d c).lost = f.lost := by cases d <;> rfl

/-! ## Events -/

@[simp] theorem State.signal_mem (s : State) (fn v : Nat) : (s.signal fn v).mem = s.mem := by
  unfold State.signal; split <;> rfl
@[simp] theorem State.signal_poison (s : State) (fn v : Nat) : (s.signal fn v).poison = s.poison := by
  unfold State.signal; split <;> rfl
@[simp] theorem State.signal_undef (s : State) (fn v : Nat) : (s.signal fn v).undef = s.undef := by
  unfold State.signal; split <;> rfl
@[simp] theorem State.signal_pending (s : State) (fn v : Nat) : (s.signal fn v).pending = s.pending := by
  unfold State.signal; split <;> rfl
@[simp] theorem State.signal_part (s : State) (fn v : Nat) : (s.signal fn v).part = s.part := by
  unfold State.signal; split <;> rfl
@[simp] theorem State.signal_free (s : State) (fn v : Nat) : (s.signal fn v).free = s.free := by
  unfold State.signal; split <;> rfl
@[simp] theorem State.signal_answer (s : State) (fn v : Nat) : (s.signal fn v).answer = s.answer := by
  unfold State.signal; split <;> rfl
@[simp] theorem State.signal_hostMem (s : State) (fn v : Nat) : (s.signal fn v).hostMem = s.hostMem := by
  unfold State.signal; split <;> rfl
@[simp] theorem State.signal_host (s : State) (fn v : Nat) : (s.signal fn v).host = s.host := by
  unfold State.signal; split <;> rfl
@[simp] theorem State.signal_amp (s : State) (fn v : Nat) : (s.signal fn v).amp = s.amp := by
  unfold State.signal; split <;> rfl
@[simp] theorem State.signal_faults (s : State) (fn v : Nat) : (s.signal fn v).faults = s.faults := by
  unfold State.signal; split <;> rfl
@[simp] theorem State.signal_power (s : State) (fn v : Nat) : (s.signal fn v).power = s.power := by
  unfold State.signal; split <;> rfl
@[simp] theorem State.signal_sec (s : State) (fn v : Nat) : (s.signal fn v).sec = s.sec := by
  unfold State.signal; split <;> rfl
@[simp] theorem State.signal_mgmt (s : State) (fn v : Nat) : (s.signal fn v).mgmt = s.mgmt := by
  unfold State.signal; split <;> rfl
@[simp] theorem State.signal_cl (s : State) (fn v : Nat) : (s.signal fn v).cl = s.cl := by
  unfold State.signal; split <;> rfl
@[simp] theorem State.signal_sched (s : State) (fn v : Nat) : (s.signal fn v).sched = s.sched := by
  unfold State.signal; split <;> rfl
@[simp] theorem State.signal_tiers (s : State) (fn v : Nat) : (s.signal fn v).tiers = s.tiers := by
  unfold State.signal; split <;> rfl
@[simp] theorem State.signal_tokens (s : State) (fn v : Nat) : (s.signal fn v).tokens = s.tokens := by
  unfold State.signal; split <;> rfl
@[simp] theorem State.signal_sel (s : State) (fn v : Nat) : (s.signal fn v).sel = s.sel := by
  unfold State.signal; split <;> rfl
@[simp] theorem State.signal_index (s : State) (fn v : Nat) : (s.signal fn v).index = s.index := by
  unfold State.signal; split <;> rfl
@[simp] theorem State.signal_pipes (s : State) (fn v : Nat) : (s.signal fn v).pipes = s.pipes := by
  unfold State.signal; split <;> rfl
@[simp] theorem State.signal_media (s : State) (fn v : Nat) : (s.signal fn v).media = s.media := by
  unfold State.signal; split <;> rfl
@[simp] theorem State.signal_ftl (s : State) (fn v : Nat) : (s.signal fn v).ftl = s.ftl := by
  unfold State.signal; split <;> rfl
@[simp] theorem State.signal_span (s : State) (fn v : Nat) : (s.signal fn v).span = s.span := by
  unfold State.signal; split <;> rfl
@[simp] theorem State.signal_upd (s : State) (fn v : Nat) : (s.signal fn v).upd = s.upd := by
  unfold State.signal; split <;> rfl
@[simp] theorem State.eventEdge_mem (s : State) (k : Nat) (w : Bool) : (s.eventEdge k w).mem = s.mem := by
  unfold State.eventEdge; dsimp only; repeat' split
  all_goals simp
@[simp] theorem State.eventEdge_poison (s : State) (k : Nat) (w : Bool) : (s.eventEdge k w).poison = s.poison := by
  unfold State.eventEdge; dsimp only; repeat' split
  all_goals simp
@[simp] theorem State.eventEdge_undef (s : State) (k : Nat) (w : Bool) : (s.eventEdge k w).undef = s.undef := by
  unfold State.eventEdge; dsimp only; repeat' split
  all_goals simp
@[simp] theorem State.eventEdge_pending (s : State) (k : Nat) (w : Bool) : (s.eventEdge k w).pending = s.pending := by
  unfold State.eventEdge; dsimp only; repeat' split
  all_goals simp
@[simp] theorem State.eventEdge_part (s : State) (k : Nat) (w : Bool) : (s.eventEdge k w).part = s.part := by
  unfold State.eventEdge; dsimp only; repeat' split
  all_goals simp
@[simp] theorem State.eventEdge_free (s : State) (k : Nat) (w : Bool) : (s.eventEdge k w).free = s.free := by
  unfold State.eventEdge; dsimp only; repeat' split
  all_goals simp
@[simp] theorem State.eventEdge_answer (s : State) (k : Nat) (w : Bool) : (s.eventEdge k w).answer = s.answer := by
  unfold State.eventEdge; dsimp only; repeat' split
  all_goals simp
@[simp] theorem State.eventEdge_hostMem (s : State) (k : Nat) (w : Bool) : (s.eventEdge k w).hostMem = s.hostMem := by
  unfold State.eventEdge; dsimp only; repeat' split
  all_goals simp
@[simp] theorem State.eventEdge_host (s : State) (k : Nat) (w : Bool) : (s.eventEdge k w).host = s.host := by
  unfold State.eventEdge; dsimp only; repeat' split
  all_goals simp
@[simp] theorem State.eventEdge_faults (s : State) (k : Nat) (w : Bool) : (s.eventEdge k w).faults = s.faults := by
  unfold State.eventEdge; dsimp only; repeat' split
  all_goals simp
@[simp] theorem State.eventEdge_power (s : State) (k : Nat) (w : Bool) : (s.eventEdge k w).power = s.power := by
  unfold State.eventEdge; dsimp only; repeat' split
  all_goals simp
@[simp] theorem State.eventEdge_sec (s : State) (k : Nat) (w : Bool) : (s.eventEdge k w).sec = s.sec := by
  unfold State.eventEdge; dsimp only; repeat' split
  all_goals simp
@[simp] theorem State.eventEdge_mgmt (s : State) (k : Nat) (w : Bool) : (s.eventEdge k w).mgmt = s.mgmt := by
  unfold State.eventEdge; dsimp only; repeat' split
  all_goals simp
@[simp] theorem State.eventEdge_cl (s : State) (k : Nat) (w : Bool) : (s.eventEdge k w).cl = s.cl := by
  unfold State.eventEdge; dsimp only; repeat' split
  all_goals simp
@[simp] theorem State.eventEdge_sched (s : State) (k : Nat) (w : Bool) : (s.eventEdge k w).sched = s.sched := by
  unfold State.eventEdge; dsimp only; repeat' split
  all_goals simp
@[simp] theorem State.eventEdge_tiers (s : State) (k : Nat) (w : Bool) : (s.eventEdge k w).tiers = s.tiers := by
  unfold State.eventEdge; dsimp only; repeat' split
  all_goals simp
@[simp] theorem State.eventEdge_tokens (s : State) (k : Nat) (w : Bool) : (s.eventEdge k w).tokens = s.tokens := by
  unfold State.eventEdge; dsimp only; repeat' split
  all_goals simp
@[simp] theorem State.eventEdge_sel (s : State) (k : Nat) (w : Bool) : (s.eventEdge k w).sel = s.sel := by
  unfold State.eventEdge; dsimp only; repeat' split
  all_goals simp
@[simp] theorem State.eventEdge_index (s : State) (k : Nat) (w : Bool) : (s.eventEdge k w).index = s.index := by
  unfold State.eventEdge; dsimp only; repeat' split
  all_goals simp
@[simp] theorem State.eventEdge_pipes (s : State) (k : Nat) (w : Bool) : (s.eventEdge k w).pipes = s.pipes := by
  unfold State.eventEdge; dsimp only; repeat' split
  all_goals simp
@[simp] theorem State.eventEdge_media (s : State) (k : Nat) (w : Bool) : (s.eventEdge k w).media = s.media := by
  unfold State.eventEdge; dsimp only; repeat' split
  all_goals simp
@[simp] theorem State.eventEdge_ftl (s : State) (k : Nat) (w : Bool) : (s.eventEdge k w).ftl = s.ftl := by
  unfold State.eventEdge; dsimp only; repeat' split
  all_goals simp
@[simp] theorem State.eventEdge_span (s : State) (k : Nat) (w : Bool) : (s.eventEdge k w).span = s.span := by
  unfold State.eventEdge; dsimp only; repeat' split
  all_goals simp
@[simp] theorem State.eventEdge_upd (s : State) (k : Nat) (w : Bool) : (s.eventEdge k w).upd = s.upd := by
  unfold State.eventEdge; dsimp only; repeat' split
  all_goals simp
@[simp] theorem State.postTo_mem (s : State) (k : Nat) (e : Event) : (s.postTo k e).mem = s.mem := by
  unfold State.postTo; dsimp only; split <;> simp [State.modMb]
@[simp] theorem State.postTo_poison (s : State) (k : Nat) (e : Event) : (s.postTo k e).poison = s.poison := by
  unfold State.postTo; dsimp only; split <;> simp [State.modMb]
@[simp] theorem State.postTo_undef (s : State) (k : Nat) (e : Event) : (s.postTo k e).undef = s.undef := by
  unfold State.postTo; dsimp only; split <;> simp [State.modMb]
@[simp] theorem State.postTo_pending (s : State) (k : Nat) (e : Event) : (s.postTo k e).pending = s.pending := by
  unfold State.postTo; dsimp only; split <;> simp [State.modMb]
@[simp] theorem State.postTo_part (s : State) (k : Nat) (e : Event) : (s.postTo k e).part = s.part := by
  unfold State.postTo; dsimp only; split <;> simp [State.modMb]
@[simp] theorem State.postTo_free (s : State) (k : Nat) (e : Event) : (s.postTo k e).free = s.free := by
  unfold State.postTo; dsimp only; split <;> simp [State.modMb]
@[simp] theorem State.postTo_answer (s : State) (k : Nat) (e : Event) : (s.postTo k e).answer = s.answer := by
  unfold State.postTo; dsimp only; split <;> simp [State.modMb]
@[simp] theorem State.postTo_hostMem (s : State) (k : Nat) (e : Event) : (s.postTo k e).hostMem = s.hostMem := by
  unfold State.postTo; dsimp only; split <;> simp [State.modMb]
@[simp] theorem State.postTo_host (s : State) (k : Nat) (e : Event) : (s.postTo k e).host = s.host := by
  unfold State.postTo; dsimp only; split <;> simp [State.modMb]
@[simp] theorem State.postTo_faults (s : State) (k : Nat) (e : Event) : (s.postTo k e).faults = s.faults := by
  unfold State.postTo; dsimp only; split <;> simp [State.modMb]
@[simp] theorem State.postTo_power (s : State) (k : Nat) (e : Event) : (s.postTo k e).power = s.power := by
  unfold State.postTo; dsimp only; split <;> simp [State.modMb]
@[simp] theorem State.postTo_sec (s : State) (k : Nat) (e : Event) : (s.postTo k e).sec = s.sec := by
  unfold State.postTo; dsimp only; split <;> simp [State.modMb]
@[simp] theorem State.postTo_mgmt (s : State) (k : Nat) (e : Event) : (s.postTo k e).mgmt = s.mgmt := by
  unfold State.postTo; dsimp only; split <;> simp [State.modMb]
@[simp] theorem State.postTo_cl (s : State) (k : Nat) (e : Event) : (s.postTo k e).cl = s.cl := by
  unfold State.postTo; dsimp only; split <;> simp [State.modMb]
@[simp] theorem State.postTo_sched (s : State) (k : Nat) (e : Event) : (s.postTo k e).sched = s.sched := by
  unfold State.postTo; dsimp only; split <;> simp [State.modMb]
@[simp] theorem State.postTo_tiers (s : State) (k : Nat) (e : Event) : (s.postTo k e).tiers = s.tiers := by
  unfold State.postTo; dsimp only; split <;> simp [State.modMb]
@[simp] theorem State.postTo_tokens (s : State) (k : Nat) (e : Event) : (s.postTo k e).tokens = s.tokens := by
  unfold State.postTo; dsimp only; split <;> simp [State.modMb]
@[simp] theorem State.postTo_sel (s : State) (k : Nat) (e : Event) : (s.postTo k e).sel = s.sel := by
  unfold State.postTo; dsimp only; split <;> simp [State.modMb]
@[simp] theorem State.postTo_index (s : State) (k : Nat) (e : Event) : (s.postTo k e).index = s.index := by
  unfold State.postTo; dsimp only; split <;> simp [State.modMb]
@[simp] theorem State.postTo_pipes (s : State) (k : Nat) (e : Event) : (s.postTo k e).pipes = s.pipes := by
  unfold State.postTo; dsimp only; split <;> simp [State.modMb]
@[simp] theorem State.postTo_media (s : State) (k : Nat) (e : Event) : (s.postTo k e).media = s.media := by
  unfold State.postTo; dsimp only; split <;> simp [State.modMb]
@[simp] theorem State.postTo_ftl (s : State) (k : Nat) (e : Event) : (s.postTo k e).ftl = s.ftl := by
  unfold State.postTo; dsimp only; split <;> simp [State.modMb]
@[simp] theorem State.postTo_span (s : State) (k : Nat) (e : Event) : (s.postTo k e).span = s.span := by
  unfold State.postTo; dsimp only; split <;> simp [State.modMb]
@[simp] theorem State.postTo_upd (s : State) (k : Nat) (e : Event) : (s.postTo k e).upd = s.upd := by
  unfold State.postTo; dsimp only; split <;> simp [State.modMb]
@[simp] theorem State.post_mem (s : State) (c k : Nat) (d : Bytes) : (s.post c k d).mem = s.mem := by
  simp [State.post]
@[simp] theorem State.post_poison (s : State) (c k : Nat) (d : Bytes) : (s.post c k d).poison = s.poison := by
  simp [State.post]
@[simp] theorem State.post_undef (s : State) (c k : Nat) (d : Bytes) : (s.post c k d).undef = s.undef := by
  simp [State.post]
@[simp] theorem State.post_pending (s : State) (c k : Nat) (d : Bytes) : (s.post c k d).pending = s.pending := by
  simp [State.post]
@[simp] theorem State.post_part (s : State) (c k : Nat) (d : Bytes) : (s.post c k d).part = s.part := by
  simp [State.post]
@[simp] theorem State.post_free (s : State) (c k : Nat) (d : Bytes) : (s.post c k d).free = s.free := by
  simp [State.post]
@[simp] theorem State.post_answer (s : State) (c k : Nat) (d : Bytes) : (s.post c k d).answer = s.answer := by
  simp [State.post]
@[simp] theorem State.post_hostMem (s : State) (c k : Nat) (d : Bytes) : (s.post c k d).hostMem = s.hostMem := by
  simp [State.post]
@[simp] theorem State.post_host (s : State) (c k : Nat) (d : Bytes) : (s.post c k d).host = s.host := by
  simp [State.post]
@[simp] theorem State.post_faults (s : State) (c k : Nat) (d : Bytes) : (s.post c k d).faults = s.faults := by
  simp [State.post]
@[simp] theorem State.post_power (s : State) (c k : Nat) (d : Bytes) : (s.post c k d).power = s.power := by
  simp [State.post]
@[simp] theorem State.post_sec (s : State) (c k : Nat) (d : Bytes) : (s.post c k d).sec = s.sec := by
  simp [State.post]
@[simp] theorem State.post_mgmt (s : State) (c k : Nat) (d : Bytes) : (s.post c k d).mgmt = s.mgmt := by
  simp [State.post]
@[simp] theorem State.post_cl (s : State) (c k : Nat) (d : Bytes) : (s.post c k d).cl = s.cl := by
  simp [State.post]
@[simp] theorem State.post_sched (s : State) (c k : Nat) (d : Bytes) : (s.post c k d).sched = s.sched := by
  simp [State.post]
@[simp] theorem State.post_tiers (s : State) (c k : Nat) (d : Bytes) : (s.post c k d).tiers = s.tiers := by
  simp [State.post]
@[simp] theorem State.post_tokens (s : State) (c k : Nat) (d : Bytes) : (s.post c k d).tokens = s.tokens := by
  simp [State.post]
@[simp] theorem State.post_sel (s : State) (c k : Nat) (d : Bytes) : (s.post c k d).sel = s.sel := by
  simp [State.post]
@[simp] theorem State.post_index (s : State) (c k : Nat) (d : Bytes) : (s.post c k d).index = s.index := by
  simp [State.post]
@[simp] theorem State.post_pipes (s : State) (c k : Nat) (d : Bytes) : (s.post c k d).pipes = s.pipes := by
  simp [State.post]
@[simp] theorem State.post_media (s : State) (c k : Nat) (d : Bytes) : (s.post c k d).media = s.media := by
  simp [State.post]
@[simp] theorem State.post_ftl (s : State) (c k : Nat) (d : Bytes) : (s.post c k d).ftl = s.ftl := by
  simp [State.post]
@[simp] theorem State.post_span (s : State) (c k : Nat) (d : Bytes) : (s.post c k d).span = s.span := by
  simp [State.post]
@[simp] theorem State.post_upd (s : State) (c k : Nat) (d : Bytes) : (s.post c k d).upd = s.upd := by
  simp [State.post]

/-! ## Crossing queues -/

/-- What a change makes of a queue is all that matters of it. -/
@[simp] theorem State.link_setLink (s : State) (l k : LinkId) (x : Link) :
    (s.setLink l x).link k = if k.key = l.key then x else s.link k := Tab.get_set _ _ _ _ _

@[simp] theorem State.xq_modXq (s : State) (q k : Nat) (f : XQueue → XQueue) :
    (s.modXq q f).xq k = if k = q then f (s.xq q) else s.xq k := Tab.get_mod _ _ _ _ _

@[simp] theorem State.cluster_modCl (s : State) (g k : Nat) (f : Cluster → Cluster) :
    (s.modCl g f).cluster k = if k = g then f (s.cluster g) else s.cluster k := Tab.get_mod _ _ _ _ _

theorem State.modXq_congr {s : State} {q : Nat} {f g : XQueue → XQueue} (h : f (s.xq q) = g (s.xq q)) : s.modXq q f = s.modXq q g := by
  simp only [State.modXq, State.modFabric, Tab.mod]
  rw [show f (Tab.get {} s.fabric.xq q) = g (Tab.get {} s.fabric.xq q) from h]

/-- What a change makes of a cluster is all that matters of it. -/
theorem State.modCl_congr {s : State} {g : Nat} {f k : Cluster → Cluster} (h : f (s.cluster g) = k (s.cluster g)) :
    s.modCl g f = s.modCl g k := by
  simp only [State.modCl, Tab.mod]
  rw [show f (Tab.get {} s.cl g) = k (Tab.get {} s.cl g) from h]

/-- Words that are all good are reported to nobody. -/
theorem reportBad_good (q : Nat) (l : List XWord) (s : State) (h : ∀ w ∈ l, w.bad = false) : reportBad q l s = s := by
  induction l with
  | nil => rfl
  | cons w l ih => simp [reportBad, h w (by simp), ih fun x hx => h x (by simp [hx])]

end Sys2Proof.Machine
end

