-- ==== Sys2Proof/Laws/RunsShared.lean ====
section
/-! SUPPORT. What running the shared operations keeps: one lemma per operation. -/

namespace Sys2Proof.Machine

variable {W : List Field} {s0 s : State}

/-! ## Ops -/

theorem State.writeNat_runs (hmemory : Field.memory ∈ W) (h : Runs W s0 s) (x1 x2 x3) :
    Runs W s0 (State.writeNat s x1 x2 x3) := by
  unfold State.writeNat
  try dsimp only
  repeat' first | with_reducible (first | assumption | apply State.writeMem_runs) | split

theorem State.feedHostTime_runs (hmedia : Field.media ∈ W) (h : Runs W s0 s) :
    Runs W s0 (State.feedHostTime s) := by
  unfold State.feedHostTime
  try dsimp only
  repeat' first | with_reducible (first | assumption | apply State.modMedia_runs) | split

theorem State.signal_runs (hfabric : Field.fabric ∈ W) (h : Runs W s0 s) (x1 x2) :
    Runs W s0 (State.signal s x1 x2) := by
  unfold State.signal
  try dsimp only
  repeat' first | with_reducible (first | assumption | apply State.modFabric_runs) | split

theorem State.modMb_runs (hamp : Field.amp ∈ W) (h : Runs W s0 s) (x1 x2) :
    Runs W s0 (State.modMb s x1 x2) := by
  unfold State.modMb
  try dsimp only
  repeat' first | with_reducible (first | assumption | apply State.modAmp_runs) | split

theorem State.eventEdge_runs (hfabric : Field.fabric ∈ W) (hamp : Field.amp ∈ W) (h : Runs W s0 s) (x1 x2) :
    Runs W s0 (State.eventEdge s x1 x2) := by
  unfold State.eventEdge
  try dsimp only
  repeat' first | with_reducible (first | assumption | apply State.signal_runs | apply State.modAmp_runs) | split

theorem State.postTo_runs (hfabric : Field.fabric ∈ W) (hamp : Field.amp ∈ W) (h : Runs W s0 s) (x1 x2) :
    Runs W s0 (State.postTo s x1 x2) := by
  unfold State.postTo
  try dsimp only
  repeat' first | with_reducible (first | assumption | apply State.eventEdge_runs | apply State.modMb_runs) | split

theorem State.post_runs (hfabric : Field.fabric ∈ W) (hamp : Field.amp ∈ W) (h : Runs W s0 s) (x1 x2 x3) :
    Runs W s0 (State.post s x1 x2 x3) := by
  unfold State.post
  try dsimp only
  repeat' first | with_reducible (first | assumption | apply State.postTo_runs) | split

theorem State.opDone_runs (hfabric : Field.fabric ∈ W) (hamp : Field.amp ∈ W) (h : Runs W s0 s) (x1 x2) :
    Runs W s0 (State.opDone s x1 x2) := by
  unfold State.opDone
  try dsimp only
  repeat' first | with_reducible (first | assumption | apply State.post_runs | apply State.modAmp_runs) | split

theorem State.opOpen_runs (hamp : Field.amp ∈ W) (h : Runs W s0 s) (x1) :
    OptRuns W s0 Prod.snd (State.opOpen s x1) := by
  unfold State.opOpen
  try dsimp only
  repeat' first | with_reducible (first | assumption | apply State.modAmp_runs | apply optRuns_none | refine optRuns_id ?_ | refine optRuns_some ?_ | refine optRuns_map ?_ (fun _ _ => ?_)) | split

theorem State.report_runs (hmemory : Field.memory ∈ W) (hfaults : Field.faults ∈ W) (h : Runs W s0 s) (x1 x2) :
    Runs W s0 (State.report s x1 x2) := by
  unfold State.report
  try dsimp only
  repeat' first | with_reducible (first | assumption | apply State.modFaults_runs | apply State.writeMem_runs) | split

/-! ## HostOps -/

theorem State.modCtrl_runs (hhost : Field.host ∈ W) (h : Runs W s0 s) (x1 x2) :
    Runs W s0 (State.modCtrl s x1 x2) := by
  unfold State.modCtrl
  try dsimp only
  repeat' first | with_reducible (first | assumption | apply State.modHost_runs) | split

theorem State.modStats_runs (hhost : Field.host ∈ W) (h : Runs W s0 s) (x1 x2) :
    Runs W s0 (State.modStats s x1 x2) := by
  unfold State.modStats
  try dsimp only
  repeat' first | with_reducible (first | assumption | apply State.modCtrl_runs) | split

theorem State.modSq_runs (hhost : Field.host ∈ W) (h : Runs W s0 s) (x1 x2 x3) :
    Runs W s0 (State.modSq s x1 x2 x3) := by
  unfold State.modSq
  try dsimp only
  repeat' first | with_reducible (first | assumption | apply State.modCtrl_runs) | split

theorem State.modCq_runs (hhost : Field.host ∈ W) (h : Runs W s0 s) (x1 x2 x3) :
    Runs W s0 (State.modCq s x1 x2 x3) := by
  unfold State.modCq
  try dsimp only
  repeat' first | with_reducible (first | assumption | apply State.modCtrl_runs) | split

theorem State.modTrk_runs (hhost : Field.host ∈ W) (h : Runs W s0 s) (x1 x2) :
    Runs W s0 (State.modTrk s x1 x2) := by
  unfold State.modTrk
  try dsimp only
  repeat' first | with_reducible (first | assumption | apply State.modHost_runs) | split

theorem State.freeTrk_runs (hhost : Field.host ∈ W) (h : Runs W s0 s) (x1) :
    Runs W s0 (State.freeTrk s x1) := by
  unfold State.freeTrk
  try dsimp only
  repeat' first | with_reducible (first | assumption | apply State.modHost_runs | apply State.modSq_runs | apply State.modCtrl_runs) | split

theorem State.noteOrdered_runs (hhost : Field.host ∈ W) (h : Runs W s0 s) (x1 x2) :
    Runs W s0 (State.noteOrdered s x1 x2) := by
  unfold State.noteOrdered
  try dsimp only
  repeat' first | with_reducible (first | assumption | apply State.modStats_runs | apply State.modSq_runs) | split

theorem State.pushCqe_runs (hfabric : Field.fabric ∈ W) (hhost : Field.host ∈ W) (h : Runs W s0 s) (x1 x2 x3) :
    Runs W s0 (State.pushCqe s x1 x2 x3) := by
  unfold State.pushCqe
  try dsimp only
  repeat' first | with_reducible (first | assumption | apply State.modCq_runs | apply State.signal_runs) | split

theorem wakeWaiters_runs (hhost : Field.host ∈ W) (h : Runs W s0 s) (x1) :
    Runs W s0 (wakeWaiters x1 s) := by
  fun_induction wakeWaiters x1 s <;> try rename_i ih
  all_goals try dsimp only
  all_goals repeat' first | with_reducible (first | assumption | apply ih | apply State.modTrk_runs) | split

theorem State.wakeSession_runs (hhost : Field.host ∈ W) (htiers : Field.tiers ∈ W) (h : Runs W s0 s) (x1) :
    Runs W s0 (State.wakeSession s x1) := by
  unfold State.wakeSession
  try dsimp only
  repeat' first | with_reducible (first | assumption | apply wakeWaiters_runs | apply State.modTiers_runs) | split

theorem State.complete_runs (hfabric : Field.fabric ∈ W) (hhost : Field.host ∈ W) (htiers : Field.tiers ∈ W) (h : Runs W s0 s) (x1 x2) :
    Runs W s0 (State.complete s x1 x2) := by
  unfold State.complete
  try dsimp only
  repeat' first | with_reducible (first | assumption | apply State.wakeSession_runs | apply State.freeTrk_runs | apply State.pushCqe_runs | apply State.modTrk_runs | apply State.modCq_runs | apply State.modStats_runs) | split

theorem State.completeOk_runs (hfabric : Field.fabric ∈ W) (hhost : Field.host ∈ W) (htiers : Field.tiers ∈ W) (h : Runs W s0 s) (x1) :
    Runs W s0 (State.completeOk s x1) := by
  unfold State.completeOk
  try dsimp only
  repeat' first | with_reducible (first | assumption | apply State.complete_runs) | split

theorem State.completeErr_runs (hfabric : Field.fabric ∈ W) (hhost : Field.host ∈ W) (htiers : Field.tiers ∈ W) (h : Runs W s0 s) (x1 x2 x3) :
    Runs W s0 (State.completeErr s x1 x2 x3) := by
  unfold State.completeErr
  try dsimp only
  repeat' first | with_reducible (first | assumption | apply State.complete_runs) | split

theorem State.completeSanitizing_runs (hfree : Field.free ∈ W) (hfabric : Field.fabric ∈ W) (hhost : Field.host ∈ W) (htiers : Field.tiers ∈ W) (h : Runs W s0 s) (x1) :
    Runs W s0 (State.completeSanitizing s x1) := by
  unfold State.completeSanitizing
  try dsimp only
  repeat' first | with_reducible (first | assumption | apply State.complete_runs | apply State.used_runs) | split

theorem State.writeHeader_runs (hhostMem : Field.hostMem ∈ W) (hhost : Field.host ∈ W) (h : Runs W s0 s) (x1) :
    Runs W s0 (State.writeHeader s x1) := by
  unfold State.writeHeader
  try dsimp only
  repeat' first | with_reducible (first | assumption | apply State.modTrk_runs | apply State.writeHost_runs) | split

theorem State.openResult_runs (hhostMem : Field.hostMem ∈ W) (hhost : Field.host ∈ W) (h : Runs W s0 s) (x1 x2 x3) :
    Runs W s0 (State.openResult s x1 x2 x3) := by
  unfold State.openResult
  try dsimp only
  repeat' first | with_reducible (first | assumption | apply State.writeHeader_runs | apply State.modTrk_runs) | split

theorem State.modResult_runs (hhost : Field.host ∈ W) (h : Runs W s0 s) (x1 x2) :
    Runs W s0 (State.modResult s x1 x2) := by
  unfold State.modResult
  try dsimp only
  repeat' first | with_reducible (first | assumption | apply State.modTrk_runs) | split

theorem State.appendResult_runs (hhostMem : Field.hostMem ∈ W) (hhost : Field.host ∈ W) (h : Runs W s0 s) (x1 x2 x3) :
    Runs W s0 (State.appendResult s x1 x2 x3) := by
  unfold State.appendResult
  try dsimp only
  repeat' first | with_reducible (first | assumption | apply State.modResult_runs | apply State.writeHost_runs) | split

theorem emitOn_runs (hhostMem : Field.hostMem ∈ W) (hhost : Field.host ∈ W) (h : Runs W s0 s) (x1 x2 x3 x4 x5 x6 x7) :
    Runs W s0 (emitOn x1 x2 x3 x4 x5 x6 x7 s) := by
  induction x5 generalizing s x6 x7 with
  | zero => exact h
  | succ n ih =>
    simp only [emitOn]
    split
    · exact h
    · apply ih
      repeat' first | with_reducible (first | assumption | apply State.appendResult_runs | apply State.writeHeader_runs) | split

theorem State.emit_runs (hhostMem : Field.hostMem ∈ W) (hhost : Field.host ∈ W) (h : Runs W s0 s) (x1 x2 x3 x4) :
    Runs W s0 (State.emit s x1 x2 x3 x4) := by
  unfold State.emit
  try dsimp only
  repeat' first | with_reducible (first | assumption | apply State.modResult_runs | apply emitOn_runs) | split

theorem State.flagResult_runs (hhost : Field.host ∈ W) (h : Runs W s0 s) (x1 x2) :
    Runs W s0 (State.flagResult s x1 x2) := by
  unfold State.flagResult
  try dsimp only
  repeat' first | with_reducible (first | assumption | apply State.modResult_runs) | split

theorem State.closeResult_runs (hhostMem : Field.hostMem ∈ W) (hhost : Field.host ∈ W) (h : Runs W s0 s) (x1 x2) :
    Runs W s0 (State.closeResult s x1 x2) := by
  unfold State.closeResult
  try dsimp only
  repeat' first | with_reducible (first | assumption | apply State.writeHeader_runs | apply State.modResult_runs | apply State.flagResult_runs) | split

theorem State.vendorEndWith_runs (hhostMem : Field.hostMem ∈ W) (hfabric : Field.fabric ∈ W) (hhost : Field.host ∈ W) (htiers : Field.tiers ∈ W) (h : Runs W s0 s) (x1 x2 x3 x4) :
    Runs W s0 (State.vendorEndWith s x1 x2 x3 x4) := by
  unfold State.vendorEndWith
  try dsimp only
  repeat' first | with_reducible (first | assumption | apply State.closeResult_runs | apply State.complete_runs | apply State.modStats_runs) | split

theorem State.vendorEnd_runs (hhostMem : Field.hostMem ∈ W) (hfabric : Field.fabric ∈ W) (hhost : Field.host ∈ W) (htiers : Field.tiers ∈ W) (h : Runs W s0 s) (x1 x2) :
    Runs W s0 (State.vendorEnd s x1 x2) := by
  unfold State.vendorEnd
  try dsimp only
  repeat' first | with_reducible (first | assumption | apply State.vendorEndWith_runs) | split

theorem State.vendorRefuse_runs (hfabric : Field.fabric ∈ W) (hhost : Field.host ∈ W) (htiers : Field.tiers ∈ W) (h : Runs W s0 s) (x1 x2) :
    Runs W s0 (State.vendorRefuse s x1 x2) := by
  unfold State.vendorRefuse
  try dsimp only
  repeat' first | with_reducible (first | assumption | apply State.complete_runs) | split

theorem State.admitTag_runs (hhost : Field.host ∈ W) (h : Runs W s0 s) (x1) :
    Runs W s0 (State.admitTag s x1) := by
  unfold State.admitTag
  try dsimp only
  repeat' first | with_reducible (first | assumption | apply State.modTrk_runs) | split

/-! ## AmpOps -/

theorem State.wake_runs (hfabric : Field.fabric ∈ W) (hamp : Field.amp ∈ W) (hpower : Field.power ∈ W) (hspan : Field.span ∈ W) (h : Runs W s0 s) :
    Runs W s0 (State.wake s) := by
  unfold State.wake
  try dsimp only
  repeat' first | with_reducible (first | assumption | apply State.modPower_runs | apply State.modSpan_runs | apply State.post_runs) | split

theorem ampCheckCritical_runs (hfabric : Field.fabric ∈ W) (hamp : Field.amp ∈ W) (h : Runs W s0 s) (x1 x2) :
    Runs W s0 (ampCheckCritical s x1 x2).1 := by
  unfold ampCheckCritical
  try dsimp only
  repeat' first | with_reducible (first | assumption | apply State.post_runs | apply State.modMb_runs) | split

theorem ampSubmit_runs (hfabric : Field.fabric ∈ W) (hamp : Field.amp ∈ W) (hpower : Field.power ∈ W) (hspan : Field.span ∈ W) (h : Runs W s0 s) (x1 x2 x3 x4) :
    Runs W s0 (ampSubmit x1 x2 x3 x4 s) := by
  unfold ampSubmit
  try dsimp only
  repeat' first | with_reducible (first | assumption | apply State.modAmp_runs | apply ampCheckCritical_runs | apply State.wake_runs | refine Runs.of_fst (by assumption) ?_) | split

theorem State.workDone_runs (hamp : Field.amp ∈ W) (h : Runs W s0 s) (x1 x2 x3) :
    Runs W s0 (State.workDone s x1 x2 x3) := by
  unfold State.workDone
  try dsimp only
  repeat' first | with_reducible (first | assumption | apply State.modAmp_runs) | split

theorem ampRefuse_runs  (h : Runs W s0 s) (x1) :
    Runs W s0 (ampRefuse x1 s).1 := by
  unfold ampRefuse
  try dsimp only
  repeat' first | with_reducible (first | assumption) | split

theorem ampAnswer_runs  (h : Runs W s0 s) (x1) :
    Runs W s0 (ampAnswer s x1).1 := by
  unfold ampAnswer
  try dsimp only
  repeat' first | with_reducible (first | assumption) | split

theorem ampLong_runs (hamp : Field.amp ∈ W) (h : Runs W s0 s) (x1) {f}
    (hf : ∀ i t, Runs W s0 t → Runs W s0 (f i t)) :
    Runs W s0 ((ampLong x1 f s).1) := by
  unfold ampLong
  try dsimp only
  repeat' first | with_reducible (first | assumption | apply hf | apply State.opOpen_runs | apply ampRefuse_runs | refine Runs.of_fst (by assumption) ?_ | refine Runs.of_some_snd (by assumption) ?_) | split

theorem ampExec_runs (hamp : Field.amp ∈ W) (h : Runs W s0 s) (x1 x2) {f}
    (hf : ∀ j t, Runs W s0 t → Runs W s0 (f j t).1) :
    Runs W s0 (ampExec x1 x2 f s) := by
  unfold ampExec
  try dsimp only
  repeat' first | with_reducible (first | assumption | apply hf | apply ampRefuse_runs | apply State.modAmp_runs | refine Runs.of_fst (by assumption) ?_) | split

theorem ampRespond_runs (hanswer : Field.answer ∈ W) (hfabric : Field.fabric ∈ W) (hamp : Field.amp ∈ W) (h : Runs W s0 s) (x1) :
    Runs W s0 (ampRespond x1 s) := by
  unfold ampRespond
  try dsimp only
  repeat' first | with_reducible (first | assumption | apply State.modAmp_runs | apply State.modMb_runs | apply State.signal_runs | apply State.reply_runs) | split

/-! ## MediaOps -/

theorem State.modChan_runs (hmedia : Field.media ∈ W) (h : Runs W s0 s) (x1 x2) :
    Runs W s0 (State.modChan s x1 x2) := by
  unfold State.modChan
  try dsimp only
  repeat' first | with_reducible (first | assumption | apply State.modMedia_runs) | split

theorem State.setPage_runs (hmedia : Field.media ∈ W) (h : Runs W s0 s) (x1 x2 x3) :
    Runs W s0 (State.setPage s x1 x2 x3) := by
  unfold State.setPage
  try dsimp only
  repeat' first | with_reducible (first | assumption | apply State.modMedia_runs) | split

theorem State.setCover_runs (hmedia : Field.media ∈ W) (h : Runs W s0 s) (x1 x2 x3) :
    Runs W s0 (State.setCover s x1 x2 x3) := by
  unfold State.setCover
  try dsimp only
  repeat' first | with_reducible (first | assumption | apply State.modMedia_runs) | split

theorem undefPages_runs (hfree : Field.free ∈ W) (hmedia : Field.media ∈ W) (h : Runs W s0 s) (x1 x2) :
    Runs W s0 (undefPages x1 x2 s) := by
  fun_induction undefPages x1 x2 s <;> try rename_i ih
  all_goals try dsimp only
  all_goals repeat' first | with_reducible (first | assumption | apply ih | apply State.used_runs | apply State.setPage_runs) | split

theorem State.fillBlock_runs (hfree : Field.free ∈ W) (hmedia : Field.media ∈ W) (h : Runs W s0 s) (x1 x2 x3) :
    Runs W s0 (State.fillBlock s x1 x2 x3) := by
  unfold State.fillBlock
  try dsimp only
  repeat' first | with_reducible (first | assumption | apply undefPages_runs | apply State.modMedia_runs) | split

theorem State.mediaPost_runs (hmemory : Field.memory ∈ W) (hmedia : Field.media ∈ W) (h : Runs W s0 s) (x1 x2 x3) :
    Runs W s0 (State.mediaPost s x1 x2 x3) := by
  unfold State.mediaPost
  try dsimp only
  repeat' first | with_reducible (first | assumption | apply State.writeMem_runs | apply State.modChan_runs) | split

theorem State.dropRequest_runs (hmedia : Field.media ∈ W) (h : Runs W s0 s) (x1 x2) :
    Runs W s0 (State.dropRequest s x1 x2) := by
  unfold State.dropRequest
  try dsimp only
  repeat' first | with_reducible (first | assumption | apply State.modChan_runs) | split

theorem State.modOp_runs (hmedia : Field.media ∈ W) (h : Runs W s0 s) (x1 x2 x3) :
    Runs W s0 (State.modOp s x1 x2 x3) := by
  unfold State.modOp
  try dsimp only
  repeat' first | with_reducible (first | assumption | apply State.modChan_runs) | split

theorem State.startMedia_runs (hmedia : Field.media ∈ W) (h : Runs W s0 s) (x1 x2 x3) :
    Runs W s0 (State.startMedia s x1 x2 x3) := by
  unfold State.startMedia
  try dsimp only
  repeat' first | with_reducible (first | assumption | apply State.modChan_runs | apply State.modOp_runs) | split

theorem State.dropOp_runs (hmedia : Field.media ∈ W) (h : Runs W s0 s) (x1 x2) :
    Runs W s0 (State.dropOp s x1 x2) := by
  unfold State.dropOp
  try dsimp only
  repeat' first | with_reducible (first | assumption | apply State.modChan_runs) | split

theorem State.cutShort_runs (hfree : Field.free ∈ W) (hmedia : Field.media ∈ W) (h : Runs W s0 s) (x1 x2) :
    Runs W s0 (State.cutShort s x1 x2) := by
  unfold State.cutShort
  try dsimp only
  repeat' first | with_reducible (first | assumption | apply State.modChan_runs | apply undefPages_runs) | split

/-! ## Fabric -/

theorem State.setLink_runs (hfabric : Field.fabric ∈ W) (h : Runs W s0 s) (x1 x2) :
    Runs W s0 (State.setLink s x1 x2) := by
  unfold State.setLink
  try dsimp only
  repeat' first | with_reducible (first | assumption | apply State.modFabric_runs) | split

theorem linkFlit_runs (hmemory : Field.memory ∈ W) (hfabric : Field.fabric ∈ W) (hfaults : Field.faults ∈ W) (h : Runs W s0 s) (x1 x2 x3) :
    Runs W s0 (linkFlit x1 x2 x3 s) := by
  unfold linkFlit
  try dsimp only
  repeat' first | with_reducible (first | assumption | apply State.setLink_runs | apply State.report_runs) | split

theorem execLinkFlitReceive_runs (hmemory : Field.memory ∈ W) (hfabric : Field.fabric ∈ W) (hfaults : Field.faults ∈ W) (h : Runs W s0 s) (x1 x2 x3) :
    Ends W s0 (execLinkFlitReceive x1 x2 x3 s) := by
  unfold execLinkFlitReceive
  try dsimp only
  repeat' first | with_reducible (first | assumption | apply linkFlit_runs | rw [ends_next]) | split

theorem linkRetrained_runs (hmemory : Field.memory ∈ W) (hfabric : Field.fabric ∈ W) (hfaults : Field.faults ∈ W) (h : Runs W s0 s) (x1 x2 x3) :
    Runs W s0 (linkRetrained x1 x2 x3 s) := by
  unfold linkRetrained
  try dsimp only
  repeat' first | with_reducible (first | assumption | apply State.setLink_runs | apply State.report_runs | apply State.modFaults_runs) | split

theorem State.modCount_runs (hfabric : Field.fabric ∈ W) (h : Runs W s0 s) (x1 x2) :
    Runs W s0 (State.modCount s x1 x2) := by
  unfold State.modCount
  try dsimp only
  repeat' first | with_reducible (first | assumption | apply State.modFabric_runs) | split

theorem countLoRead_runs (hanswer : Field.answer ∈ W) (hfabric : Field.fabric ∈ W) (h : Runs W s0 s) (x1 x2) :
    Runs W s0 (countLoRead x1 x2 s) := by
  unfold countLoRead
  try dsimp only
  repeat' first | with_reducible (first | assumption | apply State.reply_runs | apply State.modCount_runs) | split

theorem execLocalCountLoRead_runs (hanswer : Field.answer ∈ W) (hfabric : Field.fabric ∈ W) (h : Runs W s0 s) (x1 x2) :
    Ends W s0 (execLocalCountLoRead x1 x2 s) := by
  unfold execLocalCountLoRead
  try dsimp only
  repeat' first | with_reducible (first | assumption | apply countLoRead_runs | rw [ends_next]) | split

theorem State.modXq_runs (hfabric : Field.fabric ∈ W) (h : Runs W s0 s) (x1 x2) :
    Runs W s0 (State.modXq s x1 x2) := by
  unfold State.modXq
  try dsimp only
  repeat' first | with_reducible (first | assumption | apply State.modFabric_runs) | split

theorem reportBad_runs (hmemory : Field.memory ∈ W) (hfaults : Field.faults ∈ W) (h : Runs W s0 s) (x1 x2) :
    Runs W s0 (reportBad x1 x2 s) := by
  fun_induction reportBad x1 x2 s <;> try rename_i ih
  all_goals try dsimp only
  all_goals repeat' first | with_reducible (first | assumption | apply ih | apply State.report_runs) | split

theorem State.modChannelOf_runs (hpipes : Field.pipes ∈ W) (h : Runs W s0 s) (x1 x2) :
    Runs W s0 (State.modChannelOf s x1 x2) := by
  unfold State.modChannelOf
  try dsimp only
  repeat' first | with_reducible (first | assumption | apply State.modPipes_runs) | split

theorem State.resetXq_runs (hfabric : Field.fabric ∈ W) (hpipes : Field.pipes ∈ W) (h : Runs W s0 s) (x1) :
    Runs W s0 (State.resetXq s x1) := by
  unfold State.resetXq
  try dsimp only
  repeat' first | with_reducible (first | assumption | apply State.modChannelOf_runs | apply State.modXq_runs) | split

theorem execCqFlush_runs (hfabric : Field.fabric ∈ W) (hpipes : Field.pipes ∈ W) (h : Runs W s0 s) (x1 x2) :
    Ends W s0 (execCqFlush x1 x2 s) := by
  unfold execCqFlush
  try dsimp only
  repeat' first | with_reducible (first | assumption | apply State.resetXq_runs | apply State.modXq_runs | rw [ends_next]) | split

theorem execCqWordReadable_runs (hmemory : Field.memory ∈ W) (hfabric : Field.fabric ∈ W) (hfaults : Field.faults ∈ W) (h : Runs W s0 s) (x1 x2) :
    Ends W s0 (execCqWordReadable x1 x2 s) := by
  unfold execCqWordReadable
  try dsimp only
  repeat' first | with_reducible (first | assumption | apply reportBad_runs | apply State.modXq_runs | rw [ends_next]) | split

theorem execCqRead_runs (hanswer : Field.answer ∈ W) (hfabric : Field.fabric ∈ W) (hpipes : Field.pipes ∈ W) (h : Runs W s0 s) (x1 x2) :
    Ends W s0 (execCqRead x1 x2 s) := by
  unfold execCqRead
  try dsimp only
  repeat' first | with_reducible (first | assumption | apply State.reply_runs | apply State.modXq_runs | apply State.resetXq_runs | apply State.modChannelOf_runs | rw [ends_next]) | split

theorem execCqCtrlFlush_runs (hfabric : Field.fabric ∈ W) (h : Runs W s0 s) (x1) :
    Ends W s0 (execCqCtrlFlush x1 s) := by
  unfold execCqCtrlFlush
  try dsimp only
  repeat' first | with_reducible (first | assumption | apply State.modXq_runs | rw [ends_next]) | split

theorem execCqReset_runs (hfabric : Field.fabric ∈ W) (hpipes : Field.pipes ∈ W) (h : Runs W s0 s) (x1) :
    Ends W s0 (execCqReset x1 s) := by
  unfold execCqReset
  try dsimp only
  repeat' first | with_reducible (first | assumption | apply State.resetXq_runs | rw [ends_next]) | split

theorem execCqClrCounts_runs (hfabric : Field.fabric ∈ W) (h : Runs W s0 s) (x1) :
    Ends W s0 (execCqClrCounts x1 s) := by
  unfold execCqClrCounts
  try dsimp only
  repeat' first | with_reducible (first | assumption | apply State.modXq_runs | rw [ends_next]) | split

theorem execCqThreshLevelWrite_runs (hfabric : Field.fabric ∈ W) (h : Runs W s0 s) (x1 x2) :
    Ends W s0 (execCqThreshLevelWrite x1 x2 s) := by
  unfold execCqThreshLevelWrite
  try dsimp only
  repeat' first | with_reducible (first | assumption | apply State.modXq_runs | rw [ends_next]) | split

theorem xqRegWrite_runs (hfabric : Field.fabric ∈ W) (h : Runs W s0 s) (x1 x2 x3) :
    Runs W s0 (xqRegWrite x1 x2 x3 s) := by
  unfold xqRegWrite
  try dsimp only
  repeat' first | with_reducible (first | assumption | apply State.modXq_runs) | split

/-! ## PipeOps -/

theorem State.modPipe_runs (hpipes : Field.pipes ∈ W) (h : Runs W s0 s) (x1 x2) :
    Runs W s0 (State.modPipe s x1 x2) := by
  unfold State.modPipe
  try dsimp only
  repeat' first | with_reducible (first | assumption | apply State.modPipes_runs) | split

theorem State.modChJob_runs (hpipes : Field.pipes ∈ W) (h : Runs W s0 s) (x1 x2 x3) :
    Runs W s0 (State.modChJob s x1 x2 x3) := by
  unfold State.modChJob
  try dsimp only
  repeat' first | with_reducible (first | assumption | apply State.modPipe_runs) | split

theorem State.modRun_runs (hpipes : Field.pipes ∈ W) (h : Runs W s0 s) (x1 x2) :
    Runs W s0 (State.modRun s x1 x2) := by
  unfold State.modRun
  try dsimp only
  repeat' first | with_reducible (first | assumption | apply State.modPipe_runs) | split

theorem State.pump_runs (hfabric : Field.fabric ∈ W) (hpipes : Field.pipes ∈ W) (h : Runs W s0 s) (x1) :
    Runs W s0 (State.pump s x1) := by
  unfold State.pump
  try dsimp only
  repeat' first | with_reducible (first | assumption | apply State.modPipe_runs | apply State.modXq_runs) | split

theorem writeFragment_runs (hmemory : Field.memory ∈ W) (h : Runs W s0 s) (x1 x2) :
    Runs W s0 (writeFragment x1 x2 s) := by
  unfold writeFragment
  try dsimp only
  repeat' first | with_reducible (first | assumption | apply State.poisonWord_runs | apply State.writeMem_runs | refine runs_foldl (fun _ _ _ => ?_) _ ?_) | split

theorem State.feedJob_runs (hmemory : Field.memory ∈ W) (hfabric : Field.fabric ∈ W) (hpipes : Field.pipes ∈ W) (h : Runs W s0 s) (x1 x2 x3 x4) :
    Runs W s0 (State.feedJob s x1 x2 x3 x4) := by
  unfold State.feedJob
  try dsimp only
  repeat' first | with_reducible (first | assumption | apply State.modRun_runs | apply State.modPipe_runs | apply writeFragment_runs | apply State.pump_runs) | split

theorem State.tryFeed_runs (hmemory : Field.memory ∈ W) (hfabric : Field.fabric ∈ W) (hpipes : Field.pipes ∈ W) (h : Runs W s0 s) (x1) :
    Runs W s0 (State.tryFeed s x1) := by
  unfold State.tryFeed
  try dsimp only
  repeat' first | with_reducible (first | assumption | apply State.feedJob_runs) | split

theorem State.codewordIn_runs (hpipes : Field.pipes ∈ W) (h : Runs W s0 s) (x1 x2 x3 x4 x5) :
    Runs W s0 (State.codewordIn s x1 x2 x3 x4 x5) := by
  unfold State.codewordIn
  try dsimp only
  repeat' first | with_reducible (first | assumption | apply State.modChJob_runs) | split

theorem State.codewordLost_runs (hmemory : Field.memory ∈ W) (hfaults : Field.faults ∈ W) (hpipes : Field.pipes ∈ W) (h : Runs W s0 s) (x1 x2 x3 x4 x5) :
    Runs W s0 (State.codewordLost s x1 x2 x3 x4 x5) := by
  unfold State.codewordLost
  try dsimp only
  repeat' first | with_reducible (first | assumption | apply State.modChJob_runs | apply State.report_runs) | split

theorem State.entryInline_runs (hmemory : Field.memory ∈ W) (hfaults : Field.faults ∈ W) (hpipes : Field.pipes ∈ W) (h : Runs W s0 s) (x1 x2 x3 x4 x5) :
    Runs W s0 (State.entryInline s x1 x2 x3 x4 x5) := by
  unfold State.entryInline
  try dsimp only
  repeat' first | with_reducible (first | assumption | apply State.codewordLost_runs | apply State.codewordIn_runs | refine runs_foldl (fun _ _ _ => ?_) _ ?_) | split

theorem State.readAhead_runs (hmemory : Field.memory ∈ W) (hfaults : Field.faults ∈ W) (hpipes : Field.pipes ∈ W) (hmedia : Field.media ∈ W) (h : Runs W s0 s) (x1 x2 x3) :
    Runs W s0 (State.readAhead x1 x2 x3 s) := by
  fun_induction State.readAhead x1 x2 x3 s <;> try rename_i ih
  all_goals try dsimp only
  all_goals repeat' first | with_reducible (first | assumption | apply ih | apply State.modChJob_runs | apply State.entryInline_runs | apply State.modChan_runs) | split

theorem State.fetchFor_runs (hmemory : Field.memory ∈ W) (hfaults : Field.faults ∈ W) (hpipes : Field.pipes ∈ W) (hmedia : Field.media ∈ W) (h : Runs W s0 s) (x1 x2) :
    Runs W s0 (State.fetchFor s x1 x2) := by
  unfold State.fetchFor
  try dsimp only
  repeat' first | with_reducible (first | assumption | apply State.readAhead_runs) | split

theorem State.advance_runs (hmemory : Field.memory ∈ W) (hfabric : Field.fabric ∈ W) (hfaults : Field.faults ∈ W) (hpipes : Field.pipes ∈ W) (hmedia : Field.media ∈ W) (h : Runs W s0 s) (x1) :
    Runs W s0 (State.advance s x1) := by
  unfold State.advance
  try dsimp only
  repeat' first | with_reducible (first | assumption | apply State.fetchFor_runs | apply State.tryFeed_runs) | split

theorem State.cutJob_runs (hpipes : Field.pipes ∈ W) (hmedia : Field.media ∈ W) (h : Runs W s0 s) (x1 x2 x3) :
    Runs W s0 (State.cutJob s x1 x2 x3) := by
  unfold State.cutJob
  try dsimp only
  repeat' first | with_reducible (first | assumption | apply State.modRun_runs | apply State.modChan_runs) | split

theorem codewordBack_runs (hmemory : Field.memory ∈ W) (hfaults : Field.faults ∈ W) (hpipes : Field.pipes ∈ W) (hftl : Field.ftl ∈ W) (h : Runs W s0 s) (x1 x2 x3 x4 x5 x6 x7 x8 x9 x10) :
    Runs W s0 (codewordBack x1 x2 x3 x4 x5 x6 x7 x8 x9 x10 s) := by
  unfold codewordBack
  try dsimp only
  repeat' first | with_reducible (first | assumption | apply State.modFtl_runs | apply State.report_runs | apply State.codewordLost_runs | apply State.codewordIn_runs | apply State.modChJob_runs | apply State.modPipe_runs) | split

theorem pipeRead_runs (hmemory : Field.memory ∈ W) (hfree : Field.free ∈ W) (hfabric : Field.fabric ∈ W) (hfaults : Field.faults ∈ W) (hpipes : Field.pipes ∈ W) (hmedia : Field.media ∈ W) (hftl : Field.ftl ∈ W) (h : Runs W s0 s) (x1 x2 x3 x4) :
    Runs W s0 (pipeRead x1 x2 x3 x4 s) := by
  unfold pipeRead
  split
  · split
    · split
      · apply State.pump_runs <;> first | with_reducible assumption | (apply State.modChJob_runs <;> with_reducible assumption)
      · extract_lets e x cover g s1 again s2 s3
        have h1 : Runs W s0 s1 := runs_foldl (fun t a ht => by apply codewordBack_runs <;> with_reducible assumption) _ (h.taking hfree 4)
        clear_value s1
        have h2 : Runs W s0 s2 := by apply State.modChJob_runs <;> with_reducible assumption
        have h3 : Runs W s0 s3 := by
          unfold s3; split
          · apply State.modChan_runs <;> with_reducible assumption
          · exact h2
        apply State.advance_runs <;> with_reducible assumption
    · exact h
  · exact h

theorem State.rerunJob_runs (hmemory : Field.memory ∈ W) (hfabric : Field.fabric ∈ W) (hfaults : Field.faults ∈ W) (hpipes : Field.pipes ∈ W) (hmedia : Field.media ∈ W) (h : Runs W s0 s) (x1) :
    Runs W s0 (State.rerunJob s x1) := by
  unfold State.rerunJob
  try dsimp only
  repeat' first | with_reducible (first | assumption | apply State.modPipe_runs | apply State.advance_runs | apply State.modRun_runs) | split

theorem State.jobFault_runs (hmemory : Field.memory ∈ W) (hfabric : Field.fabric ∈ W) (hfaults : Field.faults ∈ W) (hpipes : Field.pipes ∈ W) (hmedia : Field.media ∈ W) (h : Runs W s0 s) (x1 x2) :
    Runs W s0 (State.jobFault s x1 x2) := by
  unfold State.jobFault
  try dsimp only
  repeat' first | with_reducible (first | assumption | apply State.report_runs | apply State.modRun_runs | apply State.cutJob_runs | apply State.rerunJob_runs) | split

/-! ## FtlOps -/

theorem State.openEu_runs (hfree : Field.free ∈ W) (hmedia : Field.media ∈ W) (hftl : Field.ftl ∈ W) (h : Runs W s0 s) (x1) :
    Runs W s0 (State.openEu s x1) := by
  unfold State.openEu
  try dsimp only
  repeat' first | with_reducible (first | assumption | apply State.modChan_runs | apply State.fillBlock_runs | apply State.modFtl_runs | refine runs_foldl (fun _ _ _ => ?_) _ ?_) | split

theorem State.takeSlot_runs (hfree : Field.free ∈ W) (hmedia : Field.media ∈ W) (hftl : Field.ftl ∈ W) (h : Runs W s0 s) (x1) :
    Runs W s0 (State.takeSlot s x1).2 := by
  unfold State.takeSlot
  try dsimp only
  repeat' first | with_reducible (first | assumption | apply State.openEu_runs | apply State.modFtl_runs) | split

theorem bufferUnits_runs (hfree : Field.free ∈ W) (hmedia : Field.media ∈ W) (hftl : Field.ftl ∈ W) (h : Runs W s0 s) (x1 x2 x3 x4 x5) :
    Runs W s0 (bufferUnits x1 x2 x3 x4 x5 s).2 := by
  fun_induction bufferUnits x1 x2 x3 x4 x5 s <;> try rename_i ih
  all_goals try dsimp only
  all_goals repeat' first | with_reducible (first | assumption | apply ih | apply State.takeSlot_runs | apply State.modFtl_runs | refine Runs.of_snd (by assumption) ?_) | split

theorem State.commitUnits_runs (hfree : Field.free ∈ W) (hmedia : Field.media ∈ W) (hftl : Field.ftl ∈ W) (h : Runs W s0 s) (x1 x2 x3 x4 x5) :
    Runs W s0 (State.commitUnits s x1 x2 x3 x4 x5) := by
  unfold State.commitUnits
  try dsimp only
  repeat' first | with_reducible (first | assumption | apply bufferUnits_runs | apply State.modFtl_runs | refine Runs.of_snd (by assumption) ?_) | split

theorem State.programUnit_runs (hmedia : Field.media ∈ W) (h : Runs W s0 s) (x1 x2) :
    Runs W s0 (State.programUnit s x1 x2) := by
  unfold State.programUnit
  try dsimp only
  repeat' first | with_reducible (first | assumption | apply State.setCover_runs | apply State.setPage_runs | refine runs_foldl (fun _ _ _ => ?_) _ ?_) | split

theorem State.setWps_runs (hmedia : Field.media ∈ W) (h : Runs W s0 s) (x1 x2) :
    Runs W s0 (State.setWps s x1 x2) := by
  unfold State.setWps
  try dsimp only
  repeat' first | with_reducible (first | assumption | apply State.modChan_runs | refine runs_foldl (fun _ _ _ => ?_) _ ?_) | split

theorem State.healthCheck_runs (hfabric : Field.fabric ∈ W) (hamp : Field.amp ∈ W) (hftl : Field.ftl ∈ W) (h : Runs W s0 s) :
    Runs W s0 (State.healthCheck s) := by
  unfold State.healthCheck
  try dsimp only
  repeat' first | with_reducible (first | assumption | apply State.post_runs | apply State.modFtl_runs) | split

theorem State.enterReadOnly_runs (hfabric : Field.fabric ∈ W) (hamp : Field.amp ∈ W) (hftl : Field.ftl ∈ W) (h : Runs W s0 s) :
    Runs W s0 (State.enterReadOnly s) := by
  unfold State.enterReadOnly
  try dsimp only
  repeat' first | with_reducible (first | assumption | apply State.post_runs | apply State.modFtl_runs) | split

theorem State.retireEu_runs (hmemory : Field.memory ∈ W) (hfabric : Field.fabric ∈ W) (hamp : Field.amp ∈ W) (hfaults : Field.faults ∈ W) (hftl : Field.ftl ∈ W) (h : Runs W s0 s) (x1 x2) :
    Runs W s0 (State.retireEu s x1 x2) := by
  unfold State.retireEu
  try dsimp only
  repeat' first | with_reducible (first | assumption | apply State.modFtl_runs | apply State.healthCheck_runs | apply State.report_runs) | split

theorem State.eraseEu_runs (hmemory : Field.memory ∈ W) (hfree : Field.free ∈ W) (hfabric : Field.fabric ∈ W) (hamp : Field.amp ∈ W) (hfaults : Field.faults ∈ W) (hmedia : Field.media ∈ W) (hftl : Field.ftl ∈ W) (h : Runs W s0 s) (x1 x2) :
    Runs W s0 (State.eraseEu s x1 x2) := by
  unfold State.eraseEu
  try dsimp only
  repeat' first | with_reducible (first | assumption | apply State.modFtl_runs | apply State.modChan_runs | apply State.fillBlock_runs | apply State.healthCheck_runs | apply State.retireEu_runs | refine runs_foldl (fun _ _ _ => ?_) _ ?_) | split

theorem relocate_runs (hfree : Field.free ∈ W) (hmedia : Field.media ∈ W) (hftl : Field.ftl ∈ W) (h : Runs W s0 s) (x1 x2) :
    Runs W s0 (relocate x1 x2 s) := by
  fun_induction relocate x1 x2 s <;> try rename_i ih
  all_goals try dsimp only
  all_goals repeat' first | with_reducible (first | assumption | apply ih | apply bufferUnits_runs | apply State.modFtl_runs | refine Runs.of_snd (by assumption) ?_) | split

/-! ## Sp -/

theorem State.dropWrites_runs (hcl : Field.cl ∈ W) (h : Runs W s0 s) (x1 x2) :
    Runs W s0 (State.dropWrites s x1 x2) := by
  unfold State.dropWrites
  try dsimp only
  repeat' first | with_reducible (first | assumption | apply State.modCl_runs) | split

theorem State.modTask_runs (hsched : Field.sched ∈ W) (h : Runs W s0 s) (x1 x2) :
    Runs W s0 (State.modTask s x1 x2) := by
  unfold State.modTask
  try dsimp only
  repeat' first | with_reducible (first | assumption | apply State.modSched_runs) | split

theorem State.reportBadWord_runs (hmemory : Field.memory ∈ W) (hfaults : Field.faults ∈ W) (hcl : Field.cl ∈ W) (h : Runs W s0 s) (x1 x2 x3) :
    Runs W s0 (State.reportBadWord s x1 x2 x3) := by
  unfold State.reportBadWord
  try dsimp only
  repeat' first | with_reducible (first | assumption | apply State.modCl_runs | apply State.report_runs) | split

theorem State.metBad_runs (hmemory : Field.memory ∈ W) (hfree : Field.free ∈ W) (hfaults : Field.faults ∈ W) (hcl : Field.cl ∈ W) (hsched : Field.sched ∈ W) (h : Runs W s0 s) (x1 x2) :
    Runs W s0 (State.metBad s x1 x2) := by
  unfold State.metBad
  try dsimp only
  repeat' first | with_reducible (first | assumption | apply State.used_runs | apply State.reportBadWord_runs | apply State.modTask_runs) | split

theorem State.checkRead_runs (hmemory : Field.memory ∈ W) (hfree : Field.free ∈ W) (hfaults : Field.faults ∈ W) (hcl : Field.cl ∈ W) (hsched : Field.sched ∈ W) (h : Runs W s0 s) (x1 x2 x3 x4) :
    Runs W s0 (State.checkRead s x1 x2 x3 x4).2 := by
  unfold State.checkRead
  try dsimp only
  repeat' first | with_reducible (first | assumption | apply State.metBad_runs | apply State.used_runs) | split

theorem State.store_runs (hmemory : Field.memory ∈ W) (hcl : Field.cl ∈ W) (h : Runs W s0 s) (x1 x2) :
    Runs W s0 (State.store s x1 x2) := by
  unfold State.store
  dsimp only
  have h1 : Runs W s0 { s.writeMem x1 x2 with cl := (s.writeMem x1 x2).cl.map fun p => (p.1, p.2.taint (x1, x2.length)) } :=
    (State.writeMem_runs hmemory h x1 x2).step
      (by constructor <;> first | rfl | exact .inl (by assumption) | exact .inr rfl | exact .inr ⟨rfl, rfl, rfl⟩) rfl rfl rfl rfl rfl
  split
  · exact State.modCl_runs hcl h1 _ _
  · exact h1

theorem State.writePieces_runs (hmemory : Field.memory ∈ W) (hfree : Field.free ∈ W) (hcl : Field.cl ∈ W) (h : Runs W s0 s) (x1 x2 x3) :
    Runs W s0 (State.writePieces s x1 x2 x3).2 := by
  fun_induction State.writePieces s x1 x2 x3 <;> try rename_i ih
  all_goals try dsimp only
  all_goals repeat' first | with_reducible (first | assumption | apply ih | apply State.store_runs | apply State.used_runs | apply State.dropWrites_runs | refine Runs.of_snd (by assumption) ?_) | split

theorem State.writeRange_runs (hmemory : Field.memory ∈ W) (hfree : Field.free ∈ W) (hcl : Field.cl ∈ W) (h : Runs W s0 s) (x1 x2 x3 x4) :
    Runs W s0 (State.writeRange s x1 x2 x3 x4).2 := by
  unfold State.writeRange
  try dsimp only
  repeat' first | with_reducible (first | assumption | apply State.store_runs | apply State.writePieces_runs | refine Runs.of_snd (by assumption) ?_) | split

theorem State.mergeWord_runs (hmemory : Field.memory ∈ W) (hfree : Field.free ∈ W) (hfaults : Field.faults ∈ W) (hcl : Field.cl ∈ W) (hsched : Field.sched ∈ W) (h : Runs W s0 s) (x1 x2) :
    Runs W s0 (State.mergeWord s x1 x2) := by
  unfold State.mergeWord
  extract_lets bad s1 s2
  have h1 : Runs W s0 s1 := by
    unfold s1; split
    · apply State.metBad_runs <;> with_reducible assumption
    · exact State.used_runs hfree h
  have h2 : Runs W s0 s2 := h1.step
    (by constructor <;> first | rfl | exact .inl (by assumption) | exact .inr rfl | exact .inr ⟨rfl, rfl, rfl⟩) rfl rfl rfl rfl rfl
  split
  · exact State.poisonWord_runs hmemory h2 _
  · exact h2

theorem State.storeMerge_runs (hmemory : Field.memory ∈ W) (hfree : Field.free ∈ W) (hfaults : Field.faults ∈ W) (hcl : Field.cl ∈ W) (hsched : Field.sched ∈ W) (h : Runs W s0 s) (x1 x2 x3) :
    Runs W s0 (State.storeMerge s x1 x2 x3) := by
  unfold State.storeMerge
  try dsimp only
  repeat' first | with_reducible (first | assumption | apply State.store_runs | apply State.mergeWord_runs | refine runs_foldl (fun _ _ _ => ?_) _ ?_) | split

theorem State.modWaiting_runs (hsched : Field.sched ∈ W) (h : Runs W s0 s) (x1) :
    Runs W s0 (State.modWaiting s x1) := by
  unfold State.modWaiting
  try dsimp only
  repeat' first | with_reducible (first | assumption | apply State.modSched_runs) | split

theorem State.modSavedOf_runs (hsched : Field.sched ∈ W) (h : Runs W s0 s) (x1 x2 x3) :
    Runs W s0 (State.modSavedOf s x1 x2 x3) := by
  unfold State.modSavedOf
  try dsimp only
  repeat' first | with_reducible (first | assumption | apply State.modWaiting_runs) | split

theorem State.postSlot_runs (hcl : Field.cl ∈ W) (hsched : Field.sched ∈ W) (h : Runs W s0 s) (x1 x2 x3) :
    Runs W s0 (State.postSlot s x1 x2 x3) := by
  unfold State.postSlot
  try dsimp only
  repeat' first | with_reducible (first | assumption | apply State.modCl_runs | apply State.modSavedOf_runs) | split

theorem State.noteAttempt_runs (hsched : Field.sched ∈ W) (h : Runs W s0 s) (x1 x2 x3) :
    Runs W s0 (State.noteAttempt s x1 x2 x3) := by
  unfold State.noteAttempt
  try dsimp only
  repeat' first | with_reducible (first | assumption | apply State.modTask_runs | apply State.modSavedOf_runs) | split

/-! ## MergeOps -/

theorem State.modMerge_runs (hsel : Field.sel ∈ W) (h : Runs W s0 s) (x1 x2) :
    Runs W s0 (State.modMerge s x1 x2) := by
  unfold State.modMerge
  try dsimp only
  repeat' first | with_reducible (first | assumption | apply State.modSel_runs) | split

theorem State.openMerge_runs (hsel : Field.sel ∈ W) (h : Runs W s0 s) (x1 x2 x3 x4) :
    Runs W s0 (State.openMerge s x1 x2 x3 x4) := by
  unfold State.openMerge
  try dsimp only
  repeat' first | with_reducible (first | assumption | apply State.modSel_runs) | split

theorem State.tally_runs (hsel : Field.sel ∈ W) (h : Runs W s0 s) (x1) :
    Runs W s0 (State.tally s x1) := by
  unfold State.tally
  try dsimp only
  repeat' first | with_reducible (first | assumption | apply State.modSel_runs) | split

theorem State.mergeTo_runs (hmemory : Field.memory ∈ W) (hcl : Field.cl ∈ W) (hsel : Field.sel ∈ W) (h : Runs W s0 s) (x1 x2 x3) :
    Runs W s0 (State.mergeTo s x1 x2 x3) := by
  unfold State.mergeTo
  try dsimp only
  repeat' first | with_reducible (first | assumption | apply State.tally_runs | apply State.modMerge_runs | apply State.store_runs | refine runs_foldl (fun _ _ _ => ?_) _ ?_) | split

theorem State.mergeArrive_runs (hmemory : Field.memory ∈ W) (hcl : Field.cl ∈ W) (hsel : Field.sel ∈ W) (h : Runs W s0 s) (x1 x2) :
    Runs W s0 (State.mergeArrive s x1 x2) := by
  unfold State.mergeArrive
  try dsimp only
  repeat' first | with_reducible (first | assumption | apply State.mergeTo_runs) | split

theorem State.dropMerge_runs (hsel : Field.sel ∈ W) (h : Runs W s0 s) (x1) :
    Runs W s0 (State.dropMerge s x1) := by
  unfold State.dropMerge
  try dsimp only
  repeat' first | with_reducible (first | assumption | apply State.modSel_runs) | split

theorem State.mergeJobDone_runs (hsel : Field.sel ∈ W) (h : Runs W s0 s) (x1) :
    Runs W s0 (State.mergeJobDone s x1) := by
  unfold State.mergeJobDone
  try dsimp only
  repeat' first | with_reducible (first | assumption | apply State.modMerge_runs) | split

/-! ## GenOps -/

theorem State.modSession_runs (htiers : Field.tiers ∈ W) (h : Runs W s0 s) (x1 x2) :
    Runs W s0 (State.modSession s x1 x2) := by
  unfold State.modSession
  try dsimp only
  repeat' first | with_reducible (first | assumption | apply State.modTiers_runs) | split

theorem State.sessionDone_runs (hhost : Field.host ∈ W) (htiers : Field.tiers ∈ W) (h : Runs W s0 s) (x1) :
    Runs W s0 (State.sessionDone s x1) := by
  unfold State.sessionDone
  try dsimp only
  repeat' first | with_reducible (first | assumption | apply wakeWaiters_runs | apply State.modSession_runs) | split

theorem State.sessionWait_runs (hhost : Field.host ∈ W) (htiers : Field.tiers ∈ W) (h : Runs W s0 s) (x1 x2) :
    Runs W s0 (State.sessionWait s x1 x2) := by
  unfold State.sessionWait
  try dsimp only
  repeat' first | with_reducible (first | assumption | apply State.modSession_runs | apply State.modTrk_runs) | split

theorem State.take_runs (htiers : Field.tiers ∈ W) (h : Runs W s0 s) (x1 x2 x3) :
    Runs W s0 (State.take s x1 x2 x3) := by
  unfold State.take
  try dsimp only
  repeat' first | with_reducible (first | assumption | apply State.modTiers_runs) | split

theorem State.release_runs (htiers : Field.tiers ∈ W) (h : Runs W s0 s) (x1) :
    Runs W s0 (State.release s x1) := by
  unfold State.release
  try dsimp only
  repeat' first | with_reducible (first | assumption | apply State.modTiers_runs) | split

theorem State.releaseKv_runs (htiers : Field.tiers ∈ W) (h : Runs W s0 s) (x1) :
    Runs W s0 (State.releaseKv s x1) := by
  unfold State.releaseKv
  try dsimp only
  repeat' first | with_reducible (first | assumption | apply State.release_runs | refine runs_foldl (fun _ _ _ => ?_) _ ?_) | split

theorem State.monitor_runs (hhost : Field.host ∈ W) (htokens : Field.tokens ∈ W) (h : Runs W s0 s) (x1 x2 x3) :
    Runs W s0 (State.monitor s x1 x2 x3) := by
  unfold State.monitor
  try dsimp only
  repeat' first | with_reducible (first | assumption | apply State.modTokens_runs | apply State.flagResult_runs) | split

theorem State.freeObject_runs (hcl : Field.cl ∈ W) (htiers : Field.tiers ∈ W) (h : Runs W s0 s) (x1) :
    Runs W s0 (State.freeObject s x1) := by
  unfold State.freeObject
  try dsimp only
  repeat' first | with_reducible (first | assumption | apply State.modCl_runs | apply State.release_runs | refine runs_foldl (fun _ _ _ => ?_) _ ?_) | split

theorem State.sweepObjects_runs (hamp : Field.amp ∈ W) (hcl : Field.cl ∈ W) (htiers : Field.tiers ∈ W) (h : Runs W s0 s) :
    Runs W s0 (State.sweepObjects s) := by
  unfold State.sweepObjects
  try dsimp only
  repeat' first | with_reducible (first | assumption | apply State.freeObject_runs | apply State.modAmp_runs | refine runs_foldl (fun _ _ _ => ?_) _ ?_) | split

theorem State.dropObject_runs (hamp : Field.amp ∈ W) (hcl : Field.cl ∈ W) (htiers : Field.tiers ∈ W) (h : Runs W s0 s) (x1) :
    Runs W s0 (State.dropObject s x1) := by
  unfold State.dropObject
  try dsimp only
  repeat' first | with_reducible (first | assumption | apply State.sweepObjects_runs | apply State.modAmp_runs) | split

theorem State.freeDraft_runs (htiers : Field.tiers ∈ W) (h : Runs W s0 s) (x1) :
    Runs W s0 (State.freeDraft s x1) := by
  unfold State.freeDraft
  try dsimp only
  repeat' first | with_reducible (first | assumption | apply State.releaseKv_runs) | split

theorem State.commandEnd_runs (hhostMem : Field.hostMem ∈ W) (hfabric : Field.fabric ∈ W) (hhost : Field.host ∈ W) (hamp : Field.amp ∈ W) (hcl : Field.cl ∈ W) (htiers : Field.tiers ∈ W) (htokens : Field.tokens ∈ W) (h : Runs W s0 s) (x1 x2) :
    Runs W s0 (State.commandEnd s x1 x2) := by
  unfold State.commandEnd
  try dsimp only
  repeat' first | with_reducible (first | assumption | apply State.modTokens_runs | apply State.emit_runs | apply State.freeDraft_runs | apply State.sweepObjects_runs | apply State.vendorEnd_runs | apply State.sessionDone_runs) | split

/-! ## IndexOps -/

theorem State.modIx_runs (hindex : Field.index ∈ W) (h : Runs W s0 s) (x1 x2) :
    Runs W s0 (State.modIx s x1 x2) := by
  unfold State.modIx
  try dsimp only
  repeat' first | with_reducible (first | assumption | apply State.modIndex_runs) | split

theorem State.autoFold_runs (hindex : Field.index ∈ W) (h : Runs W s0 s) (x1) :
    Runs W s0 (State.autoFold s x1) := by
  unfold State.autoFold
  try dsimp only
  repeat' first | with_reducible (first | assumption | apply State.modIx_runs) | split

theorem State.commitEntries_runs (hindex : Field.index ∈ W) (h : Runs W s0 s) (x1 x2) :
    Runs W s0 (State.commitEntries s x1 x2) := by
  unfold State.commitEntries
  try dsimp only
  repeat' first | with_reducible (first | assumption | apply State.autoFold_runs | apply State.modIx_runs) | split

theorem State.markRange_runs (hindex : Field.index ∈ W) (h : Runs W s0 s) (x1 x2 x3) :
    Runs W s0 (State.markRange s x1 x2 x3) := by
  unfold State.markRange
  try dsimp only
  repeat' first | with_reducible (first | assumption | apply State.modIndex_runs | refine runs_foldl (fun _ _ _ => ?_) _ ?_) | split

theorem State.deleteWindow_runs (hindex : Field.index ∈ W) (h : Runs W s0 s) (x1 x2 x3) :
    Runs W s0 (State.deleteWindow s x1 x2 x3) := by
  unfold State.deleteWindow
  try dsimp only
  repeat' first | with_reducible (first | assumption | apply State.commitEntries_runs | apply State.modIndex_runs) | split

theorem State.unmarkRange_runs (hindex : Field.index ∈ W) (h : Runs W s0 s) (x1 x2 x3) :
    Runs W s0 (State.unmarkRange s x1 x2 x3) := by
  unfold State.unmarkRange
  try dsimp only
  repeat' first | with_reducible (first | assumption | apply State.deleteWindow_runs | apply State.modIndex_runs | refine runs_foldl (fun _ _ _ => ?_) _ ?_) | split

theorem State.forget_runs (hindex : Field.index ∈ W) (h : Runs W s0 s) (x1 x2) :
    Runs W s0 (State.forget s x1 x2) := by
  unfold State.forget
  try dsimp only
  repeat' first | with_reducible (first | assumption | apply State.modIndex_runs) | split

theorem State.eraseNext_runs (hindex : Field.index ∈ W) (h : Runs W s0 s) :
    Runs W s0 (State.eraseNext s) := by
  unfold State.eraseNext
  try dsimp only
  repeat' first | with_reducible (first | assumption | apply State.modIndex_runs | apply State.commitEntries_runs) | split

theorem eraseMany_runs (hindex : Field.index ∈ W) (h : Runs W s0 s) (x1) :
    Runs W s0 (eraseMany x1 s) := by
  fun_induction eraseMany x1 s <;> try rename_i ih
  all_goals try dsimp only
  all_goals repeat' first | with_reducible (first | assumption | apply ih | apply State.eraseNext_runs) | split

theorem State.eraseBound_runs (hindex : Field.index ∈ W) (h : Runs W s0 s) (x1) :
    Runs W s0 (State.eraseBound s x1) := by
  unfold State.eraseBound
  try dsimp only
  repeat' first | with_reducible (first | assumption | apply State.modIndex_runs | apply eraseMany_runs) | split

theorem State.trimIx_runs (hindex : Field.index ∈ W) (h : Runs W s0 s) (x1) :
    Runs W s0 (State.trimIx s x1) := by
  unfold State.trimIx
  try dsimp only
  repeat' first | with_reducible (first | assumption | apply State.modIndex_runs | apply State.modIx_runs) | split

/-! ## MvOps -/

theorem State.mvEnd_runs (hmemory : Field.memory ∈ W) (hfree : Field.free ∈ W) (hcl : Field.cl ∈ W) (hsched : Field.sched ∈ W) (h : Runs W s0 s) (x1 x2 x3 x4 x5 x6) :
    Runs W s0 (State.mvEnd s x1 x2 x3 x4 x5 x6) := by
  unfold State.mvEnd
  try dsimp only
  repeat' first | with_reducible (first | assumption | apply State.writeRange_runs | apply State.modCl_runs | apply State.postSlot_runs | refine Runs.of_snd (by assumption) ?_) | split

theorem mvStopAll_runs (hmemory : Field.memory ∈ W) (hfree : Field.free ∈ W) (hcl : Field.cl ∈ W) (hsched : Field.sched ∈ W) (h : Runs W s0 s) (x1 x2) :
    Runs W s0 (mvStopAll x1 x2 s) := by
  fun_induction mvStopAll x1 x2 s <;> try rename_i ih
  all_goals try dsimp only
  all_goals repeat' first | with_reducible (first | assumption | apply ih | apply State.mvEnd_runs) | split

theorem State.mvFlush_runs (hmemory : Field.memory ∈ W) (hfree : Field.free ∈ W) (hcl : Field.cl ∈ W) (hsched : Field.sched ∈ W) (h : Runs W s0 s) (x1) :
    Runs W s0 (State.mvFlush s x1) := by
  unfold State.mvFlush
  try dsimp only
  repeat' first | with_reducible (first | assumption | apply mvStopAll_runs | apply State.modCl_runs) | split

/-! ## Vendor -/

theorem State.stopUnadmitted_runs (hfabric : Field.fabric ∈ W) (hhost : Field.host ∈ W) (htiers : Field.tiers ∈ W) (h : Runs W s0 s) (x1 x2) :
    Runs W s0 (State.stopUnadmitted s x1 x2) := by
  unfold State.stopUnadmitted
  try dsimp only
  repeat' first | with_reducible (first | assumption | apply State.complete_runs | apply State.modStats_runs) | split

theorem State.vendorRow_runs (hfree : Field.free ∈ W) (hfabric : Field.fabric ∈ W) (hhost : Field.host ∈ W) (htiers : Field.tiers ∈ W) (h : Runs W s0 s) (x1 x2 x3) {f}
    (hf : ∀ k t, Runs W s0 t → Runs W s0 (f k t)) :
    Runs W s0 (State.vendorRow s x1 x2 x3 f) := by
  unfold State.vendorRow
  try dsimp only
  repeat' first | with_reducible (first | assumption | apply hf | apply State.stopUnadmitted_runs | apply State.completeSanitizing_runs | apply State.vendorRefuse_runs) | split

theorem State.holdSession_runs (htiers : Field.tiers ∈ W) (h : Runs W s0 s) (x1 x2) :
    Runs W s0 (State.holdSession s x1 x2) := by
  unfold State.holdSession
  try dsimp only
  repeat' first | with_reducible (first | assumption | apply State.modSession_runs) | split

theorem State.beginResume_runs (hhost : Field.host ∈ W) (htiers : Field.tiers ∈ W) (h : Runs W s0 s) (x1 x2) :
    Runs W s0 (State.beginResume s x1 x2) := by
  unfold State.beginResume
  try dsimp only
  repeat' first | with_reducible (first | assumption | apply State.admitTag_runs | apply State.modSession_runs) | split

/-! ## Records -/

theorem State.setLoc_runs (hmemory : Field.memory ∈ W) (h : Runs W s0 s) (x1 x2 x3) :
    Runs W s0 (State.setLoc s x1 x2 x3) := by
  unfold State.setLoc
  try dsimp only
  repeat' first | with_reducible (first | assumption | apply State.writeNat_runs) | split

theorem State.writeT2_runs (htiers : Field.tiers ∈ W) (h : Runs W s0 s) (x1 x2) :
    Runs W s0 (State.writeT2 s x1 x2) := by
  unfold State.writeT2
  try dsimp only
  repeat' first | with_reducible (first | assumption | apply State.modTiers_runs) | split

theorem State.touch_runs (hmemory : Field.memory ∈ W) (htiers : Field.tiers ∈ W) (h : Runs W s0 s) (x1) :
    Runs W s0 (State.touch s x1) := by
  unfold State.touch
  try dsimp only
  repeat' first | with_reducible (first | assumption | apply State.modTiers_runs | apply State.writeNat_runs) | split

/-! ## Tensor -/

/-- Where `KvRoom` holds a state, it has been reached so. -/
def RoomRuns (W : List Field) (s : State) (p : KvRoom) : Prop := ∀ t, p = .ok t  → Runs W s t
theorem roomRuns_ok {t : State} (h : Runs W s0 t) : RoomRuns W s0 (.ok t) := by
  intro t  e; cases e; exact h
theorem roomRuns_no {p : KvRoom} (h : ∀ t, p ≠ .ok t) : RoomRuns W s0 p := fun t  e => absurd e (h t)
theorem Runs.of_room {p : KvRoom} {t : State} (e : p = .ok t) (h : RoomRuns W s0 p) : Runs W s0 t := h t  e

theorem State.takeT2_runs (htiers : Field.tiers ∈ W) (h : Runs W s0 s) (x1 x2) :
    Runs W s0 (State.takeT2 s x1 x2) := by
  unfold State.takeT2
  try dsimp only
  repeat' first | with_reducible (first | assumption | apply State.modTiers_runs) | split

theorem State.releaseT2_runs (htiers : Field.tiers ∈ W) (h : Runs W s0 s) (x1) :
    Runs W s0 (State.releaseT2 s x1) := by
  unfold State.releaseT2
  try dsimp only
  repeat' first | with_reducible (first | assumption | apply State.modTiers_runs) | split

theorem State.takeChunks_runs (hmemory : Field.memory ∈ W) (htiers : Field.tiers ∈ W) (h : Runs W s0 s) (x1 x2) :
    OptRuns W s0 id (State.takeChunks s x1 x2) := by
  fun_induction State.takeChunks s x1 x2 <;> try rename_i ih
  all_goals try dsimp only
  all_goals repeat' first | with_reducible (first | assumption | apply ih | apply State.clearMem_runs | apply State.take_runs | apply optRuns_none | refine optRuns_id ?_ | refine optRuns_some ?_ | refine optRuns_map ?_ (fun _ _ => ?_) | refine Runs.of_some (by assumption) ?_) | split

theorem State.growKv_runs (hmemory : Field.memory ∈ W) (htiers : Field.tiers ∈ W) (h : Runs W s0 s) (x1 x2 x3) :
    RoomRuns W s0 (State.growKv s x1 x2 x3) := by
  unfold State.growKv
  try dsimp only
  repeat' first | with_reducible (first | assumption | apply State.takeChunks_runs | apply State.writeNat_runs | refine runs_foldl (fun _ _ _ => ?_) _ ?_ | refine roomRuns_ok ?_ | (apply roomRuns_no <;> intros <;> simp_all <;> done) | refine Runs.of_some (by assumption) ?_ | refine optRuns_bind_id ?_ (fun _ _ => ?_) | refine optRuns_map_id ?_ (fun _ _ => ?_) | refine optRuns_getD ?_ ?_ | refine optRuns_id ?_ | apply optRuns_none) | split

/-! ## SpanOps -/

theorem State.modPort_runs (hspan : Field.span ∈ W) (h : Runs W s0 s) (x1 x2) :
    Runs W s0 (State.modPort s x1 x2) := by
  unfold State.modPort
  try dsimp only
  repeat' first | with_reducible (first | assumption | apply State.modSpan_runs) | split

theorem State.modPeer_runs (hspan : Field.span ∈ W) (h : Runs W s0 s) (x1 x2) :
    Runs W s0 (State.modPeer s x1 x2) := by
  unfold State.modPeer
  try dsimp only
  repeat' first | with_reducible (first | assumption | apply State.modSpan_runs) | split

theorem State.peerEvent_runs (hfabric : Field.fabric ∈ W) (hamp : Field.amp ∈ W) (h : Runs W s0 s) (x1 x2 x3) :
    Runs W s0 (State.peerEvent s x1 x2 x3) := by
  unfold State.peerEvent
  try dsimp only
  repeat' first | with_reducible (first | assumption | apply State.post_runs) | split

theorem State.setPeerState_runs (hfabric : Field.fabric ∈ W) (hamp : Field.amp ∈ W) (hspan : Field.span ∈ W) (h : Runs W s0 s) (x1 x2 x3) :
    Runs W s0 (State.setPeerState s x1 x2 x3) := by
  unfold State.setPeerState
  try dsimp only
  repeat' first | with_reducible (first | assumption | apply State.peerEvent_runs | apply State.modPeer_runs) | split

theorem State.wire_runs (hspan : Field.span ∈ W) (h : Runs W s0 s) (x1 x2) :
    Runs W s0 (State.wire s x1 x2) := by
  unfold State.wire
  try dsimp only
  repeat' first | with_reducible (first | assumption | apply State.modPort_runs | apply State.modSpan_runs) | split

theorem State.control_runs (hspan : Field.span ∈ W) (h : Runs W s0 s) (x1 x2 x3 x4 x5) :
    Runs W s0 (State.control s x1 x2 x3 x4 x5) := by
  unfold State.control
  try dsimp only
  repeat' first | with_reducible (first | assumption | apply State.wire_runs) | split

theorem State.sendAck_runs (hspan : Field.span ∈ W) (h : Runs W s0 s) (x1) :
    Runs W s0 (State.sendAck s x1) := by
  unfold State.sendAck
  try dsimp only
  repeat' first | with_reducible (first | assumption | apply State.control_runs) | split

theorem State.sendFrame_runs (hspan : Field.span ∈ W) (h : Runs W s0 s) (x1 x2 x3) :
    Runs W s0 (State.sendFrame s x1 x2 x3) := by
  unfold State.sendFrame
  try dsimp only
  repeat' first | with_reducible (first | assumption | apply State.wire_runs | apply State.modPeer_runs | apply State.modPort_runs) | split

theorem State.sendAllowed_runs (hspan : Field.span ∈ W) (h : Runs W s0 s) (x1) :
    Runs W s0 (State.sendAllowed s x1) := by
  unfold State.sendAllowed
  try dsimp only
  repeat' first | with_reducible (first | assumption | apply State.sendFrame_runs | refine runs_foldl (fun _ _ _ => ?_) _ ?_) | split

theorem State.spanSend_runs (hspan : Field.span ∈ W) (h : Runs W s0 s) (x1 x2 x3 x4) :
    Runs W s0 (State.spanSend s x1 x2 x3 x4).2 := by
  unfold State.spanSend
  try dsimp only
  repeat' first | with_reducible (first | assumption | apply State.modPeer_runs | apply State.sendAllowed_runs) | split

theorem State.spanReply_runs (hspan : Field.span ∈ W) (h : Runs W s0 s) (x1 x2 x3 x4 x5) :
    Runs W s0 (State.spanReply s x1 x2 x3 x4 x5) := by
  unfold State.spanReply
  try dsimp only
  repeat' first | with_reducible (first | assumption | apply State.spanSend_runs | refine Runs.of_snd (by assumption) ?_) | split

end Sys2Proof.Machine
end

