-- ==== Sys2Proof/Laws/RunsHost.lean ====
section
/-! SUPPORT. What running the host queues, the mailboxes, storage and the management plane keeps: one lemma per operation. -/

namespace Sys2Proof.Machine

variable {W : List Field} {s0 s : State}

/-! ## HostQueue -/

theorem State.adminPush_runs (hfabric : Field.fabric ∈ W) (hhost : Field.host ∈ W) (h : Runs W s0 s) (x1 x2) :
    Runs W s0 (State.adminPush s x1 x2) := by
  unfold State.adminPush
  try dsimp only
  repeat' first | with_reducible (first | assumption | apply State.pushCqe_runs | apply State.modStats_runs | apply State.modCtrl_runs) | split

theorem State.takeAdmin_runs (hhost : Field.host ∈ W) (h : Runs W s0 s) (x1) :
    Runs W s0 (State.takeAdmin s x1) := by
  unfold State.takeAdmin
  try dsimp only
  repeat' first | with_reducible (first | assumption | apply State.modSq_runs) | split

theorem State.adminEnd_runs (hanswer : Field.answer ∈ W) (hfabric : Field.fabric ∈ W) (hhost : Field.host ∈ W) (h : Runs W s0 s) (x1 x2 x3 x4) :
    Runs W s0 (State.adminEnd s x1 x2 x3 x4) := by
  unfold State.adminEnd
  try dsimp only
  repeat' first | with_reducible (first | assumption | apply State.takeAdmin_runs | apply State.reply_runs | apply State.adminPush_runs) | split

theorem Admin.refuse_runs  (h : Runs W s0 s) (x1 x2) :
    Runs W s0 (Admin.refuse x1 x2 s).1 := by
  unfold Admin.refuse
  try dsimp only
  repeat' first | with_reducible (first | assumption) | split

theorem State.admin_runs (hanswer : Field.answer ∈ W) (hfabric : Field.fabric ∈ W) (hhost : Field.host ∈ W) (h : Runs W s0 s) (x1 x2) {f}
    (hf : ∀ t, Runs W s0 t → Runs W s0 (f t).1) :
    Runs W s0 (State.admin s x1 x2 f) := by
  unfold State.admin
  try dsimp only
  repeat' first | with_reducible (first | assumption | apply hf | apply State.adminEnd_runs) | split

theorem stopOne_runs (hfabric : Field.fabric ∈ W) (hhost : Field.host ∈ W) (htiers : Field.tiers ∈ W) (h : Runs W s0 s) (x1 x2) :
    Runs W s0 (stopOne x1 x2 s) := by
  unfold stopOne
  try dsimp only
  repeat' first | with_reducible (first | assumption | apply State.complete_runs | apply State.modTrk_runs | apply State.freeTrk_runs) | split

theorem stopAll_runs (hfabric : Field.fabric ∈ W) (hhost : Field.host ∈ W) (htiers : Field.tiers ∈ W) (h : Runs W s0 s) (x1 x2) :
    Runs W s0 (stopAll x1 x2 s) := by
  fun_induction stopAll x1 x2 s <;> try rename_i ih
  all_goals try dsimp only
  all_goals repeat' first | with_reducible (first | assumption | apply ih | apply stopOne_runs) | split

theorem ctrlReset_runs (hfabric : Field.fabric ∈ W) (hhost : Field.host ∈ W) (htiers : Field.tiers ∈ W) (hftl : Field.ftl ∈ W) (h : Runs W s0 s) (x1) :
    Runs W s0 (ctrlReset x1 s) := by
  unfold ctrlReset
  try dsimp only
  repeat' first | with_reducible (first | assumption | apply State.modFtl_runs | apply State.modCtrl_runs | apply stopAll_runs) | split

theorem mailboxReset_runs (hamp : Field.amp ∈ W) (h : Runs W s0 s) (x1) :
    Runs W s0 (mailboxReset x1 s) := by
  unfold mailboxReset
  try dsimp only
  repeat' first | with_reducible (first | assumption | apply State.modAmp_runs | apply State.modMb_runs) | split

theorem functionReset_runs (hfabric : Field.fabric ∈ W) (hhost : Field.host ∈ W) (hamp : Field.amp ∈ W) (htiers : Field.tiers ∈ W) (hftl : Field.ftl ∈ W) (h : Runs W s0 s) (x1) :
    Runs W s0 (functionReset x1 s) := by
  unfold functionReset
  try dsimp only
  repeat' first | with_reducible (first | assumption | apply mailboxReset_runs | apply State.modCtrl_runs | apply ctrlReset_runs) | split

theorem execLinkDown_runs (hfabric : Field.fabric ∈ W) (hhost : Field.host ∈ W) (hamp : Field.amp ∈ W) (htiers : Field.tiers ∈ W) (hftl : Field.ftl ∈ W) (h : Runs W s0 s) (x1) :
    Ends W s0 (execLinkDown x1 s) := by
  unfold execLinkDown
  try dsimp only
  repeat' first | with_reducible (first | assumption | apply State.modCtrl_runs | apply functionReset_runs | rw [ends_next]) | split

theorem execHotReset_runs (hfabric : Field.fabric ∈ W) (hhost : Field.host ∈ W) (hamp : Field.amp ∈ W) (htiers : Field.tiers ∈ W) (hftl : Field.ftl ∈ W) (h : Runs W s0 s) (x1) :
    Ends W s0 (execHotReset x1 s) := by
  unfold execHotReset
  try dsimp only
  repeat' first | with_reducible (first | assumption | apply functionReset_runs | rw [ends_next]) | split

theorem execFunctionLevelReset_runs (hfabric : Field.fabric ∈ W) (hhost : Field.host ∈ W) (hamp : Field.amp ∈ W) (htiers : Field.tiers ∈ W) (hftl : Field.ftl ∈ W) (h : Runs W s0 s) (x1) :
    Ends W s0 (execFunctionLevelReset x1 s) := by
  unfold execFunctionLevelReset
  try dsimp only
  repeat' first | with_reducible (first | assumption | apply functionReset_runs | rw [ends_next]) | split

theorem subsystemReset_runs (hfabric : Field.fabric ∈ W) (hhost : Field.host ∈ W) (htiers : Field.tiers ∈ W) (hftl : Field.ftl ∈ W) (h : Runs W s0 s) :
    Runs W s0 (subsystemReset s) := by
  unfold subsystemReset
  try dsimp only
  repeat' first | with_reducible (first | assumption | apply ctrlReset_runs) | split

theorem execNvmSubsystemReset_runs (hfabric : Field.fabric ∈ W) (hhost : Field.host ∈ W) (htiers : Field.tiers ∈ W) (hftl : Field.ftl ∈ W) (h : Runs W s0 s) :
    Ends W s0 (execNvmSubsystemReset s) := by
  unfold execNvmSubsystemReset
  try dsimp only
  repeat' first | with_reducible (first | assumption | apply subsystemReset_runs | rw [ends_next]) | split

theorem execCcEnClear_runs (hfabric : Field.fabric ∈ W) (hhost : Field.host ∈ W) (htiers : Field.tiers ∈ W) (hftl : Field.ftl ∈ W) (h : Runs W s0 s) (x1) :
    Ends W s0 (execCcEnClear x1 s) := by
  unfold execCcEnClear
  try dsimp only
  repeat' first | with_reducible (first | assumption | apply ctrlReset_runs | rw [ends_next]) | split

theorem postWaiting_runs (hfabric : Field.fabric ∈ W) (hhost : Field.host ∈ W) (h : Runs W s0 s) (x1 x2 x3) :
    Runs W s0 (postWaiting x1 x2 x3 s) := by
  fun_induction postWaiting x1 x2 x3 s <;> try rename_i ih
  all_goals try dsimp only
  all_goals repeat' first | with_reducible (first | assumption | apply ih | apply State.modCq_runs | apply State.freeTrk_runs | apply State.pushCqe_runs) | split

theorem postAdmin_runs (hfabric : Field.fabric ∈ W) (hhost : Field.host ∈ W) (h : Runs W s0 s) (x1 x2) :
    Runs W s0 (postAdmin x1 x2 s) := by
  fun_induction postAdmin x1 x2 s <;> try rename_i ih
  all_goals try dsimp only
  all_goals repeat' first | with_reducible (first | assumption | apply ih | apply State.modCtrl_runs | apply State.pushCqe_runs) | split

theorem cqHead_runs (hfabric : Field.fabric ∈ W) (hhost : Field.host ∈ W) (h : Runs W s0 s) (x1 x2 x3) :
    Runs W s0 (cqHead x1 x2 x3 s) := by
  unfold cqHead
  try dsimp only
  repeat' first | with_reducible (first | assumption | apply State.modCq_runs | apply postAdmin_runs | apply postWaiting_runs) | split

theorem execCqHeadDoorbell_runs (hfabric : Field.fabric ∈ W) (hhost : Field.host ∈ W) (h : Runs W s0 s) (x1 x2 x3) :
    Ends W s0 (execCqHeadDoorbell x1 x2 x3 s) := by
  unfold execCqHeadDoorbell
  try dsimp only
  repeat' first | with_reducible (first | assumption | apply cqHead_runs | rw [ends_next]) | split

theorem State.noteStall_runs (hhost : Field.host ∈ W) (h : Runs W s0 s) (x1) :
    Runs W s0 (State.noteStall s x1) := by
  unfold State.noteStall
  try dsimp only
  repeat' first | with_reducible (first | assumption | apply State.modStats_runs | apply State.modCtrl_runs) | split

theorem fetchOne_runs (hhost : Field.host ∈ W) (h : Runs W s0 s) (x1 x2 x3 x4) :
    Runs W s0 (fetchOne x1 x2 x3 x4 s) := by
  unfold fetchOne
  try dsimp only
  repeat' first | with_reducible (first | assumption | apply State.modSq_runs | apply State.modHost_runs | apply State.modStats_runs | apply State.noteOrdered_runs) | split

theorem fetchTurn_runs (hhost : Field.host ∈ W) (h : Runs W s0 s) (x1 x2 x3 x4) :
    Runs W s0 (fetchTurn x1 x2 x3 x4 s) := by
  fun_induction fetchTurn x1 x2 x3 x4 s <;> try rename_i ih
  all_goals try dsimp only
  all_goals repeat' first | with_reducible (first | assumption | apply ih | apply State.noteStall_runs | apply fetchOne_runs) | split

theorem execCommandFetch_runs (hhost : Field.host ∈ W) (h : Runs W s0 s) (x1 x2 x3) :
    Ends W s0 (execCommandFetch x1 x2 x3 s) := by
  unfold execCommandFetch
  try dsimp only
  repeat' first | with_reducible (first | assumption | apply fetchTurn_runs | apply State.modCtrl_runs | rw [ends_next]) | split

theorem execCommandStart_runs (hhost : Field.host ∈ W) (h : Runs W s0 s) (x1) :
    Ends W s0 (execCommandStart x1 s) := by
  unfold execCommandStart
  try dsimp only
  repeat' first | with_reducible (first | assumption | apply State.modTrk_runs | rw [ends_next]) | split

theorem execInvalidCommandOpcode_runs (hanswer : Field.answer ∈ W) (hfabric : Field.fabric ∈ W) (hhost : Field.host ∈ W) (htiers : Field.tiers ∈ W) (h : Runs W s0 s) (x1 x2 x3) :
    Ends W s0 (execInvalidCommandOpcode x1 x2 x3 s) := by
  unfold execInvalidCommandOpcode
  try dsimp only
  repeat' first | with_reducible (first | assumption | apply State.completeErr_runs | apply State.admin_runs | apply Admin.refuse_runs | rw [ends_next] | refine Runs.of_fst (by assumption) ?_) | split | (intro _; intros; try dsimp only)

theorem execDeleteIoSq_runs (hanswer : Field.answer ∈ W) (hfabric : Field.fabric ∈ W) (hhost : Field.host ∈ W) (htiers : Field.tiers ∈ W) (h : Runs W s0 s) (x1 x2) :
    Ends W s0 (execDeleteIoSq x1 x2 s) := by
  unfold execDeleteIoSq
  try dsimp only
  repeat' first | with_reducible (first | assumption | apply State.admin_runs | apply Admin.refuse_runs | apply State.modSq_runs | apply stopAll_runs | rw [ends_next] | refine Runs.of_fst (by assumption) ?_) | split | (intro _; intros; try dsimp only)

theorem admCreateSq_runs (hhost : Field.host ∈ W) (h : Runs W s0 s) (x1 x2 x3) :
    Runs W s0 (admCreateSq x1 x2 x3 s).1 := by
  unfold admCreateSq
  try dsimp only
  repeat' first | with_reducible (first | assumption | apply Admin.refuse_runs | apply State.modCtrl_runs | refine Runs.of_fst (by assumption) ?_) | split

theorem admCreateCq_runs (hhost : Field.host ∈ W) (h : Runs W s0 s) (x1 x2 x3) :
    Runs W s0 (admCreateCq x1 x2 x3 s).1 := by
  unfold admCreateCq
  try dsimp only
  repeat' first | with_reducible (first | assumption | apply Admin.refuse_runs | apply State.modCtrl_runs | refine Runs.of_fst (by assumption) ?_) | split

theorem admDeleteCq_runs (hhost : Field.host ∈ W) (h : Runs W s0 s) (x1 x2) :
    Runs W s0 (admDeleteCq x1 x2 s).1 := by
  unfold admDeleteCq
  try dsimp only
  repeat' first | with_reducible (first | assumption | apply Admin.refuse_runs | apply State.modCtrl_runs | refine Runs.of_fst (by assumption) ?_) | split

theorem execDeleteIoCq_runs (hanswer : Field.answer ∈ W) (hfabric : Field.fabric ∈ W) (hhost : Field.host ∈ W) (h : Runs W s0 s) (x1 x2) :
    Ends W s0 (execDeleteIoCq x1 x2 s) := by
  unfold execDeleteIoCq
  try dsimp only
  repeat' first | with_reducible (first | assumption | apply State.admin_runs | apply admDeleteCq_runs | rw [ends_next] | refine Runs.of_fst (by assumption) ?_) | split | (intro _; intros; try dsimp only)

theorem admIdentify_runs  (h : Runs W s0 s) (x1 x2) :
    Runs W s0 (admIdentify x1 x2 s).1 := by
  unfold admIdentify
  try dsimp only
  repeat' first | with_reducible (first | assumption | apply Admin.refuse_runs | refine Runs.of_fst (by assumption) ?_) | split

theorem execIdentify_runs (hanswer : Field.answer ∈ W) (hfabric : Field.fabric ∈ W) (hhost : Field.host ∈ W) (h : Runs W s0 s) (x1 x2) :
    Ends W s0 (execIdentify x1 x2 s) := by
  unfold execIdentify
  try dsimp only
  repeat' first | with_reducible (first | assumption | apply State.admin_runs | apply admIdentify_runs | rw [ends_next] | refine Runs.of_fst (by assumption) ?_) | split | (intro _; intros; try dsimp only)

theorem admAbort_runs (hhost : Field.host ∈ W) (h : Runs W s0 s) (x1) :
    Runs W s0 (admAbort x1 s).1 := by
  unfold admAbort
  try dsimp only
  repeat' first | with_reducible (first | assumption | apply State.modStats_runs) | split

theorem execAbort_runs (hanswer : Field.answer ∈ W) (hfabric : Field.fabric ∈ W) (hhost : Field.host ∈ W) (h : Runs W s0 s) (x1 x2) :
    Ends W s0 (execAbort x1 x2 s) := by
  unfold execAbort
  try dsimp only
  repeat' first | with_reducible (first | assumption | apply State.admin_runs | apply admAbort_runs | rw [ends_next] | refine Runs.of_fst (by assumption) ?_) | split | (intro _; intros; try dsimp only)

theorem admSetFeatures_runs (hhost : Field.host ∈ W) (h : Runs W s0 s) (x1 x2) :
    Runs W s0 (admSetFeatures x1 x2 s).1 := by
  unfold admSetFeatures
  try dsimp only
  repeat' first | with_reducible (first | assumption | apply State.modCtrl_runs | apply Admin.refuse_runs | refine Runs.of_fst (by assumption) ?_) | split

theorem execSetFeatures_runs (hanswer : Field.answer ∈ W) (hfabric : Field.fabric ∈ W) (hhost : Field.host ∈ W) (h : Runs W s0 s) (x1 x2) :
    Ends W s0 (execSetFeatures x1 x2 s) := by
  unfold execSetFeatures
  try dsimp only
  repeat' first | with_reducible (first | assumption | apply State.admin_runs | apply admSetFeatures_runs | rw [ends_next] | refine Runs.of_fst (by assumption) ?_) | split | (intro _; intros; try dsimp only)

theorem admTimestamp_runs (hfabric : Field.fabric ∈ W) (hmedia : Field.media ∈ W) (h : Runs W s0 s) (x1) :
    Runs W s0 (admTimestamp x1 s).1 := by
  unfold admTimestamp
  try dsimp only
  repeat' first | with_reducible (first | assumption | apply State.feedHostTime_runs | apply State.modFabric_runs) | split

theorem execSetFeaturesTimestamp_runs (hanswer : Field.answer ∈ W) (hfabric : Field.fabric ∈ W) (hhost : Field.host ∈ W) (hmedia : Field.media ∈ W) (h : Runs W s0 s) (x1 x2 x3) :
    Ends W s0 (execSetFeaturesTimestamp x1 x2 x3 s) := by
  unfold execSetFeaturesTimestamp
  try dsimp only
  repeat' first | with_reducible (first | assumption | apply State.admin_runs | apply Admin.refuse_runs | apply admTimestamp_runs | rw [ends_next] | refine Runs.of_fst (by assumption) ?_) | split | (intro _; intros; try dsimp only)

theorem admGetFeatures_runs  (h : Runs W s0 s) (x1 x2) :
    Runs W s0 (admGetFeatures x1 x2 s).1 := by
  unfold admGetFeatures
  try dsimp only
  repeat' first | with_reducible (first | assumption | apply Admin.refuse_runs | refine Runs.of_fst (by assumption) ?_) | split

theorem execGetFeatures_runs (hanswer : Field.answer ∈ W) (hfabric : Field.fabric ∈ W) (hhost : Field.host ∈ W) (h : Runs W s0 s) (x1 x2) :
    Ends W s0 (execGetFeatures x1 x2 s) := by
  unfold execGetFeatures
  try dsimp only
  repeat' first | with_reducible (first | assumption | apply State.admin_runs | apply admGetFeatures_runs | rw [ends_next] | refine Runs.of_fst (by assumption) ?_) | split | (intro _; intros; try dsimp only)

theorem execAsynchronousEventRequest_runs (hanswer : Field.answer ∈ W) (hfabric : Field.fabric ∈ W) (hhost : Field.host ∈ W) (h : Runs W s0 s) (x1 x2) :
    Ends W s0 (execAsynchronousEventRequest x1 x2 s) := by
  unfold execAsynchronousEventRequest
  try dsimp only
  repeat' first | with_reducible (first | assumption | apply State.modCtrl_runs | apply State.takeAdmin_runs | apply State.admin_runs | apply Admin.refuse_runs | rw [ends_next] | refine Runs.of_fst (by assumption) ?_) | split | (intro _; intros; try dsimp only)

theorem admAttach_runs (hhost : Field.host ∈ W) (h : Runs W s0 s) (x1 x2) :
    Runs W s0 (admAttach x1 x2 s).1 := by
  unfold admAttach
  try dsimp only
  repeat' first | with_reducible (first | assumption | apply Admin.refuse_runs | apply State.modHost_runs | refine Runs.of_fst (by assumption) ?_) | split

theorem execNamespaceAttachment_runs (hanswer : Field.answer ∈ W) (hfabric : Field.fabric ∈ W) (hhost : Field.host ∈ W) (h : Runs W s0 s) (x1 x2 x3) :
    Ends W s0 (execNamespaceAttachment x1 x2 x3 s) := by
  unfold execNamespaceAttachment
  try dsimp only
  repeat' first | with_reducible (first | assumption | apply State.admin_runs | apply admAttach_runs | rw [ends_next] | refine Runs.of_fst (by assumption) ?_) | split | (intro _; intros; try dsimp only)

theorem execFlush_runs (hfree : Field.free ∈ W) (hfabric : Field.fabric ∈ W) (hhost : Field.host ∈ W) (htiers : Field.tiers ∈ W) (h : Runs W s0 s) (x1) :
    Ends W s0 (execFlush x1 s) := by
  unfold execFlush
  try dsimp only
  repeat' first | with_reducible (first | assumption | apply State.completeSanitizing_runs | apply State.completeErr_runs | apply State.completeOk_runs | rw [ends_next]) | split

theorem execResultHeaderTimer_runs (hhostMem : Field.hostMem ∈ W) (hhost : Field.host ∈ W) (h : Runs W s0 s) (x1) :
    Ends W s0 (execResultHeaderTimer x1 s) := by
  unfold execResultHeaderTimer
  try dsimp only
  repeat' first | with_reducible (first | assumption | apply State.writeHeader_runs | rw [ends_next]) | split

theorem execPcieLinkUp_runs (hhost : Field.host ∈ W) (h : Runs W s0 s) (x1) :
    Ends W s0 (execPcieLinkUp x1 s) := by
  unfold execPcieLinkUp
  try dsimp only
  repeat' first | with_reducible (first | assumption | apply State.modCtrl_runs | rw [ends_next]) | split

/-! ## Mailbox -/

theorem mbAccess_runs (hanswer : Field.answer ∈ W) (h : Runs W s0 s) (x1 x2) {f}
    (hf : ∀ t, Runs W s0 t → Runs W s0 (f t)) :
    Runs W s0 (mbAccess x1 x2 f s) := by
  unfold mbAccess
  try dsimp only
  repeat' first | with_reducible (first | assumption | apply hf | apply State.reply_runs) | split

theorem execMbReqLenWrite_runs (hanswer : Field.answer ∈ W) (hamp : Field.amp ∈ W) (h : Runs W s0 s) (x1 x2 x3) :
    Ends W s0 (execMbReqLenWrite x1 x2 x3 s) := by
  unfold execMbReqLenWrite
  try dsimp only
  repeat' first | with_reducible (first | assumption | apply mbAccess_runs | apply State.modMb_runs | rw [ends_next]) | split | (intro _; intros; try dsimp only)

theorem execMbDataInWrite_runs (hanswer : Field.answer ∈ W) (hamp : Field.amp ∈ W) (h : Runs W s0 s) (x1 x2 x3) :
    Ends W s0 (execMbDataInWrite x1 x2 x3 s) := by
  unfold execMbDataInWrite
  try dsimp only
  repeat' first | with_reducible (first | assumption | apply mbAccess_runs | apply State.modMb_runs | rw [ends_next]) | split | (intro _; intros; try dsimp only)

theorem execMbDataOutRead_runs (hanswer : Field.answer ∈ W) (hamp : Field.amp ∈ W) (h : Runs W s0 s) (x1 x2) :
    Ends W s0 (execMbDataOutRead x1 x2 s) := by
  unfold execMbDataOutRead
  try dsimp only
  repeat' first | with_reducible (first | assumption | apply mbAccess_runs | apply State.reply_runs | apply State.modMb_runs | rw [ends_next]) | split | (intro _; intros; try dsimp only)

theorem mbSend_runs (hfabric : Field.fabric ∈ W) (hamp : Field.amp ∈ W) (hpower : Field.power ∈ W) (hspan : Field.span ∈ W) (h : Runs W s0 s) (x1) :
    Runs W s0 (mbSend x1 s) := by
  unfold mbSend
  try dsimp only
  repeat' first | with_reducible (first | assumption | apply ampSubmit_runs | apply State.modMb_runs) | split

theorem execMbSend_runs (hanswer : Field.answer ∈ W) (hfabric : Field.fabric ∈ W) (hamp : Field.amp ∈ W) (hpower : Field.power ∈ W) (hspan : Field.span ∈ W) (h : Runs W s0 s) (x1) :
    Ends W s0 (execMbSend x1 s) := by
  unfold execMbSend
  try dsimp only
  repeat' first | with_reducible (first | assumption | apply mbAccess_runs | apply mbSend_runs | rw [ends_next]) | split | (intro _; intros; try dsimp only)

theorem execMbRelease_runs (hanswer : Field.answer ∈ W) (hamp : Field.amp ∈ W) (h : Runs W s0 s) (x1) :
    Ends W s0 (execMbRelease x1 s) := by
  unfold execMbRelease
  try dsimp only
  repeat' first | with_reducible (first | assumption | apply mbAccess_runs | apply State.modMb_runs | rw [ends_next]) | split | (intro _; intros; try dsimp only)

theorem mbAbandon_runs (hamp : Field.amp ∈ W) (h : Runs W s0 s) (x1) :
    Runs W s0 (mbAbandon x1 s) := by
  unfold mbAbandon
  try dsimp only
  repeat' first | with_reducible (first | assumption | apply State.modAmp_runs | apply State.modMb_runs) | split

theorem execMbAbandon_runs (hanswer : Field.answer ∈ W) (hamp : Field.amp ∈ W) (h : Runs W s0 s) (x1) :
    Ends W s0 (execMbAbandon x1 s) := by
  unfold execMbAbandon
  try dsimp only
  repeat' first | with_reducible (first | assumption | apply mbAccess_runs | apply mbAbandon_runs | rw [ends_next]) | split | (intro _; intros; try dsimp only)

theorem execMbResponseReady_runs (hanswer : Field.answer ∈ W) (hfabric : Field.fabric ∈ W) (hamp : Field.amp ∈ W) (h : Runs W s0 s) (x1) :
    Ends W s0 (execMbResponseReady x1 s) := by
  unfold execMbResponseReady
  try dsimp only
  repeat' first | with_reducible (first | assumption | apply ampRespond_runs | rw [ends_next]) | split

theorem execMctpAmpMessage_runs (hanswer : Field.answer ∈ W) (hfabric : Field.fabric ∈ W) (hamp : Field.amp ∈ W) (hpower : Field.power ∈ W) (hspan : Field.span ∈ W) (h : Runs W s0 s) (x1 x2) :
    Ends W s0 (execMctpAmpMessage x1 x2 s) := by
  unfold execMctpAmpMessage
  try dsimp only
  repeat' first | with_reducible (first | assumption | apply State.reply_runs | apply ampSubmit_runs | apply State.modMb_runs | rw [ends_next]) | split

theorem execMgmtEventNotice_runs (hanswer : Field.answer ∈ W) (hamp : Field.amp ∈ W) (h : Runs W s0 s) :
    Ends W s0 (execMgmtEventNotice s) := by
  unfold execMgmtEventNotice
  try dsimp only
  repeat' first | with_reducible (first | assumption | apply State.reply_runs | apply State.modAmp_runs | rw [ends_next]) | split

theorem execUnlistedAmpOpcode_runs (hamp : Field.amp ∈ W) (h : Runs W s0 s) (x1) :
    Ends W s0 (execUnlistedAmpOpcode x1 s) := by
  unfold execUnlistedAmpOpcode
  try dsimp only
  repeat' first | with_reducible (first | assumption | apply State.modAmp_runs | rw [ends_next]) | split

theorem ampStatus_runs  (h : Runs W s0 s) (x1) :
    Runs W s0 (ampStatus x1 s).1 := by
  unfold ampStatus
  try dsimp only
  repeat' first | with_reducible (first | assumption | apply ampAnswer_runs | refine Runs.of_fst (by assumption) ?_) | split

theorem execAmpStatus_runs (hamp : Field.amp ∈ W) (h : Runs W s0 s) (x1) :
    Ends W s0 (execAmpStatus x1 s) := by
  unfold execAmpStatus
  try dsimp only
  repeat' first | with_reducible (first | assumption | apply ampExec_runs | apply ampStatus_runs | rw [ends_next] | refine Runs.of_fst (by assumption) ?_) | split | (intro _; intros; try dsimp only)

theorem execLockoutExpiry_runs (hamp : Field.amp ∈ W) (h : Runs W s0 s) (x1) :
    Ends W s0 (execLockoutExpiry x1 s) := by
  unfold execLockoutExpiry
  try dsimp only
  repeat' first | with_reducible (first | assumption | apply State.modMb_runs | rw [ends_next]) | split

theorem eventRead_runs (hamp : Field.amp ∈ W) (h : Runs W s0 s) (x1) :
    Runs W s0 (eventRead x1 s).1 := by
  unfold eventRead
  try dsimp only
  repeat' first | with_reducible (first | assumption | apply ampRefuse_runs | apply State.modMb_runs | apply ampAnswer_runs | refine Runs.of_fst (by assumption) ?_) | split

theorem execEventRead_runs (hamp : Field.amp ∈ W) (h : Runs W s0 s) (x1) :
    Ends W s0 (execEventRead x1 s) := by
  unfold execEventRead
  try dsimp only
  repeat' first | with_reducible (first | assumption | apply ampExec_runs | apply eventRead_runs | rw [ends_next] | refine Runs.of_fst (by assumption) ?_) | split | (intro _; intros; try dsimp only)

theorem opStatus_runs  (h : Runs W s0 s) (x1) :
    Runs W s0 (opStatus x1 s).1 := by
  unfold opStatus
  try dsimp only
  repeat' first | with_reducible (first | assumption | apply ampAnswer_runs | apply ampRefuse_runs | refine Runs.of_fst (by assumption) ?_) | split

theorem execOpStatus_runs (hamp : Field.amp ∈ W) (h : Runs W s0 s) (x1) :
    Ends W s0 (execOpStatus x1 s) := by
  unfold execOpStatus
  try dsimp only
  repeat' first | with_reducible (first | assumption | apply ampExec_runs | apply opStatus_runs | rw [ends_next] | refine Runs.of_fst (by assumption) ?_) | split | (intro _; intros; try dsimp only)

theorem eventMask_runs (hamp : Field.amp ∈ W) (h : Runs W s0 s) (x1) :
    Runs W s0 (eventMask x1 s).1 := by
  unfold eventMask
  try dsimp only
  repeat' first | with_reducible (first | assumption | apply ampAnswer_runs | apply State.modMb_runs | refine Runs.of_fst (by assumption) ?_) | split

theorem execEventMask_runs (hamp : Field.amp ∈ W) (h : Runs W s0 s) (x1) :
    Ends W s0 (execEventMask x1 s) := by
  unfold execEventMask
  try dsimp only
  repeat' first | with_reducible (first | assumption | apply ampExec_runs | apply eventMask_runs | rw [ends_next] | refine Runs.of_fst (by assumption) ?_) | split | (intro _; intros; try dsimp only)

theorem timeRead_runs  (h : Runs W s0 s) (x1) :
    Runs W s0 (timeRead x1 s).1 := by
  unfold timeRead
  try dsimp only
  repeat' first | with_reducible (first | assumption | apply ampAnswer_runs | refine Runs.of_fst (by assumption) ?_) | split

theorem execTimeRead_runs (hamp : Field.amp ∈ W) (h : Runs W s0 s) (x1) :
    Ends W s0 (execTimeRead x1 s) := by
  unfold execTimeRead
  try dsimp only
  repeat' first | with_reducible (first | assumption | apply ampExec_runs | apply timeRead_runs | rw [ends_next] | refine Runs.of_fst (by assumption) ?_) | split | (intro _; intros; try dsimp only)

theorem mbRegWrite_runs (hamp : Field.amp ∈ W) (h : Runs W s0 s) (x1 x2 x3) :
    Runs W s0 (mbRegWrite x1 x2 x3 s) := by
  unfold mbRegWrite
  try dsimp only
  repeat' first | with_reducible (first | assumption | apply State.modMb_runs) | split

/-! ## StoreOps -/

theorem State.ioRow_runs (hfree : Field.free ∈ W) (hfabric : Field.fabric ∈ W) (hhost : Field.host ∈ W) (htiers : Field.tiers ∈ W) (h : Runs W s0 s) (x1 x2 x3 x4) {f}
    (hf : ∀ k t, Runs W s0 t → Runs W s0 (f k t)) :
    Runs W s0 (State.ioRow s x1 x2 x3 x4 f) := by
  unfold State.ioRow
  try dsimp only
  repeat' first | with_reducible (first | assumption | apply hf | apply State.completeSanitizing_runs | apply State.completeErr_runs) | split

theorem State.writeFails_runs (hfabric : Field.fabric ∈ W) (hhost : Field.host ∈ W) (hamp : Field.amp ∈ W) (htiers : Field.tiers ∈ W) (hftl : Field.ftl ∈ W) (h : Runs W s0 s) (x1) :
    Runs W s0 (State.writeFails s x1) := by
  unfold State.writeFails
  try dsimp only
  repeat' first | with_reducible (first | assumption | apply State.completeErr_runs | apply State.enterReadOnly_runs) | split

theorem State.commitTogether_runs (hfree : Field.free ∈ W) (hmedia : Field.media ∈ W) (hftl : Field.ftl ∈ W) (h : Runs W s0 s) (x1 x2 x3 x4) :
    Runs W s0 (State.commitTogether s x1 x2 x3 x4) := by
  unfold State.commitTogether
  try dsimp only
  repeat' first | with_reducible (first | assumption | apply State.commitUnits_runs | refine runs_foldl (fun _ _ _ => ?_) _ ?_) | split

theorem State.commitPlaced_runs (hfree : Field.free ∈ W) (hmedia : Field.media ∈ W) (hftl : Field.ftl ∈ W) (h : Runs W s0 s) (x1 x2 x3) :
    OptRuns W s0 Prod.fst (State.commitPlaced s x1 x2 x3) := by
  unfold State.commitPlaced
  extract_lets inPlace
  clear_value inPlace
  cases inPlace with
  | some f => exact optRuns_some (h.step (by constructor <;> first | rfl | exact .inl (by assumption) | exact .inr rfl | exact .inr ⟨rfl, rfl, rfl⟩) rfl rfl rfl rfl rfl)
  | none =>
    dsimp only
    split
    · refine optRuns_some ?_
      apply State.commitTogether_runs <;> with_reducible assumption
    · exact optRuns_none _

theorem commitGranules_runs (hfree : Field.free ∈ W) (hmedia : Field.media ∈ W) (hftl : Field.ftl ∈ W) (h : Runs W s0 s) (x1 x2 x3 x4 x5 x6 x7 x8) :
    Runs W s0 (commitGranules x1 x2 x3 x4 x5 x6 x7 x8 s) := by
  fun_induction commitGranules x1 x2 x3 x4 x5 x6 x7 x8 s <;> try rename_i ih
  all_goals try dsimp only
  all_goals repeat' first | with_reducible (first | assumption | apply ih | apply State.commitPlaced_runs | apply State.modFtl_runs | refine Runs.of_some_fst (by assumption) ?_) | split

theorem State.writeDone_runs (hfabric : Field.fabric ∈ W) (hhost : Field.host ∈ W) (htiers : Field.tiers ∈ W) (hindex : Field.index ∈ W) (hftl : Field.ftl ∈ W) (h : Runs W s0 s) (x1 x2 x3 x4) :
    Runs W s0 (State.writeDone s x1 x2 x3 x4) := by
  unfold State.writeDone
  try dsimp only
  repeat' first | with_reducible (first | assumption | apply State.modFtl_runs | apply State.markRange_runs | apply State.completeOk_runs) | split

theorem State.windowWait_runs (hindex : Field.index ∈ W) (hftl : Field.ftl ∈ W) (h : Runs W s0 s) (x1) :
    Runs W s0 (State.windowWait s x1) := by
  unfold State.windowWait
  try dsimp only
  repeat' first | with_reducible (first | assumption | apply State.modIndex_runs | apply State.modFtl_runs) | split

theorem zeroEdges_runs (hfree : Field.free ∈ W) (hmedia : Field.media ∈ W) (hftl : Field.ftl ∈ W) (h : Runs W s0 s) (x1 x2 x3 x4 x5) :
    OptRuns W s0 Prod.fst (zeroEdges x1 x2 x3 x4 x5 s) := by
  fun_induction zeroEdges x1 x2 x3 x4 x5 s <;> try rename_i ih
  all_goals try dsimp only
  all_goals repeat' first | with_reducible (first | assumption | apply ih | apply State.commitPlaced_runs | apply optRuns_none | refine optRuns_id ?_ | refine optRuns_some ?_ | refine optRuns_map ?_ (fun _ _ => ?_) | refine Runs.of_some_fst (by assumption) ?_) | split

theorem State.zeroRange_runs (hfree : Field.free ∈ W) (hmedia : Field.media ∈ W) (hftl : Field.ftl ∈ W) (h : Runs W s0 s) (x1 x2 x3 x4 x5) :
    OptRuns W s0 Prod.fst (State.zeroRange s x1 x2 x3 x4 x5) := by
  unfold State.zeroRange
  try dsimp only
  repeat' first | with_reducible (first | assumption | apply zeroEdges_runs | apply State.modFtl_runs | apply optRuns_none | refine optRuns_id ?_ | refine optRuns_some ?_ | refine optRuns_map ?_ (fun _ _ => ?_) | refine Runs.of_some_fst (by assumption) ?_) | split

theorem zeroRanges_runs (hfree : Field.free ∈ W) (hmedia : Field.media ∈ W) (hftl : Field.ftl ∈ W) (h : Runs W s0 s) (x1 x2 x3 x4) :
    OptRuns W s0 id (zeroRanges x1 x2 x3 x4 s) := by
  fun_induction zeroRanges x1 x2 x3 x4 s <;> try rename_i ih
  all_goals try dsimp only
  all_goals repeat' first | with_reducible (first | assumption | apply ih | apply State.zeroRange_runs | apply optRuns_none | refine optRuns_id ?_ | refine optRuns_some ?_ | refine optRuns_map ?_ (fun _ _ => ?_) | refine Runs.of_some (by assumption) ?_ | refine Runs.of_some_fst (by assumption) ?_) | split

theorem unmarkRanges_runs (hindex : Field.index ∈ W) (h : Runs W s0 s) (x1 x2) :
    Runs W s0 (unmarkRanges x1 x2 s) := by
  unfold unmarkRanges
  try dsimp only
  repeat' first | with_reducible (first | assumption | apply State.unmarkRange_runs | refine runs_foldl (fun _ _ _ => ?_) _ ?_) | split

theorem State.discardRuns_runs (hftl : Field.ftl ∈ W) (h : Runs W s0 s) (x1) :
    Runs W s0 (State.discardRuns s x1) := by
  unfold State.discardRuns
  try dsimp only
  repeat' first | with_reducible (first | assumption | apply State.modFtl_runs | refine runs_foldl (fun _ _ _ => ?_) _ ?_) | split

theorem State.emptyEu_runs (hmemory : Field.memory ∈ W) (hfree : Field.free ∈ W) (hfabric : Field.fabric ∈ W) (hamp : Field.amp ∈ W) (hfaults : Field.faults ∈ W) (hmedia : Field.media ∈ W) (hftl : Field.ftl ∈ W) (h : Runs W s0 s) (x1 x2 x3) :
    Runs W s0 (State.emptyEu s x1 x2 x3).1 := by
  unfold State.emptyEu
  try dsimp only
  repeat' first | with_reducible (first | assumption | apply State.eraseEu_runs | apply relocate_runs) | split

theorem emptyEus_runs (hmemory : Field.memory ∈ W) (hfree : Field.free ∈ W) (hfabric : Field.fabric ∈ W) (hamp : Field.amp ∈ W) (hfaults : Field.faults ∈ W) (hmedia : Field.media ∈ W) (hftl : Field.ftl ∈ W) (h : Runs W s0 s) (x1 x2 x3) :
    Runs W s0 (emptyEus x1 x2 x3 s) := by
  fun_induction emptyEus x1 x2 x3 s <;> try rename_i ih
  all_goals try dsimp only
  all_goals repeat' first | with_reducible (first | assumption | apply ih | apply State.emptyEu_runs | refine Runs.of_fst (by assumption) ?_) | split

theorem State.secureDiscard_runs (hmemory : Field.memory ∈ W) (hfree : Field.free ∈ W) (hfabric : Field.fabric ∈ W) (hamp : Field.amp ∈ W) (hfaults : Field.faults ∈ W) (hmedia : Field.media ∈ W) (hftl : Field.ftl ∈ W) (h : Runs W s0 s) (x1 x2 x3 x4 x5 x6) :
    Runs W s0 (State.secureDiscard s x1 x2 x3 x4 x5 x6).1 := by
  unfold State.secureDiscard
  try dsimp only
  repeat' first | with_reducible (first | assumption | apply emptyEus_runs | apply State.modFtl_runs | apply zeroEdges_runs | apply State.discardRuns_runs | refine Runs.of_some_fst (by assumption) ?_) | split

theorem reportLost_runs (hmemory : Field.memory ∈ W) (hfaults : Field.faults ∈ W) (h : Runs W s0 s) (x1 x2 x3) :
    Runs W s0 (reportLost x1 x2 x3 s) := by
  fun_induction reportLost x1 x2 x3 s <;> try rename_i ih
  all_goals try dsimp only
  all_goals repeat' first | with_reducible (first | assumption | apply ih | apply State.report_runs) | split

theorem reportRetried_runs (hmemory : Field.memory ∈ W) (hfaults : Field.faults ∈ W) (hftl : Field.ftl ∈ W) (h : Runs W s0 s) (x1 x2 x3) :
    Runs W s0 (reportRetried x1 x2 x3 s) := by
  fun_induction reportRetried x1 x2 x3 s <;> try rename_i ih
  all_goals try dsimp only
  all_goals repeat' first | with_reducible (first | assumption | apply ih | apply State.report_runs | apply State.modFtl_runs) | split

theorem State.readLbas_runs (hmemory : Field.memory ∈ W) (hfaults : Field.faults ∈ W) (hftl : Field.ftl ∈ W) (h : Runs W s0 s) (x1 x2 x3 x4) :
    Runs W s0 (State.readLbas s x1 x2 x3 x4).1 := by
  unfold State.readLbas
  try dsimp only
  repeat' first | with_reducible (first | assumption | apply reportRetried_runs | apply State.modFtl_runs | apply reportLost_runs) | split

theorem State.readFails_runs (hfabric : Field.fabric ∈ W) (hhost : Field.host ∈ W) (htiers : Field.tiers ∈ W) (hftl : Field.ftl ∈ W) (h : Runs W s0 s) (x1) :
    Runs W s0 (State.readFails s x1) := by
  unfold State.readFails
  try dsimp only
  repeat' first | with_reducible (first | assumption | apply State.completeErr_runs | apply State.modFtl_runs) | split

theorem scatter_runs (hhostMem : Field.hostMem ∈ W) (h : Runs W s0 s) (x1 x2) :
    Runs W s0 (scatter x1 x2 s) := by
  fun_induction scatter x1 x2 s <;> try rename_i ih
  all_goals try dsimp only
  all_goals repeat' first | with_reducible (first | assumption | apply ih | apply State.writeHost_runs) | split

/-! ## Storage -/

@[simp] theorem Sec.wipeOldKeys_counter (x : Sec) : x.wipeOldKeys.counter = x.counter := by unfold Sec.wipeOldKeys; split <;> rfl
@[simp] theorem Sec.wipeOldKeys_revoked (x : Sec) : x.wipeOldKeys.revoked = x.revoked := by unfold Sec.wipeOldKeys; split <;> rfl

theorem execRead_runs (hmemory : Field.memory ∈ W) (hhostMem : Field.hostMem ∈ W) (hfree : Field.free ∈ W) (hanswer : Field.answer ∈ W) (hfabric : Field.fabric ∈ W) (hhost : Field.host ∈ W) (hfaults : Field.faults ∈ W) (htiers : Field.tiers ∈ W) (hftl : Field.ftl ∈ W) (h : Runs W s0 s) (x1 x2 x3 x4) :
    Ends W s0 (execRead x1 x2 x3 x4 s) := by
  unfold execRead
  try dsimp only
  repeat' first | with_reducible (first | assumption | apply State.ioRow_runs | apply State.readLbas_runs | apply State.modFtl_runs | apply State.reply_runs | apply State.completeOk_runs | apply scatter_runs | apply State.readFails_runs | rw [ends_next] | refine Runs.of_fst (by assumption) ?_) | split | (intro _; intros; try dsimp only)

theorem execVerify_runs (hmemory : Field.memory ∈ W) (hfree : Field.free ∈ W) (hfabric : Field.fabric ∈ W) (hhost : Field.host ∈ W) (hfaults : Field.faults ∈ W) (htiers : Field.tiers ∈ W) (hftl : Field.ftl ∈ W) (h : Runs W s0 s) (x1 x2 x3) :
    Ends W s0 (execVerify x1 x2 x3 s) := by
  unfold execVerify
  try dsimp only
  repeat' first | with_reducible (first | assumption | apply State.ioRow_runs | apply State.readLbas_runs | apply State.completeOk_runs | apply State.readFails_runs | rw [ends_next] | refine Runs.of_fst (by assumption) ?_) | split | (intro _; intros; try dsimp only)

theorem execWrite_runs (hfree : Field.free ∈ W) (hfabric : Field.fabric ∈ W) (hhost : Field.host ∈ W) (hamp : Field.amp ∈ W) (htiers : Field.tiers ∈ W) (hindex : Field.index ∈ W) (hmedia : Field.media ∈ W) (hftl : Field.ftl ∈ W) (h : Runs W s0 s) (x1 x2 x3 x4 x5) :
    Ends W s0 (execWrite x1 x2 x3 x4 x5 s) := by
  unfold execWrite
  try dsimp only
  repeat' first | with_reducible (first | assumption | apply State.ioRow_runs | apply State.windowWait_runs | apply commitGranules_runs | apply State.writeDone_runs | apply State.writeFails_runs | apply State.modFtl_runs | rw [ends_next]) | split | (intro _; intros; try dsimp only)

theorem execWriteZeroes_runs (hfree : Field.free ∈ W) (hfabric : Field.fabric ∈ W) (hhost : Field.host ∈ W) (hamp : Field.amp ∈ W) (htiers : Field.tiers ∈ W) (hindex : Field.index ∈ W) (hmedia : Field.media ∈ W) (hftl : Field.ftl ∈ W) (h : Runs W s0 s) (x1 x2 x3) :
    Ends W s0 (execWriteZeroes x1 x2 x3 s) := by
  unfold execWriteZeroes
  rw [ends_next]
  apply State.ioRow_runs <;> try with_reducible assumption
  intro t s h
  extract_lets e
  split
  · apply State.windowWait_runs <;> with_reducible assumption
  · split
    · rename_i u _ eq
      have hu : Runs W s0 u := Runs.of_some_fst eq (by apply State.zeroRange_runs <;> with_reducible assumption)
      extract_lets u2
      apply State.markRange_runs <;> try with_reducible assumption
      apply State.completeOk_runs <;> try with_reducible assumption
      apply State.modFtl_runs <;> with_reducible assumption
    · split
      · apply State.writeFails_runs <;> with_reducible assumption
      · exact h

theorem State.dsmRow_runs (hfree : Field.free ∈ W) (hfabric : Field.fabric ∈ W) (hhost : Field.host ∈ W) (htiers : Field.tiers ∈ W) (h : Runs W s0 s) (x1 x2 x3) {f}
    (hf : ∀ k l t, Runs W s0 t → Runs W s0 (f k l t)) :
    Runs W s0 (State.dsmRow s x1 x2 x3 f) := by
  unfold State.dsmRow
  try dsimp only
  repeat' first | with_reducible (first | assumption | apply hf | apply State.completeSanitizing_runs | apply State.completeErr_runs) | split

theorem execDatasetManagement_runs (hfree : Field.free ∈ W) (hfabric : Field.fabric ∈ W) (hhost : Field.host ∈ W) (hamp : Field.amp ∈ W) (htiers : Field.tiers ∈ W) (hindex : Field.index ∈ W) (hmedia : Field.media ∈ W) (hftl : Field.ftl ∈ W) (h : Runs W s0 s) (x1 x2 x3 x4) :
    Ends W s0 (execDatasetManagement x1 x2 x3 x4 s) := by
  unfold execDatasetManagement
  try dsimp only
  repeat' first | with_reducible (first | assumption | apply State.dsmRow_runs | apply State.windowWait_runs | apply zeroRanges_runs | apply unmarkRanges_runs | apply State.completeOk_runs | apply State.writeFails_runs | rw [ends_next] | refine Runs.of_some (by assumption) ?_ | refine optRuns_bind_id ?_ (fun _ _ => ?_) | refine optRuns_map_id ?_ (fun _ _ => ?_) | refine optRuns_getD ?_ ?_ | refine optRuns_id ?_ | apply optRuns_none) | split | (intro _; intros; try dsimp only)

theorem execSecureDiscard_runs (hmemory : Field.memory ∈ W) (hfree : Field.free ∈ W) (hfabric : Field.fabric ∈ W) (hhost : Field.host ∈ W) (hamp : Field.amp ∈ W) (hfaults : Field.faults ∈ W) (htiers : Field.tiers ∈ W) (hindex : Field.index ∈ W) (hmedia : Field.media ∈ W) (hftl : Field.ftl ∈ W) (h : Runs W s0 s) (x1 x2 x3 x4 x5) :
    Ends W s0 (execSecureDiscard x1 x2 x3 x4 x5 s) := by
  unfold execSecureDiscard
  try dsimp only
  repeat' first | with_reducible (first | assumption | apply State.dsmRow_runs | apply State.windowWait_runs | apply State.secureDiscard_runs | apply unmarkRanges_runs | apply State.completeOk_runs | rw [ends_next] | refine Runs.of_fst (by assumption) ?_) | split | (intro _; intros; try dsimp only)

theorem State.dropUnits_runs (hftl : Field.ftl ∈ W) (h : Runs W s0 s) (x1) :
    Runs W s0 (State.dropUnits s x1) := by
  unfold State.dropUnits
  try dsimp only
  repeat' first | with_reducible (first | assumption | apply State.modFtl_runs) | split

theorem State.drawKey_runs (hfree : Field.free ∈ W) (hsec : Field.sec ∈ W) (h : Runs W s0 s) (x1) :
    Runs W s0 (State.drawKey s x1) := by
  unfold State.drawKey
  try dsimp only
  repeat' first | with_reducible (first | assumption | apply State.used_runs) | refine State.modSec_runs (by assumption) ?_ _ (by simp) (by simp) | split

theorem admCreateNs_runs (hfree : Field.free ∈ W) (hhost : Field.host ∈ W) (hsec : Field.sec ∈ W) (hftl : Field.ftl ∈ W) (h : Runs W s0 s) (x1 x2) :
    Runs W s0 (admCreateNs x1 x2 s).1 := by
  unfold admCreateNs
  dsimp only
  repeat' first | with_reducible (first | assumption | apply Admin.refuse_runs | apply State.drawKey_runs | apply State.modHost_runs) | split
  exact h.step (by constructor <;> first | rfl | exact .inl (by assumption) | exact .inr rfl | exact .inr ⟨rfl, rfl, rfl⟩) rfl rfl rfl rfl rfl

theorem admDeleteNs_runs (hhost : Field.host ∈ W) (hsec : Field.sec ∈ W) (hindex : Field.index ∈ W) (hftl : Field.ftl ∈ W) (h : Runs W s0 s) (x1) :
    Runs W s0 (admDeleteNs x1 s).1 := by
  unfold admDeleteNs
  split
  · apply Admin.refuse_runs <;> with_reducible assumption
  · split
    · dsimp only
      refine State.modSec_runs hsec ?_ _ (by simp) (by simp)
      repeat' with_reducible (first | assumption | apply State.eraseBound_runs | apply State.modIndex_runs | apply State.dropUnits_runs | apply State.modHost_runs)
    · apply Admin.refuse_runs <;> with_reducible assumption

theorem nsManage_runs (hfree : Field.free ∈ W) (hhost : Field.host ∈ W) (hsec : Field.sec ∈ W) (hindex : Field.index ∈ W) (hftl : Field.ftl ∈ W)
    (h : Runs W s0 s) (o : Nat) (e : Sqe) (a b : Nat) :
    Runs W s0 ((match o with
      | 0 => admCreateNs a b
      | 1 => admDeleteNs e
      | _ => Admin.refuse .invalidField St.unsupported) s).1 := by
  split
  · apply admCreateNs_runs <;> with_reducible assumption
  · apply admDeleteNs_runs <;> with_reducible assumption
  · apply Admin.refuse_runs <;> with_reducible assumption

theorem execNamespaceManagement_runs (hfree : Field.free ∈ W) (hanswer : Field.answer ∈ W) (hfabric : Field.fabric ∈ W) (hhost : Field.host ∈ W) (hsec : Field.sec ∈ W) (hindex : Field.index ∈ W) (hftl : Field.ftl ∈ W) (h : Runs W s0 s) (x1 x2 x3 x4) :
    Ends W s0 (execNamespaceManagement x1 x2 x3 x4 s) := by
  unfold execNamespaceManagement
  rw [ends_next]
  apply State.admin_runs <;> first | with_reducible assumption | skip
  exact fun t ht => nsManage_runs hfree hhost hsec hindex hftl ht _ _ _ _


theorem State.cryptoErase_runs (hfree : Field.free ∈ W) (hsec : Field.sec ∈ W) (hindex : Field.index ∈ W) (hftl : Field.ftl ∈ W) (h : Runs W s0 s) (x1) :
    Runs W s0 (State.cryptoErase s x1) := by
  unfold State.cryptoErase
  try dsimp only
  repeat' first | with_reducible (first | assumption | apply State.eraseBound_runs | apply State.drawKey_runs | apply State.modFtl_runs) | refine State.modSec_runs (by assumption) ?_ _ (by simp) (by simp) | split

theorem execFormatNvm_runs (hmemory : Field.memory ∈ W) (hfree : Field.free ∈ W) (hanswer : Field.answer ∈ W) (hfabric : Field.fabric ∈ W) (hhost : Field.host ∈ W) (hamp : Field.amp ∈ W) (hfaults : Field.faults ∈ W) (hsec : Field.sec ∈ W) (hindex : Field.index ∈ W) (hmedia : Field.media ∈ W) (hftl : Field.ftl ∈ W) (h : Runs W s0 s) (x1 x2 x3 x4) :
    Ends W s0 (execFormatNvm x1 x2 x3 x4 s) := by
  unfold execFormatNvm
  try dsimp only
  repeat' first | with_reducible (first | assumption | apply State.admin_runs | apply Admin.refuse_runs | apply State.modFtl_runs | apply unmarkRanges_runs | apply State.secureDiscard_runs | apply State.cryptoErase_runs | rw [ends_next] | refine Runs.of_fst (by assumption) ?_) | split | (intro _; intros; try dsimp only)

theorem admGetLogPage_runs (hfree : Field.free ∈ W) (h : Runs W s0 s) (x1 x2) :
    Runs W s0 (admGetLogPage x1 x2 s).1 := by
  unfold admGetLogPage
  try dsimp only
  repeat' first | with_reducible (first | assumption | apply Admin.refuse_runs | apply State.used_runs | refine Runs.of_fst (by assumption) ?_) | split

theorem execGetLogPage_runs (hfree : Field.free ∈ W) (hanswer : Field.answer ∈ W) (hfabric : Field.fabric ∈ W) (hhost : Field.host ∈ W) (h : Runs W s0 s) (x1 x2) :
    Ends W s0 (execGetLogPage x1 x2 s) := by
  unfold execGetLogPage
  try dsimp only
  repeat' first | with_reducible (first | assumption | apply State.admin_runs | apply admGetLogPage_runs | rw [ends_next] | refine Runs.of_fst (by assumption) ?_) | split | (intro _; intros; try dsimp only)

theorem State.programGroup_runs (hmedia : Field.media ∈ W) (hftl : Field.ftl ∈ W) (h : Runs W s0 s) (x1 x2) :
    Runs W s0 (State.programGroup s x1 x2) := by
  unfold State.programGroup
  try dsimp only
  repeat' first | with_reducible (first | assumption | apply State.programUnit_runs | apply State.modFtl_runs | apply State.setWps_runs | refine runs_foldl (fun _ _ _ => ?_) _ ?_) | split

theorem State.programFails_runs (hmemory : Field.memory ∈ W) (hfree : Field.free ∈ W) (hfabric : Field.fabric ∈ W) (hamp : Field.amp ∈ W) (hfaults : Field.faults ∈ W) (hmedia : Field.media ∈ W) (hftl : Field.ftl ∈ W) (h : Runs W s0 s) (x1 x2 x3) :
    Runs W s0 (State.programFails s x1 x2 x3) := by
  unfold State.programFails
  try dsimp only
  repeat' first | with_reducible (first | assumption | apply relocate_runs | apply State.modFtl_runs | apply undefPages_runs | apply State.retireEu_runs | apply State.setWps_runs) | split

theorem execWriteBufferProgram_runs (hmemory : Field.memory ∈ W) (hfree : Field.free ∈ W) (hfabric : Field.fabric ∈ W) (hamp : Field.amp ∈ W) (hfaults : Field.faults ∈ W) (hmedia : Field.media ∈ W) (hftl : Field.ftl ∈ W) (h : Runs W s0 s) (x1 x2 x3) :
    Ends W s0 (execWriteBufferProgram x1 x2 x3 s) := by
  unfold execWriteBufferProgram
  try dsimp only
  repeat' first | with_reducible (first | assumption | apply State.programGroup_runs | apply State.programFails_runs | rw [ends_next]) | split

theorem execGarbageCollection_runs (hmemory : Field.memory ∈ W) (hfree : Field.free ∈ W) (hfabric : Field.fabric ∈ W) (hamp : Field.amp ∈ W) (hfaults : Field.faults ∈ W) (hmedia : Field.media ∈ W) (hftl : Field.ftl ∈ W) (h : Runs W s0 s) (x1 x2 x3) :
    Ends W s0 (execGarbageCollection x1 x2 x3 s) := by
  unfold execGarbageCollection
  try dsimp only
  repeat' first | with_reducible (first | assumption | apply relocate_runs | apply State.retireEu_runs | apply State.setWps_runs | apply State.modFtl_runs | apply State.eraseEu_runs | rw [ends_next]) | split

theorem execMapCheckpoint_runs (hftl : Field.ftl ∈ W) (h : Runs W s0 s) (x1) :
    Ends W s0 (execMapCheckpoint x1 s) := by
  unfold execMapCheckpoint
  try dsimp only
  repeat' first | with_reducible (first | assumption | apply State.modFtl_runs | refine runs_foldl (fun _ _ _ => ?_) _ ?_ | rw [ends_next]) | split

theorem execFlashTempPoll_runs (hpower : Field.power ∈ W) (hmgmt : Field.mgmt ∈ W) (hftl : Field.ftl ∈ W) (h : Runs W s0 s) (x1) :
    Ends W s0 (execFlashTempPoll x1 s) := by
  unfold execFlashTempPoll
  try dsimp only
  repeat' first | with_reducible (first | assumption | apply State.modFtl_runs | apply State.modMgmt_runs | apply State.modPower_runs | refine runs_foldl (fun _ _ _ => ?_) _ ?_ | rw [ends_next]) | split

theorem execPeRateBucket_runs (hfabric : Field.fabric ∈ W) (hamp : Field.amp ∈ W) (hftl : Field.ftl ∈ W) (h : Runs W s0 s) :
    Ends W s0 (execPeRateBucket s) := by
  unfold execPeRateBucket
  try dsimp only
  repeat' first | with_reducible (first | assumption | apply State.modFtl_runs | apply State.healthCheck_runs | apply State.post_runs | rw [ends_next]) | split

/-! ## Mgmt -/

theorem State.answerMctp_runs (hanswer : Field.answer ∈ W) (h : Runs W s0 s) (x1) :
    Runs W s0 (State.answerMctp s x1) := by
  unfold State.answerMctp
  try dsimp only
  repeat' first | with_reducible (first | assumption | apply State.reply_runs) | split

theorem execSetEndpointId_runs (hanswer : Field.answer ∈ W) (hmgmt : Field.mgmt ∈ W) (h : Runs W s0 s) (x1 x2) :
    Ends W s0 (execSetEndpointId x1 x2 s) := by
  unfold execSetEndpointId
  try dsimp only
  repeat' first | with_reducible (first | assumption | apply State.answerMctp_runs | apply State.modMgmt_runs | rw [ends_next]) | split

theorem execGetEndpointId_runs (hanswer : Field.answer ∈ W) (h : Runs W s0 s) :
    Ends W s0 (execGetEndpointId s) := by
  unfold execGetEndpointId
  try dsimp only
  repeat' first | with_reducible (first | assumption | apply State.answerMctp_runs | rw [ends_next]) | split

theorem execGetMctpVersionSupport_runs (hanswer : Field.answer ∈ W) (h : Runs W s0 s) (x1) :
    Ends W s0 (execGetMctpVersionSupport x1 s) := by
  unfold execGetMctpVersionSupport
  try dsimp only
  repeat' first | with_reducible (first | assumption | apply State.answerMctp_runs | rw [ends_next]) | split

theorem execGetMessageTypeSupport_runs (hanswer : Field.answer ∈ W) (h : Runs W s0 s) :
    Ends W s0 (execGetMessageTypeSupport s) := by
  unfold execGetMessageTypeSupport
  try dsimp only
  repeat' first | with_reducible (first | assumption | apply State.answerMctp_runs | rw [ends_next]) | split

theorem execGetVendorDefinedMessageSupport_runs (hanswer : Field.answer ∈ W) (h : Runs W s0 s) (x1) :
    Ends W s0 (execGetVendorDefinedMessageSupport x1 s) := by
  unfold execGetVendorDefinedMessageSupport
  try dsimp only
  repeat' first | with_reducible (first | assumption | apply State.answerMctp_runs | rw [ends_next]) | split

theorem State.clearHealth_runs (hmgmt : Field.mgmt ∈ W) (h : Runs W s0 s) :
    Runs W s0 (State.clearHealth s) := by
  unfold State.clearHealth
  try dsimp only
  repeat' first | with_reducible (first | assumption | apply State.modMgmt_runs) | split

theorem State.mi_runs (hanswer : Field.answer ∈ W) (h : Runs W s0 s) (x1 x2) {f}
    (hf : ∀ t, Runs W s0 t → Runs W s0 (f t)) :
    Runs W s0 (State.mi s x1 x2 f) := by
  unfold State.mi
  try dsimp only
  repeat' first | with_reducible (first | assumption | apply hf | apply State.answerMctp_runs) | split

theorem execReadNvmeMiDataStructure_runs (hfree : Field.free ∈ W) (hanswer : Field.answer ∈ W) (h : Runs W s0 s) (x1 x2 x3 x4) :
    Ends W s0 (execReadNvmeMiDataStructure x1 x2 x3 x4 s) := by
  unfold execReadNvmeMiDataStructure
  try dsimp only
  repeat' first | with_reducible (first | assumption | apply State.mi_runs | apply State.used_runs | apply State.answerMctp_runs | rw [ends_next]) | split | (intro _; intros; try dsimp only)

theorem execNvmSubsystemHealthStatusPoll_runs (hanswer : Field.answer ∈ W) (hmgmt : Field.mgmt ∈ W) (h : Runs W s0 s) (x1 x2) :
    Ends W s0 (execNvmSubsystemHealthStatusPoll x1 x2 s) := by
  unfold execNvmSubsystemHealthStatusPoll
  try dsimp only
  repeat' first | with_reducible (first | assumption | apply State.mi_runs | apply State.answerMctp_runs | apply State.clearHealth_runs | rw [ends_next]) | split | (intro _; intros; try dsimp only)

theorem execControllerHealthStatusPoll_runs (hanswer : Field.answer ∈ W) (hmgmt : Field.mgmt ∈ W) (h : Runs W s0 s) (x1 x2 x3) :
    Ends W s0 (execControllerHealthStatusPoll x1 x2 x3 s) := by
  unfold execControllerHealthStatusPoll
  try dsimp only
  repeat' first | with_reducible (first | assumption | apply State.mi_runs | apply State.answerMctp_runs | apply State.clearHealth_runs | rw [ends_next]) | split | (intro _; intros; try dsimp only)

theorem execConfigurationSet_runs (hanswer : Field.answer ∈ W) (hmgmt : Field.mgmt ∈ W) (h : Runs W s0 s) (x1 x2 x3 x4) :
    Ends W s0 (execConfigurationSet x1 x2 x3 x4 s) := by
  unfold execConfigurationSet
  try dsimp only
  repeat' first | with_reducible (first | assumption | apply State.mi_runs | apply State.answerMctp_runs | apply State.modMgmt_runs | rw [ends_next]) | split | (intro _; intros; try dsimp only)

theorem execConfigurationGet_runs (hanswer : Field.answer ∈ W) (h : Runs W s0 s) (x1 x2 x3) :
    Ends W s0 (execConfigurationGet x1 x2 x3 s) := by
  unfold execConfigurationGet
  try dsimp only
  repeat' first | with_reducible (first | assumption | apply State.mi_runs | apply State.answerMctp_runs | rw [ends_next]) | split | (intro _; intros; try dsimp only)

theorem execVpdRead_runs (hanswer : Field.answer ∈ W) (h : Runs W s0 s) (x1 x2 x3) :
    Ends W s0 (execVpdRead x1 x2 x3 s) := by
  unfold execVpdRead
  try dsimp only
  repeat' first | with_reducible (first | assumption | apply State.mi_runs | apply State.answerMctp_runs | rw [ends_next]) | split | (intro _; intros; try dsimp only)

theorem execNvmeMiReset_runs (hanswer : Field.answer ∈ W) (hfabric : Field.fabric ∈ W) (hhost : Field.host ∈ W) (htiers : Field.tiers ∈ W) (hftl : Field.ftl ∈ W) (h : Runs W s0 s) (x1 x2) :
    Ends W s0 (execNvmeMiReset x1 x2 s) := by
  unfold execNvmeMiReset
  try dsimp only
  repeat' first | with_reducible (first | assumption | apply State.mi_runs | apply State.answerMctp_runs | apply subsystemReset_runs | rw [ends_next]) | split | (intro _; intros; try dsimp only)

theorem execSensorRead_runs (hfree : Field.free ∈ W) (hanswer : Field.answer ∈ W) (h : Runs W s0 s) (x1 x2) :
    Ends W s0 (execSensorRead x1 x2 s) := by
  unfold execSensorRead
  try dsimp only
  repeat' first | with_reducible (first | assumption | apply State.mi_runs | apply State.used_runs | apply State.answerMctp_runs | rw [ends_next]) | split | (intro _; intros; try dsimp only)

theorem tunnelled_runs (hfree : Field.free ∈ W) (hfabric : Field.fabric ∈ W) (hhost : Field.host ∈ W) (hmedia : Field.media ∈ W) (h : Runs W s0 s) (x1 x2 x3) :
    Runs W s0 (tunnelled x1 x2 x3 s).1 := by
  unfold tunnelled
  generalize x2.opc = o
  split
  all_goals first
    | (apply admIdentify_runs <;> with_reducible assumption)
    | (apply admGetLogPage_runs <;> with_reducible assumption)
    | (apply admGetFeatures_runs <;> with_reducible assumption)
    | (apply Admin.refuse_runs <;> with_reducible assumption)
    | skip
  all_goals repeat' split
  all_goals first
    | (apply admGetLogPage_runs <;> with_reducible assumption)
    | (apply admSetFeatures_runs <;> with_reducible assumption)
    | (apply admTimestamp_runs <;> with_reducible assumption)
    | (apply Admin.refuse_runs <;> with_reducible assumption)

theorem execNvmeMiAdminCommand_runs (hfree : Field.free ∈ W) (hanswer : Field.answer ∈ W) (hfabric : Field.fabric ∈ W) (hhost : Field.host ∈ W) (hmedia : Field.media ∈ W) (h : Runs W s0 s) (x1 x2 x3 x4) :
    Ends W s0 (execNvmeMiAdminCommand x1 x2 x3 x4 s) := by
  unfold execNvmeMiAdminCommand
  try dsimp only
  repeat' first | with_reducible (first | assumption | apply State.mi_runs | apply tunnelled_runs | apply State.reply_runs | apply State.answerMctp_runs | rw [ends_next] | refine Runs.of_fst (by assumption) ?_) | split | (intro _; intros; try dsimp only)

theorem execNvmeMiUnsupportedCommand_runs (hanswer : Field.answer ∈ W) (h : Runs W s0 s) (x1 x2) :
    Ends W s0 (execNvmeMiUnsupportedCommand x1 x2 s) := by
  unfold execNvmeMiUnsupportedCommand
  try dsimp only
  repeat' first | with_reducible (first | assumption | apply State.mi_runs | apply State.answerMctp_runs | rw [ends_next]) | split | (intro _; intros; try dsimp only)

theorem State.spdm_runs (hanswer : Field.answer ∈ W) (h : Runs W s0 s)  {f}
    (hf : ∀ t, Runs W s0 t → Runs W s0 (f t).1) :
    Runs W s0 (State.spdm s f) := by
  unfold State.spdm
  try dsimp only
  repeat' first | with_reducible (first | assumption | apply hf | apply State.answerMctp_runs) | split

theorem State.modSpdm_runs (hmgmt : Field.mgmt ∈ W) (h : Runs W s0 s) (x1) :
    Runs W s0 (State.modSpdm s x1) := by
  unfold State.modSpdm
  try dsimp only
  repeat' first | with_reducible (first | assumption | apply State.modMgmt_runs) | split

theorem afterAlgos_runs  (h : Runs W s0 s)  {f}
    (hf : ∀ t, Runs W s0 t → Runs W s0 (f t).1) :
    Runs W s0 ((afterAlgos f s).1) := by
  unfold afterAlgos
  try dsimp only
  repeat' first | with_reducible (first | assumption | apply hf) | split

theorem execGetVersion_runs (hanswer : Field.answer ∈ W) (hmgmt : Field.mgmt ∈ W) (h : Runs W s0 s) :
    Ends W s0 (execGetVersion s) := by
  unfold execGetVersion
  try dsimp only
  repeat' first | with_reducible (first | assumption | apply State.spdm_runs | apply State.modSpdm_runs | rw [ends_next]) | split | (intro _; intros; try dsimp only)

theorem execGetCapabilities_runs (hanswer : Field.answer ∈ W) (hmgmt : Field.mgmt ∈ W) (h : Runs W s0 s) (x1) :
    Ends W s0 (execGetCapabilities x1 s) := by
  unfold execGetCapabilities
  try dsimp only
  repeat' first | with_reducible (first | assumption | apply State.spdm_runs | apply State.modSpdm_runs | rw [ends_next]) | split | (intro _; intros; try dsimp only)

theorem execNegotiateAlgorithms_runs (hanswer : Field.answer ∈ W) (hmgmt : Field.mgmt ∈ W) (h : Runs W s0 s) (x1 x2 x3) :
    Ends W s0 (execNegotiateAlgorithms x1 x2 x3 s) := by
  unfold execNegotiateAlgorithms
  try dsimp only
  repeat' first | with_reducible (first | assumption | apply State.spdm_runs | apply State.modSpdm_runs | rw [ends_next]) | split | (intro _; intros; try dsimp only)

theorem execGetDigests_runs (hanswer : Field.answer ∈ W) (h : Runs W s0 s) :
    Ends W s0 (execGetDigests s) := by
  unfold execGetDigests
  try dsimp only
  repeat' first | with_reducible (first | assumption | apply State.spdm_runs | apply afterAlgos_runs | rw [ends_next] | refine Runs.of_fst (by assumption) ?_) | split | (intro _; intros; try dsimp only)

theorem execGetCertificate_runs (hanswer : Field.answer ∈ W) (h : Runs W s0 s) (x1 x2 x3) :
    Ends W s0 (execGetCertificate x1 x2 x3 s) := by
  unfold execGetCertificate
  try dsimp only
  repeat' first | with_reducible (first | assumption | apply State.spdm_runs | apply afterAlgos_runs | rw [ends_next] | refine Runs.of_fst (by assumption) ?_) | split | (intro _; intros; try dsimp only)

theorem execChallenge_runs (hfree : Field.free ∈ W) (hanswer : Field.answer ∈ W) (h : Runs W s0 s) (x1 x2 x3) :
    Ends W s0 (execChallenge x1 x2 x3 s) := by
  unfold execChallenge
  try dsimp only
  repeat' first | with_reducible (first | assumption | apply State.spdm_runs | apply afterAlgos_runs | apply State.used_runs | rw [ends_next] | refine Runs.of_fst (by assumption) ?_) | split | (intro _; intros; try dsimp only)

theorem execGetMeasurements_runs (hfree : Field.free ∈ W) (hanswer : Field.answer ∈ W) (h : Runs W s0 s) (x1 x2 x3) :
    Ends W s0 (execGetMeasurements x1 x2 x3 s) := by
  unfold execGetMeasurements
  try dsimp only
  repeat' first | with_reducible (first | assumption | apply State.spdm_runs | apply afterAlgos_runs | apply State.used_runs | rw [ends_next] | refine Runs.of_fst (by assumption) ?_) | split | (intro _; intros; try dsimp only)

theorem execKeyExchange_runs (hfree : Field.free ∈ W) (hanswer : Field.answer ∈ W) (h : Runs W s0 s) (x1 x2) :
    Ends W s0 (execKeyExchange x1 x2 s) := by
  unfold execKeyExchange
  try dsimp only
  repeat' first | with_reducible (first | assumption | apply State.spdm_runs | apply State.reply_runs | apply State.used_runs | rw [ends_next]) | split | (intro _; intros; try dsimp only)

end Sys2Proof.Machine
end

