-- ==== Sys2Proof/Laws/RunsCluster.lean ====
section
/-! SUPPORT. What running the clusters, the scheduler, the sessions, the update units and the selection machinery keeps: one lemma per operation. -/

namespace Sys2Proof.Machine

variable {W : List Field} {s0 s : State}

/-! ## Task -/

theorem State.mxuReset_runs (hfree : Field.free ∈ W) (hcl : Field.cl ∈ W) (h : Runs W s0 s) (x1) :
    Runs W s0 (State.mxuReset s x1) := by
  exact ((State.modCl_runs hcl h x1 (fun c => c.mxuReset (s.free + 1))).taking hfree 5 :)

theorem State.modPart_runs (hsched : Field.sched ∈ W) (h : Runs W s0 s) (x1 x2) :
    Runs W s0 (State.modPart s x1 x2) := by
  unfold State.modPart
  try dsimp only
  repeat' first | with_reducible (first | assumption | apply State.modSched_runs) | split

theorem forClusters_runs  (h : Runs W s0 s) (x1) {f}
    (hf : ∀ g t, Runs W s0 t → Runs W s0 (f g t)) :
    Runs W s0 (forClusters f x1 s) := by
  fun_induction forClusters f x1 s <;> try rename_i ih
  all_goals try dsimp only
  all_goals repeat' first | with_reducible (first | assumption | apply ih | apply hf) | split

theorem State.newEpoch_runs (hcl : Field.cl ∈ W) (hsched : Field.sched ∈ W) (h : Runs W s0 s) (x1) :
    Runs W s0 (State.newEpoch s x1) := by
  unfold State.newEpoch
  try dsimp only
  repeat' first | with_reducible (first | assumption | apply State.modSched_runs | apply forClusters_runs | apply State.modCl_runs) | split | (intro _; intros; try dsimp only)

theorem State.latchSat_runs (hcl : Field.cl ∈ W) (h : Runs W s0 s) (x1) :
    Runs W s0 (State.latchSat s x1) := by
  unfold State.latchSat
  try dsimp only
  repeat' first | with_reducible (first | assumption | apply forClusters_runs | apply State.modCl_runs) | split | (intro _; intros; try dsimp only)

theorem State.snapshot_runs (hcl : Field.cl ∈ W) (hsched : Field.sched ∈ W) (h : Runs W s0 s) (x1 x2) :
    Runs W s0 (State.snapshot s x1 x2) := by
  unfold State.snapshot
  try dsimp only
  repeat' first | with_reducible (first | assumption | apply forClusters_runs | apply State.modCl_runs | apply State.modSched_runs | apply State.modPart_runs) | split | (intro _; intros; try dsimp only)

theorem startCores_runs (hcl : Field.cl ∈ W) (h : Runs W s0 s) (x1 x2 x3 x4) :
    Runs W s0 (startCores x1 x2 x3 x4 s) := by
  fun_induction startCores x1 x2 x3 x4 s <;> try rename_i ih
  all_goals try dsimp only
  all_goals repeat' first | with_reducible (first | assumption | apply ih | apply State.modCl_runs) | split

theorem restoreCluster_runs (hmemory : Field.memory ∈ W) (hfree : Field.free ∈ W) (hcl : Field.cl ∈ W) (hsched : Field.sched ∈ W) (h : Runs W s0 s) (x1 x2) :
    Runs W s0 (restoreCluster x1 x2 s) := by
  unfold restoreCluster
  try dsimp only
  repeat' first | with_reducible (first | assumption | apply State.modSched_runs | apply State.modCl_runs | apply State.clearMem_runs | apply State.writeMem_runs | apply State.undefine_runs | apply State.poisonWord_runs | refine runs_foldl (fun _ _ _ => ?_) _ ?_) | split

theorem State.stepRun_runs (hhost : Field.host ∈ W) (h : Runs W s0 s) (x1) :
    Runs W s0 (State.stepRun s x1) := by
  unfold State.stepRun
  try dsimp only
  repeat' first | with_reducible (first | assumption | apply State.modResult_runs) | split

theorem State.rerunStep_runs (hmemory : Field.memory ∈ W) (hfree : Field.free ∈ W) (hcl : Field.cl ∈ W) (hsched : Field.sched ∈ W) (h : Runs W s0 s) (x1 x2 x3) :
    Runs W s0 (State.rerunStep s x1 x2 x3) := by
  unfold State.rerunStep
  try dsimp only
  repeat' first | with_reducible (first | assumption | apply forClusters_runs | apply State.modCl_runs | apply State.mvFlush_runs | apply State.mxuReset_runs | apply State.newEpoch_runs | apply State.modPart_runs) | split | (intro _; intros; try dsimp only)

theorem State.holdCores_runs (hcl : Field.cl ∈ W) (h : Runs W s0 s) (x1) :
    Runs W s0 (State.holdCores s x1) := by
  unfold State.holdCores
  try dsimp only
  repeat' first | with_reducible (first | assumption | apply forClusters_runs | apply State.modCl_runs) | split | (intro _; intros; try dsimp only)

theorem State.startTask_runs (hmemory : Field.memory ∈ W) (hfree : Field.free ∈ W) (hhost : Field.host ∈ W) (hcl : Field.cl ∈ W) (hsched : Field.sched ∈ W) (h : Runs W s0 s) (x1 x2 x3) :
    Runs W s0 (State.startTask s x1 x2 x3) := by
  unfold State.startTask
  try dsimp only
  repeat' first | with_reducible (first | assumption | apply State.modPart_runs | apply restoreCluster_runs | apply State.stepRun_runs | apply State.newEpoch_runs | apply startCores_runs | apply State.snapshot_runs | refine runs_foldl (fun _ _ _ => ?_) _ ?_) | split

theorem State.closeTask_runs (hhostMem : Field.hostMem ∈ W) (hfabric : Field.fabric ∈ W) (hhost : Field.host ∈ W) (hamp : Field.amp ∈ W) (hcl : Field.cl ∈ W) (hsched : Field.sched ∈ W) (htiers : Field.tiers ∈ W) (htokens : Field.tokens ∈ W) (h : Runs W s0 s) (x1 x2) :
    Runs W s0 (State.closeTask s x1 x2) := by
  unfold State.closeTask
  try dsimp only
  repeat' first | with_reducible (first | assumption | apply State.holdCores_runs | apply State.newEpoch_runs | apply State.modPart_runs | apply State.commandEnd_runs | apply State.release_runs | refine runs_foldl (fun _ _ _ => ?_) _ ?_) | split

theorem State.shadeTask_runs (hmemory : Field.memory ∈ W) (h : Runs W s0 s) (x1 x2) :
    OptRuns W s0 (fun p => p.2.1) (State.shadeTask s x1 x2) := by
  unfold State.shadeTask
  try dsimp only
  repeat' first | with_reducible (first | assumption | apply State.writeMem_runs | apply optRuns_none | refine optRuns_id ?_ | refine optRuns_some ?_ | refine optRuns_map ?_ (fun _ _ => ?_)) | split

theorem State.enqueue_runs (hsched : Field.sched ∈ W) (h : Runs W s0 s) (x1 x2) :
    Runs W s0 (State.enqueue s x1 x2) := by
  unfold State.enqueue
  try dsimp only
  repeat' first | with_reducible (first | assumption | apply State.modPart_runs) | split

theorem State.preemptFor_runs (hcl : Field.cl ∈ W) (hsched : Field.sched ∈ W) (h : Runs W s0 s) (x1 x2) :
    Runs W s0 (State.preemptFor s x1 x2) := by
  unfold State.preemptFor
  try dsimp only
  repeat' first | with_reducible (first | assumption | apply State.holdCores_runs | apply State.modPart_runs) | split

theorem State.dispatch_runs (hmemory : Field.memory ∈ W) (hhostMem : Field.hostMem ∈ W) (hfree : Field.free ∈ W) (hfabric : Field.fabric ∈ W) (hhost : Field.host ∈ W) (hamp : Field.amp ∈ W) (hcl : Field.cl ∈ W) (hsched : Field.sched ∈ W) (htiers : Field.tiers ∈ W) (htokens : Field.tokens ∈ W) (h : Runs W s0 s) (x1 x2) :
    Runs W s0 (State.dispatch s x1 x2) := by
  induction x2 generalizing s x1 with
  | zero => exact h
  | succ n ih =>
    simp only [State.dispatch]
    repeat' first
      | with_reducible (first
        | assumption
        | apply ih
        | apply State.preemptFor_runs
        | apply State.enqueue_runs
        | apply State.startTask_runs
        | apply State.holdCores_runs
        | apply State.closeTask_runs
        | apply State.rerunStep_runs
        | apply State.commandEnd_runs
        | apply State.release_runs
        | apply State.monitor_runs
        | apply State.modPart_runs
        | refine runs_foldl (fun _ _ _ => ?_) _ ?_
        | refine Runs.of_some_mid (by assumption) ?_
        | apply optRuns_none
        | apply State.shadeTask_runs)
      | split

theorem State.dispatchPoint_runs (hmemory : Field.memory ∈ W) (hhostMem : Field.hostMem ∈ W) (hfree : Field.free ∈ W) (hfabric : Field.fabric ∈ W) (hhost : Field.host ∈ W) (hamp : Field.amp ∈ W) (hcl : Field.cl ∈ W) (hsched : Field.sched ∈ W) (htiers : Field.tiers ∈ W) (htokens : Field.tokens ∈ W) (h : Runs W s0 s) (x1) :
    Runs W s0 (State.dispatchPoint s x1) := by
  unfold State.dispatchPoint
  try dsimp only
  repeat' first | with_reducible (first | assumption | apply State.dispatch_runs) | split

theorem State.endTask_runs (hmemory : Field.memory ∈ W) (hhostMem : Field.hostMem ∈ W) (hfree : Field.free ∈ W) (hfabric : Field.fabric ∈ W) (hhost : Field.host ∈ W) (hamp : Field.amp ∈ W) (hcl : Field.cl ∈ W) (hsched : Field.sched ∈ W) (htiers : Field.tiers ∈ W) (htokens : Field.tokens ∈ W) (h : Runs W s0 s) (x1 x2) :
    Runs W s0 (State.endTask s x1 x2) := by
  unfold State.endTask
  try dsimp only
  repeat' first | with_reducible (first | assumption | apply State.dispatchPoint_runs | apply State.closeTask_runs) | split

theorem State.stepEnds_runs (hmemory : Field.memory ∈ W) (hhostMem : Field.hostMem ∈ W) (hfree : Field.free ∈ W) (hfabric : Field.fabric ∈ W) (hhost : Field.host ∈ W) (hamp : Field.amp ∈ W) (hcl : Field.cl ∈ W) (hsched : Field.sched ∈ W) (htiers : Field.tiers ∈ W) (htokens : Field.tokens ∈ W) (h : Runs W s0 s) (x1 x2) :
    Runs W s0 (State.stepEnds s x1 x2) := by
  unfold State.stepEnds
  try dsimp only
  repeat' first | with_reducible (first | assumption | apply State.endTask_runs) | split

theorem State.faultedStep_runs (hmemory : Field.memory ∈ W) (hhostMem : Field.hostMem ∈ W) (hfree : Field.free ∈ W) (hfabric : Field.fabric ∈ W) (hhost : Field.host ∈ W) (hamp : Field.amp ∈ W) (hcl : Field.cl ∈ W) (hsched : Field.sched ∈ W) (htiers : Field.tiers ∈ W) (htokens : Field.tokens ∈ W) (h : Runs W s0 s) (x1) :
    Runs W s0 (State.faultedStep s x1) := by
  unfold State.faultedStep
  try dsimp only
  repeat' first | with_reducible (first | assumption | apply State.endTask_runs | apply State.rerunStep_runs) | split

theorem State.faultNow_runs (hmemory : Field.memory ∈ W) (hhostMem : Field.hostMem ∈ W) (hfree : Field.free ∈ W) (hfabric : Field.fabric ∈ W) (hhost : Field.host ∈ W) (hamp : Field.amp ∈ W) (hcl : Field.cl ∈ W) (hsched : Field.sched ∈ W) (htiers : Field.tiers ∈ W) (htokens : Field.tokens ∈ W) (h : Runs W s0 s) (x1) :
    Runs W s0 (State.faultNow s x1) := by
  unfold State.faultNow
  try dsimp only
  repeat' first | with_reducible (first | assumption | apply State.stepRun_runs | apply State.holdCores_runs | apply State.modTask_runs | apply State.faultedStep_runs) | split

theorem State.addTask_runs (hmemory : Field.memory ∈ W) (hhostMem : Field.hostMem ∈ W) (hfree : Field.free ∈ W) (hfabric : Field.fabric ∈ W) (hhost : Field.host ∈ W) (hamp : Field.amp ∈ W) (hcl : Field.cl ∈ W) (hsched : Field.sched ∈ W) (htiers : Field.tiers ∈ W) (htokens : Field.tokens ∈ W) (h : Runs W s0 s) (x1 x2) :
    Runs W s0 (State.addTask s x1 x2) := by
  unfold State.addTask
  try dsimp only
  repeat' first | with_reducible (first | assumption | apply State.preemptFor_runs | apply State.dispatchPoint_runs | apply State.enqueue_runs) | split

theorem State.afterSwitch_runs (hmemory : Field.memory ∈ W) (hhostMem : Field.hostMem ∈ W) (hfree : Field.free ∈ W) (hfabric : Field.fabric ∈ W) (hhost : Field.host ∈ W) (hamp : Field.amp ∈ W) (hcl : Field.cl ∈ W) (hsched : Field.sched ∈ W) (htiers : Field.tiers ∈ W) (htokens : Field.tokens ∈ W) (h : Runs W s0 s) (x1 x2) :
    Runs W s0 (State.afterSwitch s x1 x2) := by
  unfold State.afterSwitch
  try dsimp only
  repeat' first | with_reducible (first | assumption | apply State.shadeTask_runs | apply State.newEpoch_runs | apply State.holdCores_runs | apply State.release_runs | apply State.modPart_runs | apply State.dispatchPoint_runs | apply State.addTask_runs | refine runs_foldl (fun _ _ _ => ?_) _ ?_ | refine Runs.of_some_mid (by assumption) ?_) | split

/-! ## Generate -/

/-- Where `DraftKv` holds a state, it has been reached so. -/
def DraftRuns (W : List Field) (s : State) (p : DraftKv) : Prop := ∀ t g, p = .ok t g → Runs W s t
theorem draftRuns_ok {t : State} {g} (h : Runs W s0 t) : DraftRuns W s0 (.ok t g) := by
  intro t g e; cases e; exact h
theorem draftRuns_no {p : DraftKv} (h : ∀ t g, p ≠ .ok t g) : DraftRuns W s0 p := fun t g e => absurd e (h t g)
theorem Runs.of_draft {p : DraftKv} {t : State} {g} (e : p = .ok t g) (h : DraftRuns W s0 p) : Runs W s0 t := h t g e

theorem State.stage_runs (hmemory : Field.memory ∈ W) (hhostMem : Field.hostMem ∈ W) (hhost : Field.host ∈ W) (h : Runs W s0 s) (x1 x2 x3 x4 x5) :
    Runs W s0 (State.stage s x1 x2 x3 x4 x5) := by
  unfold State.stage
  try dsimp only
  repeat' first | with_reducible (first | assumption | apply State.writeMem_runs | apply State.admitTag_runs | apply State.openResult_runs) | split

theorem State.launch_runs (hmemory : Field.memory ∈ W) (hhostMem : Field.hostMem ∈ W) (hfree : Field.free ∈ W) (hfabric : Field.fabric ∈ W) (hhost : Field.host ∈ W) (hamp : Field.amp ∈ W) (hcl : Field.cl ∈ W) (hsched : Field.sched ∈ W) (htiers : Field.tiers ∈ W) (htokens : Field.tokens ∈ W) (h : Runs W s0 s) (x1 x2 x3 x4 x5) :
    Runs W s0 (State.launch s x1 x2 x3 x4 x5) := by
  unfold State.launch
  try dsimp only
  repeat' first | with_reducible (first | assumption | apply State.addTask_runs | apply State.stage_runs) | split

theorem State.takeSession_runs (htiers : Field.tiers ∈ W) (h : Runs W s0 s) (x1 x2) :
    Runs W s0 (State.takeSession s x1 x2) := by
  unfold State.takeSession
  try dsimp only
  repeat' first | with_reducible (first | assumption | apply State.modSession_runs) | split

theorem State.refuseSes_runs (hfabric : Field.fabric ∈ W) (hhost : Field.host ∈ W) (htiers : Field.tiers ∈ W) (h : Runs W s0 s) (x1 x2 x3) :
    Runs W s0 (State.refuseSes s x1 x2 x3) := by
  unfold State.refuseSes
  try dsimp only
  repeat' first | with_reducible (first | assumption | apply State.modSession_runs | apply State.vendorRefuse_runs) | split

theorem State.withSession_runs (hfabric : Field.fabric ∈ W) (hhost : Field.host ∈ W) (htiers : Field.tiers ∈ W) (h : Runs W s0 s) (x1 x2) {f}
    (hf : ∀ t, Runs W s0 t → Runs W s0 (f t)) :
    Runs W s0 (State.withSession s x1 x2 f) := by
  unfold State.withSession
  try dsimp only
  repeat' first | with_reducible (first | assumption | apply hf | apply State.refuseSes_runs | apply State.sessionWait_runs | apply State.beginResume_runs) | split

theorem execRun_runs (hmemory : Field.memory ∈ W) (hhostMem : Field.hostMem ∈ W) (hfree : Field.free ∈ W) (hfabric : Field.fabric ∈ W) (hhost : Field.host ∈ W) (hamp : Field.amp ∈ W) (hcl : Field.cl ∈ W) (hsched : Field.sched ∈ W) (htiers : Field.tiers ∈ W) (htokens : Field.tokens ∈ W) (h : Runs W s0 s) (x1 x2 x3) :
    Ends W s0 (execRun x1 x2 x3 s) := by
  unfold execRun
  try dsimp only
  repeat' first | with_reducible (first | assumption | apply State.vendorRow_runs | apply State.refuseSes_runs | apply State.withSession_runs | apply State.takeSession_runs | apply State.launch_runs | apply State.used_runs | rw [ends_next]) | split | (intro _; intros; try dsimp only)

theorem State.countSplits_runs (htokens : Field.tokens ∈ W) (h : Runs W s0 s) (x1) :
    Runs W s0 (State.countSplits s x1) := by
  unfold State.countSplits
  try dsimp only
  repeat' first | with_reducible (first | assumption | apply State.modTokens_runs) | split

theorem State.takeDraft_runs (hmemory : Field.memory ∈ W) (htiers : Field.tiers ∈ W) (h : Runs W s0 s) (x1 x2) :
    DraftRuns W s0 (State.takeDraft s x1 x2) := by
  unfold State.takeDraft
  try dsimp only
  repeat' first | with_reducible (first | assumption | apply State.take_runs | apply State.writeMem_runs | apply State.clearMem_runs | refine runs_foldl (fun _ _ _ => ?_) _ ?_ | refine draftRuns_ok ?_ | (apply draftRuns_no <;> intros <;> simp_all <;> done)) | split

theorem State.redraft_runs (hmemory : Field.memory ∈ W) (htiers : Field.tiers ∈ W) (htokens : Field.tokens ∈ W) (h : Runs W s0 s) (x1) :
    Runs W s0 (State.redraft s x1) := by
  unfold State.redraft
  try dsimp only
  repeat' first | with_reducible (first | assumption | apply State.takeDraft_runs | apply State.freeDraft_runs | apply State.modTokens_runs | refine Runs.of_draft (by assumption) ?_) | split

theorem State.checkMiss_runs (hmemory : Field.memory ∈ W) (hhost : Field.host ∈ W) (htiers : Field.tiers ∈ W) (htokens : Field.tokens ∈ W) (h : Runs W s0 s) (x1) :
    Runs W s0 (State.checkMiss s x1) := by
  unfold State.checkMiss
  try dsimp only
  repeat' first | with_reducible (first | assumption | apply State.redraft_runs | apply State.monitor_runs) | split

theorem State.generateReady_runs (hmemory : Field.memory ∈ W) (hhostMem : Field.hostMem ∈ W) (hfree : Field.free ∈ W) (hfabric : Field.fabric ∈ W) (hhost : Field.host ∈ W) (hamp : Field.amp ∈ W) (hcl : Field.cl ∈ W) (hsched : Field.sched ∈ W) (htiers : Field.tiers ∈ W) (htokens : Field.tokens ∈ W) (h : Runs W s0 s) (x1 x2 x3 x4 x5) :
    Runs W s0 (State.generateReady s x1 x2 x3 x4 x5) := by
  unfold State.generateReady
  try dsimp only
  repeat' first | with_reducible (first | assumption | apply State.refuseSes_runs | apply State.modTokens_runs | apply State.countSplits_runs | apply State.takeSession_runs | apply State.modSession_runs | apply State.monitor_runs | apply State.takeDraft_runs | apply State.launch_runs | refine Runs.of_draft (by assumption) ?_) | split

theorem execGenerate_runs (hmemory : Field.memory ∈ W) (hhostMem : Field.hostMem ∈ W) (hfree : Field.free ∈ W) (hfabric : Field.fabric ∈ W) (hhost : Field.host ∈ W) (hamp : Field.amp ∈ W) (hcl : Field.cl ∈ W) (hsched : Field.sched ∈ W) (htiers : Field.tiers ∈ W) (htokens : Field.tokens ∈ W) (h : Runs W s0 s) (x1 x2 x3) :
    Ends W s0 (execGenerate x1 x2 x3 s) := by
  unfold execGenerate
  try dsimp only
  repeat' first | with_reducible (first | assumption | apply State.vendorRow_runs | apply State.refuseSes_runs | apply State.withSession_runs | apply State.generateReady_runs | rw [ends_next]) | split | (intro _; intros; try dsimp only)

theorem execEmbed_runs (hmemory : Field.memory ∈ W) (hhostMem : Field.hostMem ∈ W) (hfree : Field.free ∈ W) (hfabric : Field.fabric ∈ W) (hhost : Field.host ∈ W) (hamp : Field.amp ∈ W) (hcl : Field.cl ∈ W) (hsched : Field.sched ∈ W) (htiers : Field.tiers ∈ W) (htokens : Field.tokens ∈ W) (h : Runs W s0 s) (x1 x2 x3) :
    Ends W s0 (execEmbed x1 x2 x3 s) := by
  unfold execEmbed
  rw [ends_next]
  apply State.vendorRow_runs <;> first | with_reducible assumption | skip
  intro t s h
  dsimp only
  have hr : ∀ st, Runs W s0 (s.vendorRefuse x1 st) := fun st => by apply State.vendorRefuse_runs <;> with_reducible assumption
  generalize embedItems (bit t.sqe.cmdDw 0) x2 (min (fieldAt x2 0 4) 4097) 8 [] (decide (fieldAt x2 4 4 ≠ 0)) = items
  refine Runs.ite (hr _) ?_
  cases items with
  | none => exact Runs.ite (hr _) (Runs.ite (hr _) (hr _))
  | some l =>
    refine Runs.ite (hr _) (Runs.ite (hr _) (Runs.ite (hr _) ?_))
    generalize (if t.sqe.nsid = 0 then s.object 1 t.sqe.object
        else (Tab.find s.index.bindings t.sqe.nsid).bind fun b => s.object 1 b.model) = model
    cases model with
    | none => exact hr _
    | some o =>
      dsimp only
      generalize s.modelCheck o [if bit t.sqe.cmdDw 1 = true then 2 else 1] = m
      cases m with
      | some st => exact hr _
      | none =>
        dsimp only
        repeat' with_reducible (first | assumption | refine Runs.ite ?_ ?_ | apply State.vendorRefuse_runs | apply State.addTask_runs | apply State.monitor_runs | apply State.stage_runs | apply State.flagResult_runs | apply State.modTokens_runs | apply State.used_runs | apply State.countSplits_runs)

theorem State.commitToken_runs (hhostMem : Field.hostMem ∈ W) (hhost : Field.host ∈ W) (htokens : Field.tokens ∈ W) (h : Runs W s0 s) (x1 x2) :
    Runs W s0 (State.commitToken s x1 x2).1 := by
  unfold State.commitToken
  try dsimp only
  repeat' first | with_reducible (first | assumption | apply State.emit_runs | apply State.modTokens_runs) | split

theorem commitTokens_runs (hhostMem : Field.hostMem ∈ W) (hhost : Field.host ∈ W) (htokens : Field.tokens ∈ W) (h : Runs W s0 s) (x1 x2) :
    Runs W s0 (commitTokens x1 x2 s).1 := by
  fun_induction commitTokens x1 x2 s <;> try rename_i ih
  all_goals try dsimp only
  all_goals repeat' first | with_reducible (first | assumption | apply ih | apply State.commitToken_runs | refine Runs.of_fst (by assumption) ?_) | split

theorem State.syncSession_runs (htiers : Field.tiers ∈ W) (htokens : Field.tokens ∈ W) (h : Runs W s0 s) (x1) :
    Runs W s0 (State.syncSession s x1) := by
  unfold State.syncSession
  try dsimp only
  repeat' first | with_reducible (first | assumption | apply State.modTokens_runs | apply State.modSession_runs) | split

theorem State.commitGen_runs (hhostMem : Field.hostMem ∈ W) (hhost : Field.host ∈ W) (htiers : Field.tiers ∈ W) (htokens : Field.tokens ∈ W) (h : Runs W s0 s) (x1 x2) :
    Runs W s0 (State.commitGen s x1 x2).1 := by
  unfold State.commitGen
  try dsimp only
  repeat' first | with_reducible (first | assumption | apply State.modTokens_runs | apply State.syncSession_runs | apply State.flagResult_runs | apply commitTokens_runs | apply State.writeHeader_runs | refine Runs.of_fst (by assumption) ?_) | split

theorem State.commitEmbed_runs (hhostMem : Field.hostMem ∈ W) (hhost : Field.host ∈ W) (htokens : Field.tokens ∈ W) (h : Runs W s0 s) (x1 x2) :
    Runs W s0 (State.commitEmbed s x1 x2).1 := by
  unfold State.commitEmbed
  try dsimp only
  repeat' first | with_reducible (first | assumption | apply State.emit_runs | apply State.modTokens_runs | refine runs_foldl (fun _ _ _ => ?_) _ ?_) | split

theorem execTokenizerSlice_runs (htokens : Field.tokens ∈ W) (h : Runs W s0 s) :
    Ends W s0 (execTokenizerSlice s) := by
  unfold execTokenizerSlice
  try dsimp only
  repeat' first | with_reducible (first | assumption | apply State.modTokens_runs | rw [ends_next]) | split

/-! ## Scratchpad -/

theorem execClMxuReset_runs (hfree : Field.free ∈ W) (hcl : Field.cl ∈ W) (h : Runs W s0 s) (x1) :
    Ends W s0 (execClMxuReset x1 s) := by
  unfold execClMxuReset
  try dsimp only
  repeat' first | with_reducible (first | assumption | apply State.mxuReset_runs | rw [ends_next]) | split

theorem execClCoreReset_runs (hcl : Field.cl ∈ W) (h : Runs W s0 s) (x1) :
    Ends W s0 (execClCoreReset x1 s) := by
  unfold execClCoreReset
  try dsimp only
  repeat' first | with_reducible (first | assumption | apply State.modCl_runs | rw [ends_next]) | split

theorem execClHalt_runs (hcl : Field.cl ∈ W) (h : Runs W s0 s) (x1 x2) :
    Ends W s0 (execClHalt x1 x2 s) := by
  unfold execClHalt
  try dsimp only
  repeat' first | with_reducible (first | assumption | apply State.modCl_runs | rw [ends_next]) | split

theorem execClEnable_runs (hcl : Field.cl ∈ W) (h : Runs W s0 s) (x1 x2) :
    Ends W s0 (execClEnable x1 x2 s) := by
  unfold execClEnable
  try dsimp only
  repeat' first | with_reducible (first | assumption | apply State.modCl_runs | rw [ends_next]) | split

theorem execCvClr_runs (hcl : Field.cl ∈ W) (h : Runs W s0 s) (x1) :
    Ends W s0 (execCvClr x1 s) := by
  unfold execCvClr
  try dsimp only
  repeat' first | with_reducible (first | assumption | apply State.modCl_runs | rw [ends_next]) | split

theorem execNarrowGuarantee_runs (hcl : Field.cl ∈ W) (h : Runs W s0 s) (x1) :
    Ends W s0 (execNarrowGuarantee x1 s) := by
  unfold execNarrowGuarantee
  try dsimp only
  repeat' first | with_reducible (first | assumption | apply State.modCl_runs | rw [ends_next]) | split

theorem execTenantClear_runs (hcl : Field.cl ∈ W) (h : Runs W s0 s) (x1) :
    Ends W s0 (execTenantClear x1 s) := by
  unfold execTenantClear
  try dsimp only
  repeat' first | with_reducible (first | assumption | apply State.modCl_runs | rw [ends_next]) | split

theorem execTenantClearDone_runs (hmemory : Field.memory ∈ W) (hhostMem : Field.hostMem ∈ W) (hfree : Field.free ∈ W) (hfabric : Field.fabric ∈ W) (hhost : Field.host ∈ W) (hamp : Field.amp ∈ W) (hcl : Field.cl ∈ W) (hsched : Field.sched ∈ W) (htiers : Field.tiers ∈ W) (htokens : Field.tokens ∈ W) (h : Runs W s0 s) (x1) :
    Ends W s0 (execTenantClearDone x1 s) := by
  unfold execTenantClearDone
  try dsimp only
  repeat' first | with_reducible (first | assumption | apply State.modCl_runs | apply State.clearMem_runs | apply State.dispatchPoint_runs | apply State.modPart_runs | rw [ends_next]) | split

theorem execSpClrCounts_runs (hcl : Field.cl ∈ W) (h : Runs W s0 s) (x1) :
    Ends W s0 (execSpClrCounts x1 s) := by
  unfold execSpClrCounts
  try dsimp only
  repeat' first | with_reducible (first | assumption | apply State.modCl_runs | rw [ends_next]) | split

theorem execSlotReset_runs (hcl : Field.cl ∈ W) (h : Runs W s0 s) (x1) :
    Ends W s0 (execSlotReset x1 s) := by
  unfold execSlotReset
  try dsimp only
  repeat' first | with_reducible (first | assumption | apply State.modCl_runs | rw [ends_next]) | split

theorem execSlotWaitLimitWrite_runs (hcl : Field.cl ∈ W) (h : Runs W s0 s) (x1 x2) :
    Ends W s0 (execSlotWaitLimitWrite x1 x2 s) := by
  unfold execSlotWaitLimitWrite
  try dsimp only
  repeat' first | with_reducible (first | assumption | apply State.modCl_runs | rw [ends_next]) | split

theorem execSlotWindowWrite_runs (hcl : Field.cl ∈ W) (h : Runs W s0 s) (x1 x2 x3) :
    Ends W s0 (execSlotWindowWrite x1 x2 x3 s) := by
  unfold execSlotWindowWrite
  try dsimp only
  repeat' first | with_reducible (first | assumption | apply State.modCl_runs | rw [ends_next]) | split

theorem execBankPowerDown_runs (hcl : Field.cl ∈ W) (h : Runs W s0 s) (x1 x2) :
    Ends W s0 (execBankPowerDown x1 x2 s) := by
  unfold execBankPowerDown
  try dsimp only
  repeat' first | with_reducible (first | assumption | apply State.modCl_runs | rw [ends_next]) | split

theorem execBankPowerDownForce_runs (hcl : Field.cl ∈ W) (h : Runs W s0 s) (x1 x2) :
    Ends W s0 (execBankPowerDownForce x1 x2 s) := by
  unfold execBankPowerDownForce
  try dsimp only
  repeat' first | with_reducible (first | assumption | apply State.modCl_runs | rw [ends_next]) | split

theorem execBankPowerTimeout_runs (hcl : Field.cl ∈ W) (h : Runs W s0 s) (x1) :
    Ends W s0 (execBankPowerTimeout x1 s) := by
  unfold execBankPowerTimeout
  try dsimp only
  repeat' first | with_reducible (first | assumption | apply State.modCl_runs | rw [ends_next]) | split

theorem execBankForceOff_runs (hcl : Field.cl ∈ W) (h : Runs W s0 s) (x1 x2) :
    Ends W s0 (execBankForceOff x1 x2 s) := by
  unfold execBankForceOff
  try dsimp only
  repeat' first | with_reducible (first | assumption | apply State.modCl_runs | rw [ends_next]) | split

theorem execBankPowerUp_runs (hcl : Field.cl ∈ W) (h : Runs W s0 s) (x1 x2 x3) :
    Ends W s0 (execBankPowerUp x1 x2 x3 s) := by
  unfold execBankPowerUp
  try dsimp only
  repeat' first | with_reducible (first | assumption | apply State.modCl_runs | rw [ends_next]) | split

theorem execBankPowerUpDone_runs (hmemory : Field.memory ∈ W) (hfree : Field.free ∈ W) (hcl : Field.cl ∈ W) (h : Runs W s0 s) (x1) :
    Ends W s0 (execBankPowerUpDone x1 s) := by
  unfold execBankPowerUpDone
  try dsimp only
  repeat' first | with_reducible (first | assumption | apply State.undefine_runs | apply State.modCl_runs | rw [ends_next]) | split

theorem State.retireBank_runs (hfaults : Field.faults ∈ W) (hcl : Field.cl ∈ W) (h : Runs W s0 s) (x1 x2) :
    Runs W s0 (State.retireBank s x1 x2).2 := by
  unfold State.retireBank
  try dsimp only
  repeat' first | with_reducible (first | assumption | apply State.modFaults_runs | apply State.modCl_runs) | split

theorem execBankRetire_runs (hfaults : Field.faults ∈ W) (hcl : Field.cl ∈ W) (h : Runs W s0 s) (x1 x2) :
    Ends W s0 (execBankRetire x1 x2 s) := by
  unfold execBankRetire
  try dsimp only
  repeat' first | with_reducible (first | assumption | apply State.retireBank_runs | apply State.modCl_runs | rw [ends_next] | refine Runs.of_snd (by assumption) ?_) | split

theorem execSpResidentWrite_runs (hcl : Field.cl ∈ W) (h : Runs W s0 s) (x1 x2 x3) :
    Ends W s0 (execSpResidentWrite x1 x2 x3 s) := by
  unfold execSpResidentWrite
  try dsimp only
  repeat' first | with_reducible (first | assumption | apply State.modCl_runs | rw [ends_next]) | split

theorem execRemoteSlotArrival_runs (hcl : Field.cl ∈ W) (h : Runs W s0 s) (x1) :
    Ends W s0 (execRemoteSlotArrival x1 s) := by
  unfold execRemoteSlotArrival
  try dsimp only
  repeat' first | with_reducible (first | assumption | apply State.modCl_runs | rw [ends_next]) | split

theorem State.xlzOperand_runs (hmemory : Field.memory ∈ W) (hhostMem : Field.hostMem ∈ W) (hfree : Field.free ∈ W) (hfabric : Field.fabric ∈ W) (hhost : Field.host ∈ W) (hamp : Field.amp ∈ W) (hcl : Field.cl ∈ W) (hsched : Field.sched ∈ W) (htiers : Field.tiers ∈ W) (htokens : Field.tokens ∈ W) (h : Runs W s0 s) (x1 x2) :
    Runs W s0 (State.xlzOperand s x1 x2) := by
  unfold State.xlzOperand
  try dsimp only
  repeat' first | with_reducible (first | assumption | apply State.stepEnds_runs | apply State.used_runs | apply State.modCl_runs) | split

theorem execSlotWaitTimeout_runs (hmemory : Field.memory ∈ W) (hhostMem : Field.hostMem ∈ W) (hfree : Field.free ∈ W) (hfabric : Field.fabric ∈ W) (hhost : Field.host ∈ W) (hamp : Field.amp ∈ W) (hcl : Field.cl ∈ W) (hsched : Field.sched ∈ W) (htiers : Field.tiers ∈ W) (htokens : Field.tokens ∈ W) (h : Runs W s0 s) (x1 x2) :
    Ends W s0 (execSlotWaitTimeout x1 x2 s) := by
  unfold execSlotWaitTimeout
  try dsimp only
  repeat' first | with_reducible (first | assumption | apply State.xlzOperand_runs | apply State.modCl_runs | apply State.stepEnds_runs | rw [ends_next]) | split

/-! ## BankPower -/

theorem execBankOff_runs (hcl : Field.cl ∈ W) (h : Runs W s0 s) (x1) :
    Ends W s0 (execBankOff x1 s) := by
  unfold execBankOff
  try dsimp only
  repeat' first | with_reducible (first | assumption | apply State.modCl_runs | rw [ends_next]) | split

theorem State.reloaded_runs (hmemory : Field.memory ∈ W) (hhostMem : Field.hostMem ∈ W) (hfree : Field.free ∈ W) (hfabric : Field.fabric ∈ W) (hhost : Field.host ∈ W) (hamp : Field.amp ∈ W) (hfaults : Field.faults ∈ W) (hcl : Field.cl ∈ W) (hsched : Field.sched ∈ W) (htiers : Field.tiers ∈ W) (htokens : Field.tokens ∈ W) (h : Runs W s0 s) (x1 x2 x3 x4) :
    Runs W s0 (State.reloaded s x1 x2 x3 x4) := by
  unfold State.reloaded
  try dsimp only
  repeat' first | with_reducible (first | assumption | apply State.store_runs | apply State.faultNow_runs | apply State.report_runs | apply State.stepEnds_runs) | split

theorem execResidentReloadDone_runs (hmemory : Field.memory ∈ W) (hhostMem : Field.hostMem ∈ W) (hfree : Field.free ∈ W) (hfabric : Field.fabric ∈ W) (hhost : Field.host ∈ W) (hamp : Field.amp ∈ W) (hfaults : Field.faults ∈ W) (hcl : Field.cl ∈ W) (hsched : Field.sched ∈ W) (htiers : Field.tiers ∈ W) (htokens : Field.tokens ∈ W) (h : Runs W s0 s) (x1 x2 x3 x4 x5) :
    Ends W s0 (execResidentReloadDone x1 x2 x3 x4 x5 s) := by
  unfold execResidentReloadDone
  try dsimp only
  repeat' first | with_reducible (first | assumption | apply State.reloaded_runs | apply State.modCl_runs | rw [ends_next]) | split

/-! ## Mxu -/

theorem State.raiseAsync_runs (hmemory : Field.memory ∈ W) (hhostMem : Field.hostMem ∈ W) (hfree : Field.free ∈ W) (hfabric : Field.fabric ∈ W) (hhost : Field.host ∈ W) (hamp : Field.amp ∈ W) (hcl : Field.cl ∈ W) (hsched : Field.sched ∈ W) (htiers : Field.tiers ∈ W) (htokens : Field.tokens ∈ W) (h : Runs W s0 s) (x1) :
    Runs W s0 (State.raiseAsync s x1) := by
  unfold State.raiseAsync
  try dsimp only
  repeat' first | with_reducible (first | assumption | apply State.used_runs | apply State.modCl_runs | apply State.faultNow_runs | apply State.stepEnds_runs) | split

theorem State.mxuFault_runs (hmemory : Field.memory ∈ W) (hhostMem : Field.hostMem ∈ W) (hfree : Field.free ∈ W) (hfabric : Field.fabric ∈ W) (hhost : Field.host ∈ W) (hamp : Field.amp ∈ W) (hcl : Field.cl ∈ W) (hsched : Field.sched ∈ W) (htiers : Field.tiers ∈ W) (htokens : Field.tokens ∈ W) (h : Runs W s0 s) (x1 x2 x3) :
    Runs W s0 (State.mxuFault s x1 x2 x3) := by
  unfold State.mxuFault
  dsimp only
  have h1 := (State.modCl_runs hcl (h.taking hfree 1) x1 (fun c => c.mxuFault x2 x3 (s.free + 1))).taking hfree 4
  split
  · apply State.raiseAsync_runs <;> first | with_reducible assumption | exact h1
  · exact h1

theorem State.loadDone_runs (hmemory : Field.memory ∈ W) (hhostMem : Field.hostMem ∈ W) (hfree : Field.free ∈ W) (hfabric : Field.fabric ∈ W) (hhost : Field.host ∈ W) (hamp : Field.amp ∈ W) (hfaults : Field.faults ∈ W) (hcl : Field.cl ∈ W) (hsched : Field.sched ∈ W) (htiers : Field.tiers ∈ W) (htokens : Field.tokens ∈ W) (h : Runs W s0 s) (x1 x2 x3 x4 x5 x6) :
    Runs W s0 (State.loadDone s x1 x2 x3 x4 x5 x6) := by
  unfold State.loadDone
  try dsimp only
  repeat' first | with_reducible (first | assumption | apply State.checkRead_runs | apply State.mxuFault_runs | apply State.modCl_runs | refine Runs.of_snd (by assumption) ?_) | split

theorem State.checkRows_runs (hmemory : Field.memory ∈ W) (hfree : Field.free ∈ W) (hfaults : Field.faults ∈ W) (hcl : Field.cl ∈ W) (hsched : Field.sched ∈ W) (h : Runs W s0 s) (x1 x2 x3 x4 x5 x6) :
    Runs W s0 (State.checkRows s x1 x2 x3 x4 x5 x6).2 := by
  fun_induction State.checkRows s x1 x2 x3 x4 x5 x6 <;> try rename_i ih
  all_goals try dsimp only
  all_goals repeat' first | with_reducible (first | assumption | apply ih | apply State.checkRead_runs | refine Runs.of_snd (by assumption) ?_) | split

theorem State.countRows_runs (hfree : Field.free ∈ W) (hcl : Field.cl ∈ W) (h : Runs W s0 s) (x1 x2 x3) :
    Runs W s0 (State.countRows s x1 x2 x3) := by
  unfold State.countRows
  try dsimp only
  repeat' first | with_reducible (first | assumption | apply State.modCl_runs | apply State.used_runs) | split

theorem State.streamDone_runs (hmemory : Field.memory ∈ W) (hhostMem : Field.hostMem ∈ W) (hfree : Field.free ∈ W) (hfabric : Field.fabric ∈ W) (hhost : Field.host ∈ W) (hamp : Field.amp ∈ W) (hfaults : Field.faults ∈ W) (hcl : Field.cl ∈ W) (hsched : Field.sched ∈ W) (htiers : Field.tiers ∈ W) (htokens : Field.tokens ∈ W) (h : Runs W s0 s) (x1 x2 x3 x4 x5 x6 x7 x8 x9 x10) :
    Runs W s0 (State.streamDone s x1 x2 x3 x4 x5 x6 x7 x8 x9 x10) := by
  unfold State.streamDone
  try dsimp only
  repeat' first | with_reducible (first | assumption | apply State.checkRows_runs | apply State.checkRead_runs | apply State.mxuFault_runs | apply State.used_runs | apply State.countRows_runs | apply State.modCl_runs | refine Runs.of_snd (by assumption) ?_) | split

theorem State.drainRows_runs (hmemory : Field.memory ∈ W) (hhostMem : Field.hostMem ∈ W) (hfree : Field.free ∈ W) (hfabric : Field.fabric ∈ W) (hhost : Field.host ∈ W) (hamp : Field.amp ∈ W) (hcl : Field.cl ∈ W) (hsched : Field.sched ∈ W) (htiers : Field.tiers ∈ W) (htokens : Field.tokens ∈ W) (h : Runs W s0 s) (x1 x2 x3 x4 x5 x6 x7 x8 x9) :
    Runs W s0 (State.drainRows s x1 x2 x3 x4 x5 x6 x7 x8 x9) := by
  fun_induction State.drainRows s x1 x2 x3 x4 x5 x6 x7 x8 x9 <;> try rename_i ih
  all_goals try dsimp only
  all_goals repeat' first | with_reducible (first | assumption | apply ih | apply State.writeRange_runs | apply State.modCl_runs | apply State.mxuFault_runs | refine Runs.of_snd (by assumption) ?_) | split

theorem execMxuOpStart_runs (hcl : Field.cl ∈ W) (h : Runs W s0 s) (x1 x2) :
    Ends W s0 (execMxuOpStart x1 x2 s) := by
  unfold execMxuOpStart
  try dsimp only
  repeat' first | with_reducible (first | assumption | apply State.modCl_runs | rw [ends_next]) | split

theorem execMxuOpComplete_runs (hmemory : Field.memory ∈ W) (hhostMem : Field.hostMem ∈ W) (hfree : Field.free ∈ W) (hfabric : Field.fabric ∈ W) (hhost : Field.host ∈ W) (hamp : Field.amp ∈ W) (hfaults : Field.faults ∈ W) (hcl : Field.cl ∈ W) (hsched : Field.sched ∈ W) (htiers : Field.tiers ∈ W) (htokens : Field.tokens ∈ W) (h : Runs W s0 s) (x1 x2 x3) :
    Ends W s0 (execMxuOpComplete x1 x2 x3 s) := by
  unfold execMxuOpComplete
  try dsimp only
  repeat' first | with_reducible (first | assumption | apply State.modCl_runs | apply State.loadDone_runs | apply State.streamDone_runs | apply State.drainRows_runs | rw [ends_next]) | split

/-! ## Xlz -/

theorem State.ecallEnds_runs (hanswer : Field.answer ∈ W) (hcl : Field.cl ∈ W) (h : Runs W s0 s) (x1 x2) :
    Runs W s0 (State.ecallEnds s x1 x2) := by
  unfold State.ecallEnds
  try dsimp only
  repeat' first | with_reducible (first | assumption | apply State.reply_runs | apply State.modCl_runs) | split

theorem State.illegal_runs (hfree : Field.free ∈ W) (hcl : Field.cl ∈ W) (h : Runs W s0 s) (x1) :
    Runs W s0 (State.illegal s x1) := by
  unfold State.illegal
  try dsimp only
  repeat' first | with_reducible (first | assumption | apply State.used_runs | apply State.modCl_runs) | split

theorem State.xlz_runs (hmemory : Field.memory ∈ W) (hhostMem : Field.hostMem ∈ W) (hfree : Field.free ∈ W) (hfabric : Field.fabric ∈ W) (hhost : Field.host ∈ W) (hamp : Field.amp ∈ W) (hcl : Field.cl ∈ W) (hsched : Field.sched ∈ W) (htiers : Field.tiers ∈ W) (htokens : Field.tokens ∈ W) (h : Runs W s0 s) (x1 x2 x3 x4) {f}
    (hf : ∀ t, Runs W s0 t → Runs W s0 (f t)) :
    Runs W s0 (State.xlz s x1 x2 x3 x4 f) := by
  unfold State.xlz
  try dsimp only
  repeat' first | with_reducible (first | assumption | apply hf | apply State.illegal_runs | apply State.raiseAsync_runs) | split

theorem State.stall_runs (hcl : Field.cl ∈ W) (h : Runs W s0 s) (x1 x2) :
    Runs W s0 (State.stall s x1 x2) := by
  unfold State.stall
  try dsimp only
  repeat' first | with_reducible (first | assumption | apply State.modCl_runs) | split

theorem State.queueMxu_runs (hcl : Field.cl ∈ W) (h : Runs W s0 s) (x1 x2 x3 x4) :
    Runs W s0 (State.queueMxu s x1 x2 x3 x4) := by
  unfold State.queueMxu
  try dsimp only
  repeat' first | with_reducible (first | assumption | apply State.stall_runs | apply State.modCl_runs) | split

theorem execTileLoad_runs (hmemory : Field.memory ∈ W) (hhostMem : Field.hostMem ∈ W) (hfree : Field.free ∈ W) (hfabric : Field.fabric ∈ W) (hhost : Field.host ∈ W) (hamp : Field.amp ∈ W) (hcl : Field.cl ∈ W) (hsched : Field.sched ∈ W) (htiers : Field.tiers ∈ W) (htokens : Field.tokens ∈ W) (h : Runs W s0 s) (x1 x2 x3 x4 x5) :
    Ends W s0 (execTileLoad x1 x2 x3 x4 x5 s) := by
  unfold execTileLoad
  try dsimp only
  repeat' first | with_reducible (first | assumption | apply State.xlz_runs | apply State.xlzOperand_runs | apply State.queueMxu_runs | rw [ends_next]) | split | (intro _; intros; try dsimp only)

theorem execTileStream_runs (hmemory : Field.memory ∈ W) (hhostMem : Field.hostMem ∈ W) (hfree : Field.free ∈ W) (hfabric : Field.fabric ∈ W) (hhost : Field.host ∈ W) (hamp : Field.amp ∈ W) (hcl : Field.cl ∈ W) (hsched : Field.sched ∈ W) (htiers : Field.tiers ∈ W) (htokens : Field.tokens ∈ W) (h : Runs W s0 s) (x1 x2 x3 x4 x5) :
    Ends W s0 (execTileStream x1 x2 x3 x4 x5 s) := by
  unfold execTileStream
  try dsimp only
  repeat' first | with_reducible (first | assumption | apply State.xlz_runs | apply State.xlzOperand_runs | apply State.queueMxu_runs | rw [ends_next]) | split | (intro _; intros; try dsimp only)

theorem execTileDrain_runs (hmemory : Field.memory ∈ W) (hhostMem : Field.hostMem ∈ W) (hfree : Field.free ∈ W) (hfabric : Field.fabric ∈ W) (hhost : Field.host ∈ W) (hamp : Field.amp ∈ W) (hcl : Field.cl ∈ W) (hsched : Field.sched ∈ W) (htiers : Field.tiers ∈ W) (htokens : Field.tokens ∈ W) (h : Runs W s0 s) (x1 x2 x3 x4 x5) :
    Ends W s0 (execTileDrain x1 x2 x3 x4 x5 s) := by
  unfold execTileDrain
  try dsimp only
  repeat' first | with_reducible (first | assumption | apply State.xlz_runs | apply State.xlzOperand_runs | apply State.queueMxu_runs | rw [ends_next]) | split | (intro _; intros; try dsimp only)

theorem execTileCfg_runs (hmemory : Field.memory ∈ W) (hhostMem : Field.hostMem ∈ W) (hfree : Field.free ∈ W) (hfabric : Field.fabric ∈ W) (hhost : Field.host ∈ W) (hamp : Field.amp ∈ W) (hcl : Field.cl ∈ W) (hsched : Field.sched ∈ W) (htiers : Field.tiers ∈ W) (htokens : Field.tokens ∈ W) (h : Runs W s0 s) (x1 x2 x3 x4 x5) :
    Ends W s0 (execTileCfg x1 x2 x3 x4 x5 s) := by
  unfold execTileCfg
  try dsimp only
  repeat' first | with_reducible (first | assumption | apply State.xlz_runs | apply State.xlzOperand_runs | apply State.stall_runs | apply State.modCl_runs | rw [ends_next]) | split | (intro _; intros; try dsimp only)

theorem execTileFence_runs (hmemory : Field.memory ∈ W) (hhostMem : Field.hostMem ∈ W) (hfree : Field.free ∈ W) (hfabric : Field.fabric ∈ W) (hhost : Field.host ∈ W) (hamp : Field.amp ∈ W) (hcl : Field.cl ∈ W) (hsched : Field.sched ∈ W) (htiers : Field.tiers ∈ W) (htokens : Field.tokens ∈ W) (h : Runs W s0 s) (x1 x2 x3 x4 x5) :
    Ends W s0 (execTileFence x1 x2 x3 x4 x5 s) := by
  unfold execTileFence
  try dsimp only
  repeat' first | with_reducible (first | assumption | apply State.xlz_runs | apply State.stall_runs | apply State.modCl_runs | rw [ends_next]) | split | (intro _; intros; try dsimp only)

theorem State.fetchDesc_runs (hmemory : Field.memory ∈ W) (hfree : Field.free ∈ W) (hfaults : Field.faults ∈ W) (hcl : Field.cl ∈ W) (hsched : Field.sched ∈ W) (h : Runs W s0 s) (x1 x2 x3 x4) :
    Runs W s0 (State.fetchDesc s x1 x2 x3 x4).2 := by
  unfold State.fetchDesc
  try dsimp only
  repeat' first | with_reducible (first | assumption | apply State.checkRead_runs | refine Runs.of_snd (by assumption) ?_) | split

theorem execMvIssue_runs (hmemory : Field.memory ∈ W) (hhostMem : Field.hostMem ∈ W) (hfree : Field.free ∈ W) (hfabric : Field.fabric ∈ W) (hhost : Field.host ∈ W) (hamp : Field.amp ∈ W) (hfaults : Field.faults ∈ W) (hcl : Field.cl ∈ W) (hsched : Field.sched ∈ W) (htiers : Field.tiers ∈ W) (htokens : Field.tokens ∈ W) (h : Runs W s0 s) (x1 x2 x3 x4 x5) :
    Ends W s0 (execMvIssue x1 x2 x3 x4 x5 s) := by
  unfold execMvIssue
  try dsimp only
  repeat' first | with_reducible (first | assumption | apply State.xlz_runs | apply State.xlzOperand_runs | apply State.stall_runs | apply State.fetchDesc_runs | apply State.modCl_runs | rw [ends_next] | refine Runs.of_snd (by assumption) ?_) | split | (intro _; intros; try dsimp only)

theorem execSlotWait_runs (hmemory : Field.memory ∈ W) (hhostMem : Field.hostMem ∈ W) (hfree : Field.free ∈ W) (hfabric : Field.fabric ∈ W) (hhost : Field.host ∈ W) (hamp : Field.amp ∈ W) (hcl : Field.cl ∈ W) (hsched : Field.sched ∈ W) (htiers : Field.tiers ∈ W) (htokens : Field.tokens ∈ W) (h : Runs W s0 s) (x1 x2 x3 x4 x5) :
    Ends W s0 (execSlotWait x1 x2 x3 x4 x5 s) := by
  unfold execSlotWait
  try dsimp only
  repeat' first | with_reducible (first | assumption | apply State.xlz_runs | apply State.xlzOperand_runs | apply State.modCl_runs | apply State.stall_runs | rw [ends_next]) | split | (intro _; intros; try dsimp only)

theorem execSlotTake_runs (hmemory : Field.memory ∈ W) (hhostMem : Field.hostMem ∈ W) (hfree : Field.free ∈ W) (hfabric : Field.fabric ∈ W) (hhost : Field.host ∈ W) (hamp : Field.amp ∈ W) (hcl : Field.cl ∈ W) (hsched : Field.sched ∈ W) (htiers : Field.tiers ∈ W) (htokens : Field.tokens ∈ W) (h : Runs W s0 s) (x1 x2 x3 x4 x5) :
    Ends W s0 (execSlotTake x1 x2 x3 x4 x5 s) := by
  unfold execSlotTake
  try dsimp only
  repeat' first | with_reducible (first | assumption | apply State.xlz_runs | apply State.xlzOperand_runs | apply State.modCl_runs | apply State.stall_runs | rw [ends_next]) | split | (intro _; intros; try dsimp only)

theorem execSlotGive_runs (hmemory : Field.memory ∈ W) (hhostMem : Field.hostMem ∈ W) (hfree : Field.free ∈ W) (hfabric : Field.fabric ∈ W) (hhost : Field.host ∈ W) (hamp : Field.amp ∈ W) (hcl : Field.cl ∈ W) (hsched : Field.sched ∈ W) (htiers : Field.tiers ∈ W) (htokens : Field.tokens ∈ W) (h : Runs W s0 s) (x1 x2 x3 x4 x5) :
    Ends W s0 (execSlotGive x1 x2 x3 x4 x5 s) := by
  unfold execSlotGive
  try dsimp only
  repeat' first | with_reducible (first | assumption | apply State.xlz_runs | apply State.xlzOperand_runs | apply State.stall_runs | apply State.modCl_runs | rw [ends_next]) | split | (intro _; intros; try dsimp only)

theorem execSlotPeek_runs (hmemory : Field.memory ∈ W) (hhostMem : Field.hostMem ∈ W) (hfree : Field.free ∈ W) (hfabric : Field.fabric ∈ W) (hhost : Field.host ∈ W) (hamp : Field.amp ∈ W) (hcl : Field.cl ∈ W) (hsched : Field.sched ∈ W) (htiers : Field.tiers ∈ W) (htokens : Field.tokens ∈ W) (h : Runs W s0 s) (x1 x2 x3 x4 x5) :
    Ends W s0 (execSlotPeek x1 x2 x3 x4 x5 s) := by
  unfold execSlotPeek
  try dsimp only
  repeat' first | with_reducible (first | assumption | apply State.xlz_runs | apply State.xlzOperand_runs | apply State.modCl_runs | rw [ends_next]) | split | (intro _; intros; try dsimp only)

theorem execSlotClear_runs (hmemory : Field.memory ∈ W) (hhostMem : Field.hostMem ∈ W) (hfree : Field.free ∈ W) (hfabric : Field.fabric ∈ W) (hhost : Field.host ∈ W) (hamp : Field.amp ∈ W) (hcl : Field.cl ∈ W) (hsched : Field.sched ∈ W) (htiers : Field.tiers ∈ W) (htokens : Field.tokens ∈ W) (h : Runs W s0 s) (x1 x2 x3 x4 x5) :
    Ends W s0 (execSlotClear x1 x2 x3 x4 x5 s) := by
  unfold execSlotClear
  try dsimp only
  repeat' first | with_reducible (first | assumption | apply State.xlz_runs | apply State.xlzOperand_runs | apply State.modCl_runs | rw [ends_next]) | split | (intro _; intros; try dsimp only)

/-! ## Sched -/

theorem emitPieces_runs (hhostMem : Field.hostMem ∈ W) (hhost : Field.host ∈ W) (h : Runs W s0 s) (x1 x2) :
    Runs W s0 (emitPieces x1 x2 s).1 := by
  fun_induction emitPieces x1 x2 s <;> try rename_i ih
  all_goals try dsimp only
  all_goals repeat' first | with_reducible (first | assumption | apply ih | apply State.emit_runs | refine Runs.of_fst (by assumption) ?_) | split

theorem State.commitStep_runs (hhostMem : Field.hostMem ∈ W) (hhost : Field.host ∈ W) (htiers : Field.tiers ∈ W) (htokens : Field.tokens ∈ W) (h : Runs W s0 s) (x1 x2) :
    Runs W s0 (State.commitStep s x1 x2).1 := by
  unfold State.commitStep
  try dsimp only
  repeat' first | with_reducible (first | assumption | apply emitPieces_runs | apply State.commitGen_runs | apply State.commitEmbed_runs | refine Runs.of_fst (by assumption) ?_) | split

theorem State.growSession_runs (hmemory : Field.memory ∈ W) (htiers : Field.tiers ∈ W) (h : Runs W s0 s) (x1 x2) :
    RoomRuns W s0 (State.growSession s x1 x2) := by
  unfold State.growSession
  try dsimp only
  repeat' first | with_reducible (first | assumption | apply State.growKv_runs | refine roomRuns_ok ?_ | (apply roomRuns_no <;> intros <;> simp_all <;> done) | refine Runs.of_room (by assumption) ?_) | split

theorem State.waitKv_runs (htiers : Field.tiers ∈ W) (h : Runs W s0 s) (x1 x2) :
    Runs W s0 (State.waitKv s x1 x2) := by
  unfold State.waitKv
  try dsimp only
  repeat' first | with_reducible (first | assumption | apply State.modSession_runs) | split

theorem releaseCores_runs (hcl : Field.cl ∈ W) (h : Runs W s0 s) (x1 x2) :
    Runs W s0 (releaseCores x1 x2 s) := by
  unfold releaseCores
  try dsimp only
  repeat' first | with_reducible (first | assumption | apply forClusters_runs | apply State.modCl_runs) | split | (intro _; intros; try dsimp only)

theorem State.closeStep_runs (hmemory : Field.memory ∈ W) (hhostMem : Field.hostMem ∈ W) (hfree : Field.free ∈ W) (hfabric : Field.fabric ∈ W) (hhost : Field.host ∈ W) (hamp : Field.amp ∈ W) (hcl : Field.cl ∈ W) (hsched : Field.sched ∈ W) (htiers : Field.tiers ∈ W) (htokens : Field.tokens ∈ W) (h : Runs W s0 s) (x1 x2 x3 x4) :
    Runs W s0 (State.closeStep s x1 x2 x3 x4) := by
  unfold State.closeStep
  try dsimp only
  repeat' first | with_reducible (first | assumption | apply State.stepRun_runs | apply State.holdCores_runs | apply State.modPart_runs | apply State.faultedStep_runs | apply State.endTask_runs | apply State.rerunStep_runs | apply State.latchSat_runs | apply State.commitStep_runs | apply State.growSession_runs | apply State.waitKv_runs | apply State.snapshot_runs | apply releaseCores_runs | apply State.afterSwitch_runs | apply State.checkMiss_runs | refine Runs.of_room (by assumption) ?_ | refine Runs.of_fst (by assumption) ?_) | split

theorem State.barrier_runs (hmemory : Field.memory ∈ W) (hhostMem : Field.hostMem ∈ W) (hfree : Field.free ∈ W) (hfabric : Field.fabric ∈ W) (hhost : Field.host ∈ W) (hamp : Field.amp ∈ W) (hcl : Field.cl ∈ W) (hsched : Field.sched ∈ W) (htiers : Field.tiers ∈ W) (htokens : Field.tokens ∈ W) (h : Runs W s0 s) (x1 x2) :
    Runs W s0 (State.barrier s x1 x2) := by
  unfold State.barrier
  try dsimp only
  repeat' first | with_reducible (first | assumption | apply State.closeStep_runs) | split

theorem execStepMark_runs (hmemory : Field.memory ∈ W) (hhostMem : Field.hostMem ∈ W) (hfree : Field.free ∈ W) (hfabric : Field.fabric ∈ W) (hhost : Field.host ∈ W) (hamp : Field.amp ∈ W) (hcl : Field.cl ∈ W) (hsched : Field.sched ∈ W) (htiers : Field.tiers ∈ W) (htokens : Field.tokens ∈ W) (h : Runs W s0 s) (x1 x2) :
    Ends W s0 (execStepMark x1 x2 s) := by
  unfold execStepMark
  try dsimp only
  repeat' first | with_reducible (first | assumption | apply State.xlz_runs | apply State.modTask_runs | apply State.barrier_runs | apply State.stall_runs | rw [ends_next]) | split | (intro _; intros; try dsimp only)

theorem execRunEmit_runs (hmemory : Field.memory ∈ W) (hhostMem : Field.hostMem ∈ W) (hfree : Field.free ∈ W) (hfabric : Field.fabric ∈ W) (hhost : Field.host ∈ W) (hamp : Field.amp ∈ W) (hfaults : Field.faults ∈ W) (hcl : Field.cl ∈ W) (hsched : Field.sched ∈ W) (htiers : Field.tiers ∈ W) (htokens : Field.tokens ∈ W) (h : Runs W s0 s) (x1 x2 x3) :
    Ends W s0 (execRunEmit x1 x2 x3 s) := by
  unfold execRunEmit
  try dsimp only
  repeat' first | with_reducible (first | assumption | apply State.checkRead_runs | apply State.modCl_runs | apply State.modTask_runs | apply State.faultNow_runs | apply State.stepEnds_runs | rw [ends_next] | refine Runs.of_snd (by assumption) ?_) | split

theorem execTaskEnd_runs (hmemory : Field.memory ∈ W) (hhostMem : Field.hostMem ∈ W) (hfree : Field.free ∈ W) (hfabric : Field.fabric ∈ W) (hhost : Field.host ∈ W) (hamp : Field.amp ∈ W) (hcl : Field.cl ∈ W) (hsched : Field.sched ∈ W) (htiers : Field.tiers ∈ W) (htokens : Field.tokens ∈ W) (h : Runs W s0 s) (x1 x2 x3) :
    Ends W s0 (execTaskEnd x1 x2 x3 s) := by
  unfold execTaskEnd
  try dsimp only
  repeat' first | with_reducible (first | assumption | apply State.barrier_runs | apply State.endTask_runs | apply State.modTask_runs | apply State.modCl_runs | rw [ends_next]) | split

theorem State.preempt_runs (hcl : Field.cl ∈ W) (hsched : Field.sched ∈ W) (h : Runs W s0 s) (x1) :
    Runs W s0 (State.preempt s x1) := by
  unfold State.preempt
  try dsimp only
  repeat' first | with_reducible (first | assumption | apply State.holdCores_runs | apply State.modPart_runs) | split

theorem execQuantumExpiry_runs (hcl : Field.cl ∈ W) (hsched : Field.sched ∈ W) (h : Runs W s0 s) (x1) :
    Ends W s0 (execQuantumExpiry x1 s) := by
  unfold execQuantumExpiry
  try dsimp only
  repeat' first | with_reducible (first | assumption | apply State.modPart_runs | apply State.preempt_runs | rw [ends_next]) | split

theorem State.writeArea_runs (hmemory : Field.memory ∈ W) (hfree : Field.free ∈ W) (h : Runs W s0 s) (x1 x2 x3 x4 x5) :
    Runs W s0 (State.writeArea s x1 x2 x3 x4 x5) := by
  unfold State.writeArea
  try dsimp only
  repeat' first | with_reducible (first | assumption | apply State.undefine_runs | apply State.writeMem_runs | refine runs_foldl (fun _ _ _ => ?_) _ ?_) | split

theorem writeAreas_runs (hmemory : Field.memory ∈ W) (hfree : Field.free ∈ W) (h : Runs W s0 s) (x1 x2 x3 x4) :
    Runs W s0 (writeAreas x1 x2 x3 x4 s) := by
  fun_induction writeAreas x1 x2 x3 x4 s <;> try rename_i ih
  all_goals try dsimp only
  all_goals repeat' first | with_reducible (first | assumption | apply ih | apply State.writeArea_runs) | split

theorem State.takeAreas_runs (htiers : Field.tiers ∈ W) (h : Runs W s0 s) (x1 x2) :
    OptRuns W s0 id (State.takeAreas s x1 x2) := by
  fun_induction State.takeAreas s x1 x2 <;> try rename_i ih
  all_goals try dsimp only
  all_goals repeat' first | with_reducible (first | assumption | apply ih | apply State.take_runs | apply optRuns_none | refine optRuns_id ?_ | refine optRuns_some ?_ | refine optRuns_map ?_ (fun _ _ => ?_) | refine Runs.of_some (by assumption) ?_) | split

theorem State.preemptWaits_runs (hcl : Field.cl ∈ W) (hsched : Field.sched ∈ W) (h : Runs W s0 s) (x1 x2) :
    Runs W s0 (State.preemptWaits s x1 x2) := by
  unfold State.preemptWaits
  try dsimp only
  repeat' first | with_reducible (first | assumption | apply State.modPart_runs | apply forClusters_runs | apply State.modCl_runs) | split | (intro _; intros; try dsimp only)

theorem execSaveComplete_runs (hmemory : Field.memory ∈ W) (hhostMem : Field.hostMem ∈ W) (hfree : Field.free ∈ W) (hfabric : Field.fabric ∈ W) (hhost : Field.host ∈ W) (hamp : Field.amp ∈ W) (hcl : Field.cl ∈ W) (hsched : Field.sched ∈ W) (htiers : Field.tiers ∈ W) (htokens : Field.tokens ∈ W) (h : Runs W s0 s) (x1 x2 x3) :
    Ends W s0 (execSaveComplete x1 x2 x3 s) := by
  unfold execSaveComplete
  try dsimp only
  repeat' first | with_reducible (first | assumption | apply State.preemptWaits_runs | apply State.takeAreas_runs | apply writeAreas_runs | apply forClusters_runs | apply State.modCl_runs | apply State.modPart_runs | apply State.dispatchPoint_runs | rw [ends_next] | refine Runs.of_some (by assumption) ?_ | refine optRuns_bind_id ?_ (fun _ _ => ?_) | refine optRuns_map_id ?_ (fun _ _ => ?_) | refine optRuns_getD ?_ ?_ | refine optRuns_id ?_ | apply optRuns_none) | split | (intro _; intros; try dsimp only)

theorem State.sweepPart_runs (hhostMem : Field.hostMem ∈ W) (hfabric : Field.fabric ∈ W) (hhost : Field.host ∈ W) (hamp : Field.amp ∈ W) (hcl : Field.cl ∈ W) (hsched : Field.sched ∈ W) (htiers : Field.tiers ∈ W) (htokens : Field.tokens ∈ W) (h : Runs W s0 s) (x1) :
    Runs W s0 (State.sweepPart s x1) := by
  unfold State.sweepPart
  try dsimp only
  repeat' first | with_reducible (first | assumption | apply State.modPart_runs | apply State.commandEnd_runs | apply State.release_runs | refine runs_foldl (fun _ _ _ => ?_) _ ?_) | split

theorem State.sweepStopped_runs (hhostMem : Field.hostMem ∈ W) (hfabric : Field.fabric ∈ W) (hhost : Field.host ∈ W) (hamp : Field.amp ∈ W) (hcl : Field.cl ∈ W) (hsched : Field.sched ∈ W) (htiers : Field.tiers ∈ W) (htokens : Field.tokens ∈ W) (h : Runs W s0 s) :
    Runs W s0 (State.sweepStopped s) := by
  unfold State.sweepStopped
  try dsimp only
  repeat' first | with_reducible (first | assumption | apply State.sweepPart_runs | refine runs_foldl (fun _ _ _ => ?_) _ ?_) | split

theorem execControllerResetDone_runs (hhostMem : Field.hostMem ∈ W) (hfabric : Field.fabric ∈ W) (hhost : Field.host ∈ W) (hamp : Field.amp ∈ W) (hcl : Field.cl ∈ W) (hsched : Field.sched ∈ W) (htiers : Field.tiers ∈ W) (htokens : Field.tokens ∈ W) (h : Runs W s0 s) (x1) :
    Ends W s0 (execControllerResetDone x1 s) := by
  unfold execControllerResetDone
  try dsimp only
  repeat' first | with_reducible (first | assumption | apply State.sweepStopped_runs | apply State.modCtrl_runs | apply State.modHost_runs | rw [ends_next]) | split

theorem execDeleteIoSqDone_runs (hhostMem : Field.hostMem ∈ W) (hanswer : Field.answer ∈ W) (hfabric : Field.fabric ∈ W) (hhost : Field.host ∈ W) (hamp : Field.amp ∈ W) (hcl : Field.cl ∈ W) (hsched : Field.sched ∈ W) (htiers : Field.tiers ∈ W) (htokens : Field.tokens ∈ W) (h : Runs W s0 s) (x1 x2) :
    Ends W s0 (execDeleteIoSqDone x1 x2 s) := by
  unfold execDeleteIoSqDone
  try dsimp only
  repeat' first | with_reducible (first | assumption | apply State.sweepStopped_runs | apply State.adminEnd_runs | apply State.modCtrl_runs | rw [ends_next]) | split

/-! ## Part -/

theorem State.letGo_runs (hcl : Field.cl ∈ W) (h : Runs W s0 s) (x1 x2) :
    Runs W s0 (State.letGo s x1 x2) := by
  unfold State.letGo
  try dsimp only
  repeat' first | with_reducible (first | assumption | apply forClusters_runs | apply State.modCl_runs) | split | (intro _; intros; try dsimp only)

theorem partApply_runs (hmemory : Field.memory ∈ W) (hhostMem : Field.hostMem ∈ W) (hfree : Field.free ∈ W) (hfabric : Field.fabric ∈ W) (hhost : Field.host ∈ W) (hamp : Field.amp ∈ W) (hcl : Field.cl ∈ W) (hsched : Field.sched ∈ W) (htiers : Field.tiers ∈ W) (htokens : Field.tokens ∈ W) (h : Runs W s0 s) (x1 x2) :
    Runs W s0 (partApply x1 x2 s).1 := by
  unfold partApply
  try dsimp only
  repeat' first | with_reducible (first | assumption | apply ampRefuse_runs | apply State.letGo_runs | apply ampAnswer_runs | apply State.dispatchPoint_runs | apply State.modSched_runs | refine Runs.of_fst (by assumption) ?_) | split

theorem partSet_runs (hmemory : Field.memory ∈ W) (hhostMem : Field.hostMem ∈ W) (hfree : Field.free ∈ W) (hfabric : Field.fabric ∈ W) (hhost : Field.host ∈ W) (hamp : Field.amp ∈ W) (hcl : Field.cl ∈ W) (hsched : Field.sched ∈ W) (htiers : Field.tiers ∈ W) (htokens : Field.tokens ∈ W) (h : Runs W s0 s) (x1) :
    Runs W s0 (partSet x1 s).1 := by
  unfold partSet
  try dsimp only
  repeat' first | with_reducible (first | assumption | apply ampRefuse_runs | apply ampAnswer_runs | apply State.modSched_runs | apply State.letGo_runs | apply State.dispatchPoint_runs | apply State.modPart_runs | apply partApply_runs | refine Runs.of_fst (by assumption) ?_) | split

theorem execPartSet_runs (hmemory : Field.memory ∈ W) (hhostMem : Field.hostMem ∈ W) (hfree : Field.free ∈ W) (hfabric : Field.fabric ∈ W) (hhost : Field.host ∈ W) (hamp : Field.amp ∈ W) (hcl : Field.cl ∈ W) (hsched : Field.sched ∈ W) (htiers : Field.tiers ∈ W) (htokens : Field.tokens ∈ W) (h : Runs W s0 s) (x1) :
    Ends W s0 (execPartSet x1 s) := by
  unfold execPartSet
  try dsimp only
  repeat' first | with_reducible (first | assumption | apply ampExec_runs | apply partSet_runs | rw [ends_next] | refine Runs.of_fst (by assumption) ?_) | split | (intro _; intros; try dsimp only)

theorem partRead_runs  (h : Runs W s0 s) (x1) :
    Runs W s0 (partRead x1 s).1 := by
  unfold partRead
  try dsimp only
  repeat' first | with_reducible (first | assumption | apply ampRefuse_runs | apply ampAnswer_runs | refine Runs.of_fst (by assumption) ?_) | split

theorem execPartRead_runs (hamp : Field.amp ∈ W) (h : Runs W s0 s) (x1) :
    Ends W s0 (execPartRead x1 s) := by
  unfold execPartRead
  try dsimp only
  repeat' first | with_reducible (first | assumption | apply ampExec_runs | apply partRead_runs | rw [ends_next] | refine Runs.of_fst (by assumption) ?_) | split | (intro _; intros; try dsimp only)

/-! ## Steward -/

theorem State.rvStep_runs (hfree : Field.free ∈ W) (hcl : Field.cl ∈ W) (h : Runs W s0 s) (x1 x2) :
    Runs W s0 (State.rvStep s x1 x2) := by
  unfold State.rvStep
  try dsimp only
  repeat' first | with_reducible (first | assumption | apply State.modCl_runs | apply State.used_runs | apply State.illegal_runs | refine runs_foldl (fun _ _ _ => ?_) _ ?_) | split

theorem State.accessFault_runs (hmemory : Field.memory ∈ W) (hhostMem : Field.hostMem ∈ W) (hfree : Field.free ∈ W) (hfabric : Field.fabric ∈ W) (hhost : Field.host ∈ W) (hamp : Field.amp ∈ W) (hcl : Field.cl ∈ W) (hsched : Field.sched ∈ W) (htiers : Field.tiers ∈ W) (htokens : Field.tokens ∈ W) (h : Runs W s0 s) (x1 x2 x3 x4) :
    Runs W s0 (State.accessFault s x1 x2 x3 x4) := by
  unfold State.accessFault
  try dsimp only
  repeat' first | with_reducible (first | assumption | apply State.modCl_runs | apply State.faultNow_runs | apply State.stepEnds_runs) | split

theorem State.loadPieces_runs (hmemory : Field.memory ∈ W) (hfree : Field.free ∈ W) (hfaults : Field.faults ∈ W) (hcl : Field.cl ∈ W) (hsched : Field.sched ∈ W) (h : Runs W s0 s) (x1 x2) :
    Runs W s0 (State.loadPieces s x1 x2).1 := by
  fun_induction State.loadPieces s x1 x2 <;> try rename_i ih
  all_goals try dsimp only
  all_goals repeat' first | with_reducible (first | assumption | apply ih | apply State.checkRead_runs | refine Runs.of_fst (by assumption) ?_ | refine Runs.of_snd (by assumption) ?_) | split

theorem State.cacheLines_runs (hcl : Field.cl ∈ W) (h : Runs W s0 s) (x1 x2 x3) :
    Runs W s0 (State.cacheLines s x1 x2 x3) := by
  unfold State.cacheLines
  try dsimp only
  repeat' first | with_reducible (first | assumption | apply State.modCl_runs) | split

theorem State.fetch_runs (hmemory : Field.memory ∈ W) (hhostMem : Field.hostMem ∈ W) (hfree : Field.free ∈ W) (hanswer : Field.answer ∈ W) (hfabric : Field.fabric ∈ W) (hhost : Field.host ∈ W) (hamp : Field.amp ∈ W) (hfaults : Field.faults ∈ W) (hcl : Field.cl ∈ W) (hsched : Field.sched ∈ W) (htiers : Field.tiers ∈ W) (htokens : Field.tokens ∈ W) (h : Runs W s0 s) (x1 x2 x3) :
    Runs W s0 (State.fetch s x1 x2 x3) := by
  unfold State.fetch
  try dsimp only
  repeat' first | with_reducible (first | assumption | apply State.checkRead_runs | apply State.accessFault_runs | apply State.reply_runs | apply State.cacheLines_runs | refine Runs.of_snd (by assumption) ?_) | split

theorem execStewardLoad_runs (hmemory : Field.memory ∈ W) (hhostMem : Field.hostMem ∈ W) (hfree : Field.free ∈ W) (hanswer : Field.answer ∈ W) (hfabric : Field.fabric ∈ W) (hhost : Field.host ∈ W) (hamp : Field.amp ∈ W) (hfaults : Field.faults ∈ W) (hcl : Field.cl ∈ W) (hsched : Field.sched ∈ W) (htiers : Field.tiers ∈ W) (htokens : Field.tokens ∈ W) (h : Runs W s0 s) (x1 x2 x3 x4) :
    Ends W s0 (execStewardLoad x1 x2 x3 x4 s) := by
  unfold execStewardLoad
  try dsimp only
  repeat' first | with_reducible (first | assumption | apply State.modCl_runs | apply State.fetch_runs | apply State.loadPieces_runs | apply State.accessFault_runs | refine runs_foldl (fun _ _ _ => ?_) _ ?_ | rw [ends_next] | refine Runs.of_fst (by assumption) ?_) | split

theorem State.storePiece_runs (hmemory : Field.memory ∈ W) (hfree : Field.free ∈ W) (hfaults : Field.faults ∈ W) (hcl : Field.cl ∈ W) (hsched : Field.sched ∈ W) (h : Runs W s0 s) (x1 x2 x3) :
    Runs W s0 (State.storePiece s x1 x2 x3).2 := by
  unfold State.storePiece
  try dsimp only
  repeat' first | with_reducible (first | assumption | apply State.storeMerge_runs | apply State.dropWrites_runs) | split

theorem State.storePieces_runs (hmemory : Field.memory ∈ W) (hfree : Field.free ∈ W) (hfaults : Field.faults ∈ W) (hcl : Field.cl ∈ W) (hsched : Field.sched ∈ W) (h : Runs W s0 s) (x1 x2) :
    Runs W s0 (State.storePieces s x1 x2).1 := by
  fun_induction State.storePieces s x1 x2 <;> try rename_i ih
  all_goals try dsimp only
  all_goals repeat' first | with_reducible (first | assumption | apply ih | apply State.storePiece_runs | refine Runs.of_fst (by assumption) ?_ | refine Runs.of_snd (by assumption) ?_) | split

theorem execStewardStore_runs (hmemory : Field.memory ∈ W) (hhostMem : Field.hostMem ∈ W) (hfree : Field.free ∈ W) (hfabric : Field.fabric ∈ W) (hhost : Field.host ∈ W) (hamp : Field.amp ∈ W) (hfaults : Field.faults ∈ W) (hcl : Field.cl ∈ W) (hsched : Field.sched ∈ W) (htiers : Field.tiers ∈ W) (htokens : Field.tokens ∈ W) (h : Runs W s0 s) (x1 x2 x3) :
    Ends W s0 (execStewardStore x1 x2 x3 s) := by
  unfold execStewardStore
  try dsimp only
  repeat' first | with_reducible (first | assumption | apply State.modCl_runs | apply State.storePieces_runs | apply State.accessFault_runs | apply State.checkRead_runs | apply State.storePiece_runs | rw [ends_next] | refine Runs.of_fst (by assumption) ?_ | refine Runs.of_snd (by assumption) ?_) | split

/-! ## Chain -/

theorem State.checkReads_runs (hmemory : Field.memory ∈ W) (hfree : Field.free ∈ W) (hfaults : Field.faults ∈ W) (hcl : Field.cl ∈ W) (hsched : Field.sched ∈ W) (h : Runs W s0 s) (x1 x2) :
    Runs W s0 (State.checkReads s x1 x2).2 := by
  fun_induction State.checkReads s x1 x2 <;> try rename_i ih
  all_goals try dsimp only
  all_goals repeat' first | with_reducible (first | assumption | apply ih | apply State.checkRead_runs | refine Runs.of_snd (by assumption) ?_) | split

theorem State.chainRun_runs (hmemory : Field.memory ∈ W) (hhostMem : Field.hostMem ∈ W) (hfree : Field.free ∈ W) (hfabric : Field.fabric ∈ W) (hhost : Field.host ∈ W) (hamp : Field.amp ∈ W) (hfaults : Field.faults ∈ W) (hcl : Field.cl ∈ W) (hsched : Field.sched ∈ W) (htiers : Field.tiers ∈ W) (htokens : Field.tokens ∈ W) (h : Runs W s0 s) (x1 x2 x3) :
    Runs W s0 (State.chainRun s x1 x2 x3) := by
  unfold State.chainRun
  try dsimp only
  repeat' first | with_reducible (first | assumption | apply State.checkReads_runs | apply State.mxuFault_runs | apply State.modTask_runs | apply State.used_runs | apply State.countRows_runs | apply State.modCl_runs | refine Runs.of_snd (by assumption) ?_) | split

theorem State.chainWrite_runs (hmemory : Field.memory ∈ W) (hfree : Field.free ∈ W) (hcl : Field.cl ∈ W) (h : Runs W s0 s) (x1 x2 x3) :
    Runs W s0 (State.chainWrite s x1 x2 x3).2.2 := by
  fun_induction State.chainWrite s x1 x2 x3 <;> try rename_i ih
  all_goals try dsimp only
  all_goals repeat' first | with_reducible (first | assumption | apply ih | apply State.writeRange_runs | apply State.used_runs | refine Runs.of_snd2 (by assumption) ?_ | refine Runs.of_snd (by assumption) ?_) | split

theorem State.chainAdvance_runs (hmemory : Field.memory ∈ W) (hhostMem : Field.hostMem ∈ W) (hfree : Field.free ∈ W) (hfabric : Field.fabric ∈ W) (hhost : Field.host ∈ W) (hamp : Field.amp ∈ W) (hcl : Field.cl ∈ W) (hsched : Field.sched ∈ W) (htiers : Field.tiers ∈ W) (htokens : Field.tokens ∈ W) (h : Runs W s0 s) (x1 x2 x3) :
    Runs W s0 (State.chainAdvance s x1 x2 x3) := by
  unfold State.chainAdvance
  try dsimp only
  repeat' first | with_reducible (first | assumption | apply State.chainWrite_runs | apply State.mxuFault_runs | apply State.modCl_runs | refine Runs.of_snd2 (by assumption) ?_) | split

theorem State.undefineFree_runs (hmemory : Field.memory ∈ W) (hfree : Field.free ∈ W) (h : Runs W s0 s) (x1 x2) :
    Runs W s0 (State.undefineFree s x1 x2) := by
  unfold State.undefineFree
  try dsimp only
  repeat' first | with_reducible (first | assumption | apply State.undefine_runs | refine runs_foldl (fun _ _ _ => ?_) _ ?_) | split

theorem State.chainScratch_runs (hmemory : Field.memory ∈ W) (hfree : Field.free ∈ W) (hcl : Field.cl ∈ W) (h : Runs W s0 s) (x1 x2) :
    Runs W s0 (State.chainScratch s x1 x2) := by
  unfold State.chainScratch
  try dsimp only
  repeat' first | with_reducible (first | assumption | apply State.undefineFree_runs | apply State.modCl_runs | apply State.undefine_runs | refine runs_foldl (fun _ _ _ => ?_) _ ?_) | split

theorem execChainGo_runs (hmemory : Field.memory ∈ W) (hhostMem : Field.hostMem ∈ W) (hfree : Field.free ∈ W) (hfabric : Field.fabric ∈ W) (hhost : Field.host ∈ W) (hamp : Field.amp ∈ W) (hfaults : Field.faults ∈ W) (hcl : Field.cl ∈ W) (hsched : Field.sched ∈ W) (htiers : Field.tiers ∈ W) (htokens : Field.tokens ∈ W) (h : Runs W s0 s) (x1 x2 x3 x4 x5) :
    Ends W s0 (execChainGo x1 x2 x3 x4 x5 s) := by
  unfold execChainGo
  try dsimp only
  repeat' first | with_reducible (first | assumption | apply State.xlz_runs | apply State.xlzOperand_runs | apply State.fetchDesc_runs | apply State.accessFault_runs | apply State.modCl_runs | apply State.stepEnds_runs | apply State.stall_runs | rw [ends_next] | refine Runs.of_snd (by assumption) ?_) | split | (intro _; intros; try dsimp only)

theorem execChainComplete_runs (hmemory : Field.memory ∈ W) (hhostMem : Field.hostMem ∈ W) (hfree : Field.free ∈ W) (hfabric : Field.fabric ∈ W) (hhost : Field.host ∈ W) (hamp : Field.amp ∈ W) (hfaults : Field.faults ∈ W) (hcl : Field.cl ∈ W) (hsched : Field.sched ∈ W) (htiers : Field.tiers ∈ W) (htokens : Field.tokens ∈ W) (h : Runs W s0 s) (x1 x2) :
    Ends W s0 (execChainComplete x1 x2 s) := by
  unfold execChainComplete
  try dsimp only
  repeat' first | with_reducible (first | assumption | apply State.chainRun_runs | apply State.chainAdvance_runs | apply State.modCl_runs | apply State.chainScratch_runs | rw [ends_next]) | split

theorem State.sendLocal_runs (hmemory : Field.memory ∈ W) (hhostMem : Field.hostMem ∈ W) (hfree : Field.free ∈ W) (hfabric : Field.fabric ∈ W) (hhost : Field.host ∈ W) (hamp : Field.amp ∈ W) (hcl : Field.cl ∈ W) (hsched : Field.sched ∈ W) (htiers : Field.tiers ∈ W) (htokens : Field.tokens ∈ W) (h : Runs W s0 s) (x1 x2 x3 x4 x5) :
    Runs W s0 (State.sendLocal s x1 x2 x3 x4 x5) := by
  unfold State.sendLocal
  try dsimp only
  repeat' first | with_reducible (first | assumption | apply State.chainWrite_runs | apply State.mxuFault_runs | apply State.modCl_runs | apply State.chainAdvance_runs | refine Runs.of_snd2 (by assumption) ?_) | split

/-! ## Update -/

theorem State.updPost_runs (hmemory : Field.memory ∈ W) (hcl : Field.cl ∈ W) (hsched : Field.sched ∈ W) (h : Runs W s0 s) (x1 x2 x3 x4 x5) :
    Runs W s0 (State.updPost s x1 x2 x3 x4 x5) := by
  unfold State.updPost
  try dsimp only
  repeat' first | with_reducible (first | assumption | apply State.store_runs | apply State.postSlot_runs) | split

theorem execUpdSubmit_runs (hmemory : Field.memory ∈ W) (hanswer : Field.answer ∈ W) (hcl : Field.cl ∈ W) (hsched : Field.sched ∈ W) (hupd : Field.upd ∈ W) (h : Runs W s0 s) (x1 x2) :
    Ends W s0 (execUpdSubmit x1 x2 s) := by
  unfold execUpdSubmit
  try dsimp only
  repeat' first | with_reducible (first | assumption | apply State.ecallEnds_runs | apply State.updPost_runs | apply State.modUpd_runs | rw [ends_next]) | split

theorem execUpdateJobStart_runs (hupd : Field.upd ∈ W) (h : Runs W s0 s) (x1 x2) :
    Ends W s0 (execUpdateJobStart x1 x2 s) := by
  unfold execUpdateJobStart
  rw [ends_next]
  dsimp only
  split
  · split
    · exact h
    · exact h.step (by constructor <;> first | rfl | exact .inl (by assumption) | exact .inr rfl | exact .inr ⟨rfl, rfl, rfl⟩) rfl rfl rfl rfl rfl
  · exact h

theorem State.storeMaster_runs (hmemory : Field.memory ∈ W) (hcl : Field.cl ∈ W) (h : Runs W s0 s) (x1 x2) :
    Runs W s0 (State.storeMaster s x1 x2) := by
  unfold State.storeMaster
  try dsimp only
  repeat' first | with_reducible (first | assumption | apply State.store_runs) | split

theorem State.storeState_runs (hmemory : Field.memory ∈ W) (hcl : Field.cl ∈ W) (h : Runs W s0 s) (x1 x2 x3 x4) :
    Runs W s0 (State.storeState s x1 x2 x3 x4) := by
  unfold State.storeState
  try dsimp only
  repeat' first | with_reducible (first | assumption | apply State.store_runs) | split

theorem State.storeBlock_runs (hmemory : Field.memory ∈ W) (hcl : Field.cl ∈ W) (h : Runs W s0 s) (x1 x2) :
    Runs W s0 (State.storeBlock s x1 x2) := by
  unfold State.storeBlock
  try dsimp only
  repeat' first | with_reducible (first | assumption | apply State.storeMaster_runs | apply State.storeState_runs | refine runs_foldl (fun _ _ _ => ?_) _ ?_) | split

theorem execUpdCommit_runs (hmemory : Field.memory ∈ W) (hcl : Field.cl ∈ W) (hupd : Field.upd ∈ W) (h : Runs W s0 s) (x1 x2) :
    Ends W s0 (execUpdCommit x1 x2 s) := by
  unfold execUpdCommit
  try dsimp only
  repeat' first | with_reducible (first | assumption | apply State.modUpd_runs | apply State.storeBlock_runs | rw [ends_next]) | split

theorem State.updFinish_runs (hmemory : Field.memory ∈ W) (hcl : Field.cl ∈ W) (hsched : Field.sched ∈ W) (hupd : Field.upd ∈ W) (h : Runs W s0 s) (x1) :
    Runs W s0 (State.updFinish s x1) := by
  unfold State.updFinish
  try dsimp only
  repeat' first | with_reducible (first | assumption | apply State.modUpd_runs | apply State.updPost_runs | refine runs_foldl (fun _ _ _ => ?_) _ ?_) | split

theorem State.updReturn_runs (hmemory : Field.memory ∈ W) (hcl : Field.cl ∈ W) (hsched : Field.sched ∈ W) (hupd : Field.upd ∈ W) (h : Runs W s0 s) (x1 x2 x3) :
    Runs W s0 (State.updReturn s x1 x2 x3) := by
  unfold State.updReturn
  try dsimp only
  repeat' first | with_reducible (first | assumption | apply State.modUpd_runs | apply State.updFinish_runs) | split

theorem State.updVermilion_runs (hmemory : Field.memory ∈ W) (hcl : Field.cl ∈ W) (hsched : Field.sched ∈ W) (hupd : Field.upd ∈ W) (h : Runs W s0 s) (x1 x2) :
    Runs W s0 (State.updVermilion s x1 x2) := by
  unfold State.updVermilion
  extract_lets k at_
  split
  · apply State.updReturn_runs <;> with_reducible assumption
  · exact h.step (by constructor <;> first | rfl | exact .inl (by assumption) | exact .inr rfl | exact .inr ⟨rfl, rfl, rfl⟩) rfl rfl rfl rfl rfl

theorem State.storeFactor_runs (hmemory : Field.memory ∈ W) (hfree : Field.free ∈ W) (hcl : Field.cl ∈ W) (h : Runs W s0 s) (x1 x2 x3 x4) :
    Runs W s0 (State.storeFactor s x1 x2 x3 x4) := by
  unfold State.storeFactor
  try dsimp only
  repeat' first | with_reducible (first | assumption | apply State.store_runs | apply State.undefine_runs | refine runs_foldl (fun _ _ _ => ?_) _ ?_) | split

theorem State.copyLower_runs (hmemory : Field.memory ∈ W) (hcl : Field.cl ∈ W) (h : Runs W s0 s) (x1 x2 x3 x4) :
    Runs W s0 (State.copyLower s x1 x2 x3 x4) := by
  unfold State.copyLower
  try dsimp only
  repeat' first | with_reducible (first | assumption | apply State.store_runs | refine runs_foldl (fun _ _ _ => ?_) _ ?_) | split

theorem State.runFactor_runs (hmemory : Field.memory ∈ W) (hfree : Field.free ∈ W) (hcl : Field.cl ∈ W) (h : Runs W s0 s) (x1 x2 x3 x4 x5 x6) :
    Runs W s0 (State.runFactor s x1 x2 x3 x4 x5 x6).1 := by
  unfold State.runFactor
  try dsimp only
  repeat' first | with_reducible (first | assumption | apply State.undefine_runs | apply State.store_runs | apply State.copyLower_runs | apply State.storeFactor_runs) | split

theorem State.updFactor_runs (hmemory : Field.memory ∈ W) (hfree : Field.free ∈ W) (hcl : Field.cl ∈ W) (h : Runs W s0 s) (x1 x2 x3 x4) :
    Runs W s0 (State.updFactor s x1 x2 x3 x4).1 := by
  unfold State.updFactor
  try dsimp only
  repeat' first | with_reducible (first | assumption | apply State.runFactor_runs | refine Runs.of_fst (by assumption) ?_) | split

theorem execUpdateSliceEnd_runs (hmemory : Field.memory ∈ W) (hfree : Field.free ∈ W) (hcl : Field.cl ∈ W) (hsched : Field.sched ∈ W) (hupd : Field.upd ∈ W) (h : Runs W s0 s) (x1 x2) :
    Ends W s0 (execUpdateSliceEnd x1 x2 s) := by
  unfold execUpdateSliceEnd
  try dsimp only
  repeat' first | with_reducible (first | assumption | apply State.updReturn_runs | apply State.updFactor_runs | apply State.updVermilion_runs | rw [ends_next] | refine Runs.of_fst (by assumption) ?_) | split

/-! ## Tuning -/

theorem State.tuneAlloc_runs (hanswer : Field.answer ∈ W) (hcl : Field.cl ∈ W) (htiers : Field.tiers ∈ W) (h : Runs W s0 s) (x1 x2 x3 x4) :
    Runs W s0 (State.tuneAlloc s x1 x2 x3 x4) := by
  unfold State.tuneAlloc
  try dsimp only
  repeat' first | with_reducible (first | assumption | apply State.ecallEnds_runs | apply State.modTiers_runs | apply State.take_runs) | split

theorem State.tuneFree_runs (hanswer : Field.answer ∈ W) (hcl : Field.cl ∈ W) (htiers : Field.tiers ∈ W) (h : Runs W s0 s) (x1 x2) :
    Runs W s0 (State.tuneFree s x1 x2) := by
  unfold State.tuneFree
  try dsimp only
  repeat' first | with_reducible (first | assumption | apply State.ecallEnds_runs | apply State.modTiers_runs | apply State.release_runs) | split

theorem writeLbas_runs (hfree : Field.free ∈ W) (hmedia : Field.media ∈ W) (hftl : Field.ftl ∈ W) (h : Runs W s0 s) (x1 x2 x3 x4 x5 x6 x7) :
    OptRuns W s0 Prod.fst (writeLbas x1 x2 x3 x4 x5 x6 x7 s) := by
  fun_induction writeLbas x1 x2 x3 x4 x5 x6 x7 s <;> try rename_i ih
  all_goals try dsimp only
  all_goals repeat' first | with_reducible (first | assumption | apply ih | apply State.commitPlaced_runs | apply optRuns_none | refine optRuns_id ?_ | refine optRuns_some ?_ | refine optRuns_map ?_ (fun _ _ => ?_) | refine Runs.of_some_fst (by assumption) ?_) | split

theorem State.checkpoint_runs (hmemory : Field.memory ∈ W) (hhostMem : Field.hostMem ∈ W) (hfree : Field.free ∈ W) (hanswer : Field.answer ∈ W) (hfabric : Field.fabric ∈ W) (hhost : Field.host ∈ W) (hamp : Field.amp ∈ W) (hfaults : Field.faults ∈ W) (hcl : Field.cl ∈ W) (hsched : Field.sched ∈ W) (htiers : Field.tiers ∈ W) (htokens : Field.tokens ∈ W) (hmedia : Field.media ∈ W) (hftl : Field.ftl ∈ W) (h : Runs W s0 s) (x1 x2) :
    Runs W s0 (State.checkpoint s x1 x2) := by
  unfold State.checkpoint
  dsimp only
  repeat' first
    | with_reducible (first
      | assumption
      | apply State.ecallEnds_runs
      | apply State.accessFault_runs
      | apply State.enterReadOnly_runs
      | refine Runs.of_fst (by assumption) ?_
      | apply State.loadPieces_runs
      | refine Runs.of_some_fst (by assumption) ?_
      | refine optRuns_bind (k := Prod.fst) ?_ (fun b hb => ?_)
      | apply writeLbas_runs)
    | split

theorem State.factorCall_runs (hmemory : Field.memory ∈ W) (hhostMem : Field.hostMem ∈ W) (hfree : Field.free ∈ W) (hanswer : Field.answer ∈ W) (hfabric : Field.fabric ∈ W) (hhost : Field.host ∈ W) (hamp : Field.amp ∈ W) (hfaults : Field.faults ∈ W) (hcl : Field.cl ∈ W) (hsched : Field.sched ∈ W) (htiers : Field.tiers ∈ W) (htokens : Field.tokens ∈ W) (h : Runs W s0 s) (x1 x2 x3 x4 x5 x6 x7) :
    Runs W s0 (State.factorCall s x1 x2 x3 x4 x5 x6 x7) := by
  unfold State.factorCall
  try dsimp only
  repeat' first | with_reducible (first | assumption | apply State.loadPieces_runs | apply State.accessFault_runs | apply State.runFactor_runs | apply State.ecallEnds_runs | refine Runs.of_fst (by assumption) ?_) | split

theorem State.service_runs (hmemory : Field.memory ∈ W) (hhostMem : Field.hostMem ∈ W) (hfree : Field.free ∈ W) (hanswer : Field.answer ∈ W) (hfabric : Field.fabric ∈ W) (hhost : Field.host ∈ W) (hamp : Field.amp ∈ W) (hfaults : Field.faults ∈ W) (hcl : Field.cl ∈ W) (hsched : Field.sched ∈ W) (htiers : Field.tiers ∈ W) (htokens : Field.tokens ∈ W) (hmedia : Field.media ∈ W) (hftl : Field.ftl ∈ W) (h : Runs W s0 s) (x1 x2) :
    Runs W s0 (State.service s x1 x2) := by
  unfold State.service
  try dsimp only
  repeat' first | with_reducible (first | assumption | apply State.tuneAlloc_runs | apply State.tuneFree_runs | apply State.checkpoint_runs | apply State.factorCall_runs) | split

/-! ## Mover -/

theorem State.readTile_runs (hmemory : Field.memory ∈ W) (hfree : Field.free ∈ W) (hfaults : Field.faults ∈ W) (hcl : Field.cl ∈ W) (hsched : Field.sched ∈ W) (h : Runs W s0 s) (x1 x2 x3) :
    Runs W s0 (State.readTile s x1 x2 x3).2 := by
  unfold State.readTile
  try dsimp only
  repeat' first | with_reducible (first | assumption | apply State.metBad_runs | apply State.used_runs | apply State.modCl_runs | apply State.report_runs | apply State.modTask_runs) | split

theorem State.modJob_runs (hcl : Field.cl ∈ W) (h : Runs W s0 s) (x1 x2 x3) :
    Runs W s0 (State.modJob s x1 x2 x3) := by
  unfold State.modJob
  try dsimp only
  repeat' first | with_reducible (first | assumption | apply State.modCl_runs) | split

theorem State.mvStart_runs (hcl : Field.cl ∈ W) (h : Runs W s0 s) (x1 x2 x3) :
    Runs W s0 (State.mvStart s x1 x2 x3) := by
  unfold State.mvStart
  try dsimp only
  repeat' first | with_reducible (first | assumption | apply State.modJob_runs) | split

theorem execLinear_runs (hcl : Field.cl ∈ W) (h : Runs W s0 s) (x1) :
    Ends W s0 (execLinear x1 s) := by
  unfold execLinear
  try dsimp only
  repeat' first | with_reducible (first | assumption | apply State.mvStart_runs | rw [ends_next]) | split

theorem execTileIn_runs (hcl : Field.cl ∈ W) (h : Runs W s0 s) (x1) :
    Ends W s0 (execTileIn x1 s) := by
  unfold execTileIn
  try dsimp only
  repeat' first | with_reducible (first | assumption | apply State.mvStart_runs | rw [ends_next]) | split

theorem execTileOut_runs (hcl : Field.cl ∈ W) (h : Runs W s0 s) (x1 x2) :
    Ends W s0 (execTileOut x1 x2 s) := by
  unfold execTileOut
  try dsimp only
  repeat' first | with_reducible (first | assumption | apply State.mvStart_runs | rw [ends_next]) | split

theorem execTensorIn_runs (hcl : Field.cl ∈ W) (h : Runs W s0 s) (x1) :
    Ends W s0 (execTensorIn x1 s) := by
  unfold execTensorIn
  try dsimp only
  repeat' first | with_reducible (first | assumption | apply State.mvStart_runs | rw [ends_next]) | split

theorem execTensorOut_runs (hcl : Field.cl ∈ W) (h : Runs W s0 s) (x1 x2) :
    Ends W s0 (execTensorOut x1 x2 s) := by
  unfold execTensorOut
  try dsimp only
  repeat' first | with_reducible (first | assumption | apply State.mvStart_runs | rw [ends_next]) | split

theorem execFill_runs (hcl : Field.cl ∈ W) (h : Runs W s0 s) (x1) :
    Ends W s0 (execFill x1 s) := by
  unfold execFill
  try dsimp only
  repeat' first | with_reducible (first | assumption | apply State.mvStart_runs | rw [ends_next]) | split

theorem execCopy_runs (hcl : Field.cl ∈ W) (h : Runs W s0 s) (x1) :
    Ends W s0 (execCopy x1 s) := by
  unfold execCopy
  try dsimp only
  repeat' first | with_reducible (first | assumption | apply State.mvStart_runs | rw [ends_next]) | split

theorem execTranspose_runs (hcl : Field.cl ∈ W) (h : Runs W s0 s) (x1) :
    Ends W s0 (execTranspose x1 s) := by
  unfold execTranspose
  try dsimp only
  repeat' first | with_reducible (first | assumption | apply State.mvStart_runs | rw [ends_next]) | split

theorem State.mvWrite_runs (hmemory : Field.memory ∈ W) (hfree : Field.free ∈ W) (hcl : Field.cl ∈ W) (h : Runs W s0 s) (x1 x2 x3 x4) :
    Runs W s0 (State.mvWrite s x1 x2 x3 x4).2 := by
  unfold State.mvWrite
  try dsimp only
  repeat' first | with_reducible (first | assumption | apply State.writeRange_runs | refine Runs.of_snd (by assumption) ?_) | split

theorem mvSteps_runs  (h : Runs W s0 s) (x1 x2) {f}
    (hf : ∀ i t, Runs W s0 t → Runs W s0 (f i t).2) :
    Runs W s0 ((mvSteps f x1 x2 s).2) := by
  fun_induction mvSteps f x1 x2 s <;> try rename_i ih
  all_goals try dsimp only
  all_goals repeat' first | with_reducible (first | assumption | apply ih | apply hf | refine Runs.of_snd (by assumption) ?_) | split

theorem State.moveBytes_runs (hmemory : Field.memory ∈ W) (hfree : Field.free ∈ W) (hfaults : Field.faults ∈ W) (hcl : Field.cl ∈ W) (hsched : Field.sched ∈ W) (h : Runs W s0 s) (x1 x2) :
    Runs W s0 (State.moveBytes s x1 x2).2 := by
  unfold State.moveBytes
  try dsimp only
  repeat' first | with_reducible (first | assumption | apply State.mvWrite_runs | apply State.metBad_runs | apply State.used_runs | refine Runs.of_snd (by assumption) ?_) | split

theorem State.fill_runs (hmemory : Field.memory ∈ W) (hfree : Field.free ∈ W) (hcl : Field.cl ∈ W) (h : Runs W s0 s) (x1 x2) :
    Runs W s0 (State.fill s x1 x2).2 := by
  unfold State.fill
  try dsimp only
  repeat' first | with_reducible (first | assumption | apply State.mvWrite_runs | refine Runs.of_snd (by assumption) ?_) | split

theorem State.transpose_runs (hmemory : Field.memory ∈ W) (hfree : Field.free ∈ W) (hfaults : Field.faults ∈ W) (hcl : Field.cl ∈ W) (hsched : Field.sched ∈ W) (h : Runs W s0 s) (x1 x2) :
    Runs W s0 (State.transpose s x1 x2).2 := by
  unfold State.transpose
  try dsimp only
  repeat' first | with_reducible (first | assumption | apply State.metBad_runs | apply mvSteps_runs | apply State.mvWrite_runs | apply State.used_runs | refine Runs.of_snd (by assumption) ?_) | split | (intro _; intros; try dsimp only)

theorem State.poisonRange_runs (hmemory : Field.memory ∈ W) (hfree : Field.free ∈ W) (h : Runs W s0 s) (x1 x2) :
    Runs W s0 (State.poisonRange s x1 x2) := by
  unfold State.poisonRange
  try dsimp only
  repeat' first | with_reducible (first | assumption | apply State.poisonWord_runs | apply State.undefine_runs | refine runs_foldl (fun _ _ _ => ?_) _ ?_) | split

theorem State.tileIn_runs (hmemory : Field.memory ∈ W) (hfree : Field.free ∈ W) (hfaults : Field.faults ∈ W) (hcl : Field.cl ∈ W) (hsched : Field.sched ∈ W) (htiers : Field.tiers ∈ W) (h : Runs W s0 s) (x1 x2) :
    Runs W s0 (State.tileIn s x1 x2).2 := by
  unfold State.tileIn
  try dsimp only
  repeat' first | with_reducible (first | assumption | apply mvSteps_runs | apply State.readTile_runs | apply State.mvWrite_runs | apply State.poisonRange_runs | apply State.modCl_runs | apply State.touch_runs | refine Runs.of_snd (by assumption) ?_) | split | (intro _; intros; try dsimp only)

theorem readTiles_runs {f : State → Nat → TileRead × State} (hf : ∀ t i, Runs W s0 t → Runs W s0 (f t i).2) (l : List Nat)
    (x : MvOut × Bytes × State) (hx : Runs W s0 x.2.2) :
    Runs W s0 (l.foldl (fun (x : MvOut × Bytes × State) i =>
      if x.1.st ≠ St.ok then x
      else ({ x.1 with st := (f x.2.2 i).1.st }, x.2.1 ++ (f x.2.2 i).1.elems, (f x.2.2 i).2)) x).2.2 := by
  induction l generalizing x with
  | nil => exact hx
  | cons i l ih =>
    apply ih
    dsimp only
    split
    · exact hx
    · exact hf _ _ hx

theorem State.tensorIn_runs (hmemory : Field.memory ∈ W) (hfree : Field.free ∈ W) (hfaults : Field.faults ∈ W) (hcl : Field.cl ∈ W) (hsched : Field.sched ∈ W) (htiers : Field.tiers ∈ W) (h : Runs W s0 s) (x1 x2) :
    Runs W s0 (State.tensorIn s x1 x2).2 := by
  unfold State.tensorIn
  dsimp only
  have h1 := fun l x hx => readTiles_runs (W := W) (s0 := s0) (f := fun t i => t.readTile x1 (mvSrc x2.desc) i)
    (fun t i ht => by apply State.readTile_runs <;> with_reducible assumption) l x hx
  split
  · apply State.touch_runs <;> first | with_reducible assumption | exact h1 _ ({}, [], s) h
  · apply State.modCl_runs <;> first | with_reducible assumption | skip
    apply State.touch_runs <;> first | with_reducible assumption | skip
    apply mvSteps_runs <;> first | with_reducible assumption | exact h1 _ ({}, [], s) h | skip
    intros
    apply State.mvWrite_runs <;> with_reducible assumption


theorem State.switchTile_runs (hmemory : Field.memory ∈ W) (htiers : Field.tiers ∈ W) (h : Runs W s0 s) (x1 x2 x3 x4) :
    Runs W s0 (State.switchTile s x1 x2 x3 x4) := by
  unfold State.switchTile
  try dsimp only
  repeat' first | with_reducible (first | assumption | apply State.writeMem_runs | apply State.take_runs | apply State.setLoc_runs | apply State.releaseT2_runs | apply State.release_runs) | split

theorem State.switchTiles_runs (hmemory : Field.memory ∈ W) (htiers : Field.tiers ∈ W) (h : Runs W s0 s) (x1 x2 x3) :
    OptRuns W s0 id (State.switchTiles s x1 x2 x3) := by
  fun_induction State.switchTiles s x1 x2 x3 <;> try rename_i ih
  all_goals try dsimp only
  all_goals repeat' first | with_reducible (first | assumption | apply ih | apply State.switchTile_runs | apply optRuns_none | refine optRuns_id ?_ | refine optRuns_some ?_ | refine optRuns_map ?_ (fun _ _ => ?_) | refine Runs.of_some (by assumption) ?_) | split

theorem State.tileOut_runs (hmemory : Field.memory ∈ W) (hfree : Field.free ∈ W) (hfaults : Field.faults ∈ W) (hcl : Field.cl ∈ W) (hsched : Field.sched ∈ W) (htiers : Field.tiers ∈ W) (h : Runs W s0 s) (x1 x2 x3) :
    OptRuns W s0 Prod.snd (State.tileOut s x1 x2 x3) := by
  unfold State.tileOut
  try dsimp only
  repeat' first | with_reducible (first | assumption | apply State.switchTiles_runs | apply State.modCl_runs | apply State.touch_runs | apply State.metBad_runs | apply State.used_runs | refine runs_foldl (fun _ _ _ => ?_) _ ?_ | apply optRuns_none | refine optRuns_id ?_ | refine optRuns_some ?_ | refine optRuns_map ?_ (fun _ _ => ?_) | refine Runs.of_some (by assumption) ?_) | split

theorem State.mvRun_runs (hmemory : Field.memory ∈ W) (hfree : Field.free ∈ W) (hfaults : Field.faults ∈ W) (hcl : Field.cl ∈ W) (hsched : Field.sched ∈ W) (htiers : Field.tiers ∈ W) (h : Runs W s0 s) (x1 x2 x3) :
    OptRuns W s0 Prod.snd (State.mvRun s x1 x2 x3) := by
  unfold State.mvRun
  try dsimp only
  repeat' first | with_reducible (first | assumption | apply State.moveBytes_runs | apply State.tileIn_runs | apply State.tileOut_runs | apply State.tensorIn_runs | apply State.fill_runs | apply State.transpose_runs | apply optRuns_none | refine optRuns_id ?_ | refine optRuns_some ?_ | refine optRuns_map ?_ (fun _ _ => ?_) | refine Runs.of_snd (by assumption) ?_ | refine Runs.of_some_snd (by assumption) ?_) | split

theorem execMoverDescriptorDone_runs (hmemory : Field.memory ∈ W) (hfree : Field.free ∈ W) (hfaults : Field.faults ∈ W) (hcl : Field.cl ∈ W) (hsched : Field.sched ∈ W) (htiers : Field.tiers ∈ W) (h : Runs W s0 s) (x1 x2 x3) :
    Ends W s0 (execMoverDescriptorDone x1 x2 x3 s) := by
  unfold execMoverDescriptorDone
  try dsimp only
  repeat' first | with_reducible (first | assumption | apply State.mvRun_runs | apply State.modCl_runs | apply State.mvEnd_runs | rw [ends_next] | refine Runs.of_some_snd (by assumption) ?_) | split

theorem execMvPost_runs (hmemory : Field.memory ∈ W) (hfree : Field.free ∈ W) (hfaults : Field.faults ∈ W) (hcl : Field.cl ∈ W) (hsched : Field.sched ∈ W) (h : Runs W s0 s) (x1 x2) :
    Ends W s0 (execMvPost x1 x2 s) := by
  unfold execMvPost
  try dsimp only
  repeat' first | with_reducible (first | assumption | apply State.modCl_runs | apply State.fetchDesc_runs | rw [ends_next] | refine Runs.of_snd (by assumption) ?_) | split

theorem execMvFlush_runs (hmemory : Field.memory ∈ W) (hfree : Field.free ∈ W) (hcl : Field.cl ∈ W) (hsched : Field.sched ∈ W) (h : Runs W s0 s) (x1) :
    Ends W s0 (execMvFlush x1 s) := by
  unfold execMvFlush
  try dsimp only
  repeat' first | with_reducible (first | assumption | apply State.mvFlush_runs | rw [ends_next]) | split

theorem execMvEnable_runs (hcl : Field.cl ∈ W) (h : Runs W s0 s) (x1 x2) :
    Ends W s0 (execMvEnable x1 x2 s) := by
  unfold execMvEnable
  try dsimp only
  repeat' first | with_reducible (first | assumption | apply State.modCl_runs | rw [ends_next]) | split

theorem demoteTiles_runs (hmemory : Field.memory ∈ W) (htiers : Field.tiers ∈ W) (h : Runs W s0 s) (x1 x2 x3) :
    OptRuns W s0 id (demoteTiles x1 x2 x3 s) := by
  fun_induction demoteTiles x1 x2 x3 s <;> try rename_i ih
  all_goals try dsimp only
  all_goals repeat' first | with_reducible (first | assumption | apply ih | apply State.release_runs | apply State.setLoc_runs | apply State.writeT2_runs | apply State.takeT2_runs | apply optRuns_none | refine optRuns_id ?_ | refine optRuns_some ?_ | refine optRuns_map ?_ (fun _ _ => ?_) | refine Runs.of_some (by assumption) ?_) | split

theorem execTierDemotion_runs (hmemory : Field.memory ∈ W) (htiers : Field.tiers ∈ W) (h : Runs W s0 s) (x1) :
    Ends W s0 (execTierDemotion x1 s) := by
  unfold execTierDemotion
  try dsimp only
  repeat' first | with_reducible (first | assumption | apply demoteTiles_runs | rw [ends_next] | refine Runs.of_some (by assumption) ?_ | refine optRuns_bind_id ?_ (fun _ _ => ?_) | refine optRuns_map_id ?_ (fun _ _ => ?_) | refine optRuns_getD ?_ ?_ | refine optRuns_id ?_ | apply optRuns_none) | split

theorem execTilePromotion_runs (hmemory : Field.memory ∈ W) (hcl : Field.cl ∈ W) (htiers : Field.tiers ∈ W) (h : Runs W s0 s) (x1 x2 x3) :
    Ends W s0 (execTilePromotion x1 x2 x3 s) := by
  unfold execTilePromotion
  try dsimp only
  repeat' first | with_reducible (first | assumption | apply State.modJob_runs | apply State.writeMem_runs | apply State.take_runs | apply State.setLoc_runs | rw [ends_next]) | split

/-! ## Sessions -/

theorem State.sesEnd_runs (hhostMem : Field.hostMem ∈ W) (hfabric : Field.fabric ∈ W) (hhost : Field.host ∈ W) (htiers : Field.tiers ∈ W) (h : Runs W s0 s) (x1 x2 x3) :
    Runs W s0 (State.sesEnd s x1 x2 x3) := by
  unfold State.sesEnd
  try dsimp only
  repeat' first | with_reducible (first | assumption | apply State.vendorEndWith_runs | apply State.sessionDone_runs) | split

theorem State.sessionCtl_runs (hfree : Field.free ∈ W) (hfabric : Field.fabric ∈ W) (hhost : Field.host ∈ W) (htiers : Field.tiers ∈ W) (h : Runs W s0 s) (x1 x2) {f}
    (hf : ∀ k i x t, Runs W s0 t → Runs W s0 (f k i x t)) :
    Runs W s0 (State.sessionCtl s x1 x2 f) := by
  unfold State.sessionCtl
  try dsimp only
  repeat' first | with_reducible (first | assumption | apply hf | apply State.vendorRow_runs | apply State.vendorRefuse_runs | apply State.sessionWait_runs | apply State.refuseSes_runs | apply State.holdSession_runs) | split | (intro _; intros; try dsimp only)

theorem execSessionOpen_runs (hmemory : Field.memory ∈ W) (hhostMem : Field.hostMem ∈ W) (hfree : Field.free ∈ W) (hfabric : Field.fabric ∈ W) (hhost : Field.host ∈ W) (htiers : Field.tiers ∈ W) (h : Runs W s0 s) (x1 x2) :
    Ends W s0 (execSessionOpen x1 x2 s) := by
  unfold execSessionOpen
  try dsimp only
  repeat' first | with_reducible (first | assumption | apply State.vendorRow_runs | apply State.vendorRefuse_runs | apply State.takeChunks_runs | apply State.take_runs | apply State.modTiers_runs | apply State.modSession_runs | apply State.writeMem_runs | apply State.vendorEndWith_runs | rw [ends_next] | refine Runs.of_some (by assumption) ?_ | refine optRuns_bind_id ?_ (fun _ _ => ?_) | refine optRuns_map_id ?_ (fun _ _ => ?_) | refine optRuns_getD ?_ ?_ | refine optRuns_id ?_ | apply optRuns_none) | split | (intro _; intros; try dsimp only)

theorem State.makeCold_runs (htiers : Field.tiers ∈ W) (h : Runs W s0 s) (x1 x2) :
    OptRuns W s0 id (State.makeCold s x1 x2) := by
  unfold State.makeCold
  try dsimp only
  repeat' first | with_reducible (first | assumption | apply State.modSession_runs | apply State.takeT2_runs | apply State.releaseKv_runs | apply optRuns_none | refine optRuns_id ?_ | refine optRuns_some ?_ | refine optRuns_map ?_ (fun _ _ => ?_)) | split

theorem execSessionPark_runs (hhostMem : Field.hostMem ∈ W) (hfree : Field.free ∈ W) (hfabric : Field.fabric ∈ W) (hhost : Field.host ∈ W) (htiers : Field.tiers ∈ W) (h : Runs W s0 s) (x1) :
    Ends W s0 (execSessionPark x1 s) := by
  unfold execSessionPark
  try dsimp only
  repeat' first | with_reducible (first | assumption | apply State.sessionCtl_runs | apply State.sesEnd_runs | apply State.modSession_runs | apply State.refuseSes_runs | apply State.admitTag_runs | rw [ends_next]) | split | (intro _; intros; try dsimp only)

theorem execParkT2Done_runs (hhostMem : Field.hostMem ∈ W) (hfabric : Field.fabric ∈ W) (hhost : Field.host ∈ W) (htiers : Field.tiers ∈ W) (h : Runs W s0 s) (x1 x2) :
    Ends W s0 (execParkT2Done x1 x2 s) := by
  unfold execParkT2Done
  try dsimp only
  repeat' first | with_reducible (first | assumption | apply State.makeCold_runs | apply State.sesEnd_runs | rw [ends_next] | refine Runs.of_some (by assumption) ?_ | refine optRuns_bind_id ?_ (fun _ _ => ?_) | refine optRuns_map_id ?_ (fun _ _ => ?_) | refine optRuns_getD ?_ ?_ | refine optRuns_id ?_ | apply optRuns_none) | split

theorem execSessionResume_runs (hhostMem : Field.hostMem ∈ W) (hfree : Field.free ∈ W) (hfabric : Field.fabric ∈ W) (hhost : Field.host ∈ W) (htiers : Field.tiers ∈ W) (h : Runs W s0 s) (x1) :
    Ends W s0 (execSessionResume x1 s) := by
  unfold execSessionResume
  try dsimp only
  repeat' first | with_reducible (first | assumption | apply State.sessionCtl_runs | apply State.beginResume_runs | apply State.sesEnd_runs | apply State.modSession_runs | rw [ends_next]) | split | (intro _; intros; try dsimp only)

theorem restoreTiles_runs (hmemory : Field.memory ∈ W) (htiers : Field.tiers ∈ W) (h : Runs W s0 s) (x1 x2 x3) :
    OptRuns W s0 id (restoreTiles x1 x2 x3 s) := by
  fun_induction restoreTiles x1 x2 x3 s <;> try rename_i ih
  all_goals try dsimp only
  all_goals repeat' first | with_reducible (first | assumption | apply ih | apply State.setLoc_runs | apply State.writeMem_runs | apply State.take_runs | apply optRuns_none | refine optRuns_id ?_ | refine optRuns_some ?_ | refine optRuns_map ?_ (fun _ _ => ?_) | refine Runs.of_some (by assumption) ?_) | split

theorem restoreChunks_runs (hmemory : Field.memory ∈ W) (htiers : Field.tiers ∈ W) (h : Runs W s0 s) (x1 x2 x3 x4) :
    OptRuns W s0 id (restoreChunks x1 x2 x3 x4 s) := by
  fun_induction restoreChunks x1 x2 x3 x4 s <;> try rename_i ih
  all_goals try dsimp only
  all_goals repeat' first | with_reducible (first | assumption | apply ih | apply State.writeNat_runs | apply State.writeMem_runs | apply State.take_runs | apply optRuns_none | refine optRuns_id ?_ | refine optRuns_some ?_ | refine optRuns_map ?_ (fun _ _ => ?_) | refine Runs.of_some (by assumption) ?_) | split

theorem State.resumeFails_runs (hhostMem : Field.hostMem ∈ W) (hfabric : Field.fabric ∈ W) (hhost : Field.host ∈ W) (htiers : Field.tiers ∈ W) (h : Runs W s0 s) (x1 x2) :
    Runs W s0 (State.resumeFails s x1 x2) := by
  unfold State.resumeFails
  try dsimp only
  repeat' first | with_reducible (first | assumption | apply State.modSession_runs | apply State.vendorEnd_runs | apply State.sessionDone_runs | apply State.refuseSes_runs) | split

theorem execResumeColdDone_runs (hmemory : Field.memory ∈ W) (hhostMem : Field.hostMem ∈ W) (hfabric : Field.fabric ∈ W) (hhost : Field.host ∈ W) (htiers : Field.tiers ∈ W) (h : Runs W s0 s) (x1 x2 x3 x4) :
    Ends W s0 (execResumeColdDone x1 x2 x3 x4 s) := by
  unfold execResumeColdDone
  try dsimp only
  repeat' first | with_reducible (first | assumption | apply State.resumeFails_runs | apply State.writeMem_runs | apply State.take_runs | apply restoreChunks_runs | apply restoreTiles_runs | apply State.modSession_runs | apply State.releaseT2_runs | apply State.sesEnd_runs | apply State.modTrk_runs | apply State.sessionDone_runs | rw [ends_next] | refine Runs.of_some (by assumption) ?_ | refine optRuns_bind_id ?_ (fun _ _ => ?_) | refine optRuns_map_id ?_ (fun _ _ => ?_) | refine optRuns_getD ?_ ?_ | refine optRuns_id ?_ | apply optRuns_none) | split

theorem execSessionClose_runs (hhostMem : Field.hostMem ∈ W) (hfree : Field.free ∈ W) (hfabric : Field.fabric ∈ W) (hhost : Field.host ∈ W) (htiers : Field.tiers ∈ W) (h : Runs W s0 s) (x1) :
    Ends W s0 (execSessionClose x1 s) := by
  unfold execSessionClose
  try dsimp only
  repeat' first | with_reducible (first | assumption | apply State.sessionCtl_runs | apply State.releaseT2_runs | apply State.releaseKv_runs | apply State.modSession_runs | apply State.sessionDone_runs | apply State.vendorEndWith_runs | apply State.modTiers_runs | rw [ends_next]) | split | (intro _; intros; try dsimp only)

theorem execSessionDemotion_runs (htiers : Field.tiers ∈ W) (h : Runs W s0 s) (x1 x2) :
    Ends W s0 (execSessionDemotion x1 x2 s) := by
  unfold execSessionDemotion
  try dsimp only
  repeat' first | with_reducible (first | assumption | apply State.makeCold_runs | apply State.modTiers_runs | rw [ends_next] | refine Runs.of_some (by assumption) ?_ | refine optRuns_bind_id ?_ (fun _ _ => ?_) | refine optRuns_map_id ?_ (fun _ _ => ?_) | refine optRuns_getD ?_ ?_ | refine optRuns_id ?_ | apply optRuns_none) | split

/-! ## Select -/

theorem State.modUnit_runs (hsel : Field.sel ∈ W) (h : Runs W s0 s) (x1 x2) :
    Runs W s0 (State.modUnit s x1 x2) := by
  unfold State.modUnit
  try dsimp only
  repeat' first | with_reducible (first | assumption | apply State.modSel_runs) | split

theorem State.selWriteHeader_runs (hmemory : Field.memory ∈ W) (hfree : Field.free ∈ W) (hcl : Field.cl ∈ W) (h : Runs W s0 s) (x1 x2) :
    Runs W s0 (State.selWriteHeader s x1 x2) := by
  unfold State.selWriteHeader
  try dsimp only
  repeat' first | with_reducible (first | assumption | apply State.writeRange_runs | refine Runs.of_snd (by assumption) ?_) | split

theorem State.selEnd_runs (hcl : Field.cl ∈ W) (hsched : Field.sched ∈ W) (hsel : Field.sel ∈ W) (h : Runs W s0 s) (x1 x2) :
    Runs W s0 (State.selEnd s x1 x2) := by
  unfold State.selEnd
  try dsimp only
  repeat' first | with_reducible (first | assumption | apply State.modUnit_runs | apply State.postSlot_runs) | split

theorem State.selRefuse_runs (hmemory : Field.memory ∈ W) (hfree : Field.free ∈ W) (hcl : Field.cl ∈ W) (hsched : Field.sched ∈ W) (hsel : Field.sel ∈ W) (h : Runs W s0 s) (x1 x2 x3) :
    Runs W s0 (State.selRefuse s x1 x2 x3) := by
  unfold State.selRefuse
  try dsimp only
  repeat' first | with_reducible (first | assumption | apply State.selEnd_runs | apply State.selWriteHeader_runs) | split

theorem State.selIssue_runs (hmemory : Field.memory ∈ W) (hhostMem : Field.hostMem ∈ W) (hfree : Field.free ∈ W) (hfabric : Field.fabric ∈ W) (hhost : Field.host ∈ W) (hamp : Field.amp ∈ W) (hfaults : Field.faults ∈ W) (hcl : Field.cl ∈ W) (hsched : Field.sched ∈ W) (htiers : Field.tiers ∈ W) (htokens : Field.tokens ∈ W) (hsel : Field.sel ∈ W) (h : Runs W s0 s) (x1 x2 x3 x4 x5) :
    Runs W s0 (State.selIssue s x1 x2 x3 x4 x5) := by
  unfold State.selIssue
  try dsimp only
  repeat' first | with_reducible (first | assumption | apply State.xlz_runs | apply State.xlzOperand_runs | apply State.stall_runs | apply State.fetchDesc_runs | apply State.modCl_runs | apply State.modUnit_runs | refine Runs.of_snd (by assumption) ?_) | split | (intro _; intros; try dsimp only)

theorem State.selQueue_runs (hanswer : Field.answer ∈ W) (hsel : Field.sel ∈ W) (h : Runs W s0 s) (x1 x2) :
    Runs W s0 (State.selQueue s x1 x2) := by
  unfold State.selQueue
  try dsimp only
  repeat' first | with_reducible (first | assumption | apply State.reply_runs | apply State.modUnit_runs) | split

theorem execSelIssue_runs (hmemory : Field.memory ∈ W) (hhostMem : Field.hostMem ∈ W) (hfree : Field.free ∈ W) (hanswer : Field.answer ∈ W) (hfabric : Field.fabric ∈ W) (hhost : Field.host ∈ W) (hamp : Field.amp ∈ W) (hfaults : Field.faults ∈ W) (hcl : Field.cl ∈ W) (hsched : Field.sched ∈ W) (htiers : Field.tiers ∈ W) (htokens : Field.tokens ∈ W) (hsel : Field.sel ∈ W) (h : Runs W s0 s) (x1 x2 x3 x4 x5) :
    Ends W s0 (execSelIssue x1 x2 x3 x4 x5 s) := by
  unfold execSelIssue
  try dsimp only
  repeat' first | with_reducible (first | assumption | apply State.selIssue_runs | apply State.selQueue_runs | rw [ends_next]) | split

theorem execSelectionStart_runs (hmemory : Field.memory ∈ W) (hfree : Field.free ∈ W) (hcl : Field.cl ∈ W) (hsched : Field.sched ∈ W) (hsel : Field.sel ∈ W) (h : Runs W s0 s) (x1) :
    Ends W s0 (execSelectionStart x1 s) := by
  unfold execSelectionStart
  try dsimp only
  repeat' first | with_reducible (first | assumption | apply State.modUnit_runs | apply State.selRefuse_runs | rw [ends_next]) | split

theorem State.selPoison_runs (hmemory : Field.memory ∈ W) (hfree : Field.free ∈ W) (hfaults : Field.faults ∈ W) (hcl : Field.cl ∈ W) (hsched : Field.sched ∈ W) (hsel : Field.sel ∈ W) (h : Runs W s0 s) (x1 x2 x3 x4) :
    Runs W s0 (State.selPoison s x1 x2 x3 x4) := by
  unfold State.selPoison
  try dsimp only
  repeat' first | with_reducible (first | assumption | apply State.reportBadWord_runs | apply State.used_runs | apply State.noteAttempt_runs | apply State.undefine_runs | apply State.selWriteHeader_runs | apply State.selEnd_runs | apply State.modUnit_runs) | split

theorem State.selWrite_runs (hmemory : Field.memory ∈ W) (hfree : Field.free ∈ W) (hcl : Field.cl ∈ W) (hsched : Field.sched ∈ W) (hsel : Field.sel ∈ W) (h : Runs W s0 s) (x1 x2 x3 x4 x5) :
    Runs W s0 (State.selWrite s x1 x2 x3 x4 x5) := by
  unfold State.selWrite
  try dsimp only
  repeat' first | with_reducible (first | assumption | apply State.writeRange_runs | apply State.selEnd_runs | apply State.selWriteHeader_runs | refine Runs.of_snd (by assumption) ?_) | split

theorem execSelectionComplete_runs (hmemory : Field.memory ∈ W) (hfree : Field.free ∈ W) (hfaults : Field.faults ∈ W) (hcl : Field.cl ∈ W) (hsched : Field.sched ∈ W) (hsel : Field.sel ∈ W) (h : Runs W s0 s) (x1 x2) :
    Ends W s0 (execSelectionComplete x1 x2 s) := by
  unfold execSelectionComplete
  try dsimp only
  repeat' first | with_reducible (first | assumption | apply State.modUnit_runs | apply State.selPoison_runs | apply State.selWrite_runs | apply State.used_runs | rw [ends_next]) | split

theorem selStopAll_runs (hmemory : Field.memory ∈ W) (hfree : Field.free ∈ W) (hcl : Field.cl ∈ W) (hsched : Field.sched ∈ W) (hsel : Field.sel ∈ W) (h : Runs W s0 s) (x1 x2) :
    Runs W s0 (selStopAll x1 x2 s) := by
  fun_induction selStopAll x1 x2 s <;> try rename_i ih
  all_goals try dsimp only
  all_goals repeat' first | with_reducible (first | assumption | apply ih | apply State.selRefuse_runs) | split

theorem execSelFlush_runs (hmemory : Field.memory ∈ W) (hfree : Field.free ∈ W) (hcl : Field.cl ∈ W) (hsched : Field.sched ∈ W) (hsel : Field.sel ∈ W) (h : Runs W s0 s) (x1) :
    Ends W s0 (execSelFlush x1 s) := by
  unfold execSelFlush
  try dsimp only
  repeat' first | with_reducible (first | assumption | apply selStopAll_runs | apply State.modUnit_runs | rw [ends_next]) | split

theorem execSelEnable_runs (hsel : Field.sel ∈ W) (h : Runs W s0 s) (x1 x2 x3) :
    Ends W s0 (execSelEnable x1 x2 x3 s) := by
  unfold execSelEnable
  try dsimp only
  repeat' first | with_reducible (first | assumption | apply State.modUnit_runs | rw [ends_next]) | split

/-! ## XlzWord -/

theorem execXlzWord_runs (hmemory : Field.memory ∈ W) (hhostMem : Field.hostMem ∈ W) (hfree : Field.free ∈ W) (hanswer : Field.answer ∈ W) (hfabric : Field.fabric ∈ W) (hhost : Field.host ∈ W) (hamp : Field.amp ∈ W) (hfaults : Field.faults ∈ W) (hcl : Field.cl ∈ W) (hsched : Field.sched ∈ W) (htiers : Field.tiers ∈ W) (htokens : Field.tokens ∈ W) (hsel : Field.sel ∈ W) (h : Runs W s0 s) (x1 x2 x3) :
    Ends W s0 (execXlzWord x1 x2 x3 s) := by
  unfold execXlzWord
  try dsimp only
  repeat' first | with_reducible (first | assumption | apply execTileLoad_runs | apply execTileStream_runs | apply execTileDrain_runs | apply execTileCfg_runs | apply execTileFence_runs | apply execChainGo_runs | apply execMvIssue_runs | apply execSelIssue_runs | apply execSlotWait_runs | apply execSlotTake_runs | apply execSlotGive_runs | apply execSlotPeek_runs | apply execSlotClear_runs | apply execStepMark_runs | apply State.illegal_runs | rw [ends_next]) | split

theorem execStewardInstruction_runs (hmemory : Field.memory ∈ W) (hhostMem : Field.hostMem ∈ W) (hfree : Field.free ∈ W) (hanswer : Field.answer ∈ W) (hfabric : Field.fabric ∈ W) (hhost : Field.host ∈ W) (hamp : Field.amp ∈ W) (hfaults : Field.faults ∈ W) (hcl : Field.cl ∈ W) (hsched : Field.sched ∈ W) (htiers : Field.tiers ∈ W) (htokens : Field.tokens ∈ W) (hsel : Field.sel ∈ W) (hmedia : Field.media ∈ W) (hftl : Field.ftl ∈ W) (h : Runs W s0 s) (x1 x2) :
    Ends W s0 (execStewardInstruction x1 x2 s) := by
  unfold execStewardInstruction
  try dsimp only
  repeat' first | with_reducible (first | assumption | apply execXlzWord_runs | apply State.service_runs | apply State.rvStep_runs | rw [ends_next]) | split

end Sys2Proof.Machine
end

