-- ==== Sys2Proof/Laws/RunsFlash.lean ====
section
/-! SUPPORT. What running the media, the objects and the fault log keeps: one lemma per operation. -/

namespace Sys2Proof.Machine

variable {W : List Field} {s0 s : State}

/-! ## Media -/

theorem mediaAnswer_runs (hmemory : Field.memory ∈ W) (hfree : Field.free ∈ W) (hfabric : Field.fabric ∈ W) (hfaults : Field.faults ∈ W) (hpipes : Field.pipes ∈ W) (hmedia : Field.media ∈ W) (hftl : Field.ftl ∈ W) (h : Runs W s0 s) (x1 x2 x3 x4 x5) :
    Runs W s0 (mediaAnswer x1 x2 x3 x4 x5 s) := by
  unfold mediaAnswer
  try dsimp only
  repeat' first | with_reducible (first | assumption | apply State.mediaPost_runs | apply pipeRead_runs) | split

theorem mediaRefuse_runs (hmemory : Field.memory ∈ W) (hfree : Field.free ∈ W) (hfabric : Field.fabric ∈ W) (hfaults : Field.faults ∈ W) (hpipes : Field.pipes ∈ W) (hmedia : Field.media ∈ W) (hftl : Field.ftl ∈ W) (h : Runs W s0 s) (x1 x2 x3 x4) :
    Runs W s0 (mediaRefuse x1 x2 x3 x4 s) := by
  unfold mediaRefuse
  try dsimp only
  repeat' first | with_reducible (first | assumption | apply mediaAnswer_runs) | split

theorem mediaEnd_runs (hmemory : Field.memory ∈ W) (hfree : Field.free ∈ W) (hfabric : Field.fabric ∈ W) (hfaults : Field.faults ∈ W) (hpipes : Field.pipes ∈ W) (hmedia : Field.media ∈ W) (hftl : Field.ftl ∈ W) (h : Runs W s0 s) (x1 x2 x3 x4 x5) :
    Runs W s0 (mediaEnd x1 x2 x3 x4 x5 s) := by
  unfold mediaEnd
  try dsimp only
  repeat' first | with_reducible (first | assumption | apply mediaAnswer_runs | apply State.dropOp_runs) | split

theorem closeBlock_runs (hmedia : Field.media ∈ W) (h : Runs W s0 s) (x1 x2) :
    Runs W s0 (closeBlock x1 x2 s) := by
  unfold closeBlock
  try dsimp only
  repeat' first | with_reducible (first | assumption | apply State.modChan_runs) | split

theorem mediaTry_runs (hmemory : Field.memory ∈ W) (hfree : Field.free ∈ W) (hfabric : Field.fabric ∈ W) (hfaults : Field.faults ∈ W) (hpipes : Field.pipes ∈ W) (hmedia : Field.media ∈ W) (hftl : Field.ftl ∈ W) (h : Runs W s0 s) (x1 x2) :
    Runs W s0 (mediaTry x1 x2 s) := by
  unfold mediaTry
  try dsimp only
  repeat' first | with_reducible (first | assumption | apply mediaEnd_runs | apply closeBlock_runs | apply State.startMedia_runs) | split

theorem mediaTryAll_runs (hmemory : Field.memory ∈ W) (hfree : Field.free ∈ W) (hfabric : Field.fabric ∈ W) (hfaults : Field.faults ∈ W) (hpipes : Field.pipes ∈ W) (hmedia : Field.media ∈ W) (hftl : Field.ftl ∈ W) (h : Runs W s0 s) (x1 x2) :
    Runs W s0 (mediaTryAll x1 x2 s) := by
  fun_induction mediaTryAll x1 x2 s <;> try rename_i ih
  all_goals try dsimp only
  all_goals repeat' first | with_reducible (first | assumption | apply ih | apply mediaTry_runs) | split

theorem mediaPump_runs (hmemory : Field.memory ∈ W) (hfree : Field.free ∈ W) (hfabric : Field.fabric ∈ W) (hfaults : Field.faults ∈ W) (hpipes : Field.pipes ∈ W) (hmedia : Field.media ∈ W) (hftl : Field.ftl ∈ W) (h : Runs W s0 s) (x1) :
    Runs W s0 (mediaPump x1 s) := by
  unfold mediaPump
  try dsimp only
  repeat' first | with_reducible (first | assumption | apply mediaTryAll_runs) | split

theorem mediaTake_runs (hmemory : Field.memory ∈ W) (hfree : Field.free ∈ W) (hfabric : Field.fabric ∈ W) (hfaults : Field.faults ∈ W) (hpipes : Field.pipes ∈ W) (hmedia : Field.media ∈ W) (hftl : Field.ftl ∈ W) (h : Runs W s0 s) (x1 x2 x3) {f}
    (hf : ∀ r t, Runs W s0 t → Runs W s0 (f r t)) :
    Runs W s0 (mediaTake x1 x2 x3 f s) := by
  unfold mediaTake
  try dsimp only
  repeat' first | with_reducible (first | assumption | apply hf | apply State.dropRequest_runs | apply mediaRefuse_runs | apply State.modChan_runs | apply mediaAnswer_runs) | split

theorem mediaAccept_runs (hmemory : Field.memory ∈ W) (hfree : Field.free ∈ W) (hfabric : Field.fabric ∈ W) (hfaults : Field.faults ∈ W) (hpipes : Field.pipes ∈ W) (hmedia : Field.media ∈ W) (hftl : Field.ftl ∈ W) (h : Runs W s0 s) (x1 x2 x3) :
    Runs W s0 (mediaAccept x1 x2 x3 s) := by
  unfold mediaAccept
  try dsimp only
  repeat' first | with_reducible (first | assumption | apply State.modChan_runs | apply mediaTry_runs) | split

theorem execMediaRead_runs (hmemory : Field.memory ∈ W) (hfree : Field.free ∈ W) (hfabric : Field.fabric ∈ W) (hfaults : Field.faults ∈ W) (hpipes : Field.pipes ∈ W) (hmedia : Field.media ∈ W) (hftl : Field.ftl ∈ W) (h : Runs W s0 s) (x1 x2) :
    Ends W s0 (execMediaRead x1 x2 s) := by
  unfold execMediaRead
  try dsimp only
  repeat' first | with_reducible (first | assumption | apply mediaTake_runs | apply mediaAccept_runs | rw [ends_next]) | split | (intro _; intros; try dsimp only)

theorem execMediaReadMargin_runs (hmemory : Field.memory ∈ W) (hfree : Field.free ∈ W) (hfabric : Field.fabric ∈ W) (hfaults : Field.faults ∈ W) (hpipes : Field.pipes ∈ W) (hmedia : Field.media ∈ W) (hftl : Field.ftl ∈ W) (h : Runs W s0 s) (x1) :
    Ends W s0 (execMediaReadMargin x1 s) := by
  unfold execMediaReadMargin
  try dsimp only
  repeat' first | with_reducible (first | assumption | apply mediaTake_runs | apply mediaAccept_runs | rw [ends_next]) | split | (intro _; intros; try dsimp only)

theorem execMediaProgram_runs (hmemory : Field.memory ∈ W) (hfree : Field.free ∈ W) (hfabric : Field.fabric ∈ W) (hfaults : Field.faults ∈ W) (hpipes : Field.pipes ∈ W) (hmedia : Field.media ∈ W) (hftl : Field.ftl ∈ W) (h : Runs W s0 s) (x1) :
    Ends W s0 (execMediaProgram x1 s) := by
  unfold execMediaProgram
  try dsimp only
  repeat' first | with_reducible (first | assumption | apply mediaTake_runs | apply mediaAccept_runs | rw [ends_next]) | split | (intro _; intros; try dsimp only)

theorem execMediaErase_runs (hmemory : Field.memory ∈ W) (hfree : Field.free ∈ W) (hfabric : Field.fabric ∈ W) (hfaults : Field.faults ∈ W) (hpipes : Field.pipes ∈ W) (hmedia : Field.media ∈ W) (hftl : Field.ftl ∈ W) (h : Runs W s0 s) (x1) :
    Ends W s0 (execMediaErase x1 s) := by
  unfold execMediaErase
  try dsimp only
  repeat' first | with_reducible (first | assumption | apply mediaTake_runs | apply mediaAccept_runs | rw [ends_next]) | split | (intro _; intros; try dsimp only)

theorem interruptAll_runs (hmemory : Field.memory ∈ W) (hfree : Field.free ∈ W) (hfabric : Field.fabric ∈ W) (hfaults : Field.faults ∈ W) (hpipes : Field.pipes ∈ W) (hmedia : Field.media ∈ W) (hftl : Field.ftl ∈ W) (h : Runs W s0 s) (x1 x2 x3 x4) :
    Runs W s0 (interruptAll x1 x2 x3 x4 s) := by
  fun_induction interruptAll x1 x2 x3 x4 s <;> try rename_i ih
  all_goals try dsimp only
  all_goals repeat' first | with_reducible (first | assumption | apply ih | apply mediaEnd_runs | apply State.cutShort_runs) | split

theorem execMediaReset_runs (hmemory : Field.memory ∈ W) (hfree : Field.free ∈ W) (hfabric : Field.fabric ∈ W) (hfaults : Field.faults ∈ W) (hpipes : Field.pipes ∈ W) (hmedia : Field.media ∈ W) (hftl : Field.ftl ∈ W) (h : Runs W s0 s) (x1) :
    Ends W s0 (execMediaReset x1 s) := by
  unfold execMediaReset
  try dsimp only
  repeat' first | with_reducible (first | assumption | apply mediaTake_runs | apply interruptAll_runs | apply mediaPump_runs | apply mediaAnswer_runs | rw [ends_next]) | split | (intro _; intros; try dsimp only)

theorem execMediaGetFeatures_runs (hmemory : Field.memory ∈ W) (hfree : Field.free ∈ W) (hfabric : Field.fabric ∈ W) (hfaults : Field.faults ∈ W) (hpipes : Field.pipes ∈ W) (hmedia : Field.media ∈ W) (hftl : Field.ftl ∈ W) (h : Runs W s0 s) (x1 x2) :
    Ends W s0 (execMediaGetFeatures x1 x2 s) := by
  unfold execMediaGetFeatures
  try dsimp only
  repeat' first | with_reducible (first | assumption | apply mediaTake_runs | apply mediaAnswer_runs | rw [ends_next]) | split | (intro _; intros; try dsimp only)

theorem execMediaStatus_runs (hmemory : Field.memory ∈ W) (hfree : Field.free ∈ W) (hfabric : Field.fabric ∈ W) (hfaults : Field.faults ∈ W) (hpipes : Field.pipes ∈ W) (hmedia : Field.media ∈ W) (hftl : Field.ftl ∈ W) (h : Runs W s0 s) (x1) :
    Ends W s0 (execMediaStatus x1 s) := by
  unfold execMediaStatus
  try dsimp only
  repeat' first | with_reducible (first | assumption | apply mediaTake_runs | apply mediaAccept_runs | rw [ends_next]) | split | (intro _; intros; try dsimp only)

theorem execMediaClose_runs (hmemory : Field.memory ∈ W) (hfree : Field.free ∈ W) (hfabric : Field.fabric ∈ W) (hfaults : Field.faults ∈ W) (hpipes : Field.pipes ∈ W) (hmedia : Field.media ∈ W) (hftl : Field.ftl ∈ W) (h : Runs W s0 s) (x1) :
    Ends W s0 (execMediaClose x1 s) := by
  unfold execMediaClose
  try dsimp only
  repeat' first | with_reducible (first | assumption | apply mediaTake_runs | apply mediaAccept_runs | rw [ends_next]) | split | (intro _; intros; try dsimp only)

theorem execMediaParams_runs (hmemory : Field.memory ∈ W) (hfree : Field.free ∈ W) (hfabric : Field.fabric ∈ W) (hfaults : Field.faults ∈ W) (hpipes : Field.pipes ∈ W) (hmedia : Field.media ∈ W) (hftl : Field.ftl ∈ W) (h : Runs W s0 s) (x1) :
    Ends W s0 (execMediaParams x1 s) := by
  unfold execMediaParams
  try dsimp only
  repeat' first | with_reducible (first | assumption | apply mediaTake_runs | apply mediaAnswer_runs | apply State.modChan_runs | rw [ends_next]) | split | (intro _; intros; try dsimp only)

theorem writePages_runs (hmedia : Field.media ∈ W) (h : Runs W s0 s) (x1 x2 x3) :
    Runs W s0 (writePages x1 x2 x3 s) := by
  fun_induction writePages x1 x2 x3 s <;> try rename_i ih
  all_goals try dsimp only
  all_goals repeat' first | with_reducible (first | assumption | apply ih | apply State.setPage_runs) | split

theorem readDone_runs (hmemory : Field.memory ∈ W) (hfree : Field.free ∈ W) (hfabric : Field.fabric ∈ W) (hfaults : Field.faults ∈ W) (hpipes : Field.pipes ∈ W) (hmedia : Field.media ∈ W) (hftl : Field.ftl ∈ W) (h : Runs W s0 s) (x1 x2 x3 x4) :
    Runs W s0 (readDone x1 x2 x3 x4 s) := by
  unfold readDone
  extract_lets x tag start g s1 data s2
  have h1 : Runs W s0 s1 := h.taking hfree 2
  have h2 : Runs W s0 s2 := by
    unfold s2; split
    · exact State.writeMem_runs hmemory h1 _ _
    · exact h1
  apply mediaEnd_runs <;> with_reducible assumption

theorem marginDone_runs (hmemory : Field.memory ∈ W) (hfree : Field.free ∈ W) (hfabric : Field.fabric ∈ W) (hfaults : Field.faults ∈ W) (hpipes : Field.pipes ∈ W) (hmedia : Field.media ∈ W) (hftl : Field.ftl ∈ W) (h : Runs W s0 s) (x1 x2 x3 x4) :
    Runs W s0 (marginDone x1 x2 x3 x4 s) := by
  unfold marginDone
  try dsimp only
  repeat' first | with_reducible (first | assumption | apply mediaEnd_runs | apply State.modChan_runs) | split

theorem programDone_runs (hmemory : Field.memory ∈ W) (hfree : Field.free ∈ W) (hfabric : Field.fabric ∈ W) (hfaults : Field.faults ∈ W) (hpipes : Field.pipes ∈ W) (hmedia : Field.media ∈ W) (hftl : Field.ftl ∈ W) (h : Runs W s0 s) (x1 x2 x3 x4) :
    Runs W s0 (programDone x1 x2 x3 x4 s) := by
  unfold programDone
  try dsimp only
  repeat' first | with_reducible (first | assumption | apply writePages_runs | apply mediaEnd_runs | apply State.modChan_runs | apply State.cutShort_runs) | split

theorem eraseDone_runs (hmemory : Field.memory ∈ W) (hfree : Field.free ∈ W) (hfabric : Field.fabric ∈ W) (hfaults : Field.faults ∈ W) (hpipes : Field.pipes ∈ W) (hmedia : Field.media ∈ W) (hftl : Field.ftl ∈ W) (h : Runs W s0 s) (x1 x2 x3 x4) :
    Runs W s0 (eraseDone x1 x2 x3 x4 s) := by
  unfold eraseDone
  try dsimp only
  repeat' first | with_reducible (first | assumption | apply mediaEnd_runs | apply State.modChan_runs | apply State.fillBlock_runs | apply State.cutShort_runs) | split

theorem mediaResume_runs (hmedia : Field.media ∈ W) (h : Runs W s0 s) (x1 x2) :
    Runs W s0 (mediaResume x1 x2 s) := by
  unfold mediaResume
  try dsimp only
  repeat' first | with_reducible (first | assumption | apply State.modChan_runs) | split

theorem execMediaOpComplete_runs (hmemory : Field.memory ∈ W) (hfree : Field.free ∈ W) (hfabric : Field.fabric ∈ W) (hfaults : Field.faults ∈ W) (hpipes : Field.pipes ∈ W) (hmedia : Field.media ∈ W) (hftl : Field.ftl ∈ W) (h : Runs W s0 s) (x1 x2 x3) :
    Ends W s0 (execMediaOpComplete x1 x2 x3 s) := by
  unfold execMediaOpComplete
  try dsimp only
  repeat' first | with_reducible (first | assumption | apply mediaPump_runs | apply mediaResume_runs | apply readDone_runs | apply marginDone_runs | apply programDone_runs | apply eraseDone_runs | rw [ends_next]) | split

theorem execMediaTimeout_runs (hmemory : Field.memory ∈ W) (hfree : Field.free ∈ W) (hfabric : Field.fabric ∈ W) (hfaults : Field.faults ∈ W) (hpipes : Field.pipes ∈ W) (hmedia : Field.media ∈ W) (hftl : Field.ftl ∈ W) (h : Runs W s0 s) (x1 x2) :
    Ends W s0 (execMediaTimeout x1 x2 s) := by
  unfold execMediaTimeout
  try dsimp only
  repeat' first | with_reducible (first | assumption | apply State.modChan_runs | apply State.modFtl_runs | apply mediaEnd_runs | apply State.cutShort_runs | apply mediaPump_runs | apply interruptAll_runs | rw [ends_next]) | split

theorem execMediaSuspend_runs (hmemory : Field.memory ∈ W) (hfree : Field.free ∈ W) (hfabric : Field.fabric ∈ W) (hfaults : Field.faults ∈ W) (hpipes : Field.pipes ∈ W) (hmedia : Field.media ∈ W) (hftl : Field.ftl ∈ W) (h : Runs W s0 s) (x1 x2) :
    Ends W s0 (execMediaSuspend x1 x2 s) := by
  unfold execMediaSuspend
  try dsimp only
  repeat' first | with_reducible (first | assumption | apply State.modChan_runs | apply mediaPump_runs | rw [ends_next]) | split

theorem onChannels_runs  (h : Runs W s0 s)  {f}
    (hf : ∀ c t, Runs W s0 t → Runs W s0 (f c t)) :
    Runs W s0 (onChannels f s) := by
  unfold onChannels
  try dsimp only
  repeat' first | with_reducible (first | assumption | apply hf | refine runs_foldl (fun _ _ _ => ?_) _ ?_) | split

theorem mediaHold_runs (hmemory : Field.memory ∈ W) (hfree : Field.free ∈ W) (hfabric : Field.fabric ∈ W) (hfaults : Field.faults ∈ W) (hpipes : Field.pipes ∈ W) (hmedia : Field.media ∈ W) (hftl : Field.ftl ∈ W) (h : Runs W s0 s) (x1) :
    Runs W s0 (mediaHold x1 s) := by
  unfold mediaHold
  try dsimp only
  repeat' first | with_reducible (first | assumption | apply State.modMedia_runs | apply onChannels_runs | apply mediaPump_runs) | split | (intro _; intros; try dsimp only)

theorem execMediaHold_runs (hmemory : Field.memory ∈ W) (hfree : Field.free ∈ W) (hfabric : Field.fabric ∈ W) (hfaults : Field.faults ∈ W) (hpipes : Field.pipes ∈ W) (hmedia : Field.media ∈ W) (hftl : Field.ftl ∈ W) (h : Runs W s0 s) (x1) :
    Ends W s0 (execMediaHold x1 s) := by
  unfold execMediaHold
  try dsimp only
  repeat' first | with_reducible (first | assumption | apply mediaHold_runs | rw [ends_next]) | split

theorem stopQueued_runs (hmemory : Field.memory ∈ W) (hfree : Field.free ∈ W) (hfabric : Field.fabric ∈ W) (hfaults : Field.faults ∈ W) (hpipes : Field.pipes ∈ W) (hmedia : Field.media ∈ W) (hftl : Field.ftl ∈ W) (h : Runs W s0 s) (x1 x2) :
    Runs W s0 (stopQueued x1 x2 s) := by
  fun_induction stopQueued x1 x2 s <;> try rename_i ih
  all_goals try dsimp only
  all_goals repeat' first | with_reducible (first | assumption | apply ih | apply mediaEnd_runs) | split

theorem flushChannel_runs (hmemory : Field.memory ∈ W) (hfree : Field.free ∈ W) (hfabric : Field.fabric ∈ W) (hfaults : Field.faults ∈ W) (hpipes : Field.pipes ∈ W) (hmedia : Field.media ∈ W) (hftl : Field.ftl ∈ W) (h : Runs W s0 s) (x1) :
    Runs W s0 (flushChannel x1 s) := by
  unfold flushChannel
  try dsimp only
  repeat' first | with_reducible (first | assumption | apply interruptAll_runs | apply mediaPump_runs | apply stopQueued_runs | refine runs_foldl (fun _ _ _ => ?_) _ ?_) | split

theorem mediaFlush_runs (hmemory : Field.memory ∈ W) (hfree : Field.free ∈ W) (hfabric : Field.fabric ∈ W) (hfaults : Field.faults ∈ W) (hpipes : Field.pipes ∈ W) (hmedia : Field.media ∈ W) (hftl : Field.ftl ∈ W) (h : Runs W s0 s) :
    Runs W s0 (mediaFlush s) := by
  unfold mediaFlush
  try dsimp only
  repeat' first | with_reducible (first | assumption | apply onChannels_runs | apply flushChannel_runs | apply State.modMedia_runs) | split | (intro _; intros; try dsimp only)

theorem execMediaFlush_runs (hmemory : Field.memory ∈ W) (hfree : Field.free ∈ W) (hfabric : Field.fabric ∈ W) (hfaults : Field.faults ∈ W) (hpipes : Field.pipes ∈ W) (hmedia : Field.media ∈ W) (hftl : Field.ftl ∈ W) (h : Runs W s0 s) :
    Ends W s0 (execMediaFlush s) := by
  unfold execMediaFlush
  try dsimp only
  repeat' first | with_reducible (first | assumption | apply mediaFlush_runs | rw [ends_next]) | split

theorem mediaPowerLoss_runs (hfree : Field.free ∈ W) (hmedia : Field.media ∈ W) (h : Runs W s0 s) :
    Runs W s0 (mediaPowerLoss s) := by
  unfold mediaPowerLoss
  try dsimp only
  repeat' first | with_reducible (first | assumption | apply onChannels_runs | apply State.cutShort_runs | apply State.modMedia_runs | refine runs_foldl (fun _ _ _ => ?_) _ ?_) | split | (intro _; intros; try dsimp only)

theorem resetEntry_runs (hmedia : Field.media ∈ W) (h : Runs W s0 s) (x1) :
    Runs W s0 (resetEntry x1 s) := by
  unfold resetEntry
  try dsimp only
  repeat' first | with_reducible (first | assumption | apply State.modChan_runs) | split

theorem execRomResetEntry_runs (hmedia : Field.media ∈ W) (h : Runs W s0 s) (x1) :
    Ends W s0 (execRomResetEntry x1 s) := by
  unfold execRomResetEntry
  try dsimp only
  repeat' first | with_reducible (first | assumption | apply resetEntry_runs | rw [ends_next]) | split

theorem targetLost_runs (hmemory : Field.memory ∈ W) (hfaults : Field.faults ∈ W) (hmedia : Field.media ∈ W) (h : Runs W s0 s) (x1 x2) :
    Runs W s0 (targetLost x1 x2 s) := by
  unfold targetLost
  try dsimp only
  repeat' first | with_reducible (first | assumption | apply State.modChan_runs | apply State.report_runs | apply State.modFaults_runs) | split

theorem execTargetBringupTimeout_runs (hmemory : Field.memory ∈ W) (hfaults : Field.faults ∈ W) (hmedia : Field.media ∈ W) (h : Runs W s0 s) (x1 x2) :
    Ends W s0 (execTargetBringupTimeout x1 x2 s) := by
  unfold execTargetBringupTimeout
  try dsimp only
  repeat' first | with_reducible (first | assumption | apply targetLost_runs | rw [ends_next]) | split

theorem execMrReqTailWrite_runs (hmedia : Field.media ∈ W) (h : Runs W s0 s) (x1 x2) :
    Ends W s0 (execMrReqTailWrite x1 x2 s) := by
  unfold execMrReqTailWrite
  try dsimp only
  repeat' first | with_reducible (first | assumption | apply State.modChan_runs | rw [ends_next]) | split

theorem execMrCmplHeadWrite_runs (hmedia : Field.media ∈ W) (h : Runs W s0 s) (x1 x2) :
    Ends W s0 (execMrCmplHeadWrite x1 x2 s) := by
  unfold execMrCmplHeadWrite
  try dsimp only
  repeat' first | with_reducible (first | assumption | apply State.modChan_runs | rw [ends_next]) | split

theorem execMrEnable_runs (hmedia : Field.media ∈ W) (h : Runs W s0 s) (x1 x2) :
    Ends W s0 (execMrEnable x1 x2 s) := by
  unfold execMrEnable
  try dsimp only
  repeat' first | with_reducible (first | assumption | apply State.modChan_runs | rw [ends_next]) | split

theorem execDieTempSample_runs (hmedia : Field.media ∈ W) (h : Runs W s0 s) (x1 x2 x3) :
    Ends W s0 (execDieTempSample x1 x2 x3 s) := by
  unfold execDieTempSample
  try dsimp only
  repeat' first | with_reducible (first | assumption | apply State.modChan_runs | rw [ends_next]) | split

theorem mrRegWrite_runs (hmedia : Field.media ∈ W) (h : Runs W s0 s) (x1 x2 x3) :
    Runs W s0 (mrRegWrite x1 x2 x3 s) := by
  unfold mrRegWrite
  try dsimp only
  repeat' first | with_reducible (first | assumption | apply State.modChan_runs) | split

theorem mrCommonWrite_runs (hmedia : Field.media ∈ W) (h : Runs W s0 s) (x1 x2) :
    Runs W s0 (mrCommonWrite x1 x2 s) := by
  unfold mrCommonWrite
  try dsimp only
  repeat' first | with_reducible (first | assumption | apply State.feedHostTime_runs) | split

/-! ## Objects -/

/-- Where `Placed` holds a state, it has been reached so. -/
def PlacedRuns (W : List Field) (s : State) (p : Placed) : Prop := ∀ t o, p = .done t o → Runs W s t
theorem placedRuns_ok {t : State} {o} (h : Runs W s0 t) : PlacedRuns W s0 (.done t o) := by
  intro t o e; cases e; exact h
theorem placedRuns_no {p : Placed} (h : ∀ t o, p ≠ .done t o) : PlacedRuns W s0 p := fun t o e => absurd e (h t o)
theorem Runs.of_placed {p : Placed} {t : State} {o} (e : p = .done t o) (h : PlacedRuns W s0 p) : Runs W s0 t := h t o e

theorem hello_runs (hamp : Field.amp ∈ W) (h : Runs W s0 s) (x1) :
    Runs W s0 (hello x1 s).1 := by
  unfold hello
  try dsimp only
  repeat' first | with_reducible (first | assumption | apply ampRefuse_runs | apply State.modMb_runs | apply State.modAmp_runs | apply ampAnswer_runs | refine Runs.of_fst (by assumption) ?_) | split

theorem execHello_runs (hamp : Field.amp ∈ W) (h : Runs W s0 s) (x1) :
    Ends W s0 (execHello x1 s) := by
  unfold execHello
  try dsimp only
  repeat' first | with_reducible (first | assumption | apply ampExec_runs | apply hello_runs | rw [ends_next] | refine Runs.of_fst (by assumption) ?_) | split | (intro _; intros; try dsimp only)

theorem takeAll_runs (htiers : Field.tiers ∈ W) (h : Runs W s0 s) (x1 x2) :
    OptRuns W s0 id (takeAll x1 x2 s) := by
  fun_induction takeAll x1 x2 s <;> try rename_i ih
  all_goals try dsimp only
  all_goals repeat' first | with_reducible (first | assumption | apply ih | apply State.take_runs | apply optRuns_none | refine optRuns_id ?_ | refine optRuns_some ?_ | refine optRuns_map ?_ (fun _ _ => ?_) | refine Runs.of_some (by assumption) ?_) | split

theorem fillRegions_runs (hmemory : Field.memory ∈ W) (hcl : Field.cl ∈ W) (h : Runs W s0 s) (x1 x2 x3) :
    Runs W s0 (fillRegions x1 x2 x3 s) := by
  fun_induction fillRegions x1 x2 x3 s <;> try rename_i ih
  all_goals try dsimp only
  all_goals repeat' first | with_reducible (first | assumption | apply ih | apply State.writeMem_runs | apply State.store_runs | apply State.modCl_runs) | split

theorem State.placeObject_runs (hmemory : Field.memory ∈ W) (hcl : Field.cl ∈ W) (htiers : Field.tiers ∈ W) (h : Runs W s0 s) (x1 x2 x3 x4) :
    PlacedRuns W s0 (State.placeObject s x1 x2 x3 x4) := by
  unfold State.placeObject
  try dsimp only
  repeat' first | with_reducible (first | assumption | apply takeAll_runs | apply fillRegions_runs | apply State.writeMem_runs | refine placedRuns_ok ?_ | (apply placedRuns_no <;> intros <;> simp_all <;> done) | refine Runs.of_some (by assumption) ?_ | refine optRuns_bind_id ?_ (fun _ _ => ?_) | refine optRuns_map_id ?_ (fun _ _ => ?_) | refine optRuns_getD ?_ ?_ | refine optRuns_id ?_ | apply optRuns_none) | split

theorem objectInstall_runs (hamp : Field.amp ∈ W) (h : Runs W s0 s) (x1) :
    Runs W s0 (objectInstall x1 s).1 := by
  unfold objectInstall
  try dsimp only
  repeat' first | with_reducible (first | assumption | apply ampRefuse_runs | apply ampLong_runs | apply State.modAmp_runs | refine Runs.of_fst (by assumption) ?_) | split | (intro _; intros; try dsimp only)

theorem execObjectInstall_runs (hamp : Field.amp ∈ W) (h : Runs W s0 s) (x1) :
    Ends W s0 (execObjectInstall x1 s) := by
  unfold execObjectInstall
  try dsimp only
  repeat' first | with_reducible (first | assumption | apply ampExec_runs | apply objectInstall_runs | rw [ends_next] | refine Runs.of_fst (by assumption) ?_) | split | (intro _; intros; try dsimp only)

theorem State.installEnds_runs (hfabric : Field.fabric ∈ W) (hamp : Field.amp ∈ W) (h : Runs W s0 s) (x1 x2) :
    Runs W s0 (State.installEnds s x1 x2) := by
  unfold State.installEnds
  try dsimp only
  repeat' first | with_reducible (first | assumption | apply State.opDone_runs | apply State.modAmp_runs) | split

theorem State.switchTo_runs (hamp : Field.amp ∈ W) (hcl : Field.cl ∈ W) (htiers : Field.tiers ∈ W) (h : Runs W s0 s) (x1) :
    Runs W s0 (State.switchTo s x1) := by
  unfold State.switchTo
  try dsimp only
  repeat' first | with_reducible (first | assumption | apply State.modAmp_runs | apply State.dropObject_runs) | split

theorem State.stages_runs (hmemory : Field.memory ∈ W) (hcl : Field.cl ∈ W) (htiers : Field.tiers ∈ W) (h : Runs W s0 s) (x1 x2 x3 x4 x5) :
    PlacedRuns W s0 (State.stages s x1 x2 x3 x4 x5) := by
  unfold State.stages
  try dsimp only
  repeat' first | with_reducible (first | assumption | apply State.placeObject_runs | refine placedRuns_ok ?_ | (apply placedRuns_no <;> intros <;> simp_all <;> done) | refine Runs.of_placed (by assumption) ?_) | split

theorem execObjectInstallDone_runs (hmemory : Field.memory ∈ W) (hfabric : Field.fabric ∈ W) (hamp : Field.amp ∈ W) (hcl : Field.cl ∈ W) (htiers : Field.tiers ∈ W) (h : Runs W s0 s) (x1 x2 x3 x4 x5) :
    Ends W s0 (execObjectInstallDone x1 x2 x3 x4 x5 s) := by
  unfold execObjectInstallDone
  try dsimp only
  repeat' first | with_reducible (first | assumption | apply State.stages_runs | apply State.sweepObjects_runs | apply State.installEnds_runs | apply State.switchTo_runs | rw [ends_next] | refine Runs.of_placed (by assumption) ?_) | split

theorem objectRemove_runs (hamp : Field.amp ∈ W) (hcl : Field.cl ∈ W) (htiers : Field.tiers ∈ W) (h : Runs W s0 s) (x1) :
    Runs W s0 (objectRemove x1 s).1 := by
  unfold objectRemove
  try dsimp only
  repeat' first | with_reducible (first | assumption | apply ampRefuse_runs | apply ampAnswer_runs | apply State.dropObject_runs | refine Runs.of_fst (by assumption) ?_) | split

theorem execObjectRemove_runs (hamp : Field.amp ∈ W) (hcl : Field.cl ∈ W) (htiers : Field.tiers ∈ W) (h : Runs W s0 s) (x1) :
    Ends W s0 (execObjectRemove x1 s) := by
  unfold execObjectRemove
  try dsimp only
  repeat' first | with_reducible (first | assumption | apply ampExec_runs | apply objectRemove_runs | rw [ends_next] | refine Runs.of_fst (by assumption) ?_) | split | (intro _; intros; try dsimp only)

theorem objectList_runs  (h : Runs W s0 s) (x1) :
    Runs W s0 (objectList x1 s).1 := by
  unfold objectList
  try dsimp only
  repeat' first | with_reducible (first | assumption | apply ampRefuse_runs | apply ampAnswer_runs | refine Runs.of_fst (by assumption) ?_) | split

theorem execObjectList_runs (hamp : Field.amp ∈ W) (h : Runs W s0 s) (x1) :
    Ends W s0 (execObjectList x1 s) := by
  unfold execObjectList
  try dsimp only
  repeat' first | with_reducible (first | assumption | apply ampExec_runs | apply objectList_runs | rw [ends_next] | refine Runs.of_fst (by assumption) ?_) | split | (intro _; intros; try dsimp only)

theorem State.objectLost_runs (hfabric : Field.fabric ∈ W) (hamp : Field.amp ∈ W) (h : Runs W s0 s) (x1) :
    Runs W s0 (State.objectLost s x1) := by
  unfold State.objectLost
  try dsimp only
  repeat' first | with_reducible (first | assumption | apply State.post_runs | apply State.modAmp_runs) | split

theorem State.restoreOne_runs (hmemory : Field.memory ∈ W) (hfabric : Field.fabric ∈ W) (hamp : Field.amp ∈ W) (hcl : Field.cl ∈ W) (htiers : Field.tiers ∈ W) (h : Runs W s0 s) (x1 x2 x3) :
    OptRuns W s0 id (State.restoreOne s x1 x2 x3) := by
  unfold State.restoreOne
  try dsimp only
  repeat' first | with_reducible (first | assumption | apply State.stages_runs | apply State.modAmp_runs | apply State.objectLost_runs | apply optRuns_none | refine optRuns_id ?_ | refine optRuns_some ?_ | refine optRuns_map ?_ (fun _ _ => ?_) | refine Runs.of_placed (by assumption) ?_) | split

theorem restoreList_runs (hmemory : Field.memory ∈ W) (hfabric : Field.fabric ∈ W) (hamp : Field.amp ∈ W) (hcl : Field.cl ∈ W) (htiers : Field.tiers ∈ W) (h : Runs W s0 s) (x1 x2 x3) :
    OptRuns W s0 id (restoreList x1 x2 x3 s) := by
  fun_induction restoreList x1 x2 x3 s <;> try rename_i ih
  all_goals try dsimp only
  all_goals repeat' first | with_reducible (first | assumption | apply ih | apply State.restoreOne_runs | apply optRuns_none | refine optRuns_id ?_ | refine optRuns_some ?_ | refine optRuns_map ?_ (fun _ _ => ?_) | refine Runs.of_some (by assumption) ?_) | split

theorem State.restoreObjects_runs (hmemory : Field.memory ∈ W) (hfabric : Field.fabric ∈ W) (hamp : Field.amp ∈ W) (hcl : Field.cl ∈ W) (htiers : Field.tiers ∈ W) (h : Runs W s0 s) (x1 x2) :
    OptRuns W s0 id (State.restoreObjects s x1 x2) := by
  unfold State.restoreObjects
  try dsimp only
  repeat' first | with_reducible (first | assumption | apply restoreList_runs | apply optRuns_none | refine optRuns_id ?_ | refine optRuns_some ?_ | refine optRuns_map ?_ (fun _ _ => ?_) | refine Runs.of_some (by assumption) ?_) | split

/-! ## FaultLog -/

theorem State.modConc_runs (hfaults : Field.faults ∈ W) (h : Runs W s0 s) (x1 x2) :
    Runs W s0 (State.modConc s x1 x2) := by
  unfold State.modConc
  try dsimp only
  repeat' first | with_reducible (first | assumption | apply State.modFaults_runs) | split

theorem State.closeRecord_runs (hmemory : Field.memory ∈ W) (hfaults : Field.faults ∈ W) (h : Runs W s0 s) (x1 x2 x3) :
    Runs W s0 (State.closeRecord s x1 x2 x3) := by
  unfold State.closeRecord
  try dsimp only
  repeat' first | with_reducible (first | assumption | apply State.writeMem_runs | apply State.modConc_runs) | split

theorem execFaultWindowEnd_runs (hmemory : Field.memory ∈ W) (hfaults : Field.faults ∈ W) (h : Runs W s0 s) (x1 x2) :
    Ends W s0 (execFaultWindowEnd x1 x2 s) := by
  unfold execFaultWindowEnd
  try dsimp only
  repeat' first | with_reducible (first | assumption | apply State.closeRecord_runs | rw [ends_next]) | split

theorem execFaultRecordAgeLimit_runs (hmemory : Field.memory ∈ W) (hfaults : Field.faults ∈ W) (h : Runs W s0 s) (x1 x2) :
    Ends W s0 (execFaultRecordAgeLimit x1 x2 s) := by
  unfold execFaultRecordAgeLimit
  try dsimp only
  repeat' first | with_reducible (first | assumption | apply State.closeRecord_runs | rw [ends_next]) | split

theorem execFcHeadWrite_runs (hfaults : Field.faults ∈ W) (h : Runs W s0 s) (x1 x2) :
    Ends W s0 (execFcHeadWrite x1 x2 s) := by
  unfold execFcHeadWrite
  try dsimp only
  repeat' first | with_reducible (first | assumption | apply State.modConc_runs | rw [ends_next]) | split

theorem State.logDrop_runs (hfabric : Field.fabric ∈ W) (hamp : Field.amp ∈ W) (hfaults : Field.faults ∈ W) (h : Runs W s0 s) (x1 x2) :
    Runs W s0 (State.logDrop s x1 x2) := by
  unfold State.logDrop
  try dsimp only
  repeat' first | with_reducible (first | assumption | apply State.modFaults_runs | apply State.post_runs) | split

theorem State.logRoom_runs (hfabric : Field.fabric ∈ W) (hamp : Field.amp ∈ W) (hfaults : Field.faults ∈ W) (h : Runs W s0 s) (x1) :
    OptRuns W s0 id (State.logRoom s x1) := by
  unfold State.logRoom
  try dsimp only
  repeat' first | with_reducible (first | assumption | apply State.logDrop_runs | apply State.modFaults_runs | apply optRuns_none | refine optRuns_id ?_ | refine optRuns_some ?_ | refine optRuns_map ?_ (fun _ _ => ?_)) | split

theorem State.intake_runs (hfabric : Field.fabric ∈ W) (hamp : Field.amp ∈ W) (hfaults : Field.faults ∈ W) (h : Runs W s0 s) (x1 x2 x3) :
    Runs W s0 (State.intake s x1 x2 x3) := by
  unfold State.intake
  try dsimp only
  repeat' first | with_reducible (first | assumption | apply State.logRoom_runs | apply State.modFaults_runs | apply State.modConc_runs | apply State.post_runs | apply State.logDrop_runs | refine Runs.of_some (by assumption) ?_ | refine optRuns_bind_id ?_ (fun _ _ => ?_) | refine optRuns_map_id ?_ (fun _ _ => ?_) | refine optRuns_getD ?_ ?_ | refine optRuns_id ?_ | apply optRuns_none) | split

theorem execFaultRecordIntake_runs (hfabric : Field.fabric ∈ W) (hamp : Field.amp ∈ W) (hfaults : Field.faults ∈ W) (h : Runs W s0 s) (x1 x2) :
    Ends W s0 (execFaultRecordIntake x1 x2 s) := by
  unfold execFaultRecordIntake
  try dsimp only
  repeat' first | with_reducible (first | assumption | apply State.intake_runs | rw [ends_next]) | split

theorem execFaultRecordFinalise_runs (hfaults : Field.faults ∈ W) (h : Runs W s0 s) (x1 x2) :
    Ends W s0 (execFaultRecordFinalise x1 x2 s) := by
  unfold execFaultRecordFinalise
  try dsimp only
  repeat' first | with_reducible (first | assumption | apply State.modFaults_runs | apply State.modConc_runs | rw [ends_next]) | split

theorem execFaultLogPersist_runs (hfaults : Field.faults ∈ W) (h : Runs W s0 s) (x1) :
    Ends W s0 (execFaultLogPersist x1 s) := by
  unfold execFaultLogPersist
  try dsimp only
  repeat' first | with_reducible (first | assumption | apply State.modFaults_runs | rw [ends_next]) | split

theorem faultRead_runs  (h : Runs W s0 s) (x1) :
    Runs W s0 (faultRead x1 s).1 := by
  unfold faultRead
  try dsimp only
  repeat' first | with_reducible (first | assumption | apply ampRefuse_runs | apply ampAnswer_runs | refine Runs.of_fst (by assumption) ?_) | split

theorem execFaultRead_runs (hamp : Field.amp ∈ W) (h : Runs W s0 s) (x1) :
    Ends W s0 (execFaultRead x1 s) := by
  unfold execFaultRead
  try dsimp only
  repeat' first | with_reducible (first | assumption | apply ampExec_runs | apply faultRead_runs | rw [ends_next] | refine Runs.of_fst (by assumption) ?_) | split | (intro _; intros; try dsimp only)

theorem faultAck_runs (hfaults : Field.faults ∈ W) (h : Runs W s0 s) (x1) :
    Runs W s0 (faultAck x1 s).1 := by
  unfold faultAck
  try dsimp only
  repeat' first | with_reducible (first | assumption | apply ampRefuse_runs | apply ampAnswer_runs | apply State.modFaults_runs | refine Runs.of_fst (by assumption) ?_) | split

theorem execFaultAck_runs (hamp : Field.amp ∈ W) (hfaults : Field.faults ∈ W) (h : Runs W s0 s) (x1) :
    Ends W s0 (execFaultAck x1 s) := by
  unfold execFaultAck
  try dsimp only
  repeat' first | with_reducible (first | assumption | apply ampExec_runs | apply faultAck_runs | rw [ends_next] | refine Runs.of_fst (by assumption) ?_) | split | (intro _; intros; try dsimp only)

theorem scrubRange_runs (hamp : Field.amp ∈ W) (hfaults : Field.faults ∈ W) (h : Runs W s0 s) (x1) :
    Runs W s0 (scrubRange x1 s).1 := by
  unfold scrubRange
  try dsimp only
  repeat' first | with_reducible (first | assumption | apply ampRefuse_runs | apply ampLong_runs | apply State.modFaults_runs | refine Runs.of_fst (by assumption) ?_) | split | (intro _; intros; try dsimp only)

theorem execScrubRange_runs (hamp : Field.amp ∈ W) (hfaults : Field.faults ∈ W) (h : Runs W s0 s) (x1) :
    Ends W s0 (execScrubRange x1 s) := by
  unfold execScrubRange
  try dsimp only
  repeat' first | with_reducible (first | assumption | apply ampExec_runs | apply scrubRange_runs | rw [ends_next] | refine Runs.of_fst (by assumption) ?_) | split | (intro _; intros; try dsimp only)

theorem State.scrubHbm_runs (hmemory : Field.memory ∈ W) (hfaults : Field.faults ∈ W) (h : Runs W s0 s) (x1 x2) :
    Runs W s0 (State.scrubHbm s x1 x2) := by
  unfold State.scrubHbm
  try dsimp only
  repeat' first | with_reducible (first | assumption | apply State.report_runs) | split

theorem State.scrubStack_runs (hmemory : Field.memory ∈ W) (hfaults : Field.faults ∈ W) (h : Runs W s0 s) (x1 x2 x3) :
    Runs W s0 (State.scrubStack s x1 x2 x3).1 := by
  unfold State.scrubStack
  try dsimp only
  repeat' first | with_reducible (first | assumption | apply State.scrubHbm_runs | apply State.poisonWord_runs | refine runs_foldl (fun _ _ _ => ?_) _ ?_) | split

theorem State.scrubSp_runs (hmemory : Field.memory ∈ W) (hfree : Field.free ∈ W) (hfaults : Field.faults ∈ W) (hcl : Field.cl ∈ W) (hsched : Field.sched ∈ W) (h : Runs W s0 s) (x1 x2) :
    Runs W s0 (State.scrubSp s x1 x2).1 := by
  unfold State.scrubSp
  try dsimp only
  repeat' first | with_reducible (first | assumption | apply State.metBad_runs | apply State.poisonWord_runs | apply State.modCl_runs | refine runs_foldl (fun _ _ _ => ?_) _ ?_) | split

theorem State.scrubFlash_runs (hmemory : Field.memory ∈ W) (hfree : Field.free ∈ W) (hfaults : Field.faults ∈ W) (hmedia : Field.media ∈ W) (hftl : Field.ftl ∈ W) (h : Runs W s0 s) (x1 x2 x3 x4) :
    Runs W s0 (State.scrubFlash s x1 x2 x3 x4).1 := by
  unfold State.scrubFlash
  try dsimp only
  repeat' first | with_reducible (first | assumption | apply reportRetried_runs | apply reportLost_runs | apply relocate_runs) | split

theorem execScrubDone_runs (hmemory : Field.memory ∈ W) (hfree : Field.free ∈ W) (hfabric : Field.fabric ∈ W) (hamp : Field.amp ∈ W) (hfaults : Field.faults ∈ W) (hcl : Field.cl ∈ W) (hsched : Field.sched ∈ W) (hmedia : Field.media ∈ W) (hftl : Field.ftl ∈ W) (h : Runs W s0 s) (x1 x2 x3 x4) :
    Ends W s0 (execScrubDone x1 x2 x3 x4 s) := by
  unfold execScrubDone
  try dsimp only
  repeat' first | with_reducible (first | assumption | apply State.scrubStack_runs | apply State.scrubSp_runs | apply State.scrubFlash_runs | apply State.modFaults_runs | apply State.opDone_runs | rw [ends_next] | refine Runs.of_fst (by assumption) ?_) | split

theorem retire_runs (hfaults : Field.faults ∈ W) (hcl : Field.cl ∈ W) (hftl : Field.ftl ∈ W) (h : Runs W s0 s) (x1 x2) :
    Runs W s0 (retire x1 x2 s).1 := by
  unfold retire
  try dsimp only
  repeat' first | with_reducible (first | assumption | apply ampRefuse_runs | apply ampAnswer_runs | apply State.modFaults_runs | apply State.retireBank_runs | apply State.modFtl_runs | refine Runs.of_fst (by assumption) ?_ | refine Runs.of_snd (by assumption) ?_) | split

theorem execRetire_runs (hamp : Field.amp ∈ W) (hfaults : Field.faults ∈ W) (hcl : Field.cl ∈ W) (hftl : Field.ftl ∈ W) (h : Runs W s0 s) (x1 x2) :
    Ends W s0 (execRetire x1 x2 s) := by
  unfold execRetire
  try dsimp only
  repeat' first | with_reducible (first | assumption | apply ampExec_runs | apply retire_runs | rw [ends_next] | refine Runs.of_fst (by assumption) ?_) | split | (intro _; intros; try dsimp only)

theorem fcRegWrite_runs (hfaults : Field.faults ∈ W) (h : Runs W s0 s) (x1 x2 x3) :
    Runs W s0 (fcRegWrite x1 x2 x3 s) := by
  unfold fcRegWrite
  try dsimp only
  repeat' first | with_reducible (first | assumption | apply State.modConc_runs) | split

end Sys2Proof.Machine
end

