-- ==== Sys2Proof/Laws/RunsSearch.lean ====
section
/-! SUPPORT. What running the channel pipelines, the merge and the indexes keeps: one lemma per operation. -/

namespace Sys2Proof.Machine

variable {W : List Field} {s0 s : State}

/-! ## JobOps -/

theorem State.admitJob_runs (hmemory : Field.memory ∈ W) (hpipes : Field.pipes ∈ W) (h : Runs W s0 s) (x1 x2) :
    Runs W s0 (State.admitJob s x1 x2) := by
  unfold State.admitJob
  try dsimp only
  repeat' first | with_reducible (first | assumption | apply State.modPipe_runs | apply State.writeMem_runs) | split

theorem admitTodo_runs (hmemory : Field.memory ∈ W) (hpipes : Field.pipes ∈ W) (h : Runs W s0 s) (x1) :
    Runs W s0 (admitTodo x1 s).1 := by
  fun_induction admitTodo x1 s <;> try rename_i ih
  all_goals try dsimp only
  all_goals repeat' first | with_reducible (first | assumption | apply ih | apply State.admitJob_runs | refine Runs.of_fst (by assumption) ?_) | split

theorem putPages_runs (hmemory : Field.memory ∈ W) (h : Runs W s0 s) (x1 x2) :
    Runs W s0 (putPages x1 x2 s) := by
  unfold putPages
  try dsimp only
  repeat' first | with_reducible (first | assumption | apply State.writeMem_runs) | split

theorem State.abortJobs_runs (hfabric : Field.fabric ∈ W) (hpipes : Field.pipes ∈ W) (hmedia : Field.media ∈ W) (h : Runs W s0 s) (x1) :
    Runs W s0 (State.abortJobs s x1) := by
  unfold State.abortJobs
  try dsimp only
  repeat' first | with_reducible (first | assumption | apply State.pump_runs | apply State.cutJob_runs | refine runs_foldl (fun _ _ _ => ?_) _ ?_) | split

theorem State.stepTaken_runs (hhost : Field.host ∈ W) (h : Runs W s0 s) (x1 x2) :
    Runs W s0 (State.stepTaken s x1 x2) := by
  unfold State.stepTaken
  try dsimp only
  repeat' first | with_reducible (first | assumption | apply State.modResult_runs) | split

theorem State.modScan_runs (hpipes : Field.pipes ∈ W) (h : Runs W s0 s) (x1 x2) :
    Runs W s0 (State.modScan s x1 x2) := by
  unfold State.modScan
  try dsimp only
  repeat' first | with_reducible (first | assumption | apply State.modPipes_runs) | split

theorem State.admitScan_runs (hmemory : Field.memory ∈ W) (hpipes : Field.pipes ∈ W) (h : Runs W s0 s) (x1) :
    Runs W s0 (State.admitScan s x1) := by
  unfold State.admitScan
  try dsimp only
  repeat' first | with_reducible (first | assumption | apply admitTodo_runs | apply State.modScan_runs | refine Runs.of_fst (by assumption) ?_) | split

theorem State.skipSeams_runs (hsel : Field.sel ∈ W) (hpipes : Field.pipes ∈ W) (h : Runs W s0 s) (x1) :
    Runs W s0 (State.skipSeams s x1) := by
  unfold State.skipSeams
  try dsimp only
  repeat' first | with_reducible (first | assumption | apply State.mergeJobDone_runs | apply State.modScan_runs | refine runs_foldl (fun _ _ _ => ?_) _ ?_) | split

theorem State.failScan_runs (hfabric : Field.fabric ∈ W) (hpipes : Field.pipes ∈ W) (hmedia : Field.media ∈ W) (h : Runs W s0 s) (x1 x2) :
    Runs W s0 (State.failScan s x1 x2) := by
  unfold State.failScan
  try dsimp only
  repeat' first | with_reducible (first | assumption | apply State.abortJobs_runs | apply State.modScan_runs) | split

theorem State.scanProgress_runs (hmemory : Field.memory ∈ W) (hfabric : Field.fabric ∈ W) (hhost : Field.host ∈ W) (hsel : Field.sel ∈ W) (hpipes : Field.pipes ∈ W) (hmedia : Field.media ∈ W) (h : Runs W s0 s) (x1 x2) :
    Runs W s0 (State.scanProgress s x1 x2) := by
  unfold State.scanProgress
  try dsimp only
  repeat' first | with_reducible (first | assumption | apply State.modScan_runs | apply State.stepTaken_runs | apply State.failScan_runs | apply State.admitScan_runs | apply State.skipSeams_runs) | split

theorem State.endScan_runs (hhostMem : Field.hostMem ∈ W) (hfabric : Field.fabric ∈ W) (hhost : Field.host ∈ W) (hamp : Field.amp ∈ W) (hcl : Field.cl ∈ W) (htiers : Field.tiers ∈ W) (hsel : Field.sel ∈ W) (hpipes : Field.pipes ∈ W) (h : Runs W s0 s) (x1 x2) :
    Runs W s0 (State.endScan s x1 x2) := by
  unfold State.endScan
  try dsimp only
  repeat' first | with_reducible (first | assumption | apply State.modPipes_runs | apply State.dropMerge_runs | apply State.sweepObjects_runs | apply State.vendorEnd_runs) | split

theorem State.scanRecord_runs (hhostMem : Field.hostMem ∈ W) (hfabric : Field.fabric ∈ W) (hhost : Field.host ∈ W) (hpipes : Field.pipes ∈ W) (hmedia : Field.media ∈ W) (h : Runs W s0 s) (x1 x2 x3) :
    Runs W s0 (State.scanRecord s x1 x2 x3) := by
  unfold State.scanRecord
  try dsimp only
  repeat' first | with_reducible (first | assumption | apply State.flagResult_runs | apply State.emit_runs | apply State.failScan_runs) | split

/-! ## QueryOps -/

theorem State.modBorn_runs (hindex : Field.index ∈ W) (h : Runs W s0 s) (x1 x2) :
    Runs W s0 (State.modBorn s x1 x2) := by
  unfold State.modBorn
  try dsimp only
  repeat' first | with_reducible (first | assumption | apply State.modIndex_runs) | split

theorem State.trimBorn_runs (htiers : Field.tiers ∈ W) (hindex : Field.index ∈ W) (hftl : Field.ftl ∈ W) (h : Runs W s0 s) (x1) :
    Runs W s0 (State.trimBorn s x1) := by
  unfold State.trimBorn
  try dsimp only
  repeat' first | with_reducible (first | assumption | apply State.modBorn_runs | apply State.modFtl_runs | apply State.modIndex_runs | apply State.modTiers_runs | refine runs_foldl (fun _ _ _ => ?_) _ ?_) | split

theorem State.modQuery_runs (hindex : Field.index ∈ W) (h : Runs W s0 s) (x1 x2) :
    Runs W s0 (State.modQuery s x1 x2) := by
  unfold State.modQuery
  try dsimp only
  repeat' first | with_reducible (first | assumption | apply State.modIndex_runs) | split

theorem State.deliver_runs (hmemory : Field.memory ∈ W) (hcl : Field.cl ∈ W) (hsel : Field.sel ∈ W) (h : Runs W s0 s) (x1 x2 x3) :
    Runs W s0 (State.deliver s x1 x2 x3) := by
  unfold State.deliver
  try dsimp only
  repeat' first | with_reducible (first | assumption | apply State.mergeArrive_runs | refine runs_foldl (fun _ _ _ => ?_) _ ?_) | split

theorem State.admitQuery_runs (hmemory : Field.memory ∈ W) (hindex : Field.index ∈ W) (hpipes : Field.pipes ∈ W) (h : Runs W s0 s) (x1) :
    Runs W s0 (State.admitQuery s x1) := by
  unfold State.admitQuery
  try dsimp only
  repeat' first | with_reducible (first | assumption | apply admitTodo_runs | apply State.modQuery_runs | refine Runs.of_fst (by assumption) ?_) | split

theorem State.openQuery_runs (hmemory : Field.memory ∈ W) (hcl : Field.cl ∈ W) (hsel : Field.sel ∈ W) (hindex : Field.index ∈ W) (hpipes : Field.pipes ∈ W) (h : Runs W s0 s) (x1 x2 x3 x4 x5 x6 x7 x8 x9 x10 x11) :
    Runs W s0 (State.openQuery s x1 x2 x3 x4 x5 x6 x7 x8 x9 x10 x11) := by
  unfold State.openQuery
  try dsimp only
  repeat' first | with_reducible (first | assumption | apply State.writeMem_runs | apply State.modBorn_runs | apply State.modIndex_runs | apply State.deliver_runs | apply State.openMerge_runs | apply State.admitQuery_runs) | split

theorem State.failQuery_runs (hfabric : Field.fabric ∈ W) (hindex : Field.index ∈ W) (hpipes : Field.pipes ∈ W) (hmedia : Field.media ∈ W) (h : Runs W s0 s) (x1 x2) :
    Runs W s0 (State.failQuery s x1 x2) := by
  unfold State.failQuery
  try dsimp only
  repeat' first | with_reducible (first | assumption | apply State.abortJobs_runs | apply State.modQuery_runs) | split

theorem State.queryProgress_runs (hmemory : Field.memory ∈ W) (hfabric : Field.fabric ∈ W) (hhost : Field.host ∈ W) (hindex : Field.index ∈ W) (hpipes : Field.pipes ∈ W) (hmedia : Field.media ∈ W) (h : Runs W s0 s) (x1 x2) :
    Runs W s0 (State.queryProgress s x1 x2) := by
  unfold State.queryProgress
  try dsimp only
  repeat' first | with_reducible (first | assumption | apply State.modQuery_runs | apply State.stepTaken_runs | apply State.modBorn_runs | apply State.failQuery_runs | apply State.admitQuery_runs) | split

theorem State.shardAnswer_runs (hspan : Field.span ∈ W) (h : Runs W s0 s) (x1 x2 x3 x4) :
    Runs W s0 (State.shardAnswer s x1 x2 x3 x4) := by
  unfold State.shardAnswer
  try dsimp only
  repeat' first | with_reducible (first | assumption | apply State.spanReply_runs) | split

theorem State.writeGroups_runs (hhostMem : Field.hostMem ∈ W) (hfabric : Field.fabric ∈ W) (hhost : Field.host ∈ W) (htiers : Field.tiers ∈ W) (h : Runs W s0 s) (x1 x2 x3) :
    Runs W s0 (State.writeGroups s x1 x2 x3) := by
  unfold State.writeGroups
  try dsimp only
  repeat' first | with_reducible (first | assumption | apply State.emit_runs | apply State.flagResult_runs | apply State.vendorEnd_runs | refine runs_foldl (fun _ _ _ => ?_) _ ?_) | split

theorem State.dropQuery_runs (htiers : Field.tiers ∈ W) (hsel : Field.sel ∈ W) (hindex : Field.index ∈ W) (hftl : Field.ftl ∈ W) (h : Runs W s0 s) (x1 x2) :
    Runs W s0 (State.dropQuery s x1 x2) := by
  unfold State.dropQuery
  try dsimp only
  repeat' first | with_reducible (first | assumption | apply State.trimBorn_runs | apply State.modIndex_runs | apply State.dropMerge_runs) | split

theorem State.endFailed_runs (hhostMem : Field.hostMem ∈ W) (hfabric : Field.fabric ∈ W) (hhost : Field.host ∈ W) (htiers : Field.tiers ∈ W) (hsel : Field.sel ∈ W) (hindex : Field.index ∈ W) (hftl : Field.ftl ∈ W) (hspan : Field.span ∈ W) (h : Runs W s0 s) (x1 x2 x3) :
    Runs W s0 (State.endFailed s x1 x2 x3) := by
  unfold State.endFailed
  try dsimp only
  repeat' first | with_reducible (first | assumption | apply State.dropQuery_runs | apply State.spanReply_runs | apply State.vendorEnd_runs) | split

theorem State.endQuery_runs (hhostMem : Field.hostMem ∈ W) (hfabric : Field.fabric ∈ W) (hhost : Field.host ∈ W) (htiers : Field.tiers ∈ W) (hsel : Field.sel ∈ W) (hindex : Field.index ∈ W) (hftl : Field.ftl ∈ W) (hspan : Field.span ∈ W) (h : Runs W s0 s) (x1 x2 x3 x4) :
    Runs W s0 (State.endQuery s x1 x2 x3 x4) := by
  unfold State.endQuery
  try dsimp only
  repeat' first | with_reducible (first | assumption | apply State.modBorn_runs | apply State.endFailed_runs | apply State.dropQuery_runs | apply State.shardAnswer_runs | apply State.writeGroups_runs) | split

/-! ## FoldOps -/

theorem placeExtents_runs (hfree : Field.free ∈ W) (hmedia : Field.media ∈ W) (hftl : Field.ftl ∈ W) (h : Runs W s0 s) (x1 x2 x3) :
    OptRuns W s0 Prod.fst (placeExtents x1 x2 x3 s) := by
  fun_induction placeExtents x1 x2 x3 s <;> try rename_i ih
  all_goals try dsimp only
  all_goals repeat' first | with_reducible (first | assumption | apply ih | apply State.commitTogether_runs | apply optRuns_none | refine optRuns_id ?_ | refine optRuns_some ?_ | refine optRuns_map ?_ (fun _ _ => ?_) | refine Runs.of_some_fst (by assumption) ?_) | split

theorem State.foldNoSpace_runs (hfabric : Field.fabric ∈ W) (hamp : Field.amp ∈ W) (hindex : Field.index ∈ W) (h : Runs W s0 s) (x1 x2) :
    Runs W s0 (State.foldNoSpace s x1 x2) := by
  unfold State.foldNoSpace
  try dsimp only
  repeat' first | with_reducible (first | assumption | apply State.modIx_runs | apply State.opDone_runs) | split

theorem reportDropped_runs (hmemory : Field.memory ∈ W) (hfaults : Field.faults ∈ W) (h : Runs W s0 s) (x1 x2) :
    Runs W s0 (reportDropped x1 x2 s) := by
  fun_induction reportDropped x1 x2 s <;> try rename_i ih
  all_goals try dsimp only
  all_goals repeat' first | with_reducible (first | assumption | apply ih | apply State.report_runs) | split

theorem State.foldSwitch_runs (hmemory : Field.memory ∈ W) (hfree : Field.free ∈ W) (hfabric : Field.fabric ∈ W) (hamp : Field.amp ∈ W) (hfaults : Field.faults ∈ W) (htiers : Field.tiers ∈ W) (hindex : Field.index ∈ W) (hmedia : Field.media ∈ W) (hftl : Field.ftl ∈ W) (h : Runs W s0 s) (x1 x2 x3 x4 x5 x6) :
    Runs W s0 (State.foldSwitch s x1 x2 x3 x4 x5 x6) := by
  unfold State.foldSwitch
  try dsimp only
  repeat' first | with_reducible (first | assumption | apply State.foldNoSpace_runs | apply placeExtents_runs | apply State.modIx_runs | apply reportDropped_runs | apply State.opDone_runs | apply State.autoFold_runs | apply State.trimBorn_runs | refine runs_foldl (fun _ _ _ => ?_) _ ?_ | refine Runs.of_some_fst (by assumption) ?_) | split

/-! ## Index -/

theorem fanOut_runs (hspan : Field.span ∈ W) (h : Runs W s0 s) (x1 x2 x3 x4) :
    Runs W s0 (fanOut x1 x2 x3 x4 s) := by
  fun_induction fanOut x1 x2 x3 x4 s <;> try rename_i ih
  all_goals try dsimp only
  all_goals repeat' first | with_reducible (first | assumption | apply ih | apply State.spanSend_runs | refine Runs.of_snd (by assumption) ?_) | split

theorem execIndexQuery_runs (hmemory : Field.memory ∈ W) (hhostMem : Field.hostMem ∈ W) (hfree : Field.free ∈ W) (hfabric : Field.fabric ∈ W) (hhost : Field.host ∈ W) (hcl : Field.cl ∈ W) (htiers : Field.tiers ∈ W) (hsel : Field.sel ∈ W) (hindex : Field.index ∈ W) (hpipes : Field.pipes ∈ W) (hspan : Field.span ∈ W) (h : Runs W s0 s) (x1 x2 x3 x4 x5) :
    Ends W s0 (execIndexQuery x1 x2 x3 x4 x5 s) := by
  unfold execIndexQuery
  try dsimp only
  repeat' first | with_reducible (first | assumption | apply State.vendorRow_runs | apply State.vendorRefuse_runs | apply State.openResult_runs | apply State.admitTag_runs | apply fanOut_runs | apply State.openQuery_runs | rw [ends_next]) | split | (intro _; intros; try dsimp only)

theorem State.commitWrite_runs (hhostMem : Field.hostMem ∈ W) (hfabric : Field.fabric ∈ W) (hhost : Field.host ∈ W) (htiers : Field.tiers ∈ W) (hindex : Field.index ∈ W) (h : Runs W s0 s) (x1 x2 x3 x4 x5 x6) :
    Runs W s0 (State.commitWrite s x1 x2 x3 x4 x5 x6) := by
  unfold State.commitWrite
  try dsimp only
  repeat' first | with_reducible (first | assumption | apply State.vendorEndWith_runs | apply State.commitEntries_runs) | split

theorem indexWrite_runs (hhostMem : Field.hostMem ∈ W) (hfree : Field.free ∈ W) (hfabric : Field.fabric ∈ W) (hhost : Field.host ∈ W) (htiers : Field.tiers ∈ W) (hindex : Field.index ∈ W) (h : Runs W s0 s) (x1 x2 x3) :
    Runs W s0 (indexWrite x1 x2 x3 s) := by
  unfold indexWrite
  try dsimp only
  repeat' first | with_reducible (first | assumption | apply State.vendorRow_runs | apply State.vendorRefuse_runs | apply State.commitWrite_runs | apply State.admitTag_runs | apply State.modIx_runs) | split | (intro _; intros; try dsimp only)

theorem execIndexInsert_runs (hhostMem : Field.hostMem ∈ W) (hfree : Field.free ∈ W) (hfabric : Field.fabric ∈ W) (hhost : Field.host ∈ W) (htiers : Field.tiers ∈ W) (hindex : Field.index ∈ W) (h : Runs W s0 s) (x1 x2) :
    Ends W s0 (execIndexInsert x1 x2 s) := by
  unfold execIndexInsert
  try dsimp only
  repeat' first | with_reducible (first | assumption | apply indexWrite_runs | rw [ends_next]) | split

theorem execIndexDelete_runs (hhostMem : Field.hostMem ∈ W) (hfree : Field.free ∈ W) (hfabric : Field.fabric ∈ W) (hhost : Field.host ∈ W) (htiers : Field.tiers ∈ W) (hindex : Field.index ∈ W) (h : Runs W s0 s) (x1 x2) :
    Ends W s0 (execIndexDelete x1 x2 s) := by
  unfold execIndexDelete
  try dsimp only
  repeat' first | with_reducible (first | assumption | apply indexWrite_runs | rw [ends_next]) | split

theorem State.unwait_runs (hindex : Field.index ∈ W) (h : Runs W s0 s) (x1 x2) :
    Runs W s0 (State.unwait s x1 x2) := by
  unfold State.unwait
  try dsimp only
  repeat' first | with_reducible (first | assumption | apply State.modIx_runs) | split

theorem execIndexWriteRoom_runs (hhostMem : Field.hostMem ∈ W) (hfabric : Field.fabric ∈ W) (hhost : Field.host ∈ W) (htiers : Field.tiers ∈ W) (hindex : Field.index ∈ W) (h : Runs W s0 s) (x1) :
    Ends W s0 (execIndexWriteRoom x1 s) := by
  unfold execIndexWriteRoom
  try dsimp only
  repeat' first | with_reducible (first | assumption | apply State.complete_runs | apply State.unwait_runs | apply State.vendorEnd_runs | apply State.commitWrite_runs | rw [ends_next]) | split

theorem indexCreate_runs (hfree : Field.free ∈ W) (hsec : Field.sec ∈ W) (htiers : Field.tiers ∈ W) (hindex : Field.index ∈ W) (hftl : Field.ftl ∈ W) (h : Runs W s0 s) (x1) :
    Runs W s0 (indexCreate x1 s).1 := by
  unfold indexCreate
  dsimp only
  repeat' first | with_reducible (first | assumption | apply ampRefuse_runs | apply ampAnswer_runs | apply State.drawKey_runs | apply State.modIndex_runs | apply State.modTiers_runs) | split
  exact h.step (by constructor <;> first | rfl | exact .inl (by assumption) | exact .inr rfl | exact .inr ⟨rfl, rfl, rfl⟩) rfl rfl rfl rfl rfl

theorem execIndexCreate_runs (hfree : Field.free ∈ W) (hamp : Field.amp ∈ W) (hsec : Field.sec ∈ W) (htiers : Field.tiers ∈ W) (hindex : Field.index ∈ W) (hftl : Field.ftl ∈ W) (h : Runs W s0 s) (x1) :
    Ends W s0 (execIndexCreate x1 s) := by
  unfold execIndexCreate
  try dsimp only
  repeat' first | with_reducible (first | assumption | apply ampExec_runs | apply indexCreate_runs | rw [ends_next] | refine Runs.of_fst (by assumption) ?_) | split | (intro _; intros; try dsimp only)

theorem State.stopIndexWork_runs (hfabric : Field.fabric ∈ W) (hamp : Field.amp ∈ W) (h : Runs W s0 s) (x1 x2) :
    Runs W s0 (State.stopIndexWork s x1 x2) := by
  unfold State.stopIndexWork
  try dsimp only
  repeat' first | with_reducible (first | assumption | apply State.opDone_runs) | split

theorem endWaiting_runs (hhostMem : Field.hostMem ∈ W) (hfabric : Field.fabric ∈ W) (hhost : Field.host ∈ W) (htiers : Field.tiers ∈ W) (h : Runs W s0 s) (x1 x2) :
    Runs W s0 (endWaiting x1 x2 s) := by
  fun_induction endWaiting x1 x2 s <;> try rename_i ih
  all_goals try dsimp only
  all_goals repeat' first | with_reducible (first | assumption | apply ih | apply State.vendorEnd_runs) | split

theorem State.dropIndex_runs (hhostMem : Field.hostMem ∈ W) (hfabric : Field.fabric ∈ W) (hhost : Field.host ∈ W) (hamp : Field.amp ∈ W) (hsec : Field.sec ∈ W) (htiers : Field.tiers ∈ W) (hindex : Field.index ∈ W) (hftl : Field.ftl ∈ W) (h : Runs W s0 s) (x1 x2) :
    Runs W s0 (State.dropIndex s x1 x2) := by
  unfold State.dropIndex
  try dsimp only
  repeat' first | with_reducible (first | assumption | apply State.stopIndexWork_runs | apply endWaiting_runs | apply State.modIndex_runs | apply State.trimBorn_runs) | refine State.modSec_runs (by assumption) ?_ _ (by simp) (by simp) | split

theorem indexDrop_runs (hhostMem : Field.hostMem ∈ W) (hfabric : Field.fabric ∈ W) (hhost : Field.host ∈ W) (hamp : Field.amp ∈ W) (hsec : Field.sec ∈ W) (htiers : Field.tiers ∈ W) (hindex : Field.index ∈ W) (hftl : Field.ftl ∈ W) (h : Runs W s0 s) (x1) :
    Runs W s0 (indexDrop x1 s).1 := by
  unfold indexDrop
  try dsimp only
  repeat' first | with_reducible (first | assumption | apply ampAnswer_runs | apply State.dropIndex_runs | apply ampRefuse_runs | refine Runs.of_fst (by assumption) ?_) | split

theorem execIndexDrop_runs (hhostMem : Field.hostMem ∈ W) (hfabric : Field.fabric ∈ W) (hhost : Field.host ∈ W) (hamp : Field.amp ∈ W) (hsec : Field.sec ∈ W) (htiers : Field.tiers ∈ W) (hindex : Field.index ∈ W) (hftl : Field.ftl ∈ W) (h : Runs W s0 s) (x1) :
    Ends W s0 (execIndexDrop x1 s) := by
  unfold execIndexDrop
  try dsimp only
  repeat' first | with_reducible (first | assumption | apply ampExec_runs | apply indexDrop_runs | rw [ends_next] | refine Runs.of_fst (by assumption) ?_) | split | (intro _; intros; try dsimp only)

theorem indexTrain_runs (hamp : Field.amp ∈ W) (hindex : Field.index ∈ W) (h : Runs W s0 s) (x1) :
    Runs W s0 (indexTrain x1 s).1 := by
  unfold indexTrain
  try dsimp only
  repeat' first | with_reducible (first | assumption | apply ampRefuse_runs | apply ampLong_runs | apply State.modIx_runs | refine Runs.of_fst (by assumption) ?_) | split | (intro _; intros; try dsimp only)

theorem execIndexTrain_runs (hamp : Field.amp ∈ W) (hindex : Field.index ∈ W) (h : Runs W s0 s) (x1) :
    Ends W s0 (execIndexTrain x1 s) := by
  unfold execIndexTrain
  try dsimp only
  repeat' first | with_reducible (first | assumption | apply ampExec_runs | apply indexTrain_runs | rw [ends_next] | refine Runs.of_fst (by assumption) ?_) | split | (intro _; intros; try dsimp only)

theorem execIndexTrainDone_runs (hmemory : Field.memory ∈ W) (hfabric : Field.fabric ∈ W) (hamp : Field.amp ∈ W) (hfaults : Field.faults ∈ W) (hindex : Field.index ∈ W) (h : Runs W s0 s) (x1 x2) :
    Ends W s0 (execIndexTrainDone x1 x2 s) := by
  unfold execIndexTrainDone
  try dsimp only
  repeat' first | with_reducible (first | assumption | apply State.opDone_runs | apply State.modIx_runs | apply reportLost_runs | rw [ends_next]) | split

theorem indexFold_runs (hfabric : Field.fabric ∈ W) (hamp : Field.amp ∈ W) (hindex : Field.index ∈ W) (h : Runs W s0 s) (x1) :
    Runs W s0 (indexFold x1 s).1 := by
  unfold indexFold
  try dsimp only
  repeat' first | with_reducible (first | assumption | apply ampRefuse_runs | apply ampLong_runs | apply State.modIx_runs | apply State.opDone_runs | refine Runs.of_fst (by assumption) ?_) | split | (intro _; intros; try dsimp only)

theorem execIndexFold_runs (hfabric : Field.fabric ∈ W) (hamp : Field.amp ∈ W) (hindex : Field.index ∈ W) (h : Runs W s0 s) (x1) :
    Ends W s0 (execIndexFold x1 s) := by
  unfold execIndexFold
  try dsimp only
  repeat' first | with_reducible (first | assumption | apply ampExec_runs | apply indexFold_runs | rw [ends_next] | refine Runs.of_fst (by assumption) ?_) | split | (intro _; intros; try dsimp only)

theorem execFoldSwitch_runs (hmemory : Field.memory ∈ W) (hfree : Field.free ∈ W) (hfabric : Field.fabric ∈ W) (hamp : Field.amp ∈ W) (hfaults : Field.faults ∈ W) (htiers : Field.tiers ∈ W) (hindex : Field.index ∈ W) (hmedia : Field.media ∈ W) (hftl : Field.ftl ∈ W) (h : Runs W s0 s) (x1 x2 x3) :
    Ends W s0 (execFoldSwitch x1 x2 x3 s) := by
  unfold execFoldSwitch
  try dsimp only
  repeat' first | with_reducible (first | assumption | apply State.foldSwitch_runs | rw [ends_next]) | split

theorem indexBind_runs (hindex : Field.index ∈ W) (h : Runs W s0 s) (x1) :
    Runs W s0 (indexBind x1 s).1 := by
  unfold indexBind
  try dsimp only
  repeat' first | with_reducible (first | assumption | apply ampRefuse_runs | apply ampAnswer_runs | apply State.modIndex_runs | refine Runs.of_fst (by assumption) ?_) | split

theorem execIndexBind_runs (hamp : Field.amp ∈ W) (hindex : Field.index ∈ W) (h : Runs W s0 s) (x1) :
    Ends W s0 (execIndexBind x1 s) := by
  unfold execIndexBind
  try dsimp only
  repeat' first | with_reducible (first | assumption | apply ampExec_runs | apply indexBind_runs | rw [ends_next] | refine Runs.of_fst (by assumption) ?_) | split | (intro _; intros; try dsimp only)

theorem State.windowDone_runs (hindex : Field.index ∈ W) (h : Runs W s0 s) :
    Runs W s0 (State.windowDone s) := by
  unfold State.windowDone
  try dsimp only
  repeat' first | with_reducible (first | assumption | apply State.modIndex_runs) | split

theorem State.windowFails_runs (hmemory : Field.memory ∈ W) (hfaults : Field.faults ∈ W) (hindex : Field.index ∈ W) (h : Runs W s0 s) (x1 x2) :
    Runs W s0 (State.windowFails s x1 x2) := by
  unfold State.windowFails
  try dsimp only
  repeat' first | with_reducible (first | assumption | apply State.report_runs | apply State.modIx_runs | apply State.windowDone_runs | apply State.modIndex_runs) | split

theorem State.windowRead_runs (hmemory : Field.memory ∈ W) (hfaults : Field.faults ∈ W) (hindex : Field.index ∈ W) (h : Runs W s0 s) (x1 x2 x3 x4 x5 x6) :
    Runs W s0 (State.windowRead s x1 x2 x3 x4 x5 x6) := by
  unfold State.windowRead
  try dsimp only
  repeat' first | with_reducible (first | assumption | apply State.commitEntries_runs | apply State.forget_runs | apply State.modIx_runs | apply State.windowDone_runs | apply State.windowFails_runs | apply State.modIndex_runs) | split

theorem execIngestWindowProcess_runs (hmemory : Field.memory ∈ W) (hfaults : Field.faults ∈ W) (hindex : Field.index ∈ W) (h : Runs W s0 s) (x1 x2) :
    Ends W s0 (execIngestWindowProcess x1 x2 s) := by
  unfold execIngestWindowProcess
  try dsimp only
  repeat' first | with_reducible (first | assumption | apply State.eraseNext_runs | apply State.windowDone_runs | apply State.windowFails_runs | apply State.windowRead_runs | rw [ends_next]) | split

theorem indexStats_runs  (h : Runs W s0 s) (x1) :
    Runs W s0 (indexStats x1 s).1 := by
  unfold indexStats
  try dsimp only
  repeat' first | with_reducible (first | assumption | apply ampAnswer_runs | apply ampRefuse_runs | refine Runs.of_fst (by assumption) ?_) | split

theorem execIndexStats_runs (hamp : Field.amp ∈ W) (h : Runs W s0 s) (x1) :
    Ends W s0 (execIndexStats x1 s) := by
  unfold execIndexStats
  try dsimp only
  repeat' first | with_reducible (first | assumption | apply ampExec_runs | apply indexStats_runs | rw [ends_next] | refine Runs.of_fst (by assumption) ?_) | split | (intro _; intros; try dsimp only)

/-! ## Pipeline -/

theorem bindUpTo_runs (hpipes : Field.pipes ∈ W) (h : Runs W s0 s) (x1 x2 x3 x4) :
    Runs W s0 (bindUpTo x1 x2 x3 x4 s) := by
  fun_induction bindUpTo x1 x2 x3 x4 s <;> try rename_i ih
  all_goals try dsimp only
  all_goals repeat' first | with_reducible (first | assumption | apply ih | apply State.modPipe_runs) | split

theorem execCpJobTailWrite_runs (hpipes : Field.pipes ∈ W) (h : Runs W s0 s) (x1 x2 x3) :
    Ends W s0 (execCpJobTailWrite x1 x2 x3 s) := by
  unfold execCpJobTailWrite
  try dsimp only
  repeat' first | with_reducible (first | assumption | apply bindUpTo_runs | rw [ends_next]) | split

theorem execCpCmplHeadWrite_runs (hpipes : Field.pipes ∈ W) (h : Runs W s0 s) (x1 x2) :
    Ends W s0 (execCpCmplHeadWrite x1 x2 s) := by
  unfold execCpCmplHeadWrite
  try dsimp only
  repeat' first | with_reducible (first | assumption | apply State.modPipe_runs | rw [ends_next]) | split

theorem execAbortJob_runs (hfabric : Field.fabric ∈ W) (hpipes : Field.pipes ∈ W) (hmedia : Field.media ∈ W) (h : Runs W s0 s) (x1) :
    Ends W s0 (execAbortJob x1 s) := by
  unfold execAbortJob
  try dsimp only
  repeat' first | with_reducible (first | assumption | apply State.pump_runs | apply State.cutJob_runs | rw [ends_next]) | split

theorem execCpEnable_runs (hpipes : Field.pipes ∈ W) (h : Runs W s0 s) (x1 x2) :
    Ends W s0 (execCpEnable x1 x2 s) := by
  unfold execCpEnable
  try dsimp only
  repeat' first | with_reducible (first | assumption | apply State.modPipe_runs | rw [ends_next]) | split

theorem State.beginJob_runs (hmemory : Field.memory ∈ W) (hfabric : Field.fabric ∈ W) (hfaults : Field.faults ∈ W) (hpipes : Field.pipes ∈ W) (hmedia : Field.media ∈ W) (h : Runs W s0 s) (x1 x2) :
    Runs W s0 (State.beginJob s x1 x2) := by
  unfold State.beginJob
  try dsimp only
  repeat' first | with_reducible (first | assumption | apply State.modPipe_runs | apply State.cutJob_runs | apply State.advance_runs) | split

theorem State.startJob_runs (hmemory : Field.memory ∈ W) (hfabric : Field.fabric ∈ W) (hfaults : Field.faults ∈ W) (hpipes : Field.pipes ∈ W) (hmedia : Field.media ∈ W) (h : Runs W s0 s) (x1 x2) :
    Runs W s0 (State.startJob s x1 x2) := by
  unfold State.startJob
  try dsimp only
  repeat' first | with_reducible (first | assumption | apply State.modPipe_runs | apply State.beginJob_runs) | split

theorem execChannelJobStart_runs (hmemory : Field.memory ∈ W) (hfabric : Field.fabric ∈ W) (hfaults : Field.faults ∈ W) (hpipes : Field.pipes ∈ W) (hmedia : Field.media ∈ W) (h : Runs W s0 s) (x1) :
    Ends W s0 (execChannelJobStart x1 s) := by
  unfold execChannelJobStart
  try dsimp only
  repeat' first | with_reducible (first | assumption | apply State.modPipe_runs | apply State.startJob_runs | apply State.advance_runs | rw [ends_next]) | split

theorem execS6TableLoadDone_runs (hmemory : Field.memory ∈ W) (hfabric : Field.fabric ∈ W) (hfaults : Field.faults ∈ W) (hpipes : Field.pipes ∈ W) (hmedia : Field.media ∈ W) (h : Runs W s0 s) (x1) :
    Ends W s0 (execS6TableLoadDone x1 s) := by
  unfold execS6TableLoadDone
  try dsimp only
  repeat' first | with_reducible (first | assumption | apply State.advance_runs | apply State.modRun_runs | apply State.modPipe_runs | rw [ends_next]) | split

theorem execS8ThresholdFeedback_runs (hpipes : Field.pipes ∈ W) (h : Runs W s0 s) (x1 x2) :
    Ends W s0 (execS8ThresholdFeedback x1 x2 s) := by
  unfold execS8ThresholdFeedback
  try dsimp only
  repeat' first | with_reducible (first | assumption | apply State.modRun_runs | rw [ends_next]) | split

theorem execCqFreeVisible_runs (hmemory : Field.memory ∈ W) (hfabric : Field.fabric ∈ W) (hfaults : Field.faults ∈ W) (hpipes : Field.pipes ∈ W) (hmedia : Field.media ∈ W) (h : Runs W s0 s) (x1) :
    Ends W s0 (execCqFreeVisible x1 s) := by
  unfold execCqFreeVisible
  try dsimp only
  repeat' first | with_reducible (first | assumption | apply State.modXq_runs | apply State.advance_runs | apply State.pump_runs | rw [ends_next]) | split

theorem State.takeCompletion_runs (hmemory : Field.memory ∈ W) (hfabric : Field.fabric ∈ W) (hhost : Field.host ∈ W) (hsel : Field.sel ∈ W) (hindex : Field.index ∈ W) (hpipes : Field.pipes ∈ W) (hmedia : Field.media ∈ W) (h : Runs W s0 s) (x1) :
    Runs W s0 (State.takeCompletion s x1) := by
  unfold State.takeCompletion
  try dsimp only
  repeat' first | with_reducible (first | assumption | apply State.mergeJobDone_runs | apply State.scanProgress_runs | apply State.queryProgress_runs) | split

theorem State.promote_runs (hmemory : Field.memory ∈ W) (hfabric : Field.fabric ∈ W) (hfaults : Field.faults ∈ W) (hpipes : Field.pipes ∈ W) (hmedia : Field.media ∈ W) (h : Runs W s0 s) (x1) :
    Runs W s0 (State.promote s x1) := by
  unfold State.promote
  try dsimp only
  repeat' first | with_reducible (first | assumption | apply State.beginJob_runs | apply State.modPipe_runs) | split

theorem State.postJob_runs (hmemory : Field.memory ∈ W) (hfabric : Field.fabric ∈ W) (hhost : Field.host ∈ W) (hfaults : Field.faults ∈ W) (hsel : Field.sel ∈ W) (hindex : Field.index ∈ W) (hpipes : Field.pipes ∈ W) (hmedia : Field.media ∈ W) (h : Runs W s0 s) (x1 x2) :
    Runs W s0 (State.postJob s x1 x2) := by
  unfold State.postJob
  try dsimp only
  repeat' first | with_reducible (first | assumption | apply State.modXq_runs | apply State.writeMem_runs | apply State.modPipe_runs | apply State.promote_runs | apply State.takeCompletion_runs) | split

theorem State.finishJob_runs (hmemory : Field.memory ∈ W) (hfabric : Field.fabric ∈ W) (hhost : Field.host ∈ W) (hfaults : Field.faults ∈ W) (hsel : Field.sel ∈ W) (hindex : Field.index ∈ W) (hpipes : Field.pipes ∈ W) (hmedia : Field.media ∈ W) (h : Runs W s0 s) (x1) :
    Runs W s0 (State.finishJob s x1) := by
  unfold State.finishJob
  try dsimp only
  repeat' first | with_reducible (first | assumption | apply State.postJob_runs) | split

theorem execChannelJobComplete_runs (hmemory : Field.memory ∈ W) (hfabric : Field.fabric ∈ W) (hhost : Field.host ∈ W) (hfaults : Field.faults ∈ W) (hsel : Field.sel ∈ W) (hindex : Field.index ∈ W) (hpipes : Field.pipes ∈ W) (hmedia : Field.media ∈ W) (h : Runs W s0 s) (x1 x2) :
    Ends W s0 (execChannelJobComplete x1 x2 s) := by
  unfold execChannelJobComplete
  try dsimp only
  repeat' first | with_reducible (first | assumption | apply State.jobFault_runs | apply State.finishJob_runs | rw [ends_next]) | split

theorem execCqWrite_runs (hmemory : Field.memory ∈ W) (hfabric : Field.fabric ∈ W) (hfaults : Field.faults ∈ W) (hpipes : Field.pipes ∈ W) (hmedia : Field.media ∈ W) (h : Runs W s0 s) (x1 x2 x3 x4) :
    Ends W s0 (execCqWrite x1 x2 x3 x4 s) := by
  unfold execCqWrite
  try dsimp only
  repeat' first | with_reducible (first | assumption | apply State.resetXq_runs | apply State.modChannelOf_runs | apply State.modXq_runs | apply State.jobFault_runs | rw [ends_next]) | split

theorem execSeamJob_runs (hmemory : Field.memory ∈ W) (hpipes : Field.pipes ∈ W) (h : Runs W s0 s) (x1 x2 x3 x4) :
    Ends W s0 (execSeamJob x1 x2 x3 x4 s) := by
  unfold execSeamJob
  try dsimp only
  repeat' first | with_reducible (first | assumption | apply State.poisonWord_runs | apply State.writeMem_runs | apply State.admitJob_runs | apply State.modScan_runs | refine runs_foldl (fun _ _ _ => ?_) _ ?_ | rw [ends_next]) | split

theorem State.startScan_runs (hmemory : Field.memory ∈ W) (hhostMem : Field.hostMem ∈ W) (hhost : Field.host ∈ W) (hsel : Field.sel ∈ W) (hpipes : Field.pipes ∈ W) (h : Runs W s0 s) (x1 x2 x3 x4 x5) :
    Runs W s0 (State.startScan s x1 x2 x3 x4 x5) := by
  unfold State.startScan
  try dsimp only
  repeat' first | with_reducible (first | assumption | apply State.writeMem_runs | apply putPages_runs | apply State.openMerge_runs | apply State.openResult_runs | apply State.admitTag_runs | apply State.admitScan_runs | apply State.modPipes_runs | refine runs_foldl (fun _ _ _ => ?_) _ ?_) | split

theorem execScan_runs (hmemory : Field.memory ∈ W) (hhostMem : Field.hostMem ∈ W) (hfree : Field.free ∈ W) (hfabric : Field.fabric ∈ W) (hhost : Field.host ∈ W) (htiers : Field.tiers ∈ W) (hsel : Field.sel ∈ W) (hpipes : Field.pipes ∈ W) (h : Runs W s0 s) (x1 x2 x3 x4) :
    Ends W s0 (execScan x1 x2 x3 x4 s) := by
  unfold execScan
  try dsimp only
  repeat' first | with_reducible (first | assumption | apply State.vendorRow_runs | apply State.vendorRefuse_runs | apply State.startScan_runs | rw [ends_next]) | split | (intro _; intros; try dsimp only)

theorem cpRegWrite_runs (hpipes : Field.pipes ∈ W) (h : Runs W s0 s) (x1 x2 x3) :
    Runs W s0 (cpRegWrite x1 x2 x3 s) := by
  unfold cpRegWrite
  try dsimp only
  repeat' first | with_reducible (first | assumption | apply State.modPipe_runs) | split

/-! ## Merge -/

theorem execMergeInstanceOpen_runs (hanswer : Field.answer ∈ W) (hsel : Field.sel ∈ W) (h : Runs W s0 s) (x1 x2) :
    Ends W s0 (execMergeInstanceOpen x1 x2 s) := by
  unfold execMergeInstanceOpen
  try dsimp only
  repeat' first | with_reducible (first | assumption | apply State.reply_runs | apply State.openMerge_runs | rw [ends_next]) | split

theorem State.channelEntry_runs (hmemory : Field.memory ∈ W) (hhostMem : Field.hostMem ∈ W) (hfabric : Field.fabric ∈ W) (hhost : Field.host ∈ W) (hcl : Field.cl ∈ W) (hsel : Field.sel ∈ W) (hpipes : Field.pipes ∈ W) (hmedia : Field.media ∈ W) (h : Runs W s0 s) (x1) :
    Runs W s0 (State.channelEntry s x1) := by
  unfold State.channelEntry
  try dsimp only
  repeat' first | with_reducible (first | assumption | apply State.modPipe_runs | apply State.scanRecord_runs | apply State.modMerge_runs | apply State.mergeTo_runs) | split

theorem State.streamEntry_runs (hmemory : Field.memory ∈ W) (hanswer : Field.answer ∈ W) (hcl : Field.cl ∈ W) (hsel : Field.sel ∈ W) (h : Runs W s0 s) (x1 x2 x3) :
    Runs W s0 (State.streamEntry s x1 x2 x3) := by
  unfold State.streamEntry
  try dsimp only
  repeat' first | with_reducible (first | assumption | apply State.reply_runs | apply State.modMerge_runs | apply State.mergeArrive_runs) | split

theorem execMergeEntryArrival_runs (hmemory : Field.memory ∈ W) (hhostMem : Field.hostMem ∈ W) (hanswer : Field.answer ∈ W) (hfabric : Field.fabric ∈ W) (hhost : Field.host ∈ W) (hcl : Field.cl ∈ W) (hsel : Field.sel ∈ W) (hpipes : Field.pipes ∈ W) (hmedia : Field.media ∈ W) (h : Runs W s0 s) (x1) :
    Ends W s0 (execMergeEntryArrival x1 s) := by
  unfold execMergeEntryArrival
  try dsimp only
  repeat' first | with_reducible (first | assumption | apply State.channelEntry_runs | apply State.streamEntry_runs | rw [ends_next]) | split

theorem execMergeInstanceClose_runs (hhostMem : Field.hostMem ∈ W) (hanswer : Field.answer ∈ W) (hfabric : Field.fabric ∈ W) (hhost : Field.host ∈ W) (hamp : Field.amp ∈ W) (hcl : Field.cl ∈ W) (htiers : Field.tiers ∈ W) (hsel : Field.sel ∈ W) (hindex : Field.index ∈ W) (hpipes : Field.pipes ∈ W) (hftl : Field.ftl ∈ W) (hspan : Field.span ∈ W) (h : Runs W s0 s) (x1 x2) :
    Ends W s0 (execMergeInstanceClose x1 x2 s) := by
  unfold execMergeInstanceClose
  try dsimp only
  repeat' first | with_reducible (first | assumption | apply State.endScan_runs | apply State.endFailed_runs | apply State.endQuery_runs | apply State.reply_runs | apply State.dropMerge_runs | rw [ends_next]) | split

end Sys2Proof.Machine
end

