-- ==== Sys2Proof/Laws/RunsSpan.lean ====
section
/-! SUPPORT. What running the span links keeps: one lemma per operation. -/

namespace Sys2Proof.Machine

variable {W : List Field} {s0 s : State}

/-! ## SpanMsg -/

theorem State.modSaved_runs (hsched : Field.sched ∈ W) (h : Runs W s0 s) (x1 x2 x3) :
    Runs W s0 (State.modSaved s x1 x2 x3) := by
  unfold State.modSaved
  try dsimp only
  repeat' first | with_reducible (first | assumption | apply State.modWaiting_runs) | split

theorem State.writeImage_runs (hmemory : Field.memory ∈ W) (h : Runs W s0 s) (x1 x2 x3 x4) :
    Runs W s0 (State.writeImage s x1 x2 x3 x4) := by
  unfold State.writeImage
  try dsimp only
  repeat' first | with_reducible (first | assumption | apply State.writeMem_runs | refine runs_foldl (fun _ _ _ => ?_) _ ?_) | split

theorem State.takeTile_runs (hmemory : Field.memory ∈ W) (hcl : Field.cl ∈ W) (hsched : Field.sched ∈ W) (h : Runs W s0 s) (x1) :
    OptRuns W s0 id (State.takeTile s x1) := by
  unfold State.takeTile
  try dsimp only
  repeat' first | with_reducible (first | assumption | apply State.modSaved_runs | apply State.writeImage_runs | apply State.modCl_runs | apply State.store_runs | refine runs_foldl (fun _ _ _ => ?_) _ ?_ | apply optRuns_none | refine optRuns_id ?_ | refine optRuns_some ?_ | refine optRuns_map ?_ (fun _ _ => ?_)) | split

theorem State.blockSent_runs (hmemory : Field.memory ∈ W) (hhostMem : Field.hostMem ∈ W) (hfree : Field.free ∈ W) (hfabric : Field.fabric ∈ W) (hhost : Field.host ∈ W) (hamp : Field.amp ∈ W) (hcl : Field.cl ∈ W) (hsched : Field.sched ∈ W) (htiers : Field.tiers ∈ W) (htokens : Field.tokens ∈ W) (h : Runs W s0 s) (x1 x2 x3) :
    Runs W s0 (State.blockSent s x1 x2 x3) := by
  unfold State.blockSent
  try dsimp only
  repeat' first | with_reducible (first | assumption | apply State.chainAdvance_runs) | split

theorem State.blockFails_runs (hmemory : Field.memory ∈ W) (hhostMem : Field.hostMem ∈ W) (hfree : Field.free ∈ W) (hfabric : Field.fabric ∈ W) (hhost : Field.host ∈ W) (hamp : Field.amp ∈ W) (hcl : Field.cl ∈ W) (hsched : Field.sched ∈ W) (htiers : Field.tiers ∈ W) (htokens : Field.tokens ∈ W) (h : Runs W s0 s) (x1 x2 x3 x4) :
    Runs W s0 (State.blockFails s x1 x2 x3 x4) := by
  unfold State.blockFails
  try dsimp only
  repeat' first | with_reducible (first | assumption | apply State.mxuFault_runs) | split

theorem State.endRead_runs (hmemory : Field.memory ∈ W) (hcl : Field.cl ∈ W) (hsched : Field.sched ∈ W) (hspan : Field.span ∈ W) (h : Runs W s0 s) (x1 x2 x3) :
    Runs W s0 (State.endRead s x1 x2 x3) := by
  unfold State.endRead
  try dsimp only
  repeat' first | with_reducible (first | assumption | apply State.modSpan_runs | apply State.store_runs | apply State.postSlot_runs) | split

theorem State.serveRead_runs (hmemory : Field.memory ∈ W) (hfaults : Field.faults ∈ W) (hspan : Field.span ∈ W) (h : Runs W s0 s) (x1 x2 x3) :
    Runs W s0 (State.serveRead s x1 x2 x3) := by
  unfold State.serveRead
  try dsimp only
  repeat' first | with_reducible (first | assumption | apply State.spanReply_runs | apply reportLost_runs) | split

theorem State.shardStream_runs (hmemory : Field.memory ∈ W) (hcl : Field.cl ∈ W) (hsel : Field.sel ∈ W) (hindex : Field.index ∈ W) (h : Runs W s0 s) (x1 x2 x3) :
    Runs W s0 (State.shardStream s x1 x2 x3) := by
  unfold State.shardStream
  try dsimp only
  repeat' first | with_reducible (first | assumption | apply State.modQuery_runs | apply State.mergeArrive_runs | refine runs_foldl (fun _ _ _ => ?_) _ ?_) | split

theorem State.messageFails_runs (hmemory : Field.memory ∈ W) (hhostMem : Field.hostMem ∈ W) (hfree : Field.free ∈ W) (hfabric : Field.fabric ∈ W) (hhost : Field.host ∈ W) (hamp : Field.amp ∈ W) (hcl : Field.cl ∈ W) (hsched : Field.sched ∈ W) (htiers : Field.tiers ∈ W) (htokens : Field.tokens ∈ W) (hindex : Field.index ∈ W) (hpipes : Field.pipes ∈ W) (hmedia : Field.media ∈ W) (hspan : Field.span ∈ W) (h : Runs W s0 s) (x1 x2) :
    Runs W s0 (State.messageFails s x1 x2) := by
  unfold State.messageFails
  try dsimp only
  repeat' first | with_reducible (first | assumption | apply State.blockFails_runs | apply State.failQuery_runs | apply State.endRead_runs) | split

theorem failMessages_runs (hmemory : Field.memory ∈ W) (hhostMem : Field.hostMem ∈ W) (hfree : Field.free ∈ W) (hfabric : Field.fabric ∈ W) (hhost : Field.host ∈ W) (hamp : Field.amp ∈ W) (hcl : Field.cl ∈ W) (hsched : Field.sched ∈ W) (htiers : Field.tiers ∈ W) (htokens : Field.tokens ∈ W) (hindex : Field.index ∈ W) (hpipes : Field.pipes ∈ W) (hmedia : Field.media ∈ W) (hspan : Field.span ∈ W) (h : Runs W s0 s) (x1 x2) :
    Runs W s0 (failMessages x1 x2 s) := by
  fun_induction failMessages x1 x2 s <;> try rename_i ih
  all_goals try dsimp only
  all_goals repeat' first | with_reducible (first | assumption | apply ih | apply State.messageFails_runs) | split

theorem State.messageEnds_runs (hmemory : Field.memory ∈ W) (hhostMem : Field.hostMem ∈ W) (hfree : Field.free ∈ W) (hfabric : Field.fabric ∈ W) (hhost : Field.host ∈ W) (hamp : Field.amp ∈ W) (hcl : Field.cl ∈ W) (hsched : Field.sched ∈ W) (htiers : Field.tiers ∈ W) (htokens : Field.tokens ∈ W) (h : Runs W s0 s) (x1) :
    Runs W s0 (State.messageEnds s x1) := by
  unfold State.messageEnds
  try dsimp only
  repeat' first | with_reducible (first | assumption | apply State.blockSent_runs) | split

theorem State.endMessages_runs (hmemory : Field.memory ∈ W) (hhostMem : Field.hostMem ∈ W) (hfree : Field.free ∈ W) (hfabric : Field.fabric ∈ W) (hhost : Field.host ∈ W) (hamp : Field.amp ∈ W) (hcl : Field.cl ∈ W) (hsched : Field.sched ∈ W) (htiers : Field.tiers ∈ W) (htokens : Field.tokens ∈ W) (hspan : Field.span ∈ W) (h : Runs W s0 s) (x1) :
    Runs W s0 (State.endMessages s x1) := by
  unfold State.endMessages
  try dsimp only
  repeat' first | with_reducible (first | assumption | apply State.modPeer_runs | apply State.messageEnds_runs | refine runs_foldl (fun _ _ _ => ?_) _ ?_) | split

theorem State.failAskers_runs (hindex : Field.index ∈ W) (h : Runs W s0 s) (x1) :
    Runs W s0 (State.failAskers s x1) := by
  unfold State.failAskers
  try dsimp only
  repeat' first | with_reducible (first | assumption | apply State.modIndex_runs) | split

theorem State.failPeer_runs (hmemory : Field.memory ∈ W) (hhostMem : Field.hostMem ∈ W) (hfree : Field.free ∈ W) (hfabric : Field.fabric ∈ W) (hhost : Field.host ∈ W) (hamp : Field.amp ∈ W) (hcl : Field.cl ∈ W) (hsched : Field.sched ∈ W) (htiers : Field.tiers ∈ W) (htokens : Field.tokens ∈ W) (hindex : Field.index ∈ W) (hpipes : Field.pipes ∈ W) (hmedia : Field.media ∈ W) (hspan : Field.span ∈ W) (h : Runs W s0 s) (x1 x2 x3) :
    Runs W s0 (State.failPeer s x1 x2 x3) := by
  unfold State.failPeer
  try dsimp only
  repeat' first | with_reducible (first | assumption | apply State.modPeer_runs | apply State.setPeerState_runs | apply State.failAskers_runs | apply failMessages_runs) | split

theorem State.moveFrames_runs (hspan : Field.span ∈ W) (h : Runs W s0 s) (x1 x2) :
    Runs W s0 (State.moveFrames s x1 x2) := by
  unfold State.moveFrames
  try dsimp only
  repeat' first | with_reducible (first | assumption | apply State.sendFrame_runs | refine runs_foldl (fun _ _ _ => ?_) _ ?_) | split

theorem State.losePath_runs (hfabric : Field.fabric ∈ W) (hamp : Field.amp ∈ W) (hspan : Field.span ∈ W) (h : Runs W s0 s) (x1 x2) :
    Runs W s0 (State.losePath s x1 x2) := by
  unfold State.losePath
  try dsimp only
  repeat' first | with_reducible (first | assumption | apply State.modPeer_runs | apply State.moveFrames_runs | apply State.peerEvent_runs) | split

theorem State.losePaths_runs (hfabric : Field.fabric ∈ W) (hamp : Field.amp ∈ W) (hspan : Field.span ∈ W) (h : Runs W s0 s) (x1) :
    Runs W s0 (State.losePaths s x1) := by
  unfold State.losePaths
  try dsimp only
  repeat' first | with_reducible (first | assumption | apply State.losePath_runs | refine runs_foldl (fun _ _ _ => ?_) _ ?_) | split

theorem State.badFrame_runs (hmemory : Field.memory ∈ W) (hhostMem : Field.hostMem ∈ W) (hfree : Field.free ∈ W) (hfabric : Field.fabric ∈ W) (hhost : Field.host ∈ W) (hamp : Field.amp ∈ W) (hcl : Field.cl ∈ W) (hsched : Field.sched ∈ W) (htiers : Field.tiers ∈ W) (htokens : Field.tokens ∈ W) (hindex : Field.index ∈ W) (hpipes : Field.pipes ∈ W) (hmedia : Field.media ∈ W) (hspan : Field.span ∈ W) (h : Runs W s0 s) (x1 x2) :
    Runs W s0 (State.badFrame s x1 x2) := by
  unfold State.badFrame
  try dsimp only
  repeat' first | with_reducible (first | assumption | apply State.modPeer_runs | apply State.failPeer_runs) | split

theorem State.takeAck_runs (hmemory : Field.memory ∈ W) (hhostMem : Field.hostMem ∈ W) (hfree : Field.free ∈ W) (hfabric : Field.fabric ∈ W) (hhost : Field.host ∈ W) (hamp : Field.amp ∈ W) (hcl : Field.cl ∈ W) (hsched : Field.sched ∈ W) (htiers : Field.tiers ∈ W) (htokens : Field.tokens ∈ W) (hindex : Field.index ∈ W) (hpipes : Field.pipes ∈ W) (hmedia : Field.media ∈ W) (hspan : Field.span ∈ W) (h : Runs W s0 s) (x1 x2 x3) :
    Runs W s0 (State.takeAck s x1 x2 x3) := by
  unfold State.takeAck
  try dsimp only
  repeat' first | with_reducible (first | assumption | apply State.modPeer_runs | apply State.failPeer_runs | apply State.setPeerState_runs | apply State.sendAllowed_runs | apply State.endMessages_runs) | split

theorem State.takeReply_runs (hmemory : Field.memory ∈ W) (hhostMem : Field.hostMem ∈ W) (hfree : Field.free ∈ W) (hfabric : Field.fabric ∈ W) (hhost : Field.host ∈ W) (hamp : Field.amp ∈ W) (hcl : Field.cl ∈ W) (hsched : Field.sched ∈ W) (htiers : Field.tiers ∈ W) (htokens : Field.tokens ∈ W) (hsel : Field.sel ∈ W) (hindex : Field.index ∈ W) (hpipes : Field.pipes ∈ W) (hmedia : Field.media ∈ W) (hspan : Field.span ∈ W) (h : Runs W s0 s) (x1 x2) :
    Runs W s0 (State.takeReply s x1 x2) := by
  unfold State.takeReply
  try dsimp only
  repeat' first | with_reducible (first | assumption | apply State.modPeer_runs | apply State.messageFails_runs | apply State.shardStream_runs | apply State.endRead_runs) | split

theorem State.takeQuery_runs (hmemory : Field.memory ∈ W) (hcl : Field.cl ∈ W) (hsel : Field.sel ∈ W) (hindex : Field.index ∈ W) (hpipes : Field.pipes ∈ W) (hspan : Field.span ∈ W) (h : Runs W s0 s) (x1 x2 x3 x4 x5) :
    Runs W s0 (State.takeQuery s x1 x2 x3 x4 x5) := by
  unfold State.takeQuery
  try dsimp only
  repeat' first | with_reducible (first | assumption | apply State.spanReply_runs | apply State.openQuery_runs) | split

theorem State.takeMessage_runs (hmemory : Field.memory ∈ W) (hhostMem : Field.hostMem ∈ W) (hfree : Field.free ∈ W) (hfabric : Field.fabric ∈ W) (hhost : Field.host ∈ W) (hamp : Field.amp ∈ W) (hfaults : Field.faults ∈ W) (hcl : Field.cl ∈ W) (hsched : Field.sched ∈ W) (htiers : Field.tiers ∈ W) (htokens : Field.tokens ∈ W) (hsel : Field.sel ∈ W) (hindex : Field.index ∈ W) (hpipes : Field.pipes ∈ W) (hmedia : Field.media ∈ W) (hspan : Field.span ∈ W) (h : Runs W s0 s) (x1 x2 x3 x4 x5 x6) :
    OptRuns W s0 id (State.takeMessage s x1 x2 x3 x4 x5 x6) := by
  unfold State.takeMessage
  try dsimp only
  repeat' first | with_reducible (first | assumption | apply State.takeTile_runs | apply State.spanReply_runs | apply State.takeQuery_runs | apply State.serveRead_runs | apply State.takeReply_runs | apply optRuns_none | refine optRuns_id ?_ | refine optRuns_some ?_ | refine optRuns_map ?_ (fun _ _ => ?_) | refine Runs.of_some (by assumption) ?_) | split

theorem State.takeFrame_runs (hmemory : Field.memory ∈ W) (hhostMem : Field.hostMem ∈ W) (hfree : Field.free ∈ W) (hfabric : Field.fabric ∈ W) (hhost : Field.host ∈ W) (hamp : Field.amp ∈ W) (hfaults : Field.faults ∈ W) (hcl : Field.cl ∈ W) (hsched : Field.sched ∈ W) (htiers : Field.tiers ∈ W) (htokens : Field.tokens ∈ W) (hsel : Field.sel ∈ W) (hindex : Field.index ∈ W) (hpipes : Field.pipes ∈ W) (hmedia : Field.media ∈ W) (hspan : Field.span ∈ W) (h : Runs W s0 s) (x1 x2 x3 x4) :
    OptRuns W s0 id (State.takeFrame s x1 x2 x3 x4) := by
  unfold State.takeFrame
  extract_lets cls f p d next
  have hn : ∀ t, Runs W s0 t → Runs W s0 (next t) := fun t ht => by apply State.modPeer_runs <;> with_reducible assumption
  clear_value next d
  split
  · refine optRuns_map (k := id) (by apply State.takeMessage_runs <;> with_reducible assumption) (fun t (ht : Runs W s0 t) => ?_)
    apply hn
    apply State.modPeer_runs <;> with_reducible assumption
  · refine optRuns_id (hn _ ?_)
    apply State.modPeer_runs <;> with_reducible assumption

theorem takeHeld_runs (hmemory : Field.memory ∈ W) (hhostMem : Field.hostMem ∈ W) (hfree : Field.free ∈ W) (hfabric : Field.fabric ∈ W) (hhost : Field.host ∈ W) (hamp : Field.amp ∈ W) (hfaults : Field.faults ∈ W) (hcl : Field.cl ∈ W) (hsched : Field.sched ∈ W) (htiers : Field.tiers ∈ W) (htokens : Field.tokens ∈ W) (hsel : Field.sel ∈ W) (hindex : Field.index ∈ W) (hpipes : Field.pipes ∈ W) (hmedia : Field.media ∈ W) (hspan : Field.span ∈ W) (h : Runs W s0 s) (x1 x2 x3 x4) :
    Runs W s0 (takeHeld x1 x2 x3 x4 s) := by
  fun_induction takeHeld x1 x2 x3 x4 s <;> try rename_i ih
  all_goals try dsimp only
  all_goals repeat' first | with_reducible (first | assumption | apply ih | apply State.takeFrame_runs | apply State.modPeer_runs | refine Runs.of_some (by assumption) ?_ | refine optRuns_bind_id ?_ (fun _ _ => ?_) | refine optRuns_map_id ?_ (fun _ _ => ?_) | refine optRuns_getD ?_ ?_ | refine optRuns_id ?_ | apply optRuns_none) | split

theorem State.takeData_runs (hmemory : Field.memory ∈ W) (hhostMem : Field.hostMem ∈ W) (hfree : Field.free ∈ W) (hfabric : Field.fabric ∈ W) (hhost : Field.host ∈ W) (hamp : Field.amp ∈ W) (hfaults : Field.faults ∈ W) (hcl : Field.cl ∈ W) (hsched : Field.sched ∈ W) (htiers : Field.tiers ∈ W) (htokens : Field.tokens ∈ W) (hsel : Field.sel ∈ W) (hindex : Field.index ∈ W) (hpipes : Field.pipes ∈ W) (hmedia : Field.media ∈ W) (hspan : Field.span ∈ W) (h : Runs W s0 s) (x1 x2 x3 x4 x5) :
    Runs W s0 (State.takeData s x1 x2 x3 x4 x5) := by
  unfold State.takeData
  try dsimp only
  repeat' first | with_reducible (first | assumption | apply State.sendAck_runs | apply State.failPeer_runs | apply State.takeFrame_runs | apply takeHeld_runs | apply State.modPeer_runs | refine Runs.of_some (by assumption) ?_ | refine optRuns_bind_id ?_ (fun _ _ => ?_) | refine optRuns_map_id ?_ (fun _ _ => ?_) | refine optRuns_getD ?_ ?_ | refine optRuns_id ?_ | apply optRuns_none) | split

/-! ## Span -/

theorem State.sendRemote_runs (hmemory : Field.memory ∈ W) (hhostMem : Field.hostMem ∈ W) (hfree : Field.free ∈ W) (hfabric : Field.fabric ∈ W) (hhost : Field.host ∈ W) (hamp : Field.amp ∈ W) (hcl : Field.cl ∈ W) (hsched : Field.sched ∈ W) (htiers : Field.tiers ∈ W) (htokens : Field.tokens ∈ W) (hspan : Field.span ∈ W) (h : Runs W s0 s) (x1 x2 x3 x4 x5 x6) :
    Runs W s0 (State.sendRemote s x1 x2 x3 x4 x5 x6) := by
  unfold State.sendRemote
  try dsimp only
  repeat' first | with_reducible (first | assumption | apply State.mxuFault_runs | apply State.modCl_runs | apply State.used_runs | apply State.spanSend_runs | refine Runs.of_snd (by assumption) ?_) | split

theorem execChainBlockSend_runs (hmemory : Field.memory ∈ W) (hhostMem : Field.hostMem ∈ W) (hfree : Field.free ∈ W) (hfabric : Field.fabric ∈ W) (hhost : Field.host ∈ W) (hamp : Field.amp ∈ W) (hfaults : Field.faults ∈ W) (hcl : Field.cl ∈ W) (hsched : Field.sched ∈ W) (htiers : Field.tiers ∈ W) (htokens : Field.tokens ∈ W) (hspan : Field.span ∈ W) (h : Runs W s0 s) (x1 x2) :
    Ends W s0 (execChainBlockSend x1 x2 s) := by
  unfold execChainBlockSend
  try dsimp only
  repeat' first | with_reducible (first | assumption | apply State.chainRun_runs | apply State.chainAdvance_runs | apply State.sendRemote_runs | apply State.sendLocal_runs | rw [ends_next]) | split

theorem State.discover_runs (hspan : Field.span ∈ W) (h : Runs W s0 s) (x1 x2) :
    Runs W s0 (State.discover s x1 x2) := by
  unfold State.discover
  try dsimp only
  repeat' first | with_reducible (first | assumption | apply State.wire_runs) | split

theorem State.bringUp_runs (hspan : Field.span ∈ W) (h : Runs W s0 s) (x1 x2) :
    Runs W s0 (State.bringUp s x1 x2) := by
  unfold State.bringUp
  try dsimp only
  repeat' first | with_reducible (first | assumption | apply State.discover_runs | apply State.modPeer_runs) | split

theorem State.bringUpAll_runs (hspan : Field.span ∈ W) (h : Runs W s0 s) (x1) :
    Runs W s0 (State.bringUpAll s x1) := by
  unfold State.bringUpAll
  try dsimp only
  repeat' first | with_reducible (first | assumption | apply State.bringUp_runs | refine runs_foldl (fun _ _ _ => ?_) _ ?_) | split

theorem execSpanPortUp_runs (hfabric : Field.fabric ∈ W) (hamp : Field.amp ∈ W) (hspan : Field.span ∈ W) (h : Runs W s0 s) (x1) :
    Ends W s0 (execSpanPortUp x1 s) := by
  unfold execSpanPortUp
  try dsimp only
  repeat' first | with_reducible (first | assumption | apply State.bringUpAll_runs | apply State.peerEvent_runs | apply State.modPort_runs | rw [ends_next]) | split

theorem State.portDown_runs (hfabric : Field.fabric ∈ W) (hamp : Field.amp ∈ W) (hspan : Field.span ∈ W) (h : Runs W s0 s) (x1 x2) :
    Runs W s0 (State.portDown s x1 x2) := by
  unfold State.portDown
  try dsimp only
  repeat' first | with_reducible (first | assumption | apply State.losePaths_runs | apply State.modPort_runs | apply State.peerEvent_runs) | split

theorem execSpanPortDown_runs (hfabric : Field.fabric ∈ W) (hamp : Field.amp ∈ W) (hspan : Field.span ∈ W) (h : Runs W s0 s) (x1) :
    Ends W s0 (execSpanPortDown x1 s) := by
  unfold execSpanPortDown
  try dsimp only
  repeat' first | with_reducible (first | assumption | apply State.peerEvent_runs | apply State.modPort_runs | apply State.portDown_runs | rw [ends_next]) | split

theorem execSlRetrain_runs (hfabric : Field.fabric ∈ W) (hamp : Field.amp ∈ W) (hspan : Field.span ∈ W) (h : Runs W s0 s) (x1) :
    Ends W s0 (execSlRetrain x1 s) := by
  unfold execSlRetrain
  try dsimp only
  repeat' first | with_reducible (first | assumption | apply State.portDown_runs | rw [ends_next]) | split

theorem State.enablePort_runs (hfabric : Field.fabric ∈ W) (hamp : Field.amp ∈ W) (hspan : Field.span ∈ W) (h : Runs W s0 s) (x1 x2) :
    Runs W s0 (State.enablePort s x1 x2) := by
  unfold State.enablePort
  try dsimp only
  repeat' first | with_reducible (first | assumption | apply State.modPort_runs | apply State.portDown_runs) | split

theorem execSlEnable_runs (hfabric : Field.fabric ∈ W) (hamp : Field.amp ∈ W) (hspan : Field.span ∈ W) (h : Runs W s0 s) (x1 x2) :
    Ends W s0 (execSlEnable x1 x2 s) := by
  unfold execSlEnable
  try dsimp only
  repeat' first | with_reducible (first | assumption | apply State.enablePort_runs | rw [ends_next]) | split

theorem State.ready_runs (hmemory : Field.memory ∈ W) (hhostMem : Field.hostMem ∈ W) (hfree : Field.free ∈ W) (hfabric : Field.fabric ∈ W) (hhost : Field.host ∈ W) (hamp : Field.amp ∈ W) (hcl : Field.cl ∈ W) (hsched : Field.sched ∈ W) (htiers : Field.tiers ∈ W) (htokens : Field.tokens ∈ W) (hindex : Field.index ∈ W) (hpipes : Field.pipes ∈ W) (hmedia : Field.media ∈ W) (hspan : Field.span ∈ W) (h : Runs W s0 s) (x1 x2 x3 x4) :
    Runs W s0 (State.ready s x1 x2 x3 x4) := by
  unfold State.ready
  try dsimp only
  repeat' first | with_reducible (first | assumption | apply failMessages_runs | apply State.failAskers_runs | apply State.modPeer_runs | apply State.sendAllowed_runs | apply State.setPeerState_runs) | split

theorem execOpenFrame_runs (hmemory : Field.memory ∈ W) (hhostMem : Field.hostMem ∈ W) (hfree : Field.free ∈ W) (hfabric : Field.fabric ∈ W) (hhost : Field.host ∈ W) (hamp : Field.amp ∈ W) (hcl : Field.cl ∈ W) (hsched : Field.sched ∈ W) (htiers : Field.tiers ∈ W) (htokens : Field.tokens ∈ W) (hindex : Field.index ∈ W) (hpipes : Field.pipes ∈ W) (hmedia : Field.media ∈ W) (hspan : Field.span ∈ W) (h : Runs W s0 s) (x1 x2 x3) :
    Ends W s0 (execOpenFrame x1 x2 x3 s) := by
  unfold execOpenFrame
  try dsimp only
  repeat' first | with_reducible (first | assumption | apply State.modPort_runs | apply State.bringUp_runs | apply State.failPeer_runs | apply State.ready_runs | rw [ends_next]) | split

theorem execSpdmFrame_runs (hmemory : Field.memory ∈ W) (hhostMem : Field.hostMem ∈ W) (hfree : Field.free ∈ W) (hfabric : Field.fabric ∈ W) (hhost : Field.host ∈ W) (hamp : Field.amp ∈ W) (hcl : Field.cl ∈ W) (hsched : Field.sched ∈ W) (htiers : Field.tiers ∈ W) (htokens : Field.tokens ∈ W) (hindex : Field.index ∈ W) (hpipes : Field.pipes ∈ W) (hmedia : Field.media ∈ W) (hspan : Field.span ∈ W) (h : Runs W s0 s) (x1 x2 x3) :
    Ends W s0 (execSpdmFrame x1 x2 x3 s) := by
  unfold execSpdmFrame
  try dsimp only
  repeat' first | with_reducible (first | assumption | apply State.modPort_runs | apply State.failPeer_runs | apply State.modPeer_runs | apply State.modSpan_runs | apply State.wire_runs | rw [ends_next]) | split

theorem spanFrame_runs (hmemory : Field.memory ∈ W) (hhostMem : Field.hostMem ∈ W) (hfree : Field.free ∈ W) (hfabric : Field.fabric ∈ W) (hhost : Field.host ∈ W) (hamp : Field.amp ∈ W) (hcl : Field.cl ∈ W) (hsched : Field.sched ∈ W) (htiers : Field.tiers ∈ W) (htokens : Field.tokens ∈ W) (hindex : Field.index ∈ W) (hpipes : Field.pipes ∈ W) (hmedia : Field.media ∈ W) (hspan : Field.span ∈ W) (h : Runs W s0 s) (x1 x2 x3 x4) {f}
    (hf : ∀ n t, Runs W s0 t → Runs W s0 (f n t)) :
    Runs W s0 (spanFrame x1 x2 x3 x4 f s) := by
  unfold spanFrame
  try dsimp only
  repeat' first | with_reducible (first | assumption | apply hf | apply State.modSpan_runs | apply State.badFrame_runs | apply State.modPort_runs) | split

theorem execDataFrame_runs (hmemory : Field.memory ∈ W) (hhostMem : Field.hostMem ∈ W) (hfree : Field.free ∈ W) (hfabric : Field.fabric ∈ W) (hhost : Field.host ∈ W) (hamp : Field.amp ∈ W) (hfaults : Field.faults ∈ W) (hcl : Field.cl ∈ W) (hsched : Field.sched ∈ W) (htiers : Field.tiers ∈ W) (htokens : Field.tokens ∈ W) (hsel : Field.sel ∈ W) (hindex : Field.index ∈ W) (hpipes : Field.pipes ∈ W) (hmedia : Field.media ∈ W) (hspan : Field.span ∈ W) (h : Runs W s0 s) (x1 x2 x3 x4 x5) :
    Ends W s0 (execDataFrame x1 x2 x3 x4 x5 s) := by
  unfold execDataFrame
  try dsimp only
  repeat' first | with_reducible (first | assumption | apply spanFrame_runs | apply State.takeData_runs | apply State.takeAck_runs | rw [ends_next]) | split | (intro _; intros; try dsimp only)

theorem execAckFrame_runs (hmemory : Field.memory ∈ W) (hhostMem : Field.hostMem ∈ W) (hfree : Field.free ∈ W) (hfabric : Field.fabric ∈ W) (hhost : Field.host ∈ W) (hamp : Field.amp ∈ W) (hcl : Field.cl ∈ W) (hsched : Field.sched ∈ W) (htiers : Field.tiers ∈ W) (htokens : Field.tokens ∈ W) (hindex : Field.index ∈ W) (hpipes : Field.pipes ∈ W) (hmedia : Field.media ∈ W) (hspan : Field.span ∈ W) (h : Runs W s0 s) (x1 x2 x3) :
    Ends W s0 (execAckFrame x1 x2 x3 s) := by
  unfold execAckFrame
  try dsimp only
  repeat' first | with_reducible (first | assumption | apply spanFrame_runs | apply State.takeAck_runs | rw [ends_next]) | split | (intro _; intros; try dsimp only)

theorem execNakFrame_runs (hmemory : Field.memory ∈ W) (hhostMem : Field.hostMem ∈ W) (hfree : Field.free ∈ W) (hfabric : Field.fabric ∈ W) (hhost : Field.host ∈ W) (hamp : Field.amp ∈ W) (hcl : Field.cl ∈ W) (hsched : Field.sched ∈ W) (htiers : Field.tiers ∈ W) (htokens : Field.tokens ∈ W) (hindex : Field.index ∈ W) (hpipes : Field.pipes ∈ W) (hmedia : Field.media ∈ W) (hspan : Field.span ∈ W) (h : Runs W s0 s) (x1 x2 x3) :
    Ends W s0 (execNakFrame x1 x2 x3 s) := by
  unfold execNakFrame
  try dsimp only
  repeat' first | with_reducible (first | assumption | apply spanFrame_runs | apply State.takeAck_runs | apply State.failPeer_runs | apply State.sendFrame_runs | rw [ends_next]) | split | (intro _; intros; try dsimp only)

theorem execRetransmissionTimeout_runs (hfabric : Field.fabric ∈ W) (hamp : Field.amp ∈ W) (hspan : Field.span ∈ W) (h : Runs W s0 s) (x1 x2) :
    Ends W s0 (execRetransmissionTimeout x1 x2 s) := by
  unfold execRetransmissionTimeout
  try dsimp only
  repeat' first | with_reducible (first | assumption | apply State.modPeer_runs | apply State.losePath_runs | apply State.sendFrame_runs | rw [ends_next]) | split

theorem execGapTimeout_runs (hspan : Field.span ∈ W) (h : Runs W s0 s) (x1) :
    Ends W s0 (execGapTimeout x1 s) := by
  unfold execGapTimeout
  try dsimp only
  repeat' first | with_reducible (first | assumption | apply State.control_runs | apply State.modPeer_runs | rw [ends_next]) | split

theorem execKeepaliveTimer_runs (hspan : Field.span ∈ W) (h : Runs W s0 s) (x1) :
    Ends W s0 (execKeepaliveTimer x1 s) := by
  unfold execKeepaliveTimer
  try dsimp only
  repeat' first | with_reducible (first | assumption | apply State.sendAck_runs | rw [ends_next]) | split

theorem execSlowTimeout_runs (hfabric : Field.fabric ∈ W) (hamp : Field.amp ∈ W) (hspan : Field.span ∈ W) (h : Runs W s0 s) (x1) :
    Ends W s0 (execSlowTimeout x1 s) := by
  unfold execSlowTimeout
  try dsimp only
  repeat' first | with_reducible (first | assumption | apply State.setPeerState_runs | rw [ends_next]) | split

theorem execAbsentTimeout_runs (hmemory : Field.memory ∈ W) (hhostMem : Field.hostMem ∈ W) (hfree : Field.free ∈ W) (hfabric : Field.fabric ∈ W) (hhost : Field.host ∈ W) (hamp : Field.amp ∈ W) (hcl : Field.cl ∈ W) (hsched : Field.sched ∈ W) (htiers : Field.tiers ∈ W) (htokens : Field.tokens ∈ W) (hindex : Field.index ∈ W) (hpipes : Field.pipes ∈ W) (hmedia : Field.media ∈ W) (hspan : Field.span ∈ W) (h : Runs W s0 s) (x1) :
    Ends W s0 (execAbsentTimeout x1 s) := by
  unfold execAbsentTimeout
  try dsimp only
  repeat' first | with_reducible (first | assumption | apply State.failPeer_runs | rw [ends_next]) | split

theorem execBringupTimeout_runs (hmemory : Field.memory ∈ W) (hhostMem : Field.hostMem ∈ W) (hfree : Field.free ∈ W) (hfabric : Field.fabric ∈ W) (hhost : Field.host ∈ W) (hamp : Field.amp ∈ W) (hcl : Field.cl ∈ W) (hsched : Field.sched ∈ W) (htiers : Field.tiers ∈ W) (htokens : Field.tokens ∈ W) (hindex : Field.index ∈ W) (hpipes : Field.pipes ∈ W) (hmedia : Field.media ∈ W) (hspan : Field.span ∈ W) (h : Runs W s0 s) (x1 x2) :
    Ends W s0 (execBringupTimeout x1 x2 s) := by
  unfold execBringupTimeout
  try dsimp only
  repeat' first | with_reducible (first | assumption | apply State.failPeer_runs | rw [ends_next]) | split

theorem State.retry_runs (hspan : Field.span ∈ W) (h : Runs W s0 s) (x1) :
    Runs W s0 (State.retry s x1) := by
  unfold State.retry
  try dsimp only
  repeat' first | with_reducible (first | assumption | apply State.bringUp_runs) | split

theorem execFaultyRetryTimer_runs (hspan : Field.span ∈ W) (h : Runs W s0 s) (x1) :
    Ends W s0 (execFaultyRetryTimer x1 s) := by
  unfold execFaultyRetryTimer
  try dsimp only
  repeat' first | with_reducible (first | assumption | apply State.retry_runs | rw [ends_next]) | split

theorem execRefusedRetryTimer_runs (hspan : Field.span ∈ W) (h : Runs W s0 s) (x1) :
    Ends W s0 (execRefusedRetryTimer x1 s) := by
  unfold execRefusedRetryTimer
  try dsimp only
  repeat' first | with_reducible (first | assumption | apply State.retry_runs | rw [ends_next]) | split

theorem execRekeyTimer_runs (hspan : Field.span ∈ W) (h : Runs W s0 s) (x1) :
    Ends W s0 (execRekeyTimer x1 s) := by
  unfold execRekeyTimer
  try dsimp only
  repeat' first | with_reducible (first | assumption | apply State.modPeer_runs | rw [ends_next]) | split

theorem execOldKeyExpiry_runs (hspan : Field.span ∈ W) (h : Runs W s0 s) (x1) :
    Ends W s0 (execOldKeyExpiry x1 s) := by
  unfold execOldKeyExpiry
  try dsimp only
  repeat' first | with_reducible (first | assumption | apply State.modPeer_runs | rw [ends_next]) | split

theorem execSpanRead_runs (hmemory : Field.memory ∈ W) (hanswer : Field.answer ∈ W) (hcl : Field.cl ∈ W) (hsched : Field.sched ∈ W) (hspan : Field.span ∈ W) (h : Runs W s0 s) (x1 x2 x3 x4 x5 x6 x7) :
    Ends W s0 (execSpanRead x1 x2 x3 x4 x5 x6 x7 s) := by
  unfold execSpanRead
  try dsimp only
  repeat' first | with_reducible (first | assumption | apply State.ecallEnds_runs | apply State.modSpan_runs | apply State.spanSend_runs | apply State.endRead_runs | rw [ends_next] | refine Runs.of_snd (by assumption) ?_) | split

theorem spanConfig_runs (hfabric : Field.fabric ∈ W) (hamp : Field.amp ∈ W) (hspan : Field.span ∈ W) (h : Runs W s0 s) (x1) :
    Runs W s0 (spanConfig x1 s).1 := by
  unfold spanConfig
  try dsimp only
  repeat' first | with_reducible (first | assumption | apply ampRefuse_runs | apply State.modSpan_runs | apply State.portDown_runs | apply State.enablePort_runs | apply ampAnswer_runs | refine Runs.of_fst (by assumption) ?_) | split

theorem execSpanConfig_runs (hfabric : Field.fabric ∈ W) (hamp : Field.amp ∈ W) (hspan : Field.span ∈ W) (h : Runs W s0 s) (x1) :
    Ends W s0 (execSpanConfig x1 s) := by
  unfold execSpanConfig
  try dsimp only
  repeat' first | with_reducible (first | assumption | apply ampExec_runs | apply spanConfig_runs | rw [ends_next] | refine Runs.of_fst (by assumption) ?_) | split | (intro _; intros; try dsimp only)

theorem execSpanStatus_runs (hamp : Field.amp ∈ W) (h : Runs W s0 s) (x1) :
    Ends W s0 (execSpanStatus x1 s) := by
  unfold execSpanStatus
  try dsimp only
  repeat' first | with_reducible (first | assumption | apply ampExec_runs | apply ampAnswer_runs | rw [ends_next] | refine Runs.of_fst (by assumption) ?_) | split | (intro _; intros; try dsimp only)

theorem spanPeerSet_runs (hmemory : Field.memory ∈ W) (hhostMem : Field.hostMem ∈ W) (hfree : Field.free ∈ W) (hfabric : Field.fabric ∈ W) (hhost : Field.host ∈ W) (hamp : Field.amp ∈ W) (hcl : Field.cl ∈ W) (hsched : Field.sched ∈ W) (htiers : Field.tiers ∈ W) (htokens : Field.tokens ∈ W) (hindex : Field.index ∈ W) (hpipes : Field.pipes ∈ W) (hmedia : Field.media ∈ W) (hspan : Field.span ∈ W) (h : Runs W s0 s) (x1) :
    Runs W s0 (spanPeerSet x1 s).1 := by
  unfold spanPeerSet
  try dsimp only
  repeat' first | with_reducible (first | assumption | apply ampRefuse_runs | apply State.modSpan_runs | apply State.failPeer_runs | apply ampAnswer_runs | apply State.retry_runs | refine runs_foldl (fun _ _ _ => ?_) _ ?_ | refine Runs.of_fst (by assumption) ?_) | split

theorem execSpanPeerSet_runs (hmemory : Field.memory ∈ W) (hhostMem : Field.hostMem ∈ W) (hfree : Field.free ∈ W) (hfabric : Field.fabric ∈ W) (hhost : Field.host ∈ W) (hamp : Field.amp ∈ W) (hcl : Field.cl ∈ W) (hsched : Field.sched ∈ W) (htiers : Field.tiers ∈ W) (htokens : Field.tokens ∈ W) (hindex : Field.index ∈ W) (hpipes : Field.pipes ∈ W) (hmedia : Field.media ∈ W) (hspan : Field.span ∈ W) (h : Runs W s0 s) (x1) :
    Ends W s0 (execSpanPeerSet x1 s) := by
  unfold execSpanPeerSet
  try dsimp only
  repeat' first | with_reducible (first | assumption | apply ampExec_runs | apply spanPeerSet_runs | rw [ends_next] | refine Runs.of_fst (by assumption) ?_) | split | (intro _; intros; try dsimp only)

end Sys2Proof.Machine
end

