-- ==== Sys2Proof/Laws/RunsPower.lean ====
section
/-! SUPPORT. What running restarts, security, power, boot, isolation and the register blocks keeps: one lemma per operation. -/

namespace Sys2Proof.Machine

variable {W : List Field} {s0 s : State}

/-! ## RestartOps -/

theorem State.restartIndexes_runs (htiers : Field.tiers ∈ W) (hindex : Field.index ∈ W) (hftl : Field.ftl ∈ W) (h : Runs W s0 s) :
    Runs W s0 (State.restartIndexes s) := by
  unfold State.restartIndexes
  try dsimp only
  repeat' first | with_reducible (first | assumption | apply State.modIndex_runs | apply State.trimBorn_runs | apply State.modTiers_runs | refine runs_foldl (fun _ _ _ => ?_) _ ?_) | split

theorem State.restartEngines_runs (htokens : Field.tokens ∈ W) (hsel : Field.sel ∈ W) (hpipes : Field.pipes ∈ W) (hspan : Field.span ∈ W) (hupd : Field.upd ∈ W) (h : Runs W s0 s) (x1) :
    Runs W s0 (State.restartEngines s x1) := by
  exact h.step (by constructor <;> first | rfl | exact .inl (by assumption) | exact .inr rfl | exact .inr ⟨rfl, rfl, rfl⟩) rfl rfl rfl rfl rfl

theorem State.restartMedia_runs (hfree : Field.free ∈ W) (hmedia : Field.media ∈ W) (h : Runs W s0 s) (x1) :
    Runs W s0 (State.restartMedia s x1) := by
  unfold State.restartMedia
  try dsimp only
  repeat' first | with_reducible (first | assumption | apply State.modMedia_runs | apply mediaPowerLoss_runs) | split

theorem State.lose_runs (hmemory : Field.memory ∈ W) (hfree : Field.free ∈ W) (hfabric : Field.fabric ∈ W) (hhost : Field.host ∈ W) (hamp : Field.amp ∈ W) (hfaults : Field.faults ∈ W) (hpower : Field.power ∈ W) (hsec : Field.sec ∈ W) (hmgmt : Field.mgmt ∈ W) (hcl : Field.cl ∈ W) (hsched : Field.sched ∈ W) (htiers : Field.tiers ∈ W) (htokens : Field.tokens ∈ W) (hsel : Field.sel ∈ W) (hindex : Field.index ∈ W) (hpipes : Field.pipes ∈ W) (hmedia : Field.media ∈ W) (hftl : Field.ftl ∈ W) (hspan : Field.span ∈ W) (hupd : Field.upd ∈ W) (h : Runs W s0 s) (x1) :
    Runs W s0 (State.lose s x1) := by
  unfold State.lose
  extract_lets s1 s2 s3 s4 s5 s6 s7 banks s8 s9 s10
  have h7 : Runs W s0 s7 := by
    unfold s7 s6 s5 s4 s3 s2 s1
    repeat' with_reducible (first | assumption | apply State.restartMedia_runs | apply State.modTiers_runs | apply State.modFtl_runs | apply State.restartIndexes_runs | apply State.restartEngines_runs | apply State.modHost_runs | apply State.modAmp_runs | apply State.modFaults_runs)
  clear_value s7
  have h8 : Runs W s0 s8 := h7.trans ⟨by constructor <;> first | rfl | exact .inl (by assumption) | exact .inr rfl | exact .inr ⟨rfl, rfl, rfl⟩,
    fun w => ⟨rfl, rfl, w.2.2⟩, Nat.le_refl _, fun _ h => h, Nat.le_add_right _ _⟩
  clear_value s8
  apply State.modMgmt_runs hmgmt
  apply State.modPower_runs hpower
  exact State.modSec_runs hsec (State.modFabric_runs hfabric h8 _) _ (Nat.le_refl _) (fun _ h => h)

theorem State.haltCores_runs (hcl : Field.cl ∈ W) (h : Runs W s0 s) :
    Runs W s0 (State.haltCores s) := by
  exact h.step (by constructor <;> first | rfl | exact .inl (by assumption) | exact .inr rfl | exact .inr ⟨rfl, rfl, rfl⟩) rfl rfl rfl rfl rfl

theorem State.beginFlush_runs (hmemory : Field.memory ∈ W) (hfree : Field.free ∈ W) (hfabric : Field.fabric ∈ W) (hamp : Field.amp ∈ W) (hfaults : Field.faults ∈ W) (hpower : Field.power ∈ W) (hcl : Field.cl ∈ W) (hpipes : Field.pipes ∈ W) (hmedia : Field.media ∈ W) (hftl : Field.ftl ∈ W) (hspan : Field.span ∈ W) (h : Runs W s0 s) (x1) :
    Runs W s0 (State.beginFlush s x1) := by
  unfold State.beginFlush
  try dsimp only
  repeat' first | with_reducible (first | assumption | apply mediaFlush_runs | apply State.haltCores_runs | apply State.portDown_runs | apply State.modPower_runs) | split

theorem State.enterReset_runs (hmemory : Field.memory ∈ W) (hfree : Field.free ∈ W) (hfabric : Field.fabric ∈ W) (hhost : Field.host ∈ W) (hamp : Field.amp ∈ W) (hfaults : Field.faults ∈ W) (hpower : Field.power ∈ W) (hsec : Field.sec ∈ W) (hmgmt : Field.mgmt ∈ W) (hcl : Field.cl ∈ W) (hsched : Field.sched ∈ W) (htiers : Field.tiers ∈ W) (htokens : Field.tokens ∈ W) (hsel : Field.sel ∈ W) (hindex : Field.index ∈ W) (hpipes : Field.pipes ∈ W) (hmedia : Field.media ∈ W) (hftl : Field.ftl ∈ W) (hspan : Field.span ∈ W) (hupd : Field.upd ∈ W) (h : Runs W s0 s) :
    Runs W s0 (State.enterReset s) := by
  unfold State.enterReset
  try dsimp only
  repeat' first | with_reducible (first | assumption | apply State.modPower_runs | apply State.lose_runs) | split

theorem State.commitCrossing_runs (hmemory : Field.memory ∈ W) (hfree : Field.free ∈ W) (hfabric : Field.fabric ∈ W) (hhost : Field.host ∈ W) (hamp : Field.amp ∈ W) (hfaults : Field.faults ∈ W) (hpower : Field.power ∈ W) (hsec : Field.sec ∈ W) (hmgmt : Field.mgmt ∈ W) (hcl : Field.cl ∈ W) (hsched : Field.sched ∈ W) (htiers : Field.tiers ∈ W) (htokens : Field.tokens ∈ W) (hsel : Field.sel ∈ W) (hindex : Field.index ∈ W) (hpipes : Field.pipes ∈ W) (hmedia : Field.media ∈ W) (hftl : Field.ftl ∈ W) (hspan : Field.span ∈ W) (hupd : Field.upd ∈ W) (h : Runs W s0 s) (x1) :
    Runs W s0 (State.commitCrossing s x1) := by
  unfold State.commitCrossing
  try dsimp only
  repeat' first | with_reducible (first | assumption | apply State.modPower_runs | apply State.lose_runs | apply State.enterReset_runs | apply State.beginFlush_runs) | split

theorem State.leaveEbony_runs (hfabric : Field.fabric ∈ W) (hpower : Field.power ∈ W) (h : Runs W s0 s) (x1) :
    Runs W s0 (State.leaveEbony s x1) := by
  unfold State.leaveEbony
  try dsimp only
  repeat' first | with_reducible (first | assumption | apply State.modPower_runs | apply State.modFabric_runs) | split

theorem State.reboot_runs (hmemory : Field.memory ∈ W) (hfree : Field.free ∈ W) (hfabric : Field.fabric ∈ W) (hhost : Field.host ∈ W) (hamp : Field.amp ∈ W) (hfaults : Field.faults ∈ W) (hpower : Field.power ∈ W) (hsec : Field.sec ∈ W) (hmgmt : Field.mgmt ∈ W) (hcl : Field.cl ∈ W) (hsched : Field.sched ∈ W) (htiers : Field.tiers ∈ W) (htokens : Field.tokens ∈ W) (hsel : Field.sel ∈ W) (hindex : Field.index ∈ W) (hpipes : Field.pipes ∈ W) (hmedia : Field.media ∈ W) (hftl : Field.ftl ∈ W) (hspan : Field.span ∈ W) (hupd : Field.upd ∈ W) (h : Runs W s0 s) :
    Runs W s0 (State.reboot s) := by
  unfold State.reboot
  try dsimp only
  repeat' first | with_reducible (first | assumption | apply State.modPower_runs | apply State.lose_runs) | split

theorem State.hdDown_runs (hmemory : Field.memory ∈ W) (hfree : Field.free ∈ W) (hfabric : Field.fabric ∈ W) (hhost : Field.host ∈ W) (hamp : Field.amp ∈ W) (hfaults : Field.faults ∈ W) (hpower : Field.power ∈ W) (hsec : Field.sec ∈ W) (hmgmt : Field.mgmt ∈ W) (hcl : Field.cl ∈ W) (hsched : Field.sched ∈ W) (htiers : Field.tiers ∈ W) (htokens : Field.tokens ∈ W) (hsel : Field.sel ∈ W) (hindex : Field.index ∈ W) (hpipes : Field.pipes ∈ W) (hmedia : Field.media ∈ W) (hftl : Field.ftl ∈ W) (hspan : Field.span ∈ W) (hupd : Field.upd ∈ W) (h : Runs W s0 s) :
    Runs W s0 (State.hdDown s) := by
  unfold State.hdDown
  split
  · exact h
  · extract_lets s1
    have h1 : Runs W s0 s1 := by unfold s1; apply State.lose_runs <;> with_reducible assumption
    clear_value s1
    exact h1.step (by constructor <;> first | rfl | exact .inl (by assumption) | exact .inr rfl | exact .inr ⟨rfl, rfl, rfl⟩) rfl rfl rfl rfl rfl

theorem State.undefineBut_runs (hmemory : Field.memory ∈ W) (hfree : Field.free ∈ W) (h : Runs W s0 s) (x1 x2 x3 x4) :
    Runs W s0 (State.undefineBut s x1 x2 x3 x4) := by
  exact h.trans ⟨by constructor <;> first | rfl | exact .inl (by assumption) | exact .inr rfl | exact .inr ⟨rfl, rfl, rfl⟩,
    fun w => ⟨Tab.wf_filter w.1 _, Tab.wf_filter w.2.1 _, w.2.2⟩, Nat.le_refl _, fun _ h => h, Nat.le_succ _⟩

theorem State.loseCompute_runs (hmemory : Field.memory ∈ W) (hfree : Field.free ∈ W) (hcl : Field.cl ∈ W) (hsched : Field.sched ∈ W) (hsel : Field.sel ∈ W) (hupd : Field.upd ∈ W) (h : Runs W s0 s) :
    Runs W s0 (State.loseCompute s) := by
  unfold State.loseCompute
  extract_lets s1 s2
  have h1 : Runs W s0 s1 := State.undefineBut_runs hmemory hfree h _ _ _ _
  exact h1.step (by constructor <;> first | rfl | exact .inl (by assumption) | exact .inr rfl | exact .inr ⟨rfl, rfl, rfl⟩) rfl rfl rfl rfl rfl

theorem State.loseHbm_runs (hmemory : Field.memory ∈ W) (hfree : Field.free ∈ W) (htiers : Field.tiers ∈ W) (h : Runs W s0 s) :
    Runs W s0 (State.loseHbm s) := by
  unfold State.loseHbm
  try dsimp only
  repeat' first | with_reducible (first | assumption | apply State.undefineBut_runs | apply State.modTiers_runs | refine runs_foldl (fun _ _ _ => ?_) _ ?_) | split

/-! ## Security -/

@[simp] theorem Sec.setWrap_counter (x : Sec) (m k) : (x.setWrap m k).counter = x.counter := by unfold Sec.setWrap; split <;> rfl
@[simp] theorem Sec.setWrap_revoked (x : Sec) (m k) : (x.setWrap m k).revoked = x.revoked := by unfold Sec.setWrap; split <;> rfl
@[simp] theorem Sec.writeOwner_counter (x : Sec) (k) : (x.writeOwner k).counter = x.counter := rfl
@[simp] theorem Sec.writeOwner_revoked (x : Sec) (k) : (x.writeOwner k).revoked = x.revoked := rfl
@[simp] theorem Sec.writeConfig_counter (x : Sec) (r) : (x.writeConfig r).counter = x.counter := by
  simp only [Sec.writeConfig]; split <;> split <;> rfl
@[simp] theorem Sec.writeConfig_revoked (x : Sec) (r) : (x.writeConfig r).revoked = x.revoked := by
  simp only [Sec.writeConfig]; split <;> split <;> rfl

theorem State.deriveKeys_runs (hfree : Field.free ∈ W) (hamp : Field.amp ∈ W) (hsec : Field.sec ∈ W) (h : Runs W s0 s) (x1 x2 x3) :
    Runs W s0 (State.deriveKeys s x1 x2 x3).1 := by
  unfold State.deriveKeys
  try dsimp only
  repeat' first | with_reducible (first | assumption | apply State.used_runs | apply State.modMb_runs) | refine State.modSec_runs (by assumption) ?_ _ (by simp) (by simp) | split

theorem keyAgree_runs (hfree : Field.free ∈ W) (hfabric : Field.fabric ∈ W) (hamp : Field.amp ∈ W) (hsec : Field.sec ∈ W) (h : Runs W s0 s) (x1) :
    Runs W s0 (keyAgree x1 s).1 := by
  unfold keyAgree
  try dsimp only
  repeat' first | with_reducible (first | assumption | apply ampRefuse_runs | apply State.post_runs | apply State.deriveKeys_runs | apply ampAnswer_runs | refine Runs.of_fst (by assumption) ?_) | refine State.modSec_runs (by assumption) ?_ _ (by simp) (by simp) | split

theorem execKeyAgree_runs (hfree : Field.free ∈ W) (hfabric : Field.fabric ∈ W) (hamp : Field.amp ∈ W) (hsec : Field.sec ∈ W) (h : Runs W s0 s) (x1) :
    Ends W s0 (execKeyAgree x1 s) := by
  unfold execKeyAgree
  try dsimp only
  repeat' first | with_reducible (first | assumption | apply ampExec_runs | apply keyAgree_runs | rw [ends_next] | refine Runs.of_fst (by assumption) ?_) | split | (intro _; intros; try dsimp only)

theorem configRead_runs  (h : Runs W s0 s) (x1) :
    Runs W s0 (configRead x1 s).1 := by
  unfold configRead
  try dsimp only
  repeat' first | with_reducible (first | assumption | apply ampAnswer_runs | refine Runs.of_fst (by assumption) ?_) | split

theorem execConfigRead_runs (hamp : Field.amp ∈ W) (h : Runs W s0 s) (x1) :
    Ends W s0 (execConfigRead x1 s) := by
  unfold execConfigRead
  try dsimp only
  repeat' first | with_reducible (first | assumption | apply ampExec_runs | apply configRead_runs | rw [ends_next] | refine Runs.of_fst (by assumption) ?_) | split | (intro _; intros; try dsimp only)

theorem State.allocTier_runs (hfree : Field.free ∈ W) (hsec : Field.sec ∈ W) (hftl : Field.ftl ∈ W) (h : Runs W s0 s) :
    Runs W s0 (State.allocTier s) := by
  unfold State.allocTier
  split
  · exact h
  · split
    · rename_i f e
      have h1 : Runs W s0 { s with ftl := f } :=
        h.step (by constructor <;> first | rfl | exact .inl (by assumption) | exact .inr rfl | exact .inr ⟨rfl, rfl, rfl⟩) rfl rfl rfl rfl rfl
      dsimp only
      split
      · exact h1
      · apply State.drawKey_runs <;> assumption
    · exact h

theorem State.spanUp_runs (hfabric : Field.fabric ∈ W) (hamp : Field.amp ∈ W) (hspan : Field.span ∈ W) (h : Runs W s0 s) :
    Runs W s0 (State.spanUp s) := by
  unfold State.spanUp
  try dsimp only
  repeat' first | with_reducible (first | assumption | apply State.enablePort_runs) | split

theorem State.openUp_runs (hmemory : Field.memory ∈ W) (hfree : Field.free ∈ W) (hfabric : Field.fabric ∈ W) (hamp : Field.amp ∈ W) (hsec : Field.sec ∈ W) (hcl : Field.cl ∈ W) (htiers : Field.tiers ∈ W) (hftl : Field.ftl ∈ W) (hspan : Field.span ∈ W) (h : Runs W s0 s) (x1 x2) :
    OptRuns W s0 id (State.openUp s x1 x2) := by
  unfold State.openUp
  refine optRuns_map_id ?_ (fun t ht => ?_)
  · apply State.restoreObjects_runs <;> try with_reducible assumption
    apply State.modTiers_runs <;> try with_reducible assumption
    apply State.allocTier_runs <;> try with_reducible assumption
    exact State.modSec_runs hsec h _ (Nat.le_refl _) (fun _ h => h)
  · apply State.spanUp_runs <;> with_reducible assumption

theorem configWrite_runs (hmemory : Field.memory ∈ W) (hfree : Field.free ∈ W) (hfabric : Field.fabric ∈ W) (hamp : Field.amp ∈ W) (hsec : Field.sec ∈ W) (hcl : Field.cl ∈ W) (htiers : Field.tiers ∈ W) (hftl : Field.ftl ∈ W) (hspan : Field.span ∈ W) (h : Runs W s0 s) (x1 x2 x3) :
    Runs W s0 (configWrite x1 x2 x3 s).1 := by
  unfold configWrite
  try dsimp only
  repeat' first | with_reducible (first | assumption | apply ampRefuse_runs | apply State.openUp_runs | apply ampAnswer_runs | apply State.post_runs | refine Runs.of_fst (by assumption) ?_ | refine Runs.of_some (by assumption) ?_ | refine optRuns_bind_id ?_ (fun _ _ => ?_) | refine optRuns_map_id ?_ (fun _ _ => ?_) | refine optRuns_getD ?_ ?_ | refine optRuns_id ?_ | apply optRuns_none) | refine State.modSec_runs (by assumption) ?_ _ (by simp) (by simp) | split

theorem execConfigWrite_runs (hmemory : Field.memory ∈ W) (hfree : Field.free ∈ W) (hfabric : Field.fabric ∈ W) (hamp : Field.amp ∈ W) (hsec : Field.sec ∈ W) (hcl : Field.cl ∈ W) (htiers : Field.tiers ∈ W) (hftl : Field.ftl ∈ W) (hspan : Field.span ∈ W) (h : Runs W s0 s) (x1 x2 x3) :
    Ends W s0 (execConfigWrite x1 x2 x3 s) := by
  unfold execConfigWrite
  try dsimp only
  repeat' first | with_reducible (first | assumption | apply ampExec_runs | apply configWrite_runs | rw [ends_next] | refine Runs.of_fst (by assumption) ?_) | split | (intro _; intros; try dsimp only)

theorem dropIndexes_runs (hhostMem : Field.hostMem ∈ W) (hfabric : Field.fabric ∈ W) (hhost : Field.host ∈ W) (hamp : Field.amp ∈ W) (hsec : Field.sec ∈ W) (htiers : Field.tiers ∈ W) (hindex : Field.index ∈ W) (hftl : Field.ftl ∈ W) (h : Runs W s0 s) (x1) :
    Runs W s0 (dropIndexes x1 s) := by
  fun_induction dropIndexes x1 s <;> try rename_i ih
  all_goals try dsimp only
  all_goals repeat' first | with_reducible (first | assumption | apply ih | apply State.dropIndex_runs) | split

theorem freeSessions_runs (htiers : Field.tiers ∈ W) (h : Runs W s0 s) (x1) :
    Runs W s0 (freeSessions x1 s) := by
  induction x1 generalizing s with
  | nil => exact h
  | cons x l ih =>
    simp only [freeSessions]
    apply ih
    repeat' first | with_reducible (first | assumption | apply State.releaseKv_runs | apply State.modSession_runs | apply State.modTiers_runs) | split

theorem eraseAll_runs (hmemory : Field.memory ∈ W) (hfree : Field.free ∈ W) (hfabric : Field.fabric ∈ W) (hamp : Field.amp ∈ W) (hfaults : Field.faults ∈ W) (hmedia : Field.media ∈ W) (hftl : Field.ftl ∈ W) (h : Runs W s0 s) (x1 x2) :
    Runs W s0 (eraseAll x1 x2 s) := by
  fun_induction eraseAll x1 x2 s <;> try rename_i ih
  all_goals try dsimp only
  all_goals repeat' first | with_reducible (first | assumption | apply ih | apply State.modFtl_runs | apply State.retireEu_runs | apply State.eraseEu_runs) | split

theorem drawKeys_runs (hfree : Field.free ∈ W) (hsec : Field.sec ∈ W) (h : Runs W s0 s) (x1) :
    Runs W s0 (drawKeys x1 s) := by
  fun_induction drawKeys x1 s <;> try rename_i ih
  all_goals try dsimp only
  all_goals repeat' first | with_reducible (first | assumption | apply ih | apply State.drawKey_runs) | split

theorem eraseBindings_runs (hindex : Field.index ∈ W) (h : Runs W s0 s) (x1) :
    Runs W s0 (eraseBindings x1 s) := by
  fun_induction eraseBindings x1 s <;> try rename_i ih
  all_goals try dsimp only
  all_goals repeat' first | with_reducible (first | assumption | apply ih | apply State.eraseBound_runs) | split

theorem State.sanitizeNow_runs (hmemory : Field.memory ∈ W) (hhostMem : Field.hostMem ∈ W) (hfree : Field.free ∈ W) (hfabric : Field.fabric ∈ W) (hhost : Field.host ∈ W) (hamp : Field.amp ∈ W) (hfaults : Field.faults ∈ W) (hsec : Field.sec ∈ W) (hcl : Field.cl ∈ W) (htiers : Field.tiers ∈ W) (hindex : Field.index ∈ W) (hmedia : Field.media ∈ W) (hftl : Field.ftl ∈ W) (h : Runs W s0 s) (x1 x2) :
    Runs W s0 (State.sanitizeNow s x1 x2) := by
  unfold State.sanitizeNow
  try dsimp only
  repeat' first | with_reducible (first | assumption | apply dropIndexes_runs | apply State.dropObject_runs | apply freeSessions_runs | apply State.modTiers_runs | apply drawKeys_runs | apply State.modFtl_runs | apply eraseAll_runs | refine runs_foldl (fun _ _ _ => ?_) _ ?_) | refine State.modSec_runs (by assumption) ?_ _ (by simp) (by simp) | split

theorem sanitize_runs (hamp : Field.amp ∈ W) (hftl : Field.ftl ∈ W) (h : Runs W s0 s) (x1) :
    Runs W s0 (sanitize x1 s).1 := by
  unfold sanitize
  try dsimp only
  repeat' first | with_reducible (first | assumption | apply ampRefuse_runs | apply ampLong_runs | apply State.modFtl_runs | refine Runs.of_fst (by assumption) ?_) | split | (intro _; intros; try dsimp only)

theorem execSanitize_runs (hamp : Field.amp ∈ W) (hftl : Field.ftl ∈ W) (h : Runs W s0 s) (x1) :
    Ends W s0 (execSanitize x1 s) := by
  unfold execSanitize
  try dsimp only
  repeat' first | with_reducible (first | assumption | apply ampExec_runs | apply sanitize_runs | rw [ends_next] | refine Runs.of_fst (by assumption) ?_) | split | (intro _; intros; try dsimp only)

theorem execNvmeSanitize_runs (hanswer : Field.answer ∈ W) (hfabric : Field.fabric ∈ W) (hhost : Field.host ∈ W) (hftl : Field.ftl ∈ W) (h : Runs W s0 s) (x1 x2) :
    Ends W s0 (execNvmeSanitize x1 x2 s) := by
  unfold execNvmeSanitize
  try dsimp only
  repeat' first | with_reducible (first | assumption | apply State.admin_runs | apply Admin.refuse_runs | apply State.modFtl_runs | rw [ends_next] | refine Runs.of_fst (by assumption) ?_) | split | (intro _; intros; try dsimp only)

theorem State.raiseReady_runs (hhost : Field.host ∈ W) (h : Runs W s0 s) :
    Runs W s0 (State.raiseReady s) := by
  unfold State.raiseReady
  try dsimp only
  repeat' first | with_reducible (first | assumption | apply State.modHost_runs) | split

theorem execSanitizeDone_runs (hmemory : Field.memory ∈ W) (hhostMem : Field.hostMem ∈ W) (hfree : Field.free ∈ W) (hanswer : Field.answer ∈ W) (hfabric : Field.fabric ∈ W) (hhost : Field.host ∈ W) (hamp : Field.amp ∈ W) (hfaults : Field.faults ∈ W) (hsec : Field.sec ∈ W) (hcl : Field.cl ∈ W) (htiers : Field.tiers ∈ W) (hindex : Field.index ∈ W) (hmedia : Field.media ∈ W) (hftl : Field.ftl ∈ W) (h : Runs W s0 s) (x1) :
    Ends W s0 (execSanitizeDone x1 s) := by
  unfold execSanitizeDone
  try dsimp only
  repeat' first | with_reducible (first | assumption | apply State.modFtl_runs | apply State.sanitizeNow_runs | apply State.opDone_runs | apply State.adminEnd_runs | apply State.raiseReady_runs | rw [ends_next]) | split

theorem State.dropKeys_runs (hamp : Field.amp ∈ W) (hsec : Field.sec ∈ W) (h : Runs W s0 s) :
    Runs W s0 (State.dropKeys s) := by
  unfold State.dropKeys
  try dsimp only
  repeat' first | with_reducible (first | assumption | apply State.modMb_runs) | refine State.modSec_runs (by assumption) ?_ _ (by simp) (by simp) | split

theorem State.failCritical_runs (hamp : Field.amp ∈ W) (h : Runs W s0 s) (x1 x2) :
    Runs W s0 (State.failCritical s x1 x2) := by
  unfold State.failCritical
  try dsimp only
  repeat' first | with_reducible (first | assumption | apply State.modAmp_runs) | split

theorem ownerSet_runs (hmemory : Field.memory ∈ W) (hhostMem : Field.hostMem ∈ W) (hfree : Field.free ∈ W) (hfabric : Field.fabric ∈ W) (hhost : Field.host ∈ W) (hamp : Field.amp ∈ W) (hfaults : Field.faults ∈ W) (hsec : Field.sec ∈ W) (hcl : Field.cl ∈ W) (htiers : Field.tiers ∈ W) (hindex : Field.index ∈ W) (hmedia : Field.media ∈ W) (hftl : Field.ftl ∈ W) (h : Runs W s0 s) (x1) :
    Runs W s0 (ownerSet x1 s).1 := by
  unfold ownerSet
  try dsimp only
  repeat' first | with_reducible (first | assumption | apply ampRefuse_runs | apply State.post_runs | apply State.sanitizeNow_runs | apply State.failCritical_runs | apply ampAnswer_runs | apply State.dropKeys_runs | refine Runs.of_fst (by assumption) ?_) | refine State.modSec_runs (by assumption) ?_ _ (by simp) (by simp) | split

theorem execOwnerSet_runs (hmemory : Field.memory ∈ W) (hhostMem : Field.hostMem ∈ W) (hfree : Field.free ∈ W) (hfabric : Field.fabric ∈ W) (hhost : Field.host ∈ W) (hamp : Field.amp ∈ W) (hfaults : Field.faults ∈ W) (hsec : Field.sec ∈ W) (hcl : Field.cl ∈ W) (htiers : Field.tiers ∈ W) (hindex : Field.index ∈ W) (hmedia : Field.media ∈ W) (hftl : Field.ftl ∈ W) (h : Runs W s0 s) (x1) :
    Ends W s0 (execOwnerSet x1 s) := by
  unfold execOwnerSet
  try dsimp only
  repeat' first | with_reducible (first | assumption | apply ampExec_runs | apply ownerSet_runs | rw [ends_next] | refine Runs.of_fst (by assumption) ?_) | split | (intro _; intros; try dsimp only)

theorem execOwnerReleaseRestart_runs (hmemory : Field.memory ∈ W) (hfree : Field.free ∈ W) (hfabric : Field.fabric ∈ W) (hhost : Field.host ∈ W) (hamp : Field.amp ∈ W) (hfaults : Field.faults ∈ W) (hpower : Field.power ∈ W) (hsec : Field.sec ∈ W) (hmgmt : Field.mgmt ∈ W) (hcl : Field.cl ∈ W) (hsched : Field.sched ∈ W) (htiers : Field.tiers ∈ W) (htokens : Field.tokens ∈ W) (hsel : Field.sel ∈ W) (hindex : Field.index ∈ W) (hpipes : Field.pipes ∈ W) (hmedia : Field.media ∈ W) (hftl : Field.ftl ∈ W) (hspan : Field.span ∈ W) (hupd : Field.upd ∈ W) (h : Runs W s0 s) :
    Ends W s0 (execOwnerReleaseRestart s) := by
  unfold execOwnerReleaseRestart
  try dsimp only
  repeat' first | with_reducible (first | assumption | apply State.reboot_runs | rw [ends_next]) | split

theorem nsKeySet_runs (hsec : Field.sec ∈ W) (h : Runs W s0 s) (x1) :
    Runs W s0 (nsKeySet x1 s).1 := by
  unfold nsKeySet
  try dsimp only
  repeat' first | with_reducible (first | assumption | apply ampRefuse_runs | apply ampAnswer_runs | refine Runs.of_fst (by assumption) ?_) | refine State.modSec_runs (by assumption) ?_ _ (by simp) (by simp) | split

theorem execNsKeySet_runs (hamp : Field.amp ∈ W) (hsec : Field.sec ∈ W) (h : Runs W s0 s) (x1) :
    Ends W s0 (execNsKeySet x1 s) := by
  unfold execNsKeySet
  try dsimp only
  repeat' first | with_reducible (first | assumption | apply ampExec_runs | apply nsKeySet_runs | rw [ends_next] | refine Runs.of_fst (by assumption) ?_) | split | (intro _; intros; try dsimp only)

theorem cryptoErase_runs (hfree : Field.free ∈ W) (hsec : Field.sec ∈ W) (hindex : Field.index ∈ W) (hftl : Field.ftl ∈ W) (h : Runs W s0 s) (x1) :
    Runs W s0 (cryptoErase x1 s).1 := by
  unfold cryptoErase
  try dsimp only
  repeat' first | with_reducible (first | assumption | apply ampRefuse_runs | apply ampAnswer_runs | apply State.cryptoErase_runs | refine Runs.of_fst (by assumption) ?_) | split

theorem execCryptoErase_runs (hfree : Field.free ∈ W) (hamp : Field.amp ∈ W) (hsec : Field.sec ∈ W) (hindex : Field.index ∈ W) (hftl : Field.ftl ∈ W) (h : Runs W s0 s) (x1) :
    Ends W s0 (execCryptoErase x1 s) := by
  unfold execCryptoErase
  try dsimp only
  repeat' first | with_reducible (first | assumption | apply ampExec_runs | apply cryptoErase_runs | rw [ends_next] | refine Runs.of_fst (by assumption) ?_) | split | (intro _; intros; try dsimp only)

theorem fwStage_runs (hsec : Field.sec ∈ W) (h : Runs W s0 s) (x1) :
    Runs W s0 (fwStage x1 s).1 := by
  unfold fwStage
  try dsimp only
  repeat' first | with_reducible (first | assumption | apply ampRefuse_runs | apply ampAnswer_runs | refine Runs.of_fst (by assumption) ?_) | refine State.modSec_runs (by assumption) ?_ _ (by simp) (by simp) | split

theorem execFwStage_runs (hamp : Field.amp ∈ W) (hsec : Field.sec ∈ W) (h : Runs W s0 s) (x1) :
    Ends W s0 (execFwStage x1 s) := by
  unfold execFwStage
  try dsimp only
  repeat' first | with_reducible (first | assumption | apply ampExec_runs | apply fwStage_runs | rw [ends_next] | refine Runs.of_fst (by assumption) ?_) | split | (intro _; intros; try dsimp only)

theorem fwVerify_runs (hamp : Field.amp ∈ W) (hsec : Field.sec ∈ W) (h : Runs W s0 s) (x1) :
    Runs W s0 (fwVerify x1 s).1 := by
  unfold fwVerify
  try dsimp only
  repeat' first | with_reducible (first | assumption | apply ampRefuse_runs | apply ampLong_runs | refine Runs.of_fst (by assumption) ?_) | refine State.modSec_runs (by assumption) ?_ _ (by simp) (by simp) | split | (intro _; intros; try dsimp only)

theorem execFwVerify_runs (hamp : Field.amp ∈ W) (hsec : Field.sec ∈ W) (h : Runs W s0 s) (x1) :
    Ends W s0 (execFwVerify x1 s) := by
  unfold execFwVerify
  try dsimp only
  repeat' first | with_reducible (first | assumption | apply ampExec_runs | apply fwVerify_runs | rw [ends_next] | refine Runs.of_fst (by assumption) ?_) | split | (intro _; intros; try dsimp only)

theorem execFwVerifyDone_runs (hfabric : Field.fabric ∈ W) (hamp : Field.amp ∈ W) (hsec : Field.sec ∈ W) (h : Runs W s0 s) :
    Ends W s0 (execFwVerifyDone s) := by
  unfold execFwVerifyDone
  try dsimp only
  repeat' first | with_reducible (first | assumption | apply State.opDone_runs | rw [ends_next]) | refine State.modSec_runs (by assumption) ?_ _ (by simp) (by simp) | split

theorem fwCommit_runs (hamp : Field.amp ∈ W) (hsec : Field.sec ∈ W) (h : Runs W s0 s) (x1) :
    Runs W s0 (fwCommit x1 s).1 := by
  unfold fwCommit
  try dsimp only
  repeat' first | with_reducible (first | assumption | apply ampRefuse_runs | apply ampLong_runs | refine Runs.of_fst (by assumption) ?_) | refine State.modSec_runs (by assumption) ?_ _ (by simp) (by simp) | split | (intro _; intros; try dsimp only)

theorem execFwCommit_runs (hamp : Field.amp ∈ W) (hsec : Field.sec ∈ W) (h : Runs W s0 s) (x1) :
    Ends W s0 (execFwCommit x1 s) := by
  unfold execFwCommit
  try dsimp only
  repeat' first | with_reducible (first | assumption | apply ampExec_runs | apply fwCommit_runs | rw [ends_next] | refine Runs.of_fst (by assumption) ?_) | split | (intro _; intros; try dsimp only)

theorem execFwCommitDone_runs (hfabric : Field.fabric ∈ W) (hamp : Field.amp ∈ W) (hsec : Field.sec ∈ W) (h : Runs W s0 s) (x1) :
    Ends W s0 (execFwCommitDone x1 s) := by
  unfold execFwCommitDone
  try dsimp only
  repeat' first | with_reducible (first | assumption | apply State.opDone_runs | rw [ends_next]) | refine State.modSec_runs (by assumption) ?_ _ (by simp) (by simp) | split

theorem execRecoveryReboot_runs (hmemory : Field.memory ∈ W) (hfree : Field.free ∈ W) (hfabric : Field.fabric ∈ W) (hhost : Field.host ∈ W) (hamp : Field.amp ∈ W) (hfaults : Field.faults ∈ W) (hpower : Field.power ∈ W) (hsec : Field.sec ∈ W) (hmgmt : Field.mgmt ∈ W) (hcl : Field.cl ∈ W) (hsched : Field.sched ∈ W) (htiers : Field.tiers ∈ W) (htokens : Field.tokens ∈ W) (hsel : Field.sel ∈ W) (hindex : Field.index ∈ W) (hpipes : Field.pipes ∈ W) (hmedia : Field.media ∈ W) (hftl : Field.ftl ∈ W) (hspan : Field.span ∈ W) (hupd : Field.upd ∈ W) (h : Runs W s0 s) :
    Ends W s0 (execRecoveryReboot s) := by
  unfold execRecoveryReboot
  try dsimp only
  repeat' first | with_reducible (first | assumption | apply State.reboot_runs | rw [ends_next]) | split

/-! ## Power -/

theorem State.clockFollow_runs (hfabric : Field.fabric ∈ W) (hamp : Field.amp ∈ W) (hpower : Field.power ∈ W) (h : Runs W s0 s) :
    Runs W s0 (State.clockFollow s) := by
  unfold State.clockFollow
  try dsimp only
  repeat' first | with_reducible (first | assumption | apply State.post_runs | apply State.modPower_runs) | split

theorem State.stepDown_runs (hfabric : Field.fabric ∈ W) (hamp : Field.amp ∈ W) (hpower : Field.power ∈ W) (h : Runs W s0 s) :
    Runs W s0 (State.stepDown s) := by
  unfold State.stepDown
  try dsimp only
  repeat' first | with_reducible (first | assumption | apply State.clockFollow_runs | apply State.modPower_runs) | split

theorem State.holdFollow_runs (hmemory : Field.memory ∈ W) (hfree : Field.free ∈ W) (hfabric : Field.fabric ∈ W) (hfaults : Field.faults ∈ W) (hpipes : Field.pipes ∈ W) (hmedia : Field.media ∈ W) (hftl : Field.ftl ∈ W) (h : Runs W s0 s) :
    Runs W s0 (State.holdFollow s) := by
  unfold State.holdFollow
  try dsimp only
  repeat' first | with_reducible (first | assumption | apply mediaHold_runs) | split

theorem execInputWarn_runs (hmemory : Field.memory ∈ W) (hfree : Field.free ∈ W) (hfabric : Field.fabric ∈ W) (hamp : Field.amp ∈ W) (hfaults : Field.faults ∈ W) (hpower : Field.power ∈ W) (hpipes : Field.pipes ∈ W) (hmedia : Field.media ∈ W) (hftl : Field.ftl ∈ W) (h : Runs W s0 s) (x1) :
    Ends W s0 (execInputWarn x1 s) := by
  unfold execInputWarn
  try dsimp only
  repeat' first | with_reducible (first | assumption | apply State.modPower_runs | apply State.post_runs | apply State.clockFollow_runs | apply State.holdFollow_runs | rw [ends_next]) | split

theorem execHoldRelease_runs (hmemory : Field.memory ∈ W) (hfree : Field.free ∈ W) (hfabric : Field.fabric ∈ W) (hamp : Field.amp ∈ W) (hfaults : Field.faults ∈ W) (hpower : Field.power ∈ W) (hpipes : Field.pipes ∈ W) (hmedia : Field.media ∈ W) (hftl : Field.ftl ∈ W) (h : Runs W s0 s) (x1) :
    Ends W s0 (execHoldRelease x1 s) := by
  unfold execHoldRelease
  try dsimp only
  repeat' first | with_reducible (first | assumption | apply State.modPower_runs | apply State.post_runs | apply State.clockFollow_runs | apply State.holdFollow_runs | rw [ends_next]) | split

theorem execInputCommit_runs (hmemory : Field.memory ∈ W) (hfree : Field.free ∈ W) (hfabric : Field.fabric ∈ W) (hhost : Field.host ∈ W) (hamp : Field.amp ∈ W) (hfaults : Field.faults ∈ W) (hpower : Field.power ∈ W) (hsec : Field.sec ∈ W) (hmgmt : Field.mgmt ∈ W) (hcl : Field.cl ∈ W) (hsched : Field.sched ∈ W) (htiers : Field.tiers ∈ W) (htokens : Field.tokens ∈ W) (hsel : Field.sel ∈ W) (hindex : Field.index ∈ W) (hpipes : Field.pipes ∈ W) (hmedia : Field.media ∈ W) (hftl : Field.ftl ∈ W) (hspan : Field.span ∈ W) (hupd : Field.upd ∈ W) (h : Runs W s0 s) (x1) :
    Ends W s0 (execInputCommit x1 s) := by
  unfold execInputCommit
  try dsimp only
  repeat' first | with_reducible (first | assumption | apply State.commitCrossing_runs | apply State.modPower_runs | rw [ends_next]) | split

theorem execFlushDumpDone_runs (hmemory : Field.memory ∈ W) (hfree : Field.free ∈ W) (hfabric : Field.fabric ∈ W) (hhost : Field.host ∈ W) (hamp : Field.amp ∈ W) (hfaults : Field.faults ∈ W) (hpower : Field.power ∈ W) (hsec : Field.sec ∈ W) (hmgmt : Field.mgmt ∈ W) (hcl : Field.cl ∈ W) (hsched : Field.sched ∈ W) (htiers : Field.tiers ∈ W) (htokens : Field.tokens ∈ W) (hsel : Field.sel ∈ W) (hindex : Field.index ∈ W) (hpipes : Field.pipes ∈ W) (hmedia : Field.media ∈ W) (hftl : Field.ftl ∈ W) (hspan : Field.span ∈ W) (hupd : Field.upd ∈ W) (h : Runs W s0 s) :
    Ends W s0 (execFlushDumpDone s) := by
  unfold execFlushDumpDone
  try dsimp only
  repeat' first | with_reducible (first | assumption | apply State.enterReset_runs | apply State.modFtl_runs | rw [ends_next]) | split

theorem execInputReset_runs (hmemory : Field.memory ∈ W) (hfree : Field.free ∈ W) (hfabric : Field.fabric ∈ W) (hhost : Field.host ∈ W) (hamp : Field.amp ∈ W) (hfaults : Field.faults ∈ W) (hpower : Field.power ∈ W) (hsec : Field.sec ∈ W) (hmgmt : Field.mgmt ∈ W) (hcl : Field.cl ∈ W) (hsched : Field.sched ∈ W) (htiers : Field.tiers ∈ W) (htokens : Field.tokens ∈ W) (hsel : Field.sel ∈ W) (hindex : Field.index ∈ W) (hpipes : Field.pipes ∈ W) (hmedia : Field.media ∈ W) (hftl : Field.ftl ∈ W) (hspan : Field.span ∈ W) (hupd : Field.upd ∈ W) (h : Runs W s0 s) (x1 x2) :
    Ends W s0 (execInputReset x1 x2 s) := by
  unfold execInputReset
  try dsimp only
  repeat' first | with_reducible (first | assumption | apply State.modPower_runs | apply State.enterReset_runs | apply State.modFtl_runs | apply State.hdDown_runs | apply State.commitCrossing_runs | rw [ends_next]) | split

theorem execInputOvervoltage_runs (hmemory : Field.memory ∈ W) (hfree : Field.free ∈ W) (hfabric : Field.fabric ∈ W) (hhost : Field.host ∈ W) (hamp : Field.amp ∈ W) (hfaults : Field.faults ∈ W) (hpower : Field.power ∈ W) (hsec : Field.sec ∈ W) (hmgmt : Field.mgmt ∈ W) (hcl : Field.cl ∈ W) (hsched : Field.sched ∈ W) (htiers : Field.tiers ∈ W) (htokens : Field.tokens ∈ W) (hsel : Field.sel ∈ W) (hindex : Field.index ∈ W) (hpipes : Field.pipes ∈ W) (hmedia : Field.media ∈ W) (hftl : Field.ftl ∈ W) (hspan : Field.span ∈ W) (hupd : Field.upd ∈ W) (h : Runs W s0 s) (x1) :
    Ends W s0 (execInputOvervoltage x1 s) := by
  unfold execInputOvervoltage
  try dsimp only
  repeat' first | with_reducible (first | assumption | apply State.commitCrossing_runs | apply State.modPower_runs | rw [ends_next]) | split

theorem execPwrDisAssert_runs (hmemory : Field.memory ∈ W) (hfree : Field.free ∈ W) (hfabric : Field.fabric ∈ W) (hhost : Field.host ∈ W) (hamp : Field.amp ∈ W) (hfaults : Field.faults ∈ W) (hpower : Field.power ∈ W) (hsec : Field.sec ∈ W) (hmgmt : Field.mgmt ∈ W) (hcl : Field.cl ∈ W) (hsched : Field.sched ∈ W) (htiers : Field.tiers ∈ W) (htokens : Field.tokens ∈ W) (hsel : Field.sel ∈ W) (hindex : Field.index ∈ W) (hpipes : Field.pipes ∈ W) (hmedia : Field.media ∈ W) (hftl : Field.ftl ∈ W) (hspan : Field.span ∈ W) (hupd : Field.upd ∈ W) (h : Runs W s0 s) :
    Ends W s0 (execPwrDisAssert s) := by
  unfold execPwrDisAssert
  try dsimp only
  repeat' first | with_reducible (first | assumption | apply State.commitCrossing_runs | apply State.modPower_runs | rw [ends_next]) | split

theorem execPwrDisDeassert_runs (hpower : Field.power ∈ W) (h : Runs W s0 s) :
    Ends W s0 (execPwrDisDeassert s) := by
  unfold execPwrDisDeassert
  try dsimp only
  repeat' first | with_reducible (first | assumption | apply State.modPower_runs | rw [ends_next]) | split

theorem execJunctionCooldown_runs (hpower : Field.power ∈ W) (h : Runs W s0 s) (x1 x2 x3) :
    Ends W s0 (execJunctionCooldown x1 x2 x3 s) := by
  unfold execJunctionCooldown
  try dsimp only
  repeat' first | with_reducible (first | assumption | apply State.modPower_runs | rw [ends_next]) | split

theorem State.restartCounts_runs (hfabric : Field.fabric ∈ W) (h : Runs W s0 s) :
    Runs W s0 (State.restartCounts s) := by
  unfold State.restartCounts
  try dsimp only
  repeat' first | with_reducible (first | assumption | apply State.modFabric_runs) | split

theorem execStartCondition_runs (hfabric : Field.fabric ∈ W) (hpower : Field.power ∈ W) (h : Runs W s0 s) (x1) :
    Ends W s0 (execStartCondition x1 s) := by
  unfold execStartCondition
  try dsimp only
  repeat' first | with_reducible (first | assumption | apply State.modPower_runs | apply State.restartCounts_runs | rw [ends_next]) | split

theorem execHoldupMeasurement_runs (hfabric : Field.fabric ∈ W) (hamp : Field.amp ∈ W) (hpower : Field.power ∈ W) (h : Runs W s0 s) (x1) :
    Ends W s0 (execHoldupMeasurement x1 s) := by
  unfold execHoldupMeasurement
  try dsimp only
  repeat' first | with_reducible (first | assumption | apply State.modPower_runs | apply State.post_runs | rw [ends_next]) | split

theorem drainEu_runs (hmedia : Field.media ∈ W) (hftl : Field.ftl ∈ W) (h : Runs W s0 s) (x1 x2) :
    Runs W s0 (drainEu x1 x2 s) := by
  fun_induction drainEu x1 x2 s <;> try rename_i ih
  all_goals try dsimp only
  all_goals repeat' first | with_reducible (first | assumption | apply ih | apply State.programGroup_runs) | split

theorem State.drainBuffer_runs (hmedia : Field.media ∈ W) (hftl : Field.ftl ∈ W) (h : Runs W s0 s) :
    Runs W s0 (State.drainBuffer s) := by
  unfold State.drainBuffer
  try dsimp only
  repeat' first | with_reducible (first | assumption | apply drainEu_runs | apply State.modFtl_runs | refine runs_foldl (fun _ _ _ => ?_) _ ?_) | split

theorem State.dispatchAll_runs (hmemory : Field.memory ∈ W) (hhostMem : Field.hostMem ∈ W) (hfree : Field.free ∈ W) (hfabric : Field.fabric ∈ W) (hhost : Field.host ∈ W) (hamp : Field.amp ∈ W) (hcl : Field.cl ∈ W) (hsched : Field.sched ∈ W) (htiers : Field.tiers ∈ W) (htokens : Field.tokens ∈ W) (h : Runs W s0 s) :
    Runs W s0 (State.dispatchAll s) := by
  unfold State.dispatchAll
  try dsimp only
  repeat' first | with_reducible (first | assumption | apply State.dispatchPoint_runs | refine runs_foldl (fun _ _ _ => ?_) _ ?_) | split

theorem State.setLadder_runs (hfabric : Field.fabric ∈ W) (hamp : Field.amp ∈ W) (hpower : Field.power ∈ W) (h : Runs W s0 s) (x1) :
    Runs W s0 (State.setLadder s x1) := by
  unfold State.setLadder
  try dsimp only
  repeat' first | with_reducible (first | assumption | apply State.post_runs | apply State.modPower_runs) | split

theorem State.spanDown_runs (hfabric : Field.fabric ∈ W) (hamp : Field.amp ∈ W) (hspan : Field.span ∈ W) (h : Runs W s0 s) :
    Runs W s0 (State.spanDown s) := by
  unfold State.spanDown
  try dsimp only
  repeat' first | with_reducible (first | assumption | apply State.portDown_runs) | split

theorem State.powerAnswer_runs (hamp : Field.amp ∈ W) (h : Runs W s0 s) :
    Runs W s0 (State.powerAnswer s) := by
  unfold State.powerAnswer
  try dsimp only
  repeat' first | with_reducible (first | assumption | apply State.workDone_runs) | split

theorem State.enterState_runs (hmemory : Field.memory ∈ W) (hhostMem : Field.hostMem ∈ W) (hfree : Field.free ∈ W) (hfabric : Field.fabric ∈ W) (hhost : Field.host ∈ W) (hamp : Field.amp ∈ W) (hfaults : Field.faults ∈ W) (hpower : Field.power ∈ W) (hsec : Field.sec ∈ W) (hmgmt : Field.mgmt ∈ W) (hcl : Field.cl ∈ W) (hsched : Field.sched ∈ W) (htiers : Field.tiers ∈ W) (htokens : Field.tokens ∈ W) (hsel : Field.sel ∈ W) (hindex : Field.index ∈ W) (hpipes : Field.pipes ∈ W) (hmedia : Field.media ∈ W) (hftl : Field.ftl ∈ W) (hspan : Field.span ∈ W) (hupd : Field.upd ∈ W) (h : Runs W s0 s) :
    Runs W s0 (State.enterState s) := by
  unfold State.enterState
  try dsimp only
  repeat' first | with_reducible (first | assumption | apply State.setLadder_runs | apply State.spanDown_runs | apply State.loseCompute_runs | apply State.loseHbm_runs | apply State.drainBuffer_runs | apply State.modPower_runs | apply State.lose_runs | apply State.modSpan_runs | apply State.dispatchAll_runs) | split

theorem execPowerStateEntry_runs (hmemory : Field.memory ∈ W) (hhostMem : Field.hostMem ∈ W) (hfree : Field.free ∈ W) (hfabric : Field.fabric ∈ W) (hhost : Field.host ∈ W) (hamp : Field.amp ∈ W) (hfaults : Field.faults ∈ W) (hpower : Field.power ∈ W) (hsec : Field.sec ∈ W) (hmgmt : Field.mgmt ∈ W) (hcl : Field.cl ∈ W) (hsched : Field.sched ∈ W) (htiers : Field.tiers ∈ W) (htokens : Field.tokens ∈ W) (hsel : Field.sel ∈ W) (hindex : Field.index ∈ W) (hpipes : Field.pipes ∈ W) (hmedia : Field.media ∈ W) (hftl : Field.ftl ∈ W) (hspan : Field.span ∈ W) (hupd : Field.upd ∈ W) (h : Runs W s0 s) :
    Ends W s0 (execPowerStateEntry s) := by
  unfold execPowerStateEntry
  try dsimp only
  repeat' first | with_reducible (first | assumption | apply State.powerAnswer_runs | apply State.enterState_runs | rw [ends_next]) | split

theorem powerSet_runs (hfabric : Field.fabric ∈ W) (hamp : Field.amp ∈ W) (hpower : Field.power ∈ W) (hspan : Field.span ∈ W) (h : Runs W s0 s) (x1) :
    Runs W s0 (powerSet x1 s).1 := by
  unfold powerSet
  try dsimp only
  repeat' first | with_reducible (first | assumption | apply ampRefuse_runs | apply State.leaveEbony_runs | apply State.wake_runs | apply State.modPower_runs | apply ampAnswer_runs | refine Runs.of_fst (by assumption) ?_) | split

theorem execPowerSet_runs (hfabric : Field.fabric ∈ W) (hamp : Field.amp ∈ W) (hpower : Field.power ∈ W) (hspan : Field.span ∈ W) (h : Runs W s0 s) (x1) :
    Ends W s0 (execPowerSet x1 s) := by
  unfold execPowerSet
  try dsimp only
  repeat' first | with_reducible (first | assumption | apply ampExec_runs | apply powerSet_runs | rw [ends_next] | refine Runs.of_fst (by assumption) ?_) | split | (intro _; intros; try dsimp only)

theorem execSetFeaturesPowerManagement_runs (hanswer : Field.answer ∈ W) (hfabric : Field.fabric ∈ W) (hhost : Field.host ∈ W) (hpower : Field.power ∈ W) (h : Runs W s0 s) (x1 x2) :
    Ends W s0 (execSetFeaturesPowerManagement x1 x2 s) := by
  unfold execSetFeaturesPowerManagement
  try dsimp only
  repeat' first | with_reducible (first | assumption | apply State.admin_runs | apply Admin.refuse_runs | apply State.modPower_runs | rw [ends_next] | refine Runs.of_fst (by assumption) ?_) | split | (intro _; intros; try dsimp only)

theorem State.thermal_runs (hfabric : Field.fabric ∈ W) (hamp : Field.amp ∈ W) (h : Runs W s0 s) (x1 x2 x3) :
    Runs W s0 (State.thermal s x1 x2 x3) := by
  unfold State.thermal
  try dsimp only
  repeat' first | with_reducible (first | assumption | apply State.post_runs) | split

theorem State.setPeak_runs (hfabric : Field.fabric ∈ W) (hamp : Field.amp ∈ W) (hpower : Field.power ∈ W) (h : Runs W s0 s) (x1) :
    Runs W s0 (State.setPeak s x1) := by
  unfold State.setPeak
  try dsimp only
  repeat' first | with_reducible (first | assumption | apply State.post_runs | apply State.modPower_runs) | split

theorem State.cooling_runs (hfabric : Field.fabric ∈ W) (hamp : Field.amp ∈ W) (hpower : Field.power ∈ W) (h : Runs W s0 s) (x1) :
    Runs W s0 (State.cooling s x1) := by
  unfold State.cooling
  try dsimp only
  repeat' first | with_reducible (first | assumption | apply State.thermal_runs | apply State.setPeak_runs | apply State.modPower_runs) | split

theorem execCoolantLimitCrossing_runs (hfabric : Field.fabric ∈ W) (hamp : Field.amp ∈ W) (hpower : Field.power ∈ W) (h : Runs W s0 s) (x1 x2) :
    Ends W s0 (execCoolantLimitCrossing x1 x2 s) := by
  unfold execCoolantLimitCrossing
  try dsimp only
  repeat' first | with_reducible (first | assumption | apply State.cooling_runs | apply State.modPower_runs | rw [ends_next]) | split

theorem execDeniedExit_runs (hfabric : Field.fabric ∈ W) (hamp : Field.amp ∈ W) (hpower : Field.power ∈ W) (h : Runs W s0 s) :
    Ends W s0 (execDeniedExit s) := by
  unfold execDeniedExit
  try dsimp only
  repeat' first | with_reducible (first | assumption | apply State.setPeak_runs | apply State.modPower_runs | rw [ends_next]) | split

theorem execCurrentLimit_runs (hfabric : Field.fabric ∈ W) (hamp : Field.amp ∈ W) (hpower : Field.power ∈ W) (h : Runs W s0 s) (x1) :
    Ends W s0 (execCurrentLimit x1 s) := by
  unfold execCurrentLimit
  try dsimp only
  repeat' first | with_reducible (first | assumption | apply State.stepDown_runs | apply State.modPower_runs | rw [ends_next]) | split

theorem execDrawAverageCrossing_runs (hfabric : Field.fabric ∈ W) (hamp : Field.amp ∈ W) (hpower : Field.power ∈ W) (h : Runs W s0 s) (x1) :
    Ends W s0 (execDrawAverageCrossing x1 s) := by
  unfold execDrawAverageCrossing
  try dsimp only
  repeat' first | with_reducible (first | assumption | apply State.modPower_runs | apply State.cooling_runs | apply State.setPeak_runs | apply State.stepDown_runs | rw [ends_next]) | split

theorem execPeakWindowExpiry_runs (hfabric : Field.fabric ∈ W) (hamp : Field.amp ∈ W) (hpower : Field.power ∈ W) (h : Runs W s0 s) :
    Ends W s0 (execPeakWindowExpiry s) := by
  unfold execPeakWindowExpiry
  try dsimp only
  repeat' first | with_reducible (first | assumption | apply State.modPower_runs | apply State.clockFollow_runs | apply State.setPeak_runs | rw [ends_next]) | split

theorem execPeakSpentRecheck_runs (hfabric : Field.fabric ∈ W) (hamp : Field.amp ∈ W) (hpower : Field.power ∈ W) (h : Runs W s0 s) :
    Ends W s0 (execPeakSpentRecheck s) := by
  unfold execPeakSpentRecheck
  try dsimp only
  repeat' first | with_reducible (first | assumption | apply State.modPower_runs | apply State.clockFollow_runs | rw [ends_next]) | split

theorem execClockStepUpTimer_runs (hfabric : Field.fabric ∈ W) (hamp : Field.amp ∈ W) (hpower : Field.power ∈ W) (h : Runs W s0 s) (x1) :
    Ends W s0 (execClockStepUpTimer x1 s) := by
  unfold execClockStepUpTimer
  try dsimp only
  repeat' first | with_reducible (first | assumption | apply State.clockFollow_runs | apply State.modPower_runs | rw [ends_next]) | split

theorem execPeakRecovery_runs (hfabric : Field.fabric ∈ W) (hamp : Field.amp ∈ W) (hpower : Field.power ∈ W) (h : Runs W s0 s) :
    Ends W s0 (execPeakRecovery s) := by
  unfold execPeakRecovery
  try dsimp only
  repeat' first | with_reducible (first | assumption | apply State.setPeak_runs | apply State.modPower_runs | rw [ends_next]) | split

theorem State.crossings_runs (hfabric : Field.fabric ∈ W) (hamp : Field.amp ∈ W) (h : Runs W s0 s) (x1 x2 x3 x4) :
    Runs W s0 (State.crossings s x1 x2 x3 x4) := by
  induction x4 generalizing s with
  | nil => exact h
  | cons t l ih =>
    simp only [State.crossings]
    apply ih
    repeat' split
    all_goals first | exact h | (apply State.thermal_runs <;> with_reducible assumption)

theorem execJunctionTempCrossing_runs (hmemory : Field.memory ∈ W) (hfree : Field.free ∈ W) (hfabric : Field.fabric ∈ W) (hhost : Field.host ∈ W) (hamp : Field.amp ∈ W) (hfaults : Field.faults ∈ W) (hpower : Field.power ∈ W) (hsec : Field.sec ∈ W) (hmgmt : Field.mgmt ∈ W) (hcl : Field.cl ∈ W) (hsched : Field.sched ∈ W) (htiers : Field.tiers ∈ W) (htokens : Field.tokens ∈ W) (hsel : Field.sel ∈ W) (hindex : Field.index ∈ W) (hpipes : Field.pipes ∈ W) (hmedia : Field.media ∈ W) (hftl : Field.ftl ∈ W) (hspan : Field.span ∈ W) (hupd : Field.upd ∈ W) (h : Runs W s0 s) (x1 x2) :
    Ends W s0 (execJunctionTempCrossing x1 x2 s) := by
  unfold execJunctionTempCrossing
  try dsimp only
  repeat' first | with_reducible (first | assumption | apply State.modPower_runs | apply State.crossings_runs | apply State.clockFollow_runs | apply State.commitCrossing_runs | rw [ends_next]) | split

theorem execThermalStepUp_runs (hfabric : Field.fabric ∈ W) (hamp : Field.amp ∈ W) (hpower : Field.power ∈ W) (h : Runs W s0 s) :
    Ends W s0 (execThermalStepUp s) := by
  unfold execThermalStepUp
  try dsimp only
  repeat' first | with_reducible (first | assumption | apply State.clockFollow_runs | apply State.modPower_runs | rw [ends_next]) | split

theorem execFlashTempCrossing_runs (hmemory : Field.memory ∈ W) (hfree : Field.free ∈ W) (hfabric : Field.fabric ∈ W) (hamp : Field.amp ∈ W) (hfaults : Field.faults ∈ W) (hpower : Field.power ∈ W) (hpipes : Field.pipes ∈ W) (hmedia : Field.media ∈ W) (hftl : Field.ftl ∈ W) (h : Runs W s0 s) (x1) :
    Ends W s0 (execFlashTempCrossing x1 s) := by
  unfold execFlashTempCrossing
  try dsimp only
  repeat' first | with_reducible (first | assumption | apply State.modPower_runs | apply State.crossings_runs | apply State.thermal_runs | apply State.holdFollow_runs | rw [ends_next]) | split

theorem writeGovernor_runs (hpower : Field.power ∈ W) (h : Runs W s0 s) (x1) :
    Runs W s0 (writeGovernor x1 s).1 := by
  unfold writeGovernor
  try dsimp only
  repeat' first | with_reducible (first | assumption | apply ampRefuse_runs | apply ampAnswer_runs | apply State.modPower_runs | refine Runs.of_fst (by assumption) ?_) | split

theorem execWriteGovernor_runs (hamp : Field.amp ∈ W) (hpower : Field.power ∈ W) (h : Runs W s0 s) (x1) :
    Ends W s0 (execWriteGovernor x1 s) := by
  unfold execWriteGovernor
  try dsimp only
  repeat' first | with_reducible (first | assumption | apply ampExec_runs | apply writeGovernor_runs | rw [ends_next] | refine Runs.of_fst (by assumption) ?_) | split | (intro _; intros; try dsimp only)

theorem powerRead_runs  (h : Runs W s0 s) (x1) :
    Runs W s0 (powerRead x1 s).1 := by
  unfold powerRead
  try dsimp only
  repeat' first | with_reducible (first | assumption | apply ampAnswer_runs | refine Runs.of_fst (by assumption) ?_) | split

theorem execPowerRead_runs (hamp : Field.amp ∈ W) (h : Runs W s0 s) (x1) :
    Ends W s0 (execPowerRead x1 s) := by
  unfold execPowerRead
  try dsimp only
  repeat' first | with_reducible (first | assumption | apply ampExec_runs | apply powerRead_runs | rw [ends_next] | refine Runs.of_fst (by assumption) ?_) | split | (intro _; intros; try dsimp only)

/-! ## Boot -/

@[simp] theorem Sec.readRecords_counter (x : Sec) : x.readRecords.counter = x.counter := by unfold Sec.readRecords; split <;> rfl
@[simp] theorem Sec.readRecords_revoked (x : Sec) : x.readRecords.revoked = x.revoked := by unfold Sec.readRecords; split <;> rfl
/-- Starting an image never lowers the anti-rollback counter and never restores a key (R463). -/
@[simp] theorem Sec.runImage_counter (x : Sec) (h) : x.counter ≤ (x.runImage h).counter := Nat.le_max_left _ _
theorem Sec.runImage_revoked (x : Sec) (h) (k : Nat) (hk : k ∈ x.revoked) : k ∈ (x.runImage h).revoked := by
  simp only [Sec.runImage]; split
  · exact List.mem_append_left _ hk
  · exact hk

theorem replayUnits_runs (hfree : Field.free ∈ W) (hmedia : Field.media ∈ W) (hftl : Field.ftl ∈ W) (h : Runs W s0 s) (x1 x2) :
    Runs W s0 (replayUnits x1 x2 s) := by
  fun_induction replayUnits x1 x2 s <;> try rename_i ih
  all_goals try dsimp only
  all_goals repeat' first | with_reducible (first | assumption | apply ih | apply State.commitUnits_runs) | split

theorem State.replay_runs (hfree : Field.free ∈ W) (hmedia : Field.media ∈ W) (hftl : Field.ftl ∈ W) (h : Runs W s0 s) (x1 x2) :
    OptRuns W s0 id (State.replay s x1 x2) := by
  unfold State.replay
  try dsimp only
  repeat' first | with_reducible (first | assumption | apply State.modFtl_runs | apply State.drainBuffer_runs | apply replayUnits_runs | apply optRuns_none | refine optRuns_id ?_ | refine optRuns_some ?_ | refine optRuns_map ?_ (fun _ _ => ?_)) | split

theorem State.trainPort_runs (hhost : Field.host ∈ W) (h : Runs W s0 s) (x1) :
    Runs W s0 (State.trainPort s x1) := by
  unfold State.trainPort
  try dsimp only
  repeat' first | with_reducible (first | assumption | apply State.modCtrl_runs) | split

theorem State.setGather_runs (hsel : Field.sel ∈ W) (h : Runs W s0 s) (x1) :
    Runs W s0 (State.setGather s x1) := by
  unfold State.setGather
  try dsimp only
  repeat' first | with_reducible (first | assumption | apply State.modSel_runs | refine runs_foldl (fun _ _ _ => ?_) _ ?_) | split

theorem State.enterRecovery_runs (hhost : Field.host ∈ W) (hamp : Field.amp ∈ W) (hsec : Field.sec ∈ W) (hsel : Field.sel ∈ W) (h : Runs W s0 s) (x1) :
    Runs W s0 (State.enterRecovery s x1) := by
  unfold State.enterRecovery
  try dsimp only
  repeat' first | with_reducible (first | assumption | apply State.workDone_runs | apply State.setGather_runs | apply State.modHost_runs | apply State.modMb_runs) | refine State.modSec_runs (by assumption) ?_ _ (by simp) (by simp) | split

theorem State.startKeepers_runs (hfaults : Field.faults ∈ W) (hsec : Field.sec ∈ W) (hsel : Field.sel ∈ W) (h : Runs W s0 s) :
    Runs W s0 (State.startKeepers s) := by
  unfold State.startKeepers
  try dsimp only
  repeat' first | with_reducible (first | assumption | apply State.setGather_runs | apply State.modFaults_runs) | refine State.modSec_runs (by assumption) ?_ _ (by simp) (by simp) | split

theorem State.bringUpMedia_runs (hmemory : Field.memory ∈ W) (hfaults : Field.faults ∈ W) (hmedia : Field.media ∈ W) (h : Runs W s0 s) (x1) :
    Runs W s0 (State.bringUpMedia s x1) := by
  unfold State.bringUpMedia
  try dsimp only
  repeat' first | with_reducible (first | assumption | apply onChannels_runs | apply State.modChan_runs | apply targetLost_runs | apply resetEntry_runs | refine runs_foldl (fun _ _ _ => ?_) _ ?_) | split | (intro _; intros; try dsimp only)

theorem State.configure_runs (hfabric : Field.fabric ∈ W) (hamp : Field.amp ∈ W) (hsec : Field.sec ∈ W) (h : Runs W s0 s) :
    Runs W s0 (State.configure s) := by
  unfold State.configure
  try dsimp only
  repeat' first | with_reducible (first | assumption | apply State.post_runs) | refine State.modSec_runs (by assumption) ?_ _ (by simp) (by simp) | split

theorem State.samplePins_runs (hhost : Field.host ∈ W) (hftl : Field.ftl ∈ W) (h : Runs W s0 s) (x1) :
    Runs W s0 (State.samplePins s x1) := by
  unfold State.samplePins
  try dsimp only
  repeat' first | with_reducible (first | assumption | apply State.modHost_runs | apply State.modFtl_runs) | split

theorem State.bootSteps_runs (hmemory : Field.memory ∈ W) (hfabric : Field.fabric ∈ W) (hhost : Field.host ∈ W) (hamp : Field.amp ∈ W) (hfaults : Field.faults ∈ W) (hsec : Field.sec ∈ W) (hsel : Field.sel ∈ W) (hmedia : Field.media ∈ W) (h : Runs W s0 s) (x1) :
    Runs W s0 (State.bootSteps s x1) := by
  unfold State.bootSteps
  extract_lets s1
  have h1 : Runs W s0 s1 := by
    apply State.trainPort_runs <;> first | with_reducible assumption | skip
    apply State.trainPort_runs <;> first | with_reducible assumption | skip
    exact State.modSec_runs hsec h _ (by simp) (by simp)
  clear_value s1
  split
  · apply State.enterRecovery_runs <;> with_reducible assumption
  · apply State.configure_runs <;> first | with_reducible assumption | skip
    apply State.bringUpMedia_runs <;> first | with_reducible assumption | skip
    apply State.startKeepers_runs <;> first | with_reducible assumption | skip
    exact State.modSec_runs hsec h1 _ (Sec.runImage_counter _ _) (Sec.runImage_revoked _ _)

theorem execBoot_runs (hmemory : Field.memory ∈ W) (hfree : Field.free ∈ W) (hfabric : Field.fabric ∈ W) (hhost : Field.host ∈ W) (hamp : Field.amp ∈ W) (hfaults : Field.faults ∈ W) (hsec : Field.sec ∈ W) (hsel : Field.sel ∈ W) (hmedia : Field.media ∈ W) (hftl : Field.ftl ∈ W) (h : Runs W s0 s) (x1 x2 x3 x4 x5) :
    Ends W s0 (execBoot x1 x2 x3 x4 x5 s) := by
  unfold execBoot
  rw [ends_next]
  split
  · exact h
  · split
    · exact State.modSec_runs hsec h _ (Nat.le_refl _) (fun _ h => h)
    · extract_lets t
      have h1 : Runs W s0 t := by
        apply State.bootSteps_runs <;> first | with_reducible assumption | (apply State.samplePins_runs <;> with_reducible assumption)
      clear_value t
      split
      · have h2 : OptRuns W s0 id (t.replay x4 x5) := by apply State.replay_runs <;> with_reducible assumption
        cases e : t.replay x4 x5 with
        | none => exact h
        | some r => exact h2 r e
      · exact h1

theorem State.postRestarted_runs (hfree : Field.free ∈ W) (hfabric : Field.fabric ∈ W) (hamp : Field.amp ∈ W) (h : Runs W s0 s) :
    Runs W s0 (State.postRestarted s) := by
  unfold State.postRestarted
  try dsimp only
  repeat' first | with_reducible (first | assumption | apply State.used_runs | apply State.post_runs) | split

theorem State.finishDiscard_runs (hmemory : Field.memory ∈ W) (hfree : Field.free ∈ W) (hfabric : Field.fabric ∈ W) (hamp : Field.amp ∈ W) (hfaults : Field.faults ∈ W) (hmedia : Field.media ∈ W) (hftl : Field.ftl ∈ W) (h : Runs W s0 s) (x1 x2) :
    Runs W s0 (State.finishDiscard s x1 x2) := by
  unfold State.finishDiscard
  try dsimp only
  repeat' first | with_reducible (first | assumption | apply emptyEus_runs | apply State.modFtl_runs) | split

theorem execKeeperReady_runs (hmemory : Field.memory ∈ W) (hfree : Field.free ∈ W) (hfabric : Field.fabric ∈ W) (hhost : Field.host ∈ W) (hamp : Field.amp ∈ W) (hfaults : Field.faults ∈ W) (hpower : Field.power ∈ W) (hsec : Field.sec ∈ W) (hcl : Field.cl ∈ W) (htiers : Field.tiers ∈ W) (hsel : Field.sel ∈ W) (hmedia : Field.media ∈ W) (hftl : Field.ftl ∈ W) (hspan : Field.span ∈ W) (h : Runs W s0 s) (x1 x2 x3 x4) :
    Ends W s0 (execKeeperReady x1 x2 x3 x4 s) := by
  unfold execKeeperReady
  try dsimp only
  repeat' first | with_reducible (first | assumption | apply State.finishDiscard_runs | apply State.setGather_runs | apply State.openUp_runs | apply State.raiseReady_runs | apply State.powerAnswer_runs | apply State.modPower_runs | apply State.postRestarted_runs | rw [ends_next] | refine Runs.of_some (by assumption) ?_ | refine optRuns_bind_id ?_ (fun _ _ => ?_) | refine optRuns_map_id ?_ (fun _ _ => ?_) | refine optRuns_getD ?_ ?_ | refine optRuns_id ?_ | apply optRuns_none) | refine State.modSec_runs (by assumption) ?_ _ (by simp) (by simp) | split

theorem execKeeperReadyTimeout_runs (hmemory : Field.memory ∈ W) (hfree : Field.free ∈ W) (hfabric : Field.fabric ∈ W) (hhost : Field.host ∈ W) (hamp : Field.amp ∈ W) (hfaults : Field.faults ∈ W) (hpower : Field.power ∈ W) (hsec : Field.sec ∈ W) (hmgmt : Field.mgmt ∈ W) (hcl : Field.cl ∈ W) (hsched : Field.sched ∈ W) (htiers : Field.tiers ∈ W) (htokens : Field.tokens ∈ W) (hsel : Field.sel ∈ W) (hindex : Field.index ∈ W) (hpipes : Field.pipes ∈ W) (hmedia : Field.media ∈ W) (hftl : Field.ftl ∈ W) (hspan : Field.span ∈ W) (hupd : Field.upd ∈ W) (h : Runs W s0 s) :
    Ends W s0 (execKeeperReadyTimeout s) := by
  unfold execKeeperReadyTimeout
  try dsimp only
  repeat' first | with_reducible (first | assumption | apply State.reboot_runs | apply State.enterRecovery_runs | apply State.trainPort_runs | rw [ends_next]) | refine State.modSec_runs (by assumption) ?_ _ (by simp) (by simp) | split

theorem execAuxPowerUp_runs (hmgmt : Field.mgmt ∈ W) (h : Runs W s0 s) (x1) :
    Ends W s0 (execAuxPowerUp x1 s) := by
  unfold execAuxPowerUp
  try dsimp only
  repeat' first | with_reducible (first | assumption | apply State.modMgmt_runs | rw [ends_next]) | split

theorem execAuxPowerLoss_runs (hmemory : Field.memory ∈ W) (hfree : Field.free ∈ W) (hfabric : Field.fabric ∈ W) (hhost : Field.host ∈ W) (hamp : Field.amp ∈ W) (hfaults : Field.faults ∈ W) (hpower : Field.power ∈ W) (hsec : Field.sec ∈ W) (hmgmt : Field.mgmt ∈ W) (hcl : Field.cl ∈ W) (hsched : Field.sched ∈ W) (htiers : Field.tiers ∈ W) (htokens : Field.tokens ∈ W) (hsel : Field.sel ∈ W) (hindex : Field.index ∈ W) (hpipes : Field.pipes ∈ W) (hmedia : Field.media ∈ W) (hftl : Field.ftl ∈ W) (hspan : Field.span ∈ W) (hupd : Field.upd ∈ W) (h : Runs W s0 s) :
    Ends W s0 (execAuxPowerLoss s) := by
  unfold execAuxPowerLoss
  try dsimp only
  repeat' first | with_reducible (first | assumption | apply State.hdDown_runs | apply State.modMgmt_runs | rw [ends_next]) | split

theorem execPerstDeassert_runs (hfabric : Field.fabric ∈ W) (hhost : Field.host ∈ W) (hpower : Field.power ∈ W) (h : Runs W s0 s) (x1) :
    Ends W s0 (execPerstDeassert x1 s) := by
  unfold execPerstDeassert
  try dsimp only
  repeat' first | with_reducible (first | assumption | apply State.modCtrl_runs | apply State.leaveEbony_runs | apply State.trainPort_runs | rw [ends_next]) | split

theorem execControllerEnable_runs (hhost : Field.host ∈ W) (h : Runs W s0 s) (x1 x2 x3) :
    Ends W s0 (execControllerEnable x1 x2 x3 s) := by
  unfold execControllerEnable
  try dsimp only
  repeat' first | with_reducible (first | assumption | apply State.modCtrl_runs | rw [ends_next]) | split

theorem execCreateIoSq_runs (hanswer : Field.answer ∈ W) (hfabric : Field.fabric ∈ W) (hhost : Field.host ∈ W) (h : Runs W s0 s) (x1 x2) :
    Ends W s0 (execCreateIoSq x1 x2 s) := by
  unfold execCreateIoSq
  try dsimp only
  repeat' first | with_reducible (first | assumption | apply State.admin_runs | apply admCreateSq_runs | rw [ends_next] | refine Runs.of_fst (by assumption) ?_) | split | (intro _; intros; try dsimp only)

theorem execCreateIoCq_runs (hanswer : Field.answer ∈ W) (hfabric : Field.fabric ∈ W) (hhost : Field.host ∈ W) (h : Runs W s0 s) (x1 x2) :
    Ends W s0 (execCreateIoCq x1 x2 s) := by
  unfold execCreateIoCq
  try dsimp only
  repeat' first | with_reducible (first | assumption | apply State.admin_runs | apply admCreateCq_runs | rw [ends_next] | refine Runs.of_fst (by assumption) ?_) | split | (intro _; intros; try dsimp only)

theorem sqTail_runs (hfabric : Field.fabric ∈ W) (hhost : Field.host ∈ W) (hamp : Field.amp ∈ W) (hpower : Field.power ∈ W) (hspan : Field.span ∈ W) (h : Runs W s0 s) (x1 x2 x3) :
    Runs W s0 (sqTail x1 x2 x3 s) := by
  unfold sqTail
  try dsimp only
  repeat' first | with_reducible (first | assumption | apply State.noteOrdered_runs | apply State.modSq_runs | apply State.wake_runs) | split

theorem execSqTailDoorbell_runs (hfabric : Field.fabric ∈ W) (hhost : Field.host ∈ W) (hamp : Field.amp ∈ W) (hpower : Field.power ∈ W) (hspan : Field.span ∈ W) (h : Runs W s0 s) (x1 x2 x3) :
    Ends W s0 (execSqTailDoorbell x1 x2 x3 s) := by
  unfold execSqTailDoorbell
  try dsimp only
  repeat' first | with_reducible (first | assumption | apply sqTail_runs | rw [ends_next]) | split

/-! ## Isolate -/

theorem State.lostUnit_runs (hfaults : Field.faults ∈ W) (h : Runs W s0 s) (x1) :
    Runs W s0 (State.lostUnit s x1) := by
  unfold State.lostUnit
  try dsimp only
  repeat' first | with_reducible (first | assumption | apply State.modFaults_runs) | split

theorem State.linkCrimson_runs (hsched : Field.sched ∈ W) (h : Runs W s0 s) (x1) :
    Runs W s0 (State.linkCrimson s x1) := by
  unfold State.linkCrimson
  try dsimp only
  repeat' first | with_reducible (first | assumption | apply State.modSched_runs) | split

theorem State.isolateLink_runs (hmemory : Field.memory ∈ W) (hfree : Field.free ∈ W) (hfabric : Field.fabric ∈ W) (hhost : Field.host ∈ W) (hamp : Field.amp ∈ W) (hfaults : Field.faults ∈ W) (hpower : Field.power ∈ W) (hsec : Field.sec ∈ W) (hmgmt : Field.mgmt ∈ W) (hcl : Field.cl ∈ W) (hsched : Field.sched ∈ W) (htiers : Field.tiers ∈ W) (htokens : Field.tokens ∈ W) (hsel : Field.sel ∈ W) (hindex : Field.index ∈ W) (hpipes : Field.pipes ∈ W) (hmedia : Field.media ∈ W) (hftl : Field.ftl ∈ W) (hspan : Field.span ∈ W) (hupd : Field.upd ∈ W) (h : Runs W s0 s) (x1) :
    Runs W s0 (State.isolateLink s x1) := by
  unfold State.isolateLink
  try dsimp only
  repeat' first | with_reducible (first | assumption | apply State.lostUnit_runs | apply State.modFabric_runs | apply State.linkCrimson_runs | apply State.commitCrossing_runs) | split

theorem State.moveRegions_runs (hmemory : Field.memory ∈ W) (hamp : Field.amp ∈ W) (hcl : Field.cl ∈ W) (htiers : Field.tiers ∈ W) (h : Runs W s0 s) (x1 x2 x3) :
    Runs W s0 (State.moveRegions s x1 x2 x3) := by
  unfold State.moveRegions
  try dsimp only
  repeat' first | with_reducible (first | assumption | apply State.modCl_runs | apply State.store_runs | apply State.modAmp_runs | apply State.dropObject_runs | refine runs_foldl (fun _ _ _ => ?_) _ ?_) | split

theorem moveAll_runs (hmemory : Field.memory ∈ W) (hamp : Field.amp ∈ W) (hcl : Field.cl ∈ W) (htiers : Field.tiers ∈ W) (h : Runs W s0 s) (x1 x2 x3) :
    Runs W s0 (moveAll x1 x2 x3 s) := by
  fun_induction moveAll x1 x2 x3 s <;> try rename_i ih
  all_goals try dsimp only
  all_goals repeat' first | with_reducible (first | assumption | apply ih | apply State.moveRegions_runs) | split

theorem State.isolateCluster_runs (hmemory : Field.memory ∈ W) (hhostMem : Field.hostMem ∈ W) (hfree : Field.free ∈ W) (hfabric : Field.fabric ∈ W) (hhost : Field.host ∈ W) (hamp : Field.amp ∈ W) (hfaults : Field.faults ∈ W) (hcl : Field.cl ∈ W) (hsched : Field.sched ∈ W) (htiers : Field.tiers ∈ W) (htokens : Field.tokens ∈ W) (h : Runs W s0 s) (x1 x2) :
    Runs W s0 (State.isolateCluster s x1 x2) := by
  unfold State.isolateCluster
  try dsimp only
  repeat' first | with_reducible (first | assumption | apply State.modCl_runs | apply State.lostUnit_runs | apply State.endTask_runs | apply moveAll_runs) | split

theorem State.isolateTarget_runs (hfaults : Field.faults ∈ W) (hmedia : Field.media ∈ W) (h : Runs W s0 s) (x1 x2) :
    Runs W s0 (State.isolateTarget s x1 x2) := by
  unfold State.isolateTarget
  try dsimp only
  repeat' first | with_reducible (first | assumption | apply State.lostUnit_runs | apply State.modChan_runs) | split

theorem State.isolate_runs (hmemory : Field.memory ∈ W) (hhostMem : Field.hostMem ∈ W) (hfree : Field.free ∈ W) (hfabric : Field.fabric ∈ W) (hhost : Field.host ∈ W) (hamp : Field.amp ∈ W) (hfaults : Field.faults ∈ W) (hpower : Field.power ∈ W) (hsec : Field.sec ∈ W) (hmgmt : Field.mgmt ∈ W) (hcl : Field.cl ∈ W) (hsched : Field.sched ∈ W) (htiers : Field.tiers ∈ W) (htokens : Field.tokens ∈ W) (hsel : Field.sel ∈ W) (hindex : Field.index ∈ W) (hpipes : Field.pipes ∈ W) (hmedia : Field.media ∈ W) (hftl : Field.ftl ∈ W) (hspan : Field.span ∈ W) (hupd : Field.upd ∈ W) (h : Runs W s0 s) (x1 x2 x3) :
    Runs W s0 (State.isolate s x1 x2 x3) := by
  unfold State.isolate
  try dsimp only
  repeat' first | with_reducible (first | assumption | apply State.isolateLink_runs | apply State.isolateCluster_runs | apply State.isolateTarget_runs | apply State.lostUnit_runs | apply State.portDown_runs) | split

theorem State.spoil_runs (hmemory : Field.memory ∈ W) (h : Runs W s0 s) (x1) :
    Runs W s0 (State.spoil s x1) := by
  unfold State.spoil
  try dsimp only
  repeat' first | with_reducible (first | assumption | apply State.poisonWord_runs) | split

theorem execFaultReport_runs (hmemory : Field.memory ∈ W) (hhostMem : Field.hostMem ∈ W) (hfree : Field.free ∈ W) (hfabric : Field.fabric ∈ W) (hhost : Field.host ∈ W) (hamp : Field.amp ∈ W) (hfaults : Field.faults ∈ W) (hpower : Field.power ∈ W) (hsec : Field.sec ∈ W) (hmgmt : Field.mgmt ∈ W) (hcl : Field.cl ∈ W) (hsched : Field.sched ∈ W) (htiers : Field.tiers ∈ W) (htokens : Field.tokens ∈ W) (hsel : Field.sel ∈ W) (hindex : Field.index ∈ W) (hpipes : Field.pipes ∈ W) (hmedia : Field.media ∈ W) (hftl : Field.ftl ∈ W) (hspan : Field.span ∈ W) (hupd : Field.upd ∈ W) (h : Runs W s0 s) (x1 x2 x3) :
    Ends W s0 (execFaultReport x1 x2 x3 s) := by
  unfold execFaultReport
  try dsimp only
  repeat' first | with_reducible (first | assumption | apply State.isolate_runs | apply State.spoil_runs | apply State.report_runs | rw [ends_next]) | split

theorem execLinkRetrainDone_runs (hmemory : Field.memory ∈ W) (hfree : Field.free ∈ W) (hfabric : Field.fabric ∈ W) (hhost : Field.host ∈ W) (hamp : Field.amp ∈ W) (hfaults : Field.faults ∈ W) (hpower : Field.power ∈ W) (hsec : Field.sec ∈ W) (hmgmt : Field.mgmt ∈ W) (hcl : Field.cl ∈ W) (hsched : Field.sched ∈ W) (htiers : Field.tiers ∈ W) (htokens : Field.tokens ∈ W) (hsel : Field.sel ∈ W) (hindex : Field.index ∈ W) (hpipes : Field.pipes ∈ W) (hmedia : Field.media ∈ W) (hftl : Field.ftl ∈ W) (hspan : Field.span ∈ W) (hupd : Field.upd ∈ W) (h : Runs W s0 s) (x1 x2 x3) :
    Ends W s0 (execLinkRetrainDone x1 x2 x3 s) := by
  unfold execLinkRetrainDone
  try dsimp only
  repeat' first | with_reducible (first | assumption | apply linkRetrained_runs | apply State.isolateLink_runs | rw [ends_next]) | split

/-! ## Registers -/

theorem clRegWrite_runs (hcl : Field.cl ∈ W) (h : Runs W s0 s) (x1 x2 x3) :
    Runs W s0 (clRegWrite x1 x2 x3 s) := by
  unfold clRegWrite
  try dsimp only
  repeat' first | with_reducible (first | assumption | apply State.modCl_runs) | split

theorem spRegWrite_runs (hcl : Field.cl ∈ W) (h : Runs W s0 s) (x1 x2 x3) :
    Runs W s0 (spRegWrite x1 x2 x3 s) := by
  unfold spRegWrite
  try dsimp only
  repeat' first | with_reducible (first | assumption | apply State.modCl_runs) | split

theorem mvRegWrite_runs (hcl : Field.cl ∈ W) (h : Runs W s0 s) (x1 x2 x3) :
    Runs W s0 (mvRegWrite x1 x2 x3 s) := by
  unfold mvRegWrite
  try dsimp only
  repeat' first | with_reducible (first | assumption | apply State.modCl_runs) | split

/-- Every write of a block runs so. -/
def RegBlock.WritesRun (W : List Field) (s0 : State) (b : RegBlock) : Prop := ∀ o v t, Runs W s0 t → Runs W s0 (b.write o v t)


theorem RegBlock.write32_runs {x1 : RegBlock} (hb : x1.WritesRun W s0) (h : Runs W s0 s) (x2 x3) :
    Runs W s0 (RegBlock.write32 x1 x2 x3 s) := by
  unfold RegBlock.write32
  repeat' split
  all_goals exact hb _ _ _ h


theorem RegBlock.writeN_runs {x1 : RegBlock} (hb : x1.WritesRun W s0) (h : Runs W s0 s) (x2 x3 x4) :
    Runs W s0 (RegBlock.writeN x1 x2 x3 x4 s) := by
  unfold RegBlock.writeN
  repeat' split
  · exact hb _ _ _ h
  · exact RegBlock.write32_runs hb (RegBlock.write32_runs hb h _ _) _ _
  · exact RegBlock.write32_runs hb h _ _


theorem msixWrite_runs (hfabric : Field.fabric ∈ W) (h : Runs W s0 s) (x1 x2 x3) :
    Runs W s0 (msixWrite x1 x2 x3 s) := by
  unfold msixWrite
  try dsimp only
  repeat' first | with_reducible (first | assumption | apply State.modFabric_runs | apply State.signal_runs) | split

theorem countRead_runs (hanswer : Field.answer ∈ W) (hfabric : Field.fabric ∈ W) (h : Runs W s0 s) (x1 x2 x3) :
    Runs W s0 (countRead x1 x2 x3 s) := by
  unfold countRead
  try dsimp only
  repeat' first | with_reducible (first | assumption | apply countLoRead_runs | apply State.reply_runs) | split

theorem cfgWrite_runs (hhost : Field.host ∈ W) (h : Runs W s0 s) (x1 x2 x3) :
    Runs W s0 (cfgWrite x1 x2 x3 s) := by
  unfold cfgWrite
  try dsimp only
  repeat' first | with_reducible (first | assumption | apply State.modCtrl_runs) | split

theorem cfgAccess_runs (hanswer : Field.answer ∈ W) (hhost : Field.host ∈ W) (h : Runs W s0 s) (x1 x2 x3) :
    Runs W s0 (cfgAccess x1 x2 x3 s) := by
  unfold cfgAccess
  try dsimp only
  repeat' first | with_reducible (first | assumption | apply State.reply_runs | apply cfgWrite_runs) | split

theorem barRead_runs (hanswer : Field.answer ∈ W) (hfabric : Field.fabric ∈ W) (hamp : Field.amp ∈ W) (h : Runs W s0 s) (x1 x2 x3 x4) :
    Runs W s0 (barRead x1 x2 x3 x4 s) := by
  unfold barRead
  try dsimp only
  repeat' first | with_reducible (first | assumption | apply State.reply_runs | apply State.modMb_runs | apply countRead_runs) | split

theorem barWrite_runs (hanswer : Field.answer ∈ W) (hfabric : Field.fabric ∈ W) (hamp : Field.amp ∈ W) (hcl : Field.cl ∈ W) (h : Runs W s0 s) (x1 x2 x3 x4 x5) :
    Runs W s0 (barWrite x1 x2 x3 x4 x5 s) := by
  unfold barWrite
  split
  · exact State.reply_runs hanswer h _
  · split
    · exact State.reply_runs hanswer h _
    · refine RegBlock.writeN_runs ?_ h _ _ _
      intro o v t ht
      unfold barBlock
      split
      · exact ht
      · apply mbRegWrite_runs <;> with_reducible assumption
      · apply msixWrite_runs <;> with_reducible assumption

theorem devWrite_runs (hanswer : Field.answer ∈ W) (hfabric : Field.fabric ∈ W) (hfaults : Field.faults ∈ W) (hcl : Field.cl ∈ W) (hpipes : Field.pipes ∈ W) (hmedia : Field.media ∈ W) (h : Runs W s0 s) (x1 x2 x3 x4 x5) :
    Runs W s0 (devWrite x1 x2 x3 x4 x5 s) := by
  unfold devWrite
  extract_lets onfi
  split
  · split
    · exact State.reply_runs hanswer h _
    · split
      · rename_i b o e
        refine RegBlock.writeN_runs ?_ h _ _ _
        intro o v t ht
        simp only [devBlock, cdBlock, hdBlock] at e
        repeat' split at e
        all_goals cases e
        all_goals first
          | exact ht
          | (apply clRegWrite_runs <;> with_reducible assumption)
          | (apply spRegWrite_runs <;> with_reducible assumption)
          | (apply mvRegWrite_runs <;> with_reducible assumption)
          | (apply fcRegWrite_runs <;> with_reducible assumption)
          | (apply xqRegWrite_runs <;> with_reducible assumption)
          | (apply cpRegWrite_runs <;> with_reducible assumption)
          | (apply mrRegWrite_runs <;> with_reducible assumption)
          | (apply mrCommonWrite_runs <;> with_reducible assumption)
      · exact h
  · split
    · exact h
    · exact State.reply_runs hanswer h _
  · exact State.reply_runs hanswer h _

theorem execRegisterWrite_runs (hanswer : Field.answer ∈ W) (hfabric : Field.fabric ∈ W) (hhost : Field.host ∈ W) (hamp : Field.amp ∈ W) (hfaults : Field.faults ∈ W) (hcl : Field.cl ∈ W) (hpipes : Field.pipes ∈ W) (hmedia : Field.media ∈ W) (h : Runs W s0 s) (x1 x2 x3 x4) :
    Ends W s0 (execRegisterWrite x1 x2 x3 x4 s) := by
  unfold execRegisterWrite
  try dsimp only
  repeat' first | with_reducible (first | assumption | apply barWrite_runs | apply cfgAccess_runs | apply devWrite_runs | apply State.reply_runs | rw [ends_next]) | split

theorem devRead_runs (hfree : Field.free ∈ W) (hanswer : Field.answer ∈ W) (hfabric : Field.fabric ∈ W) (h : Runs W s0 s) (x1 x2 x3 x4) :
    Runs W s0 (devRead x1 x2 x3 x4 s) := by
  unfold devRead
  try dsimp only
  repeat' first | with_reducible (first | assumption | apply countRead_runs | apply State.reply_runs | apply State.used_runs) | split

theorem memRead_runs (hmemory : Field.memory ∈ W) (hfree : Field.free ∈ W) (hanswer : Field.answer ∈ W) (hfaults : Field.faults ∈ W) (hcl : Field.cl ∈ W) (hsched : Field.sched ∈ W) (h : Runs W s0 s) (x1 x2 x3) :
    Runs W s0 (memRead x1 x2 x3 s) := by
  unfold memRead
  try dsimp only
  repeat' first | with_reducible (first | assumption | apply State.checkRead_runs | apply State.reply_runs | refine Runs.of_snd (by assumption) ?_) | split

theorem memWrite_runs (hmemory : Field.memory ∈ W) (hfree : Field.free ∈ W) (hanswer : Field.answer ∈ W) (hfaults : Field.faults ∈ W) (hcl : Field.cl ∈ W) (hsched : Field.sched ∈ W) (h : Runs W s0 s) (x1 x2 x3) :
    Runs W s0 (memWrite x1 x2 x3 s) := by
  unfold memWrite
  try dsimp only
  repeat' first | with_reducible (first | assumption | apply State.storeMerge_runs | apply State.reply_runs | apply State.dropWrites_runs) | split

theorem execBusAccess_runs (hmemory : Field.memory ∈ W) (hfree : Field.free ∈ W) (hanswer : Field.answer ∈ W) (hfabric : Field.fabric ∈ W) (hhost : Field.host ∈ W) (hamp : Field.amp ∈ W) (hfaults : Field.faults ∈ W) (hcl : Field.cl ∈ W) (hsched : Field.sched ∈ W) (hpipes : Field.pipes ∈ W) (hmedia : Field.media ∈ W) (h : Runs W s0 s) (x1 x2 x3 x4) :
    Ends W s0 (execBusAccess x1 x2 x3 x4 s) := by
  unfold execBusAccess
  try dsimp only
  repeat' first | with_reducible (first | assumption | apply barRead_runs | apply barWrite_runs | apply cfgAccess_runs | apply devRead_runs | apply State.reply_runs | apply memRead_runs | apply devWrite_runs | apply memWrite_runs | rw [ends_next]) | split

/-! ## Tick -/

theorem State.tick_runs (hfabric : Field.fabric ∈ W) (hpower : Field.power ∈ W) (h : Runs W s0 s) :
    Runs W s0 (State.tick s) := by
  unfold State.tick
  try dsimp only
  repeat' first | with_reducible (first | assumption | apply State.modFabric_runs | apply State.modPower_runs) | split

end Sys2Proof.Machine
end

