-- ==== Sys2Proof/Tests/Slice0.lean ====
section
/-! SUPPORT. Tests: the checks of well-formedness, worked examples of the spec on one step or one function each, and for every
obligation with hypotheses a witness that meets them together, clause by clause. -/

namespace Sys2Proof.Tests
open Sys2Proof Sys2Proof.Machine

set_option Elab.async false

/-! ## Well-formed commands -/

/-- An allocation that gives nothing. -/
def wNoAlloc : Alloc := { code := 0, arg := 0, res := 0, grants := [] }

/-- Ill-formed commands, one for each check, part 1. -/
theorem test_wf_refuses_1 : (([
    .registerWrite (.unit .keeper) (2 ^ 48) 0 0, .registerWrite (.unit .keeper) 0 9 0,
    .registerWrite (.unit .keeper) 0 0 1, .busAccess (.unit .keeper) (2 ^ 48) 0 none,
    .cqWrite 0 [] true true, .cqThreshLevelWrite 0 128, .sqTailDoorbell 0 0 65536,
    .cqHeadDoorbell 0 0 65536, .commandFetch 0 4097 [], .commandFetch 0 0 [(1048576, {})],
    .commandFetch 0 0 [(0, { nsid := 2 ^ 32 })], .commandStart 1048576,
    .invalidCommandOpcode 0 none { opc := 256 }, .deleteIoSq 0 { opc := 256 },
    .createIoSq 0 { opc := 256 }, .deleteIoCq 0 { opc := 256 }, .createIoCq 0 { opc := 256 },
    .identify 0 { opc := 256 }, .abort 0 { opc := 256 }, .setFeatures 0 { opc := 256 },
    .setFeaturesTimestamp 0 { opc := 256 } (List.replicate 8 0), .setFeaturesTimestamp 0 {} [],
    .setFeaturesPowerManagement 0 { opc := 256 }, .getFeatures 0 { opc := 256 },
    .getLogPage 0 { opc := 256 }, .asynchronousEventRequest 0 { opc := 256 },
    .namespaceManagement 0 { opc := 256 } 0 0, .namespaceAttachment 0 { opc := 256 } [],
    .formatNvm 0 { opc := 256 } [] [], .nvmeSanitize 0 { opc := 256 }] : List Instr).all fun i => !i.wf) = true := by
  decide +kernel

/-- Ill-formed commands, one for each check, part 2. -/
theorem test_wf_refuses_2 : (([
    .flush 1048576, .write 1048576 [] [] [] [], .read 1048576 [] [] [],
    .writeZeroes 1048576 [] [], .datasetManagement 1048576 [] [] [],
    .secureDiscard 1048576 [] [] [] [], .verify 1048576 [] [], .indexQuery 1048576 [] 0 0 true,
    .indexQuery 0 [] 4096 0 true, .indexInsert 1048576 [], .indexDelete 1048576 [],
    .indexWriteRoom 1048576, .scan 1048576 [] 0 0, .scan 0 [] 4096 0,
    .embed 1048576 [] wNoAlloc, .generate 1048576 [] wNoAlloc, .sessionOpen 1048576 ⟨0, 0⟩,
    .sessionPark 1048576, .sessionResume 1048576, .sessionClose 1048576,
    .run 1048576 [] wNoAlloc, .resultHeaderTimer 1048576, .mbReqLenWrite 0 true (2 ^ 32),
    .mbDataInWrite 0 true (2 ^ 64), .mctpAmpMessage 256 [], .cpJobTailWrite 0 256 [],
    .cpCmplHeadWrite 0 256, .s8ThresholdFeedback 0 64, .seamJob 1048576 0 0 0,
    .selectionComplete 0 (2 ^ 32)] : List Instr).all fun i => !i.wf) = true := by
  decide +kernel

/-- Ill-formed commands, one for each check, part 3. -/
theorem test_wf_refuses_3 : (([
    .mergeInstanceOpen [] [], .mergeInstanceClose 4096 [], .selIssue (.keeper 0 []) 0 0 0 0,
    .slotWaitLimitWrite 0 (2 ^ 32), .spResidentWrite 0 0 ⟨2 ^ 32, []⟩,
    .spResidentWrite 0 0 ⟨0, List.replicate 17 0⟩, .spResidentWrite 0 0 ⟨0, [2 ^ 64]⟩,
    .slotWindowWrite 0 0 (2 ^ 32), .mvPost 0 (2 ^ 64), .updateJobStart 0 (List.replicate 9 0),
    .runEmit 0 (2 ^ 48) 0, .runEmit 0 0 (2 ^ 48), .taskEnd 0 65536 {}, .mrReqTailWrite 0 256,
    .mrCmplHeadWrite 0 256, .mediaGetFeatures 0 4294967296, .dieTempSample 0 0 (-129),
    .dieTempSample 0 0 128, .writeBufferProgram 3727360 true [],
    .garbageCollection 3727360 [] true, .openFrame 0 [] true, .spdmFrame 0 256 .fails,
    .dataFrame 0 [] true 4096 0,
    .faultReport .hd { cls := .linkLost, source := 0, partner := 19 } [], .fcHeadWrite .hd 256,
    .boot true true [(32, 0)] [] 0, .boot true true [(0, 32)] [] 0,
    .boot true true [] [] (2 ^ 32), .setEndpointId 256 0, .setEndpointId 0 256] : List Instr).all fun i => !i.wf) = true := by
  decide +kernel

/-- Ill-formed commands, one for each check, part 4. -/
theorem test_wf_refuses_4 : (([
    .getMctpVersionSupport 256, .getVendorDefinedMessageSupport 256,
    .readNvmeMiDataStructure true 256 0 0, .readNvmeMiDataStructure true 0 256 0,
    .readNvmeMiDataStructure true 0 0 65536, .controllerHealthStatusPoll true true 65536,
    .configurationSet true 256 0 0, .configurationSet true 0 256 0,
    .configurationSet true 0 0 65536, .configurationGet true 256 0,
    .configurationGet true 0 256, .vpdRead true 65536 0, .vpdRead true 0 65536,
    .nvmeMiReset true 256, .sensorRead true [], .nvmeMiAdminCommand true 65536 {} [],
    .nvmeMiAdminCommand true 0 { opc := 256 } [], .nvmeMiUnsupportedCommand true 256,
    .getCapabilities 256, .negotiateAlgorithms (2 ^ 32) 0 0, .negotiateAlgorithms 0 (2 ^ 32) 0,
    .negotiateAlgorithms 0 0 256, .getCertificate 256 0 0, .getCertificate 0 65536 0,
    .getCertificate 0 0 65536, .challenge 256 true [], .getMeasurements 256 true [],
    .pcieLinkUp ⟨0, 16, 0, true⟩, .pcieLinkUp ⟨0, 0, 64, true⟩, .controllerEnable 0 (2 ^ 16) 0] : List Instr).all fun i => !i.wf) = true := by
  decide +kernel

/-- Ill-formed commands, one for each check, part 5. -/
theorem test_wf_refuses_5 : (([
    .controllerEnable 0 0 (2 ^ 16)] : List Instr).all fun i => !i.wf) = true := by
  decide +kernel

/-- The same commands within their fields, part 1. -/
theorem test_wf_accepts_1 : (([
    .registerWrite (.unit .keeper) 0 0 0, .busAccess (.unit .keeper) 0 0 none,
    .cqWrite 0 (List.replicate 16 0) true true, .cqThreshLevelWrite 0 0, .sqTailDoorbell 0 0 0,
    .cqHeadDoorbell 0 0 0, .commandFetch 0 0 [], .commandStart 0,
    .invalidCommandOpcode 0 none {}, .deleteIoSq 0 {}, .createIoSq 0 {}, .deleteIoCq 0 {},
    .createIoCq 0 {}, .identify 0 {}, .abort 0 {}, .setFeatures 0 {},
    .setFeaturesTimestamp 0 {} (List.replicate 8 0), .setFeaturesPowerManagement 0 {},
    .getFeatures 0 {}, .getLogPage 0 {}, .asynchronousEventRequest 0 {},
    .namespaceManagement 0 {} 0 0, .namespaceAttachment 0 {} [], .formatNvm 0 {} [] [],
    .nvmeSanitize 0 {}, .flush 0, .write 0 [] [] [] [], .read 0 [] [] [], .writeZeroes 0 [] [],
    .datasetManagement 0 [] [] [], .secureDiscard 0 [] [] [] [], .verify 0 [] [],
    .indexQuery 0 [] 0 0 true, .indexInsert 0 [], .indexDelete 0 [], .indexWriteRoom 0,
    .scan 0 [] 0 0, .embed 0 [] wNoAlloc, .generate 0 [] wNoAlloc, .sessionOpen 0 ⟨0, 0⟩,
    .sessionPark 0, .sessionResume 0, .sessionClose 0, .run 0 [] wNoAlloc,
    .resultHeaderTimer 0, .mbReqLenWrite 0 true 0, .mbDataInWrite 0 true 0,
    .mctpAmpMessage 0 [], .cpJobTailWrite 0 0 [], .cpCmplHeadWrite 0 0] : List Instr).all fun i => i.wf) = true := by
  decide +kernel

/-- The same commands within their fields, part 2. -/
theorem test_wf_accepts_2 : (([
    .s8ThresholdFeedback 0 0, .seamJob 0 0 0 0, .selectionComplete 0 0,
    .mergeInstanceOpen (List.replicate 32 0) [], .mergeInstanceClose 0 [],
    .selIssue (.keeper 0 (List.replicate 64 0)) 0 0 0 0, .slotWaitLimitWrite 0 0,
    .spResidentWrite 0 0 ⟨0, []⟩, .slotWindowWrite 0 0 0, .mvPost 0 0, .updateJobStart 0 [],
    .runEmit 0 0 0, .taskEnd 0 0 {}, .mrReqTailWrite 0 0, .mrCmplHeadWrite 0 0,
    .mediaGetFeatures 0 0, .dieTempSample 0 0 0, .writeBufferProgram 0 true [],
    .garbageCollection 0 [] true, .openFrame 0 (List.replicate 32 0) true,
    .spdmFrame 0 0 .fails, .dataFrame 0 [] true 0 0,
    .faultReport .hd { cls := .linkLost, source := 0 } [], .fcHeadWrite .hd 0,
    .boot true true [] [] 0, .setEndpointId 0 0, .getMctpVersionSupport 0,
    .getVendorDefinedMessageSupport 0, .readNvmeMiDataStructure true 0 0 0,
    .controllerHealthStatusPoll true true 0, .configurationSet true 0 0 0,
    .configurationGet true 0 0, .vpdRead true 0 0, .nvmeMiReset true 0,
    .sensorRead true (List.replicate 32 0), .nvmeMiAdminCommand true 0 {} [],
    .nvmeMiUnsupportedCommand true 0, .getCapabilities 0, .negotiateAlgorithms 0 0 0,
    .getCertificate 0 0 0, .challenge 0 true [], .getMeasurements 0 true [],
    .pcieLinkUp ⟨0, 0, 0, true⟩, .controllerEnable 0 0 0] : List Instr).all fun i => i.wf) = true := by
  decide +kernel

/-- An entry with one field past its width, each field in turn. -/
theorem test_sqe_wf_refuses : (([
    { opc := 256 }, { flags := 256 }, { cid := 65536 }, { nsid := 2 ^ 32 }, { cdw2 := 2 ^ 32 },
    { cdw3 := 2 ^ 32 }, { cdw10 := 2 ^ 32 }, { cdw11 := 2 ^ 32 }, { cdw12 := 2 ^ 32 },
    { cdw13 := 2 ^ 32 }, { cdw14 := 2 ^ 32 }, { cdw15 := 2 ^ 32 }, { mptr := 2 ^ 64 },
    { prp1 := 2 ^ 64 }, { prp2 := 2 ^ 64 }] : List Sqe).all fun e => !e.wf) = true := by
  decide +kernel

/-! ## States the tests start from -/

/-- A controller in service: an Admin queue pair and one I/O queue pair. -/
def wFn : Ctrl :=
  { perst := false, port := .up, cfg := true, en := true, rdy := true
    sqs := [(0, { size := 16, cq := 0 }), (1, { size := 64, cq := 1, tail := 2 })], cqs := [(0, { size := 16 }), (1, { size := 64 })] }
/-- The module in service, with a namespace of 4 GiB attached to function 0. -/
def wLive : State :=
  { power := { inReset := false, volts := 4200 }, sec := { phase := .running, owned := true }, mgmt := { aux := true }
    host := { c0 := wFn, ns := [(1, { size := 1048576, att0 := true })] }
    ftl := { space := [⟨.ns 1, 0, 262144⟩] }, fabric := { hd := { now := 1000000000000 }, cd0 := { now := 1000000000000 } } }
/-- The host side of a state changed. -/
def wHost (f : HostSide → HostSide) : State := { wLive with host := f wLive.host }
/-- A command in the tracker under tag 5. -/
def wTrk (t : Trk) : State := wHost fun h => { h with trk := [(5, t)] }
/-- The power manager changed. -/
def wPower (f : Power → Power) : State := { wLive with power := f wLive.power }
/-- A cluster's state under number 3. -/
def wCl (c : Cluster) : State := { wLive with cl := [(3, c)] }
/-- Mailbox 0 holding one message. -/
def wJob (op : Nat) (p : Bytes) : AmpJob := { mb := 0, op := op, payload := p }
/-- The module with one message at the front of mailbox 0. -/
def wAmp (op : Nat) (p : Bytes) : State := { wLive with amp := { jobs := [wJob op p] } }
/-- Controller 0 changed. -/
def wC0 (f : Ctrl → Ctrl) : State := wHost fun h => { h with c0 := f h.c0 }
/-- Boot and security changed. -/
def wSec (f : Sec → Sec) : State := { wLive with sec := f wLive.sec }
/-- The flash translation changed. -/
def wFtl (f : Ftl → Ftl) (s : State) : State := { s with ftl := f s.ftl }
/-- A started command under tag 5. -/
def wCmd (e : Sqe) : Trk := { fn := 0, sq := 1, sqe := e, phase := .started }
/-- What an operation that may fail gives, where it does not. -/
theorem wPair {α β : Type} {o : Option (α × β)} (h : o.isSome = true) : ∃ a b, o = some (a, b) := by
  obtain ⟨x, h⟩ := Option.isSome_iff_exists.mp h; exact ⟨x.1, x.2, h⟩
/-- What an operation that may fail gives, where it does not. -/
theorem wOne {α : Type} {o : Option α} (h : o.isSome = true) : ∃ a, o = some a := Option.isSome_iff_exists.mp h
/-- The module with unit 262,143 of namespace 1 on a flash page. -/
def wBad (s : State) : State :=
  { wFtl (fun f => { f with map := [(262143, 0)] }) s with media := { pages := [(0, .written (List.replicate 16384 0) (List.replicate 32 0))] } }
/-- The module with `n` erase units out of use beside a victim and the open one. -/
def wLow (n : Nat) : State :=
  wFtl (fun f => { f with eus := (9, .closed 1) :: (11, .opened 0 0) :: List.replicate n (12, .retired), map := [(0, 10368)] }) wLive
/-- The victim of such a module. -/
theorem wLow_victim (n : Nat) : (wLow n).isVictim 9 = true := by
  simp [State.isVictim, wLow, Ftl.eu, Tab.get, Tab.find, State.pinned, wFtl, wLive, Ftl.valid, -List.reduceReplicate]
/-- Its free erase units. -/
theorem wLow_free (n : Nat) : (wLow n).ftl.freeEus = 3727360 - (n + 2) := by
  simp [Ftl.freeEus, wLow, eraseUnits, wFtl, -List.reduceReplicate]
/-- Its open erase unit takes the copy. -/
theorem wLow_place (n : Nat) : canPlace false [11] (wLow n) = true := by
  simp [canPlace, Ftl.canTake, wLow, wFtl, wLive, Ftl.eu, Tab.get, Tab.find, eraseUnits, -List.reduceReplicate]
/-- A Read of its last LBA is waiting. -/
def wGone : State := wBad (wTrk (wCmd { opc := 0x02, nsid := 1, cdw10 := 1048575 }))
/-- A read of its last LBA, whose flash copy is lost. -/
theorem wBad_read : (wGone).readLba 1 (1048575 + 0) [1048575]
    = some (262143, ((wGone).sector 262143 3).1, true) := by
  have h : (wGone).lbaPlace 1 (1048575 + 0) = some (262143, 3) := by decide +kernel
  simp only [State.readLba, h, Nat.add_zero]
  have hs : ∀ x : Bool, x = true → (some (262143, ((wGone).sector 262143 3).1, x)
      : Option (Nat × Bytes × Bool)) = some (262143, ((wGone).sector 262143 3).1, true) :=
    fun x hx => by rw [hx]
  apply hs
  have h2 : (wGone).ftl.slot 262143 = 0 := by decide +kernel
  have h3 : Tab.has (wGone).ftl.buf 0 = false := by decide +kernel
  rw [h2, h3]
  have h4 : (0 != unmapped && !false && (List.contains [1048575] 1048575 || bit ((wGone).chan
    ((wGone).part.euChannel (euOf 0))).lost
      (pgTarget ((wGone).part.euBase (euOf 0))))) = true := by decide +kernel
  exact (congrArg (_ || ·) h4).trans (Bool.or_true _)
/-- A generating model's manifest: KIND `k`, VOCAB 1,000, MAX_CONTEXT 1,024, program 3 on partition 0. -/
def wMan (k : Nat) : Bytes :=
  layFields 0 256 [(0x04, 1, k), (0x08, 2, 3), (0x10, 2, 1), (0x14, 2, 1), (0x16, 2, 64), (0x1C, 4, 1000), (0x20, 4, 1024), (0x24, 4, 512)
    , (0x30, 2, 64), (0x35, 1, 1)]
/-- The model as installed under 7. -/
def wModel (k : Nat) : Obj := { cls := 1, id := 7, data := wMan k }
/-- A state with that model, its program and its partition. -/
def wWith (k : Nat) (s : State) : State :=
  { s with
    amp := { objects := [(3, { id := 3, data := layFields 0 64 [(0x0C, 1, 1), (0x0D, 1, 128)] }), (65543, wModel k)] }
    sched := { parts := [(0, { mask := 1 })] } }
/-- A state with session 9. -/
def wSes (x : Session) (s : State) : State := { s with tiers := { sessions := [(9, x)], fresh := 10 } }
/-- An index of 16 lists of 32 dimensions. -/
def wIndex : Index :=
  { form := layFields 0 64 [(1, 1, 3), (4, 2, 32), (8, 1, 3), (0xC, 4, 16), (0x10, 4, 1024)], trained := some { centroids := List.replicate 16 (List.replicate 64 0) } }
/-- A state with that index under 2. -/
def wIx (x : Index) (s : State) : State := { s with index := { all := [(2, x)], nextBorn := 2 } }
/-- Channel 4 as given. -/
def wPipe (p : Pipe) : State := { wLive with pipes := { chans := [(4, p)] } }
/-- An inline program that is being installed by operation 1. -/
def wProg : Obj :=
  { id := 3, data := layFields 0 68 [(0, 4, 1), (8, 4, 4), (0x0C, 1, 1), (0x0D, 1, 1)]
    digest := Config.sha256 (layFields 0 68 [(0, 4, 1), (8, 4, 4), (0x0C, 1, 1), (0x0D, 1, 1)]) }
/-- The module with that installation. -/
def wInst : State := { wLive with amp := { installs := [{ op := 1, obj := wProg }], nextOp := 2, ops := [(1, { kind := .install 0 3 })] } }
/-- Its digest is right, so that it is placed. -/
theorem wInst_done : ∃ t, wInst.sweepObjects.stages wProg [] {} [] [0] = .done t { wProg with space := [0] } := by
  have h : wInst.sweepObjects.stages wProg [] {} [] [0] = wInst.sweepObjects.placeObject wProg wProg.data [] [0] := by
    unfold State.stages
    have h1 : wProg.source = 0 := rfl
    have h2 : Config.sha256 wProg.data = wProg.digest := rfl
    have h3 : wInst.sweepObjects.formatSt wProg.cls wProg.data {} = St.ok := by decide +kernel
    simp only [h1, h2, h3, if_true, ne_eq, not_true_eq_false, if_false]
  exact ⟨_, h.trans rfl⟩
/-- A window of namespace 1 that holds data, pending for index 2. -/
def wWin : State :=
  { wIx wIndex wLive with
    index := { all := [(2, wIndex)], nextBorn := 2, pending := [⟨1, 0, false⟩], bindings := [(1, { index := 2 })] }
    ftl := { space := [⟨.ns 1, 0, 262144⟩], map := [(0, 0)], buf := [(0, { unit := 0, data := List.replicate 16384 1 })] } }
/-- The address of a byte of cluster 3's scratchpad. -/
def wA (a : Nat) : Nat := 0x100006000000 + a
/-- Cluster 3 runs a task of partition 0, with `r` in x1 and `v` in x2. -/
def wRun (c : Cluster) (r v : Nat) : State :=
  { wCl { c with enable := true, core := { c.core with x := [(1, r), (2, v)] } } with
    sched := { parts := [(0, { mask := 8, run := some { program := 3 } })] } }
/-- A selection of 2 of 4 keys. -/
def wSel : Bytes := layFields 0 64 [(1, 1, 1), (4, 4, 4), (8, 4, 2), (0x10, 8, 0x100006000000), (0x20, 8, 0x100006010000)]
/-- Region 0's selection unit as given. -/
def wUnit (x : SelUnit) : State := { wRun {} 0 0 with sel := { units := [(0, x)] } }
/-- Merge instance 9 as given. -/
def wMerge (m : Merge) : State := { wLive with sel := { merges := [(9, m)] } }
/-- A chain of one product and one store. -/
def wChain : Bytes :=
  layFields 0 96 [(0, 1, 2), (4, 2, 1), (8, 8, 0x100006000000), (0x10, 4, 32),
    (32, 1, 5), (33, 1, 16), (36, 4, 32), (40, 4, 32), (48, 8, 0x100006010000),
    (64, 1, 11), (65, 1, 16), (68, 4, 128), (72, 8, 0x100006020000)]
/-- The cluster about to execute its chain.go. -/
def wGo : State := (wRun {} 0x100006030000 0x3000).writeMem 0x100006030000 wChain
/-- Cluster 3 with an operation in progress on gang 0. -/
def wGang (x : Gang) : State := wRun { g0 := x } 0 0
/-- A partition whose quantum is over while a better queue waits. -/
def wQuantum : Partition :=
  { mask := 8, run := some {}, runQueue := 1, runSince := 0, q0 := { tasks := [{}] }, q1 := { v := 5 } }
/-- A LINEAR move of 64 bytes within cluster 3. -/
def wLin : Bytes := layFields 0 64 [(4, 4, 64), (8, 8, 0x100006000000), (0x10, 8, 0x100006017FC0)]
/-- The module with a managed tensor of one tile at 4,096 and a full tensor pool. -/
def wTen : State :=
  { (wLive.writeMem 4096 (leBytes 4 1)).setLoc 4096 0 { wh := 1, at_ := 8192, copy := false, len := 64, pos := 0 } with
    tiers := { tensors := [4096], poolUsed := [(3, 12884901888)] } }
/-- An update descriptor of `n` weights in one unit: stack 0, program 5, kind 1. -/
def wUpdDesc (n : Nat) : Bytes :=
  layFields 0 64 [(0, 2, 5), (2, 1, 1), (3, 1, 0), (4, 2, 7), (8, 8, n), (0x10, 8, 0x1000), (0x18, 8, 0x2000), (0x28, 8, 0x3000),
    (0x38, 8, 0x5000)]
/-- Cluster 3 runs a task of a partition that may use the first 64 KiB of stack 0; the descriptor lies at 0x8000. -/
def wUpd (n : Nat) : State :=
  { wLive.writeMem 0x8000 (wUpdDesc n) with
    cl := [(3, { enable := true }), (4, { enable := true })]
    sched := { parts := [(0, { mask := 8, hbm := [(0, 65536)], run := some { program := 3 } })] }
    amp := { objects := [(3 * 65536 + 5, { cls := 3, id := 5, data := [0, 0, 0, 0, 0, 0, 0, 0] })] } }
/-- Update jobs and units as given. -/
def wJobs (us : List (Nat × UUnit)) (js : List UJob) : State := { wLive with upd := { units := us, jobs := js } }
/-- Channel 4's media ROM as given. -/
def wChan (c : MChan) : State := { wLive with media := { chans := [(4, { c with ready := true, params := some [] })] } }
/-- A request: operation, mask, buffer at 0x10000. -/
def wReq (op mask : Nat) : Bytes := layFields 0 32 [(0, 1, op), (2, 2, 7), (9, 1, mask), (0x10, 8, 0x10000)]
/-- A request at the head of ring 0, with a parameter block at its buffer. -/
def wRing0 (r : Bytes) : State :=
  { ((wChan { enable := true, reqBase := 0x1000, reqTail := 1 }).writeMem 0x1000 r).writeMem 0x10000
      (layFields 0 256 [(0, 4, 1), (4, 1, wLive.part.targets), (8, 2, 1), (10, 2, 1)]) with pending := [] }
/-- An operation of the media that runs. -/
def wMOp (op : Nat) : MOp := { req := wReq op 0, running := true }
/-- A fault record in slot 9 of the home die's concentrator. -/
def wSlot (x : RingSlot) : State := { wLive with faults := { hd := { slots := [(9, x)] } } }
/-- Span number 7 as a permitted peer, and both ports as given. -/
def wSpan (p : SPort) (x : SPeer) : State :=
  { wLive with span := { p0 := p, p1 := p, permitted := [(7, 1)], peers := [(7, x)] } }
/-- A frame of type `t` from span 7 with SEQ `q`, epoch 9. -/
def wFrame (t q : Nat) : Bytes := layFields 0 32 [(0, 1, 1), (1, 1, t), (2, 1, 7), (3, 1, wLive.span.number), (8, 4, q), (0x12, 2, 9)]
/-- A peer in service over both ports, with frame 5 sent and NAKed `k` times. -/
def wPeer (k : Nat) : State :=
  wSpan { link := .up }
    { state := .ready, p0 := { up := true }, p1 := { up := true }, peerEpoch := some 9, acked := 5, txNext := 6, limit := 16
      unacked := [{ seq := 5, cls := 0, msg := 0, sent := true, naks := k }] }

/-! ## The spec's worked examples -/

/-- The state after a command. -/
def wAfter (c : Instr) (s : State) : State :=
  match exec c s with
  | .next t => t
  | _ => s

/-- R31's example: byte 0x4_0010 of bank 14 in cluster 1.5.3 (g = 107) is module address 0x1000_D6E4_0010. -/
theorem test_scratchpad_address : place 0x1000D6E40010 = .sp 107 14 0x40010 := by decide +kernel

/-- R160's example: the FP32 scores 17.5 and -3.0 have the keys 0xC18C_0000 and 0x3FBF_FFFF. -/
theorem test_selection_keys : keyOfF32 0x418C0000 = 0xC18C0000 ∧ keyOfF32 0xC0400000 = 0x3FBFFFFF := by decide +kernel

/-- The LUT tile of spec/09: E4M3 0x45, 0xB0, 0x36, 0x54 are 3.25, -0.5, 0.875, 12 and FP16 0xBE00, 0xB600, 0x3400 are -1.5, -0.375,
0.25, each code in its format and the value in FP32. -/
theorem test_format_values :
    [0x45, 0xB0, 0x36, 0x54].map (fun c => Fmt.fp32.encode (Fmt.e4m3.decode c)) = [0x40500000, 0xBF000000, 0x3F600000, 0x41400000]
      ∧ [0xBE00, 0xB600, 0x3400].map (fun c => Fmt.fp32.encode (Fmt.fp16.decode c)) = [0xBFC00000, 0xBEC00000, 0x3E800000] := by
  decide +kernel

/-- The attention chain of spec/10 in QUAD. -/
def wAttention : Bytes :=
  layFields 0 256 [(0, 1, 7), (4, 2, 4), (8, 8, 0x1000), (0x10, 4, 128), (0x18, 4, 36864),
    (32, 1, 5), (33, 1, 16), (36, 4, 128), (40, 4, 2048), (48, 8, 0x10000),
    (64, 1, 2), (65, 1, 16), (68, 4, 0x3DB504F3),
    (96, 1, 8), (97, 1, 16),
    (128, 1, 9), (136, 4, 0xFFFFFFFF),
    (160, 1, 5), (161, 1, 16), (162, 1, 1), (164, 4, 2048), (168, 4, 128), (176, 8, 0x80000),
    (192, 1, 9), (193, 1, 9), (196, 4, 9), (200, 4, 0xFFFFFFFF),
    (224, 1, 11), (228, 4, 256), (232, 8, 0x100006020000)]

/-- R248's example: the attention chain needs 35,392 reserved bytes, and it is one that R236 to R244 allow. -/
theorem test_attention_reservation :
    chainNeed { gang := 2 } 3 wAttention = 35392 ∧ chainReserved wAttention = false
      ∧ chainSupported wLive 3 { gang := 2 } wAttention = true := by decide +kernel

/-- Spec/07's merge: a side entry and a MASK beat older entries, a re-run is a duplicate, ties go to the lowest IDs. -/
theorem test_merge_masks_and_ties :
    let m : Merge := { desc := layFields 0 32 [(2, 1, 1), (4, 2, 4), (0x0C, 4, 4096)] }
    let l : List MergeEntry := [{ id := 0xA100, key := 91, seq := 9500, side := true }, { id := 0xB200, seq := 9600, mask := true },
      { id := 0xA100, key := 97, seq := 9400 }, { id := 0xB200, key := 95, seq := 9400 }, { id := 0x0C00, key := 88, seq := 9400 },
      { id := 0x0C00, key := 88, seq := 9400 }, { id := 0x0100, key := 80, seq := 9400 }, { id := 0x0040, key := 80, seq := 9400 },
      { id := 0x0200, key := 80, seq := 9400 }]
    ((l.foldl (fun m e => (m.arrive e).1) m).best 0).1.map (·.id) = [0xA100, 0x0C00, 0x0040, 0x0100]
      ∧ ((l.foldl (fun m e => (m.arrive e).1) m).best 0).2 = 3 := by decide +kernel

/-- Spec/02's flushed tail: 48 bytes packed, then a flush: 16 zero bytes and VALID_BYTES 48. -/
theorem test_flush_pads_the_tail :
    let s := { wLive with fabric := { wLive.fabric with xq := [(5, { part := List.replicate 48 7 })] } }
    ((wAfter (.cqFlush 5 false) s).xq 5).flight = [⟨List.replicate 48 7 ++ List.replicate 16 0, 48, false⟩] := by decide +kernel

/-- Spec/02: with THRESH_LEVEL 2 and THRESH_IE 1 the fill going from 1 to 2 sets THRESH and interrupts once. -/
theorem test_threshold_on_the_second_word :
    let w : XWord := ⟨[], 48, false⟩
    let s := { wLive with fabric := { wLive.fabric with xq := [(5, { ready := [w], flight := [w], level := 2, threshIe := true })] } }
    ((wAfter (.cqWordReadable 5 1) s).xq 5).thresh = true ∧ ((wAfter (.cqWordReadable 5 1) s).xq 5).interrupts = 1 := by decide +kernel

/-- Spec/04's mailbox: MB_REQ_LEN := 112 takes it from IDLE to FILLING. -/
theorem test_request_length_fills : ((wAfter (.mbReqLenWrite 0 false 112) wLive).amp.mb 0).state = .filling := by decide +kernel

/-- Spec/20's feeder dip: WARN asserts HOLD and steps the clock to 0.8 GHz; the release at 37.0 V leaves the window open and the clock
back at 1.25 GHz. -/
theorem test_feeder_dip :
    let s := wPower fun p => { p with peak := .opened, draw := 740000 }
    (wAfter (.inputWarn 3420) s).power.clock = 2 ∧ (wAfter (.inputWarn 3420) s).media.hold = true
      ∧ (wAfter (.holdRelease 3700) (wAfter (.inputWarn 3420) s)).power.clock = 0
      ∧ (wAfter (.holdRelease 3700) (wAfter (.inputWarn 3420) s)).power.peak = .opened := by decide +kernel

/-- Spec/16: an erase that has run for 120 µs is not suspended, one that has run for 500 µs is, and SUSPENDS becomes 1. -/
theorem test_erase_suspension :
    let s (since : Nat) := wChan { ops := [(6, { wMOp 3 with since := since }), (7, { req := wReq 0 1 })] }
    ((wAfter (.mediaSuspend 4 0) (s (10 ^ 12 - 120))).chan 4).suspends = 0
      ∧ ((wAfter (.mediaSuspend 4 0) (s (10 ^ 12 - 500))).chan 4).suspends = 1 := by decide +kernel

/-- Spec/16: three days of age are class 2, a rise of 22 °C is class 1. -/
theorem test_read_classes : ageClass (3 * 24 * 60) = 2 ∧ tempClass 22 = 1 := by decide +kernel

/-- Spec/11: after 10 µs with writes still arriving the power-down fails with ST_BUSY and the bank is ON again. -/
theorem test_power_down_times_out :
    let s := { wLive with cl := [(20, { pwrBusy := true, banks := [(19, .downWait)], pwrSince := 10 ^ 12 - 10 })] }
    ((wAfter (.bankPowerTimeout 20) s).cluster 20).bank 19 = .on ∧ ((wAfter (.bankPowerTimeout 20) s).cluster 20).pwrSt = St.busy := by
  decide +kernel

/-- Spec/19: a report of an open record merges: COUNT rises, the reporter's region is marked, LAST_COUNT is the count. -/
theorem test_reports_merge :
    let r : FaultRec := { cls := FaultClass.spParity.code, source := 0x1810, count := 1, firstCount := 10 ^ 12 - 3, lastCount := 10 ^ 12 - 3,
                          partners := 4 }
    let s := { wLive with faults := { cd0 := { enable := true, used := 1, slots := [(0, { fr := r })] } } }
    let t := wAfter (.faultReport .cd0 { cls := .spParity, source := 0x1810, partner := partnerOfCluster 47 } []) s
    (t.ringSlot .cd0 0).map (fun x => (x.fr.count, x.fr.partners, x.fr.lastCount)) = some (2, 0x24, 10 ^ 12) := by decide +kernel

/-! ## Witnesses of the obligations -/

/-- Witness of EmptyQueueLetsAMicrosecondPass. -/
theorem witness_EmptyQueueLetsAMicrosecondPass :
    ∃ s : State, s.pending = [] :=
  ⟨State.reset, by decide +kernel⟩

/-- Witness of StepNeverRestoresAFuse. -/
theorem witness_StepNeverRestoresAFuse :
    ∃ (s : State) (t : State), step s = .next t ∧ 3 ∈ s.sec.revoked :=
  ⟨{ State.reset with sec := { revoked := [3] } }, (({ State.reset with sec := { revoked := [3] } } : State)).tick, rfl, by decide⟩

/-- Witness of MemoryReadsBackWhatIsWritten. -/
theorem witness_MemoryReadsBackWhatIsWritten :
    ∃ (s : State) (a : Nat) (b : Bytes), s.memoryWf ∧ 0 < b.length ∧ ∃ x, x < a ∨ a + b.length ≤ x :=
  ⟨{ State.reset with mem := [(7, 1)] }, 7, [2, 3], ⟨rfl, rfl, rfl⟩, by decide, 9, by decide⟩

/-- Witness of LinkReplaysThenRetrains. -/
theorem witness_LinkReplaysThenRetrains :
    (∃ s : State, ∃ l, (s.link l).state = .up)
    ∧ (∃ s : State, ∃ l, ∃ far, (s.link l).state = .up ∧ (s.link l).replays far < 16)
    ∧ (∃ s : State, ∃ l, ∃ far, (s.link l).state = .up ∧ 16 ≤ (s.link l).replays far)
    ∧ (∃ s : State, ∃ l, (s.link l).state = .retraining)
    ∧ (∃ s : State, ∃ l, (s.link l).state = .retraining ∧ l.key ≠ 1 ∧ l.key ≠ 2) :=
  ⟨⟨{ State.reset with fabric := { links := [(0, { state := .up, far := 3 })] } }, .dieLink 0, by decide +kernel⟩,
    ⟨{ State.reset with fabric := { links := [(0, { state := .up, far := 15 })] } }, .dieLink 0, true, by decide +kernel⟩,
    ⟨{ State.reset with fabric := { links := [(0, { state := .up, far := 16 })] } }, .dieLink 0, true, by decide +kernel⟩,
    ⟨{ State.reset with fabric := { links := [(0, { state := .retraining, far := 16 })] } }, .dieLink 0, by decide +kernel⟩,
    ⟨{ State.reset with fabric := { links := [(0, { state := .retraining, far := 16 })] } }, .dieLink 0, by decide +kernel⟩⟩

/-- Witness of CrossingWordsArePackedAndReadInOrder. -/
theorem witness_CrossingWordsArePackedAndReadInOrder :
    (∃ s : State, ∃ q : Fin 64, (s.xq q).fullWrite = true ∧ (q.val < 32 → (s.pipe q).run = none))
    ∧ (∃ s : State, ∃ q : Fin 64, ∃ w : Bytes, 32 ≤ q.val ∧ (s.xq q).fullWrite = false ∧ (s.xq q).part.length + (w.take 8).length < 64)
    ∧ (∃ s : State, ∃ q : Fin 64, ∃ w : Bytes, 32 ≤ q.val ∧ (s.xq q).fullWrite = false ∧ 64 ≤ (s.xq q).part.length + (w.take 8).length)
    ∧ (∃ s : State, ∃ q : Fin 64, q.val < 32 ∧ (s.xq q).fullWrite = false)
    ∧ (∃ s : State, ∃ q : Fin 64, ∃ w : XWord, ∃ ws : List XWord, (s.xq q).ready = w :: ws)
    ∧ (∃ s : State, ∃ q : Fin 64, (s.xq q).ready = [])
    ∧ (∃ q : Fin 64, 32 ≤ q.val)
    ∧ (∃ s : State, ∃ q : Fin 64, q.val < 32 ∧ (s.pipe q).run = none ∧ (s.pipe q).ahead = none) :=
  ⟨⟨{ State.reset with fabric := { xq := [(31, { flight := List.replicate 64 ⟨List.replicate 64 1, 64, false⟩ })] } }, 31,
    by decide +kernel⟩,
    ⟨{ State.reset with fabric := { xq := [(32, { part := List.replicate 48 1 })] } }, 32, List.replicate 8 1, by decide +kernel⟩,
    ⟨{ State.reset with fabric := { xq := [(63, { part := List.replicate 56 1 })] } }, 63, List.replicate 8 1, by decide +kernel⟩,
    ⟨{ State.reset with fabric := { xq := [(31, { part := [] })] } }, 31, by decide +kernel⟩,
    ⟨{ State.reset with fabric := { xq := [(0, { ready := [⟨List.replicate 64 1, 64, false⟩] })] } }, 0, ⟨List.replicate 64 1, 64,
      false⟩, [], by decide +kernel⟩,
    ⟨{ State.reset with fabric := { xq := [(63, { part := [] })] } }, 63, by decide +kernel⟩,
    ⟨32, by decide +kernel⟩,
    ⟨{ State.reset with fabric := { xq := [(31, { freed := 1 })] } }, 31, by decide +kernel⟩⟩

/-- Witness of CrossingFlushPadsAndTags. -/
theorem witness_CrossingFlushPadsAndTags :
    (∃ x : XQueue, x.ready.length ≤ 64)
    ∧ (∃ s : State, ∃ q : Fin 64, (s.xq q).ready = [] ∧ (s.xq q).part ≠ [])
    ∧ (∃ s : State, ∃ q : Fin 64, (s.xq q).part ≠ [])
    ∧ (∃ s : State, ∃ q : Fin 64, (s.xq q).part = []) :=
  ⟨⟨{ ready := List.replicate 64 ⟨List.replicate 64 1, 64, false⟩ }, by decide +kernel⟩,
    ⟨{ State.reset with fabric := { xq := [(0, { part := List.replicate 8 1 })] } }, 0, by decide +kernel⟩,
    ⟨{ State.reset with fabric := { xq := [(63, { part := [1] })] } }, 63, by decide +kernel⟩,
    ⟨{ State.reset with fabric := { xq := [(0, { part := [] })] } }, 0, by decide +kernel⟩⟩

/-- Witness of CrossingThresholdIsAnUpwardCrossing. -/
theorem witness_CrossingThresholdIsAnUpwardCrossing :
    (∃ s : State, ∃ q : Fin 64, ∃ n, (∀ w ∈ (s.xq q).flight.take n, w.bad = false) ∧ (s.xq q).level ≠ 0
      ∧ (s.xq q).ready.length < (s.xq q).level ∧ (s.xq q).level ≤ (s.xq q).ready.length + ((s.xq q).flight.take n).length)
    ∧ (∃ s : State, ∃ q : Fin 64, ∃ n, (∀ w ∈ (s.xq q).flight.take n, w.bad = false)
      ∧ ((s.xq q).level = 0 ∨ (s.xq q).level ≤ (s.xq q).ready.length ∨ (s.xq q).ready.length + ((s.xq q).flight.take n).length < (s.xq q).level))
    ∧ (∃ v, v ≤ 64)
    ∧ (∃ v, 65 ≤ v ∧ v ≤ 127) :=
  ⟨⟨{ State.reset with fabric := { xq := [(5, { level := 1, flight := [⟨List.replicate 64 1, 64, false⟩] })] } }, 5, 1,
    by decide +kernel⟩,
    ⟨{ State.reset with fabric := { xq := [(5, { level := 64, flight := [⟨List.replicate 64 1, 64, false⟩] })] } }, 5, 1,
      by decide +kernel⟩,
    ⟨64, by decide +kernel⟩,
    ⟨65, by decide +kernel⟩⟩

/-- Witness of BootRunsTheStepsOfTheRom. -/
theorem witness_BootRunsTheStepsOfTheRom :
    (∃ s : State, s.bootDue = true)
    ∧ (∃ s : State, ∃ r, s.bootDue = true ∧ s.sec.readRecords.image = .error r)
    ∧ (∃ s : State, ∃ strap, ∃ lostT, ∃ h, s.bootDue = true ∧ s.sec.readRecords.image = .ok h
      ∧ ((s.samplePins strap).bootSteps lostT).ftl.dumpDue = false) :=
  ⟨⟨wSec fun x => { x with phase := .off }, by decide +kernel⟩,
    ⟨wSec fun x => { x with phase := .off, slot := .torn }, 4, ⟨by decide +kernel, rfl⟩⟩,
    ⟨wSec fun x => { x with phase := .off }, false, [], Config.shippedHeader, ⟨by decide +kernel, rfl, by decide +kernel⟩⟩⟩

/-- Witness of KeepersReportReadyOrTheRomBootsAgain. -/
theorem witness_KeepersReportReadyOrTheRomBootsAgain :
    (∃ (s : State) (lost : List Nat) (places : Tab (List (ℕ × ℕ) × List ℕ)) (u : State), s.sec.phase = .starting ∧ s.alive = true
      ∧ s.hdCount ≤ s.sec.startedAt + 5000000 ∧ s.ftl.discard = none ∧ s.sec.held = 0
      ∧ (((s.modSec fun x => { x with phase := .running }).setGather false).modSec fun x => { x with failedBoots := 0 }).openUp lost places = some u)
    ∧ (∃ s : State, s.sec.phase = .starting ∧ s.alive = true ∧ s.hdCount ≤ s.sec.startedAt + 5000000 ∧ s.ftl.discard = none
      ∧ s.sec.held ≠ 0)
    ∧ (∃ s : State, s.sec.phase = .starting ∧ s.alive = true ∧ s.sec.startedAt + 5000000 ≤ s.hdCount ∧ s.sec.failedBoots < 2)
    ∧ (∃ s : State, s.sec.phase = .starting ∧ s.alive = true ∧ s.sec.startedAt + 5000000 ≤ s.hdCount ∧ 2 ≤ s.sec.failedBoots) :=
  ⟨(wOne (by decide +kernel)).elim fun u h => ⟨wSec fun x => { x with phase := .starting, startedAt := 999995000000, failedBoots := 0 }, [], [], u, by decide +kernel, by decide +kernel, by decide +kernel, by decide +kernel, by decide +kernel, h⟩,
    ⟨wSec fun x => { x with phase := .starting, startedAt := 999995000000, held := 1 }, by decide +kernel⟩,
    ⟨wSec fun x => { x with phase := .starting, startedAt := 999995000000, failedBoots := 1 }, by decide +kernel⟩,
    ⟨wSec fun x => { x with phase := .starting, startedAt := 999995000000, failedBoots := 2 }, by decide +kernel⟩⟩

/-- Witness of SuppliesAndPinsBringTheHostIn. -/
theorem witness_SuppliesAndPinsBringTheHostIn :
    (∃ s : State, s.mgmt.aux = false)
    ∧ (∃ s : State, s.mainOn = true)
    ∧ (∃ s : State, s.mainOn = false)
    ∧ (∃ s : State, s.alive = true ∧ s.power.ladder = 5)
    ∧ (∃ s : State, ∃ fn : Fin 2, s.alive = true ∧ s.power.ladder ≠ 5 ∧ s.sec.phase = .running ∧ s.hasFn fn = true
      ∧ (s.ctrl fn).port = .down)
    ∧ (∃ s : State, ∃ fn : Fin 2, ∃ speed, ∃ width, (s.ctrl fn).port = .training ∧ 1 ≤ speed ∧ speed ≤ 6
      ∧ s.host.portWidths.contains width = true)
    ∧ (∃ s : State, ∃ fn : Fin 2, ∃ a, ∃ c, s.hasFn fn = true ∧ s.serving = true ∧ s.sanitizeHolds = false ∧ (s.ctrl fn).cfg = true
      ∧ (s.ctrl fn).en = false ∧ (s.ctrl fn).resetting = false ∧ 2 ≤ a ∧ a ≤ 4096 ∧ 2 ≤ c ∧ c ≤ 4096) :=
  ⟨⟨State.reset, by decide +kernel⟩,
    ⟨wPower fun p => { p with volts := 2800 }, by decide +kernel⟩,
    ⟨wPower fun p => { p with volts := 2799 }, by decide +kernel⟩,
    ⟨wPower fun p => { p with ladder := 5 }, by decide +kernel⟩,
    ⟨{ wHost fun h => { h with bifurcated := true } with power := { wLive.power with ladder := 4 } }, 1, by decide +kernel⟩,
    ⟨wC0 fun c => { c with port := .training }, 0, 6, 8, by decide +kernel⟩,
    ⟨wC0 fun c => { c with en := false, rdy := false }, 0, 2, 4096, by decide +kernel⟩⟩

/-- Witness of CompletionIsPostedOrWaits. -/
theorem witness_CompletionIsPostedOrWaits :
    (∃ s : State, ∃ tag, ∃ t, ∃ sq : Sq, ∃ cq : Cq, s.trk tag = some t ∧ (t.sqe.isVendor && t.sqe.sessionValid) = false
      ∧ (s.ctrl t.fn).resetting = false ∧ Tab.find (s.ctrl t.fn).sqs t.sq = some sq ∧ Tab.find (s.ctrl t.fn).cqs sq.cq = some cq
      ∧ cq.room = true)
    ∧ (∃ s : State, ∃ tag, ∃ t, ∃ sq : Sq, ∃ cq : Cq, s.trk tag = some t ∧ (t.sqe.isVendor && t.sqe.sessionValid) = false
      ∧ (s.ctrl t.fn).resetting = false ∧ Tab.find (s.ctrl t.fn).sqs t.sq = some sq ∧ Tab.find (s.ctrl t.fn).cqs sq.cq = some cq
      ∧ cq.room = false)
    ∧ (∃ s : State, ∃ fn, ∃ cq : Cq, Tab.find (s.ctrl fn).cqs 0 = some cq ∧ cq.room = true) :=
  ⟨⟨wTrk (wCmd { opc := 2 }), 5, wCmd { opc := 2 }, { size := 64, cq := 1, tail := 2 }, { size := 64 }, by decide +kernel⟩,
    ⟨wHost fun h => { h with trk := [(5, wCmd { opc := 2 })], c0 := { h.c0 with cqs := [(1, { size := 2, posted := [{}] })] } }, 5,
      wCmd { opc := 2 }, { size := 64, cq := 1, tail := 2 }, { size := 2, posted := [{}] }, by decide +kernel⟩,
    ⟨wLive, 0, { size := 16 }, by decide +kernel⟩⟩

/-- Witness of QueuesAreCreatedAndDeleted. -/
theorem witness_QueuesAreCreatedAndDeleted :
    (∃ s : State, ∃ fn : Fin 2, ∃ e : Sqe, s.adminServes fn = true ∧ s.isHeld = false ∧ bits e.cdw10 0 16 ≠ 0
      ∧ bits e.cdw10 0 16 ≤ s.host.maxQueue ∧ Tab.find (s.ctrl fn).sqs (bits e.cdw10 0 16) = none ∧ 1 ≤ bits e.cdw10 16 16
      ∧ bit e.cdw11 0 = true ∧ bits e.cdw11 16 16 ≠ 0)
    ∧ (∃ s : State, ∃ fn : Fin 2, s.adminServes fn = true ∧ s.isHeld = true)
    ∧ (∃ s : State, ∃ fn : Fin 2, ∃ e : Sqe, s.adminServes fn = true ∧ s.isHeld = false ∧ bits e.cdw10 0 16 ≠ 0
      ∧ bits e.cdw10 0 16 ≤ s.host.maxQueue ∧ Tab.find (s.ctrl fn).cqs (bits e.cdw10 0 16) = none ∧ 1 ≤ bits e.cdw10 16 16
      ∧ bit e.cdw11 0 = true ∧ bits e.cdw11 16 16 ≠ 1 ∧ bits e.cdw11 16 16 ≤ s.host.lastVector)
    ∧ (∃ s : State, ∃ fn : Fin 2, ∃ e : Sqe, s.adminServes fn = true ∧ s.isHeld = false ∧ bits e.cdw10 0 16 ≠ 0
      ∧ bits e.cdw10 0 16 ≤ s.host.maxQueue ∧ Tab.find (s.ctrl fn).cqs (bits e.cdw10 0 16) = none ∧ 1 ≤ bits e.cdw10 16 16
      ∧ bit e.cdw11 0 = true ∧ bits e.cdw11 16 16 = 1)
    ∧ (∃ s : State, ∃ fn : Fin 2, ∃ e : Sqe, s.adminServes fn = true ∧ bits e.cdw10 0 16 ≠ 0
      ∧ Tab.find (s.ctrl fn).cqs (bits e.cdw10 0 16) ≠ none)
    ∧ (∃ s : State, ∃ fn : Fin 2, ∃ e : Sqe, s.adminServes fn = true ∧ bits e.cdw10 0 16 ≠ 0
      ∧ Tab.find (s.ctrl fn).sqs (bits e.cdw10 0 16) ≠ none)
    ∧ (∃ t : Trk, t.phase = .fetched)
    ∧ (∃ t : Trk, t.phase = .started)
    ∧ (∃ s : State, ∃ fn : Fin 2, ∃ q, ∃ sq : Sq, ∃ cid, Tab.find (s.sweepStopped.ctrl fn).sqs q = some sq ∧ sq.deleting = some cid
      ∧ (s.sweepStopped.ctrl fn).resetting = false ∧ s.sweepStopped.queueBusy fn q = false) :=
  ⟨⟨wLive, 0, { cdw10 := 2 + 65536 * 1, cdw11 := 1 + 65536 * 1 }, by decide +kernel⟩,
    ⟨wSec fun x => { x with held := 1 }, 0, by decide +kernel⟩,
    ⟨wLive, 0, { cdw10 := 2 + 65536 * 1, cdw11 := 1 + 65536 * 2 }, by decide +kernel⟩,
    ⟨wLive, 0, { cdw10 := 2 + 65536 * 1, cdw11 := 1 + 65536 * 1 }, by decide +kernel⟩,
    ⟨wLive, 0, { cdw10 := 1 }, by decide +kernel⟩,
    ⟨wLive, 0, { cdw10 := 1 }, by decide +kernel⟩,
    ⟨{}, by decide +kernel⟩,
    ⟨{ phase := .started }, by decide +kernel⟩,
    ⟨wC0 fun c => { c with sqs := [(1, { size := 64, cq := 1, tail := 2, deleting := some 7 })] }, 0, 1,
      { size := 64, cq := 1, tail := 2, deleting := some 7 }, 7, by decide +kernel⟩⟩

/-- Witness of AdminCommandsAnswer. -/
theorem witness_AdminCommandsAnswer :
    (∃ s : State, ∃ fn : Fin 2, s.adminServes fn = true)
    ∧ (∃ s : State, ∃ fn : Fin 2, ∃ e : Sqe, s.adminServes fn = true ∧ bits e.cdw10 0 8 = 0x01)
    ∧ (∃ s : State, ∃ fn : Fin 2, ∃ e : Sqe, s.adminServes fn = true ∧ bits e.cdw10 0 8 = 0x07 ∧ bit e.cdw10 31 = false)
    ∧ (∃ s : State, ∃ fn : Fin 2, ∃ e : Sqe, s.adminServes fn = true ∧ bits e.cdw10 0 8 = 0x08 ∧ bits e.cdw10 8 3 = 0)
    ∧ (∃ s : State, ∃ fn : Fin 2, ∃ e : Sqe, s.adminServes fn = true ∧ bits e.cdw10 0 8 = 0x0E ∧ bit e.cdw10 31 = false)
    ∧ (∃ s : State, ∃ fn : Fin 2, ∃ e : Sqe, ∃ b, s.adminServes fn = true ∧ s.logPage fn (bits e.cdw10 0 8) = some b
      ∧ bits e.cdw12 0 32 + 2 ^ 32 * bits e.cdw13 0 32 ≤ b.length)
    ∧ (∃ s : State, ∃ fn : Fin 2, s.adminServes fn = true ∧ (s.ctrl fn).aers.length < 8)
    ∧ (∃ s : State, ∃ fn : Fin 2, s.adminServes fn = true ∧ 8 ≤ (s.ctrl fn).aers.length) :=
  ⟨⟨wLive, 0, by decide +kernel⟩,
    ⟨wLive, 0, { cdw10 := 1 }, by decide +kernel⟩,
    ⟨wLive, 0, { cdw10 := 7 }, by decide +kernel⟩,
    ⟨wLive, 0, { cdw10 := 8 }, by decide +kernel⟩,
    ⟨wLive, 0, { cdw10 := 14 }, by decide +kernel⟩,
    ⟨wLive, 0, { cdw10 := 1, cdw12 := 8192 }, List.replicate 8192 0, ⟨by decide +kernel, rfl, by decide +kernel⟩⟩,
    ⟨wC0 fun c => { c with aers := List.replicate 7 0 }, 0, by decide +kernel⟩,
    ⟨wC0 fun c => { c with aers := List.replicate 8 0 }, 0, by decide +kernel⟩⟩

/-- Witness of ResetsOfAFunction. -/
theorem witness_ResetsOfAFunction :
    (∃ s : State, ∃ fn : Fin 2, s.hasFn fn = true)
    ∧ (∃ s : State, ∃ fn : Fin 2, s.hasFn fn = true)
    ∧ (∃ s : State, s.host.trk = [] ∧ s.host.c0.en = true ∧ s.host.c1.en = true)
    ∧ (∃ s : State, ∃ fn : Fin 2, s.host.trk = [] ∧ (s.ctrl fn).en = true)
    ∧ (∃ s : State, ∃ fn : Fin 2, (s.sweepStopped.ctrl fn).resetting = true ∧ s.sweepStopped.vendorLeft fn = false) :=
  ⟨⟨wHost fun h => { h with bifurcated := true }, 1, by decide +kernel⟩,
    ⟨wLive, 0, by decide +kernel⟩,
    ⟨wHost fun h => { h with c1 := wFn }, by decide +kernel⟩,
    ⟨wLive, 0, by decide +kernel⟩,
    ⟨wC0 fun c => { c with resetting := true }, 0, by decide +kernel⟩⟩

/-- Witness of CommandsAreFetchedAndStarted. -/
theorem witness_CommandsAreFetchedAndStarted :
    (∃ s : State, ∃ fn : Fin 2, ∃ q, ∃ v, ∃ sq : Sq, s.alive = true ∧ Tab.find (s.ctrl fn).sqs q = some sq ∧ v < sq.size
      ∧ s.power.ladder < 2 ∧ sq.stop = none)
    ∧ (∃ s : State, ∃ fn : Fin 2, ∃ q, ∃ v, ∃ cq : Cq, Tab.find (s.ctrl fn).cqs q = some cq ∧ cq.size ≤ v)
    ∧ (∃ s : State, ∃ fn : Fin 2, ∃ q, ∃ v, ∃ cq : Cq, q ≠ 0 ∧ Tab.find (s.ctrl fn).cqs q = some cq ∧ cq.waiting = [] ∧ v < cq.size
      ∧ (v + cq.size - (cq.tail + cq.size - cq.posted.length) % cq.size) % cq.size ≤ cq.posted.length)
    ∧ (∃ s : State, ∃ fn : Fin 2, ∃ q, ∃ sq : Sq, ∃ tag, s.ctrlServes fn = true ∧ s.adminIdle fn = true ∧ (s.ctrl fn).nextTurn = some q
      ∧ Tab.find (s.ctrl fn).sqs q = some sq ∧ sq.eligible = true ∧ s.host.inUse fn < (s.host.share fn).2 ∧ s.tagFree fn tag = true)
    ∧ (∃ s : State, ∃ tag, ∃ t, s.trk tag = some t ∧ t.phase = .fetched ∧ t.admitted = false ∧ (t.sqe.ordered = true →
      s.host.trk.any (fun x => x.2.fn == t.fn && x.2.sq == t.sq && decide (x.2.seq < t.seq)) = false))
    ∧ (∃ s : State, ∃ tag, ∃ t, s.trk tag = some t ∧ t.sqe.ordered = true
      ∧ s.host.trk.any (fun x => x.2.fn == t.fn && x.2.sq == t.sq && decide (x.2.seq < t.seq)) = true)
    ∧ (∃ s : State, ∃ tag, ∃ t, s.trk tag = some t ∧ t.phase = .started ∧ ioOpcodes.contains t.sqe.opc = false)
    ∧ (∃ s : State, ∃ tag, ∃ t, ∃ r, s.trk tag = some t ∧ t.result = some r ∧ (0 < r.newBytes ∨ 0 < r.newRecords)
      ∧ r.updated + 1000 ≤ s.hdCount) :=
  ⟨⟨wLive, 0, 1, 63, { size := 64, cq := 1, tail := 2 }, by decide +kernel⟩,
    ⟨wLive, 0, 1, 64, { size := 64 }, by decide +kernel⟩,
    ⟨wC0 fun c => { c with cqs := [(1, { size := 64, tail := 1, posted := [{}] })] }, 0, 1, 1, { size := 64, tail := 1, posted := [{}] },
      by decide +kernel⟩,
    ⟨wLive, 0, 1, { size := 64, cq := 1, tail := 2 }, 1048575, by decide +kernel⟩,
    ⟨wTrk { fn := 0, sq := 1, seq := 1, sqe := { opc := 2, cdw13 := 0x8000 } }, 5,
      { fn := 0, sq := 1, seq := 1, sqe := { opc := 2, cdw13 := 0x8000 } }, by decide +kernel⟩,
    ⟨wHost fun h => { h with trk := [(4, { fn := 0, sq := 1, seq := 0 }), (5, { fn := 0, sq := 1, seq := 1, sqe := { opc := 2, cdw13 := 0x8000 } })] }, 5, { fn := 0, sq := 1, seq := 1, sqe := { opc := 2, cdw13 := 0x8000 } }, by decide +kernel⟩,
    ⟨wTrk (wCmd { opc := 0x7F }), 5, wCmd { opc := 0x7F }, by decide +kernel⟩,
    ⟨wTrk { wCmd { opc := 0x97 } with result := some { newRecords := 1, updated := 999999999000 } }, 5,
      { wCmd { opc := 0x97 } with result := some { newRecords := 1, updated := 999999999000 } },
      { newRecords := 1, updated := 999999999000 }, by decide +kernel⟩⟩

/-- Witness of ReadsReturnWhatTheNamespaceHolds. -/
theorem witness_ReadsReturnWhatTheNamespaceHolds :
    (∃ s : State, ∃ tag, ∃ t, ∃ lost : List Nat, ∃ u : Nat → Nat, ∃ d : Nat → Bytes, s.ioAdmitted tag 0x02 false true t
      ∧ (∀ k < t.sqe.nlb, s.readLba t.sqe.nsid (t.sqe.slba + k) lost = some (u k, d k, false)))
    ∧ (∃ s : State, ∃ tag, ∃ t, ∃ lost : List Nat, ∃ k, ∃ u, ∃ d, s.ioAdmitted tag 0x02 false true t ∧ k < t.sqe.nlb
      ∧ s.readLba t.sqe.nsid (t.sqe.slba + k) lost = some (u, d, true))
    ∧ (∃ s : State, ∃ tag, ∃ t, ∃ lost : List Nat, ∃ u : Nat → Nat, ∃ d : Nat → Bytes, s.ioAdmitted tag 0x0C false false t
      ∧ (∀ k < t.sqe.nlb, s.readLba t.sqe.nsid (t.sqe.slba + k) lost = some (u k, d k, false)))
    ∧ (∃ s : State, ∃ tag, ∃ t, s.startedAs tag 0x00 = some t ∧ s.ftl.sanitizer = none ∧ s.nvmRefusal t = none
      ∧ s.earlierHeld t (fun x => x.sqe.opc == 0x01 || x.sqe.opc == 0x08) = false) :=
  ⟨⟨wTrk (wCmd { opc := 0x02, nsid := 1, cdw10 := 1048575 }), 5, wCmd { opc := 0x02, nsid := 1, cdw10 := 1048575 }, [], fun _ => 262143,
    fun _ => List.replicate 4096 0,
    ⟨by unfold State.ioAdmitted; decide +kernel, by intro k hk; obtain rfl : k = 0 := Nat.lt_one_iff.mp hk; rfl⟩⟩,
    ⟨wGone, 5, wCmd { opc := 0x02, nsid := 1, cdw10 := 1048575 }, [1048575], 0, 262143, (wGone.sector 262143 3).1,
      ⟨by unfold State.ioAdmitted; decide +kernel, by decide +kernel, wBad_read⟩⟩,
    ⟨wTrk (wCmd { opc := 0x0C, nsid := 1, cdw10 := 1048575 }), 5, wCmd { opc := 0x0C, nsid := 1, cdw10 := 1048575 }, [], fun _ => 262143,
      fun _ => List.replicate 4096 0,
      ⟨by unfold State.ioAdmitted; decide +kernel, by intro k hk; obtain rfl : k = 0 := Nat.lt_one_iff.mp hk; rfl⟩⟩,
    ⟨wTrk (wCmd { opc := 0x00, nsid := 1, cdw10 := 1048575 }), 5, wCmd { opc := 0x00, nsid := 1, cdw10 := 1048575 }, by decide +kernel⟩⟩

/-- Witness of WritesCompleteWhenCommitted. -/
theorem witness_WritesCompleteWhenCommitted :
    (∃ s : State, ∃ tag, ∃ t : Trk, ∃ data : Bytes, ∃ granules : List Nat, ∃ eus : List Nat, ∃ lost : List Nat, ∃ s1 : State,
      s.ioAdmitted tag 0x01 true true t ∧ s.windowsFull t.sqe.nsid false [(t.sqe.slba * 4096, (t.sqe.slba + t.sqe.nlb) * 4096)] = false
      ∧ s1 = commitGranules tag t.sqe.nsid t.sqe.slba t.sqe.nlb (fun lba => (data.drop (4096 * (lba - t.sqe.slba))).take 4096) lost granules eus s)
    ∧ (∃ s : State, ∃ tag, ∃ t : Trk, ∃ eus : List Nat, ∃ lost : List Nat, ∃ s1 : State, ∃ rest : List Nat,
      s.ioAdmitted tag 0x08 true false t ∧ s.windowsFull t.sqe.nsid false [(t.sqe.slba * 4096, (t.sqe.slba + t.sqe.nlb) * 4096)] = false
      ∧ s.zeroRange t.sqe.nsid t.sqe.slba t.sqe.nlb lost eus = some (s1, rest))
    ∧ (∃ s : State, ∃ tag, ∃ t : Trk, ∃ data : Bytes, ∃ eus lost : List Nat, s.startedAs tag 0x09 = some t ∧ s.ftl.sanitizer = none
      ∧ s.ioCheck t true = none ∧ dsmSecure t.sqe = false ∧ s.rangesOut t.sqe.nsid (dsmRanges t.sqe data) = false ∧ ∃ s1 : State,
      dsmAd t.sqe = true ∧ s.windowsFull t.sqe.nsid true (byteRanges (dsmRanges t.sqe data)) = false
      ∧ zeroRanges t.sqe.nsid lost (dsmRanges t.sqe data) eus s = some s1)
    ∧ (∃ s : State, ∃ tag, ∃ t : Trk, ∃ data : Bytes, ∃ eus : List Nat, ∃ lost : List Nat, ∃ bad : List Nat, ∃ s1 : State,
      ∃ ended : Bool, s.startedAs tag 0x09 = some t ∧ s.ftl.sanitizer = none ∧ s.ioCheck t true = none ∧ dsmSecure t.sqe = true
      ∧ dsmAd t.sqe = true ∧ s.rangesOut t.sqe.nsid (dsmRanges t.sqe data) = false
      ∧ s.windowsFull t.sqe.nsid true (byteRanges (dsmRanges t.sqe data)) = false
      ∧ s.secureDiscard tag t.sqe.nsid (dsmRanges t.sqe data) lost eus bad = (s1, ended)) :=
  ⟨⟨wTrk (wCmd { opc := 0x01, nsid := 1, cdw10 := 1048575 }), 5, wCmd { opc := 0x01, nsid := 1, cdw10 := 1048575 },
    List.replicate 4096 7, [], [], [],
    commitGranules 5 1 1048575 1 (fun lba => ((List.replicate 4096 7).drop (4096 * (lba - 1048575))).take 4096) [] [] [] (wTrk (wCmd { opc := 0x01, nsid := 1, cdw10 := 1048575 })), ⟨by unfold State.ioAdmitted; decide +kernel, by decide +kernel, rfl⟩⟩,
    by obtain ⟨a, b, h⟩ := wPair (o := State.zeroRange (wTrk (wCmd { opc := 0x08, nsid := 1, cdw10 := 1048572, cdw12 := 3 })) 1 1048572 4 [] []) (by decide +kernel); exact ⟨wTrk (wCmd { opc := 0x08, nsid := 1, cdw10 := 1048572, cdw12 := 3 }), 5, wCmd { opc := 0x08, nsid := 1, cdw10 := 1048572, cdw12 := 3 }, [], [], a, b, by unfold State.ioAdmitted; decide +kernel, by decide +kernel, h⟩,
    by obtain ⟨a, h⟩ := wOne (o := zeroRanges 1 [] (dsmRanges { opc := 0x09, nsid := 1, cdw11 := 4 } (List.replicate 4 0 ++ leBytes 4 4 ++ leBytes 8 1048572)) [] (wTrk (wCmd { opc := 0x09, nsid := 1, cdw11 := 4 }))) (by decide +kernel); exact ⟨wTrk (wCmd { opc := 0x09, nsid := 1, cdw11 := 4 }), 5, wCmd { opc := 0x09, nsid := 1, cdw11 := 4 }, List.replicate 4 0 ++ leBytes 4 4 ++ leBytes 8 1048572, [], [], by decide +kernel, by decide +kernel, by decide +kernel, by decide +kernel, by decide +kernel, a, by decide +kernel, by decide +kernel, h⟩,
    ⟨wTrk (wCmd { opc := 0x09, nsid := 1, cdw11 := 4, cdw13 := 0x4000 }), 5,
      wCmd { opc := 0x09, nsid := 1, cdw11 := 4, cdw13 := 0x4000 }, List.replicate 4 0 ++ leBytes 4 4 ++ leBytes 8 1048572, [], [], [],
      (State.secureDiscard (wTrk (wCmd { opc := 0x09, nsid := 1, cdw11 := 4, cdw13 := 0x4000 })) 5 1 (dsmRanges { opc := 0x09, nsid := 1, cdw11 := 4, cdw13 := 0x4000 } (List.replicate 4 0 ++ leBytes 4 4 ++ leBytes 8 1048572)) [] [] []).1, (State.secureDiscard (wTrk (wCmd { opc := 0x09, nsid := 1, cdw11 := 4, cdw13 := 0x4000 })) 5 1 (dsmRanges { opc := 0x09, nsid := 1, cdw11 := 4, cdw13 := 0x4000 } (List.replicate 4 0 ++ leBytes 4 4 ++ leBytes 8 1048572)) [] [] []).2, ⟨by decide +kernel, by decide +kernel, by decide +kernel, by decide +kernel, by decide +kernel, by decide +kernel, by decide +kernel, rfl⟩⟩⟩

/-- Witness of NamespacesAreMadeAndCleared. -/
theorem witness_NamespacesAreMadeAndCleared :
    (∃ s : State, ∃ fn : Fin 2, ∃ e : Sqe, ∃ nsze, ∃ n, ∃ f, s.adminServes fn = true ∧ bits e.cdw10 0 4 = 0 ∧ s.host.freeNsid = some n
      ∧ nsze ≠ 0 ∧ s.ftl.alloc (.ns n) ((nsze + s.part.unitSectors - 1) / s.part.unitSectors) = some f)
    ∧ (∃ s : State, ∃ fn : Fin 2, ∃ e : Sqe, s.adminServes fn = true ∧ bits e.cdw10 0 4 = 1 ∧ e.nsid ≠ 0 ∧ e.nsid ≤ 128
      ∧ Tab.has s.host.ns e.nsid = true)
    ∧ (∃ s : State, ∃ fn : Fin 2, ∃ e : Sqe, ∃ l : List Nat, ∃ n, s.adminServes fn = true ∧ e.nsid ≠ 0 ∧ e.nsid ≤ 128
      ∧ Tab.find s.host.ns e.nsid = some n ∧ bits e.cdw10 0 4 ≤ 1 ∧ (∀ k ∈ l, k ∈ s.controllers))
    ∧ (∃ s : State, ∃ fn : Fin 2, ∃ e : Sqe, s.adminServes fn = true ∧ s.nsRefusal fn e.nsid = none ∧ bits e.cdw10 0 9 = 0
      ∧ bits e.cdw10 9 3 = 0)
    ∧ (∃ s : State, ∃ fn : Fin 2, ∃ e : Sqe, ∃ block, sanitizeAction (bits e.cdw10 0 3) = some block ∧ s.cap 15 = true
      ∧ s.ftl.sanitizer = none ∧ s.adminServes fn = true)
    ∧ (∃ s : State, ∃ z, s.ftl.sanitizer = some z ∧ s.serving = true ∧ (z.block && s.ftl.eus.any fun x => s.pinned x.1) = false) :=
  ⟨⟨wLive, 0, {}, 1048576, 2, (wFtl (fun f => { f with space := [⟨.ns 1, 0, 262144⟩, ⟨.ns 2, 262144, 262144⟩] }) wLive).ftl,
    by decide +kernel⟩,
    ⟨wLive, 0, { cdw10 := 1, nsid := 1 }, by decide +kernel⟩,
    ⟨wLive, 0, { cdw10 := 1, nsid := 1 }, [0], { size := 1048576, att0 := true }, by decide +kernel⟩,
    ⟨wLive, 0, { nsid := 1 }, by decide +kernel⟩,
    ⟨wLive, 0, { cdw10 := 2 }, true, by decide +kernel⟩,
    ⟨wFtl (fun f => { f with sanitizer := some { block := false, op := some 1 } }) wLive, { block := false, op := some 1 },
      by decide +kernel⟩⟩

/-- Witness of TranslationLayerWorks. -/
theorem witness_TranslationLayerWorks :
    (∃ s : State, ∃ eu, ∃ g, s.ftl.nextGroup eu = some g ∧ s.serving = true ∧ s.media.hold = false ∧ s.media.flush = false
      ∧ (65536 ≤ s.ftl.freeEus ∨ s.hostUnits g ≤ s.ftl.credit))
    ∧ (∃ s : State, s.media.hold = true)
    ∧ (∃ s : State, ∃ v, ∃ eus : List Nat, s.serving = true ∧ s.media.hold = false ∧ s.media.flush = false ∧ s.isVictim v = true
      ∧ s.ftl.holdsOld v = false ∧ s.ftl.freeEus < 98304 ∧ (s.ftl.validUnits v).length ≤ eus.length
      ∧ (eus.take (s.ftl.validUnits v).length).contains v = false ∧ s.channelKept v (s.ftl.validUnits v) eus = true
      ∧ canPlace false (eus.take (s.ftl.validUnits v).length) s = true)
    ∧ (∃ s : State, s.serving = true)
    ∧ (∃ s : State, s.serving = true)
    ∧ (∃ s : State, s.serving = true) :=
  ⟨⟨wFtl (fun f => { f with eus := [(9, .opened 3 0)] }) wLive, 9, [10368, 10369, 10370], by decide +kernel⟩,
    ⟨{ wLive with media := { hold := true } }, by decide +kernel⟩,
    ⟨wLow 3629056, 9, [11],
      ⟨by decide +kernel, by decide +kernel, by decide +kernel, wLow_victim _, by decide +kernel, by rw [wLow_free]; decide, by decide +kernel, by decide +kernel, by decide +kernel, wLow_place _⟩⟩,
    ⟨wLive, by decide +kernel⟩,
    ⟨wLive, by decide +kernel⟩,
    ⟨wLive, by decide +kernel⟩⟩

/-- Witness of SessionsOpenParkResumeClose. -/
theorem witness_SessionsOpenParkResumeClose :
    (∃ s : State, ∃ tag, ∃ t : Trk, ∃ root, ∃ chunk, ∃ o : Obj, ∃ i : Nat, ∃ ts : Tiers, ∃ s1 : State, s.vendorAdmitted tag 0x98 false t
      ∧ sqeAction t.sqe = 0 ∧ s.object 1 t.sqe.object = some o ∧ manKv (o.data.take 256) ≠ 0xFF ∧ fieldAt (o.data.take 256) 0x36 1 = 0
      ∧ s.splitSt (o.data.take 256) = none ∧ s.tiers.nextFree = some (i, ts) ∧ s.fits 4 (kvRecordBytes (o.data.take 256) + 65536) = true
      ∧ (root % 64 = 0 ∧ s.freeRange root (kvRecordBytes (o.data.take 256)) = true)
      ∧ ((s.modTiers fun _ => ts).take 4 root (kvRecordBytes (o.data.take 256))).takeChunks 1 [chunk] = some s1)
    ∧ (∃ s : State, ∃ tag, ∃ t : Trk, s.vendorAdmitted tag 0x98 false t ∧ sqeAction t.sqe = 1 ∧ sqeParkTier t.sqe = 0
      ∧ t.sqe.sessionValid = true ∧ s.mustWait tag t = false ∧ (s.session t.sqe.session).state = .active
      ∧ s.splitOf (s.session t.sqe.session).model = none)
    ∧ (∃ s : State, ∃ tag, ∃ t : Trk, s.vendorAdmitted tag 0x98 false t ∧ sqeAction t.sqe = 1 ∧ sqeParkTier t.sqe ≠ 0
      ∧ t.sqe.sessionValid = true ∧ s.mustWait tag t = false ∧ (s.session t.sqe.session).state = .active
      ∧ s.splitOf (s.session t.sqe.session).model = none ∧ s.ftl.readOnly = false
      ∧ (s.holdSession t.sqe.session tag).storeFits (s.session t.sqe.session).root = true)
    ∧ (∃ s : State, ∃ tag, ∃ t : Trk, s.vendorAdmitted tag 0x98 false t ∧ sqeAction t.sqe = 2 ∧ t.sqe.sessionValid = true
      ∧ s.mustWait tag t = false ∧ (s.session t.sqe.session).state = .parked ∧ s.splitOf (s.session t.sqe.session).model = none)
    ∧ (∃ s : State, ∃ tag, ∃ t : Trk, s.vendorAdmitted tag 0x98 false t ∧ sqeAction t.sqe = 3 ∧ t.sqe.sessionValid = true
      ∧ s.mustWait tag t = false ∧ (s.session t.sqe.session).state = .parked ∧ s.splitOf (s.session t.sqe.session).model = none
      ∧ (s.session t.sqe.session).image = none)
    ∧ (∃ s : State, ∃ i : Fin 1048576, ∃ pos, ∃ tag, ∃ u : State, (s.session i.val).op = some (.parkT2 tag) ∧ s.makeCold i pos = some u)
    ∧ (∃ s : State, ∃ i : Fin 1048576, ∃ pos, ∃ u : State, s.makeCold i pos = some u)
    ∧ (∃ s : State, ∃ i : Fin 1048576, ∃ pos, ∃ u : State, s.kvFull = true ∧ s.demotable i = true ∧ (∀ k ∈ s.demotables,
      (s.session i).lastUse ≤ (s.session k).lastUse) ∧ s.ftl.readOnly = false ∧ s.storeFits (s.session i).root = true
      ∧ s.makeCold i pos = some u)
    ∧ (∃ s : State, ∃ i : Fin 1048576, ∃ root, ∃ chunks : List Nat, ∃ tiles : List Nat, ∃ tag, ∃ img : ColdImage, ∃ t : Trk, ∃ n,
      ∃ s2 : State, (s.session i).op = some (.resume tag) ∧ (s.session i).image = some img ∧ n = s.rootBytes (s.session i) img
      ∧ s.fits 4 (n + img.room) = true ∧ (root % 64 = 0 ∧ s.freeRange root n = true)
      ∧ (restoreChunks root 0 img.chunks chunks ((s.take 4 root n).writeMem root img.header)).bind (restoreTiles root img.tiles tiles) = some s2 ∧ s2.trk tag = some t) :=
  ⟨by obtain ⟨u, h⟩ := wOne (o := ((State.modTiers (wWith 0 (wTrk (wCmd { opc := 0x98, cdw13 := 0, cdw15 := 0, cdw12 := 7 }))) fun _ => { fresh := 1 }).take 4 0 (kvRecordBytes ((wModel 0).data.take 256))).takeChunks 1 [1048576]) (by decide +kernel); exact ⟨wWith 0 (wTrk (wCmd { opc := 0x98, cdw13 := 0, cdw15 := 0, cdw12 := 7 })), 5, wCmd { opc := 0x98, cdw13 := 0, cdw15 := 0, cdw12 := 7 }, 0, 1048576, wModel 0, 0, { fresh := 1 }, u, by unfold State.vendorAdmitted; decide +kernel, by decide +kernel, by decide +kernel, by decide +kernel, by decide +kernel, by decide +kernel, by decide +kernel, by decide +kernel, by decide +kernel, h⟩,
    ⟨wSes { state := .active } (wTrk (wCmd { opc := 0x98, cdw13 := 0x80000009, cdw15 := 1 })), 5,
      wCmd { opc := 0x98, cdw13 := 0x80000009, cdw15 := 1 }, by unfold State.vendorAdmitted; decide +kernel⟩,
    ⟨wSes { state := .active } (wTrk (wCmd { opc := 0x98, cdw13 := 0x80000009, cdw15 := 0x11 })), 5,
      wCmd { opc := 0x98, cdw13 := 0x80000009, cdw15 := 0x11 }, by unfold State.vendorAdmitted; decide +kernel⟩,
    ⟨wSes { state := .parked } (wTrk (wCmd { opc := 0x98, cdw13 := 0x80000009, cdw15 := 2 })), 5,
      wCmd { opc := 0x98, cdw13 := 0x80000009, cdw15 := 2 }, by unfold State.vendorAdmitted; decide +kernel⟩,
    ⟨wSes { state := .parked } (wTrk (wCmd { opc := 0x98, cdw13 := 0x80000009, cdw15 := 3 })), 5,
      wCmd { opc := 0x98, cdw13 := 0x80000009, cdw15 := 3 }, by unfold State.vendorAdmitted; decide +kernel⟩,
    by obtain ⟨u, h⟩ := wOne (o := State.makeCold (wSes { state := .active, op := some (.parkT2 5) } wLive) 9 0) (by decide +kernel); exact ⟨wSes { state := .active, op := some (.parkT2 5) } wLive, 9, 0, 5, u, by decide +kernel, h⟩,
    by obtain ⟨u, h⟩ := wOne (o := State.makeCold (wSes { state := .parked } wLive) 9 0) (by decide +kernel); exact ⟨wSes { state := .parked } wLive, 9, 0, u, h⟩,
    by obtain ⟨u, h⟩ := wOne (o := State.makeCold (wSes { state := .parked, wants := 1099511627776 } wLive) 9 0) (by decide +kernel); exact ⟨wSes { state := .parked, wants := 1099511627776 } wLive, 9, 0, u, by decide +kernel, by decide +kernel, by decide +kernel, by decide +kernel, by decide +kernel, h⟩,
    ⟨wSes { state := .cold, op := some (.resume 5), image := some {} } (wTrk (wCmd { opc := 0x98, cdw13 := 0x80000009, cdw15 := 2 })), 9,
      0, [], [], 5, {}, wCmd { opc := 0x98, cdw13 := 0x80000009, cdw15 := 2 }, 0,
      (State.take (wSes { state := .cold, op := some (.resume 5), image := some {} } (wTrk (wCmd { opc := 0x98, cdw13 := 0x80000009, cdw15 := 2 }))) 4 0 0).writeMem 0 [], ⟨by decide +kernel, by decide +kernel, by decide +kernel, by decide +kernel, by decide +kernel, rfl, by decide +kernel⟩⟩⟩

/-- Witness of GenerationCommandsQueueTheirTask. -/
theorem witness_GenerationCommandsQueueTheirTask :
    (∃ s : State, ∃ tag, ∃ t : Trk, ∃ d : Bytes, ∃ o : Obj, s.vendorAdmitted tag 0x97 false t ∧ t.sqe.sessionValid = false
      ∧ bit (fieldAt d 0x0C 1) 1 = false ∧ s.object 1 t.sqe.object = some o ∧ samplingSt d (s.draftOk (o.data.take 256)) = none
      ∧ s.modelCheck o [0] = none ∧ bit (fieldAt d 0x0C 1) 0 = true ∧ fieldAt d 0x18 4 ≠ 0 ∧ (∀ k < fieldAt d 0x18 4,
      fieldAt d (64 + 4 * k) 4 < fieldAt (o.data.take 256) 0x1C 4) ∧ fieldAt d 0x18 4 + 1 ≤ manContext (o.data.take 256))
    ∧ (∃ s : State, ∃ tag, ∃ t : Trk, ∃ d : Bytes, ∃ o : Obj, ∃ n, s.vendorAdmitted tag 0x93 false t ∧ t.sqe.nsid = 0
      ∧ s.object 1 t.sqe.object = some o ∧ s.modelCheck o [1] = none ∧ bit t.sqe.cmdDw 0 = true ∧ bit t.sqe.cmdDw 1 = false
      ∧ d.length = 16 + (4 * n + 7) / 8 * 8 ∧ fieldAt d 0 4 = 1 ∧ fieldAt d 4 4 = 0 ∧ fieldAt d 8 4 = n ∧ fieldAt d 12 4 = 0
      ∧ n ≤ fieldAt (o.data.take 256) 0x24 4 ∧ (∀ i < n, fieldAt ((d.drop 16).take (4 * n)) (4 * i) 4 < fieldAt (o.data.take 256) 0x1C 4)
      ∧ 64 + outBytes (o.data.take 256) false ≤ t.sqe.resLen)
    ∧ (∃ s : State, ∃ tag, ∃ t : Trk, s.vendorAdmitted tag 0x9B false t ∧ t.sqe.sessionValid = false
      ∧ s.programCheck (t.sqe.cmdDw % 256) t.sqe.object = none)
    ∧ (∃ s : State, ∃ tag e n l, s.tokens.queue = (tag, e, n) :: l) :=
  ⟨⟨wWith 0 (wTrk (wCmd { opc := 0x97, cdw11 := 4096, cdw12 := 7 })), 5, wCmd { opc := 0x97, cdw11 := 4096, cdw12 := 7 },
    layFields 0 68 [(4, 4, 0x3F800000), (0x0C, 1, 1), (0x18, 4, 1), (64, 4, 999)], wModel 0,
    by unfold State.vendorAdmitted; decide +kernel⟩,
    ⟨wWith 1 (wTrk (wCmd { opc := 0x93, cdw11 := 4096, cdw12 := 7, cdw15 := 1 })), 5,
      wCmd { opc := 0x93, cdw11 := 4096, cdw12 := 7, cdw15 := 1 }, layFields 0 24 [(0, 4, 1), (8, 4, 1), (16, 4, 999)], wModel 1, 1,
      by unfold State.vendorAdmitted; decide +kernel⟩,
    ⟨wWith 0 (wTrk (wCmd { opc := 0x9B, cdw11 := 4096, cdw12 := 3 })), 5, wCmd { opc := 0x9B, cdw11 := 4096, cdw12 := 3 },
      by unfold State.vendorAdmitted; decide +kernel⟩,
    ⟨{ wLive with tokens := { queue := [(5, true, 1)] } }, 5, true, 1, [], by decide +kernel⟩⟩

/-- Witness of IndexCommandsCommitOrWait. -/
theorem witness_IndexCommandsCommitOrWait :
    (∃ s : State, ∃ tag, ∃ t : Trk, ∃ d : Bytes, ∃ x : Index, ∃ tr : Trained, s.vendorAdmitted tag 0x85 false t
      ∧ s.usable t.sqe.object = some (x, tr) ∧ s.writeCheck x t.sqe d = none)
    ∧ (∃ s : State, ∃ tag, ∃ t : Trk, ∃ d : Bytes, ∃ x : Index, ∃ tr : Trained, s.vendorAdmitted tag 0x89 false t
      ∧ s.usable t.sqe.object = some (x, tr) ∧ s.writeCheck x t.sqe d = none ∧ x.room (writeCount t.sqe) = true)
    ∧ (∃ s : State, ∃ tag, ∃ t : Trk, ∃ d : Bytes, ∃ x : Index, ∃ tr : Trained, s.trk tag = some t ∧ s.usable t.sqe.object = some (x, tr)
      ∧ x.waiting.find? (fun w => w.1 == tag) = some (tag, d) ∧ s.stopping tag = false ∧ s.ftl.readOnly = false
      ∧ x.room (writeCount t.sqe) = true)
    ∧ (∃ s : State, ∃ tag, ∃ t : Trk, ∃ d : Bytes, ∃ x : Index, ∃ tr : Trained, ∃ inst, s.vendorAdmitted tag 0x83 false t
      ∧ s.usable t.sqe.object = some (x, tr) ∧ x.queryCheck d t.sqe.inLen t.sqe.resLen = none ∧ s.span.shardsOf t.sqe.object = none
      ∧ inst ≤ 4095 ∧ Tab.has s.sel.merges inst = false ∧ qiShade d = 0)
    ∧ (∃ s : State, ∃ tag, ∃ t : Trk, ∃ d : Bytes, ∃ inst, s.vendorAdmitted tag 0x8F false t ∧ s.scanCheck t d = none ∧ inst ≤ 4095
      ∧ Tab.has s.sel.merges inst = false) :=
  ⟨⟨wIx wIndex (wTrk (wCmd { opc := 0x85, cdw10 := 56, cdw12 := 2 })), 5, wCmd { opc := 0x85, cdw10 := 56, cdw12 := 2 },
    List.replicate 56 0, wIndex, { centroids := List.replicate 16 (List.replicate 64 0) },
    by unfold State.vendorAdmitted; decide +kernel⟩,
    ⟨wIx wIndex (wTrk (wCmd { opc := 0x89, cdw10 := 8, cdw12 := 2 })), 5, wCmd { opc := 0x89, cdw10 := 8, cdw12 := 2 },
      List.replicate 8 0, wIndex, { centroids := List.replicate 16 (List.replicate 64 0) },
      by unfold State.vendorAdmitted; decide +kernel⟩,
    ⟨wIx { wIndex with waiting := [(5, List.replicate 8 0)] } (wTrk (wCmd { opc := 0x89, cdw10 := 8, cdw12 := 2 })), 5,
      wCmd { opc := 0x89, cdw10 := 8, cdw12 := 2 }, List.replicate 8 0, { wIndex with waiting := [(5, List.replicate 8 0)] },
      { centroids := List.replicate 16 (List.replicate 64 0) }, by decide +kernel⟩,
    ⟨wIx wIndex (wTrk (wCmd { opc := 0x83, cdw10 := 320, cdw11 := 4096, cdw12 := 2 })), 5,
      wCmd { opc := 0x83, cdw10 := 320, cdw11 := 4096, cdw12 := 2 }, layFields 0 320 [(0, 2, 1), (2, 2, 1), (4, 2, 1)], wIndex,
      { centroids := List.replicate 16 (List.replicate 64 0) }, 4095, by unfold State.vendorAdmitted; decide +kernel⟩,
    ⟨wTrk (wCmd { opc := 0x8F, nsid := 1, cdw10 := 224, cdw11 := 4096 }), 5,
      wCmd { opc := 0x8F, nsid := 1, cdw10 := 224, cdw11 := 4096 }, layFields 0 224 [(2, 1, 1), (4, 4, 64), (0xD0, 8, 0), (0xD8, 4, 4)],
      4095, by unfold State.vendorAdmitted; decide +kernel⟩⟩

/-- Witness of ChannelJobsRunInRingOrder. -/
theorem witness_ChannelJobsRunInRingOrder :
    (∃ s : State, ∃ ch : Fin 32, ∃ v, ringTail (s.pipe ch).jobHead (s.pipe ch).jobTail v = ((s.pipe ch).jobTail + 1) % 256)
    ∧ (∃ s : State, ∃ ch : Fin 32, ∃ j : ChJob, (s.pipe ch).run = some j)
    ∧ (∃ s : State, ∃ ch : Fin 32, (s.pipe ch).run = none)
    ∧ (∃ s : State, ∃ ch : Fin 32, ∃ j : ChJob, ∃ l : List ChJob, (s.pipe ch).bound = j :: l ∧ (s.pipe ch).enable = true
      ∧ (s.pipe ch).run = none)
    ∧ (∃ s : State, ∃ ch : Fin 32, ∃ j : ChJob, ∃ l : List ChJob, ∃ r : ChJob, (s.pipe ch).bound = j :: l ∧ (s.pipe ch).enable = true
      ∧ (s.pipe ch).run = some r ∧ s.mayFetch ch { j with serial := (s.pipe ch).serial } r = true)
    ∧ (∃ s : State, ∃ ch : Fin 32, ∃ j : ChJob, ∃ st, s.chJobCheck ch j j.pages = some st)
    ∧ (∃ s : State, ∃ ch : Fin 32, ∃ j : ChJob, (s.pipe ch).run = some j ∧ j.loading = true)
    ∧ (∃ s : State, ∃ ch : Fin 32, ∃ q, ∃ j : ChJob, ∃ m : Merge, (s.pipe ch).run = some j ∧ Tab.find s.sel.merges (jd j 0x34 2) = some m
      ∧ (j.on 8 && j.feedback && m.feedback) = true ∧ q < j.queries)
    ∧ (∃ s : State, ∃ ch : Fin 32, ∃ j : ChJob, (s.pipe ch).run = some j ∧ j.drained = true ∧ (s.pipe ch).room = true)
    ∧ (∃ s : State, ∃ ch : Fin 32, ∃ j : ChJob, (s.pipe ch).run = some j ∧ (s.pipe ch).room = false)
    ∧ (∃ s : State, ∃ ch : Fin 32, ∃ j : ChJob, (s.pipe ch).run = some j ∧ (j.on 6 || j.on 7) = true ∧ j.status = St.ok ∧ j.reran = false)
    ∧ (∃ s : State, ∃ tag, ∃ first, ∃ ch : Fin 32, ∃ x : Scan, ∃ l : List SByte, ∃ long, Tab.find s.pipes.scans tag = some x
      ∧ x.seams.contains first = true ∧ x.seamInput first = some (some (l, long)) ∧ x.failed = none ∧ (s.pipe ch).ringRoom = true) :=
  ⟨⟨wLive, 4, 1, by decide +kernel⟩,
    ⟨wPipe { run := some { desc := List.replicate 128 0 } }, 4, { desc := List.replicate 128 0 }, by decide +kernel⟩,
    ⟨wLive, 31, by decide +kernel⟩,
    ⟨wPipe { enable := true, bound := [{ desc := List.replicate 128 0 }] }, 4, { desc := List.replicate 128 0 }, [], by decide +kernel⟩,
    ⟨wPipe { enable := true, bound := [{ desc := layFields 0 128 [(0x06, 1, 4), (0x08, 2, 0x3FF), (0x18, 4, 16)] }], run := some { desc := List.replicate 128 0, fed := true } }, 4, { desc := layFields 0 128 [(0x06, 1, 4), (0x08, 2, 0x3FF), (0x18, 4, 16)] }, [], { desc := List.replicate 128 0, fed := true }, by decide +kernel⟩,
    ⟨wLive, 4, { desc := List.replicate 128 255 }, St.reservedField, by decide +kernel⟩,
    ⟨wPipe { run := some { desc := List.replicate 128 0, loading := true } }, 4, { desc := List.replicate 128 0, loading := true },
      by decide +kernel⟩,
    ⟨{ wPipe { run := some { desc := layFields 0 128 [(0x0B, 1, 1), (0x29, 1, 64), (0x34, 2, 9)] } } with sel := { merges := [(9, { desc := layFields 0 32 [(3, 1, 2)] })] } }, 4, 63, { desc := layFields 0 128 [(0x0B, 1, 1), (0x29, 1, 64), (0x34, 2, 9)] }, { desc := layFields 0 32 [(3, 1, 2)] }, by decide +kernel⟩,
    ⟨wPipe { run := some { desc := List.replicate 128 0, fed := true } }, 4, { desc := List.replicate 128 0, fed := true },
      by decide +kernel⟩,
    ⟨wPipe { run := some { desc := List.replicate 128 0 }, cmplHead := 1 }, 4, { desc := List.replicate 128 0 }, by decide +kernel⟩,
    ⟨wPipe { run := some { desc := layFields 0 128 [(0x08, 2, 64)] } }, 4, { desc := layFields 0 128 [(0x08, 2, 64)] },
      by decide +kernel⟩,
    ⟨{ wLive with pipes := { scans := [(5, { seams := [0], segs := [⟨0, true, false⟩, ⟨1, false, true⟩], frags := [(0, { tail := [{}] }), (1, {})] })] } }, 5, 0, 4, { seams := [0], segs := [⟨0, true, false⟩, ⟨1, false, true⟩], frags := [(0, { tail := [{}] }), (1, {})] }, [{}], false, by decide +kernel⟩⟩

/-- Witness of HostMailboxMovesMessages. -/
theorem witness_HostMailboxMovesMessages :
    (∃ s : State, ∃ fn : Fin 2, ∃ v : Nat, s.mbReach fn = true ∧ (s.amp.mb fn).state = s.idleState ∧ 16 ≤ v ∧ v ≤ 65576)
    ∧ (∃ s : State, ∃ fn : Fin 2, ∃ v : Nat, s.mbReach fn = true ∧ v < 16)
    ∧ (∃ s : State, ∃ fn : Fin 2, s.mbReach fn = true ∧ (s.amp.mb fn).state = .filling
      ∧ (s.amp.mb fn).inWords < ((s.amp.mb fn).reqBytes + 7) / 8)
    ∧ (∃ s : State, ∃ fn : Fin 2, s.mbReach fn = true ∧ (s.amp.mb fn).state ≠ .filling)
    ∧ (∃ s : State, ∃ fn : Fin 2, s.mbReach fn = true ∧ (s.amp.mb fn).state = .response
      ∧ (s.amp.mb fn).outWords < ((s.amp.mb fn).resp.length + 7) / 8)
    ∧ (∃ s : State, ∃ fn : Fin 2, s.mbReach fn = true ∧ ((s.amp.mb fn).resp.length + 7) / 8 ≤ (s.amp.mb fn).outWords)
    ∧ (∃ s : State, ∃ fn : Fin 2, s.mbReach fn = true ∧ (s.amp.mb fn).state = .filling)
    ∧ (∃ s : State, ∃ fn : Fin 2, s.mbReach fn = true ∧ (s.amp.mb fn).state = .response)
    ∧ (∃ s : State, ∃ fn : Fin 2, s.mbReach fn = true ∧ (s.amp.mb fn).state ≠ .response)
    ∧ (∃ s : State, ∃ fn : Fin 2, s.mbReach fn = true) :=
  ⟨⟨wLive, 0, 65576, by decide +kernel⟩,
    ⟨wLive, 0, 15, by decide +kernel⟩,
    ⟨{ wLive with amp := { m0 := { state := .filling, reqBytes := 17, inWords := 2 } } }, 0, by decide +kernel⟩,
    ⟨wLive, 0, by decide +kernel⟩,
    ⟨{ wLive with amp := { m0 := { state := .response, resp := List.replicate 17 0, outWords := 2 } } }, 0, by decide +kernel⟩,
    ⟨{ wLive with amp := { m0 := { state := .filling } } }, 0, by decide +kernel⟩,
    ⟨{ wLive with amp := { m0 := { state := .filling } } }, 0, by decide +kernel⟩,
    ⟨{ wLive with amp := { m0 := { state := .response } } }, 0, by decide +kernel⟩,
    ⟨wLive, 0, by decide +kernel⟩,
    ⟨wLive, 0, by decide +kernel⟩⟩

/-- Witness of ResponsesAndNotices. -/
theorem witness_ResponsesAndNotices :
    (∃ s : State, ∃ fn : Fin 2, ∃ j : AmpJob, ∃ st, ∃ p : Bytes, s.mailOn = true ∧ ampFirstDone fn s.amp.jobs = some (j, st, p)
      ∧ j.abandoned = false)
    ∧ (∃ s : State, ∃ mb : Fin 3, ∃ j : AmpJob, ∃ st, ∃ p : Bytes, s.mailOn = true ∧ ampFirstDone mb s.amp.jobs = some (j, st, p)
      ∧ j.abandoned = true)
    ∧ (∃ s : State, ∃ j : AmpJob, ∃ st, ∃ p : Bytes, s.mailOn = true ∧ ampFirstDone 2 s.amp.jobs = some (j, st, p) ∧ j.abandoned = false)
    ∧ (∃ s : State, s.sideband = true ∧ s.mailOn = true ∧ s.amp.m2.state = .busy)
    ∧ (∃ s : State, s.sideband = true ∧ s.mailOn = true ∧ s.amp.m2.state ≠ .busy)
    ∧ (∃ s : State, ∃ ep, s.amp.noticeDue = true ∧ s.amp.m2.events ≠ [] ∧ s.amp.helloEndpoint = some ep ∧ s.sideband = true ∧ (∀ t,
      s.amp.lastNotice = some t → t + 100000 ≤ s.hdCount))
    ∧ (∃ s : State, ∃ t : Nat, s.amp.lastNotice = some t ∧ s.hdCount < t + 100000)
    ∧ (∃ s : State, ∃ mb : Fin 3, (s.amp.mb mb).lockUntil ≠ 0 ∧ (s.amp.mb mb).lockUntil ≤ s.hdCount)
    ∧ (∃ s : State, ∃ mb : Fin 3, ∃ j : AmpJob, s.mailOn = true ∧ ampTurn mb s.amp.jobs false = some j ∧ j.op ∉ ampOpcodes) :=
  ⟨⟨{ wLive with amp := { jobs := [{ mb := 1, op := 4, phase := .done 0 [] }] } }, 1, { mb := 1, op := 4, phase := .done 0 [] }, 0, [],
    by decide +kernel⟩,
    ⟨{ wLive with amp := { jobs := [{ mb := 1, op := 4, phase := .done 0 [], abandoned := true }] } }, 1,
      { mb := 1, op := 4, phase := .done 0 [], abandoned := true }, 0, [], by decide +kernel⟩,
    ⟨{ wLive with amp := { jobs := [{ mb := 2, op := 4, phase := .done 0 [] }] } }, { mb := 2, op := 4, phase := .done 0 [] }, 0, [],
      by decide +kernel⟩,
    ⟨{ wLive with amp := { m2 := { state := .busy } } }, by decide +kernel⟩,
    ⟨wLive, by decide +kernel⟩,
    ⟨{ wLive with amp := { noticeDue := true, helloEndpoint := some 9, m2 := { events := [{ cls := 1, code := 1 }] } } }, 9,
      by decide +kernel⟩,
    ⟨{ wLive with amp := { lastNotice := some 999999900001 } }, 999999900001, by decide +kernel⟩,
    ⟨{ wLive with amp := { m2 := { lockUntil := 1000000000000 } } }, 2, by decide +kernel⟩,
    ⟨{ wLive with amp := { jobs := [{ mb := 2, op := 0x0006 }] } }, 2, { mb := 2, op := 0x0006 }, by decide +kernel⟩⟩

/-- Witness of ProtocolMessagesAnswer. -/
theorem witness_ProtocolMessagesAnswer :
    (∃ s : State, ∃ mb : Fin 3, ∃ j : AmpJob, s.ampTurnOf mb 0x0001 j ∧ fieldAt j.payload 0 1 ≤ 1 ∧ 1 ≤ fieldAt j.payload 1 1
      ∧ j.mb = mb.val)
    ∧ (∃ s : State, ∃ mb : Fin 3, ∃ j : AmpJob, s.ampTurnOf mb 0x0002 j)
    ∧ (∃ s : State, ∃ mb : Fin 3, ∃ j : AmpJob, s.ampTurnOf mb 0x0104 j)
    ∧ (∃ s : State, ∃ mb : Fin 3, ∃ j : AmpJob, s.ampTurnOf mb 0x0101 j)
    ∧ (∃ s : State, ∃ mb : Fin 3, ∃ j : AmpJob, s.ampTurnOf mb 0x0004 j ∧ j.mb = mb.val ∧ 1 ≤ fieldAt j.payload 0 4
      ∧ fieldAt j.payload 0 4 ≤ 2047 ∧ s.sec.phase ≠ .recovery ∧ (s.amp.mb mb).dropped = 0)
    ∧ (∃ s : State, ∃ mb : Fin 3, ∃ j : AmpJob, s.ampTurnOf mb 0x0103 j)
    ∧ (∃ s : State, ∃ mb : Fin 3, ∃ j : AmpJob, ∃ o : Op, s.ampTurnOf mb 0x0005 j ∧ Tab.find s.amp.ops (fieldAt j.payload 0 4) = some o)
    ∧ (∃ s : State, ∃ mb : Fin 3, ∃ j : AmpJob, s.ampTurnOf mb 0x0005 j ∧ Tab.find s.amp.ops (fieldAt j.payload 0 4) = none)
    ∧ (∃ s : State, ∃ mb : Fin 3, ∃ j : AmpJob, s.ampTurnOf mb 0x0003 j ∧ j.mb = mb.val ∧ bit (fieldAt j.payload 0 1) 0 = false
      ∧ fieldAt j.payload 0x28 64 = 0 ∧ s.sec.owned = true ∧ s.sec.held ≠ 3)
    ∧ (∃ s : State, ∃ mb : Fin 3, ∃ j : AmpJob, s.ampTurnOf mb 0x0003 j ∧ bit (fieldAt j.payload 0 1) 0 = true ∧ s.sec.owned = true) :=
  ⟨⟨wAmp 0x0001 ([1, 1]), 0, wJob 0x0001 ([1, 1]), by unfold State.ampTurnOf; decide +kernel⟩,
    ⟨wAmp 0x0002 ([]), 0, wJob 0x0002 ([]), by unfold State.ampTurnOf; decide +kernel⟩,
    ⟨wAmp 0x0104 ([]), 0, wJob 0x0104 ([]), by unfold State.ampTurnOf; decide +kernel⟩,
    ⟨wAmp 0x0101 ([]), 0, wJob 0x0101 ([]), by unfold State.ampTurnOf; decide +kernel⟩,
    ⟨wAmp 0x0004 (leBytes 4 2047), 0, wJob 0x0004 (leBytes 4 2047), by unfold State.ampTurnOf; decide +kernel⟩,
    ⟨wAmp 0x0103 ([]), 0, wJob 0x0103 ([]), by unfold State.ampTurnOf; decide +kernel⟩,
    ⟨{ wLive with amp := { jobs := [wJob 0x0005 (leBytes 4 1)], ops := [(1, { kind := .sanitize })] } }, 0, wJob 0x0005 (leBytes 4 1),
      { kind := .sanitize }, by unfold State.ampTurnOf; decide +kernel⟩,
    ⟨wAmp 0x0005 (leBytes 4 1), 0, wJob 0x0005 (leBytes 4 1), by unfold State.ampTurnOf; decide +kernel⟩,
    ⟨wAmp 0x0003 (List.replicate 104 0), 0, wJob 0x0003 (List.replicate 104 0), by unfold State.ampTurnOf; decide +kernel⟩,
    ⟨wAmp 0x0003 ([1]), 0, wJob 0x0003 ([1]), by unfold State.ampTurnOf; decide +kernel⟩⟩

/-- Witness of ObjectsAreInstalledByStages. -/
theorem witness_ObjectsAreInstalledByStages :
    (∃ s : State, ∃ mb : Fin 3, ∃ j : AmpJob, s.ampTurnOf mb 0x0201 j ∧ s.installSt (installOf j.payload) = St.ok ∧ s.amp.openOps < 16)
    ∧ (∃ s : State, ∃ op, ∃ i : Install, s.amp.installs = [i] ∧ i.op = op ∧ s.serving = true ∧ s.isHeld = false ∧ i.obj.source = 0
      ∧ Config.sha256 i.obj.data ≠ i.obj.digest)
    ∧ (∃ s : State, ∃ op, ∃ lost : List Nat, ∃ bodyOk : BodyLayout, ∃ regions : List (ℕ × ℕ), ∃ space : List Nat, ∃ i : Install,
      ∃ t : State, ∃ o : Obj, s.amp.installs = [i] ∧ i.op = op ∧ s.serving = true ∧ s.isHeld = false
      ∧ s.sweepObjects.stages i.obj lost bodyOk regions space = .done t o ∧ ¬ (o.source = 0
      ∧ 67108864 < s.amp.inlineBytes (objKey o.cls o.id) + o.size))
    ∧ (∃ s : State, ∃ mb : Fin 3, ∃ j : AmpJob, s.ampTurnOf mb 0x0202 j ∧ fieldAt j.payload 0 1 ≤ 4
      ∧ Tab.has s.amp.objects (objKey (fieldAt j.payload 0 1) (fieldAt j.payload 2 2)) = true)
    ∧ (∃ s : State, ∃ mb : Fin 3, ∃ j : AmpJob, s.ampTurnOf mb 0x0202 j ∧ fieldAt j.payload 0 1 ≤ 4
      ∧ Tab.has s.amp.objects (objKey (fieldAt j.payload 0 1) (fieldAt j.payload 2 2)) = false)
    ∧ (∃ s : State, ∃ mb : Fin 3, ∃ j : AmpJob, ∃ l : Tab Obj, s.ampTurnOf mb 0x0203 j ∧ fieldAt j.payload 0 1 ≤ 4
      ∧ l = s.amp.objects.filter (fun o => decide (objKey (fieldAt j.payload 0 1) (fieldAt j.payload 2 2) ≤ o.1) && decide (o.1 < objKey (fieldAt j.payload 0 1 + 1) 0)) ∧ l.length ≤ 1365) :=
  ⟨⟨wAmp 0x0201 ([4] ++ List.replicate 63 0), 0, wJob 0x0201 ([4] ++ List.replicate 63 0), by unfold State.ampTurnOf; decide +kernel⟩,
    ⟨{ wLive with amp := { installs := [{ op := 1, obj := { id := 3, data := [1], digest := Config.sha256 [1] + 1 } }] } }, 1,
      { op := 1, obj := { id := 3, data := [1], digest := Config.sha256 [1] + 1 } }, ⟨rfl, rfl,
      by decide +kernel, by decide +kernel, rfl, (Nat.lt_succ_self _).ne⟩⟩,
    by obtain ⟨t, h⟩ := wInst_done; exact ⟨wInst, 1, [], {}, [], [0], { op := 1, obj := wProg }, t, { wProg with space := [0] }, rfl, rfl, by decide +kernel, by decide +kernel, h, by decide +kernel⟩,
    ⟨{ wWith 0 wLive with amp := { jobs := [wJob 0x0202 [1, 0, 7, 0]], objects := [(65543, wModel 0)] } }, 0, wJob 0x0202 [1, 0, 7, 0],
      by unfold State.ampTurnOf; decide +kernel⟩,
    ⟨wAmp 0x0202 ([4, 0, 7, 0]), 0, wJob 0x0202 ([4, 0, 7, 0]), by unfold State.ampTurnOf; decide +kernel⟩,
    ⟨wAmp 0x0203 ([4]), 0, wJob 0x0203 ([4]), [], by unfold State.ampTurnOf; decide +kernel⟩⟩

/-- Witness of IndexMessagesAct. -/
theorem witness_IndexMessagesAct :
    (∃ s : State, ∃ mb : Fin 3, ∃ j : AmpJob, ∃ x : Index, ∃ f : Ftl, s.ampTurnOf mb 0x0301 j ∧ s.createCheck j.payload = none
      ∧ x = { form := j.payload, born := s.index.nextBorn }
      ∧ s.ftl.alloc (.index s.index.nextBorn) (fieldAt j.payload 0x18 8 / s.part.unitSize) = some f ∧ s.fits 2 x.hbm = true)
    ∧ (∃ s : State, ∃ mb : Fin 3, ∃ j : AmpJob, ∃ x : Index, s.ampTurnOf mb 0x0302 j ∧ s.ix (fieldAt j.payload 0 1) = some x)
    ∧ (∃ s : State, ∃ mb : Fin 3, ∃ j : AmpJob, ∃ x : Index, s.ampTurnOf mb 0x0303 j ∧ s.ix (fieldAt j.payload 0 1) = some x
      ∧ s.trainCheck x j.payload = none ∧ s.amp.openOps < 16)
    ∧ (∃ s : State, ∃ i : Fin 256, ∃ lost : List Nat, ∃ x : Index, ∃ t : Training, ∃ d : Bytes, s.ix i = some x ∧ x.training = some t
      ∧ s.readSectors (fieldAt t.req 4 4) (fieldAt t.req 8 8) ((fieldAt t.req 0x10 4 * x.d + 4095) / 4096) lost = (d, []))
    ∧ (∃ s : State, ∃ mb : Fin 3, ∃ j : AmpJob, ∃ x : Index, s.ampTurnOf mb 0x0304 j ∧ s.ix (fieldAt j.payload 0 1) = some x
      ∧ s.foldCheck x j.payload = none ∧ s.amp.openOps < 16 ∧ (x.side.any fun e => decide (x.cur.seq < e.seq)) = true
      ∧ bit (fieldAt j.payload 1 1) 0 = false)
    ∧ (∃ s : State, ∃ i : Fin 256, ∃ x : Index, ∃ t : Trained, ∃ f : Fold, s.usable i = some (x, t) ∧ x.fold = some f
      ∧ s.ftl.readOnly = false)
    ∧ (∃ s : State, ∃ mb : Fin 3, ∃ j : AmpJob, ∃ b : Binding, s.ampTurnOf mb 0x0305 j ∧ s.bindCheck j.payload = none
      ∧ bit (fieldAt j.payload 5 1) 0 = false
      ∧ b = { index := fieldAt j.payload 4 1, model := fieldAt j.payload 8 2, windowLog2 := fieldAt j.payload 6 1, attr := fieldAt j.payload 0x10 8 })
    ∧ (∃ s : State, ∃ mb : Fin 3, ∃ j : AmpJob, ∃ x : Index, s.ampTurnOf mb 0x0306 j ∧ s.ix (fieldAt j.payload 0 1) = some x)
    ∧ (∃ s : State, ∃ u : State, ∃ w : Window, ∃ l : List Window, ∃ b : Binding, ∃ x : Index, ∃ t : Trained, ∃ d : Bytes,
      s.index.erasing = [] ∧ s.index.pending = w :: l ∧ Tab.find s.index.bindings w.nsid = some b ∧ s.usable b.index = some (x, t)
      ∧ s.ftl.readOnly = false ∧ x.room 1 = true ∧ x.vectorRoom 1 = true ∧ s.readSectors w.nsid (w.pos / 4096) (b.window / 4096) [] = (d,
      []) ∧ dropZeros d ≠ []
      ∧ u = (s.windowDone.forget x.born (windowId w.nsid w.pos)).modIndex (fun y => { y with ingested := y.ingested ++ [(x.born, windowId w.nsid w.pos)] })) :=
  ⟨by obtain ⟨f, h⟩ := wOne (o := Ftl.alloc (State.ftl { wWith 0 wLive with amp := { jobs := [wJob 0x0301 (layFields 0 64 [(0, 1, 9), (1, 1, 3), (4, 2, 32), (8, 1, 3), (0x0B, 1, 10), (0xC, 4, 16), (0x10, 4, 4096), (0x18, 8, 65536)])] } }) (.index 1) 4) (by decide +kernel); exact ⟨{ wWith 0 wLive with amp := { jobs := [wJob 0x0301 (layFields 0 64 [(0, 1, 9), (1, 1, 3), (4, 2, 32), (8, 1, 3), (0x0B, 1, 10), (0xC, 4, 16), (0x10, 4, 4096), (0x18, 8, 65536)])] } }, 0, wJob 0x0301 (layFields 0 64 [(0, 1, 9), (1, 1, 3), (4, 2, 32), (8, 1, 3), (0x0B, 1, 10), (0xC, 4, 16), (0x10, 4, 4096), (0x18, 8, 65536)]), { form := layFields 0 64 [(0, 1, 9), (1, 1, 3), (4, 2, 32), (8, 1, 3), (0x0B, 1, 10), (0xC, 4, 16), (0x10, 4, 4096), (0x18, 8, 65536)], born := 1 }, f, by unfold State.ampTurnOf; decide +kernel, by decide +kernel, rfl, h, by decide +kernel⟩,
    ⟨{ wLive with amp := { jobs := [wJob 0x0302 ([2])] }, index := { all := [(2, wIndex)], nextBorn := 2 } }, 0, wJob 0x0302 ([2]),
      wIndex, by unfold State.ampTurnOf; decide +kernel⟩,
    ⟨{ wLive with amp := { jobs := [wJob 0x0303 (layFields 0 64 [(0, 1, 2), (1, 1, 64), (4, 4, 1), (0x10, 4, 16)])] }, index := { all := [(2, wIndex)], nextBorn := 2 } }, 0, wJob 0x0303 (layFields 0 64 [(0, 1, 2), (1, 1, 64), (4, 4, 1), (0x10, 4, 16)]), wIndex, by unfold State.ampTurnOf; decide +kernel⟩,
    ⟨wIx ({ wIndex with training := some ⟨1, layFields 0 64 [(0, 1, 2), (1, 1, 64), (4, 4, 1), (0x10, 4, 16)]⟩ }) wLive, 2, [],
      { wIndex with training := some ⟨1, layFields 0 64 [(0, 1, 2), (1, 1, 64), (4, 4, 1), (0x10, 4, 16)]⟩ }, ⟨1, layFields 0 64 [(0, 1,
      2), (1, 1, 64), (4, 4, 1), (0x10, 4, 16)]⟩, _, ⟨by decide +kernel, by decide +kernel, rfl⟩⟩,
    ⟨{ wLive with amp := { jobs := [wJob 0x0304 ([2, 0])] }, index := { all := [(2, { wIndex with side := [{ seq := 1 }] })], nextBorn := 2 } }, 0, wJob 0x0304 ([2, 0]), { wIndex with side := [{ seq := 1 }] }, by unfold State.ampTurnOf; decide +kernel⟩,
    ⟨wIx ({ wIndex with fold := some {} }) wLive, 2, { wIndex with fold := some {} },
      { centroids := List.replicate 16 (List.replicate 64 0) }, {}, by decide +kernel⟩,
    ⟨{ wLive with amp := { jobs := [wJob 0x0305 (layFields 0 64 [(0, 4, 1), (4, 1, 2), (6, 1, 16), (8, 2, 7)])], objects := [(65543, { data := layFields 0 256 [(0x30, 2, 32), (0x32, 1, 3)] })] }, index := { all := [(2, wIndex)], nextBorn := 2 } }, 0, wJob 0x0305 (layFields 0 64 [(0, 4, 1), (4, 1, 2), (6, 1, 16), (8, 2, 7)]), { index := 2, model := 7, windowLog2 := 16 }, by unfold State.ampTurnOf; decide +kernel⟩,
    ⟨{ wLive with amp := { jobs := [wJob 0x0306 ([2])] }, index := { all := [(2, wIndex)], nextBorn := 2 } }, 0, wJob 0x0306 ([2]),
      wIndex, by unfold State.ampTurnOf; decide +kernel⟩,
    ⟨wWin, (wWin.windowDone.forget 0 (windowId 1 0)).modIndex (fun y => { y with ingested := y.ingested ++ [(0, windowId 1 0)] }),
      { nsid := 1, pos := 0 }, [], { index := 2 }, wIndex, { centroids := List.replicate 16 (List.replicate 64 0) },
      ((wWin).readSectors 1 0 1 []).1,
      ⟨by decide +kernel, by decide +kernel, by decide +kernel, by decide +kernel, by decide +kernel, by decide +kernel, by decide +kernel, rfl, by decide +kernel, rfl⟩⟩⟩

/-- Witness of PartitionAndPowerMessagesAct. -/
theorem witness_PartitionAndPowerMessagesAct :
    (∃ s : State, ∃ mb : Fin 3, ∃ j : AmpJob, ∃ x : Partition, s.ampTurnOf mb 0x0401 j ∧ fieldAt j.payload 0 1 ≤ 127
      ∧ bit (fieldAt j.payload 1 1) 0 = true ∧ s.part? (fieldAt j.payload 0 1) = some x)
    ∧ (∃ s : State, ∃ mb : Fin 3, ∃ j : AmpJob, ∃ x : Partition, s.ampTurnOf mb 0x0401 j ∧ fieldAt j.payload 0 1 ≤ 127
      ∧ bit (fieldAt j.payload 1 1) 0 = false ∧ bit (fieldAt j.payload 1 1) 1 = false ∧ psWeightsBad j.payload = false
      ∧ psWindowsBad j.payload = false ∧ fieldAt j.payload 8 16 ≠ 0 ∧ s.sched.parts = [] ∧ x = Partition.weights {} j.payload)
    ∧ (∃ s : State, ∃ mb : Fin 3, ∃ j : AmpJob, ∃ x : Partition, s.ampTurnOf mb 0x0402 j ∧ fieldAt j.payload 0 1 ≤ 127
      ∧ s.part? (fieldAt j.payload 0 1) = some x)
    ∧ (∃ s : State, ∃ mb : Fin 3, ∃ j : AmpJob, s.ampTurnOf mb 0x0501 j ∧ 5 < fieldAt j.payload 0 1 ∧ fieldAt j.payload 0 1 ≠ 0xFF)
    ∧ (∃ s : State, ∃ mb : Fin 3, ∃ j : AmpJob, s.ampTurnOf mb 0x0501 j ∧ fieldAt j.payload 0 1 = 5 ∧ s.mgmt.aux = false)
    ∧ (∃ s : State, ∃ mb : Fin 3, ∃ j : AmpJob, s.ampTurnOf mb 0x0501 j ∧ fieldAt j.payload 0 1 ≤ 1
      ∧ fieldAt j.payload 0 1 = s.power.ladder
      ∧ (s.modPower fun p => { p with target := fieldAt j.payload 0 1, woken := false }).effective = s.power.ladder)
    ∧ (∃ s : State, ∃ mb : Fin 3, ∃ j : AmpJob, s.ampTurnOf mb 0x0502 j)
    ∧ (∃ s : State, ∃ mb : Fin 3, ∃ j : AmpJob, s.ampTurnOf mb 0x0503 j) :=
  ⟨⟨{ wLive with amp := { jobs := [wJob 0x0401 ([127, 1])] }, sched := { parts := [(127, { mask := 1 })] } }, 0, wJob 0x0401 ([127, 1]),
    { mask := 1 }, by unfold State.ampTurnOf; decide +kernel⟩,
    ⟨wAmp 0x0401 (layFields 0 192 [(0, 1, 127), (8, 16, 1), (0x18, 4, 100), (0x25, 1, 1), (0x29, 1, 1), (0x2D, 1, 1), (0x31, 1, 1)]), 0,
      wJob 0x0401 (layFields 0 192 [(0, 1, 127), (8, 16, 1), (0x18, 4, 100), (0x25, 1, 1), (0x29, 1, 1), (0x2D, 1, 1), (0x31, 1, 1)]),
      Partition.weights {} (layFields 0 192 [(0, 1, 127), (8, 16, 1), (0x18, 4, 100), (0x25, 1, 1), (0x29, 1, 1), (0x2D, 1, 1), (0x31, 1,
      1)]), ⟨by unfold State.ampTurnOf; decide +kernel, by decide +kernel, by decide +kernel, by decide +kernel, by decide +kernel, by decide +kernel, by decide +kernel, by decide +kernel, rfl⟩⟩,
    ⟨{ wLive with amp := { jobs := [wJob 0x0402 ([127])] }, sched := { parts := [(127, { mask := 1 })] } }, 0, wJob 0x0402 ([127]),
      { mask := 1 }, by unfold State.ampTurnOf; decide +kernel⟩,
    ⟨wAmp 0x0501 ([6]), 0, wJob 0x0501 ([6]), by unfold State.ampTurnOf; decide +kernel⟩,
    ⟨{ wLive with amp := { jobs := [wJob 0x0501 ([5])] }, mgmt := { aux := false } }, 0, wJob 0x0501 ([5]),
      by unfold State.ampTurnOf; decide +kernel⟩,
    ⟨wAmp 0x0501 ([0]), 0, wJob 0x0501 ([0]), by unfold State.ampTurnOf; decide +kernel⟩,
    ⟨wAmp 0x0502 ([]), 0, wJob 0x0502 ([]), by unfold State.ampTurnOf; decide +kernel⟩,
    ⟨wAmp 0x0503 ([]), 0, wJob 0x0503 ([]), by unfold State.ampTurnOf; decide +kernel⟩⟩

/-- Witness of FaultMessagesAct. -/
theorem witness_FaultMessagesAct :
    (∃ s : State, ∃ mb : Fin 3, ∃ j : AmpJob, ∃ l : List LogEntry, s.ampTurnOf mb 0x0601 j ∧ 1 ≤ fieldAt j.payload 4 4
      ∧ fieldAt j.payload 4 4 ≤ 1023
      ∧ l = (s.faults.log.filter fun e => decide (fieldAt j.payload 0 4 ≤ e.fr.record)).take (fieldAt j.payload 4 4))
    ∧ (∃ s : State, ∃ mb : Fin 3, ∃ j : AmpJob, s.ampTurnOf mb 0x0602 j)
    ∧ (∃ s : State, ∃ mb : Fin 3, ∃ j : AmpJob, s.ampTurnOf mb 0x0603 j ∧ s.scrubSt (scrubOf j.payload) = St.ok ∧ s.amp.openOps < 16
      ∧ (s.faults.scrubs.any fun y => y.space == (scrubOf j.payload).space) = false)
    ∧ (∃ s : State, ∃ mb : Fin 3, ∃ j : AmpJob, s.ampTurnOf mb 0x0603 j ∧ s.scrubSt (scrubOf j.payload) = St.ok
      ∧ (s.faults.scrubs.any fun y => y.space == (scrubOf j.payload).space) = true)
    ∧ (∃ s : State, ∃ op, ∃ x : Scrub, s.faults.scrubs = [x] ∧ x.op = op ∧ x.space = 0 ∧ s.serving = true ∧ s.poison = [])
    ∧ (∃ s : State, ∃ mb : Fin 3, ∃ j : AmpJob, ∃ k, s.ampTurnOf mb 0x0604 j ∧ fieldAt j.payload 0 1 = 0
      ∧ place (fieldAt j.payload 8 8) = .hbm k ∧ s.dieLost k = false
      ∧ s.faults.hbmRepaired.contains (fieldAt j.payload 8 8 / 1024) = false)
    ∧ (∃ s : State, ∃ mb : Fin 3, ∃ j : AmpJob, ∃ g, ∃ b, ∃ o, s.ampTurnOf mb 0x0604 j ∧ fieldAt j.payload 0 1 = 1
      ∧ place (fieldAt j.payload 8 8) = .sp g b o ∧ b < 24 ∧ (s.cluster g).bank b = .off)
    ∧ (∃ s : State, ∃ mb : Fin 3, ∃ j : AmpJob, ∃ a, ∃ e : Nat, s.ampTurnOf mb 0x0604 j ∧ fieldAt j.payload 0 1 = 2
      ∧ a = fieldAt j.payload 8 8 ∧ a / 2 ^ 32 < 32 ∧ a % 2 ^ 32 % 2048 = 0 ∧ a % 2 ^ 32 < 2 ^ 30
      ∧ pgTarget (a % 2 ^ 32) < s.part.targets ∧ pgBlock (a % 2 ^ 32) < 3640 ∧ e = euOf (s.part.slotOf (a / 2 ^ 32) (a % 2 ^ 32))
      ∧ s.ftl.eu e ≠ .retired ∧ (∀ n, s.ftl.eu e ≠ .failed n)) :=
  ⟨⟨wAmp 0x0601 (leBytes 4 0 ++ leBytes 4 1023), 0, wJob 0x0601 (leBytes 4 0 ++ leBytes 4 1023), [],
    by unfold State.ampTurnOf; decide +kernel⟩,
    ⟨wAmp 0x0602 ([]), 0, wJob 0x0602 ([]), by unfold State.ampTurnOf; decide +kernel⟩,
    ⟨wAmp 0x0603 (List.replicate 24 0), 0, wJob 0x0603 (List.replicate 24 0), by unfold State.ampTurnOf; decide +kernel⟩,
    ⟨{ wLive with amp := { jobs := [wJob 0x0603 (List.replicate 24 0)] }, faults := { scrubs := [{}] } }, 0,
      wJob 0x0603 (List.replicate 24 0), by unfold State.ampTurnOf; decide +kernel⟩,
    ⟨{ wLive with faults := { scrubs := [{ op := 1 }] } }, 1, { op := 1 }, by decide +kernel⟩,
    ⟨wAmp 0x0604 (List.replicate 8 0 ++ leBytes 8 0xBFFFFFFF8), 0, wJob 0x0604 (List.replicate 8 0 ++ leBytes 8 0xBFFFFFFF8), 0,
      by unfold State.ampTurnOf; decide +kernel⟩,
    ⟨{ wCl { banks := [(23, .off)] } with amp := { jobs := [wJob 0x0604 ([1] ++ List.replicate 7 0 ++ leBytes 8 0x100007700000)] } }, 0,
      wJob 0x0604 ([1] ++ List.replicate 7 0 ++ leBytes 8 0x100007700000), 3, 23, 0, by unfold State.ampTurnOf; decide +kernel⟩,
    ⟨wAmp 0x0604 ([2] ++ List.replicate 15 0), 0, wJob 0x0604 ([2] ++ List.replicate 15 0), 0, euOf (wLive.part.slotOf 0 0),
      ⟨by unfold State.ampTurnOf; decide +kernel, by decide +kernel, by decide +kernel, by decide +kernel, by decide +kernel, by decide +kernel, by decide +kernel, by decide +kernel, rfl, by decide +kernel, fun n h => by rw [show (wAmp 0x0604 ([2] ++ List.replicate 15 0)).ftl.eu (euOf (wLive.part.slotOf 0 0)) = .free from by decide +kernel] at h; cases h⟩⟩⟩

/-- Witness of OwnerMessagesAct. -/
theorem witness_OwnerMessagesAct :
    (∃ s : State, ∃ mb : Fin 3, ∃ j : AmpJob, s.ampTurnOf mb 0x0102 j ∧ s.sec.owned = true ∧ s.sec.held ≠ 3
      ∧ fieldAt j.payload 4 4 ≤ (match s.sec.storedConfig with | some c => fieldAt c 4 4 | none => 0))
    ∧ (∃ s : State, ∃ mb : Fin 3, ∃ j : AmpJob, s.ampTurnOf mb 0x0102 j ∧ s.sec.owned = true ∧ s.sec.held = 0
      ∧ (match s.sec.storedConfig with | some c => fieldAt c 4 4 | none => 0) < fieldAt j.payload 4 4
      ∧ s.tiers.storeUsed ≤ cfgField (some j.payload) 0x20 8 2048 * 2 ^ 30)
    ∧ (∃ (s : State) (mb : Fin 3) (j : AmpJob) (lost : List Nat) (places : Tab (List (ℕ × ℕ) × List ℕ)) (u : State),
      s.ampTurnOf mb 0x0102 j ∧ s.sec.owned = true ∧ s.sec.held ≠ 0 ∧ s.sec.held ≠ 3
      ∧ (match s.sec.storedConfig with | some c => fieldAt c 4 4 | none => 0) < fieldAt j.payload 4 4
      ∧ s.tiers.storeUsed ≤ cfgField (some j.payload) 0x20 8 2048 * 2 ^ 30 ∧ s.sec.phase = .running
      ∧ (s.modSec fun x => { x with cfgA := .valid (fieldAt j.payload 4 4) j.payload, cfgB := .valid (fieldAt j.payload 4 4) j.payload, config := some j.payload, held := 0 }).openUp lost places = some u)
    ∧ (∃ s : State, ∃ mb : Fin 3, ∃ j : AmpJob, s.ampTurnOf mb 0x0701 j ∧ bit (fieldAt j.payload 0 1) 0 = true
      ∧ fieldAt j.payload 8 64 = 0 ∧ fieldAt j.payload 0x48 64 = 0)
    ∧ (∃ s : State, ∃ mb : Fin 3, ∃ j : AmpJob, s.ampTurnOf mb 0x0701 j ∧ bit (fieldAt j.payload 0 1) 0 = false ∧ s.sec.config = none
      ∧ fieldAt j.payload 0x48 64 = 0)
    ∧ (∃ s : State, s.rebootDue = true ∧ s.sec.phase ≠ .recovery ∧ (s.amp.jobs.any fun j => j.op == 0x0701) = false)
    ∧ (∃ s : State, ∃ mb : Fin 3, ∃ j : AmpJob, s.ampTurnOf mb 0x0702 j ∧ 1 ≤ fieldAt j.payload 0 4 ∧ fieldAt j.payload 0 4 ≤ 128
      ∧ Tab.has s.host.ns (fieldAt j.payload 0 4) = true ∧ s.ftl.map = [])
    ∧ (∃ s : State, ∃ mb : Fin 3, ∃ j : AmpJob, s.ampTurnOf mb 0x0703 j ∧ 1 ≤ fieldAt j.payload 0 4 ∧ fieldAt j.payload 0 4 ≤ 128
      ∧ Tab.has s.host.ns (fieldAt j.payload 0 4) = true)
    ∧ (∃ s : State, ∃ mb : Fin 3, ∃ j : AmpJob, ∃ block, s.ampTurnOf mb 0x0704 j ∧ sanitizeAction (fieldAt j.payload 0 1) = some block
      ∧ s.ftl.sanitizer = none ∧ s.amp.openOps < 16) :=
  ⟨⟨wAmp 0x0102 (List.replicate 256 0), 0, wJob 0x0102 (List.replicate 256 0), by unfold State.ampTurnOf; decide +kernel⟩,
    ⟨wAmp 0x0102 (layFields 0 256 [(4, 4, 1)]), 0, wJob 0x0102 (layFields 0 256 [(4, 4, 1)]), by unfold State.ampTurnOf; decide +kernel⟩,
    by obtain ⟨u, h⟩ := wOne (o := (State.modSec { wSec (fun x => { x with held := 1 }) with amp := { jobs := [wJob 0x0102 (layFields 0 256 [(4, 4, 1)])] } } fun x => { x with cfgA := .valid 1 (layFields 0 256 [(4, 4, 1)]), cfgB := .valid 1 (layFields 0 256 [(4, 4, 1)]), config := some (layFields 0 256 [(4, 4, 1)]), held := 0 }).openUp [] []) (by decide +kernel); exact ⟨{ wSec (fun x => { x with held := 1 }) with amp := { jobs := [wJob 0x0102 (layFields 0 256 [(4, 4, 1)])] } }, 0, wJob 0x0102 (layFields 0 256 [(4, 4, 1)]), [], [], u, by unfold State.ampTurnOf; decide +kernel, by decide +kernel, by decide +kernel, by decide +kernel, by decide +kernel, by decide +kernel, by decide +kernel, h⟩,
    ⟨wAmp 0x0701 ([1] ++ List.replicate 135 0), 0, wJob 0x0701 ([1] ++ List.replicate 135 0), by unfold State.ampTurnOf; decide +kernel⟩,
    ⟨wAmp 0x0701 (List.replicate 136 0), 0, wJob 0x0701 (List.replicate 136 0), by unfold State.ampTurnOf; decide +kernel⟩,
    ⟨wSec fun x => { x with rebootAt := some 1000000000000 }, by decide +kernel⟩,
    ⟨wAmp 0x0702 (leBytes 4 1), 0, wJob 0x0702 (leBytes 4 1), by unfold State.ampTurnOf; decide +kernel⟩,
    ⟨wAmp 0x0703 (leBytes 4 1), 0, wJob 0x0703 (leBytes 4 1), by unfold State.ampTurnOf; decide +kernel⟩,
    ⟨wAmp 0x0704 ([2]), 0, wJob 0x0704 ([2]), true, by unfold State.ampTurnOf; decide +kernel⟩⟩

/-- Witness of FirmwareIsStagedVerifiedCommitted. -/
theorem witness_FirmwareIsStagedVerifiedCommitted :
    (∃ s : State, ∃ mb : Fin 3, ∃ j : AmpJob, s.ampTurnOf mb 0x0801 j ∧ s.sec.verifyOp = none ∧ s.sec.commitOp = none
      ∧ fieldAt j.payload 0 4 = 0 ∧ (j.payload.drop 16).length ≤ fieldAt j.payload 4 4)
    ∧ (∃ s : State, ∃ mb : Fin 3, ∃ j : AmpJob, ∃ g : Staging, s.ampTurnOf mb 0x0801 j ∧ s.sec.verifyOp = none ∧ s.sec.commitOp = none
      ∧ s.sec.stage = some g ∧ fieldAt j.payload 0 4 ≠ 0 ∧ fieldAt j.payload 0 4 ≠ g.data.length)
    ∧ (∃ s : State, ∃ mb : Fin 3, ∃ j : AmpJob, s.ampTurnOf mb 0x0802 j ∧ s.sec.verifyOp = none ∧ s.sec.commitOp = none
      ∧ s.amp.openOps < 16)
    ∧ (∃ s : State, ∃ op, s.sec.verifyOp = some op ∧ s.mailOn = true)
    ∧ (∃ s : State, ∃ mb : Fin 3, ∃ j : AmpJob, ∃ g : Staging, s.ampTurnOf mb 0x0803 j ∧ s.sec.verifyOp = none ∧ s.sec.commitOp = none
      ∧ s.sec.stage = some g ∧ g.verified = false)
    ∧ (∃ s : State, ∃ mb : Fin 3, ∃ j : AmpJob, ∃ g : Staging, s.ampTurnOf mb 0x0803 j ∧ s.sec.verifyOp = none ∧ s.sec.commitOp = none
      ∧ s.sec.stage = some g ∧ g.verified = true ∧ s.amp.openOps < 16)
    ∧ (∃ s : State, ∃ op, ∃ g : Staging, s.sec.commitOp = some op ∧ s.sec.stage = some g ∧ s.mailOn = true)
    ∧ (∃ s : State, s.rebootDue = true ∧ s.sec.phase = .recovery) :=
  ⟨⟨wAmp 0x0801 (layFields 0 24 [(4, 4, 8)]), 0, wJob 0x0801 (layFields 0 24 [(4, 4, 8)]), by unfold State.ampTurnOf; decide +kernel⟩,
    ⟨{ wLive with amp := { jobs := [wJob 0x0801 (layFields 0 24 [(0, 4, 5), (4, 4, 16)])] }, sec := { wLive.sec with stage := some { size := 16, data := [1, 2, 3, 4], verified := false } } }, 0, wJob 0x0801 (layFields 0 24 [(0, 4, 5), (4, 4, 16)]), { size := 16, data := [1, 2, 3, 4], verified := false }, by unfold State.ampTurnOf; decide +kernel⟩,
    ⟨wAmp 0x0802 ([]), 0, wJob 0x0802 ([]), by unfold State.ampTurnOf; decide +kernel⟩,
    ⟨wSec fun x => { x with verifyOp := some 1 }, 1, by decide +kernel⟩,
    ⟨{ wLive with amp := { jobs := [wJob 0x0803 ([])] }, sec := { wLive.sec with stage := some { size := 16, data := [1, 2, 3, 4], verified := false } } }, 0, wJob 0x0803 ([]), { size := 16, data := [1, 2, 3, 4], verified := false }, by unfold State.ampTurnOf; decide +kernel⟩,
    ⟨{ wLive with amp := { jobs := [wJob 0x0803 ([])] }, sec := { wLive.sec with stage := some { size := 16, data := [1, 2, 3, 4], verified := true } } }, 0, wJob 0x0803 ([]), { size := 16, data := [1, 2, 3, 4], verified := true }, by unfold State.ampTurnOf; decide +kernel⟩,
    ⟨wSec fun x => { x with commitOp := some 1, stage := some { size := 16, data := [1, 2, 3, 4], verified := true } }, 1,
      { size := 16, data := [1, 2, 3, 4], verified := true }, by decide +kernel⟩,
    ⟨wSec fun x => { x with rebootAt := some 1000000000000, phase := .recovery }, by decide +kernel⟩⟩

/-- Witness of SelectionKeepsTheBestElements. -/
theorem witness_SelectionKeepsTheBestElements :
    ∃ k : Nat, ∃ keys : List (Option Nat), 0 < k ∧ (∀ x, some x ∈ keys → x < 2 ^ 32) :=
  ⟨4096, [some 4294967295, none, some 0], by decide, by intro x hx; simp at hx; omega⟩

/-- Witness of MergeIgnoresTheOrderOfArrival. -/
theorem witness_MergeIgnoresTheOrderOfArrival :
    ∃ m : Merge, ∃ l : List MergeEntry, ∃ l' : List MergeEntry, m.held = [] ∧ m.waiting = [] ∧ m.feedback = false ∧ l.length < m.cap
      ∧ l.Perm l' ∧ (∀ e ∈ l, e.poison = false ∧ e.query < m.queries ∧ e.span = 0) ∧ (∀ a ∈ l, ∀ b ∈ l, a.meets b = true →
      a.seq = b.seq → a.key = b.key → a = b) :=
  ⟨{ desc := layFields 0 32 [(2, 1, 1), (0x0C, 4, 4096)] }, [{ id := 1, key := 5, seq := 1 }, { id := 1, key := 9, seq := 2 }],
    [{ id := 1, key := 9, seq := 2 }, { id := 1, key := 5, seq := 1 }], by decide +kernel⟩

/-- Witness of SelectionUnitsRun. -/
theorem witness_SelectionUnitsRun :
    (∃ s : State, ∃ g : Fin 128, ∃ r : Fin 32, (s.cluster g).runs = true ∧ s.descCheck g ((s.cluster g).core.reg r) = none
      ∧ (s.selUnit (g / 8)).queue.length < 8 ∧ s.accessSt (.steward g) false ((s.cluster g).core.reg r) 64 = St.ok
      ∧ s.firstBad ((s.cluster g).core.reg r) 64 = none)
    ∧ (∃ s : State, ∃ g : Fin 128, ∃ r : Fin 32, (s.cluster g).runs = true ∧ s.descCheck g ((s.cluster g).core.reg r) = none
      ∧ 8 ≤ (s.selUnit (g / 8)).queue.length)
    ∧ (∃ s : State, ∃ u : Fin 16, (s.selUnit u).queue.length < 8)
    ∧ (∃ s : State, ∃ u : Fin 16, ∃ j : SelJob, ∃ l : List SelJob, (s.selUnit u).queue = j :: l ∧ (s.selUnit u).run = none
      ∧ (s.selUnit u).enable = true ∧ s.selCheck j (s.selUnit u).gather = St.ok)
    ∧ (∃ s : State, ∃ u : Fin 16, ∃ j : SelJob, ∃ l : List SelJob, (s.selUnit u).queue = j :: l ∧ (s.selUnit u).run = none
      ∧ (s.selUnit u).enable = true ∧ s.selCheck j (s.selUnit u).gather ≠ St.ok)
    ∧ (∃ s : State, ∃ u : Fin 16, ∃ j : SelJob, ∃ t : State, ∃ keys : List (Option Nat), ∃ r : Selected, (s.selUnit u).run = some j
      ∧ t = (s.modUnit u fun x => { x with run := none }) ∧ keys = t.selKeys j.desc ∧ r = selOf j.desc keys)
    ∧ (∃ s : State, ∃ v : State, ∃ j : SelJob, ∃ r : Selected, selVsrc j.desc = 0 ∧ j.gather = false
      ∧ (∀ p ∈ (selRanges j.gather j.desc).1, s.accessSt j.requester false p.1 p.2 = St.ok)
      ∧ s.writeRange j.requester false (selResAddr j.desc + 64) (s.selEntries j r.picks) = (St.ok, v))
    ∧ (∃ s : State, ∃ d : Bytes, s.mergeCheck d = none)
    ∧ (∃ s : State, ∃ d : Bytes, ∃ st, s.mergeCheck d = some st)
    ∧ (∃ s : State, ∃ i, ∃ b : Bytes, ∃ m : Merge, Tab.find s.sel.merges i = some m ∧ entryReserved b = false ∧ m.through = false)
    ∧ (∃ s : State, ∃ i, ∃ b : Bytes, ∃ m : Merge, Tab.find s.sel.merges i = some m ∧ entryReserved b = false ∧ m.through = true)
    ∧ (∃ s : State, ∃ ch : Fin 32, ∃ i, ∃ r : Bytes, ∃ bad, ∃ rest : List (ℕ × Bytes × Bool), ∃ m : Merge, ∃ x : Merge × MergeTally,
      (s.pipe ch).sent = (i, r, bad) :: rest ∧ (s.pipe ch).readable ≠ 0 ∧ Tab.find s.sel.merges i = some m ∧ m.through = false
      ∧ m.fromChannel (s.entryOfCandidate m r bad) = some x)
    ∧ (∃ s : State, ∃ i, ∃ m : Merge, Tab.find s.sel.merges i = some m ∧ s.scanOf i = none ∧ s.queryOf i = none ∧ s.mergeEnded i m = true
      ∧ m.through = false)
    ∧ (∃ s : State, ∃ i, ∃ m : Merge, Tab.find s.sel.merges i = some m ∧ s.scanOf i = none ∧ s.queryOf i = none
      ∧ s.mergeEnded i m = false) :=
  ⟨⟨wRun {} (wA 0) 0, 3, 1, by decide +kernel⟩,
    ⟨{ wRun {} (wA 0) 0 with sel := { units := [(0, { queue := List.replicate 8 { desc := wSel, g := 3 } })] } }, 3, 1,
      by decide +kernel⟩,
    ⟨wLive, 0, by decide +kernel⟩,
    ⟨wUnit { enable := true, queue := [{ desc := wSel, g := 3 }] }, 0, { desc := wSel, g := 3 }, [], by decide +kernel⟩,
    ⟨wUnit { enable := true, queue := [{ desc := [], g := 3 }] }, 0, { desc := [], g := 3 }, [], by decide +kernel⟩,
    ⟨wUnit { run := some { desc := wSel, g := 3 } }, 0, { desc := wSel, g := 3 },
      State.modUnit (wUnit { run := some { desc := wSel, g := 3 } }) 0 fun x => { x with run := none },
      State.selKeys (State.modUnit (wUnit { run := some { desc := wSel, g := 3 } }) 0 fun x => { x with run := none }) wSel,
      selOf wSel (State.selKeys (State.modUnit (wUnit { run := some { desc := wSel, g := 3 } }) 0 fun x => { x with run := none }) wSel),
      ⟨by decide +kernel, rfl, rfl, rfl⟩⟩,
    ⟨wUnit {}, (State.writeRange (wUnit {}) (SelJob.requester { desc := wSel, g := 3 }) false 0x100006010040 (State.selEntries (wUnit {}) { desc := wSel, g := 3 } [(0, 7)])).2, { desc := wSel, g := 3 }, { picks := [(0, 7)] }, ⟨by decide +kernel, by decide +kernel, by decide +kernel, Prod.ext (by decide +kernel) rfl⟩⟩,
    ⟨wLive, layFields 0 32 [(0, 2, 4095), (2, 1, 64), (4, 2, 4096), (0x0C, 4, 4096)], by decide +kernel⟩,
    ⟨wLive, layFields 0 32 [(0, 2, 4096)], St.unsupported, by decide +kernel⟩,
    ⟨wMerge { desc := layFields 0 32 [(0, 2, 4095), (2, 1, 64), (4, 2, 4096), (0x0C, 4, 4096)] }, 9, List.replicate 32 0,
      { desc := layFields 0 32 [(0, 2, 4095), (2, 1, 64), (4, 2, 4096), (0x0C, 4, 4096)] }, by decide +kernel⟩,
    ⟨wMerge { desc := layFields 0 32 [(3, 1, 1)] }, 9, [], { desc := layFields 0 32 [(3, 1, 1)] }, by decide +kernel⟩,
    by obtain ⟨u, h⟩ := wOne (o := Merge.fromChannel { desc := layFields 0 32 [(0, 2, 4095), (2, 1, 64), (4, 2, 4096), (0x0C, 4, 4096)] } (State.entryOfCandidate ({ wMerge { desc := layFields 0 32 [(0, 2, 4095), (2, 1, 64), (4, 2, 4096), (0x0C, 4, 4096)] } with pipes := { chans := [(4, { sent := [(9, List.replicate 16 0, false)], readable := 1 })] } }) { desc := layFields 0 32 [(0, 2, 4095), (2, 1, 64), (4, 2, 4096), (0x0C, 4, 4096)] } (List.replicate 16 0) false)) (by decide +kernel); exact ⟨{ wMerge { desc := layFields 0 32 [(0, 2, 4095), (2, 1, 64), (4, 2, 4096), (0x0C, 4, 4096)] } with pipes := { chans := [(4, { sent := [(9, List.replicate 16 0, false)], readable := 1 })] } }, 4, 9, List.replicate 16 0, false, [], { desc := layFields 0 32 [(0, 2, 4095), (2, 1, 64), (4, 2, 4096), (0x0C, 4, 4096)] }, u, by decide +kernel, by decide +kernel, by decide +kernel, by decide +kernel, h⟩,
    ⟨wMerge { desc := layFields 0 32 [(0, 2, 4095), (2, 1, 64), (4, 2, 4096), (0x0C, 4, 4096)] }, 9,
      { desc := layFields 0 32 [(0, 2, 4095), (2, 1, 64), (4, 2, 4096), (0x0C, 4, 4096)] }, by decide +kernel⟩,
    ⟨wMerge { desc := layFields 0 32 [(6, 2, 1)] }, 9, { desc := layFields 0 32 [(6, 2, 1)] }, by decide +kernel⟩⟩

/-- Witness of XlzInstructionsRun. -/
theorem witness_XlzInstructionsRun :
    (∃ s : State, ∃ g : Fin 128, ∃ a : Fin 32, ∃ w : Fin 32, (s.cluster g).runs = true ∧ (s.cluster g).async = none
      ∧ (let c := s.cluster g; let v := c.core.reg w; loadChecks s c (c.core.reg a) v = none
      ∧ (c.gangAt (c.lead (bits v 0 2))).queue.length < 8))
    ∧ (∃ s : State, ∃ g : Fin 128, ∃ a : Fin 32, ∃ w : Fin 32, ∃ st : Nat, (s.cluster g).runs = true ∧ (s.cluster g).async = none
      ∧ loadChecks s (s.cluster g) ((s.cluster g).core.reg a) ((s.cluster g).core.reg w) = some st)
    ∧ (∃ s : State, ∃ g : Fin 128, ∃ f7 : Fin 128, (s.cluster g).runs = true ∧ f7 ≠ 0)
    ∧ (∃ s : State, ∃ g : Fin 128, ∃ f7 : Fin 128, ∃ rd : Fin 32, ∃ a : Fin 32, ∃ b : Fin 32, ∃ w, (s.cluster g).runs = true
      ∧ f7 = Fin.ofNat 128 (bits w 25 7) ∧ rd = wordReg w 7 ∧ a = wordReg w 15 ∧ b = wordReg w 20)
    ∧ (∃ s : State, ∃ g : Fin 128, ∃ a : Fin 32, ∃ w : Fin 32, (s.cluster g).runs = true ∧ (s.cluster g).async = none
      ∧ (let c := s.cluster g; let v := c.core.reg w; streamChecks c (c.core.reg a) v = none
      ∧ (c.gangAt (c.lead (bits v 26 2))).queue.length < 8))
    ∧ (∃ s : State, ∃ g : Fin 128, ∃ a : Fin 32, ∃ w : Fin 32, (s.cluster g).runs = true ∧ (s.cluster g).async = none
      ∧ (let c := s.cluster g; let v := c.core.reg w; drainChecks c (c.core.reg a) v = none
      ∧ (c.gangAt (c.lead (bits v 22 2))).queue.length < 8))
    ∧ (∃ s : State, ∃ g : Fin 128, ∃ a : Fin 32, (s.cluster g).runs = true ∧ (s.cluster g).async = none
      ∧ cfgChecks s ((s.cluster g).core.reg a) = none ∧ (s.cluster g).mxuBusy = false)
    ∧ (∃ s : State, ∃ g : Fin 128, ∃ a : Fin 32, (s.cluster g).runs = true ∧ (s.cluster g).async = none
      ∧ cfgChecks s ((s.cluster g).core.reg a) = none ∧ (s.cluster g).mxuBusy = true)
    ∧ (∃ s : State, ∃ g : Fin 128, (s.cluster g).runs = true ∧ (s.cluster g).async = none)
    ∧ (∃ s : State, ∃ g : Fin 128, ∃ u : Fin 4, u.val < (s.cluster g).gangs)
    ∧ (∃ s : State, ∃ g : Fin 128, ∃ u : Fin 4, ∃ k : Nat, ∃ addr, ∃ fmt, ∃ col, ∃ buf, ∃ al, u.val < (s.cluster g).gangs
      ∧ ((s.cluster g).gangAt ((s.cluster g).lead u)).active[k]? = some ⟨.load addr fmt col, buf, al⟩)
    ∧ (∃ s : State, ∃ g : Fin 128, ∃ u : Fin 4, ∃ addr, ∃ stride, ∃ afmt, ∃ swap, ∃ acc, ∃ row, ∃ n, ∃ buf, ∃ al,
      u.val < (s.cluster g).gangs
      ∧ ((s.cluster g).gangAt ((s.cluster g).lead u)).active[0]? = some ⟨.stream addr stride afmt swap acc row n, buf, al⟩)
    ∧ (∃ s : State, ∃ g : Fin 128, ∃ u : Fin 4, ∃ addr, ∃ stride, ∃ rs, ∃ cl, ∃ row, ∃ n, ∃ buf, ∃ al, u.val < (s.cluster g).gangs
      ∧ ((s.cluster g).gangAt ((s.cluster g).lead u)).active[0]? = some ⟨.drain addr stride rs cl row n, buf, al⟩)
    ∧ (∃ s : State, ∃ g : Fin 128, ∃ r : Fin 32, (s.cluster g).runs = true ∧ slotChecks s g ((s.cluster g).core.reg r) true = none)
    ∧ (∃ s : State, ∃ g : Fin 128, ∃ r : Fin 32, (s.cluster g).runs = true ∧ slotChecks s g ((s.cluster g).core.reg r) false = none)
    ∧ (∃ s : State, ∃ g : Fin 128, ∃ r : Fin 32, ∃ st : Nat, (s.cluster g).runs = true
      ∧ slotChecks s g ((s.cluster g).core.reg r) true = some st)
    ∧ (∃ s : State, ∃ g : Fin 128, ∃ r : Fin 32, (s.cluster g).runs = true ∧ s.descCheck g ((s.cluster g).core.reg r) = none
      ∧ (s.cluster g).mvQueued < 16 ∧ s.accessSt (.mover g) false ((s.cluster g).core.reg r) 64 = St.ok
      ∧ s.firstBad ((s.cluster g).core.reg r) 64 = none)
    ∧ (∃ s : State, ∃ g : Fin 128, ∃ r : Fin 32, (s.cluster g).runs = true ∧ s.descCheck g ((s.cluster g).core.reg r) = none
      ∧ 16 ≤ (s.cluster g).mvQueued) :=
  ⟨⟨wRun {} 0x17FFC00 0x83, 3, 1, 2, by decide +kernel⟩,
    ⟨wRun {} 0x1800000 0, 3, 1, 2, St.addrUnmapped, by decide +kernel⟩,
    ⟨wRun {} 0 0, 3, 127, by decide +kernel⟩,
    ⟨wRun {} 0 0, 3, Fin.ofNat 128 (bits 0xFFFFFFFF 25 7), wordReg 0xFFFFFFFF 7, wordReg 0xFFFFFFFF 15, wordReg 0xFFFFFFFF 20,
      0xFFFFFFFF, ⟨by decide +kernel, rfl, rfl, rfl, rfl⟩⟩,
    ⟨wRun { g0 := { view0 := some 0 } } 0 (32 * 2 ^ 32), 3, 1, 2, by decide +kernel⟩,
    ⟨wRun {} 0 (128 * 2 ^ 32), 3, 1, 2, by decide +kernel⟩,
    ⟨wRun {} 0x80 0, 3, 1, by decide +kernel⟩,
    ⟨wRun { g0 := { queue := [.load 0 0 false] } } 0x80 0, 3, 1, by decide +kernel⟩,
    ⟨wRun {} 0 0, 3, by decide +kernel⟩,
    ⟨wRun {} 0 0, 3, 3, by decide +kernel⟩,
    ⟨wGang { active := [⟨.load 0 0 false, true, true⟩] }, 3, 0, 0, 0, 0, false, true, true, by decide +kernel⟩,
    ⟨wGang { active := [⟨.stream 0 32 0 false false 0 1, false, true⟩] }, 3, 0, 0, 32, 0, false, false, 0, 1, false, true,
      by decide +kernel⟩,
    ⟨wGang { active := [⟨.drain 0 128 false false 0 1, false, true⟩] }, 3, 0, 0, 128, false, false, 0, 1, false, true, by decide +kernel⟩,
    ⟨wRun {} 0x3FFF 0, 3, 1, by decide +kernel⟩,
    ⟨wRun {} 0x3FFF 1, 3, 1, by decide +kernel⟩,
    ⟨wRun {} 0x80000 0, 3, 1, St.idRange, by decide +kernel⟩,
    ⟨wRun {} (wA 0) 0, 3, 1, by decide +kernel⟩,
    ⟨wRun { movers := List.replicate 16 { desc := [] } } (wA 0) 0, 3, 1, by decide +kernel⟩⟩

/-- Witness of ChainsRunToTheirSlot. -/
theorem witness_ChainsRunToTheirSlot :
    (∃ s : State, ∃ g : Fin 128, ∃ r : Fin 32, ∃ w : Fin 32, (s.cluster g).runs = true ∧ (s.cluster g).async = none
      ∧ (let a := (s.cluster g).core.reg r; let v := (s.cluster g).core.reg w;
      let d := s.bytesAt a (32 + 32 * min (fieldAt (s.bytesAt a 32) 0 1) 8); s.descCheck g a = none ∧ slotChecks s g v true = none
      ∧ s.accessSt (.steward g) false a d.length = St.ok ∧ s.accessSt (.steward g) false a 32 = St.ok ∧ s.firstBad a 32 = none
      ∧ s.used.firstBad a d.length = none ∧ chainCheck s.used.used g d ≠ St.ok))
    ∧ (∃ s : State, ∃ g : Fin 128, ∃ r : Fin 32, ∃ w : Fin 32, (s.cluster g).runs = true ∧ (s.cluster g).async = none
      ∧ (let a := (s.cluster g).core.reg r; let v := (s.cluster g).core.reg w;
      let d := s.bytesAt a (32 + 32 * min (fieldAt (s.bytesAt a 32) 0 1) 8); s.descCheck g a = none ∧ slotChecks s g v true = none
      ∧ s.accessSt (.steward g) false a d.length = St.ok ∧ s.accessSt (.steward g) false a 32 = St.ok ∧ s.firstBad a 32 = none
      ∧ s.used.firstBad a d.length = none ∧ chainCheck s.used.used g d = St.ok ∧ staticsOk d (s.used.used.chainStatics g d) = true
      ∧ ((s.cluster g).gangAt ((s.cluster g).lead (chUnit d))).queue.length < 8))
    ∧ (∃ s : State, ∃ t : State, ∃ g : Fin 128, ∃ u : Fin 4, ∃ k : Chain, ∃ k' : Chain, (s.cluster g).chainAt u = some k ∧ k.ran = true
      ∧ t = s.chainAdvance g u k ∧ (t.cluster g).chainAt u = some k' ∧ k'.parts = [])
    ∧ (∃ s : State, ∃ t : State, ∃ v : State, ∃ g : Fin 128, ∃ u : Fin 4, ∃ k : Chain, ∃ k' : Chain, ∃ b : ChainSend,
      ∃ l : List ChainPart, ∃ p : List ChainPart, (s.cluster g).chainAt u = some k ∧ k.ran = true ∧ t = s.chainAdvance g u k
      ∧ (t.cluster g).chainAt u = some k' ∧ k'.parts = .send b :: l ∧ b.span = none
      ∧ t.chainWrite g k'.tainted (b.rows.map fun r => .store (spAddr b.cluster r.1) r.2) = (St.ok, p, v))
    ∧ (∃ s : State, ∃ v : State, ∃ g, ∃ k : Chain, ∃ l : List ChainPart, s.chainWrite g k.tainted k.parts = (St.ok, l, v))
    ∧ (∃ s : State, ∃ v : State, ∃ g : Nat, ∃ taint : Bool, ∃ a, ∃ b : Bytes,
      s.used.writeRange (.mover (Fin.ofNat 128 g)) false a (s.chainBytes taint b) = (St.ok, v)) :=
  ⟨⟨wRun {} 0x100006030000 0x3000, 3, 1, 2, by decide +kernel⟩,
    ⟨wGo, 3, 1, 2, by decide +kernel⟩,
    ⟨wGang { active := [⟨.chain { desc := wChain, slot := 4095, ran := true }, false, true⟩] },
      State.chainAdvance (wGang { active := [⟨.chain { desc := wChain, slot := 4095, ran := true }, false, true⟩] }) 3 0 { desc := wChain, slot := 4095, ran := true }, 3, 0, { desc := wChain, slot := 4095, ran := true }, { desc := wChain, slot := 4095, ran := true }, ⟨by decide +kernel, by decide +kernel, rfl, by decide +kernel, by decide +kernel⟩⟩,
    ⟨wGang { active := [⟨.chain { desc := wChain, ran := true, parts := [.send { cluster := 3, rows := [(0, List.replicate 64 1)], slot := 7, count := 1 }] }, false, true⟩] }, State.chainAdvance (wGang { active := [⟨.chain { desc := wChain, ran := true, parts := [.send { cluster := 3, rows := [(0, List.replicate 64 1)], slot := 7, count := 1 }] }, false, true⟩] }) 3 0 { desc := wChain, ran := true, parts := [.send { cluster := 3, rows := [(0, List.replicate 64 1)], slot := 7, count := 1 }] }, (State.chainWrite (State.chainAdvance (wGang { active := [⟨.chain { desc := wChain, ran := true, parts := [.send { cluster := 3, rows := [(0, List.replicate 64 1)], slot := 7, count := 1 }] }, false, true⟩] }) 3 0 { desc := wChain, ran := true, parts := [.send { cluster := 3, rows := [(0, List.replicate 64 1)], slot := 7, count := 1 }] }) 3 false [.store (spAddr 3 0) (List.replicate 64 1)]).2.2, 3, 0, { desc := wChain, ran := true, parts := [.send { cluster := 3, rows := [(0, List.replicate 64 1)], slot := 7, count := 1 }] }, { desc := wChain, ran := true, parts := [.send { cluster := 3, rows := [(0, List.replicate 64 1)], slot := 7, count := 1 }] }, { cluster := 3, rows := [(0, List.replicate 64 1)], slot := 7, count := 1 }, [], (State.chainWrite (State.chainAdvance (wGang { active := [⟨.chain { desc := wChain, ran := true, parts := [.send { cluster := 3, rows := [(0, List.replicate 64 1)], slot := 7, count := 1 }] }, false, true⟩] }) 3 0 { desc := wChain, ran := true, parts := [.send { cluster := 3, rows := [(0, List.replicate 64 1)], slot := 7, count := 1 }] }) 3 false [.store (spAddr 3 0) (List.replicate 64 1)]).2.1, ⟨by decide +kernel, by decide +kernel, rfl, by decide +kernel, rfl, rfl, Prod.ext (by decide +kernel) rfl⟩⟩,
    ⟨wRun {} 0 0,
      (State.chainWrite (wRun {} 0 0) 3 false (Chain.parts { desc := wChain, ran := true, parts := [.store 0x100006000000 (List.replicate 64 1)] })).2.2, 3, { desc := wChain, ran := true, parts := [.store 0x100006000000 (List.replicate 64 1)] }, (State.chainWrite (wRun {} 0 0) 3 false (Chain.parts { desc := wChain, ran := true, parts := [.store 0x100006000000 (List.replicate 64 1)] })).2.1, Prod.ext (by decide +kernel) rfl⟩,
    ⟨wRun {} 0 0, (State.writeRange (State.used (wRun {} 0 0)) (.mover 3) false 0x100006000000 (List.replicate 64 1)).2, 3, false,
      0x100006000000, List.replicate 64 1, Prod.ext (by decide +kernel) rfl⟩⟩

/-- Witness of ProgramsStepEmitAndEnd. -/
theorem witness_ProgramsStepEmitAndEnd :
    (∃ s : State, ∃ g : Fin 128, (s.cluster g).runs = true)
    ∧ (∃ s : State, ∃ g : Fin 128, (s.cluster g).runs = true)
    ∧ (∃ s : State, ∃ g : Fin 128, ∃ n : Nat, (s.cluster g).runs = true ∧ csrAllowed (s.cluster g).core.mode n true = true)
    ∧ (∃ s : State, ∃ g : Fin 128, ∃ n : Nat, ∃ w : Bool, (s.cluster g).runs = true ∧ csrAllowed (s.cluster g).core.mode n w = false)
    ∧ (∃ s : State, ∃ g : Fin 128, ∃ a : Nat, ∃ n : Nat, ∃ d : LoadDest, (s.cluster g).runs = true ∧ misaligned (d == .fetch) (a,
      n) = false ∧ d ≠ .fetch ∧ s.accessSt (.steward g) false a n = St.ok ∧ s.firstBad a n = none)
    ∧ (∃ s : State, ∃ g : Fin 128, ∃ a : Nat, ∃ n : Nat, ∃ d : LoadDest, (s.cluster g).runs = true ∧ misaligned (d == .fetch) (a,
      n) = true ∧ d ≠ .fetch)
    ∧ (∃ s : State, ∃ g : Fin 128, ∃ a : Nat, ∃ b : Bytes, (s.cluster g).runs = true ∧ misaligned false (a, b.length) = false ∧ a % 8 = 0
      ∧ b.length % 8 = 0 ∧ s.accessSt (.steward g) true a b.length = St.ok)
    ∧ (∃ s : State, ∃ g : Fin 128, ∃ a : Nat, ∃ b : Bytes, (s.cluster g).runs = true ∧ misaligned false (a, b.length) = false
      ∧ (s.cluster g).reserves g a b.length = false)
    ∧ (∃ s : State, ∃ g : Fin 128, ∃ p, ∃ x : Partition, ∃ t : Task, s.sched.partOf g = some (p, x) ∧ x.run = some t
      ∧ (s.cluster g).runs = true ∧ g.val ∉ t.ended)
    ∧ (∃ s : State, ∃ g : Fin 128, ∃ a : Nat, ∃ n : Nat, (s.cluster g).runs = true ∧ (s.taskOf g).isSome = true
      ∧ s.accessSt (.steward g) false a n = St.ok ∧ s.firstBad a n = none)
    ∧ (∃ s : State, ∃ g : Fin 128, ∃ p, ∃ x : Partition, ∃ t : Task, s.sched.partOf g = some (p, x) ∧ x.run = some t
      ∧ (s.cluster g).runs = true ∧ g.val ∉ t.ended)
    ∧ (∃ s : State, ∃ g : Fin 128, ∃ code, ∃ p, ∃ x : Partition, ∃ t : Task, s.sched.partOf g = some (p, x) ∧ x.run = some t
      ∧ (s.cluster g).runs = true ∧ g.val ∉ t.ended ∧ code ≠ St.ok)
    ∧ (∃ s : State, ∃ p : Fin 128, ∃ x : Partition, ∃ k, s.part? p = some x ∧ x.run.isSome = true ∧ x.switch = none
      ∧ x.quantumFrom + x.quantum ≤ s.hdCount ∧ ({ x.charge s.hdCount with quantumFrom := s.hdCount } : Partition).choose = some k
      ∧ k ≠ x.runQueue)
    ∧ (∃ s : State, ∃ p : Fin 128, ∃ x : Partition, ∃ t : Task, ∃ w : Switch, s.part? p = some x ∧ x.run = some t ∧ x.switch = some w
      ∧ t.saveAreas = [] ∧ s.fits 3 (s.saveBytes (s.clustersOf x.mask) t.wsMask).sum = false)
    ∧ (∃ s : State, ∃ u : State, ∃ p : Fin 128, ∃ x : Partition, ∃ t : Task, ∃ w : Switch, ∃ gs : List Nat, ∃ total, ∃ saves : Tab Save,
      s.part? p = some x ∧ x.run = some t ∧ x.switch = some w ∧ t.saveAreas ≠ [] ∧ gs = s.clustersOf x.mask
      ∧ total = (s.saveBytes gs t.wsMask).sum ∧ saves = gs.map (fun g => (g, s.saveCluster g t.wsMask))
      ∧ u = forClusters (fun g s => s.modCl g Cluster.vacate) gs (writeAreas t.tag t.stepNo saves t.saveAreas s)) :=
  ⟨⟨wRun {} 0 0, 3, by decide +kernel⟩,
    ⟨wRun {} 0 0, 3, by decide +kernel⟩,
    ⟨wRun {} 0 0, 3, 0x342, by decide +kernel⟩,
    ⟨wRun { core := { mode := .user } } 0 0, 3, 0x342, false, by decide +kernel⟩,
    ⟨wRun {} 0 0, 3, wA 0x17FFFF8, 8, .x 5 false, by decide +kernel⟩,
    ⟨wRun {} 0 0, 3, wA 4, 8, .x 5 false, by decide +kernel⟩,
    ⟨wRun {} 0 0, 3, wA 0x17FFFF8, List.replicate 8 1, by decide +kernel⟩,
    ⟨wRun {} 0 0, 3, wA 0, List.replicate 8 1, by decide +kernel⟩,
    ⟨wRun {} 0 0, 3, 0, { mask := 8, run := some { program := 3 } }, { program := 3 }, by decide +kernel⟩,
    ⟨wRun {} 0 0, 3, wA 0, 64, by decide +kernel⟩,
    ⟨wRun {} 0 0, 3, 0, { mask := 8, run := some { program := 3 } }, { program := 3 }, by decide +kernel⟩,
    ⟨wRun {} 0 0, 3, 1, 0, { mask := 8, run := some { program := 3 } }, { program := 3 }, by decide +kernel⟩,
    ⟨{ wLive with sched := { parts := [(127, wQuantum)] } }, 127, wQuantum, 0, by decide +kernel⟩,
    ⟨{ wLive with sched := { parts := [(127, { mask := 8, run := some { wsMask := 1 }, switch := some ⟨0⟩ })] }, tiers := { poolUsed := [(3, 12884901888)] } }, 127, { mask := 8, run := some { wsMask := 1 }, switch := some ⟨0⟩ }, { wsMask := 1 }, ⟨0⟩, by decide +kernel⟩,
    ⟨{ wLive with sched := { parts := [(127, { mask := 8, run := some { saveAreas := [0] }, switch := some ⟨0⟩ })] } }, _, 127,
      { mask := 8, run := some { saveAreas := [0] }, switch := some ⟨0⟩ }, { saveAreas := [0] }, ⟨0⟩, [3],
      (State.saveBytes ({ wLive with sched := { parts := [(127, { mask := 8, run := some { saveAreas := [0] }, switch := some ⟨0⟩ })] } }) [3] 0).sum, [(3, State.saveCluster ({ wLive with sched := { parts := [(127, { mask := 8, run := some { saveAreas := [0] }, switch := some ⟨0⟩ })] } }) 3 0)], ⟨by decide +kernel, by decide +kernel, by decide +kernel, by decide +kernel, by decide +kernel, rfl, rfl, rfl⟩⟩⟩

/-- Witness of TenantClearLeavesNothing. -/
theorem witness_TenantClearLeavesNothing :
    (∃ s : State, ∃ g : Fin 128, (s.cluster g).halted = true ∧ (s.cluster g).mxuBusy = false ∧ (s.cluster g).mvQueued = 0)
    ∧ (∃ s : State, ∃ g : Fin 128, (s.cluster g).clearing = true ∧ s.sched.partOf g = none) :=
  ⟨⟨wCl { halted := true }, 3, by decide +kernel⟩,
    ⟨wCl { clearing := true }, 3, by decide +kernel⟩⟩

/-- Witness of ClusterControlActs. -/
theorem witness_ClusterControlActs :
    (∃ s : State, ∃ g : Fin 128, ((s.cluster g).enable = false ∨ (s.cluster g).halted = true))
    ∧ (∃ s : State, ∃ g : Fin 128, (s.cluster g).halted = true)
    ∧ (∃ s : State, ∃ g : Fin 128, (s.cluster g).halted = true)
    ∧ (∃ s : State, ∃ g : Fin 128, ∃ b : Fin 24, (s.cluster g).bank b = .on)
    ∧ (∃ s : State, ∃ g : Fin 128, ∃ b : Fin 24, (s.cluster g).bank b ≠ .on)
    ∧ (∃ s : State, ∃ g : Fin 128, ∃ b : Fin 24, ∃ r : Fin 16, (s.cluster g).reloads.contains (b.val * 16 + r.val) = true)
    ∧ (∃ s : State, ∃ g, s.taskOf g = none)
    ∧ (∃ s : State, ∃ g, ∃ k, ∃ a, Tab.get 0 (s.cluster g).copies k = a ∧ bit a 63 = false ∧ s.accessSt .keeper false a 65536 = St.ok
      ∧ s.firstBad a 65536 = none)
    ∧ (∃ s : State, ∃ g : Fin 128, ∃ m : RemoteSlot, ∃ n : Nat, (s.cluster g).remote = some m ∧ m.give = some n
      ∧ (s.cluster m.dest).slotFull m.slot = false)
    ∧ (∃ s : State, ∃ g : Fin 128, ∃ m : RemoteSlot, ∃ n : Nat, (s.cluster g).remote = some m ∧ m.give = some n
      ∧ (s.cluster m.dest).slotFull m.slot = true)
    ∧ (∃ s : State, ∃ g : Fin 128, ∃ i : Nat, (s.cluster g).waiting = some (.slotRead i) ∧ (s.cluster g).slotFull i = false) :=
  ⟨⟨wCl { enable := true, halted := true }, 3, by decide +kernel⟩,
    ⟨wCl { halted := true }, 3, by decide +kernel⟩,
    ⟨wCl { halted := true }, 3, by decide +kernel⟩,
    ⟨wLive, 127, 23, by decide +kernel⟩,
    ⟨wCl { banks := [(23, .upping)] }, 3, 23, by decide +kernel⟩,
    ⟨wCl { reloads := [383] }, 3, 23, 15, by decide +kernel⟩,
    ⟨wLive, 3, by decide +kernel⟩,
    ⟨wLive, 3, 0, 0, by decide +kernel⟩,
    ⟨wCl { remote := some ⟨5, 4095, some 255⟩ }, 3, ⟨5, 4095, some 255⟩, 255, by decide +kernel⟩,
    ⟨{ wLive with cl := [(3, { remote := some ⟨5, 4095, some 255⟩ }), (5, { slots := [(4095, 256)] })] }, 3, ⟨5, 4095, some 255⟩, 255,
      by decide +kernel⟩,
    ⟨wCl { waiting := some (.slotRead 4095) }, 3, 4095, by decide +kernel⟩⟩

/-- Witness of BanksArePoweredAndRetired. -/
theorem witness_BanksArePoweredAndRetired :
    (∃ s : State, ∃ g : Fin 128, ∃ b : Fin 32, b.val < 24 ∧ (s.cluster g).pwrBusy = false ∧ (s.cluster g).clearing = false
      ∧ s.bankTime = true ∧ (s.cluster g).bankResident b = false ∧ (s.cluster g).bank b = .on)
    ∧ (∃ s : State, ∃ g : Fin 128, ∃ b : Fin 32, b.val < 24 ∧ (s.cluster g).pwrBusy = false ∧ (s.cluster g).clearing = false
      ∧ (s.cluster g).bankResident b = true)
    ∧ (∃ s : State, ∃ g : Fin 128, ∃ b : Nat, (s.cluster g).bankIn .downWait = some b ∧ s.inbound g b = false
      ∧ s.count (dieOfCluster g) ≤ (s.cluster g).pwrSince + 10)
    ∧ (∃ s : State, ∃ g : Fin 128, ∃ b : Nat, (s.cluster g).bankIn .downWait = some b
      ∧ (s.cluster g).pwrSince + 10 ≤ s.count (dieOfCluster g))
    ∧ (∃ s : State, ∃ g : Fin 128, ∃ b : Nat, (s.cluster g).bankIn .downForce = some b)
    ∧ (∃ s : State, ∃ g : Fin 128, ∃ b : Fin 32, b.val < 24 ∧ (s.cluster g).pwrBusy = false ∧ (s.cluster g).clearing = false
      ∧ (s.cluster g).bank b = .off)
    ∧ (∃ s : State, ∃ g : Fin 128, ∃ b, (s.cluster g).bankIn .upping = some b)
    ∧ (∃ s : State, ∃ g : Fin 128, ∃ b : Fin 32, b.val < 24 ∧ (s.cluster g).bank b = .off)
    ∧ (∃ s : State, ∃ g : Fin 128, ∃ b : Fin 32, b.val < 24 ∧ (s.cluster g).bank b ≠ .off ∧ (s.cluster g).bank b ≠ .retired) :=
  ⟨⟨wCl {}, 3, 23, by decide +kernel⟩,
    ⟨wCl { resident := [(23, 1)] }, 3, 23, by decide +kernel⟩,
    ⟨wCl { pwrBusy := true, banks := [(23, .downWait)], pwrSince := 999999999990 }, 3, 23, by decide +kernel⟩,
    ⟨wCl { pwrBusy := true, banks := [(23, .downWait)], pwrSince := 999999999990 }, 3, 23, by decide +kernel⟩,
    ⟨wCl { pwrBusy := true, banks := [(23, .downForce)] }, 3, 23, by decide +kernel⟩,
    ⟨wCl { banks := [(23, .off)] }, 3, 23, by decide +kernel⟩,
    ⟨wCl { pwrBusy := true, banks := [(23, .upping)] }, 3, 23, by decide +kernel⟩,
    ⟨wCl { banks := [(23, .off)] }, 3, 23, by decide +kernel⟩,
    ⟨wCl {}, 3, 23, by decide +kernel⟩⟩

/-- Witness of MoversMoveWhatTheyAreGiven. -/
theorem witness_MoversMoveWhatTheyAreGiven :
    (∃ s : State, ∃ g : Fin 128, ∃ op : Nat, ∃ k : Nat, ∃ j : MvJob, (s.cluster g).mvEnable = true ∧ (s.cluster g).mvActive < 4
      ∧ s.mvNext op [] (s.cluster g).movers 0 = some (k, j) ∧ j.doomed = none ∧ s.mvCheck g j = St.ok)
    ∧ (∃ s : State, ∃ u : State, ∃ g : Fin 128, ∃ op : Nat, ∃ k : Nat, ∃ j : MvJob, (s.cluster g).mvEnable = true
      ∧ (s.cluster g).mvActive < 4 ∧ s.mvNext op [] (s.cluster g).movers 0 = some (k, j) ∧ j.doomed = none ∧ s.mvCheck g j ≠ St.ok
      ∧ u = s.modJob g k (fun x => { x with started := true, doomed := some (s.mvCheck g j) }))
    ∧ (∃ s : State, ∃ u : State, ∃ g : Fin 128, ∃ k : Nat, ∃ j : MvJob, ∃ addrs : List Nat, ∃ o : MvOut,
      (s.cluster g).movers[k]? = some j ∧ j.started = true ∧ j.waitTile = none ∧ s.mvRun g j addrs = some (o, u))
    ∧ (∃ s : State, ∃ g : Fin 128, ∃ k : Nat, ∃ j : MvJob, (s.cluster g).movers[k]? = some j ∧ j.started = true ∧ j.waitTile = none
      ∧ j.doomed = none ∧ mvOp j.desc = 0 ∧ s.accessSt (j.requester g) false (mvSrc j.desc) (mvCount j.desc) = St.ok
      ∧ s.firstBad (mvSrc j.desc) (mvCount j.desc) = none ∧ mvCount j.desc ≠ 0
      ∧ s.accessSt (j.requester g) true (mvDst j.desc) (mvCount j.desc) = St.ok)
    ∧ (∃ s : State, ∃ g : Fin 128, ∃ k : Nat, ∃ j : MvJob, ∃ st : Nat, (s.cluster g).movers[k]? = some j ∧ j.started = true
      ∧ j.doomed = some st)
    ∧ (∃ s : State, ∃ g : Fin 128, ∃ v, (s.cluster g).mvQueued < 16 ∧ s.accessSt .keeper false (64 * bits v 6 42) 64 = St.ok
      ∧ s.firstBad (64 * bits v 6 42) 64 = none)
    ∧ (∃ s : State, ∃ g : Fin 128, 16 ≤ (s.cluster g).mvQueued)
    ∧ (∃ s : State, ∃ places : List Nat, ∃ r : Nat, ∃ u : State, s.oldestTensor = some r ∧ s.tensorFull = true
      ∧ demoteTiles r (s.demotedTiles r) places s = some u)
    ∧ (∃ s : State, ∃ r : Nat, ∃ i : Nat, ∃ p, (s.loc r i).copy = false ∧ s.t2Free (16 * p) (s.loc r i).len = true)
    ∧ (∃ s : State, ∃ g : Fin 128, ∃ k : Nat, ∃ j : MvJob, ∃ i : Nat, ∃ r : Nat, ∃ a : Nat, (s.cluster g).movers[k]? = some j
      ∧ j.waitTile = some i ∧ mvRecord j.desc = some r ∧ j.doomed = none ∧ s.freeRange a (s.loc r i).len = true
      ∧ s.fits (s.recPool r) (s.loc r i).len = true)
    ∧ (∃ s : State, ∃ g : Fin 128, ∃ k : Nat, ∃ j : MvJob, ∃ i : Nat, ∃ r : Nat, (s.cluster g).movers[k]? = some j ∧ j.waitTile = some i
      ∧ mvRecord j.desc = some r ∧ j.doomed = none) :=
  ⟨⟨wRun { mvEnable := true, movers := [{ desc := wLin }] } 0 0, 3, 0, 0, { desc := wLin }, by decide +kernel⟩,
    ⟨{ wRun { mvEnable := true, movers := [{ desc := wLin }] } 0 0 with sched := {} },
      State.modJob ({ wRun { mvEnable := true, movers := [{ desc := wLin }] } 0 0 with sched := {} }) 3 0 (fun x => { x with started := true, doomed := some (State.mvCheck ({ wRun { mvEnable := true, movers := [{ desc := wLin }] } 0 0 with sched := {} }) 3 { desc := wLin }) }), 3, 0, 0, { desc := wLin }, ⟨by decide +kernel, by decide +kernel, by decide +kernel, by decide +kernel, by decide +kernel, rfl⟩⟩,
    by obtain ⟨u, h⟩ := wOne (o := State.mvRun (wRun { movers := [{ desc := wLin, started := true }] } 0 0) 3 { desc := wLin, started := true } []) (by decide +kernel); exact ⟨wRun { movers := [{ desc := wLin, started := true }] } 0 0, u.2, 3, 0, { desc := wLin, started := true }, [], u.1, by decide +kernel, by decide +kernel, by decide +kernel, h⟩,
    ⟨wRun { movers := [{ desc := wLin, started := true }] } 0 0, 3, 0, { desc := wLin, started := true }, by decide +kernel⟩,
    ⟨wRun { movers := [{ desc := wLin, started := true, doomed := some St.stopped }] } 0 0, 3, 0,
      { desc := wLin, started := true, doomed := some St.stopped }, St.stopped, by decide +kernel⟩,
    ⟨wRun { movers := List.replicate 15 { desc := [] } } 0 0, 3, 0, by decide +kernel⟩,
    ⟨wRun { movers := List.replicate 16 { desc := [] } } 0 0, 3, by decide +kernel⟩,
    by obtain ⟨u, h⟩ := wOne (o := demoteTiles 4096 [0] [0] wTen) (by decide +kernel); exact ⟨wTen, [0], 4096, u, by decide +kernel, by decide +kernel, h⟩,
    ⟨wTen, 4096, 0, 0, by decide +kernel⟩,
    ⟨{ wTen with cl := [(3, { movers := [{ desc := layFields 0 64 [(0, 1, 1), (4, 4, 1), (8, 8, 4096)], started := true, waitTile := some 0 }] })], tiers := {} }, 3, 0, { desc := layFields 0 64 [(0, 1, 1), (4, 4, 1), (8, 8, 4096)], started := true, waitTile := some 0 }, 0, 4096, 65536, by decide +kernel⟩,
    ⟨{ wTen with cl := [(3, { movers := [{ desc := layFields 0 64 [(0, 1, 1), (4, 4, 1), (8, 8, 4096)], started := true, waitTile := some 0 }] })] }, 3, 0, { desc := layFields 0 64 [(0, 1, 1), (4, 4, 1), (8, 8, 4096)], started := true, waitTile := some 0 }, 0, 4096, by decide +kernel⟩⟩

/-- Witness of UpdateJobsRun. -/
theorem witness_UpdateJobsRun :
    (∃ s : State, ∃ g : Fin 128, ∃ a : Nat, (s.cluster g).runs = true ∧ s.mayReach (.steward g) a 64 = true ∧ (stackOf a).isSome = true
      ∧ s.updCheck g (s.bytesAt a 64) ((s.object 3 (uf (s.bytesAt a 64) 0 2)).map (·.data)) = none)
    ∧ (∃ s : State, ∃ g : Fin 128, ∃ a : Nat, ∃ st : Nat, (s.cluster g).runs = true ∧ s.mayReach (.steward g) a 64 = true
      ∧ (stackOf a).isSome = true ∧ s.updCheck g (s.bytesAt a 64) ((s.object 3 (uf (s.bytesAt a 64) 0 2)).map (·.data)) = some st)
    ∧ (∃ s : State, ∃ g : Fin 128, ∃ a : Nat, (s.cluster g).runs = true ∧ s.mayReach (.steward g) a 64 = false)
    ∧ (∃ s : State, ∃ id : Nat, ∃ us : List (Fin 8), ∃ j : UJob, (s.upd.jobs.find? fun j => j.id == id) = some j ∧ j.units = []
      ∧ us.length = uf j.desc 2 1 ∧ us.dedup.length = us.length
      ∧ ((us.map fun u => j.stack * 8 + u.val).all fun n => (Tab.get {} s.upd.units n).job.isNone) = true ∧ s.upd.mustWait j = false)
    ∧ (∃ s : State, ∃ id : Nat, ∃ j : UJob, (s.upd.jobs.find? fun j => j.id == id) = some j ∧ s.upd.mustWait j = true)
    ∧ (∃ s : State, ∃ u : Fin 16, ∃ o : UpdOut, ∃ j : UJob, s.upd.jobOf u = some j ∧ j.mode = 0
      ∧ (Tab.get {} s.upd.units u).running = true ∧ (Tab.get {} s.upd.units u).first ≤ o.block
      ∧ o.block < (Tab.get {} s.upd.units u).first + (Tab.get {} s.upd.units u).count ∧ o.block ∉ (Tab.get {} s.upd.units u).committed)
    ∧ (∃ s : State, ∃ u : Fin 16, ∃ o : UpdOut, o.block ∈ (Tab.get {} s.upd.units u).committed)
    ∧ (∃ s : State, ∃ u : Fin 16, ∃ j : UJob, (Tab.get {} s.upd.units u).running = true ∧ s.upd.jobOf u = some j)
    ∧ (∃ n : Nat, ∃ lda : Nat, (n = 0 ∨ 4096 < n ∨ lda < n)) :=
  ⟨⟨wUpd 64, 3, 0x8000, by decide +kernel⟩,
    ⟨wUpd 0, 3, 0x8000, St.unsupported, by decide +kernel⟩,
    ⟨wUpd 64, 4, 0x8000, by decide +kernel⟩,
    ⟨wJobs [] [{ id := 2, desc := wUpdDesc 64, writes := [(0x1000, 128)] }], 2, [7],
      { id := 2, desc := wUpdDesc 64, writes := [(0x1000, 128)] }, by decide +kernel⟩,
    ⟨wJobs [] [{ id := 1, desc := wUpdDesc 64, writes := [(0x1040, 64)] }, { id := 2, desc := wUpdDesc 64, writes := [(0x1000, 128)] }],
      2, { id := 2, desc := wUpdDesc 64, writes := [(0x1000, 128)] }, by decide +kernel⟩,
    ⟨wJobs [(15,
      { job := some 2, running := true, first := 4, count := 2, committed := [4] })] [{ id := 2, desc := wUpdDesc 64, writes := [(0x1000, 128)] }], 15, { block := 5 }, { id := 2, desc := wUpdDesc 64, writes := [(0x1000, 128)] }, by decide +kernel⟩,
    ⟨wJobs [(15,
      { job := some 2, running := true, first := 4, count := 2, committed := [4] })] [{ id := 2, desc := wUpdDesc 64, writes := [(0x1000, 128)] }], 15, { block := 4 }, by decide +kernel⟩,
    ⟨wJobs [(15,
      { job := some 2, running := true, first := 4, count := 2, committed := [4] })] [{ id := 2, desc := wUpdDesc 64, writes := [(0x1000, 128)] }], 15, { id := 2, desc := wUpdDesc 64, writes := [(0x1000, 128)] }, by decide +kernel⟩,
    ⟨0, 0, by decide +kernel⟩⟩

/-- Witness of MediaRequestsRun. -/
theorem witness_MediaRequestsRun :
    (∃ s : State, ∃ ch : Fin 32, ∃ ring : Fin 2, ∃ r : Bytes, s.alive = true ∧ s.nextRequest ch ring = some r ∧ rqOp r = 0
      ∧ (let u := s.dropRequest ch ring; u.mediaCheck ch ring r = none ∧ (u.chan ch).isLost r = false))
    ∧ (∃ s : State, ∃ ch : Fin 32, ∃ ring : Fin 2, ∃ r : Bytes, ∃ st : Nat, s.alive = true ∧ s.nextRequest ch ring = some r ∧ rqOp r = 0
      ∧ (s.dropRequest ch ring).mediaCheck ch ring r = some st)
    ∧ (∃ s : State, ∃ u : State, ∃ ch : Fin 32, ∃ r : Bytes, ∃ st : Nat, s.alive = true ∧ s.nextRequest ch 0 = some r
      ∧ (s.dropRequest ch 0).mediaCheck ch 0 r = some st ∧ u = mediaRefuse ch 0 r st (s.dropRequest ch 0))
    ∧ (∀ k ∈ [1, 2, 3, 4, 5, 6, 7, 8], let r := wReq k 0; let s := wRing0 r; let u := s.dropRequest 4 0; s.alive = true
      ∧ s.nextRequest 4 0 = some r ∧ u.mediaCheck 4 0 r = none ∧ (u.chan 4).isLost r = false ∧ u.media.flush = false ∧ rqOp r = k)
    ∧ (∃ s : State, ∃ ch : Fin 32, ∃ op : Nat, ∃ r : MediaRes, ∃ o : MOp, s.alive = true ∧ Tab.find (s.chan ch).ops op = some o
      ∧ o.running = true ∧ rqOp o.req = 2 ∧ r.result = 0)
    ∧ (∃ s : State, ∃ ch : Fin 32, ∃ op : Nat, ∃ r : MediaRes, ∃ o : MOp, s.alive = true ∧ Tab.find (s.chan ch).ops op = some o
      ∧ o.running = true ∧ rqOp o.req = 3 ∧ r.result = 0)
    ∧ (∃ s : State, ∃ ch : Fin 32, ∃ op : Nat, ∃ r : MediaRes, ∃ o : MOp, s.alive = true ∧ Tab.find (s.chan ch).ops op = some o
      ∧ o.running = true ∧ rqOp o.req = 3 ∧ r.result ≠ 0)
    ∧ (∃ s : State, ∃ ch : Fin 32, ∃ op : Nat, ∃ o : MOp, s.alive = true ∧ Tab.find (s.chan ch).ops op = some o ∧ o.running = true
      ∧ rqOp o.req = 0) :=
  ⟨⟨wChan { ring1 := [wReq 0 9] }, 4, 1, wReq 0 9, by decide +kernel⟩,
    ⟨wChan { ring1 := [wReq 0 0] }, 4, 1, wReq 0 0, St.unsupported, by decide +kernel⟩,
    ⟨wRing0 (wReq 2 1), mediaRefuse 4 0 (wReq 2 1) St.reservedField ((wRing0 (wReq 2 1)).dropRequest 4 0), 4, wReq 2 1, St.reservedField,
      ⟨by decide +kernel, by decide +kernel, by decide +kernel, rfl⟩⟩,
    by decide +kernel,
    ⟨wChan { ops := [(6, wMOp 2)] }, 4, 6, {}, wMOp 2, by decide +kernel⟩,
    ⟨wChan { ops := [(6, wMOp 3)] }, 4, 6, {}, wMOp 3, by decide +kernel⟩,
    ⟨wChan { ops := [(6, wMOp 3)] }, 4, 6, { result := 1 }, wMOp 3, by decide +kernel⟩,
    ⟨wChan { ops := [(6, wMOp 0)] }, 4, 6, wMOp 0, by decide +kernel⟩⟩

/-- Witness of MediaRomIsControlled. -/
theorem witness_MediaRomIsControlled :
    (∃ head : Nat, ∃ tail : Nat, ∃ n : Nat, head < 256 ∧ tail < 256 ∧ n ≤ (head + 255 - tail) % 256)
    ∧ (∃ head : Nat, ∃ tail : Nat, ∃ n : Nat, head < 256 ∧ tail < 256 ∧ (head + 255 - tail) % 256 < n ∧ n < 256)
    ∧ (∃ s : State, s.alive = true)
    ∧ (∃ s : State, ∃ ch : Fin 32, s.alive = true ∧ (s.chan ch).ready = false)
    ∧ (∃ s : State, ∃ ch : Fin 32, ∃ t : Fin 32, s.alive = true ∧ (s.chan ch).ready = false ∧ t.val < s.part.targets
      ∧ bit (s.chan ch).lost t = false)
    ∧ (∃ s : State, ∃ ch : Fin 32, ∃ op : Nat, ∃ o : MOp, s.alive = true ∧ Tab.find (s.chan ch).ops op = some o ∧ o.running = true)
    ∧ (∃ s : State, ∃ ch : Fin 32, ∃ t : Fin 32, s.alive = true
      ∧ (let die := (s.chan ch).ops.filter fun x => pgTarget (rqPage x.2.req) == t.val;
      let writes := die.filter fun x => rqWrites x.2.req && x.2.running; writes ≠ []
      ∧ (die.any fun x => rqReads x.2.req && !x.2.running && !(die.any fun y => y.2.programsGroup x.2.req)) = true
      ∧ (writes.all fun x => x.2.suspendable s.hdCount) = true)) :=
  ⟨⟨0, 255, 0, by decide +kernel⟩,
    ⟨5, 4, 1, by decide +kernel⟩,
    ⟨wLive, by decide +kernel⟩,
    ⟨wLive, 4, by decide +kernel⟩,
    ⟨wLive, 31, 0, by decide +kernel⟩,
    ⟨wChan { ops := [(6, wMOp 2)] }, 4, 6, wMOp 2, by decide +kernel⟩,
    ⟨wChan { ops := [(6, wMOp 3), (7, { req := wReq 0 1 })] }, 4, 0, by decide +kernel⟩⟩

/-- Witness of FaultRecordsAreKept. -/
theorem witness_FaultRecordsAreKept :
    (∃ s : State, ∃ d : Die, ∃ k : Fin 256, ∃ x : RingSlot, s.ringSlot d k = some x ∧ x.fr.closed = false
      ∧ x.fr.lastCount + 101 ≤ s.count d)
    ∧ (∃ s : State, ∃ d : Die, ∃ k : Fin 256, ∃ x : RingSlot, s.ringSlot d k = some x ∧ s.count d < x.fr.lastCount + 101)
    ∧ (∃ s : State, ∃ d : Die, ∃ k : Fin 256, ∃ x : RingSlot, s.ringSlot d k = some x ∧ x.fr.closed = false
      ∧ x.fr.firstCount + 1000000 ≤ s.count d)
    ∧ (∃ s : State, ∃ d : Die, ∃ k : Fin 256, ∃ x : RingSlot, s.ringSlot d k = some x ∧ x.fr.closed = true)
    ∧ (∃ s : State, ∃ d : Die, ∃ k : Fin 256, ∃ x : RingSlot, s.ringSlot d k = some x ∧ x.taken = false ∧ s.alive = true)
    ∧ (∃ s : State, ∃ d : Die, ∃ k : Fin 256, ∃ x : RingSlot, s.ringSlot d k = some x ∧ x.taken = true ∧ x.fr.closed = true
      ∧ x.finished = false ∧ s.alive = true)
    ∧ (∃ s : State, s.alive = true) :=
  ⟨⟨wSlot { fr := { lastCount := 999999999899 } }, .hd, 9, { fr := { lastCount := 999999999899 } }, by decide +kernel⟩,
    ⟨wSlot { fr := { lastCount := 999999999900 } }, .hd, 9, { fr := { lastCount := 999999999900 } }, by decide +kernel⟩,
    ⟨wSlot { fr := { firstCount := 999999000000, lastCount := 1000000000000 } }, .hd, 9,
      { fr := { firstCount := 999999000000, lastCount := 1000000000000 } }, by decide +kernel⟩,
    ⟨wSlot { fr := { closed := true } }, .hd, 9, { fr := { closed := true } }, by decide +kernel⟩,
    ⟨wSlot {}, .hd, 9, {}, by decide +kernel⟩,
    ⟨wSlot { taken := true, number := 3, fr := { record := 3, closed := true } }, .hd, 9,
      { taken := true, number := 3, fr := { record := 3, closed := true } }, by decide +kernel⟩,
    ⟨wLive, by decide +kernel⟩⟩

/-- Witness of SpanPortsAndPeersComeUp. -/
theorem witness_SpanPortsAndPeersComeUp :
    (∃ s : State, ∃ p : Fin 2, (s.span.port p).enable = true ∧ (s.span.port p).link ≠ .up ∧ s.isHeld = false ∧ s.alive = true
      ∧ s.power.ladder ≤ 1 ∧ s.faults.lost.contains (.port p) = false)
    ∧ (∃ s : State, s.isHeld = true)
    ∧ (∃ s : State, ∃ p : Fin 2, (s.span.port p).link = .up)
    ∧ (∃ s : State, ∃ p : Fin 2, (s.span.port p).enable = true)
    ∧ (∃ s : State, ∃ p : Fin 2, (s.span.port p).enable = false ∧ s.isHeld = false)
    ∧ (∃ s : State, ∃ b : Bytes, s.span.permits (fieldAt b 2 1) = false)
    ∧ (∃ s : State, ∃ port : Fin 2, ∃ b : Bytes, (let n := fieldAt b 2 1; (s.span.port port).link = .up ∧ 32 ≤ b.length
      ∧ s.span.permits n = true ∧ ((s.peer n).path port).keyed = true ∧ fieldAt b 0 1 = 1))
    ∧ (∃ s : State, ∃ port : Fin 2, ∃ n : Nat, ∃ d : Nat, ((s.peer n).path port).since.isSome = true ∧ s.span.permits n = true
      ∧ Tab.find s.span.permitted n ≠ some d)
    ∧ (∃ s : State, ∃ n : Fin 256, ∃ port : Fin 2, ∃ t : Nat, ((s.peer n).path port).since = some t ∧ t + 100000 ≤ s.hdCount)
    ∧ (∃ s : State, ∃ n : Fin 256, (s.peer n).state = .faulty ∧ (s.peer n).since + 1000000 ≤ s.hdCount ∧ s.span.permits n = true)
    ∧ (∃ s : State, ∃ n : Fin 256, (s.peer n).state = .refused ∧ (s.peer n).since + 60000000 ≤ s.hdCount ∧ s.span.permits n = true)
    ∧ (∃ s : State, ∃ mb : Fin 3, ∃ j : AmpJob, s.ampTurnOf mb 0x0902 j)
    ∧ (∃ s : State, ∃ mb : Fin 3, ∃ j : AmpJob, s.ampTurnOf mb 0x0901 j ∧ spanConfigBad j.payload = true)
    ∧ (∃ s : State, ∃ mb : Fin 3, ∃ j : AmpJob, s.ampTurnOf mb 0x0901 j ∧ spanConfigBad j.payload = false ∧ (s.span.port 0).link ≠ .up
      ∧ (s.span.port 1).link ≠ .up)
    ∧ (∃ s : State, ∃ mb : Fin 3, ∃ j : AmpJob, s.ampTurnOf mb 0x0903 j ∧ (peerEntries j.payload).length ≤ 255
      ∧ ((peerEntries j.payload).map (·.1)).dedup.length = ((peerEntries j.payload).map (·.1)).length
      ∧ ((peerEntries j.payload).map (·.1)).contains s.span.number = false)
    ∧ (∃ s : State, ∃ mb : Fin 3, ∃ j : AmpJob, s.ampTurnOf mb 0x0903 j ∧ 255 < (peerEntries j.payload).length) :=
  ⟨⟨wSpan { enable := true, link := .training } {}, 1, by decide +kernel⟩,
    ⟨wSec (fun x => { x with held := 2 }), by decide +kernel⟩,
    ⟨wSpan { link := .up } {}, 1, by decide +kernel⟩,
    ⟨wSpan { enable := true } {}, 1, by decide +kernel⟩,
    ⟨wLive, 1, by decide +kernel⟩,
    ⟨wSpan {} {}, layFields 0 32 [(2, 1, 8)], by decide +kernel⟩,
    ⟨wSpan { link := .up } { p1 := { keyed := true } }, 1, wFrame 0 0, by decide +kernel⟩,
    ⟨wSpan { link := .up } { p1 := { since := some 4 } }, 1, 7, 2, by decide +kernel⟩,
    ⟨wSpan {} { p1 := { since := some 999999900000 } }, 7, 1, 999999900000, by decide +kernel⟩,
    ⟨wSpan {} { state := .faulty, since := 999999000000 }, 7, by decide +kernel⟩,
    ⟨wSpan {} { state := .refused, since := 999940000000 }, 7, by decide +kernel⟩,
    ⟨wAmp 0x0902 ([]), 0, wJob 0x0902 ([]), by unfold State.ampTurnOf; decide +kernel⟩,
    ⟨wAmp 0x0901 (layFields 0 416 [(2, 1, 2)]), 0, wJob 0x0901 (layFields 0 416 [(2, 1, 2)]), by unfold State.ampTurnOf; decide +kernel⟩,
    ⟨wAmp 0x0901 (layFields 0 416 []), 0, wJob 0x0901 (layFields 0 416 []), by unfold State.ampTurnOf; decide +kernel⟩,
    ⟨wAmp 0x0903 (layFields 0 40 [(0, 4, 1), (4, 1, 255), (8, 32, 77)]), 0, wJob 0x0903 (layFields 0 40 [(0, 4, 1), (4, 1, 255), (8, 32,
      77)]), by unfold State.ampTurnOf; decide +kernel⟩,
    ⟨wAmp 0x0903 (layFields 0 40 [(0, 4, 256)]), 0, wJob 0x0903 (layFields 0 40 [(0, 4, 256)]),
      by unfold State.ampTurnOf; decide +kernel⟩⟩

/-- Witness of SpanFramesAndTimersAct. -/
theorem witness_SpanFramesAndTimersAct :
    (∀ t ∈ [0, 1, 2], ∀ q ∈ [5, 6], ∀ k ∈ [6, 7], let s := wPeer k; let b := wFrame t q;
      let u := s.modSpan fun x => { x with out := [] }; let v := u.modPort 1 fun x => { x with rx := satAdd (2 ^ 64 - 1) x.rx 1 };
      (s.span.port 1).link = .up ∧ u.frameOk 7 1 b = true ∧ fieldAt b 1 1 = t
      ∧ (((v.takeAck 7 1 b).peer 7).unacked.find? (fun f => f.seq == fieldAt b 8 4 && f.sent)).map (·.naks) = if q = 5 then some k else none)
    ∧ (∃ s : State, ∃ port : Fin 2, (s.span.port port).link = .up)
    ∧ (∃ s : State, ∃ n : Fin 256, ∃ seq : Nat, ∃ f : SFrame, (s.peer n).unacked.find? (fun f => f.seq == seq && f.sent) = some f
      ∧ (s.peer n).live = true ∧ (s.peer n).hasPath = true ∧ f.sentAt + s.span.rto ≤ s.hdCount)
    ∧ (∃ s : State, ∃ n : Fin 256, ∃ t : Nat, (s.peer n).gapSince = some t ∧ (s.peer n).live = true ∧ (s.peer n).hasPath = true
      ∧ (s.peer n).nakDone = false ∧ 2 * t + s.span.rto ≤ 2 * s.hdCount)
    ∧ (∃ s : State, ∃ n : Fin 256, (s.peer n).state = .ready ∧ (s.peer n).unacked.any (·.sent) = true
      ∧ (s.peer n).advanced + s.span.slowUs ≤ s.hdCount ∧ s.hdCount < (s.peer n).heard + s.span.absentUs)
    ∧ (∃ s : State, ∃ n : Fin 256, (s.peer n).live = true ∧ (s.peer n).heard + s.span.absentUs ≤ s.hdCount)
    ∧ (∃ s : State, ∃ n : Fin 256, (s.peer n).live = true ∧ (s.peer n).keyAt + 86400000000 ≤ s.hdCount)
    ∧ (∃ s : State, ∃ n : Fin 256, (s.peer n).oldKey = true ∧ (s.peer n).keyAt + 1000 ≤ s.hdCount)
    ∧ (∃ s : State, ∃ g : Fin 128, ∃ n : Fin 256, ∃ count : Nat, ∃ dst : Nat, ∃ slot : Nat, ∃ k : Nat, (s.cluster g).runs = true
      ∧ s.cap 8 = true ∧ 1 ≤ count ∧ count ≤ 512 ∧ slot < 4096 ∧ s.mayReach (.steward g) dst (4096 * count + 8) = true
      ∧ place dst = .hbm k ∧ (s.peer n).live = true)
    ∧ (∃ s : State, ∃ g : Fin 128, ∃ count : Nat, ∃ slot : Nat, (s.cluster g).runs = true
      ∧ (s.cap 8 = false ∨ count = 0 ∨ 512 < count ∨ 4096 ≤ slot)) :=
  ⟨by decide +kernel,
    ⟨wPeer 0, 1, by decide +kernel⟩,
    ⟨wPeer 0, 7, 5, { seq := 5, cls := 0, msg := 0, sent := true }, by decide +kernel⟩,
    ⟨wSpan { link := .up } { state := .ready, gapSince := some 4, p0 := { up := true } }, 7, 4, by decide +kernel⟩,
    ⟨wSpan {} { state := .ready, heard := 10 ^ 12, unacked := [{ seq := 5, cls := 0, msg := 0, sent := true }] }, 7, by decide +kernel⟩,
    ⟨wSpan {} { state := .slow }, 7, by decide +kernel⟩,
    ⟨wSpan {} { state := .slow }, 7, by decide +kernel⟩,
    ⟨wSpan {} { oldKey := true, keyAt := 10 ^ 12 - 1000 }, 7, by decide +kernel⟩,
    ⟨{ wUpd 64 with span := (wPeer 0).span }, 3, 7, 1, 4096, 4095, 0, by decide +kernel⟩,
    ⟨wRun {} 0 0, 3, 513, 4095, by decide +kernel⟩⟩

/-- Witness of InputHoldsFlushesAndResets. -/
theorem witness_InputHoldsFlushesAndResets :
    (∃ s : State, ∃ v : Nat, s.alive = true ∧ v < 3600 ∧ 3300 ≤ v ∧ s.power.holdWarn = false ∧ s.power.ladder ≠ 5)
    ∧ (∃ s : State, ∃ v : Nat, s.alive = true ∧ v < 3600 ∧ 3300 ≤ v ∧ s.power.ladder = 5)
    ∧ (∃ s : State, ∃ v : Nat, s.alive = true ∧ s.power.holdWarn = true ∧ 3700 ≤ v)
    ∧ (∃ v : Nat, v < 3300)
    ∧ (∃ v : Nat, 3300 ≤ v)
    ∧ (∃ s : State, s.power.flushing = true)
    ∧ (∃ s : State, ∃ v : Nat, v < 2800 ∧ s.power.flushing = true)
    ∧ (∃ s : State, ∃ v : Nat, v < 2800 ∧ s.power.flushing = false ∧ s.power.inReset = true)
    ∧ (∃ v : Nat, 5600 < v)
    ∧ (∃ v : Nat, v ≤ 5600)
    ∧ (∃ s : State, ∃ t0 : Int, ∃ t1 : Int, ∃ t2 : Int, s.power.tripLatch = true ∧ t0 ≤ 85 ∧ t1 ≤ 85 ∧ t2 ≤ 85)
    ∧ (∃ t0 : Int, ∃ t1 : Int, ∃ t2 : Int, (85 < t0 ∨ 85 < t1 ∨ 85 < t2))
    ∧ (∃ s : State, ∃ v : Nat, s.power.inReset = true ∧ s.power.pwrDis = false ∧ s.power.tripLatch = false ∧ 3700 ≤ v
      ∧ (s.power.overvoltage = false ∨ v < 5500))
    ∧ (∃ s : State, ∃ v : Nat, (s.power.pwrDis = true ∨ s.power.tripLatch = true ∨ v < 3700 ∨ (s.power.overvoltage = true ∧ 5500 ≤ v)))
    ∧ (∃ s : State, s.alive = true ∧ s.power.holdWarn = false ∧ s.power.ladder ≠ 5)
    ∧ (∃ s : State, s.power.holdWarn = true) :=
  ⟨⟨wLive, 3599, by decide +kernel⟩,
    ⟨wPower (fun p => { p with ladder := 5 }), 3300, by decide +kernel⟩,
    ⟨wPower (fun p => { p with holdWarn := true }), 3700, by decide +kernel⟩,
    ⟨3299, by decide +kernel⟩,
    ⟨3300, by decide +kernel⟩,
    ⟨wPower (fun p => { p with flushing := true }), by decide +kernel⟩,
    ⟨wPower (fun p => { p with flushing := true }), 2799, by decide +kernel⟩,
    ⟨wPower (fun p => { p with inReset := true }), 2799, by decide +kernel⟩,
    ⟨5601, by decide +kernel⟩,
    ⟨5600, by decide +kernel⟩,
    ⟨wPower (fun p => { p with tripLatch := true }), 85, 85, -40, by decide +kernel⟩,
    ⟨86, 0, 0, by decide +kernel⟩,
    ⟨wPower (fun p => { p with inReset := true, overvoltage := true }), 5499, by decide +kernel⟩,
    ⟨wLive, 3699, by decide +kernel⟩,
    ⟨wLive, by decide +kernel⟩,
    ⟨wPower (fun p => { p with holdWarn := true }), by decide +kernel⟩⟩

/-- Witness of LadderClockAndHeatAct. -/
theorem witness_LadderClockAndHeatAct :
    (∃ s : State, s.serving = true ∧ s.power.holdWarn = false ∧ s.power.woken = false ∧ s.effective ≠ s.power.ladder ∧ s.power.ladder ≠ 5
      ∧ (s.effective ≤ 1 ∨ s.quiet = true))
    ∧ (∃ s : State, (s.power.holdWarn = true ∨ s.effective = s.power.ladder))
    ∧ (∃ s : State, ∃ fn : Fin 2, ∃ e : Sqe, featureId e = 0x02 ∧ s.adminServes fn = true ∧ bits e.cdw11 0 5 ≤ 4 ∧ bit e.cdw10 31 = false)
    ∧ (∃ s : State, ∃ fn : Fin 2, ∃ e : Sqe, featureId e = 0x02 ∧ s.adminServes fn = true ∧ 4 < bits e.cdw11 0 5)
    ∧ (∃ s : State, ∃ ma : Nat, s.alive = true ∧ 20500 < ma)
    ∧ (∃ ma : Nat, ma ≤ 20500)
    ∧ (∃ s : State, ∃ mw : Nat, s.alive = true ∧ mw ≤ 600000)
    ∧ (∃ s : State, ∃ mw : Nat, s.alive = true ∧ 760000 < mw)
    ∧ (∃ s : State, s.alive = true ∧ s.power.peak = .opened ∧ 40000000 ≤ s.power.windowUs)
    ∧ (∃ s : State, ∃ k : Nat, s.alive = true ∧ s.power.recheckAt = some k ∧ k ≤ s.hdCount ∧ s.power.peak = .spent
      ∧ 600000 < s.power.draw)
    ∧ (∃ s : State, ∃ k : Nat, ∃ ma : Nat, s.alive = true ∧ s.power.lowSince = some k ∧ k + 1000000 ≤ s.hdCount ∧ ma ≤ 20500
      ∧ s.power.demandDraw ≠ 0)
    ∧ (∃ s : State, s.alive = true ∧ s.power.peak = .spent ∧ 120000000 ≤ s.power.recoverUs)
    ∧ (∃ s : State, ∃ k : Nat, s.power.flowOkSince = some k ∧ s.power.peak = .denied ∧ k + 10000000 ≤ s.hdCount)
    ∧ (∃ s : State, ∃ inlet : Int, s.alive = true ∧ 35 < inlet)
    ∧ (∃ s : State, ∃ t : Int, s.alive = true ∧ 105 ≤ t ∧ t < 110)
    ∧ (∃ s : State, ∃ k : Nat, s.alive = true ∧ s.power.coolSince = some k ∧ k + 1000000 ≤ s.hdCount ∧ s.power.demandTherm ≠ 0)
    ∧ (∃ s : State, ∃ t : Int, s.alive = true ∧ 80 ≤ t)
    ∧ (∃ s : State, ∃ t : Int, s.alive = true ∧ s.power.tFlash < 70 ∧ t < 70) :=
  ⟨⟨wPower (fun p => { p with target := 5 }), by decide +kernel⟩,
    ⟨wLive, by decide +kernel⟩,
    ⟨wLive, 0, { cdw10 := 2, cdw11 := 4 }, by decide +kernel⟩,
    ⟨wLive, 0, { cdw10 := 2, cdw11 := 5 }, by decide +kernel⟩,
    ⟨wLive, 20501, by decide +kernel⟩,
    ⟨20500, by decide +kernel⟩,
    ⟨wLive, 600000, by decide +kernel⟩,
    ⟨wLive, 760001, by decide +kernel⟩,
    ⟨wPower (fun p => { p with peak := .opened, windowUs := 40000000 }), by decide +kernel⟩,
    ⟨wPower (fun p => { p with recheckAt := some 1000000000000, peak := .spent, draw := 600001 }), 1000000000000, by decide +kernel⟩,
    ⟨wPower (fun p => { p with lowSince := some 999999000000, demandDraw := 2 }), 999999000000, 20500, by decide +kernel⟩,
    ⟨wPower (fun p => { p with peak := .spent, recoverUs := 120000000 }), by decide +kernel⟩,
    ⟨wPower (fun p => { p with flowOkSince := some 999990000000, peak := .denied }), 999990000000, by decide +kernel⟩,
    ⟨wLive, 36, by decide +kernel⟩,
    ⟨wLive, 105, by decide +kernel⟩,
    ⟨wPower (fun p => { p with coolSince := some 999999000000, demandTherm := 1 }), 999999000000, by decide +kernel⟩,
    ⟨wLive, 80, by decide +kernel⟩,
    ⟨wPower (fun p => { p with holdFlash := true }), 69, by decide +kernel⟩⟩

/-- Witness of ManagementRequestsAreAnswered. -/
theorem witness_ManagementRequestsAreAnswered :
    (∃ s : State, ∃ op : Nat, ∃ eid : Nat, s.sideband = true ∧ op ≤ 1 ∧ 8 ≤ eid ∧ eid ≤ 254)
    ∧ (∃ s : State, ∃ op : Nat, ∃ eid : Nat, s.sideband = true ∧ (1 < op ∨ eid < 8 ∨ 254 < eid))
    ∧ (∃ s : State, s.sideband = true)
    ∧ (∃ s : State, s.sideband = false)
    ∧ (∃ s : State, ∃ typ : Nat, ∃ port : Nat, ∃ ctrl : Nat, ∃ b : Bytes, s.sideband = true ∧ s.miStructure typ port ctrl = some b)
    ∧ (∃ s : State, s.sideband = true)
    ∧ (∃ s : State, s.sideband = true ∧ s.keepersOff = false)
    ∧ (∃ s : State, ∃ v : Nat, s.sideband = true ∧ s.keepersOff = false ∧ 1 ≤ v ∧ v ≤ 3)
    ∧ (∃ s : State, s.sideband = true ∧ s.keepersOff = false)
    ∧ (∃ s : State, ∃ off : Nat, ∃ len : Nat, s.sideband = true ∧ off + len ≤ 256)
    ∧ (∃ s : State, s.sideband = true ∧ s.keepersOff = false ∧ (subsystemReset s).sideband = true)
    ∧ (∃ s : State, s.sideband = true)
    ∧ (∃ s : State, ∃ ctrl : Nat, s.sideband = true ∧ s.keepersOff = false ∧ ctrl ≤ 1 ∧ s.ctrlServes ctrl = true)
    ∧ (∃ s : State, ∃ opc : Nat, s.sideband = true ∧ opc ∉ miOpcodes)
    ∧ (∃ s : State, s.sideband = true)
    ∧ (∃ s : State, s.sideband = true ∧ s.keepersOff = true)
    ∧ (∃ s : State, s.sideband = true ∧ s.keepersOff = false)
    ∧ (∃ s : State, s.sideband = true ∧ s.keepersOff = false ∧ s.mgmt.spdm.versionAsked = true)
    ∧ (∃ s : State, s.sideband = true ∧ s.keepersOff = false ∧ s.mgmt.spdm.capsGiven = true)
    ∧ (∃ s : State, s.sideband = true ∧ s.keepersOff = false ∧ s.mgmt.spdm.algosDone = true)
    ∧ (∃ s : State, s.sideband = true ∧ s.keepersOff = false)
    ∧ (∃ s : State, ∃ p : Fin 2, s.serving = true ∧ (s.span.port p).link = .up) :=
  ⟨⟨wLive, 1, 254, by decide +kernel⟩,
    ⟨wLive, 0, 255, by decide +kernel⟩,
    ⟨wLive, by decide +kernel⟩,
    ⟨{}, by decide +kernel⟩,
    (wOne (o := wLive.miStructure 0 0 0) (by decide +kernel)).elim fun b h => ⟨wLive, 0, 0, 0, b, by decide +kernel, h⟩,
    ⟨wLive, by decide +kernel⟩,
    ⟨wLive, by decide +kernel⟩,
    ⟨wLive, 3, by decide +kernel⟩,
    ⟨wLive, by decide +kernel⟩,
    ⟨wLive, 255, 1, by decide +kernel⟩,
    ⟨wLive, by decide +kernel⟩,
    ⟨wLive, by decide +kernel⟩,
    ⟨wLive, 0, by decide +kernel⟩,
    ⟨wLive, 6, by decide +kernel⟩,
    ⟨wLive, by decide +kernel⟩,
    ⟨{ mgmt := { aux := true } }, by decide +kernel⟩,
    ⟨wLive, by decide +kernel⟩,
    ⟨{ wLive with mgmt := { aux := true, spdm := { versionAsked := true } } }, by decide +kernel⟩,
    ⟨{ wLive with mgmt := { aux := true, spdm := { capsGiven := true } } }, by decide +kernel⟩,
    ⟨{ wLive with mgmt := { aux := true, spdm := { algosDone := true } } }, by decide +kernel⟩,
    ⟨wLive, by decide +kernel⟩,
    ⟨{ wPeer 0 with pending := [] }, 1, by decide +kernel⟩⟩

/-- Witness of RegistersAndMemoryAnswerOnTheBus. -/
theorem witness_RegistersAndMemoryAnswerOnTheBus :
    (∃ s : State, ∃ a : Nat, ∃ n : Nat, ∃ d : Die, ∃ off : Nat, ∃ b : RegBlock, ∃ o : Nat, s.alive = true ∧ place a = .dev d off
      ∧ (n = 4 ∨ n = 8) ∧ a % n = 0 ∧ (d ≠ .hd ∨ Config.onfi off = false) ∧ devBlock d off = some (b, o))
    ∧ (∃ s : State, ∃ a : Nat, ∃ n : Nat, ∃ d : Die, ∃ off : Nat, s.alive = true ∧ place a = .dev d off ∧ (n = 4 ∨ n = 8) ∧ a % n = 0)
    ∧ (∃ s : State, ∃ fn : Nat, ∃ bar : Fin 3, ∃ a : Nat, ∃ n : Nat, s.barUp fn = true ∧ barFits bar a n = true ∧ a < 0x10000)
    ∧ (∃ s : State, ∃ fn : Nat, ∃ bar : Fin 3, ∃ a : Nat, ∃ n : Nat, s.barUp fn = true ∧ barFits bar a n = false)
    ∧ (∃ s : State, ∃ fn : Nat, s.barUp fn = false)
    ∧ (∃ s : State, ∃ fn : Fin 2, s.alive = true ∧ s.hasFn fn.val = true)
    ∧ (∃ s : State, ∃ fn : Fin 2, s.hasFn fn.val = true)
    ∧ (∃ s : State, ∃ a : Nat, ∃ n : Nat, ∃ d : Die, ∃ off : Nat, ∃ b : RegBlock, ∃ o : Nat, s.alive = true ∧ place a = .dev d off
      ∧ (n = 4 ∨ n = 8) ∧ a % n = 0 ∧ off ≠ 0 ∧ off ≠ 4 ∧ devBlock d off = some (b, o))
    ∧ (∃ s : State, ∃ g : Fin 128, ∃ a : Nat, ∃ n : Nat, s.alive = true ∧ devPlace a = none ∧ s.accessSt (.steward g) false a n = St.ok
      ∧ s.firstBad a n = none)
    ∧ (∃ s : State, ∃ g : Fin 128, ∃ a : Nat, ∃ n : Nat, s.alive = true ∧ devPlace a = none ∧ s.accessSt (.steward g) false a n ≠ St.ok)
    ∧ (∃ s : State, ∃ g : Fin 128, ∃ a : Nat, ∃ b : Bytes, s.alive = true ∧ devPlace a = none ∧ a % 8 = 0 ∧ b.length % 8 = 0
      ∧ s.accessSt (.steward g) true a b.length = St.ok)
    ∧ (∃ s : State, ∃ r : Requester, ∃ a : Nat, ∃ b : Bytes, s.alive = true ∧ devPlace a = none ∧ s.accessSt r true a b.length ≠ St.ok
      ∧ s.accessSt r true a b.length ≠ St.bankOff)
    ∧ (∃ s : State, ∃ fn : Nat, ∃ bar : Fin 3, ∃ a : Nat, ∃ n : Nat, s.alive = true ∧ s.barUp fn = true ∧ barFits bar a n = false)
    ∧ (∃ s : State, ∃ fn : Nat, ∃ a : Nat, ∃ n : Nat, s.alive = true ∧ s.barUp fn = true ∧ barFits 0 a n = true ∧ a < 0x10000) :=
  ⟨by obtain ⟨b, o, h⟩ := wPair (o := devBlock .cd0 0x100000) (by decide +kernel); exact ⟨wLive, 0xF00010000000 + 0x100000, 4, .cd0, 0x100000, b, o, by decide +kernel, by decide +kernel, by decide, by decide, Or.inl (by decide), h⟩,
    ⟨wLive, 0xF00012400000, 8, .hd, 0x400000, by decide +kernel⟩,
    ⟨wLive, 0, 2, 0xFFF8, 8, by decide +kernel⟩,
    ⟨wLive, 0, 1, 2, 4, by decide +kernel⟩,
    ⟨{}, 0, by decide +kernel⟩,
    ⟨wLive, 0, by decide +kernel⟩,
    ⟨wLive, 0, by decide +kernel⟩,
    by obtain ⟨b, o, h⟩ := wPair (o := devBlock .hd 0x500008) (by decide +kernel); exact ⟨wLive, 0xF00012000000 + 0x500008, 4, .hd, 0x500008, b, o, by decide +kernel, by decide +kernel, by decide, by decide, by decide, by decide, h⟩,
    ⟨wUpd 64, 3, 0x1000, 64, by decide +kernel⟩,
    ⟨wUpd 64, 4, 0x1000, 64, by decide +kernel⟩,
    ⟨wUpd 64, 3, 0x1000, [1, 2, 3, 4, 5, 6, 7, 8], by decide +kernel⟩,
    ⟨wUpd 64, .steward 4, 0x1000, [1, 2, 3, 4, 5, 6, 7, 8], by decide +kernel⟩,
    ⟨wLive, 0, 1, 2, 4, by decide +kernel⟩,
    ⟨wLive, 0, 0xFFF8, 8, by decide +kernel⟩⟩

/-- Witness of StepKeepsMemoryForm. -/
theorem witness_StepKeepsMemoryForm : State.memoryWf State.reset ∧ ∃ t, step State.reset = .next t :=
  ⟨⟨by decide +kernel, by decide +kernel, by decide +kernel⟩, _, rfl⟩

/-- Witness of NumberFormatsRoundTrip. -/
theorem witness_NumberFormatsRoundTrip : (0xFF : Nat) < 2 ^ Fmt.e5m2.width ∧ Fmt.e5m2.decode 0xFC ≠ .nan := by decide +kernel

/-- Witness of CodedTilesAreLossless. -/
theorem witness_CodedTilesAreLossless : ∃ elems side : Bytes, elems.length = 1024 * 2 ∧ side.length ≤ 1024 :=
  ⟨List.replicate 2048 1, List.replicate 1024 2, by decide +kernel⟩

end Sys2Proof.Tests
end

section
/-! Registers and memory on the bus (spec/02 R30 to R34, spec/03 R52 and R53): what each kind of access answers, by requester, and O58. -/

namespace Sys2Proof.Machine

/-! ## Device registers -/

theorem devPlace_of_place {a off : Nat} {d : Die} (h : place a = .dev d off) : devPlace a = some (d, off) := by
  simp only [devPlace, h]

/-- A write of register width and alignment in the device registers goes to the register of the place. -/
theorem execRegisterWrite_dev {s : State} {a n d off} (r : Requester) (v : Nat) (hs : s.alive = true)
    (hp : place a = .dev d off) (hn : n = 4 ∨ n = 8) (ha : a % n = 0) :
    execRegisterWrite (.unit r) a n v s = .next (devWrite r d off n v s) := by
  simp [execRegisterWrite, hs, devPlace_of_place hp, hn, ha]

theorem execBusAccess_dev_read {s : State} {a n d off} (r : Requester) (hs : s.alive = true)
    (hp : place a = .dev d off) (hn : n = 4 ∨ n = 8) (ha : a % n = 0) :
    execBusAccess (.unit r) a n none s = .next (devRead r d off n s) := by
  simp [execBusAccess, hs, devPlace_of_place hp, hn, ha]

/-- The keeper writes every block; the ONFI registers alone are out of its reach (R32). -/
theorem devWrite_keeper {d off b o} (n v : Nat) (s : State) (honfi : d ≠ .hd ∨ Config.onfi off = false)
    (hb : devBlock d off = some (b, o)) : devWrite .keeper d off n v s = b.writeN o n v s := by
  have hreach : (decide (d = .hd) && Config.onfi off) = false := by
    rcases honfi with h | h <;> simp [h]
  simp [devWrite, hreach, hb]

theorem devWrite_steward (g : Fin 128) (d off n v) (s : State) :
    devWrite (.steward g) d off n v s = s.reply (.busError St.addrDenied) := rfl

/-- The keeper reads every block; at offsets 0 and 4 the local count has its own rule (R40). -/
theorem devRead_keeper {d off b o} (n : Nat) (s : State) (h0 : off ≠ 0) (h4 : off ≠ 4)
    (hb : devBlock d off = some (b, o)) : devRead .keeper d off n s = s.reply (.value (b.readN s o n)) := by
  simp [devRead, h0, h4, hb]

/-! ## The BARs (R33, R34) -/

theorem execRegisterWrite_host (fn : Fin 2) (bar : Fin 3) (a n v : Nat) (s : State) :
    execRegisterWrite (.host fn bar) a n v s = .next (barWrite fn bar a n v s) := rfl

theorem execBusAccess_host_read {s : State} (fn : Fin 2) (bar : Fin 3) (a n : Nat) (hs : s.alive = true) :
    execBusAccess (.host fn bar) a n none s = .next (barRead fn bar a n s) := by
  simp [execBusAccess, hs]

theorem barWrite_down {s : State} {fn : Nat} (bar off n v : Nat) (h : s.barUp fn = false) :
    barWrite fn bar off n v s = s.reply .unsupportedRequest := by
  simp [barWrite, h]

theorem barWrite_misfit {s : State} {fn bar off n : Nat} (v : Nat) (hup : s.barUp fn = true)
    (hfit : barFits bar off n = false) : barWrite fn bar off n v s = s.reply .unsupportedRequest := by
  simp [barWrite, hup, hfit]

theorem barWrite_fits {s : State} {fn bar off n : Nat} (v : Nat) (hup : s.barUp fn = true)
    (hfit : barFits bar off n = true) (hoff : off < 0x10000) :
    barWrite fn bar off n v s = (barBlock fn bar).writeN off n v s := by
  simp [barWrite, hup, hfit, Nat.not_le.mpr hoff]

theorem barRead_misfit {s : State} {fn bar off n : Nat} (hup : s.barUp fn = true) (hfit : barFits bar off n = false) :
    barRead fn bar off n s = s.reply .unsupportedRequest := by
  simp [barRead, hup, hfit]

/-- BAR0/1 has no register whose read has an effect: the block's value is returned. -/
theorem barRead_nvme {s : State} {fn off n : Nat} (hup : s.barUp fn = true) (hfit : barFits 0 off n = true)
    (hoff : off < 0x10000) : barRead fn 0 off n s = s.reply (.value ((barBlock fn 0).readN s off n)) := by
  simp [barRead, hup, hfit, Nat.not_le.mpr hoff]

/-! ## Configuration space (R52, R53) -/

theorem execRegisterWrite_config (fn : Fin 2) (r : CfgReg) (a n v : Nat) (s : State) :
    execRegisterWrite (.config fn r) a n v s = .next (cfgAccess fn r (some v) s) := rfl

theorem execBusAccess_config_read {s : State} (fn : Fin 2) (r : CfgReg) (a n : Nat) (hs : s.alive = true) :
    execBusAccess (.config fn r) a n none s = .next (cfgAccess fn r none s) := by
  simp [execBusAccess, hs]

theorem cfgAccess_read {s : State} {fn : Nat} (r : CfgReg) (h : s.hasFn fn = true) :
    cfgAccess fn r none s = s.reply (if s.barUp fn then .value (cfgRead s fn r) else .requestRetry) := by
  by_cases hup : s.barUp fn = true <;> simp [cfgAccess, h, hup]

theorem cfgAccess_write {s : State} {fn : Nat} (r : CfgReg) (v : Nat) (h : s.hasFn fn = true) :
    cfgAccess fn r (some v) s = if s.barUp fn then cfgWrite fn r v s else s.reply .requestRetry := by
  by_cases hup : s.barUp fn = true <;> simp [cfgAccess, h, hup]

/-! ## Memory (R32, R269) -/

theorem execBusAccess_mem_read {s : State} {a : Nat} (r : Requester) (n : Nat) (hs : s.alive = true) (hp : devPlace a = none) :
    execBusAccess (.unit r) a n none s = .next (memRead r a n s) := by
  simp [execBusAccess, hs, hp]

theorem execBusAccess_mem_write {s : State} {a : Nat} (r : Requester) (n : Nat) (b : Bytes) (hs : s.alive = true)
    (hp : devPlace a = none) : execBusAccess (.unit r) a n (some b) s = .next (memWrite r a b s) := by
  simp [execBusAccess, hs, hp]

/-- A read within the requester's rights that meets no bad word returns the bytes. -/
theorem memRead_good {s : State} {r : Requester} {a n : Nat} (hst : s.accessSt r false a n = St.ok)
    (hgood : s.firstBad a n = none) : memRead r a n s = s.used.reply (.data (s.bytesAt a n)) := by
  simp [memRead, State.checkRead, hst, hgood]

theorem memRead_refused {s : State} {r : Requester} {a n : Nat} (hst : s.accessSt r false a n ≠ St.ok) :
    memRead r a n s = s.reply (.busError (s.accessSt r false a n)) := by
  simp [memRead, State.checkRead, hst]

/-- A range of whole words covers no word in part. -/
theorem partWords_of_aligned {a n : Nat} (ha : a % 8 = 0) (hn : n % 8 = 0) : partWords a n = [] := by
  unfold partWords
  split
  · rfl
  · refine List.filter_eq_nil_iff.mpr fun w hw => ?_
    have hends : w = a / 8 ∨ w = (a + n - 1) / 8 := by simpa using hw
    simp only [Bool.or_eq_true, decide_eq_true_eq]
    omega

/-- A write of whole words reads and merges nothing. -/
theorem State.storeMerge_of_aligned (s : State) (g : Option Nat) {a : Nat} {b : Bytes} (ha : a % 8 = 0) (hb : b.length % 8 = 0) :
    s.storeMerge g a b = s.store a b := by
  simp only [State.storeMerge, partWords_of_aligned ha hb, List.foldl_nil]

theorem memWrite_of_aligned {s : State} {r : Requester} {a : Nat} {b : Bytes} (ha : a % 8 = 0) (hb : b.length % 8 = 0)
    (hst : s.accessSt r true a b.length = St.ok) : memWrite r a b s = s.store a b := by
  simp only [memWrite, hst, if_true, State.storeMerge_of_aligned s _ ha hb]

/-- A write that is refused, and not dropped at a bank that is off (R273), writes nothing. -/
theorem memWrite_refused {s : State} {r : Requester} {a : Nat} {b : Bytes} (hst : s.accessSt r true a b.length ≠ St.ok)
    (hoff : s.accessSt r true a b.length ≠ St.bankOff) :
    memWrite r a b s = s.reply (.busError (s.accessSt r true a b.length)) := by
  simp only [memWrite, hst, hoff, if_false]

/-- Settles O58, clause by clause: the access reaches a device register, a BAR, configuration space or memory, and the rule of that
place says what it answers. -/
theorem registersAndMemoryAnswerOnTheBus : Obligations.RegistersAndMemoryAnswerOnTheBus := by
  unfold Obligations.RegistersAndMemoryAnswerOnTheBus
  refine ⟨?keeperWrites, ?stewardDenied, ?barWrites, ?barWriteMisfit, ?barWriteDown, ?cfgReads, ?cfgWrites, ?keeperReads,
    ?memReads, ?memReadRefused, ?memWrites, ?memWriteRefused, ?barReadMisfit, ?barReads⟩
  case keeperWrites =>
    intro s a n v d off b o hs hp hn ha honfi hb
    rw [exec_registerWrite, execRegisterWrite_dev .keeper v hs hp hn ha, devWrite_keeper n v s honfi hb]
  case stewardDenied =>
    intro s g a n v d off hs hp hn ha
    rw [exec_registerWrite, execRegisterWrite_dev (.steward g) v hs hp hn ha, devWrite_steward]
  case barWrites =>
    intro s fn bar a n v hup hfit hoff
    rw [exec_registerWrite, execRegisterWrite_host, barWrite_fits v hup hfit hoff]
  case barWriteMisfit =>
    intro s fn bar a n v hup hfit
    rw [exec_registerWrite, execRegisterWrite_host, barWrite_misfit v hup hfit]
  case barWriteDown =>
    intro s fn bar a n v hdown
    rw [exec_registerWrite, execRegisterWrite_host, barWrite_down bar a n v hdown]
  case cfgReads =>
    intro s fn r hs hfn
    rw [exec_busAccess, execBusAccess_config_read fn r 0 4 hs, cfgAccess_read r hfn]
  case cfgWrites =>
    intro s fn r v hfn
    rw [exec_registerWrite, execRegisterWrite_config, cfgAccess_write r v hfn]
  case keeperReads =>
    intro s a n d off b o hs hp hn ha h0 h4 hb
    rw [exec_busAccess, execBusAccess_dev_read .keeper hs hp hn ha, devRead_keeper n s h0 h4 hb]
  case memReads =>
    intro s g a n hs hp hst hgood
    rw [exec_busAccess, execBusAccess_mem_read _ n hs hp, memRead_good hst hgood]
  case memReadRefused =>
    intro s g a n hs hp hst
    rw [exec_busAccess, execBusAccess_mem_read _ n hs hp, memRead_refused hst]
  case memWrites =>
    intro s g a b hs hp ha hb hst
    rw [exec_busAccess, execBusAccess_mem_write _ _ b hs hp, memWrite_of_aligned ha hb hst]
  case memWriteRefused =>
    intro s r a b hs hp hst hoff
    rw [exec_busAccess, execBusAccess_mem_write r _ b hs hp, memWrite_refused hst hoff]
  case barReadMisfit =>
    intro s fn bar a n hs hup hfit
    rw [exec_busAccess, execBusAccess_host_read fn bar a n hs, barRead_misfit hup hfit]
  case barReads =>
    intro s fn a n hs hup hfit hoff
    rw [exec_busAccess, execBusAccess_host_read fn 0 a n hs, Fin.val_zero, barRead_nvme hup hfit hoff]

end Sys2Proof.Machine
end

section
/-! Every command ends in a next state, and what it changes on the way: one lemma per command put together, and O4. -/

namespace Sys2Proof.Machine

/-- Every command ends in a next state; on the way there it changes the parts of the state listed for it alone, keeps the canonical
form of the memories and restores no fuse. -/
theorem exec_ends (c : Instr) (s : State) : Ends (mayWrite c) s (exec c s) := by
  cases c
  case' registerWrite => rw [exec_registerWrite]; apply execRegisterWrite_runs
  case' linkFlitReceive => rw [exec_linkFlitReceive]; apply execLinkFlitReceive_runs
  case' linkRetrainDone => rw [exec_linkRetrainDone]; apply execLinkRetrainDone_runs
  case' busAccess => rw [exec_busAccess]; apply execBusAccess_runs
  case' localCountLoRead => rw [exec_localCountLoRead]; apply execLocalCountLoRead_runs
  case' cqWrite => rw [exec_cqWrite]; apply execCqWrite_runs
  case' cqFlush => rw [exec_cqFlush]; apply execCqFlush_runs
  case' cqWordReadable => rw [exec_cqWordReadable]; apply execCqWordReadable_runs
  case' cqRead => rw [exec_cqRead]; apply execCqRead_runs
  case' cqFreeVisible => rw [exec_cqFreeVisible]; apply execCqFreeVisible_runs
  case' cqCtrlFlush => rw [exec_cqCtrlFlush]; apply execCqCtrlFlush_runs
  case' cqReset => rw [exec_cqReset]; apply execCqReset_runs
  case' cqClrCounts => rw [exec_cqClrCounts]; apply execCqClrCounts_runs
  case' cqThreshLevelWrite => rw [exec_cqThreshLevelWrite]; apply execCqThreshLevelWrite_runs
  case' perstDeassert => rw [exec_perstDeassert]; apply execPerstDeassert_runs
  case' linkDown => rw [exec_linkDown]; apply execLinkDown_runs
  case' hotReset => rw [exec_hotReset]; apply execHotReset_runs
  case' functionLevelReset => rw [exec_functionLevelReset]; apply execFunctionLevelReset_runs
  case' nvmSubsystemReset => rw [exec_nvmSubsystemReset]; apply execNvmSubsystemReset_runs
  case' ccEnClear => rw [exec_ccEnClear]; apply execCcEnClear_runs
  case' controllerResetDone => rw [exec_controllerResetDone]; apply execControllerResetDone_runs
  case' sqTailDoorbell => rw [exec_sqTailDoorbell]; apply execSqTailDoorbell_runs
  case' cqHeadDoorbell => rw [exec_cqHeadDoorbell]; apply execCqHeadDoorbell_runs
  case' commandFetch => rw [exec_commandFetch]; apply execCommandFetch_runs
  case' commandStart => rw [exec_commandStart]; apply execCommandStart_runs
  case' invalidCommandOpcode => rw [exec_invalidCommandOpcode]; apply execInvalidCommandOpcode_runs
  case' deleteIoSq => rw [exec_deleteIoSq]; apply execDeleteIoSq_runs
  case' deleteIoSqDone => rw [exec_deleteIoSqDone]; apply execDeleteIoSqDone_runs
  case' createIoSq => rw [exec_createIoSq]; apply execCreateIoSq_runs
  case' deleteIoCq => rw [exec_deleteIoCq]; apply execDeleteIoCq_runs
  case' createIoCq => rw [exec_createIoCq]; apply execCreateIoCq_runs
  case' identify => rw [exec_identify]; apply execIdentify_runs
  case' abort => rw [exec_abort]; apply execAbort_runs
  case' setFeatures => rw [exec_setFeatures]; apply execSetFeatures_runs
  case' setFeaturesTimestamp => rw [exec_setFeaturesTimestamp]; apply execSetFeaturesTimestamp_runs
  case' setFeaturesPowerManagement => rw [exec_setFeaturesPowerManagement]; apply execSetFeaturesPowerManagement_runs
  case' getFeatures => rw [exec_getFeatures]; apply execGetFeatures_runs
  case' getLogPage => rw [exec_getLogPage]; apply execGetLogPage_runs
  case' asynchronousEventRequest => rw [exec_asynchronousEventRequest]; apply execAsynchronousEventRequest_runs
  case' namespaceManagement => rw [exec_namespaceManagement]; apply execNamespaceManagement_runs
  case' namespaceAttachment => rw [exec_namespaceAttachment]; apply execNamespaceAttachment_runs
  case' formatNvm => rw [exec_formatNvm]; apply execFormatNvm_runs
  case' nvmeSanitize => rw [exec_nvmeSanitize]; apply execNvmeSanitize_runs
  case' flush => rw [exec_flush]; apply execFlush_runs
  case' write => rw [exec_write]; apply execWrite_runs
  case' read => rw [exec_read]; apply execRead_runs
  case' writeZeroes => rw [exec_writeZeroes]; apply execWriteZeroes_runs
  case' datasetManagement => rw [exec_datasetManagement]; apply execDatasetManagement_runs
  case' secureDiscard => rw [exec_secureDiscard]; apply execSecureDiscard_runs
  case' verify => rw [exec_verify]; apply execVerify_runs
  case' indexQuery => rw [exec_indexQuery]; apply execIndexQuery_runs
  case' indexInsert => rw [exec_indexInsert]; apply execIndexInsert_runs
  case' indexDelete => rw [exec_indexDelete]; apply execIndexDelete_runs
  case' indexWriteRoom => rw [exec_indexWriteRoom]; apply execIndexWriteRoom_runs
  case' scan => rw [exec_scan]; apply execScan_runs
  case' embed => rw [exec_embed]; apply execEmbed_runs
  case' generate => rw [exec_generate]; apply execGenerate_runs
  case' sessionOpen => rw [exec_sessionOpen]; apply execSessionOpen_runs
  case' sessionPark => rw [exec_sessionPark]; apply execSessionPark_runs
  case' sessionResume => rw [exec_sessionResume]; apply execSessionResume_runs
  case' sessionClose => rw [exec_sessionClose]; apply execSessionClose_runs
  case' run => rw [exec_run]; apply execRun_runs
  case' resultHeaderTimer => rw [exec_resultHeaderTimer]; apply execResultHeaderTimer_runs
  case' mbReqLenWrite => rw [exec_mbReqLenWrite]; apply execMbReqLenWrite_runs
  case' mbDataInWrite => rw [exec_mbDataInWrite]; apply execMbDataInWrite_runs
  case' mbDataOutRead => rw [exec_mbDataOutRead]; apply execMbDataOutRead_runs
  case' mbSend => rw [exec_mbSend]; apply execMbSend_runs
  case' mbRelease => rw [exec_mbRelease]; apply execMbRelease_runs
  case' mbAbandon => rw [exec_mbAbandon]; apply execMbAbandon_runs
  case' mbResponseReady => rw [exec_mbResponseReady]; apply execMbResponseReady_runs
  case' mctpAmpMessage => rw [exec_mctpAmpMessage]; apply execMctpAmpMessage_runs
  case' mgmtEventNotice => rw [exec_mgmtEventNotice]; apply execMgmtEventNotice_runs
  case' hello => rw [exec_hello]; apply execHello_runs
  case' ampStatus => rw [exec_ampStatus]; apply execAmpStatus_runs
  case' keyAgree => rw [exec_keyAgree]; apply execKeyAgree_runs
  case' lockoutExpiry => rw [exec_lockoutExpiry]; apply execLockoutExpiry_runs
  case' eventRead => rw [exec_eventRead]; apply execEventRead_runs
  case' opStatus => rw [exec_opStatus]; apply execOpStatus_runs
  case' configRead => rw [exec_configRead]; apply execConfigRead_runs
  case' configWrite => rw [exec_configWrite]; apply execConfigWrite_runs
  case' eventMask => rw [exec_eventMask]; apply execEventMask_runs
  case' timeRead => rw [exec_timeRead]; apply execTimeRead_runs
  case' objectInstall => rw [exec_objectInstall]; apply execObjectInstall_runs
  case' objectInstallDone => rw [exec_objectInstallDone]; apply execObjectInstallDone_runs
  case' objectRemove => rw [exec_objectRemove]; apply execObjectRemove_runs
  case' objectList => rw [exec_objectList]; apply execObjectList_runs
  case' indexCreate => rw [exec_indexCreate]; apply execIndexCreate_runs
  case' indexDrop => rw [exec_indexDrop]; apply execIndexDrop_runs
  case' indexTrain => rw [exec_indexTrain]; apply execIndexTrain_runs
  case' indexTrainDone => rw [exec_indexTrainDone]; apply execIndexTrainDone_runs
  case' indexFold => rw [exec_indexFold]; apply execIndexFold_runs
  case' foldSwitch => rw [exec_foldSwitch]; apply execFoldSwitch_runs
  case' indexBind => rw [exec_indexBind]; apply execIndexBind_runs
  case' indexStats => rw [exec_indexStats]; apply execIndexStats_runs
  case' ingestWindowProcess => rw [exec_ingestWindowProcess]; apply execIngestWindowProcess_runs
  case' partSet => rw [exec_partSet]; apply execPartSet_runs
  case' partRead => rw [exec_partRead]; apply execPartRead_runs
  case' powerSet => rw [exec_powerSet]; apply execPowerSet_runs
  case' powerRead => rw [exec_powerRead]; apply execPowerRead_runs
  case' writeGovernor => rw [exec_writeGovernor]; apply execWriteGovernor_runs
  case' faultRead => rw [exec_faultRead]; apply execFaultRead_runs
  case' faultAck => rw [exec_faultAck]; apply execFaultAck_runs
  case' scrubRange => rw [exec_scrubRange]; apply execScrubRange_runs
  case' scrubDone => rw [exec_scrubDone]; apply execScrubDone_runs
  case' retire => rw [exec_retire]; apply execRetire_runs
  case' ownerSet => rw [exec_ownerSet]; apply execOwnerSet_runs
  case' ownerReleaseRestart => rw [exec_ownerReleaseRestart]; apply execOwnerReleaseRestart_runs
  case' nsKeySet => rw [exec_nsKeySet]; apply execNsKeySet_runs
  case' cryptoErase => rw [exec_cryptoErase]; apply execCryptoErase_runs
  case' sanitize => rw [exec_sanitize]; apply execSanitize_runs
  case' sanitizeDone => rw [exec_sanitizeDone]; apply execSanitizeDone_runs
  case' fwStage => rw [exec_fwStage]; apply execFwStage_runs
  case' fwVerify => rw [exec_fwVerify]; apply execFwVerify_runs
  case' fwVerifyDone => rw [exec_fwVerifyDone]; apply execFwVerifyDone_runs
  case' fwCommit => rw [exec_fwCommit]; apply execFwCommit_runs
  case' fwCommitDone => rw [exec_fwCommitDone]; apply execFwCommitDone_runs
  case' recoveryReboot => rw [exec_recoveryReboot]; apply execRecoveryReboot_runs
  case' spanConfig => rw [exec_spanConfig]; apply execSpanConfig_runs
  case' spanStatus => rw [exec_spanStatus]; apply execSpanStatus_runs
  case' spanPeerSet => rw [exec_spanPeerSet]; apply execSpanPeerSet_runs
  case' unlistedAmpOpcode => rw [exec_unlistedAmpOpcode]; apply execUnlistedAmpOpcode_runs
  case' cpJobTailWrite => rw [exec_cpJobTailWrite]; apply execCpJobTailWrite_runs
  case' cpCmplHeadWrite => rw [exec_cpCmplHeadWrite]; apply execCpCmplHeadWrite_runs
  case' abortJob => rw [exec_abortJob]; apply execAbortJob_runs
  case' cpEnable => rw [exec_cpEnable]; apply execCpEnable_runs
  case' channelJobStart => rw [exec_channelJobStart]; apply execChannelJobStart_runs
  case' s6TableLoadDone => rw [exec_s6TableLoadDone]; apply execS6TableLoadDone_runs
  case' s8ThresholdFeedback => rw [exec_s8ThresholdFeedback]; apply execS8ThresholdFeedback_runs
  case' channelJobComplete => rw [exec_channelJobComplete]; apply execChannelJobComplete_runs
  case' seamJob => rw [exec_seamJob]; apply execSeamJob_runs
  case' selectionStart => rw [exec_selectionStart]; apply execSelectionStart_runs
  case' selectionComplete => rw [exec_selectionComplete]; apply execSelectionComplete_runs
  case' selFlush => rw [exec_selFlush]; apply execSelFlush_runs
  case' selEnable => rw [exec_selEnable]; apply execSelEnable_runs
  case' mergeInstanceOpen => rw [exec_mergeInstanceOpen]; apply execMergeInstanceOpen_runs
  case' mergeEntryArrival => rw [exec_mergeEntryArrival]; apply execMergeEntryArrival_runs
  case' mergeInstanceClose => rw [exec_mergeInstanceClose]; apply execMergeInstanceClose_runs
  case' tileLoad => rw [exec_tileLoad]; apply execTileLoad_runs
  case' tileStream => rw [exec_tileStream]; apply execTileStream_runs
  case' tileDrain => rw [exec_tileDrain]; apply execTileDrain_runs
  case' tileCfg => rw [exec_tileCfg]; apply execTileCfg_runs
  case' tileFence => rw [exec_tileFence]; apply execTileFence_runs
  case' chainGo => rw [exec_chainGo]; apply execChainGo_runs
  case' mvIssue => rw [exec_mvIssue]; apply execMvIssue_runs
  case' selIssue => rw [exec_selIssue]; apply execSelIssue_runs
  case' slotWait => rw [exec_slotWait]; apply execSlotWait_runs
  case' slotTake => rw [exec_slotTake]; apply execSlotTake_runs
  case' slotGive => rw [exec_slotGive]; apply execSlotGive_runs
  case' slotPeek => rw [exec_slotPeek]; apply execSlotPeek_runs
  case' slotClear => rw [exec_slotClear]; apply execSlotClear_runs
  case' stepMark => rw [exec_stepMark]; apply execStepMark_runs
  case' stewardInstruction => rw [exec_stewardInstruction]; apply execStewardInstruction_runs
  case' stewardLoad => rw [exec_stewardLoad]; apply execStewardLoad_runs
  case' stewardStore => rw [exec_stewardStore]; apply execStewardStore_runs
  case' mxuOpStart => rw [exec_mxuOpStart]; apply execMxuOpStart_runs
  case' mxuOpComplete => rw [exec_mxuOpComplete]; apply execMxuOpComplete_runs
  case' clMxuReset => rw [exec_clMxuReset]; apply execClMxuReset_runs
  case' clCoreReset => rw [exec_clCoreReset]; apply execClCoreReset_runs
  case' clHalt => rw [exec_clHalt]; apply execClHalt_runs
  case' clEnable => rw [exec_clEnable]; apply execClEnable_runs
  case' narrowGuarantee => rw [exec_narrowGuarantee]; apply execNarrowGuarantee_runs
  case' cvClr => rw [exec_cvClr]; apply execCvClr_runs
  case' chainComplete => rw [exec_chainComplete]; apply execChainComplete_runs
  case' chainBlockSend => rw [exec_chainBlockSend]; apply execChainBlockSend_runs
  case' tenantClear => rw [exec_tenantClear]; apply execTenantClear_runs
  case' tenantClearDone => rw [exec_tenantClearDone]; apply execTenantClearDone_runs
  case' spClrCounts => rw [exec_spClrCounts]; apply execSpClrCounts_runs
  case' slotReset => rw [exec_slotReset]; apply execSlotReset_runs
  case' bankPowerDown => rw [exec_bankPowerDown]; apply execBankPowerDown_runs
  case' bankOff => rw [exec_bankOff]; apply execBankOff_runs
  case' bankPowerTimeout => rw [exec_bankPowerTimeout]; apply execBankPowerTimeout_runs
  case' bankPowerDownForce => rw [exec_bankPowerDownForce]; apply execBankPowerDownForce_runs
  case' bankForceOff => rw [exec_bankForceOff]; apply execBankForceOff_runs
  case' bankPowerUp => rw [exec_bankPowerUp]; apply execBankPowerUp_runs
  case' bankPowerUpDone => rw [exec_bankPowerUpDone]; apply execBankPowerUpDone_runs
  case' bankRetire => rw [exec_bankRetire]; apply execBankRetire_runs
  case' slotWaitLimitWrite => rw [exec_slotWaitLimitWrite]; apply execSlotWaitLimitWrite_runs
  case' spResidentWrite => rw [exec_spResidentWrite]; apply execSpResidentWrite_runs
  case' slotWindowWrite => rw [exec_slotWindowWrite]; apply execSlotWindowWrite_runs
  case' slotWaitTimeout => rw [exec_slotWaitTimeout]; apply execSlotWaitTimeout_runs
  case' remoteSlotArrival => rw [exec_remoteSlotArrival]; apply execRemoteSlotArrival_runs
  case' residentReloadDone => rw [exec_residentReloadDone]; apply execResidentReloadDone_runs
  case' mvPost => rw [exec_mvPost]; apply execMvPost_runs
  case' mvFlush => rw [exec_mvFlush]; apply execMvFlush_runs
  case' mvEnable => rw [exec_mvEnable]; apply execMvEnable_runs
  case' linear => rw [exec_linear]; apply execLinear_runs
  case' tileIn => rw [exec_tileIn]; apply execTileIn_runs
  case' tileOut => rw [exec_tileOut]; apply execTileOut_runs
  case' tensorIn => rw [exec_tensorIn]; apply execTensorIn_runs
  case' tensorOut => rw [exec_tensorOut]; apply execTensorOut_runs
  case' fill => rw [exec_fill]; apply execFill_runs
  case' copy => rw [exec_copy]; apply execCopy_runs
  case' transpose => rw [exec_transpose]; apply execTranspose_runs
  case' moverDescriptorDone => rw [exec_moverDescriptorDone]; apply execMoverDescriptorDone_runs
  case' tierDemotion => rw [exec_tierDemotion]; apply execTierDemotion_runs
  case' tilePromotion => rw [exec_tilePromotion]; apply execTilePromotion_runs
  case' sessionDemotion => rw [exec_sessionDemotion]; apply execSessionDemotion_runs
  case' parkT2Done => rw [exec_parkT2Done]; apply execParkT2Done_runs
  case' resumeColdDone => rw [exec_resumeColdDone]; apply execResumeColdDone_runs
  case' tokenizerSlice => rw [exec_tokenizerSlice]; apply execTokenizerSlice_runs
  case' updSubmit => rw [exec_updSubmit]; apply execUpdSubmit_runs
  case' updateJobStart => rw [exec_updateJobStart]; apply execUpdateJobStart_runs
  case' updCommit => rw [exec_updCommit]; apply execUpdCommit_runs
  case' updateSliceEnd => rw [exec_updateSliceEnd]; apply execUpdateSliceEnd_runs
  case' quantumExpiry => rw [exec_quantumExpiry]; apply execQuantumExpiry_runs
  case' saveComplete => rw [exec_saveComplete]; apply execSaveComplete_runs
  case' runEmit => rw [exec_runEmit]; apply execRunEmit_runs
  case' taskEnd => rw [exec_taskEnd]; apply execTaskEnd_runs
  case' romResetEntry => rw [exec_romResetEntry]; apply execRomResetEntry_runs
  case' targetBringupTimeout => rw [exec_targetBringupTimeout]; apply execTargetBringupTimeout_runs
  case' mrReqTailWrite => rw [exec_mrReqTailWrite]; apply execMrReqTailWrite_runs
  case' mrCmplHeadWrite => rw [exec_mrCmplHeadWrite]; apply execMrCmplHeadWrite_runs
  case' mrEnable => rw [exec_mrEnable]; apply execMrEnable_runs
  case' mediaRead => rw [exec_mediaRead]; apply execMediaRead_runs
  case' mediaReadMargin => rw [exec_mediaReadMargin]; apply execMediaReadMargin_runs
  case' mediaProgram => rw [exec_mediaProgram]; apply execMediaProgram_runs
  case' mediaErase => rw [exec_mediaErase]; apply execMediaErase_runs
  case' mediaReset => rw [exec_mediaReset]; apply execMediaReset_runs
  case' mediaGetFeatures => rw [exec_mediaGetFeatures]; apply execMediaGetFeatures_runs
  case' mediaStatus => rw [exec_mediaStatus]; apply execMediaStatus_runs
  case' mediaClose => rw [exec_mediaClose]; apply execMediaClose_runs
  case' mediaParams => rw [exec_mediaParams]; apply execMediaParams_runs
  case' mediaOpComplete => rw [exec_mediaOpComplete]; apply execMediaOpComplete_runs
  case' mediaTimeout => rw [exec_mediaTimeout]; apply execMediaTimeout_runs
  case' mediaSuspend => rw [exec_mediaSuspend]; apply execMediaSuspend_runs
  case' mediaHold => rw [exec_mediaHold]; apply execMediaHold_runs
  case' mediaFlush => rw [exec_mediaFlush]; apply execMediaFlush_runs
  case' dieTempSample => rw [exec_dieTempSample]; apply execDieTempSample_runs
  case' writeBufferProgram => rw [exec_writeBufferProgram]; apply execWriteBufferProgram_runs
  case' garbageCollection => rw [exec_garbageCollection]; apply execGarbageCollection_runs
  case' mapCheckpoint => rw [exec_mapCheckpoint]; apply execMapCheckpoint_runs
  case' flashTempPoll => rw [exec_flashTempPoll]; apply execFlashTempPoll_runs
  case' peRateBucket => rw [exec_peRateBucket]; apply execPeRateBucket_runs
  case' spanPortUp => rw [exec_spanPortUp]; apply execSpanPortUp_runs
  case' spanPortDown => rw [exec_spanPortDown]; apply execSpanPortDown_runs
  case' slRetrain => rw [exec_slRetrain]; apply execSlRetrain_runs
  case' slEnable => rw [exec_slEnable]; apply execSlEnable_runs
  case' openFrame => rw [exec_openFrame]; apply execOpenFrame_runs
  case' spdmFrame => rw [exec_spdmFrame]; apply execSpdmFrame_runs
  case' dataFrame => rw [exec_dataFrame]; apply execDataFrame_runs
  case' ackFrame => rw [exec_ackFrame]; apply execAckFrame_runs
  case' nakFrame => rw [exec_nakFrame]; apply execNakFrame_runs
  case' spanRead => rw [exec_spanRead]; apply execSpanRead_runs
  case' retransmissionTimeout => rw [exec_retransmissionTimeout]; apply execRetransmissionTimeout_runs
  case' gapTimeout => rw [exec_gapTimeout]; apply execGapTimeout_runs
  case' keepaliveTimer => rw [exec_keepaliveTimer]; apply execKeepaliveTimer_runs
  case' slowTimeout => rw [exec_slowTimeout]; apply execSlowTimeout_runs
  case' absentTimeout => rw [exec_absentTimeout]; apply execAbsentTimeout_runs
  case' bringupTimeout => rw [exec_bringupTimeout]; apply execBringupTimeout_runs
  case' faultyRetryTimer => rw [exec_faultyRetryTimer]; apply execFaultyRetryTimer_runs
  case' refusedRetryTimer => rw [exec_refusedRetryTimer]; apply execRefusedRetryTimer_runs
  case' rekeyTimer => rw [exec_rekeyTimer]; apply execRekeyTimer_runs
  case' oldKeyExpiry => rw [exec_oldKeyExpiry]; apply execOldKeyExpiry_runs
  case' faultReport => rw [exec_faultReport]; apply execFaultReport_runs
  case' faultWindowEnd => rw [exec_faultWindowEnd]; apply execFaultWindowEnd_runs
  case' faultRecordAgeLimit => rw [exec_faultRecordAgeLimit]; apply execFaultRecordAgeLimit_runs
  case' faultRecordIntake => rw [exec_faultRecordIntake]; apply execFaultRecordIntake_runs
  case' faultRecordFinalise => rw [exec_faultRecordFinalise]; apply execFaultRecordFinalise_runs
  case' faultLogPersist => rw [exec_faultLogPersist]; apply execFaultLogPersist_runs
  case' fcHeadWrite => rw [exec_fcHeadWrite]; apply execFcHeadWrite_runs
  case' inputWarn => rw [exec_inputWarn]; apply execInputWarn_runs
  case' holdRelease => rw [exec_holdRelease]; apply execHoldRelease_runs
  case' inputCommit => rw [exec_inputCommit]; apply execInputCommit_runs
  case' flushDumpDone => rw [exec_flushDumpDone]; apply execFlushDumpDone_runs
  case' inputReset => rw [exec_inputReset]; apply execInputReset_runs
  case' inputOvervoltage => rw [exec_inputOvervoltage]; apply execInputOvervoltage_runs
  case' startCondition => rw [exec_startCondition]; apply execStartCondition_runs
  case' currentLimit => rw [exec_currentLimit]; apply execCurrentLimit_runs
  case' holdupMeasurement => rw [exec_holdupMeasurement]; apply execHoldupMeasurement_runs
  case' powerStateEntry => rw [exec_powerStateEntry]; apply execPowerStateEntry_runs
  case' drawAverageCrossing => rw [exec_drawAverageCrossing]; apply execDrawAverageCrossing_runs
  case' peakWindowExpiry => rw [exec_peakWindowExpiry]; apply execPeakWindowExpiry_runs
  case' peakSpentRecheck => rw [exec_peakSpentRecheck]; apply execPeakSpentRecheck_runs
  case' clockStepUpTimer => rw [exec_clockStepUpTimer]; apply execClockStepUpTimer_runs
  case' peakRecovery => rw [exec_peakRecovery]; apply execPeakRecovery_runs
  case' deniedExit => rw [exec_deniedExit]; apply execDeniedExit_runs
  case' junctionTempCrossing => rw [exec_junctionTempCrossing]; apply execJunctionTempCrossing_runs
  case' thermalStepUp => rw [exec_thermalStepUp]; apply execThermalStepUp_runs
  case' flashTempCrossing => rw [exec_flashTempCrossing]; apply execFlashTempCrossing_runs
  case' pwrDisAssert => rw [exec_pwrDisAssert]; apply execPwrDisAssert_runs
  case' pwrDisDeassert => rw [exec_pwrDisDeassert]; apply execPwrDisDeassert_runs
  case' auxPowerUp => rw [exec_auxPowerUp]; apply execAuxPowerUp_runs
  case' auxPowerLoss => rw [exec_auxPowerLoss]; apply execAuxPowerLoss_runs
  case' boot => rw [exec_boot]; apply execBoot_runs
  case' keeperReady => rw [exec_keeperReady]; apply execKeeperReady_runs
  case' keeperReadyTimeout => rw [exec_keeperReadyTimeout]; apply execKeeperReadyTimeout_runs
  case' setEndpointId => rw [exec_setEndpointId]; apply execSetEndpointId_runs
  case' getEndpointId => rw [exec_getEndpointId]; apply execGetEndpointId_runs
  case' getMctpVersionSupport => rw [exec_getMctpVersionSupport]; apply execGetMctpVersionSupport_runs
  case' getMessageTypeSupport => rw [exec_getMessageTypeSupport]; apply execGetMessageTypeSupport_runs
  case' getVendorDefinedMessageSupport => rw [exec_getVendorDefinedMessageSupport]; apply execGetVendorDefinedMessageSupport_runs
  case' readNvmeMiDataStructure => rw [exec_readNvmeMiDataStructure]; apply execReadNvmeMiDataStructure_runs
  case' nvmSubsystemHealthStatusPoll => rw [exec_nvmSubsystemHealthStatusPoll]; apply execNvmSubsystemHealthStatusPoll_runs
  case' controllerHealthStatusPoll => rw [exec_controllerHealthStatusPoll]; apply execControllerHealthStatusPoll_runs
  case' configurationSet => rw [exec_configurationSet]; apply execConfigurationSet_runs
  case' configurationGet => rw [exec_configurationGet]; apply execConfigurationGet_runs
  case' vpdRead => rw [exec_vpdRead]; apply execVpdRead_runs
  case' nvmeMiReset => rw [exec_nvmeMiReset]; apply execNvmeMiReset_runs
  case' sensorRead => rw [exec_sensorRead]; apply execSensorRead_runs
  case' nvmeMiAdminCommand => rw [exec_nvmeMiAdminCommand]; apply execNvmeMiAdminCommand_runs
  case' nvmeMiUnsupportedCommand => rw [exec_nvmeMiUnsupportedCommand]; apply execNvmeMiUnsupportedCommand_runs
  case' getVersion => rw [exec_getVersion]; apply execGetVersion_runs
  case' getCapabilities => rw [exec_getCapabilities]; apply execGetCapabilities_runs
  case' negotiateAlgorithms => rw [exec_negotiateAlgorithms]; apply execNegotiateAlgorithms_runs
  case' getDigests => rw [exec_getDigests]; apply execGetDigests_runs
  case' getCertificate => rw [exec_getCertificate]; apply execGetCertificate_runs
  case' challenge => rw [exec_challenge]; apply execChallenge_runs
  case' getMeasurements => rw [exec_getMeasurements]; apply execGetMeasurements_runs
  case' keyExchange => rw [exec_keyExchange]; apply execKeyExchange_runs
  case' pcieLinkUp => rw [exec_pcieLinkUp]; apply execPcieLinkUp_runs
  case' controllerEnable => rw [exec_controllerEnable]; apply execControllerEnable_runs
  case' coolantLimitCrossing => rw [exec_coolantLimitCrossing]; apply execCoolantLimitCrossing_runs
  case' junctionCooldown => rw [exec_junctionCooldown]; apply execJunctionCooldown_runs
  any_goals exact Runs.refl _ s
  all_goals exact List.mem_of_elem_eq_true rfl

/-- The queue is no memory: taking a command off it leaves their form. -/
@[simp] theorem State.memoryWf_pending (s : State) (l : List Instr) : ({ s with pending := l } : State).memoryWf ↔ s.memoryWf :=
  Iff.rfl

theorem exec_keeps_memoryWf {c : Instr} {s t : State} (hwf : s.memoryWf) (h : exec c s = .next t) : t.memoryWf :=
  ((exec_ends c s).of_eq h).wf hwf

theorem State.tick_keeps_memoryWf {s : State} (hwf : s.memoryWf) : s.tick.memoryWf :=
  (State.tick_runs (W := [.fabric, .power]) (by decide) (by decide) (Runs.refl _ s)).wf hwf

theorem step_of_empty {s : State} (h : s.pending = []) : step s = .next s.tick := by
  simp only [step, h]

theorem step_of_command {s : State} {c : Instr} {rest : List Instr} (h : s.pending = c :: rest) :
    step s = exec c { s with pending := rest } := by
  simp only [step, h]

/-- Settles O4: a step is a tick or the command in front, and each keeps the form. -/
theorem stepKeepsMemoryForm : Obligations.StepKeepsMemoryForm := by
  intro s t hwf hstep
  cases hq : s.pending with
  | nil =>
    rw [step_of_empty hq] at hstep
    cases hstep
    exact State.tick_keeps_memoryWf hwf
  | cons c rest =>
    rw [step_of_command hq] at hstep
    exact exec_keeps_memoryWf ((State.memoryWf_pending s rest).mpr hwf) hstep

end Sys2Proof.Machine
end

section
/-! Module memory, reset, links and local counts (spec/02 R26, R29 to R31, R38 to R42, R45): O6, O7, O8, O9. -/

namespace Sys2Proof.Machine

/-! ## Module memory (R30, R31) -/

theorem State.writeMem_nil (s : State) (a : Nat) : s.writeMem a [] = s := rfl

theorem State.writeMem_mem {b : Bytes} (s : State) (a : Nat) (h : b ≠ []) : (s.writeMem a b).mem = Tab.setRange 0 s.mem a b := by
  simp only [State.writeMem, h, if_false]

theorem State.writeMem_undef {b : Bytes} (s : State) (a : Nat) (h : b ≠ []) :
    (s.writeMem a b).undef = undefCut a (a + b.length) s.undef := by
  simp only [State.writeMem, h, if_false]

/-- A byte written reads as it was written: it lies in no undefined range any more. -/
theorem State.byteAt_writeMem_inside (s : State) (a : Nat) (b : Bytes) {i : Nat} (hi : i < b.length) :
    (s.writeMem a b).byteAt (a + i) = b[i] := by
  have hb : b ≠ [] := List.ne_nil_of_length_pos (by omega)
  simp only [State.byteAt, State.writeMem_mem s a hb, State.writeMem_undef s a hb,
    undefAt_cut_inside s.undef (show a ≤ a + i ∧ a + i < a + b.length by omega)]
  exact Tab.get_setRange_inside b s.mem a i hi

theorem State.byteAt_writeMem_outside (s : State) (a : Nat) (b : Bytes) {x : Nat} (hx : x < a ∨ a + b.length ≤ x) :
    (s.writeMem a b).byteAt x = s.byteAt x := by
  by_cases hb : b = []
  · rw [hb, State.writeMem_nil]
  · simp only [State.byteAt, State.writeMem_mem s a hb, State.writeMem_undef s a hb, undefAt_cut_outside s.undef hx,
      Tab.get_setRange_outside b s.mem a x hx]

/-- Settles O7: a write defines its bytes and touches no other. The canonical form is not used: `Tab.set` reads back in any table. -/
theorem memoryReadsBackWhatIsWritten : Obligations.MemoryReadsBackWhatIsWritten :=
  fun s a b _ => ⟨fun _ hi => s.byteAt_writeMem_inside a b hi, fun _ hx => s.byteAt_writeMem_outside a b hx⟩

/-! ## Reset -/

/-- No crossing queue is listed at reset: each has its default, the empty queue. -/
theorem State.reset_xq (q : Nat) : State.reset.xq q = {} := rfl

theorem State.reset_count (d : Die) : State.reset.count d = 0 := by cases d <;> rfl

theorem State.reset_mb (k : Nat) : State.reset.amp.mb k = {} := by
  match k with
  | 0 | 1 | _ + 2 => rfl

theorem State.reset_memoryWf : State.reset.memoryWf := ⟨rfl, rfl, rfl⟩

/-- Settles O6: every part named holds its default at reset. -/
theorem resetHoldsWhatTheSpecGives : Obligations.ResetHoldsWhatTheSpecGives := by
  refine ⟨rfl, State.reset_count, rfl, fun q => ?status, fun q => ?ctrl, rfl, rfl, fun k _ => ?mailbox, State.reset_memoryWf⟩
  case status => rw [State.reset_xq]; rfl
  case ctrl => rw [State.reset_xq]; rfl
  case mailbox => rw [State.reset_mb]

/-! ## Local counts (R40) -/

@[simp] theorem State.modCount_latch_count (s : State) (d e : Die) (n : Nat) :
    (s.modCount d fun c => { c with latch := n }).count e = s.count e := by
  cases d <;> cases e <;> rfl

/-- Settles O9: the count and the latched half are of one state, the one before the read. -/
theorem countReadIsOfOneInstant : Obligations.CountReadIsOfOneInstant := by
  intro s d whole
  have hframe : Frame [.fabric, .answer] s (countLoRead d whole s) :=
    (State.reply_runs (by decide) (State.modFabric_runs (by decide) (Runs.refl _ s) _) _).frame
  refine ⟨countLoRead d whole s, rfl, hframe, rfl, fun e => State.modCount_latch_count s d e _, ?latch, ?pair, ?xq, ?links, ?msix⟩
  all_goals cases d <;> rfl

/-! ## Links (R26, R29) -/

@[simp] theorem Link.replays_setReplays_same (x : Link) (far : Bool) (n : Nat) : (x.setReplays far n).replays far = n := by
  cases far <;> rfl

@[simp] theorem Link.replays_setReplays_other (x : Link) (far : Bool) (n : Nat) :
    (x.setReplays far n).replays (!far) = x.replays (!far) := by
  cases far <;> rfl

@[simp] theorem Link.setReplays_state (x : Link) (far : Bool) (n : Nat) : (x.setReplays far n).state = x.state := by
  cases far <;> rfl

theorem linkFlit_good {s : State} {l : LinkId} (far : Bool) (hup : (s.link l).state = .up) :
    linkFlit l far true s = s.setLink l ((s.link l).setReplays far 0) := by
  simp [linkFlit, hup]

theorem linkFlit_replayed {s : State} {l : LinkId} {far : Bool} (hup : (s.link l).state = .up) (hfew : (s.link l).replays far < 16) :
    linkFlit l far false s = (s.setLink l ((s.link l).setReplays far ((s.link l).replays far + 1))).report (linkEnd l far)
      { cls := .linkReplay, source := l.source, partner := partnerLink } := by
  simp [linkFlit, hup, Nat.not_le.mpr hfew]

theorem linkFlit_retrains {s : State} {l : LinkId} {far : Bool} (hup : (s.link l).state = .up)
    (hmany : 16 ≤ (s.link l).replays far) :
    linkFlit l far false s = s.setLink l { (s.link l) with state := .retraining } := by
  simp [linkFlit, hup, hmany]

/-- Every report is counted, whether it opens a record, joins one or is dropped (R427). -/
theorem Conc.report_reports (c : Conc) (d : Die) (now : Nat) (r : Report) :
    (c.report d now r).1.reports = satAdd (2 ^ 32 - 1) c.reports 1 := by
  unfold Conc.report
  dsimp only
  repeat' split
  all_goals rfl

theorem State.report_counted (s : State) (d : Die) (r : Report) :
    ((s.report d r).faults.conc d).reports = satAdd (2 ^ 32 - 1) (s.faults.conc d).reports 1 := by
  rw [State.report_faults, Faults.conc_setConc, Conc.report_reports]

/-- A link whose retraining fails is lost before it is isolated: it stands in the list of lost units and nowhere else in it. -/
theorem linkRetrained_lost {s : State} {l : LinkId} (d : Die) (h : (s.link l).state = .retraining) :
    LostUnit.link l.key ∈ (linkRetrained l d false s).faults.lost
      ∧ (linkRetrained l d false s).fabric = (s.setLink l { state := .lost }).fabric := by
  simp [linkRetrained, h]

theorem State.lostUnit_of_mem {s : State} {u : LostUnit} (h : u ∈ s.faults.lost) : s.lostUnit u = s := by
  simp [State.lostUnit, h]

@[simp] theorem State.linkCrimson_fabric (s : State) (key : Nat) : (s.linkCrimson key).fabric = s.fabric := rfl
@[simp] theorem State.linkCrimson_faults (s : State) (key : Nat) : (s.linkCrimson key).faults = s.faults := rfl
@[simp] theorem State.setLink_faults (s : State) (l : LinkId) (x : Link) : (s.setLink l x).faults = s.faults := rfl
@[simp] theorem State.setLink_xq (s : State) (l : LinkId) (x : Link) : (s.setLink l x).fabric.xq = s.fabric.xq := rfl
@[simp] theorem State.setLink_hd (s : State) (l : LinkId) (x : Link) : (s.setLink l x).fabric.hd = s.fabric.hd := rfl

/-- Links are read from the fabric alone. -/
theorem State.link_congr {s t : State} (h : t.fabric = s.fabric) (l : LinkId) : t.link l = s.link l := by
  simp only [State.link, h]

/-- A link in the list of lost units that takes no die with it: it is marked lost, and the attempts that run across it have met its
fault. -/
theorem State.isolateLink_alone {s : State} {l : LinkId} (hlost : LostUnit.link l.key ∈ s.faults.lost) (h1 : l.key ≠ 1)
    (h2 : l.key ≠ 2) : s.isolateLink l.key = (s.setLink l { state := .lost }).linkCrimson l.key := by
  have hkept : (s.setLink l { state := .lost }).lostUnit (.link l.key) = s.setLink l { state := .lost } := State.lostUnit_of_mem hlost
  unfold State.isolateLink
  dsimp only
  split
  · contradiction
  · contradiction
  · exact congrArg (State.linkCrimson · l.key) hkept

theorem execLinkRetrainDone_up {s : State} {l : LinkId} (d : Die) (h : (s.link l).state = .retraining) :
    execLinkRetrainDone l d true s = .next (s.setLink l {}) := by
  simp [execLinkRetrainDone, linkRetrained, h]

theorem execLinkRetrainDone_lost {s : State} {l : LinkId} (d : Die) (h : (s.link l).state = .retraining) :
    execLinkRetrainDone l d false s = .next ((linkRetrained l d false s).isolateLink l.key) := by
  simp [execLinkRetrainDone, h]

/-- Settles O8: one clause per outcome of a flit and of a retraining. -/
theorem linkReplaysThenRetrains : Obligations.LinkReplaysThenRetrains := by
  refine ⟨?good, ?replayed, ?retrains, ?up, ?lost⟩
  case good =>
    intro s l far hup
    refine ⟨s.setLink l ((s.link l).setReplays far 0), ?_, (State.modFabric_runs (by decide) (Runs.refl _ s) _).frame, ?_⟩
    · rw [exec_linkFlitReceive, execLinkFlitReceive, linkFlit_good far hup]
    · simp +contextual [hup]
  case replayed =>
    intro s l far hup hfew
    refine ⟨_, by rw [exec_linkFlitReceive, execLinkFlitReceive, linkFlit_replayed hup hfew], ?_, State.report_fabric _ _ _,
      State.report_counted _ _ _⟩
    exact (State.report_runs (by decide) (by decide) (State.modFabric_runs (by decide) (Runs.refl _ s) _) _ _).frame
  case retrains =>
    intro s l far hup hmany
    rw [exec_linkFlitReceive, execLinkFlitReceive, linkFlit_retrains hup hmany]
  case up =>
    intro s l d h
    rw [exec_linkRetrainDone, execLinkRetrainDone_up d h]
  case lost =>
    intro s l d h h1 h2
    obtain ⟨hlost, hfabric⟩ := linkRetrained_lost d h
    refine ⟨_, by rw [exec_linkRetrainDone, execLinkRetrainDone_lost d h], ?_⟩
    rw [State.isolateLink_alone hlost h1 h2]
    refine ⟨hlost, ?_, ?_, ?_⟩
    · rw [State.link_congr (State.linkCrimson_fabric _ _), State.link_setLink, if_pos rfl]
    · simp [hfabric]
    · simp [hfabric]

end Sys2Proof.Machine
end

section
/-! Crossing queues (spec/02 R41 to R49): what each operation makes of a queue, and O10, O11, O12, O13. -/

namespace Sys2Proof.Machine

/-! ## The operations of a queue by itself -/

theorem XQueue.write_full {x : XQueue} (w : Bytes) (bad : Bool) (h : x.fullWrite = true) :
    x.write w bad = { x with overrun := true, overrunCount := satAdd 65535 x.overrunCount 1 } := by
  simp only [XQueue.write, h, if_true]

theorem XQueue.write_packs {x : XQueue} {w : Bytes} (bad : Bool) (hroom : x.fullWrite = false)
    (hshort : x.part.length + w.length < 64) : x.write w bad = { x with part := x.part ++ w, partBad := x.partBad || bad } := by
  simp [XQueue.write, hroom, Nat.not_le.mpr hshort]

theorem XQueue.write_completes {x : XQueue} {w : Bytes} (bad : Bool) (hroom : x.fullWrite = false)
    (hlong : 64 ≤ x.part.length + w.length) :
    x.write w bad = { x with flight := x.flight ++ [⟨(x.part ++ w).take 64, 0, x.partBad || bad⟩], part := [], partBad := false } := by
  simp [XQueue.write, hroom, hlong]

theorem XQueue.flush_part {x : XQueue} (h : x.part ≠ []) :
    x.flush = { x with
      flushReq := false, part := [], partBad := false
      flight := x.flight ++ [⟨x.part ++ List.replicate (64 - x.part.length) 0, x.part.length % 64, x.partBad⟩] } := by
  simp only [XQueue.flush, h, if_false]

theorem XQueue.flush_none {x : XQueue} (h : x.part = []) : x.flush = { x with flushReq := false } := by
  simp only [XQueue.flush, h, if_true]

theorem XQueue.read_empty {x : XQueue} (h : x.ready = []) : x.read = ({ x with underrun := true }, emptyRead) := by
  simp only [XQueue.read, h]

theorem XQueue.read_word {x : XQueue} {w : XWord} {ws : List XWord} (h : x.ready = w :: ws) :
    x.read = ({ x with
        ready := ws, freed := x.freed + 1, poisonSeen := x.poisonSeen || w.bad
        poisonCount := if w.bad then satAdd 65535 x.poisonCount 1 else x.poisonCount },
      .queueWord w.data w.valid w.bad false) := by
  simp only [XQueue.read, h]

theorem XQueue.arrive_crossing {x : XQueue} {n : Nat} (hlevel : x.level ≠ 0) (hbefore : x.ready.length < x.level)
    (hafter : x.level ≤ x.ready.length + (x.flight.take n).length) :
    x.arrive n = { x with
      flight := x.flight.drop n, ready := x.ready ++ x.flight.take n, thresh := true
      interrupts := x.interrupts + b2n x.threshIe } := by
  have hcross : x.crosses x.ready.length (x.ready ++ x.flight.take n).length = true := by
    simp only [XQueue.crosses, List.length_append, hlevel, hbefore, hafter, decide_true, Bool.and_self, ne_eq, not_false_eq_true]
  exact if_pos hcross

theorem XQueue.arrive_not_crossing {x : XQueue} {n : Nat} (h : x.level = 0 ∨ x.level ≤ x.ready.length
    ∨ x.ready.length + (x.flight.take n).length < x.level) :
    x.arrive n = { x with flight := x.flight.drop n, ready := x.ready ++ x.flight.take n } := by
  have hcross : ¬ x.crosses x.ready.length (x.ready ++ x.flight.take n).length = true := by
    simp only [XQueue.crosses, List.length_append, Bool.and_eq_true, decide_eq_true_eq]
    omega
  exact if_neg hcross

/-! ## The status word (R42, R45) -/

/-- The status bits stand above the fill count. -/
theorem XQueue.statusWord_fill {x : XQueue} (h : x.ready.length ≤ 64) : x.statusWord % 128 = x.ready.length := by
  unfold XQueue.statusWord
  omega

theorem b2n_le_one (b : Bool) : b2n b ≤ 1 := by cases b <;> decide

/-- A queue with nothing readable shows neither a fill count nor FULL. -/
theorem XQueue.statusWord_of_empty {x : XQueue} (h : x.ready = []) : x.statusWord % 128 = 0 ∧ bit x.statusWord 15 = false := by
  have hlt : x.statusWord < 2 ^ 15 := by
    have h1 := b2n_le_one x.poisonSeen
    have h2 := b2n_le_one x.underrun
    have h3 := b2n_le_one x.overrun
    have h4 := b2n_le_one x.thresh
    simp only [XQueue.statusWord, h, List.length_nil, show b2n (0 == 0) = 1 from rfl, show b2n (0 == 64) = 0 from rfl]
    omega
  refine ⟨by rw [XQueue.statusWord_fill (by simp [h]), h]; rfl, ?_⟩
  rw [bit, Nat.div_eq_of_lt hlt]
  rfl

/-! ## The state around a queue -/

@[simp] theorem State.modChannelOf_fabric (s : State) (q : Nat) (f : Pipe → Pipe) : (s.modChannelOf q f).fabric = s.fabric := by
  unfold State.modChannelOf
  split <;> rfl

theorem State.modChannelOf_high {s : State} {q : Nat} (f : Pipe → Pipe) (h : 32 ≤ q) : s.modChannelOf q f = s :=
  if_neg (Nat.not_lt.mpr h)

theorem State.modChannelOf_low {s : State} {q : Nat} (f : Pipe → Pipe) (h : q < 32) :
    s.modChannelOf q f = s.modPipes fun p => { p with chans := Tab.mod {} p.chans q f } :=
  if_pos h

/-- Queues are read from the fabric alone. -/
theorem State.xq_congr {s t : State} (h : t.fabric = s.fabric) (q : Nat) : t.xq q = s.xq q := by
  simp only [State.xq, h]

/-- Changing a queue changes the fabric in a way that depends on the fabric alone. -/
theorem State.modXq_fabric_congr {s t : State} (h : t.fabric = s.fabric) (q : Nat) (f : XQueue → XQueue) :
    (t.modXq q f).fabric = (s.modXq q f).fabric := by
  simp only [State.modXq, State.modFabric_fabric, h]

@[simp] theorem State.xq_modChannelOf (s : State) (q k : Nat) (f : Pipe → Pipe) : (s.modChannelOf q f).xq k = s.xq k :=
  State.xq_congr (State.modChannelOf_fabric s q f) k

/-- RESET empties the queue and leaves the others (R49); beside it a channel loses what the merge-select unit has not read. -/
theorem State.xq_resetXq (s : State) (q k : Nat) : (s.resetXq q).xq k = if k = q then (s.xq q).reset else s.xq k := by
  rw [State.resetXq, State.xq_modChannelOf, State.xq_modXq]

theorem XQueue.reset_fullWrite (x : XQueue) : x.reset.fullWrite = false := rfl

/-! ## The commands -/

theorem execCqWrite_full {s : State} {q : Fin 64} (w : Bytes) (bad : Bool) (hfull : (s.xq q).fullWrite = true)
    (hidle : q.val < 32 → (s.pipe q).run = none) :
    execCqWrite q w bad false s = .next (s.modXq q fun x =>
      { x with overrun := true, overrunCount := satAdd 65535 x.overrunCount 1 }) := by
  have hwrite : (s.modXq q fun x => x.write (w.take (xqWidth q)) bad) = s.modXq q fun x =>
      { x with overrun := true, overrunCount := satAdd 65535 x.overrunCount 1 } :=
    State.modXq_congr (XQueue.write_full _ bad hfull)
  by_cases hq : q.val < 32
  · simp [execCqWrite, hfull, hidle hq, hwrite]
  · simp [execCqWrite, hfull, hq, hwrite]

/-- A write that is accepted: the word goes into the queue, and into its channel's list of words sent. -/
theorem execCqWrite_room {s : State} {q : Fin 64} (w : Bytes) (bad : Bool) (hroom : (s.xq q).fullWrite = false) :
    execCqWrite q w bad false s = .next ((s.modChannelOf q fun p =>
      { p with sent := p.sent ++ [(p.dest, w.take (xqWidth q), bad)] }).modXq q fun x => x.write (w.take (xqWidth q)) bad) := by
  simp [execCqWrite, hroom]

theorem execCqWrite_room_high {s : State} {q : Fin 64} (w : Bytes) (bad : Bool) (hq : 32 ≤ q.val)
    (hroom : (s.xq q).fullWrite = false) :
    execCqWrite q w bad false s = .next (s.modXq q fun x => x.write (w.take 8) bad) := by
  rw [execCqWrite_room w bad hroom, State.modChannelOf_high _ hq, xqWidth, if_neg (Nat.not_lt.mpr hq)]

theorem execCqRead_empty {s : State} {q : Fin 64} (h : (s.xq q).ready = []) :
    execCqRead q false s = .next ((s.modXq q fun x => { x with underrun := true }).reply emptyRead) := by
  have hread : (s.modXq q fun x => x.read.1) = s.modXq q fun x => { x with underrun := true } :=
    State.modXq_congr (congrArg Prod.fst (XQueue.read_empty h))
  simp [execCqRead, h, hread, XQueue.read_empty h]

theorem execCqRead_word {s : State} {q : Fin 64} {w : XWord} {ws : List XWord} (h : (s.xq q).ready = w :: ws) :
    execCqRead q false s = .next (((s.modChannelOf q fun p => p.readWord w).modXq q fun x => x.read.1).reply
      (.queueWord w.data w.valid w.bad false)) := by
  simp [execCqRead, h, XQueue.read_word h]

/-- A read in the cycle of a RESET finds the queue empty (R48). -/
theorem execCqRead_reset (q : Fin 64) (s : State) :
    execCqRead q true s = .next (((s.resetXq q).modXq q fun x => { x with underrun := true }).reply emptyRead) := rfl

/-- On a channel with no job begun the write side's sight of a free word starts nothing. -/
theorem State.pump_idle {s : State} {ch : Nat} (h : (s.pipe ch).run = none) : s.pump ch = s := by
  simp only [State.pump, h]

theorem State.advance_idle {s : State} {ch : Nat} (hrun : (s.pipe ch).run = none) (hahead : (s.pipe ch).ahead = none) :
    s.advance ch = s := by
  simp only [State.advance, State.fetchFor, hrun, hahead, State.tryFeed]

theorem execCqFreeVisible_high {s : State} {q : Fin 64} (hq : 32 ≤ q.val) :
    execCqFreeVisible q s = .next (s.modXq q fun x => { x with freed := x.freed - 1 }) := by
  simp [execCqFreeVisible, Nat.not_lt.mpr hq]

theorem execCqFreeVisible_idle {s : State} {q : Fin 64} (hrun : (s.pipe q).run = none) (hahead : (s.pipe q).ahead = none) :
    execCqFreeVisible q s = .next (s.modXq q fun x => { x with freed := x.freed - 1 }) := by
  have hpump (f : XQueue → XQueue) : (s.modXq q f).pump q = s.modXq q f := State.pump_idle hrun
  have hadvance (f : XQueue → XQueue) : (s.modXq q f).advance q = s.modXq q f := State.advance_idle hrun hahead
  simp [execCqFreeVisible, hpump, hadvance]

/-- Words of good parity become readable and nobody is told (R44). -/
theorem execCqWordReadable_good {s : State} {q : Fin 64} {n : Nat} (h : ∀ w ∈ (s.xq q).flight.take n, w.bad = false) :
    execCqWordReadable q n s = .next (s.modXq q fun x => x.arrive n) := by
  rw [execCqWordReadable, reportBad_good _ _ _ h]

/-! ## The obligations -/

/-- Settles O10, by whether the queue is full, packs or completes a word, and by what is readable. -/
theorem crossingWordsArePackedAndReadInOrder : Obligations.CrossingWordsArePackedAndReadInOrder := by
  refine ⟨?full, ?packs, ?completes, ?channel, ?word, ?empty, ?free, ?freeChannel⟩
  case full =>
    intro s q w bad hfull hidle
    exact execCqWrite_full w bad hfull hidle
  case packs =>
    intro s q w bad hq hroom hshort
    exact (execCqWrite_room_high w bad hq hroom).trans
      (congrArg _ (State.modXq_congr (XQueue.write_packs bad hroom hshort)))
  case completes =>
    intro s q w bad hq hroom hlong
    exact (execCqWrite_room_high w bad hq hroom).trans
      (congrArg _ (State.modXq_congr (XQueue.write_completes bad hroom hlong)))
  case channel =>
    intro s q w bad hq hroom
    have hwidth : xqWidth q = 16 := if_pos hq
    refine ⟨_, execCqWrite_room w bad hroom, ?_, ?_⟩
    · rw [hwidth]
      exact State.modXq_fabric_congr (State.modChannelOf_fabric s _ _) _ _
    · rw [hwidth, State.modChannelOf_low _ hq]
      rfl
  case word =>
    intro s q w ws h
    have hends := execCqRead_runs (W := [.fabric, .pipes, .answer]) (by decide) (by decide) (by decide) (Runs.refl _ s) q false
    refine ⟨_, execCqRead_word h, (hends.of_eq (execCqRead_word h)).frame, rfl, ?_⟩
    rw [State.reply_fabric, State.modXq_fabric_congr (State.modChannelOf_fabric s _ _)]
    exact congrArg State.fabric (State.modXq_congr (congrArg Prod.fst (XQueue.read_word h)))
  case empty =>
    intro s q h
    exact execCqRead_empty h
  case free =>
    intro s q hq
    exact execCqFreeVisible_high hq
  case freeChannel =>
    intro s q _ hrun hahead
    exact ⟨_, execCqFreeVisible_idle hrun hahead, rfl⟩

/-- Settles O11, from what a flush makes of the part-packed word and a read of an empty queue. -/
theorem crossingFlushPadsAndTags : Obligations.CrossingFlushPadsAndTags :=
  ⟨fun _ h => XQueue.statusWord_fill h,
    fun _ _ h _ => execCqRead_empty h,
    fun _ _ h => congrArg Host.Outcome.next (State.modXq_congr (XQueue.flush_part h)),
    fun _ _ h => congrArg Host.Outcome.next (State.modXq_congr (XQueue.flush_none h)),
    fun _ _ => rfl⟩

/-- Settles O12, by whether the fill count crosses the level. -/
theorem crossingThresholdIsAnUpwardCrossing : Obligations.CrossingThresholdIsAnUpwardCrossing := by
  refine ⟨?crosses, ?stays, ?level, ?beyond⟩
  case crosses =>
    intro s q n hgood hlevel hbefore hafter
    exact (execCqWordReadable_good hgood).trans (congrArg _ (State.modXq_congr (XQueue.arrive_crossing hlevel hbefore hafter)))
  case stays =>
    intro s q n hgood h
    exact (execCqWordReadable_good hgood).trans (congrArg _ (State.modXq_congr (XQueue.arrive_not_crossing h)))
  case level =>
    intro s q v hv
    exact congrArg Host.Outcome.next (if_pos hv)
  case beyond =>
    intro s q v hv _
    exact congrArg Host.Outcome.next (if_neg (by omega))

/-- Settles O13: RESET is `XQueue.reset` on the queue; a read in its cycle adds UNDERRUN. -/
theorem crossingResetEmptiesTheQueue : Obligations.CrossingResetEmptiesTheQueue := by
  refine ⟨?reset, fun _ _ _ _ => ⟨rfl, rfl⟩, ?read, ?counts⟩
  case reset =>
    intro s q
    have hends := execCqReset_runs (W := [.fabric, .pipes]) (by decide) (by decide) (Runs.refl _ s) q
    have hq : (s.resetXq q).xq q = (s.xq q).reset := by rw [State.xq_resetXq, if_pos rfl]
    obtain ⟨hfill, hfull⟩ := XQueue.statusWord_of_empty (x := (s.xq q).reset) rfl
    refine ⟨s.resetXq q, rfl, (ends_next.mp hends).frame, ?_⟩
    simp only [hq]
    exact ⟨rfl, rfl, rfl, hfill, hfull, XQueue.reset_fullWrite _, rfl, rfl, rfl, rfl, rfl, rfl, rfl, rfl,
      fun k hk => by rw [State.xq_resetXq, if_neg hk]⟩
  case read =>
    intro s q
    refine ⟨_, execCqRead_reset q s, rfl, ?_⟩
    have hq : (((s.resetXq q).modXq q fun x => { x with underrun := true }).reply emptyRead).xq q
        = { (s.xq q).reset with underrun := true } := by
      rw [State.xq_congr (State.reply_fabric _ _), State.xq_modXq, if_pos rfl, State.xq_resetXq, if_pos rfl]
    rw [hq]
    exact ⟨rfl, rfl, rfl, rfl⟩
  case counts =>
    intro s q
    refine ⟨_, rfl, rfl, ?_⟩
    rw [State.xq_modXq, if_pos rfl]
    exact ⟨rfl, rfl⟩

end Sys2Proof.Machine
end

section
/-! Supplies, pins and the host's way in (spec/02 R38, spec/03 R50, R52, R68, spec/20 R448, spec/22 R479, R480, R486), and O16. -/

namespace Sys2Proof.Machine

/-! ## The controllers -/

@[simp] theorem State.ctrl_modCtrl (s : State) (fn : Nat) (f : Ctrl → Ctrl) : (s.modCtrl fn f).ctrl fn = f (s.ctrl fn) := by
  simp only [State.modCtrl, State.ctrl, State.modHost_host, HostSide.ctrl, HostSide.setCtrl]
  split <;> rfl

@[simp] theorem State.hasFn_modCtrl (s : State) (fn k : Nat) (f : Ctrl → Ctrl) : (s.modCtrl k f).hasFn fn = s.hasFn fn := by
  simp only [State.hasFn, State.modCtrl, State.modHost_host, HostSide.setCtrl]
  split <;> rfl

@[simp] theorem State.modCtrl_alive (s : State) (fn : Nat) (f : Ctrl → Ctrl) : (s.modCtrl fn f).alive = s.alive := rfl
@[simp] theorem State.modCtrl_power (s : State) (fn : Nat) (f : Ctrl → Ctrl) : (s.modCtrl fn f).power = s.power := rfl
@[simp] theorem State.modCtrl_sec (s : State) (fn : Nat) (f : Ctrl → Ctrl) : (s.modCtrl fn f).sec = s.sec := rfl

/-! ## The supplies (R38, R480, R486) -/

/-- Without the auxiliary supply the sideband hangs on the 42 V input. -/
theorem State.sideband_auxOff (s : State) : (s.modMgmt fun m => { m with aux := false }).sideband = s.mainOn := rfl

theorem State.hdDown_powered {s : State} (h : s.sideband = true) : s.hdDown = s := by
  simp only [State.hdDown, h, if_true]

/-- What a restart loses of the security state holds no fuse: the parts it passes through before leave that state alone. -/
theorem State.lose_counter (s : State) (ebony : Bool) : (s.lose ebony).sec.counter = s.sec.counter := by
  have hruns : Runs [.free, .media, .ftl, .tiers, .index, .tokens, .sel, .pipes, .span, .upd] s
      ((((s.restartMedia ebony).modFtl Ftl.restart).modTiers fun t => t.restart ebony).restartIndexes.restartEngines ebony) := by
    refine State.restartEngines_runs (by decide) (by decide) (by decide) (by decide) (by decide) ?_ ebony
    refine State.restartIndexes_runs (by decide) (by decide) (by decide) ?_
    exact State.modTiers_runs (by decide) (State.modFtl_runs (by decide)
      (State.restartMedia_runs (by decide) (by decide) (Runs.refl _ s) ebony) _) _
  have hsec := hruns.frame.sec.resolve_left (by decide)
  simp only [State.lose, State.modMgmt_sec, State.modPower_sec, State.modSec_sec, State.modFabric_sec, State.modFaults_sec,
    State.modAmp_sec, State.modHost_sec, hsec]

theorem State.lose_phase (s : State) (ebony : Bool) : (s.lose ebony).sec.phase = .off := rfl

/-- With neither supply the always-on domain starts anew. -/
theorem State.hdDown_unpowered {s : State} (h : s.sideband = false) :
    s.hdDown.mgmt = {} ∧ s.hdDown.fabric.hd = {} ∧ s.hdDown.fabric.pair = none ∧ s.hdDown.amp.m2 = {}
      ∧ s.hdDown.sec = (s.lose true).sec := by
  unfold State.hdDown
  rw [if_neg (by simp [h])]
  exact ⟨rfl, rfl, rfl, rfl, rfl⟩

/-! ## PERST#, the link, CC.EN (R50, R52, R68, R448) -/

theorem execPerstDeassert_ebony {s : State} (fn : Fin 2) (hs : s.alive = true) (h : s.power.ladder = 5) :
    execPerstDeassert fn s = .next ((s.modCtrl fn fun c => { c with perst := false }).leaveEbony 0xFF) := by
  simp [execPerstDeassert, hs, h]

theorem execPerstDeassert_running {s : State} (fn : Fin 2) (hs : s.alive = true) (hl : s.power.ladder ≠ 5)
    (hp : s.sec.phase = .running) :
    execPerstDeassert fn s = .next ((s.modCtrl fn fun c => { c with perst := false }).trainPort fn) := by
  simp [execPerstDeassert, hs, hl, hp]

/-- A port that is down and out of PERST# trains. -/
theorem State.ctrl_trainPort {s : State} {fn : Nat} (hfn : s.hasFn fn = true) (hperst : (s.ctrl fn).perst = false)
    (hport : (s.ctrl fn).port = .down) : (s.trainPort fn).ctrl fn = { s.ctrl fn with port := .training } := by
  rw [State.trainPort, if_pos hfn, State.ctrl_modCtrl]
  simp [hperst, hport]

theorem execPcieLinkUp_trained {s : State} {l : TrainedLink} (hport : (s.ctrl l.fn).port = .training) (h1 : 1 ≤ l.speed)
    (h6 : l.speed ≤ 6) (hwidth : s.host.portWidths.contains l.width = true) :
    execPcieLinkUp l s = .next (s.modCtrl l.fn fun c =>
      { c with port := .up, cfg := true, speed := l.speed, width := l.width, flit := l.flit || l.speed == 6 }) :=
  congrArg Host.Outcome.next (if_pos ⟨hport, h1, h6, hwidth⟩)

theorem State.alive_of_serving {s : State} (h : s.serving = true) : s.alive = true := by
  simp only [State.serving, Bool.and_eq_true] at h
  exact h.1

theorem execControllerEnable_serving {s : State} {fn : Fin 2} {a c : Nat} (hfn : s.hasFn fn = true) (hserving : s.serving = true)
    (hholds : s.sanitizeHolds = false) (hcfg : (s.ctrl fn).cfg = true) (hen : (s.ctrl fn).en = false)
    (hreset : (s.ctrl fn).resetting = false) (ha : 2 ≤ a ∧ a ≤ 4096) (hc : 2 ≤ c ∧ c ≤ 4096) :
    execControllerEnable fn a c s = .next (s.modCtrl fn fun x => { x with
      en := true, rdy := true
      sqs := Tab.put x.sqs 0 { size := a, cq := 0 }, cqs := Tab.put x.cqs 0 { size := c, ien := true } }) := by
  simp [execControllerEnable, hfn, State.alive_of_serving hserving, hserving, hholds, hcfg, hen, hreset, ha, hc]

/-- Settles O16, by the supply or the pin that changes and by what the module does then. -/
theorem suppliesAndPinsBringTheHostIn : Obligations.SuppliesAndPinsBringTheHostIn := by
  refine ⟨?auxUp, ?auxLoss, ?bothLost, ?ebony, ?perst, ?linkUp, ?enable⟩
  case auxUp =>
    intro s a haux
    exact congrArg Host.Outcome.next (if_neg (by simp [haux]))
  case auxLoss =>
    intro s hmain
    exact congrArg Host.Outcome.next (State.hdDown_powered (by rw [State.sideband_auxOff, hmain]))
  case bothLost =>
    intro s hmain
    have hdown : (s.modMgmt fun m => { m with aux := false }).sideband = false := by
      rw [State.sideband_auxOff, hmain]
    obtain ⟨hmgmt, hhd, hpair, hm2, hsec⟩ := State.hdDown_unpowered hdown
    refine ⟨_, rfl, hmgmt, hhd, hpair, hm2, ?_, ?_⟩
    · rw [hsec, State.lose_phase]
    · rw [hsec, State.lose_counter, State.modMgmt_sec]
  case ebony =>
    intro s fn hs h
    rw [exec_perstDeassert, execPerstDeassert_ebony fn hs h]
    rfl
  case perst =>
    intro s fn hs hl hp hfn hport
    have hrun := execPerstDeassert_running fn hs hl hp
    have hctrl := State.ctrl_trainPort (s := s.modCtrl fn fun c => { c with perst := false }) (fn := fn) (by simpa using hfn)
      (by simp) (by simpa using hport)
    refine ⟨_, hrun, ?_, ?_, ?_⟩
    · exact (State.trainPort_runs (by decide) (State.modCtrl_runs (by decide) (Runs.refl _ s) _ _) _).frame
    · rw [hctrl, State.ctrl_modCtrl]
    · rw [hctrl]
  case linkUp =>
    intro s fn speed width flit hport h1 h6 hwidth
    rw [exec_pcieLinkUp, execPcieLinkUp_trained (l := ⟨fn, speed, width, flit⟩) hport h1 h6 hwidth]
  case enable =>
    intro s fn a c hfn hserving hholds hcfg hen hreset ha ha' hc hc'
    refine ⟨_, execControllerEnable_serving hfn hserving hholds hcfg hen hreset ⟨ha, ha'⟩ ⟨hc, hc'⟩,
      (State.modCtrl_runs (by decide) (Runs.refl _ s) _ _).frame, ?_⟩
    rw [State.ctrl_modCtrl]
    exact ⟨rfl, rfl, by rw [Tab.find_put, if_pos rfl], by rw [Tab.find_put, if_pos rfl]⟩

end Sys2Proof.Machine
end

section
/-! Queues are created and deleted (spec/02 R35, spec/03 R58, R59, R67, R69): what each admin command does, and O18. -/

namespace Sys2Proof.Machine

/-! ## Creation (R35, R58, R59) -/

theorem admCreateSq_held (fn : Nat) (e : Sqe) (s : State) :
    admCreateSq true fn e s = (s, adminRefusal .commandSequence St.held, []) := rfl

theorem admCreateCq_held (fn : Nat) (e : Sqe) (s : State) :
    admCreateCq true fn e s = (s, adminRefusal .commandSequence St.held, []) := rfl

/-- What a creation asks for beside its completion queue or its vector: a free identifier in the range, two entries at least,
contiguous memory. -/
structure CreationFits (s : State) (e : Sqe) (used : Bool) : Prop where
  nonzero : bits e.cdw10 0 16 ≠ 0
  inRange : bits e.cdw10 0 16 ≤ s.host.maxQueue
  unused : used = false
  size : 1 ≤ bits e.cdw10 16 16
  contiguous : bit e.cdw11 0 = true

theorem admCreateSq_fits {s : State} {fn : Nat} {e : Sqe}
    (h : CreationFits s e (Tab.find (s.ctrl fn).sqs (bits e.cdw10 0 16)).isSome) (hcq : bits e.cdw11 16 16 ≠ 0) :
    admCreateSq false fn e s =
      if (Tab.find (s.ctrl fn).cqs (bits e.cdw11 16 16)).isSome then
        (s.modCtrl fn fun c => { c with
          sqs := Tab.put c.sqs (bits e.cdw10 0 16) { size := bits e.cdw10 16 16 + 1, cq := bits e.cdw11 16 16 } }, {}, [])
      else (s, adminRefusal .cqInvalid St.noObject, []) := by
  obtain ⟨hq, hrange, hnew, hsize, hpc⟩ := h
  cases hfind : Tab.find (s.ctrl fn).cqs (bits e.cdw11 16 16) <;>
    simp [admCreateSq, Admin.refuse, hq, Nat.not_lt.mpr hrange, hnew, Nat.ne_of_gt hsize, hpc, hcq, hfind]

theorem admCreateCq_fits {s : State} {fn : Nat} {e : Sqe}
    (h : CreationFits s e (Tab.find (s.ctrl fn).cqs (bits e.cdw10 0 16)).isSome) (hvector : bits e.cdw11 16 16 ≠ 1)
    (hlast : bits e.cdw11 16 16 ≤ s.host.lastVector) :
    admCreateCq false fn e s = (s.modCtrl fn fun c => { c with
      cqs := Tab.put c.cqs (bits e.cdw10 0 16)
        { size := bits e.cdw10 16 16 + 1, vector := bits e.cdw11 16 16, ien := bit e.cdw11 1 } }, {}, []) := by
  obtain ⟨hq, hrange, hnew, hsize, hpc⟩ := h
  simp [admCreateCq, hq, Nat.not_lt.mpr hrange, hnew, Nat.ne_of_gt hsize, hpc, hvector, Nat.not_lt.mpr hlast]

theorem admCreateCq_vectorOne {s : State} {fn : Nat} {e : Sqe}
    (h : CreationFits s e (Tab.find (s.ctrl fn).cqs (bits e.cdw10 0 16)).isSome) (hvector : bits e.cdw11 16 16 = 1) :
    admCreateCq false fn e s = (s, adminRefusal .invalidVector St.unsupported, []) := by
  obtain ⟨hq, hrange, hnew, hsize, hpc⟩ := h
  simp [admCreateCq, Admin.refuse, hq, Nat.not_lt.mpr hrange, hnew, Nat.ne_of_gt hsize, hpc, hvector]

theorem execCreateIoSq_serves {s : State} {fn : Fin 2} {e : Sqe} {r : State × Cqe × Bytes} (hs : s.adminServes fn = true)
    (h : admCreateSq s.isHeld fn e s = r) : execCreateIoSq fn e s = .next (r.1.adminEnd fn e r.2.1 r.2.2) := by
  rw [execCreateIoSq, State.admin_serves _ _ hs, h]

theorem execCreateIoCq_serves {s : State} {fn : Fin 2} {e : Sqe} {r : State × Cqe × Bytes} (hs : s.adminServes fn = true)
    (h : admCreateCq s.isHeld fn e s = r) : execCreateIoCq fn e s = .next (r.1.adminEnd fn e r.2.1 r.2.2) := by
  rw [execCreateIoCq, State.admin_serves _ _ hs, h]

/-! ## Deletion (R59, R67) -/

theorem admDeleteCq_listed {s : State} {fn : Nat} {e : Sqe} (hq : bits e.cdw10 0 16 ≠ 0)
    (hlisted : Tab.find (s.ctrl fn).cqs (bits e.cdw10 0 16) ≠ none) :
    admDeleteCq fn e s =
      if (s.ctrl fn).sqs.any (fun p => p.2.cq == bits e.cdw10 0 16) then (s, adminRefusal .invalidQueueDeletion St.busy, [])
      else (s.modCtrl fn fun c => { c with cqs := Tab.del c.cqs (bits e.cdw10 0 16) }, {}, []) := by
  have hknown : ¬ (bits e.cdw10 0 16 = 0 ∨ (Tab.find (s.ctrl fn).cqs (bits e.cdw10 0 16)).isNone = true) := by
    simp [hq, hlisted]
  exact if_neg hknown

/-- Changing a queue leaves the tracker alone. -/
theorem State.trk_modSq (s : State) (fn q : Nat) (f : Sq → Sq) : (s.modSq fn q f).host.trk = s.host.trk := by
  simp only [State.modSq, State.modCtrl, State.modHost_host, HostSide.setCtrl]
  split <;> rfl

theorem execDeleteIoSq_listed {s : State} {fn : Fin 2} {e : Sqe} (hs : s.adminServes fn = true) (hq : bits e.cdw10 0 16 ≠ 0)
    (hlisted : Tab.find (s.ctrl fn).sqs (bits e.cdw10 0 16) ≠ none) :
    execDeleteIoSq fn e s = .next (stopAll (fun t => t.fn == fn.val && t.sq == bits e.cdw10 0 16) s.host.trk
      (s.modSq fn (bits e.cdw10 0 16) fun x => { x with deleting := some e.cid })) := by
  obtain ⟨sq, hsq⟩ := Option.ne_none_iff_exists'.mp hlisted
  simp [execDeleteIoSq, hs, hsq, hq, State.trk_modSq]

theorem stopOne_fetched {tag : Nat} {t : Trk} (s : State) (h : t.phase = .fetched) :
    stopOne tag t s = s.complete tag { status := .abortedSqDeletion, dw0 := St.stopped, dw1 := tag } := by
  simp only [stopOne, h]

theorem stopOne_started {tag : Nat} {t : Trk} (s : State) (h : t.phase = .started) :
    stopOne tag t s = if listedVendor t.sqe = true ∧ t.sqe.opc ≠ 0x98 then s.modTrk tag fun t => { t with phase := .stopping }
      else s := by
  simp only [stopOne, h, Bool.and_eq_true, bne_iff_ne]

/-- With no command of the queue left its deletion completes. -/
theorem execDeleteIoSqDone_idle {s : State} {fn : Fin 2} {q cid : Nat} {sq : Sq}
    (hsq : Tab.find (s.sweepStopped.ctrl fn).sqs q = some sq) (hdel : sq.deleting = some cid)
    (hreset : (s.sweepStopped.ctrl fn).resetting = false) (hidle : s.sweepStopped.queueBusy fn q = false) :
    execDeleteIoSqDone fn q s = .next
      ((s.sweepStopped.modCtrl fn fun c => { c with sqs := Tab.del c.sqs q }).adminEnd fn { cid := cid } {} []) := by
  simp [execDeleteIoSqDone, hsq, hdel, hreset, hidle]

/-- Settles O18, by the admin command and by the phase of each command that a deletion stops. -/
theorem queuesAreCreatedAndDeleted : Obligations.QueuesAreCreatedAndDeleted := by
  refine ⟨?createSq, ?held, ?createCq, ?vectorOne, ?deleteCq, ?deleteSq, ?fetched, ?started, ?done⟩
  case createSq =>
    intro s fn e hs hheld hq hrange hnew hsize hpc hcq
    have hadm := admCreateSq_fits (fn := fn) ⟨hq, hrange, by simp [hnew], hsize, hpc⟩ hcq
    rw [exec_createIoSq, execCreateIoSq_serves hs (by rw [hheld, hadm])]
    split <;> rfl
  case held =>
    intro s fn e hs hheld
    rw [exec_createIoSq, exec_createIoCq, execCreateIoSq_serves hs (by rw [hheld, admCreateSq_held]),
      execCreateIoCq_serves hs (by rw [hheld, admCreateCq_held])]
    exact ⟨rfl, rfl⟩
  case createCq =>
    intro s fn e hs hheld hq hrange hnew hsize hpc hvector hlast
    have hadm := admCreateCq_fits (fn := fn) ⟨hq, hrange, by simp [hnew], hsize, hpc⟩ hvector hlast
    rw [exec_createIoCq, execCreateIoCq_serves hs (by rw [hheld, hadm])]
  case vectorOne =>
    intro s fn e hs hheld hq hrange hnew hsize hpc hvector
    have hadm := admCreateCq_vectorOne (fn := fn) ⟨hq, hrange, by simp [hnew], hsize, hpc⟩ hvector
    rw [exec_createIoCq, execCreateIoCq_serves hs (by rw [hheld, hadm])]
  case deleteCq =>
    intro s fn e hs hq hlisted
    rw [exec_deleteIoCq, execDeleteIoCq, State.admin_serves _ _ hs, admDeleteCq_listed hq hlisted]
    split <;> rfl
  case deleteSq =>
    intro s fn e hs hq hlisted
    exact execDeleteIoSq_listed hs hq hlisted
  case fetched =>
    intro s tag t h
    exact stopOne_fetched s h
  case started =>
    intro s tag t h
    exact stopOne_started s h
  case done =>
    intro s fn q sq cid hsq hdel hreset hidle
    exact execDeleteIoSqDone_idle hsq hdel hreset hidle

end Sys2Proof.Machine
end

section
/-! Completions (spec/03 R62): what posting one, freeing a tracker entry and ending a command do, and O17. -/

namespace Sys2Proof.Machine

/-! ## Controllers, queues and the tracker -/

/-- What a change of a controller leaves alone in it is left alone in both. -/
theorem State.ctrl_modCtrl_congr {α : Type} (s : State) (fn k : Nat) {f : Ctrl → Ctrl} (p : Ctrl → α) (h : ∀ c, p (f c) = p c) :
    p ((s.modCtrl fn f).ctrl k) = p (s.ctrl k) := by
  simp only [State.modCtrl, State.ctrl, State.modHost_host, HostSide.ctrl, HostSide.setCtrl]
  by_cases hfn : fn = 0 <;> by_cases hk : k = 0 <;> simp [hfn, hk, h]

@[simp] theorem State.modCtrl_trk (s : State) (fn : Nat) (f : Ctrl → Ctrl) : (s.modCtrl fn f).host.trk = s.host.trk := by
  simp only [State.modCtrl, State.modHost_host, HostSide.setCtrl]
  split <;> rfl

@[simp] theorem State.ctrl_modTrk (s : State) (tag fn : Nat) (f : Trk → Trk) : (s.modTrk tag f).ctrl fn = s.ctrl fn := by
  simp only [State.modTrk, State.ctrl, State.modHost_host]
  cases Tab.find s.host.trk tag <;> rfl

theorem State.modTrk_listed {s : State} {tag : Nat} {t : Trk} (f : Trk → Trk) (h : s.trk tag = some t) :
    s.modTrk tag f = s.modHost fun x => { x with trk := Tab.put x.trk tag (f t) } := by
  rw [State.trk] at h
  simp only [State.modTrk, State.modHost, h]

theorem State.trk_modTrk {s : State} {tag : Nat} {t : Trk} (f : Trk → Trk) (h : s.trk tag = some t) :
    (s.modTrk tag f).trk tag = some (f t) := by
  rw [State.modTrk_listed f h, State.trk, State.modHost_host, Tab.find_put, if_pos rfl]

theorem State.trk_congr {s t : State} (h : t.host.trk = s.host.trk) (tag : Nat) : t.trk tag = s.trk tag := by
  rw [State.trk, State.trk, h]

@[simp] theorem State.trk_modCq (s : State) (fn q tag : Nat) (f : Cq → Cq) : (s.modCq fn q f).trk tag = s.trk tag :=
  State.trk_congr (State.modCtrl_trk _ _ _) tag

@[simp] theorem State.trk_modStats (s : State) (fn tag : Nat) (f : QStats → QStats) : (s.modStats fn f).trk tag = s.trk tag :=
  State.trk_congr (State.modCtrl_trk _ _ _) tag

@[simp] theorem State.cqs_modSq (s : State) (fn q k : Nat) (f : Sq → Sq) : ((s.modSq fn q f).ctrl k).cqs = (s.ctrl k).cqs :=
  s.ctrl_modCtrl_congr fn k (·.cqs) fun c => by split <;> rfl

theorem State.modCq_listed {s : State} {fn q : Nat} {cq : Cq} (f : Cq → Cq) (h : Tab.find (s.ctrl fn).cqs q = some cq) :
    Tab.find ((s.modCq fn q f).ctrl fn).cqs q = some (f cq) := by
  rw [State.modCq, State.ctrl_modCtrl]
  simp only [h, Tab.find_put, if_true]

/-! ## Posting -/

/-- The signal of the vector leaves the host side alone. -/
theorem State.pushCqe_host {s : State} {fn q : Nat} {cq : Cq} (e : Cqe) (h : Tab.find (s.ctrl fn).cqs q = some cq) :
    (s.pushCqe fn q e).host
      = (s.modCq fn q fun c => { c with posted := c.posted ++ [e], tail := (c.tail + 1) % c.size }).host := by
  simp only [State.pushCqe, h]
  split
  · exact State.signal_host _ _ _
  · rfl

theorem State.pushCqe_cq {s : State} {fn q : Nat} {cq : Cq} (e : Cqe) (h : Tab.find (s.ctrl fn).cqs q = some cq) :
    Tab.find ((s.pushCqe fn q e).ctrl fn).cqs q = some { cq with posted := cq.posted ++ [e], tail := (cq.tail + 1) % cq.size } := by
  rw [State.ctrl, State.pushCqe_host e h]
  exact State.modCq_listed _ h

theorem State.pushCqe_trk {s : State} {fn q : Nat} {cq : Cq} (e : Cqe) (h : Tab.find (s.ctrl fn).cqs q = some cq) :
    (s.pushCqe fn q e).host.trk = s.host.trk := by
  rw [State.pushCqe_host e h, State.modCq, State.modCtrl_trk]

/-! ## Freeing a tracker entry -/

theorem State.freeTrk_trk {s : State} {tag : Nat} {t : Trk} (h : s.trk tag = some t) :
    (s.freeTrk tag).host.trk = Tab.del s.host.trk tag := by
  simp only [State.freeTrk, h, State.modCtrl_trk, State.trk_modSq, State.modHost_host]

theorem State.freeTrk_cqs {s : State} {tag : Nat} {t : Trk} (k : Nat) (h : s.trk tag = some t) :
    ((s.freeTrk tag).ctrl k).cqs = (s.ctrl k).cqs := by
  simp only [State.freeTrk, h]
  refine (State.ctrl_modCtrl_congr _ t.fn k (·.cqs) ?_).trans (State.cqs_modSq _ _ _ _ _)
  exact fun _ => rfl

/-! ## Ending a tracked command -/

/-- No session waits for the end of a command that names none. -/
theorem State.wakeSession_of_none {e : Sqe} (s : State) (h : (e.isVendor && e.sessionValid) = false) : s.wakeSession e = s := by
  simp only [State.wakeSession, h, Bool.false_eq_true, if_false]

/-- A tracked command that names no session, of a controller that is not in a reset, with the queues of its completion. -/
structure Completes (s : State) (tag : Nat) (t : Trk) (sq : Sq) (cq : Cq) : Prop where
  tracked : s.trk tag = some t
  noSession : (t.sqe.isVendor && t.sqe.sessionValid) = false
  noReset : (s.ctrl t.fn).resetting = false
  fetchedFrom : Tab.find (s.ctrl t.fn).sqs t.sq = some sq
  postsTo : Tab.find (s.ctrl t.fn).cqs sq.cq = some cq

theorem State.complete_posts {s : State} {tag : Nat} {t : Trk} {sq : Sq} {cq : Cq} (e : Cqe) (h : Completes s tag t sq cq)
    (hroom : cq.room = true) :
    s.complete tag e = (s.pushCqe t.fn sq.cq { e with sq := t.sq, sqHead := sq.head, cid := t.sqe.cid }).freeTrk tag := by
  simp [State.complete, h.tracked, State.wakeSession_of_none s h.noSession, h.noReset, h.fetchedFrom, h.postsTo, hroom]

theorem State.complete_waits {s : State} {tag : Nat} {t : Trk} {sq : Sq} {cq : Cq} (e : Cqe) (h : Completes s tag t sq cq)
    (hfull : cq.room = false) :
    s.complete tag e = (((s.modTrk tag fun t => { t with
        phase := .finished, completion := some { e with sq := t.sq, sqHead := sq.head, cid := t.sqe.cid } }).modCq t.fn sq.cq
          fun q => { q with waiting := q.waiting ++ [tag] }).modStats t.fn fun x =>
            { x with cqFullWaits := satAdd (2 ^ 64 - 1) x.cqFullWaits 1 }) := by
  simp [State.complete, h.tracked, State.wakeSession_of_none s h.noSession, h.noReset, h.fetchedFrom, h.postsTo, hfull,
    State.modTrk_listed _ h.tracked]

/-! ## Ending an admin command -/

@[simp] theorem State.cqs_takeAdmin (s : State) (fn k : Nat) : ((s.takeAdmin fn).ctrl k).cqs = (s.ctrl k).cqs :=
  s.cqs_modSq fn 0 k _

theorem State.adminPush_room {s : State} {fn : Nat} {cq : Cq} (e : Cqe) (h : Tab.find (s.ctrl fn).cqs 0 = some cq)
    (hroom : cq.room = true) : s.adminPush fn e = s.pushCqe fn 0 e := by
  simp only [State.adminPush, h, hroom, if_true]

/-- Settles O17, by where the completion goes: into its queue, behind the others that wait, into the admin queue. -/
theorem completionIsPostedOrWaits : Obligations.CompletionIsPostedOrWaits := by
  refine ⟨?posts, ?waits, ?admin⟩
  case posts =>
    intro s tag e t sq cq htrk hsession hreset hsq hcq hroom
    rw [State.complete_posts e ⟨htrk, hsession, hreset, hsq, hcq⟩ hroom]
    have htrk' : (s.pushCqe t.fn sq.cq { e with sq := t.sq, sqHead := sq.head, cid := t.sqe.cid }).trk tag = some t := by
      rw [State.trk_congr (State.pushCqe_trk _ hcq), htrk]
    refine ⟨?_, ?_, ?_⟩
    · rw [State.freeTrk_trk htrk', State.pushCqe_trk _ hcq]
    · exact (State.freeTrk_runs (by decide) (State.pushCqe_runs (by decide) (by decide) (Runs.refl _ s) _ _ _) _).frame
    · rw [State.freeTrk_cqs _ htrk', State.pushCqe_cq _ hcq]
  case waits =>
    intro s tag e t sq cq htrk hsession hreset hsq hcq hfull
    rw [State.complete_waits e ⟨htrk, hsession, hreset, hsq, hcq⟩ hfull]
    refine ⟨?_, ?_, ?_⟩
    · exact (State.modStats_runs (by decide) (State.modCq_runs (by decide) (State.modTrk_runs (by decide) (Runs.refl _ s) _ _) _ _ _)
        _ _).frame
    · rw [State.trk_modStats, State.trk_modCq, State.trk_modTrk _ htrk]
    · rw [State.modStats, State.ctrl_modCtrl]
      exact State.modCq_listed _ (by rw [State.ctrl_modTrk, hcq])
  case admin =>
    intro s fn e c b cq hcq hroom
    have hcq' : Tab.find ((s.takeAdmin fn).ctrl fn).cqs 0 = some cq := by rw [State.cqs_takeAdmin, hcq]
    refine ⟨rfl, (State.adminEnd_runs (by decide) (by decide) (by decide) (Runs.refl _ s) _ _ _ _).frame, ?_⟩
    rw [State.adminEnd, State.adminPush_room _ hcq' hroom]
    exact State.pushCqe_cq _ hcq'

end Sys2Proof.Machine
end

section
/-! Admin commands (spec/03 R39, R57, R60, R66): what each makes of the state and answers, and O19. -/

namespace Sys2Proof.Machine

theorem execAbort_serves {s : State} {fn : Fin 2} (e : Sqe) (hs : s.adminServes fn = true) :
    execAbort fn e s = .next ((s.modStats fn fun t =>
      { t with abortRequests := satAdd (2 ^ 64 - 1) t.abortRequests 1 }).adminEnd fn e { dw0 := 1 } []) := by
  rw [execAbort, State.admin_serves _ _ hs]
  rfl

theorem admIdentify_controller {e : Sqe} (fn : Nat) (s : State) (h : bits e.cdw10 0 8 = 0x01) :
    admIdentify fn e s = (s, {}, identifyController s.part fn s.ftl.freeUnits) := by
  simp only [admIdentify, h]

/-! ## Features (R39, R57) -/

theorem admSetFeatures_numberOfQueues {e : Sqe} (fn : Nat) (s : State) (h : bits e.cdw10 0 8 = 0x07) (hsave : bit e.cdw10 31 = false) :
    admSetFeatures fn e s = (s.modCtrl fn fun c => { c with features := Tab.set 0 c.features 0x07 e.cdw11 },
      { dw0 := s.queuesWord }, []) := by
  have hplain : (plainFeatures.contains 0x07 && !false) = true := by decide
  simp only [admSetFeatures, h, hsave, hplain, if_true]
  rfl

theorem admGetFeatures_volatile {e : Sqe} (fn : Nat) (s : State) (h : bits e.cdw10 0 8 = 0x08) (hsel : bits e.cdw10 8 3 = 0) :
    admGetFeatures fn e s = (s, { dw0 := Tab.get 0 (s.ctrl fn).features 0x08 }, []) := by
  simp [admGetFeatures, h, hsel, plainFeatures, featureKey]

/-- A command whose feature has no row of its own is SET_FEATURES's. -/
theorem execSetFeatures_serves {s : State} {fn : Fin 2} {e : Sqe} {r : State × Cqe × Bytes} (hs : s.adminServes fn = true)
    (hpower : featureId e ≠ 0x02) (htime : featureId e ≠ 0x0E) (h : admSetFeatures fn e s = r) :
    execSetFeatures fn e s = .next (r.1.adminEnd fn e r.2.1 r.2.2) := by
  rw [execSetFeatures, if_neg (by simp [hpower, htime]), State.admin_serves _ _ hs, h]

theorem execSetFeaturesTimestamp_serves {s : State} {fn : Fin 2} {e : Sqe} (d : Bytes) (hs : s.adminServes fn = true)
    (h : featureId e = 0x0E) (hsave : bit e.cdw10 31 = false) :
    execSetFeaturesTimestamp fn e d s = .next
      ((s.modFabric fun f => { f with pair := some (leNat (d.take 6), s.hdCount) }).feedHostTime.adminEnd fn e {} []) := by
  rw [execSetFeaturesTimestamp, if_pos h, State.admin_serves _ _ hs, if_neg (by simp [hsave])]
  rfl

/-! ## Log pages (R57) -/

theorem admGetLogPage_within {s : State} {fn : Nat} {e : Sqe} {b : Bytes} (h : s.logPage fn (bits e.cdw10 0 8) = some b)
    (hoff : bits e.cdw12 0 32 + 2 ^ 32 * bits e.cdw13 0 32 ≤ b.length) :
    admGetLogPage fn e s = (s.used, {},
      (b.drop (bits e.cdw12 0 32 + 2 ^ 32 * bits e.cdw13 0 32)).take (4 * (bits e.cdw10 16 16 + 65536 * bits e.cdw11 0 16 + 1))) := by
  simp only [admGetLogPage, h, Nat.not_lt.mpr hoff, if_false]

/-! ## Asynchronous events (R60) -/

theorem execAsynchronousEventRequest_waits {s : State} {fn : Fin 2} (e : Sqe) (hs : s.adminServes fn = true)
    (hfew : (s.ctrl fn).aers.length < 8) :
    execAsynchronousEventRequest fn e s = .next ((s.takeAdmin fn).modCtrl fn fun c => { c with aers := c.aers ++ [e.cid] }) := by
  rw [execAsynchronousEventRequest, if_pos hs, if_pos hfew]

theorem execAsynchronousEventRequest_refused {s : State} {fn : Fin 2} (e : Sqe) (hs : s.adminServes fn = true)
    (hmany : 8 ≤ (s.ctrl fn).aers.length) :
    execAsynchronousEventRequest fn e s = .next (s.adminEnd fn e (adminRefusal .invalidField St.unsupported) []) := by
  rw [execAsynchronousEventRequest, if_pos hs, if_neg (Nat.not_lt.mpr hmany), State.admin_serves _ _ hs]
  rfl

/-- Settles O19, command by command. -/
theorem adminCommandsAnswer : Obligations.AdminCommandsAnswer := by
  refine ⟨?abort, ?identify, ?setFeatures, ?getFeatures, ?timestamp, ?logPage, ?aer, ?aerNinth⟩
  case abort =>
    intro s fn e hs
    exact execAbort_serves e hs
  case identify =>
    intro s fn e hs h
    rw [exec_identify, execIdentify, State.admin_serves _ _ hs, admIdentify_controller _ s h]
  case setFeatures =>
    intro s fn e hs h hsave
    rw [exec_setFeatures, execSetFeatures_serves hs (by simp [featureId, h]) (by simp [featureId, h])
      (admSetFeatures_numberOfQueues _ s h hsave)]
  case getFeatures =>
    intro s fn e hs h hsel
    rw [exec_getFeatures, execGetFeatures, State.admin_serves _ _ hs, admGetFeatures_volatile _ s h hsel]
  case timestamp =>
    intro s fn e d hs h hsave
    exact execSetFeaturesTimestamp_serves d hs h hsave
  case logPage =>
    intro s fn e b hs h hoff
    rw [exec_getLogPage, execGetLogPage, State.admin_serves _ _ hs, admGetLogPage_within h hoff]
  case aer =>
    intro s fn e hs hfew
    exact execAsynchronousEventRequest_waits e hs hfew
  case aerNinth =>
    intro s fn e hs hmany
    exact execAsynchronousEventRequest_refused e hs hmany

end Sys2Proof.Machine
end

section
/-! Resets of a function (spec/03 R68, spec/04 R83): the controller, the mailbox, and O20. -/

namespace Sys2Proof.Machine

/-! ## The mailbox (R83) -/

@[simp] theorem Amp.mb_setMb (a : Amp) (k : Nat) (m : Mbox) : (a.setMb k m).mb k = m := by
  match k with
  | 0 | 1 | _ + 2 => rfl

/-- Mailboxes 0 and 1 are the hosts'; the third is the management plane's. -/
theorem Amp.setMb_m2 (a : Amp) (fn : Fin 2) (m : Mbox) : (a.setMb fn m).m2 = a.m2 := by
  match fn with
  | 0 | 1 => rfl

theorem Amp.mb_withJobs (a : Amp) (l : List AmpJob) (k : Nat) : ({ a with jobs := l } : Amp).mb k = a.mb k := by
  match k with
  | 0 | 1 | _ + 2 => rfl

theorem mailboxReset_mb (fn : Nat) (s : State) : (mailboxReset fn s).amp.mb fn = (s.amp.mb fn).hostReset := by
  rw [mailboxReset, State.modAmp_amp, Amp.mb_withJobs, State.modMb, State.modAmp_amp, Amp.mb_setMb]

theorem mailboxReset_m2 (fn : Fin 2) (s : State) : (mailboxReset fn s).amp.m2 = s.amp.m2 := by
  rw [mailboxReset, State.modAmp_amp, State.modMb, State.modAmp_amp]
  exact Amp.setMb_m2 _ fn _

@[simp] theorem mailboxReset_host (fn : Nat) (s : State) : (mailboxReset fn s).host = s.host := rfl

/-! ## The controller (R68) -/

@[simp] theorem State.ctrl_modFtl (s : State) (f : Ftl → Ftl) (fn : Nat) : (s.modFtl f).ctrl fn = s.ctrl fn := rfl

theorem ctrlReset_amp (fn : Nat) (s : State) : (ctrlReset fn s).amp = s.amp :=
  (ctrlReset_runs (W := [.fabric, .host, .tiers, .ftl]) (by decide) (by decide) (by decide) (by decide) (Runs.refl _ s)
    fn).frame.amp.resolve_left (by decide)

/-- With an empty tracker there is no command to stop. -/
theorem ctrlReset_idle {s : State} {fn : Nat} (htrk : s.host.trk = []) (hen : (s.ctrl fn).en = true) :
    ctrlReset fn s = (s.modCtrl fn fun c => { c with en := false, resetting := true, aers := [], adminWait := [] }).modFtl
      (·.orphan fn) := by
  have hcommands : ((s.modCtrl fn fun c => { c with en := false, resetting := true, aers := [], adminWait := [] }).modFtl
      (·.orphan fn)).host.trk = [] := by
    rw [State.modFtl_host, State.modCtrl_trk, htrk]
  simp only [ctrlReset, hen, Bool.true_or, if_true, hcommands, stopAll]

theorem ctrlReset_ctrl {s : State} {fn : Nat} (htrk : s.host.trk = []) (hen : (s.ctrl fn).en = true) :
    ((ctrlReset fn s).ctrl fn).en = false ∧ ((ctrlReset fn s).ctrl fn).resetting = true := by
  have hctrl : (ctrlReset fn s).ctrl fn = { s.ctrl fn with en := false, resetting := true, aers := [], adminWait := [] } := by
    rw [ctrlReset_idle htrk hen, State.ctrl_modFtl, State.ctrl_modCtrl]
  rw [hctrl]
  exact ⟨rfl, rfl⟩

/-! ## The whole function -/

theorem functionReset_mb (fn : Nat) (s : State) : (functionReset fn s).amp.mb fn = (s.amp.mb fn).hostReset := by
  rw [functionReset, mailboxReset_mb, State.modCtrl, State.modHost_amp, ctrlReset_amp]

theorem functionReset_m2 (fn : Fin 2) (s : State) : (functionReset fn s).amp.m2 = s.amp.m2 := by
  rw [functionReset, mailboxReset_m2, State.modCtrl, State.modHost_amp, ctrlReset_amp]

theorem functionReset_ctrl {s : State} {fn : Nat} (htrk : s.host.trk = []) (hen : (s.ctrl fn).en = true) :
    ((functionReset fn s).ctrl fn).en = false ∧ ((functionReset fn s).ctrl fn).resetting = true := by
  have hctrl : (functionReset fn s).ctrl fn = ((ctrlReset fn s).ctrl fn).pcieDefaults := by
    rw [functionReset, State.ctrl, mailboxReset_host]
    exact State.ctrl_modCtrl _ _ _
  rw [hctrl]
  exact ctrlReset_ctrl htrk hen

/-- An NVM Subsystem Reset of two enabled controllers with no command in the tracker. -/
theorem subsystemReset_idle {s : State} (htrk : s.host.trk = []) (h0 : s.host.c0.en = true) (h1 : s.host.c1.en = true) :
    (subsystemReset s).host.c0.en = false ∧ (subsystemReset s).host.c1.en = false
      ∧ (subsystemReset s).host.c0.resetting = true ∧ (subsystemReset s).host.c1.resetting = true
      ∧ Frame [.host, .ftl] s (subsystemReset s) := by
  have h0' : (s.ctrl 0).en = true := h0
  have htrk' : (ctrlReset 0 s).host.trk = [] := by
    rw [ctrlReset_idle htrk h0', State.modFtl_host, State.modCtrl_trk, htrk]
  have h1' : ((ctrlReset 0 s).ctrl 1).en = true := by
    rw [ctrlReset_idle htrk h0']
    exact h1
  rw [subsystemReset, ctrlReset_idle htrk' h1', ctrlReset_idle htrk h0']
  refine ⟨rfl, rfl, rfl, rfl, ?_⟩
  exact (State.modFtl_runs (by decide) (State.modCtrl_runs (by decide) (State.modFtl_runs (by decide)
    (State.modCtrl_runs (by decide) (Runs.refl _ s) _ _) _) _ _) _).frame

/-- Settles O20, by the reset. -/
theorem resetsOfAFunction : Obligations.ResetsOfAFunction := by
  refine ⟨?function, ?linkDown, ?subsystem, ?enable, ?done⟩
  case function =>
    intro s fn hfn
    have hmb := functionReset_mb fn s
    refine ⟨functionReset fn s, ?_, ?_, hmb, ?_, ?_, ?_, ?_, ?_, functionReset_m2 fn s, fun htrk hen => functionReset_ctrl htrk hen⟩
    · rw [exec_hotReset, execHotReset, if_pos hfn]
    · rw [exec_functionLevelReset, execFunctionLevelReset, if_pos hfn]
    all_goals rw [hmb]; rfl
  case linkDown =>
    intro s fn hfn
    refine ⟨(functionReset fn s).modCtrl fn Ctrl.untrained, ?_, ?_, ?_⟩
    · rw [exec_linkDown, execLinkDown, if_pos hfn]
    · rw [State.ctrl_modCtrl]
      rfl
    · rw [State.modCtrl, State.modHost_amp, functionReset_mb]
  case subsystem =>
    intro s htrk h0 h1
    obtain ⟨hen0, hen1, hreset0, hreset1, hframe⟩ := subsystemReset_idle htrk h0 h1
    exact ⟨subsystemReset s, rfl, hframe, hen0, hen1, hreset0, hreset1⟩
  case enable =>
    intro s fn htrk hen
    rw [exec_ccEnClear, execCcEnClear, if_pos hen, ctrlReset_idle htrk hen]
  case done =>
    intro s fn hreset hleft
    rw [exec_controllerResetDone, execControllerResetDone]
    simp [hreset, hleft]

end Sys2Proof.Machine
end

section
/-! Doorbells, fetching and starting (spec/03 R60, R61, R63, R69, R78), and O21. -/

namespace Sys2Proof.Machine

/-! ## What a change of a controller or of a queue leaves alone -/

@[simp] theorem State.modCtrl_fetchSeq (s : State) (fn : Nat) (f : Ctrl → Ctrl) : (s.modCtrl fn f).host.fetchSeq = s.host.fetchSeq := by
  simp only [State.modCtrl, State.modHost_host, HostSide.setCtrl]
  split <;> rfl

@[simp] theorem State.modCtrl_bifurcated (s : State) (fn : Nat) (f : Ctrl → Ctrl) :
    (s.modCtrl fn f).host.bifurcated = s.host.bifurcated := by
  simp only [State.modCtrl, State.modHost_host, HostSide.setCtrl]
  split <;> rfl

theorem State.modSq_listed {s : State} {fn q : Nat} {sq : Sq} (f : Sq → Sq) (h : Tab.find (s.ctrl fn).sqs q = some sq) :
    Tab.find ((s.modSq fn q f).ctrl fn).sqs q = some (f sq) := by
  rw [State.modSq, State.ctrl_modCtrl]
  simp only [h, Tab.find_put, if_true]

theorem State.turn_modSq (s : State) (fn q k : Nat) (f : Sq → Sq) : ((s.modSq fn q f).ctrl k).turn = (s.ctrl k).turn :=
  s.ctrl_modCtrl_congr fn k (·.turn) fun c => by split <;> rfl

theorem State.sqs_modStats (s : State) (fn k : Nat) (f : QStats → QStats) : ((s.modStats fn f).ctrl k).sqs = (s.ctrl k).sqs :=
  s.ctrl_modCtrl_congr fn k (·.sqs) fun _ => rfl

theorem State.turn_modStats (s : State) (fn k : Nat) (f : QStats → QStats) : ((s.modStats fn f).ctrl k).turn = (s.ctrl k).turn :=
  s.ctrl_modCtrl_congr fn k (·.turn) fun _ => rfl

/-! ## Stops behind ordered commands (R79) -/

theorem State.noteOrdered_free {s : State} {fn q : Nat} {sq : Sq} (h : Tab.find (s.ctrl fn).sqs q = some sq) (hstop : sq.stop = none) :
    s.noteOrdered fn q = s := by
  simp [State.noteOrdered, h, hstop]

/-- Counting a stop marks the queue as counted and raises a statistic. -/
theorem State.noteOrdered_cases (s : State) (fn q : Nat) : s.noteOrdered fn q = s ∨ ∃ f,
    s.noteOrdered fn q = (s.modSq fn q fun x => { x with counted := true }).modStats fn f := by
  unfold State.noteOrdered
  split
  · split
    · exact .inr ⟨_, rfl⟩
    · exact .inl rfl
  · exact .inl rfl

theorem State.noteOrdered_trk (s : State) (fn q : Nat) : (s.noteOrdered fn q).host.trk = s.host.trk := by
  obtain h | ⟨f, h⟩ := s.noteOrdered_cases fn q
  · rw [h]
  · rw [h, State.modStats, State.modCtrl_trk, State.trk_modSq]

theorem State.noteOrdered_fetchSeq (s : State) (fn q : Nat) : (s.noteOrdered fn q).host.fetchSeq = s.host.fetchSeq := by
  obtain h | ⟨f, h⟩ := s.noteOrdered_cases fn q
  · rw [h]
  · rw [h, State.modStats, State.modCtrl_fetchSeq, State.modSq, State.modCtrl_fetchSeq]

theorem State.noteOrdered_turn (s : State) (fn q k : Nat) : ((s.noteOrdered fn q).ctrl k).turn = (s.ctrl k).turn := by
  obtain h | ⟨f, h⟩ := s.noteOrdered_cases fn q
  · rw [h]
  · rw [h, State.turn_modStats, State.turn_modSq]

theorem State.noteOrdered_sq {s : State} {fn q : Nat} {sq : Sq} (hsq : Tab.find (s.ctrl fn).sqs q = some sq) :
    ∃ x, Tab.find ((s.noteOrdered fn q).ctrl fn).sqs q = some x ∧ x.head = sq.head ∧ x.stop = sq.stop := by
  obtain h | ⟨f, h⟩ := s.noteOrdered_cases fn q
  · exact ⟨sq, by rw [h, hsq], rfl, rfl⟩
  · exact ⟨{ sq with counted := true }, by rw [h, State.sqs_modStats]; exact State.modSq_listed _ hsq, rfl, rfl⟩

/-! ## Doorbells (R60, R62, R448) -/

theorem State.wake_operational {s : State} (h : s.power.ladder < 2) : s.wake = s := by
  rw [State.wake, if_neg (by omega)]

theorem sqTail_within {s : State} {fn q v : Nat} {sq : Sq} (hsq : Tab.find (s.ctrl fn).sqs q = some sq) (hv : v < sq.size)
    (hpower : s.power.ladder < 2) (hstop : sq.stop = none) : sqTail fn q v s = s.modSq fn q fun x => { x with tail := v } := by
  have hnote := State.noteOrdered_free (State.modSq_listed (fun x => { x with tail := v }) hsq) hstop
  have hwake := State.wake_operational (s := s.modSq fn q fun x => { x with tail := v }) hpower
  simp only [sqTail, hsq, hv, if_true, hnote, hwake, ite_self]

theorem cqHead_outside {s : State} {fn q v : Nat} {cq : Cq} (hcq : Tab.find (s.ctrl fn).cqs q = some cq) (hv : cq.size ≤ v) :
    cqHead fn q v s = s := by
  simp [cqHead, hcq, Nat.not_lt.mpr hv]

/-- Slots of a completion queue that the host frees by moving the head to `v`. -/
def Cq.passed (cq : Cq) (v : Nat) : Nat := (v + cq.size - (cq.tail + cq.size - cq.posted.length) % cq.size) % cq.size

theorem cqHead_within {s : State} {fn q v : Nat} {cq : Cq} (hq : q ≠ 0) (hcq : Tab.find (s.ctrl fn).cqs q = some cq)
    (hwaiting : cq.waiting = []) (hv : v < cq.size) (hposted : cq.passed v ≤ cq.posted.length) :
    cqHead fn q v s = s.modCq fn q fun c => { c with posted := c.posted.drop (cq.passed v) } := by
  have hmoves : v < cq.size ∧ (v + cq.size - (cq.tail + cq.size - cq.posted.length) % cq.size) % cq.size ≤ cq.posted.length :=
    ⟨hv, hposted⟩
  simp only [cqHead, hcq, hmoves, and_self, if_true, hq, if_false, hwaiting, postWaiting, Cq.passed]

/-! ## Fetching (R60, R61, R63) -/

theorem Ctrl.burst_pos (c : Ctrl) : 0 < c.burst := by
  simp only [Ctrl.burst]
  split
  · exact Nat.zero_lt_succ _
  · exact Nat.two_pow_pos _

theorem fetchTurn_nil (fn q n : Nat) (s : State) : fetchTurn fn q n [] s = s := by cases n <;> rfl

theorem fetchTurn_one {s : State} {fn q n tag : Nat} {sq : Sq} (e : Sqe) (hn : 0 < n) (hsq : Tab.find (s.ctrl fn).sqs q = some sq)
    (heligible : sq.eligible = true) (hshare : s.host.inUse fn < (s.host.share fn).2) (htag : s.tagFree fn tag = true) :
    fetchTurn fn q n [(tag, e)] s = fetchOne fn q tag e s := by
  obtain ⟨n, rfl⟩ := Nat.exists_eq_succ_of_ne_zero (Nat.ne_of_gt hn)
  simp only [fetchTurn, hsq, heligible, Nat.not_le.mpr hshare, htag, if_true, if_false, fetchTurn_nil]

/-- The tracker entry that a fetched command takes. -/
def State.fetchEntry (s : State) (fn q : Nat) (e : Sqe) : Trk :=
  { fn := fn, sq := q, sqe := e, seq := s.host.fetchSeq, fetchCount := s.hdCount }

theorem fetchOne_trk (fn q tag : Nat) (e : Sqe) (s : State) : (fetchOne fn q tag e s).trk tag = some (s.fetchEntry fn q e) := by
  rw [fetchOne, State.trk_congr (State.noteOrdered_trk _ _ _), State.trk_modStats, State.trk, State.modHost_host, Tab.find_put,
    if_pos rfl, State.modSq, State.modCtrl_fetchSeq]
  rfl

theorem fetchOne_fetchSeq (fn q tag : Nat) (e : Sqe) (s : State) : (fetchOne fn q tag e s).host.fetchSeq = s.host.fetchSeq + 1 := by
  rw [fetchOne, State.noteOrdered_fetchSeq, State.modStats, State.modCtrl_fetchSeq, State.modHost_host, State.modSq,
    State.modCtrl_fetchSeq]

theorem fetchOne_turn (fn q tag k : Nat) (e : Sqe) (s : State) : ((fetchOne fn q tag e s).ctrl k).turn = (s.ctrl k).turn := by
  rw [fetchOne, State.noteOrdered_turn, State.turn_modStats]
  exact State.turn_modSq _ _ _ _ _

theorem fetchOne_sq {s : State} {fn q : Nat} {sq : Sq} (tag : Nat) (e : Sqe) (hsq : Tab.find (s.ctrl fn).sqs q = some sq) :
    ∃ x, Tab.find ((fetchOne fn q tag e s).ctrl fn).sqs q = some x ∧ x.head = (sq.head + 1) % sq.size
      ∧ x.stop = if e.ordered then some tag else sq.stop := by
  rw [fetchOne]
  refine State.noteOrdered_sq (sq := { sq with
    head := (sq.head + 1) % sq.size, stop := if e.ordered then some tag else sq.stop }) ?_
  rw [State.sqs_modStats]
  exact State.modSq_listed _ hsq

/-- Whose turn it is decides neither the tracker nor a function's share of it. -/
theorem State.inUse_modCtrl (s : State) (fn k : Nat) (f : Ctrl → Ctrl) : (s.modCtrl fn f).host.inUse k = s.host.inUse k := by
  rw [HostSide.inUse, HostSide.inUse, State.modCtrl_trk]

theorem State.share_modCtrl (s : State) (fn k : Nat) (f : Ctrl → Ctrl) : (s.modCtrl fn f).host.share k = s.host.share k := by
  rw [HostSide.share, HostSide.share, State.modCtrl_bifurcated]

theorem State.tagFree_modCtrl (s : State) (fn k tag : Nat) (f : Ctrl → Ctrl) : (s.modCtrl fn f).tagFree k tag = s.tagFree k tag := by
  rw [State.tagFree, State.tagFree, State.share_modCtrl, State.trk_congr (State.modCtrl_trk s fn f)]

/-- One command of the I/O queue whose turn it is, with the admin queue idle. -/
theorem execCommandFetch_one {s : State} {fn : Fin 2} {q tag : Nat} {sq : Sq} (e : Sqe) (hserves : s.ctrlServes fn = true)
    (hidle : s.adminIdle fn = true) (hturn : (s.ctrl fn).nextTurn = some q) (hsq : Tab.find (s.ctrl fn).sqs q = some sq)
    (heligible : sq.eligible = true) (hshare : s.host.inUse fn < (s.host.share fn).2) (htag : s.tagFree fn tag = true) :
    execCommandFetch fn q [(tag, e)] s = .next (fetchOne fn q tag e (s.modCtrl fn fun c => { c with turn := q })) := by
  have hsq' : Tab.find ((s.modCtrl fn fun c => { c with turn := q }).ctrl fn).sqs q = some sq := by
    rw [State.ctrl_modCtrl]
    exact hsq
  have hfetch := fetchTurn_one e (s.ctrl fn).burst_pos hsq' heligible
    (by rw [State.inUse_modCtrl, State.share_modCtrl]; exact hshare) (by rw [State.tagFree_modCtrl]; exact htag)
  simp only [execCommandFetch, hserves, hidle, hturn, beq_self_eq_true, Bool.and_self, if_true, hfetch]

/-! ## Starting (R63), opcodes of no set (R69) -/

theorem State.earlierHeld_any (s : State) (t : Trk) : s.earlierHeld t (fun _ => true)
    = s.host.trk.any fun x => x.2.fn == t.fn && x.2.sq == t.sq && decide (x.2.seq < t.seq) := by
  simp only [State.earlierHeld, Bool.and_true]

theorem execCommandStart_starts {s : State} {tag : Nat} {t : Trk} (htrk : s.trk tag = some t) (hphase : t.phase = .fetched)
    (hadmitted : t.admitted = false) (horder : t.sqe.ordered = true → s.earlierHeld t (fun _ => true) = false) :
    execCommandStart tag s = .next (s.modTrk tag fun t => { t with phase := .started }) := by
  have hfirst : (t.sqe.ordered && s.earlierHeld t fun _ => true) = false := by
    cases hordered : t.sqe.ordered
    · rfl
    · exact horder hordered
  simp [execCommandStart, htrk, hphase, hadmitted, hfirst]

theorem execCommandStart_ordered {s : State} {tag : Nat} {t : Trk} (htrk : s.trk tag = some t) (hordered : t.sqe.ordered = true)
    (hearlier : s.earlierHeld t (fun _ => true) = true) : execCommandStart tag s = .next s := by
  simp [execCommandStart, htrk, hordered, hearlier]

theorem execInvalidCommandOpcode_refused {s : State} {tag : Nat} {t : Trk} (fn : Fin 2) (e : Sqe) (htrk : s.trk tag = some t)
    (hphase : t.phase = .started) (hopc : ioOpcodes.contains t.sqe.opc = false) :
    execInvalidCommandOpcode fn (some tag) e s = .next (s.completeErr tag .invalidOpcode St.unsupported) := by
  simp only [execInvalidCommandOpcode, htrk, hphase, hopc, beq_self_eq_true, Bool.not_false, Bool.and_self, if_true]

/-! ## The result timer (R78) -/

theorem State.writeHeader_trk {s : State} {tag : Nat} {t : Trk} {r : Result} (htrk : s.trk tag = some t) (hr : t.result = some r) :
    (s.writeHeader tag).trk tag = some { t with result := some { r with
      seq := r.seq + 1, bytes := r.bytes + r.newBytes, records := r.records + r.newRecords, newBytes := 0, newRecords := 0
      updated := s.hdCount } } := by
  simp only [State.writeHeader, htrk, hr]
  exact State.trk_modTrk _ htrk

theorem execResultHeaderTimer_due {s : State} {tag : Nat} {t : Trk} {r : Result} (htrk : s.trk tag = some t) (hr : t.result = some r)
    (hnew : 0 < r.newBytes ∨ 0 < r.newRecords) (hdue : r.updated + 1000 ≤ s.hdCount) :
    execResultHeaderTimer tag s = .next (s.writeHeader tag) := by
  simp only [execResultHeaderTimer, htrk, hr, hnew, hdue, and_self, if_true]

/-- Settles O21, from the doorbell to the result timer. -/
theorem commandsAreFetchedAndStarted : Obligations.CommandsAreFetchedAndStarted := by
  refine ⟨?tail, ?headOutside, ?headWithin, ?fetch, ?start, ?ordered, ?opcode, ?timer⟩
  case tail =>
    intro s fn q v sq hs hsq hv hpower hstop
    rw [exec_sqTailDoorbell, execSqTailDoorbell, if_pos hs, sqTail_within hsq hv hpower hstop]
  case headOutside =>
    intro s fn q v cq hcq hv
    rw [exec_cqHeadDoorbell, execCqHeadDoorbell, cqHead_outside hcq hv]
  case headWithin =>
    intro s fn q v cq hq hcq hwaiting hv hposted
    rw [exec_cqHeadDoorbell, execCqHeadDoorbell, cqHead_within hq hcq hwaiting hv hposted]
    rfl
  case fetch =>
    intro s fn q sq tag e hserves hidle hturn hsq heligible hshare htag
    have hstop : sq.stop = none := by
      simp only [Sq.eligible, Bool.and_eq_true, Option.isNone_iff_eq_none] at heligible
      obtain ⟨⟨hstop, _⟩, _⟩ := heligible
      exact hstop
    have hsq' : Tab.find ((s.modCtrl fn fun c => { c with turn := q }).ctrl fn).sqs q = some sq := by
      rw [State.ctrl_modCtrl]
      exact hsq
    refine ⟨_, execCommandFetch_one e hserves hidle hturn hsq heligible hshare htag, ?_, ?_, ?_, ?_, ?_⟩
    · exact (fetchOne_runs (by decide) (State.modCtrl_runs (by decide) (Runs.refl _ s) _ _) _ _ _ _).frame
    · rw [fetchOne_trk, State.fetchEntry, State.modCtrl_fetchSeq]
      rfl
    · rw [fetchOne_fetchSeq, State.modCtrl_fetchSeq]
    · rw [fetchOne_turn, State.ctrl_modCtrl]
    · rw [← hstop]
      exact fetchOne_sq tag e hsq'
  case start =>
    intro s tag t htrk hphase hadmitted horder
    exact execCommandStart_starts htrk hphase hadmitted fun h => (s.earlierHeld_any t).trans (horder h)
  case ordered =>
    intro s tag t htrk hordered hearlier
    exact execCommandStart_ordered htrk hordered ((s.earlierHeld_any t).trans hearlier)
  case opcode =>
    intro s fn tag t e htrk hphase hopc
    exact execInvalidCommandOpcode_refused fn e htrk hphase hopc
  case timer =>
    intro s tag t r htrk hr hnew hdue
    exact ⟨_, execResultHeaderTimer_due htrk hr hnew hdue, (State.writeHeader_runs (by decide) (by decide) (Runs.refl _ s) tag).frame,
      State.writeHeader_trk htrk hr⟩

end Sys2Proof.Machine
end

section
/-! Read, Verify and Flush (spec/03 R56, spec/17 R391, R402): what the sectors of a command make of it, and O22. -/

namespace Sys2Proof.Machine

/-! ## Reports of a read -/

/-- Of the translation layer, the reports of retried sectors raise the count of retries alone. -/
theorem reportRetried_ftl (nsid tag : Nat) (l : List Nat) (s : State) :
    ∃ n, (reportRetried nsid tag l s).ftl = { s.ftl with cwRetry := n } := by
  induction l generalizing s with
  | nil => exact ⟨s.ftl.cwRetry, rfl⟩
  | cons lba l ih =>
    unfold reportRetried
    cases s.lbaPlace nsid lba with
    | none => exact ih s
    | some place =>
      dsimp only
      split
      · exact ih s
      · obtain ⟨n, hn⟩ := ih ((s.modFtl fun f => { f with cwRetry := f.cwRetry + 1 }).report .hd _)
        exact ⟨n, hn.trans (by rw [State.report_ftl]; rfl)⟩

theorem reportLost_ftl (nsid tag : Nat) (l : List (Nat × Nat)) (s : State) : (reportLost nsid tag l s).ftl = s.ftl :=
  (reportLost_runs (W := [.memory, .faults]) (by decide) (by decide) (Runs.refl _ s) nsid tag l).frame.ftl.resolve_left (by decide)

theorem scatter_ftl (dst : List Nat) (d : List Bytes) (s : State) : (scatter dst d s).ftl = s.ftl :=
  (scatter_runs (W := [.hostMem]) (by decide) (Runs.refl _ s) dst d).frame.ftl.resolve_left (by decide)

theorem State.complete_ftl (s : State) (tag : Nat) (e : Cqe) : (s.complete tag e).ftl = s.ftl :=
  (State.complete_runs (W := [.fabric, .host, .tiers]) (by decide) (by decide) (by decide) (Runs.refl _ s) tag
    e).frame.ftl.resolve_left (by decide)

/-! ## The sectors of a command -/

/-- Every sector of the command decodes: `d k` is the contents of sector `k`, which lies in unit `u k`. -/
def State.Decodes (s : State) (t : Trk) (lost : List Nat) (u : Nat → Nat) (d : Nat → Bytes) : Prop :=
  ∀ k < t.sqe.nlb, s.readLba t.sqe.nsid (t.sqe.slba + k) lost = some (u k, d k, false)

/-- The sectors of a command: the LBA of each, with its unit, its contents and whether it cannot be recovered. -/
def State.sectorsOf (s : State) (t : Trk) (lost : List Nat) : List (Nat × Nat × Bytes × Bool) :=
  (List.range t.sqe.nlb).filterMap fun k =>
    (s.readLba t.sqe.nsid (t.sqe.slba + k) lost).map fun x => (t.sqe.slba + k, x)

theorem State.sectorsOf_decoded {s : State} {t : Trk} {lost : List Nat} {u : Nat → Nat} {d : Nat → Bytes} (h : s.Decodes t lost u d) :
    s.sectorsOf t lost = (List.range t.sqe.nlb).map fun k => (t.sqe.slba + k, u k, d k, false) := by
  rw [State.sectorsOf, ← List.filterMap_eq_map]
  refine List.filterMap_congr fun k hk => ?_
  rw [h k (List.mem_range.mp hk)]
  rfl

theorem State.mem_sectorsOf {s : State} {t : Trk} {lost : List Nat} {k : Nat} {x : Nat × Bytes × Bool} (hk : k < t.sqe.nlb)
    (h : s.readLba t.sqe.nsid (t.sqe.slba + k) lost = some x) : (t.sqe.slba + k, x) ∈ s.sectorsOf t lost :=
  List.mem_filterMap.mpr ⟨k, List.mem_range.mpr hk, by rw [h]; rfl⟩

/-- The sectors of a command that cannot be recovered. -/
def State.lostSectors (s : State) (t : Trk) (lost : List Nat) : List (Nat × Nat × Bytes × Bool) :=
  (s.sectorsOf t lost).filter fun x => x.2.2.2

/-- The codewords of a command are counted, and its retried sectors reported. -/
def State.countRead (s : State) (t : Trk) (tag : Nat) (lost retried : List Nat) : State :=
  (reportRetried t.sqe.nsid tag retried s).modFtl fun f => { f with
    cwFirst := f.cwFirst + (t.sqe.nlb - retried.length - (s.lostSectors t lost).length)
    cwLost := f.cwLost + (s.lostSectors t lost).length }

theorem State.countRead_ftl (s : State) (t : Trk) (tag : Nat) (lost retried : List Nat) :
    ∃ m n k, (s.countRead t tag lost retried).ftl = { s.ftl with cwFirst := m, cwRetry := n, cwLost := k } := by
  obtain ⟨n, hn⟩ := reportRetried_ftl t.sqe.nsid tag retried s
  exact ⟨_, n, _, by rw [State.countRead, State.modFtl_ftl, hn]⟩

theorem State.readLbas_eq (s : State) (t : Trk) (tag : Nat) (lost retried : List Nat) : s.readLbas t tag lost retried =
    if s.lostSectors t lost = [] then (s.countRead t tag lost retried, some ((s.sectorsOf t lost).map fun x => x.2.2.1))
    else (reportLost t.sqe.nsid tag ((s.lostSectors t lost).map fun x => (x.1, x.2.1)) (s.countRead t tag lost retried), none) := rfl

theorem State.lostSectors_decoded {s : State} {t : Trk} {lost : List Nat} {u : Nat → Nat} {d : Nat → Bytes}
    (h : s.Decodes t lost u d) : s.lostSectors t lost = [] := by
  simp [State.lostSectors, State.sectorsOf_decoded h]

theorem State.readLbas_decoded {s : State} {t : Trk} {lost : List Nat} {u : Nat → Nat} {d : Nat → Bytes} (tag : Nat)
    (retried : List Nat) (h : s.Decodes t lost u d) :
    s.readLbas t tag lost retried = (s.countRead t tag lost retried, some ((List.range t.sqe.nlb).map d)) := by
  rw [State.readLbas_eq, if_pos (State.lostSectors_decoded h), State.sectorsOf_decoded h, List.map_map]
  rfl

/-- One sector that cannot be recovered fails the whole command. -/
theorem State.readLbas_lost {s : State} {t : Trk} {lost : List Nat} {k u : Nat} {d : Bytes} (tag : Nat) (retried : List Nat)
    (hk : k < t.sqe.nlb) (h : s.readLba t.sqe.nsid (t.sqe.slba + k) lost = some (u, d, true)) :
    s.readLbas t tag lost retried = (reportLost t.sqe.nsid tag ((s.lostSectors t lost).map fun x => (x.1, x.2.1))
      (s.countRead t tag lost retried), none) := by
  have hlost : s.lostSectors t lost ≠ [] := List.ne_nil_of_mem (List.mem_filter.mpr ⟨State.mem_sectorsOf hk h, rfl⟩)
  rw [State.readLbas_eq, if_neg hlost]

/-- With no sector lost and none retried every codeword decodes at the first attempt. -/
theorem State.countRead_first {s : State} {t : Trk} {lost : List Nat} {u : Nat → Nat} {d : Nat → Bytes} (tag : Nat)
    (h : s.Decodes t lost u d) :
    s.countRead t tag lost [] = s.modFtl fun f => { f with cwFirst := f.cwFirst + t.sqe.nlb } := by
  rw [State.countRead, State.lostSectors_decoded h]
  rfl

/-! ## The commands -/

/-- A Read of sectors that decode: the data reach the host and are returned, and the command is counted. -/
theorem execRead_decoded {s : State} {tag : Nat} {t : Trk} {lost : List Nat} {u : Nat → Nat} {d : Nat → Bytes}
    (retried dst : List Nat) (hio : s.ioAdmitted tag 0x02 false true t) (h : s.Decodes t lost u d) :
    execRead tag lost retried dst s = .next
      (((scatter dst ((List.range t.sqe.nlb).map d) ((s.countRead t tag lost retried).modFtl fun f =>
        { f with readBytes := f.readBytes + t.sqe.nlb * 4096, readCmds := f.readCmds + 1 })).completeOk tag).reply
          (.data ((List.range t.sqe.nlb).map d).flatten)) := by
  rw [execRead, State.ioRow_admitted _ hio, State.readLbas_decoded tag retried h]

theorem execRead_lost {s u : State} {tag : Nat} {t : Trk} {lost retried : List Nat} (dst : List Nat)
    (hio : s.ioAdmitted tag 0x02 false true t) (h : s.readLbas t tag lost retried = (u, none)) :
    execRead tag lost retried dst s = .next (u.readFails tag) := by
  rw [execRead, State.ioRow_admitted _ hio, h]

theorem execVerify_decoded {s : State} {tag : Nat} {t : Trk} {lost : List Nat} {u : Nat → Nat} {d : Nat → Bytes}
    (hio : s.ioAdmitted tag 0x0C false false t) (h : s.Decodes t lost u d) :
    execVerify tag lost [] s = .next ((s.modFtl fun f => { f with cwFirst := f.cwFirst + t.sqe.nlb }).completeOk tag) := by
  rw [execVerify, State.ioRow_admitted _ hio, State.readLbas_decoded tag [] h, State.countRead_first tag h]

theorem execFlush_clear {s : State} {tag : Nat} {t : Trk} (ht : s.startedAs tag 0x00 = some t) (hsanitizer : s.ftl.sanitizer = none)
    (hcheck : s.nvmRefusal t = none) (hearlier : s.earlierHeld t (fun x => x.sqe.opc == 0x01 || x.sqe.opc == 0x08) = false) :
    execFlush tag s = .next (s.completeOk tag) := by
  simp [execFlush, ht, hsanitizer, hcheck, hearlier]

/-- Settles O22: by the command, and for a Read by whether every sector decodes. -/
theorem readsReturnWhatTheNamespaceHolds : Obligations.ReadsReturnWhatTheNamespaceHolds := by
  refine ⟨?read, ?lost, ?verify, ?flush⟩
  case read =>
    intro s tag t lost retried dst u d hio h
    obtain ⟨m, n, k, hcount⟩ := s.countRead_ftl t tag lost retried
    refine ⟨_, execRead_decoded retried dst hio h, rfl, ?_, ?_⟩
    all_goals
      rw [State.reply_ftl, State.completeOk, State.complete_ftl, scatter_ftl, State.modFtl_ftl, hcount]
  case lost =>
    intro s tag t lost retried dst k u d hio hk h
    obtain ⟨m, n, c, hcount⟩ := s.countRead_ftl t tag lost retried
    have hread := State.readLbas_lost tag retried hk h
    have hruns := State.readFails_runs (W := [.memory, .fabric, .host, .faults, .tiers, .ftl]) (by decide) (by decide) (by decide)
      (by decide) (State.readLbas_runs (by decide) (by decide) (by decide) (Runs.refl _ s) t tag lost retried) tag
    rw [hread] at hruns
    refine ⟨_, execRead_lost dst hio hread, hruns.frame.answer.resolve_left (by decide),
      hruns.frame.hostMem.resolve_left (by decide), ?_, ?_⟩
    all_goals
      rw [State.readFails, State.completeErr, State.complete_ftl, State.modFtl_ftl, reportLost_ftl, hcount]
  case verify =>
    intro s tag t lost u d hio h
    exact execVerify_decoded hio h
  case flush =>
    intro s tag t ht hsanitizer hcheck hearlier
    exact execFlush_clear ht hsanitizer hcheck hearlier

end Sys2Proof.Machine
end

section
/-! Namespaces, Format and Sanitize (spec/03 R54, R69, spec/17 R399, R400, spec/21 R476), and O24. -/

namespace Sys2Proof.Machine

/-! ## The list of namespaces -/

@[simp] theorem State.modCtrl_ns (s : State) (fn : Nat) (f : Ctrl → Ctrl) : (s.modCtrl fn f).host.ns = s.host.ns := by
  simp only [State.modCtrl, State.modHost_host, HostSide.setCtrl]
  split <;> rfl

theorem State.adminPush_ns (s : State) (fn : Nat) (e : Cqe) : (s.adminPush fn e).host.ns = s.host.ns := by
  cases hcq : Tab.find (s.ctrl fn).cqs 0 with
  | none => simp only [State.adminPush, hcq]
  | some cq =>
    cases hroom : cq.room with
    | true => rw [State.adminPush_room e hcq hroom, State.pushCqe_host e hcq, State.modCq, State.modCtrl_ns]
    | false => simp only [State.adminPush, hcq, hroom, Bool.false_eq_true, if_false, State.modStats, State.modCtrl_ns]

/-- The end of an admin command leaves the namespaces and the translation layer as the command made them. -/
theorem State.adminEnd_ns (s : State) (fn : Nat) (e : Sqe) (c : Cqe) (b : Bytes) : (s.adminEnd fn e c b).host.ns = s.host.ns := by
  rw [State.adminEnd, State.reply_host, State.adminPush_ns]
  exact State.modCtrl_ns _ _ _

theorem State.adminEnd_ftl (s : State) (fn : Nat) (e : Sqe) (c : Cqe) (b : Bytes) : (s.adminEnd fn e c b).ftl = s.ftl :=
  (State.adminEnd_runs (W := [.answer, .fabric, .host]) (by decide) (by decide) (by decide) (Runs.refl _ s) fn e c
    b).frame.ftl.resolve_left (by decide)

/-! ## Creation, deletion, attachment (R54, R69, R476) -/

theorem admCreateNs_fits {s : State} {nsze n : Nat} {f : Ftl} (hfree : s.host.freeNsid = some n) (hsize : nsze ≠ 0)
    (halloc : s.ftl.alloc (.ns n) ((nsze + s.part.unitSectors - 1) / s.part.unitSectors) = some f) :
    admCreateNs nsze nsze s
      = ((({ s with ftl := f }).modHost fun h => { h with ns := Tab.put h.ns n { size := nsze } }).drawKey n, { dw0 := n }, []) := by
  simp only [admCreateNs, hfree, hsize, ne_eq, not_true_eq_false, or_self, if_false, halloc]

/-- What is left of a namespace's owner: no range of units. -/
theorem State.dropUnits_space (s : State) (o : SpaceOwner) : ∀ r ∈ (s.dropUnits o).ftl.space, r.owner ≠ o := by
  intro r hr
  simpa using (List.mem_filter.mp hr).2

theorem State.dropUnits_host (s : State) (o : SpaceOwner) : (s.dropUnits o).host = s.host := rfl

theorem State.eraseBound_host (s : State) (nsid : Nat) : (s.eraseBound nsid).host = s.host :=
  (State.eraseBound_runs (W := [.index]) (by decide) (Runs.refl _ s) nsid).frame.host.resolve_left (by decide)

theorem admDeleteNs_listed {s : State} {e : Sqe} (h0 : e.nsid ≠ 0) (h128 : e.nsid ≤ 128) (hns : Tab.has s.host.ns e.nsid = true) :
    (admDeleteNs e s).1.host.ns = Tab.del s.host.ns e.nsid ∧ ∀ r ∈ (admDeleteNs e s).1.ftl.space, r.owner ≠ .ns e.nsid := by
  have hid : ¬ (e.nsid = 0 ∨ 128 < e.nsid) := by omega
  rw [admDeleteNs, if_neg hid, if_pos hns]
  refine ⟨?_, State.dropUnits_space _ _⟩
  rw [State.modSec_host, State.modHost_host, State.dropUnits_host, State.modIndex_host, State.eraseBound_host]

theorem admAttach_listed {s : State} {e : Sqe} {l : List Nat} {n : Nspace} (h0 : e.nsid ≠ 0) (h128 : e.nsid ≤ 128)
    (hns : Tab.find s.host.ns e.nsid = some n) (hsel : bits e.cdw10 0 4 ≤ 1) (hl : ∀ k ∈ l, k ∈ s.controllers) :
    admAttach e l s = (s.modHost fun h =>
      { h with ns := Tab.put h.ns e.nsid (n.attach (bits e.cdw10 0 4 == 0) l) }, {}, []) := by
  have hid : ¬ (e.nsid = 0 ∨ 128 < e.nsid) := by omega
  have hlist : l.any (fun k => !s.controllers.contains k) = false := by simpa using hl
  simp only [admAttach, hid, if_false, hns, Nat.not_lt.mpr hsel, hlist, Bool.false_eq_true, or_self]

theorem execNamespaceManagement_creates {s : State} {fn : Fin 2} {e : Sqe} (nsze ncap : Nat) (hsel : bits e.cdw10 0 4 = 0) :
    execNamespaceManagement fn e nsze ncap s = .next (s.admin fn e (admCreateNs nsze ncap)) := by
  simp only [execNamespaceManagement, hsel]

theorem execNamespaceManagement_deletes {s : State} {fn : Fin 2} {e : Sqe} (nsze ncap : Nat) (hsel : bits e.cdw10 0 4 = 1) :
    execNamespaceManagement fn e nsze ncap s = .next (s.admin fn e (admDeleteNs e)) := by
  simp only [execNamespaceManagement, hsel]

/-! ## Format (R399) -/

theorem execFormatNvm_unmaps {s : State} {fn : Fin 2} {e : Sqe} (eus bad : List Nat) (hs : s.adminServes fn = true)
    (hns : s.nsRefusal fn e.nsid = none) (hreserved : bits e.cdw10 0 9 = 0) (hses : bits e.cdw10 9 3 = 0) :
    execFormatNvm fn e eus bad s = .next ((unmarkRanges e.nsid [(0, s.nsSize e.nsid)]
      (s.modFtl fun f => f.unmapRuns (f.units (.ns e.nsid)))).adminEnd fn e {} []) := by
  simp [execFormatNvm, hns, hreserved, hses, hs, State.admin_serves]

/-! ## Sanitize (R400) -/

theorem execNvmeSanitize_begins {s : State} {fn : Fin 2} {e : Sqe} {block : Bool} (haction : sanitizeAction (bits e.cdw10 0 3) = some block)
    (hcap : s.cap 15 = true) (hnone : s.ftl.sanitizer = none) (hs : s.adminServes fn = true) :
    execNvmeSanitize fn e s = .next (s.modFtl fun f => { f with sanitizer := some { block := block, host := some (fn, e) } }) := by
  simp [execNvmeSanitize, haction, hcap, hnone, hs]

/-- What a sanitize lets go first: indexes, objects, sessions, the tier store. -/
def State.dropStores (s : State) : State :=
  let s := dropIndexes s.index.all s
  let s := (s.amp.objects.map (·.1)).foldl State.dropObject s
  let s := freeSessions s.tiers.sessions s
  s.modTiers fun t => { t with store := [], places := [] }

/-- Its rest, keys and flash, leaves the tiers alone. -/
theorem State.dropStores_runs_sanitizeNow (s : State) (block : Bool) (bad : List Nat) :
    Runs [.memory, .free, .fabric, .amp, .faults, .sec, .media, .ftl] s.dropStores (s.sanitizeNow block bad) := by
  unfold State.sanitizeNow
  cases block with
  | true =>
    simp only [if_true]
    exact eraseAll_runs (by decide) (by decide) (by decide) (by decide) (by decide) (by decide) (by decide)
      (State.modFtl_runs (by decide) (Runs.refl _ _) _) _ _
  | false =>
    simp only [Bool.false_eq_true, if_false]
    exact State.modFtl_runs (by decide) (State.modSec_runs (by decide) (drawKeys_runs (by decide) (by decide) (Runs.refl _ _) _)
      _ (by simp) (by simp)) _

theorem State.sanitizeNow_tiers (s : State) (block : Bool) (bad : List Nat) :
    (s.sanitizeNow block bad).tiers.store = [] ∧ (s.sanitizeNow block bad).tiers.places = [] := by
  have htiers := (s.dropStores_runs_sanitizeNow block bad).frame.tiers.resolve_left (by decide)
  rw [htiers]
  exact ⟨rfl, rfl⟩

/-- The action ends, and then its asker is answered: an AMP operation, a controller, or the controllers' readiness. -/
theorem execSanitizeDone_ends {s : State} {z : Sanitizer} (bad : List Nat) (hz : s.ftl.sanitizer = some z) (hs : s.serving = true)
    (hpinned : (z.block && s.ftl.eus.any fun x => s.pinned x.1) = false) :
    Ends [.answer, .fabric, .host, .amp] ((s.sanitizeNow z.block bad).modFtl fun f => { f with sanitizer := none })
      (execSanitizeDone bad s) := by
  rw [execSanitizeDone, hz, ends_next]
  simp only [hs, hpinned, Bool.not_true, Bool.or_self, Bool.false_eq_true, if_false]
  split
  · exact State.opDone_runs (by decide) (by decide) (Runs.refl _ _) _ _
  · exact Runs.ite (State.adminEnd_runs (by decide) (by decide) (by decide) (Runs.refl _ _) _ _ _ _) (Runs.refl _ _)
  · exact State.raiseReady_runs (by decide) (Runs.refl _ _)

/-- Settles O24, by the admin command, and for a sanitize by its begin and its end. -/
theorem namespacesAreMadeAndCleared : Obligations.NamespacesAreMadeAndCleared := by
  refine ⟨?create, ?delete, ?attach, ?format, ?sanitize, ?sanitized⟩
  case create =>
    intro s fn e nsze n f hs hsel hfree hsize halloc
    rw [exec_namespaceManagement, execNamespaceManagement_creates _ _ hsel, State.admin_serves _ _ hs, admCreateNs_fits hfree hsize halloc]
  case delete =>
    intro s fn e nsze ncap hs hsel h0 h128 hns
    obtain ⟨hdel, hspace⟩ := admDeleteNs_listed h0 h128 hns
    refine ⟨_, by rw [exec_namespaceManagement, execNamespaceManagement_deletes _ _ hsel, State.admin_serves _ _ hs], ?_, ?_⟩
    · rw [State.adminEnd_ns, hdel]
    · rw [State.adminEnd_ftl]
      exact hspace
  case attach =>
    intro s fn e l n hs h0 h128 hns hsel hl
    rw [exec_namespaceAttachment, execNamespaceAttachment, State.admin_serves _ _ hs, admAttach_listed h0 h128 hns hsel hl]
  case format =>
    intro s fn e eus bad hs hns hreserved hses
    exact execFormatNvm_unmaps eus bad hs hns hreserved hses
  case sanitize =>
    intro s fn e block haction hcap hnone hs
    exact execNvmeSanitize_begins haction hcap hnone hs
  case sanitized =>
    intro s bad z hz hs hpinned
    obtain ⟨u, hu, hruns⟩ := execSanitizeDone_ends bad hz hs hpinned
    obtain ⟨hstore, hplaces⟩ := s.sanitizeNow_tiers z.block bad
    have htiers := hruns.frame.tiers.resolve_left (by decide)
    have hftl := hruns.frame.ftl.resolve_left (by decide)
    refine ⟨u, hu, ?_, ?_, ?_⟩
    · rw [hftl]
      rfl
    · rw [htiers, State.modFtl_tiers, hstore]
    · rw [htiers, State.modFtl_tiers, Tiers.storeUsed, hplaces]
      rfl

end Sys2Proof.Machine
end

section
/-! The translation layer's own work (spec/17 R385, R389, R392, R402, R403), and O25. -/

namespace Sys2Proof.Machine

/-! ## Programs and collection (R385, R392) -/

theorem execWriteBufferProgram_passes {s : State} {eu : Nat} {g : List Nat} (eus : List Nat) (hg : s.ftl.nextGroup eu = some g)
    (hs : s.serving = true) (hhold : s.media.hold = false) (hflush : s.media.flush = false)
    (hpace : 65536 ≤ s.ftl.freeEus ∨ s.hostUnits g ≤ s.ftl.credit) :
    execWriteBufferProgram eu true eus s = .next (s.programGroup eu g) := by
  have hfree : ¬ (s.ftl.freeEus < 65536 ∧ s.ftl.credit < s.hostUnits g) := by omega
  simp only [execWriteBufferProgram, hg, hs, hhold, hflush, hfree, Bool.not_true, Bool.or_self, Bool.false_eq_true, if_false, if_true]

theorem execWriteBufferProgram_held {s : State} (eu : Nat) (ok : Bool) (eus : List Nat) (hhold : s.media.hold = true) :
    execWriteBufferProgram eu ok eus s = .next s := by
  cases hg : s.ftl.nextGroup eu <;> simp [execWriteBufferProgram, hg, hhold]

theorem State.isVictim_closed {s : State} {v : Nat} (h : s.isVictim v = true) : ∃ q, s.ftl.eu v = .closed q := by
  unfold State.isVictim at h
  dsimp only at h
  split at h
  · exact ⟨_, by assumption⟩
  · contradiction

/-- The victim's units can be moved to the erase units named, on their channels and not into the victim. -/
structure Collects (s : State) (v : Nat) (eus : List Nat) : Prop where
  enough : (s.ftl.validUnits v).length ≤ eus.length
  elsewhere : (eus.take (s.ftl.validUnits v).length).contains v = false
  channels : s.channelKept v (s.ftl.validUnits v) eus = true
  room : canPlace false (eus.take (s.ftl.validUnits v).length) s = true

theorem execGarbageCollection_collects {s : State} {v : Nat} {eus : List Nat} (ok : Bool) (hs : s.serving = true)
    (hhold : s.media.hold = false) (hflush : s.media.flush = false) (hvictim : s.isVictim v = true) (hnoOld : s.ftl.holdsOld v = false)
    (hshort : s.ftl.freeEus < 98304) (h : Collects s v eus) :
    execGarbageCollection v eus ok s = .next
      (((relocate (s.ftl.validUnits v) (eus.take (s.ftl.validUnits v).length) s).eraseEu v ok).modFtl fun f =>
        { f with credit := f.credit + (1152 - (s.ftl.validUnits v).length) }) := by
  obtain ⟨q, hclosed⟩ := State.isVictim_closed hvictim
  simp only [execGarbageCollection, hclosed, hs, hhold, hflush, h.enough, h.elsewhere, h.channels, h.room, hshort, hvictim, hnoOld,
    Bool.false_eq_true, not_false_eq_true, and_self, if_true]

/-! ## Checkpoints (R389) -/

/-- A checkpoint takes the next journal number for its chunk; which older entries it lets go is no matter here. -/
theorem execMapCheckpoint_serving {s : State} (chunk : Fin 256) (hs : s.serving = true) : ∃ f : Ftl → Ftl,
    execMapCheckpoint chunk s = .next (s.modFtl f) ∧ (f s.ftl).map = s.ftl.map ∧ (f s.ftl).buf = s.ftl.buf
      ∧ (f s.ftl).jseq = s.ftl.jseq + 1 ∧ (f s.ftl).checkpoints = Tab.set 0 s.ftl.checkpoints chunk (s.ftl.jseq + 1) := by
  rw [execMapCheckpoint, if_pos hs]
  exact ⟨_, rfl, rfl, rfl, rfl, rfl⟩

/-! ## Health (R402, R403) -/

/-- Readings below 70 °C lie in one band of the thresholds of R452. -/
theorem tempBands_below {a b : Int} (ha : a < 70) (hb : b < 70) :
    [70, 76, 80].map (fun k : Int => decide (k ≤ a)) = [70, 76, 80].map fun k : Int => decide (k ≤ b) := by
  refine List.map_congr_left fun k hk => ?_
  have hthreshold : 70 ≤ k := by
    simp only [List.mem_cons, List.not_mem_nil, or_false] at hk
    omega
  rw [decide_eq_false (by omega), decide_eq_false (by omega)]

/-- Of the translation layer a check of the health record changes the marks of what has been reported alone. -/
theorem State.healthCheck_ftl (s : State) : ∃ a b, s.healthCheck.ftl = { s.ftl with spareLow := a, worn := b } := by
  have hspare : ∃ a, (if s.ftl.spare < 10 ∧ ¬s.ftl.spareLow then (s.modFtl fun f => { f with spareLow := true }).post 0x05 1 []
      else s).ftl = { s.ftl with spareLow := a } := by
    split
    · exact ⟨true, State.post_ftl _ _ _ _⟩
    · exact ⟨s.ftl.spareLow, rfl⟩
  obtain ⟨a, ha⟩ := hspare
  unfold State.healthCheck
  dsimp only
  generalize (if s.ftl.spare < 10 ∧ ¬s.ftl.spareLow then (s.modFtl fun f => { f with spareLow := true }).post 0x05 1 []
    else s) = u at ha ⊢
  split
  · exact ⟨a, true, by rw [State.post_ftl, State.modFtl_ftl, ha]⟩
  · exact ⟨a, s.ftl.worn, ha⟩

/-- An event that may be posted leaves the translation layer alone. -/
theorem State.ite_post_ftl (s : State) (p : Prop) [Decidable p] (cls code : Nat) (detail : Bytes) :
    (if p then s.post cls code detail else s).ftl = s.ftl := by
  split
  · exact State.post_ftl _ _ _ _
  · rfl

/-- An hour is counted and PE_AVG kept; whether the life left has become short is noted and posted besides. -/
theorem execPeRateBucket_serving {s : State} (hs : s.serving = true) : ∃ u : State, execPeRateBucket s = .next u.healthCheck
    ∧ u.ftl.powerHours = s.ftl.powerHours + 1 ∧ u.ftl.buckets = (s.ftl.peAvg :: s.ftl.buckets).take 169 := by
  rw [execPeRateBucket, if_pos hs]
  refine ⟨_, rfl, ?_, ?_⟩
  all_goals
    rw [State.ite_post_ftl]
    rfl

/-- Settles O25: programs, collection, checkpoints, and what the health record counts by the minute and by the hour. -/
theorem translationLayerWorks : Obligations.TranslationLayerWorks := by
  refine ⟨?program, ?held, ?collect, ?checkpoint, ?temperature, ?hour⟩
  case program =>
    intro s eu eus g hg hs hhold hflush hpace
    exact execWriteBufferProgram_passes eus hg hs hhold hflush hpace
  case held =>
    intro s eu ok eus hhold
    exact execWriteBufferProgram_held eu ok eus hhold
  case collect =>
    intro s v eus ok hs hhold hflush hvictim hnoOld hshort henough helsewhere hchannels hroom
    exact execGarbageCollection_collects ok hs hhold hflush hvictim hnoOld hshort ⟨henough, helsewhere, hchannels, hroom⟩
  case checkpoint =>
    intro s chunk hs
    obtain ⟨f, hf, hmap, hbuf, hjseq, hcheckpoints⟩ := execMapCheckpoint_serving chunk hs
    refine ⟨_, hf, (State.modFtl_runs (by decide) (Runs.refl _ s) f).frame, hmap, hbuf, ?_, ?_⟩
    · rw [State.modFtl_ftl, hjseq, hcheckpoints]
    · rw [State.modFtl_ftl, hjseq]
      exact Nat.lt_succ_self _
  case temperature =>
    intro s t l hs
    have hserves : ¬ (!s.serving) = true := by simp [hs]
    rw [exec_flashTempPoll, execFlashTempPoll]
    dsimp only
    rw [if_neg hserves]
    refine ⟨_, rfl, (State.modPower_runs (by decide) (State.modMgmt_runs (by decide) (State.modFtl_runs (by decide)
      (Runs.refl _ s) _) _) _).frame, rfl, rfl, fun hhot hbefore => ?_⟩
    exact if_pos (tempBands_below hhot hbefore)
  case hour =>
    intro s hs
    obtain ⟨u, hu, hhours, hbuckets⟩ := execPeRateBucket_serving hs
    obtain ⟨a, b, hcheck⟩ := u.healthCheck_ftl
    refine ⟨_, hu, ?_, ?_⟩
    · rw [hcheck, ← hhours]
    · rw [hcheck, ← hbuckets]

end Sys2Proof.Machine
end

section
/-! The ladder, the clock and heat (spec/03 R57, spec/20 R441, R445 to R452, R456), and O56. -/

namespace Sys2Proof.Machine

/-! ## What the shared steps make of the power manager -/

/-- Of the power manager the clock that follows changes its level and the count of its steps. -/
theorem State.clockFollow_power (s : State) :
    s.clockFollow.power = { s.power with clock := s.power.level, clockSteps := s.clockFollow.power.clockSteps } := by
  unfold State.clockFollow
  dsimp only
  split
  next hlevel => rw [hlevel]
  next => rw [State.post_power, State.modPower_power]

theorem State.stepDown_power (s : State) : s.stepDown.power = { s.power with
    demandDraw := max s.power.demandDraw s.power.down, clockSteps := s.stepDown.power.clockSteps
    clock := max s.power.demandHold (max (max s.power.demandDraw s.power.down) s.power.demandTherm) } :=
  State.clockFollow_power (s.modPower fun p => { p with demandDraw := max p.demandDraw p.down })

theorem State.setPeak_power (s : State) (k : Peak) : (s.setPeak k).power = { s.power with peak := k } := by
  unfold State.setPeak
  split
  next hpeak => rw [← hpeak]
  next => exact State.post_power _ _ _ _

@[simp] theorem State.thermal_power (s : State) (rise : Bool) (sensor : Nat) (t : Int) :
    (s.thermal rise sensor t).power = s.power := State.post_power _ _ _ _

theorem State.ite_thermal_power (s : State) (p : Prop) [Decidable p] (rise : Bool) (sensor : Nat) (t : Int) :
    (if p then s.thermal rise sensor t else s).power = s.power := by
  split
  · exact s.thermal_power rise sensor t
  · rfl

@[simp] theorem State.crossings_power (s : State) (sensor : Nat) (a b : Int) (l : List Int) :
    (s.crossings sensor a b l).power = s.power := by
  induction l generalizing s with
  | nil => rfl
  | cons t l ih =>
    rw [State.crossings, ih]
    split
    · exact s.thermal_power _ _ _
    · exact s.ite_thermal_power _ _ _ _

/-- A reading that stays below a threshold crosses nothing. -/
theorem State.crossings_below (s : State) (sensor : Nat) {a b t : Int} (ha : a < t) (hb : b < t) :
    s.crossings sensor a b [t] = s := by
  simp only [State.crossings, Int.not_le.mpr ha, Int.not_le.mpr hb, and_false, if_false]

/-! ## Cooling (R451) -/

/-- The events of the cooling conditions. -/
def State.coolingEvents (s : State) (before : Power) : State :=
  let p := s.power
  let s := if p.hotInlet = before.hotInlet then s else s.thermal p.hotInlet 4 p.tInlet
  if p.lowFlow = before.lowFlow then s else s.thermal before.lowFlow 5 p.tOutlet

theorem State.coolingEvents_power (s : State) (before : Power) : (s.coolingEvents before).power = s.power := by
  unfold State.coolingEvents
  dsimp only
  split <;> split <;> simp

theorem State.cooling_eq (s : State) (before : Power) : s.cooling before =
    if s.power.hotInlet || s.power.lowFlow then
      ((s.coolingEvents before).modPower fun p => { p with flowOkSince := none }).setPeak .denied
    else if s.power.flowOkSince.isNone then
      (s.coolingEvents before).modPower fun p => { p with flowOkSince := some (s.coolingEvents before).hdCount }
    else s.coolingEvents before := rfl

/-- What a change of draw or coolant can change: the window, and the count of its way out of DENIED. -/
theorem State.cooling_power (s : State) (before : Power) :
    ∃ k c, (s.cooling before).power = { s.power with peak := k, flowOkSince := c } := by
  rw [State.cooling_eq]
  split
  · exact ⟨.denied, none, by rw [State.setPeak_power, State.modPower_power, State.coolingEvents_power]⟩
  · split
    · exact ⟨s.power.peak, _, by rw [State.modPower_power, State.coolingEvents_power]⟩
    · exact ⟨s.power.peak, s.power.flowOkSince, by rw [State.coolingEvents_power]⟩

theorem State.cooling_hot {s : State} (before : Power) (hhot : s.power.hotInlet = true) :
    (s.cooling before).power = { s.power with peak := .denied, flowOkSince := none } := by
  rw [State.cooling_eq, hhot, Bool.true_or, if_pos rfl, State.setPeak_power, State.modPower_power, State.coolingEvents_power]

/-! ## The ladder (R446, R447, R456) and NVMe power states (R57) -/

theorem execPowerStateEntry_enters {s : State} (hs : s.serving = true) (hwarn : s.power.holdWarn = false)
    (hwoken : s.power.woken = false) (heffective : s.effective ≠ s.power.ladder) (hebony : s.power.ladder ≠ 5)
    (hquiet : s.effective ≤ 1 ∨ s.quiet = true) : execPowerStateEntry s = .next s.enterState.powerAnswer := by
  simp [execPowerStateEntry, hs, hwarn, hwoken, heffective, hebony, hquiet]

theorem execPowerStateEntry_stays {s : State} (h : s.power.holdWarn = true ∨ s.effective = s.power.ladder) :
    execPowerStateEntry s = .next s := by
  rcases h with h | h <;> simp [execPowerStateEntry, h]

theorem execSetFeaturesPowerManagement_records {s : State} {fn : Fin 2} {e : Sqe} (hfeature : featureId e = 0x02)
    (hs : s.adminServes fn = true) (hps : bits e.cdw11 0 5 ≤ 4) (hsave : bit e.cdw10 31 = false) :
    execSetFeaturesPowerManagement fn e s = .next ((s.modPower fun p => { p with
      nvmePs0 := if fn.val = 0 then bits e.cdw11 0 5 else p.nvmePs0
      nvmePs1 := if fn.val = 1 then bits e.cdw11 0 5 else p.nvmePs1
      woken := p.woken && decide (p.target ≠ 0xFF) }).adminEnd fn e {} []) := by
  have hgood : ¬ (4 < bits e.cdw11 0 5 ∨ bit e.cdw10 31 = true) := by simp [hsave, Nat.not_lt.mpr hps]
  rw [execSetFeaturesPowerManagement, if_neg (not_not.mpr hfeature), State.admin_serves _ _ hs]
  simp only [hgood, if_false]

theorem execSetFeaturesPowerManagement_refuses {s : State} {fn : Fin 2} {e : Sqe} (hfeature : featureId e = 0x02)
    (hs : s.adminServes fn = true) (hps : 4 < bits e.cdw11 0 5) :
    execSetFeaturesPowerManagement fn e s = .next (s.adminEnd fn e (adminRefusal .invalidField St.unsupported) []) := by
  rw [execSetFeaturesPowerManagement, if_neg (not_not.mpr hfeature), State.admin_serves _ _ hs]
  simp only [hps, true_or, if_true, Admin.refuse]

theorem State.adminEnd_power (s : State) (fn : Nat) (e : Sqe) (c : Cqe) (b : Bytes) : (s.adminEnd fn e c b).power = s.power :=
  (State.adminEnd_runs (W := [.answer, .fabric, .host]) (by decide) (by decide) (by decide) (Runs.refl _ s) fn e c
    b).frame.power.resolve_left (by decide)

/-! ## Current and draw (R441, R450) -/

/-- A new average of the draw is taken, and with it the cooling conditions. -/
def State.drawn (s : State) (mw : Nat) : State :=
  (s.modPower fun p => { p with
    draw := mw
    lowSince := if mw < 540000 then some (p.lowSince.getD s.hdCount) else none
    recoverUs := if 600000 < mw then 0 else p.recoverUs }).cooling s.power

theorem State.drawn_power (s : State) (mw : Nat) : ∃ k c r, (s.drawn mw).power = { s.power with
    draw := mw, peak := k, flowOkSince := c, recoverUs := r
    lowSince := if mw < 540000 then some (s.power.lowSince.getD s.hdCount) else none } := by
  obtain ⟨k, c, h⟩ := State.cooling_power (s.modPower fun p => { p with
    draw := mw
    lowSince := if mw < 540000 then some (p.lowSince.getD s.hdCount) else none
    recoverUs := if 600000 < mw then 0 else p.recoverUs }) s.power
  exact ⟨k, c, _, h⟩

theorem execDrawAverageCrossing_calm {s : State} {mw : Nat} (hs : s.alive = true) (hmw : mw ≤ 600000) :
    execDrawAverageCrossing mw s = .next (s.drawn mw) := by
  have h600 : ¬ 600000 < mw := by omega
  have h760 : ¬ 760000 < mw := by omega
  have hserves : ¬ (!s.alive) = true := by simp [hs]
  rw [execDrawAverageCrossing, if_neg hserves]
  simp only [h600, h760, if_false]
  split <;> simp only [State.drawn, h600, if_false]

/-- Above 760 W the clock steps down whatever the window; an armed window opens first. -/
theorem execDrawAverageCrossing_peak {s : State} {mw : Nat} (hs : s.alive = true) (hmw : 760000 < mw) : ∃ u k,
    execDrawAverageCrossing mw s = .next (State.stepDown u) ∧ u.power = { (s.drawn mw).power with peak := k } := by
  have h600 : 600000 < mw := by omega
  have hserves : ¬ (!s.alive) = true := by simp [hs]
  rw [execDrawAverageCrossing, if_neg hserves]
  dsimp only
  split
  · rw [if_pos h600, if_pos hmw]
    exact ⟨_, .opened, rfl, State.setPeak_power _ _⟩
  · rw [if_pos hmw]
    exact ⟨s.drawn mw, _, rfl, rfl⟩
  · rw [if_pos h600]
    exact ⟨s.drawn mw, _, rfl, rfl⟩

/-! ## The peak window (R450, R451) -/

theorem execPeakWindowExpiry_expires {s : State} (hs : s.alive = true) (hpeak : s.power.peak = .opened)
    (hused : 40000000 ≤ s.power.windowUs) : execPeakWindowExpiry s = .next
      (((s.modPower fun p => { p with demandDraw := max p.demandDraw 1, recoverUs := 0, recheckAt := some (s.hdCount + 10000) }).setPeak
        .spent).clockFollow) := by
  simp [execPeakWindowExpiry, hs, hpeak, hused]

theorem execPeakSpentRecheck_high {s : State} {k : Nat} (hs : s.alive = true) (hat : s.power.recheckAt = some k)
    (hdue : k ≤ s.hdCount) (hpeak : s.power.peak = .spent) (hdraw : 600000 < s.power.draw) :
    execPeakSpentRecheck s = .next
      ((s.modPower fun p => { p with recheckAt := none }).modPower fun p => { p with demandDraw := 2 }).clockFollow := by
  simp [execPeakSpentRecheck, hs, hat, hdue, hpeak, hdraw]

theorem execClockStepUpTimer_due {s : State} {k ma : Nat} (hs : s.alive = true) (hlow : s.power.lowSince = some k)
    (hdue : k + 1000000 ≤ s.hdCount) (hma : ma ≤ 20500) (hdemand : s.power.demandDraw ≠ 0) : execClockStepUpTimer ma s = .next
      (s.modPower fun p => { p with amps := ma, demandDraw := p.demandDraw - 1, lowSince := some s.hdCount }).clockFollow := by
  simp [execClockStepUpTimer, hs, hlow, hdue, hma, hdemand]

theorem execPeakRecovery_due {s : State} (hs : s.alive = true) (hpeak : s.power.peak = .spent)
    (hdue : 120000000 ≤ s.power.recoverUs) :
    execPeakRecovery s = .next ((s.modPower fun p => { p with windowUs := 0, recoverUs := 0 }).setPeak .armed) := by
  simp [execPeakRecovery, hs, hpeak, hdue]

theorem execDeniedExit_due {s : State} {k : Nat} (hflow : s.power.flowOkSince = some k) (hpeak : s.power.peak = .denied)
    (hdue : k + 10000000 ≤ s.hdCount) :
    execDeniedExit s = .next ((s.modPower fun p => { p with recoverUs := 0, recheckAt := none }).setPeak .spent) := by
  simp [execDeniedExit, hflow, hpeak, hdue]

/-! ## Temperatures (R452) -/

@[simp] theorem Power.junction_setJunction (p : Power) (k : Nat) (t : Int) : (p.setJunction k t).junction k = t := by
  match k with
  | 0 | 1 | _ + 2 => rfl

theorem Power.setJunction_tripLatch (p : Power) (k : Nat) (t : Int) : (p.setJunction k t).tripLatch = p.tripLatch := by
  match k with
  | 0 | 1 | _ + 2 => rfl

/-- One junction above 95 °C keeps the clock from stepping up. -/
theorem Power.not_cool (p : Power) (k : Nat) {t : Int} (h : 95 < t) : (p.setJunction k t).cool = false := by
  match k with
  | 0 | 1 | _ + 2 => simp [Power.cool, Power.setJunction, h]

theorem Power.junction_congr {p q : Power} (h0 : q.tCd0 = p.tCd0) (h1 : q.tCd1 = p.tCd1) (h2 : q.tHd = p.tHd) (k : Nat) :
    q.junction k = p.junction k := by
  match k with
  | 0 => exact h0
  | 1 => exact h1
  | _ + 2 => exact h2

/-- From 105 °C up to the trip the lowest clock is demanded, and no junction is cool. -/
theorem execJunctionTempCrossing_hot {s : State} {k : Fin 3} {t : Int} (hs : s.alive = true) (hhot : 105 ≤ t) (htrip : t < 110) :
    ∃ u : State, execJunctionTempCrossing k t s = .next u.clockFollow
      ∧ u.power = { s.power.setJunction k t with coolSince := none, demandTherm := 2 } := by
  have hserves : ¬ (!s.alive) = true := by simp [hs]
  rw [execJunctionTempCrossing, if_neg hserves]
  dsimp only
  rw [if_pos hhot, if_neg (Int.not_le.mpr htrip)]
  refine ⟨_, rfl, ?_⟩
  rw [State.modPower_power]
  split <;> simp only [State.modPower_power, State.crossings_power, Power.not_cool _ _ (show 95 < t by omega), Bool.false_eq_true, if_false]

theorem execThermalStepUp_due {s : State} {k : Nat} (hs : s.alive = true) (hcool : s.power.coolSince = some k)
    (hdue : k + 1000000 ≤ s.hdCount) (hdemand : s.power.demandTherm ≠ 0) : execThermalStepUp s = .next
      (s.modPower fun p => { p with demandTherm := p.demandTherm - 1, coolSince := some s.hdCount }).clockFollow := by
  simp [execThermalStepUp, hs, hcool, hdue, hdemand]

theorem State.holdFollow_held {s : State} (h : s.power.holdFlash = true) :
    s.holdFollow = s.modMedia fun m => { m with hold := true } := by
  rw [State.holdFollow, h, Bool.or_true, mediaHold, if_pos rfl]

theorem execFlashTempCrossing_hot {s : State} {t : Int} (hs : s.alive = true) (hhot : 80 ≤ t) :
    ∃ u : State, execFlashTempCrossing t s = .next u.holdFollow ∧ u.power = { s.power with tFlash := t, holdFlash := true } := by
  have hserves : ¬ (!s.alive) = true := by simp [hs]
  rw [execFlashTempCrossing, if_neg hserves]
  refine ⟨_, rfl, ?_⟩
  simp only [State.modPower_power, State.ite_thermal_power, State.crossings_power, hhot, decide_true, Bool.true_or]

/-- Below 70 °C before and after, no threshold is crossed. -/
theorem execFlashTempCrossing_cold {s : State} {t : Int} (hs : s.alive = true) (hbefore : s.power.tFlash < 70) (ht : t < 70) :
    execFlashTempCrossing t s = .next (s.modPower fun p => { p with tFlash := t, holdFlash := false }).holdFollow := by
  have hserves : ¬ (!s.alive) = true := by simp [hs]
  have h80 : ¬ 80 ≤ t := by omega
  have h75 : ¬ 75 < t := by omega
  have hfall : ¬ 75 < s.power.tFlash := by omega
  rw [execFlashTempCrossing, if_neg hserves]
  dsimp only
  rw [State.crossings_below _ _ hbefore ht]
  simp only [h80, h75, hfall, and_false, false_and, if_false, decide_false, Bool.and_false, Bool.or_self]
  rfl

/-- Settles O56, from the ladder by the clock to the temperatures. -/
theorem ladderClockAndHeatAct : Obligations.LadderClockAndHeatAct := by
  refine ⟨?enter, ?stay, ?nvmePower, ?nvmeRefused, ?current, ?currentLow, ?drawCalm, ?drawPeak, ?expiry, ?recheck, ?stepUp, ?recovery,
    ?deniedExit, ?coolant, ?junction, ?thermal, ?flashHot, ?flashCold⟩
  case enter =>
    intro s hs hwarn hwoken heffective hebony hquiet
    exact execPowerStateEntry_enters hs hwarn hwoken heffective hebony hquiet
  case stay =>
    intro s h
    exact execPowerStateEntry_stays h
  case nvmePower =>
    intro s fn e hfeature hs hps hsave
    exact execSetFeaturesPowerManagement_records hfeature hs hps hsave
  case nvmeRefused =>
    intro s fn e hfeature hs hps
    exact ⟨_, execSetFeaturesPowerManagement_refuses hfeature hs hps, State.adminEnd_power _ _ _ _ _⟩
  case current =>
    intro s ma hs hma
    refine ⟨_, by rw [exec_currentLimit, execCurrentLimit, if_pos (by simp [hs, hma])], ?_⟩
    rw [State.stepDown_power]
    exact ⟨rfl, rfl⟩
  case currentLow =>
    intro s ma hma
    rw [exec_currentLimit, execCurrentLimit, if_neg (by simp [Nat.not_lt.mpr hma])]
  case drawCalm =>
    intro s mw hs hmw
    obtain ⟨k, c, r, hpower⟩ := s.drawn_power mw
    refine ⟨_, execDrawAverageCrossing_calm hs hmw, ?_⟩
    rw [hpower]
    exact ⟨rfl, rfl, rfl⟩
  case drawPeak =>
    intro s mw hs hmw
    obtain ⟨u, k, hu, hdrawn⟩ := execDrawAverageCrossing_peak hs hmw
    obtain ⟨_, c, r, hbefore⟩ := s.drawn_power mw
    refine ⟨_, hu, ?_⟩
    rw [State.stepDown_power, hdrawn, hbefore]
    exact ⟨rfl, rfl⟩
  case expiry =>
    intro s hs hpeak hused
    refine ⟨_, execPeakWindowExpiry_expires hs hpeak hused, ?_⟩
    rw [State.clockFollow_power, State.setPeak_power]
    exact ⟨rfl, rfl, rfl, Nat.le_max_right _ _⟩
  case recheck =>
    intro s k hs hat hdue hpeak hdraw
    refine ⟨_, execPeakSpentRecheck_high hs hat hdue hpeak hdraw, ?_⟩
    rw [State.clockFollow_power]
    exact ⟨rfl, rfl, Nat.le_trans (Nat.le_max_left _ _) (Nat.le_max_right _ _)⟩
  case stepUp =>
    intro s k ma hs hlow hdue hma hdemand
    refine ⟨_, execClockStepUpTimer_due hs hlow hdue hma hdemand, ?_⟩
    rw [State.clockFollow_power]
    exact ⟨rfl, rfl, rfl⟩
  case recovery =>
    intro s hs hpeak hdue
    refine ⟨_, execPeakRecovery_due hs hpeak hdue, ?_⟩
    rw [State.setPeak_power]
    exact ⟨rfl, rfl, rfl⟩
  case deniedExit =>
    intro s k hflow hpeak hdue
    refine ⟨_, execDeniedExit_due hflow hpeak hdue, ?_⟩
    rw [State.setPeak_power]
    exact ⟨rfl, rfl⟩
  case coolant =>
    intro s inlet outlet hs hhot
    refine ⟨_, by rw [exec_coolantLimitCrossing, execCoolantLimitCrossing, if_pos hs], ?_⟩
    rw [State.cooling_hot s.power (decide_eq_true hhot)]
    exact ⟨rfl, rfl, rfl, rfl⟩
  case junction =>
    intro s k t hs hhot htrip
    obtain ⟨u, hu, hjunction⟩ := execJunctionTempCrossing_hot (k := k) hs hhot htrip
    refine ⟨_, hu, ?_⟩
    rw [State.clockFollow_power, Power.level, hjunction]
    refine ⟨?_, rfl, Nat.le_trans (Nat.le_max_right _ _) (Nat.le_max_right _ _), Power.setJunction_tripLatch _ _ _, rfl⟩
    exact (Power.junction_congr rfl rfl rfl k).trans (Power.junction_setJunction s.power k t)
  case thermal =>
    intro s k hs hcool hdue hdemand
    refine ⟨_, execThermalStepUp_due hs hcool hdue hdemand, ?_⟩
    rw [State.clockFollow_power]
    exact ⟨rfl, rfl, rfl⟩
  case flashHot =>
    intro s t hs hhot
    obtain ⟨u, hu, hpower⟩ := execFlashTempCrossing_hot hs hhot
    refine ⟨_, hu, ?_⟩
    rw [State.holdFollow_held (by rw [hpower]), State.modMedia_power, hpower]
    exact ⟨rfl, rfl, rfl, rfl⟩
  case flashCold =>
    intro s t hs hbefore ht
    exact execFlashTempCrossing_cold hs hbefore ht

end Sys2Proof.Machine
end

section
/-! The host mailboxes (spec/04 R82): what each register access makes of its mailbox, and O30. -/

namespace Sys2Proof.Machine

/-! ## A mailbox of the state -/

@[simp] theorem State.mb_modMb (s : State) (k : Nat) (f : Mbox → Mbox) : (s.modMb k f).amp.mb k = f (s.amp.mb k) :=
  Amp.mb_setMb _ _ _

@[simp] theorem Amp.setMb_jobs (a : Amp) (k : Nat) (m : Mbox) : (a.setMb k m).jobs = a.jobs := by
  match k with
  | 0 | 1 | _ + 2 => rfl

@[simp] theorem State.jobs_modMb (s : State) (k : Nat) (f : Mbox → Mbox) : (s.modMb k f).amp.jobs = s.amp.jobs :=
  Amp.setMb_jobs _ _ _

theorem Amp.setMb_self (a : Amp) (k : Nat) : a.setMb k (a.mb k) = a := by
  match k with
  | 0 | 1 | _ + 2 => rfl

/-- What a change makes of a mailbox is all that matters of it. -/
theorem State.modMb_congr {s : State} {k : Nat} {f g : Mbox → Mbox} (h : f (s.amp.mb k) = g (s.amp.mb k)) :
    s.modMb k f = s.modMb k g := by
  simp only [State.modMb, State.modAmp, h]

theorem State.modMb_unchanged {s : State} {k : Nat} {f : Mbox → Mbox} (h : f (s.amp.mb k) = s.amp.mb k) : s.modMb k f = s := by
  simp only [State.modMb, State.modAmp, h, Amp.setMb_self]

/-! ## The registers of a mailbox -/

theorem mbAccess_reached {s : State} {fn : Nat} (f : State → State) (hreach : s.mbReach fn = true) : mbAccess fn true f s = f s := by
  simp only [mbAccess, hreach, if_true]

theorem Mbox.reqLen_fills {m : Mbox} {waiting : MbState} {v : Nat} (hidle : m.state = waiting) (hlo : 16 ≤ v) (hhi : v ≤ 65576) :
    m.reqLen waiting v = { m with state := .filling, reqBytes := v, inWords := 0, inData := [], outWords := 0 } :=
  if_pos ⟨hidle, hlo, hhi⟩

theorem Mbox.reqLen_short (m : Mbox) (waiting : MbState) {v : Nat} (hv : v < 16) : m.reqLen waiting v = { m with seqErr := true } :=
  if_neg fun h => Nat.not_le.mpr hv h.2.1

theorem Mbox.dataIn_appends {m : Mbox} (v : Nat) (hfilling : m.state = .filling) (hroom : m.inWords < (m.reqBytes + 7) / 8) :
    m.dataIn v = { m with inData := m.inData ++ leBytes 8 v, inWords := m.inWords + 1 } := by
  rw [Mbox.dataIn, if_pos hfilling, if_pos (show m.inWords < m.need from hroom)]

theorem Mbox.dataIn_outside {m : Mbox} (v : Nat) (h : m.state ≠ .filling) : m.dataIn v = { m with seqErr := true } :=
  if_neg h

theorem Mbox.dataOut_word {m : Mbox} (hresponse : m.state = .response) (hleft : m.outWords < (m.resp.length + 7) / 8) :
    m.dataOut = ({ m with outWords := m.outWords + 1 }, leNat ((m.resp.drop (8 * m.outWords)).take 8)) :=
  if_pos ⟨hresponse, hleft⟩

theorem Mbox.dataOut_past {m : Mbox} (h : (m.resp.length + 7) / 8 ≤ m.outWords) : m.dataOut = (m, 0) :=
  if_neg fun hleft => Nat.not_lt.mpr h hleft.2

theorem execMbReqLenWrite_reached {s : State} {fn : Fin 2} {v : Nat} {g : Mbox → Mbox} (hreach : s.mbReach fn = true)
    (hv : v < 2 ^ 17) (hg : (s.amp.mb fn).reqLen s.idleState v = g (s.amp.mb fn)) :
    execMbReqLenWrite fn false v s = .next (s.modMb fn g) := by
  rw [execMbReqLenWrite, Bool.not_false, mbAccess_reached _ hreach, Nat.mod_eq_of_lt hv, State.modMb_congr hg]

theorem execMbDataInWrite_reached {s : State} {fn : Fin 2} {v : Nat} {g : Mbox → Mbox} (hreach : s.mbReach fn = true)
    (hg : (s.amp.mb fn).dataIn v = g (s.amp.mb fn)) : execMbDataInWrite fn true v s = .next (s.modMb fn g) := by
  rw [execMbDataInWrite, mbAccess_reached _ hreach, State.modMb_congr hg]

theorem execMbDataOutRead_reached {s : State} {fn : Fin 2} {n : Nat} {g : Mbox → Mbox} (hreach : s.mbReach fn = true)
    (hout : (s.amp.mb fn).dataOut = (g (s.amp.mb fn), n)) :
    execMbDataOutRead fn true s = .next ((s.modMb fn g).reply (.value n)) := by
  rw [execMbDataOutRead, mbAccess_reached _ hreach, hout, State.modMb_congr (congrArg Prod.fst hout)]

theorem execMbSend_filling {s : State} {fn : Fin 2} (hreach : s.mbReach fn = true) (h : (s.amp.mb fn).state = .filling) :
    execMbSend fn s = .next (ampSubmit fn ((s.amp.mb fn).inData.take (s.amp.mb fn).reqBytes)
      ((s.amp.mb fn).inWords == (s.amp.mb fn).need) 0 (s.modMb fn fun m => { m with state := .busy })) := by
  simp only [execMbSend, mbAccess_reached _ hreach, mbSend, h, if_true]

theorem execMbRelease_reached {s : State} {fn : Fin 2} {g : Mbox → Mbox} (hreach : s.mbReach fn = true)
    (hg : (if (s.amp.mb fn).state = .response then (s.amp.mb fn).toIdle s.idleState else s.amp.mb fn) = g (s.amp.mb fn)) :
    execMbRelease fn s = .next (s.modMb fn g) := by
  rw [execMbRelease, mbAccess_reached _ hreach]
  exact congrArg Host.Outcome.next (State.modMb_congr hg)

/-! ## ABANDON -/

theorem mbAbandon_mb (fn : Nat) (s : State) : (mbAbandon fn s).amp.mb fn = (s.amp.mb fn).toIdle s.idleState := by
  rw [mbAbandon, State.modAmp_amp, Amp.mb_withJobs, State.mb_modMb]

theorem mbAbandon_jobs (fn : Nat) (s : State) :
    (mbAbandon fn s).amp.jobs = s.amp.jobs.map fun j => if j.mb = fn then { j with abandoned := true } else j := by
  rw [mbAbandon, State.modAmp_amp, State.jobs_modMb]

theorem mbAbandon_abandons {fn : Nat} {s : State} {j : AmpJob} (hj : j ∈ (mbAbandon fn s).amp.jobs) (hmb : j.mb = fn) :
    j.abandoned = true := by
  rw [mbAbandon_jobs] at hj
  obtain ⟨i, -, rfl⟩ := List.mem_map.mp hj
  by_cases hi : i.mb = fn
  · rw [if_pos hi]
  · rw [if_neg hi] at hmb; contradiction

/-- Settles O30, register by register. -/
theorem hostMailboxMovesMessages : Obligations.HostMailboxMovesMessages := by
  refine ⟨?length, ?short, ?dataIn, ?dataInOutside, ?dataOut, ?dataOutPast, ?send, ?release, ?releaseIgnored, ?abandon⟩
  case length =>
    intro s fn v hreach hidle hlo hhi
    exact execMbReqLenWrite_reached hreach (by omega) (Mbox.reqLen_fills hidle hlo hhi)
  case short =>
    intro s fn v hreach hv
    exact execMbReqLenWrite_reached hreach (by omega) (Mbox.reqLen_short _ _ hv)
  case dataIn =>
    intro s fn v hreach hfilling hroom
    exact execMbDataInWrite_reached hreach (Mbox.dataIn_appends v hfilling hroom)
  case dataInOutside =>
    intro s fn v hreach h
    exact execMbDataInWrite_reached hreach (Mbox.dataIn_outside v h)
  case dataOut =>
    intro s fn hreach hresponse hleft
    exact execMbDataOutRead_reached hreach (Mbox.dataOut_word hresponse hleft)
  case dataOutPast =>
    intro s fn hreach hpast
    exact execMbDataOutRead_reached hreach (Mbox.dataOut_past hpast)
  case send =>
    intro s fn hreach hfilling
    exact execMbSend_filling hreach hfilling
  case release =>
    intro s fn hreach hresponse
    exact execMbRelease_reached hreach (if_pos hresponse)
  case releaseIgnored =>
    intro s fn hreach h
    exact ⟨_, execMbRelease_reached (g := id) hreach (if_neg h), State.modMb_unchanged rfl⟩
  case abandon =>
    intro s fn hreach
    refine ⟨mbAbandon fn s, ?_, (mbAbandon_runs (by decide) (Runs.refl _ s) fn).frame, ?_, ?_,
      fun j hj hmb => mbAbandon_abandons hj hmb, ?_⟩
    · rw [exec_mbAbandon, execMbAbandon, mbAccess_reached _ hreach]
    · rw [mbAbandon_mb]; rfl
    · rw [mbAbandon_mb]; rfl
    · rw [mbAbandon_jobs, List.length_map]

end Sys2Proof.Machine
end

section
/-! Responses, the management mailbox and its notices (spec/04 R82, R84, R85, R87, R93, R95), and O31. -/

namespace Sys2Proof.Machine

/-! ## Placing a response (R82) -/

/-- A mailbox's oldest message done leaves the list and its response stands in the mailbox. -/
def State.placeResponse (s : State) (mb : Nat) (r : Bytes) : State :=
  (s.modAmp fun a => { a with jobs := ampDropDone mb a.jobs }).modMb mb fun x =>
    { x with state := .response, resp := r, outWords := 0, inData := [] }

theorem State.placeResponse_mb (s : State) (mb : Nat) (r : Bytes) : (s.placeResponse mb r).amp.mb mb =
    { s.amp.mb mb with state := .response, resp := r, outWords := 0, inData := [] } := by
  rw [State.placeResponse, State.mb_modMb, State.modAmp_amp, Amp.mb_withJobs]

theorem State.placeResponse_jobs (s : State) (mb : Nat) (r : Bytes) :
    (s.placeResponse mb r).amp.jobs = ampDropDone mb s.amp.jobs := by
  rw [State.placeResponse, State.jobs_modMb, State.modAmp_amp]

section
variable {s : State} {mb : Nat} {j : AmpJob} {st : Nat} {p : Bytes}

/-- The response of a host mailbox is placed, and its vector signalled where the host asked for that. -/
theorem ampRespond_host (hdone : ampFirstDone mb s.amp.jobs = some (j, st, p)) (hwaits : j.abandoned = false) (hmb : mb < 2) :
    ampRespond mb s = if (s.amp.mb mb).respIe then (s.placeResponse mb (j.response st p)).signal mb 1
      else s.placeResponse mb (j.response st p) := by
  have hrespIe : ((s.placeResponse mb (j.response st p)).amp.mb mb).respIe = (s.amp.mb mb).respIe := by
    rw [State.placeResponse_mb]
  rw [← hrespIe]
  simp only [ampRespond, hdone, hwaits, hmb, if_true, Bool.false_eq_true, if_false]
  rfl

theorem ampRespond_host_amp (hdone : ampFirstDone mb s.amp.jobs = some (j, st, p)) (hwaits : j.abandoned = false) (hmb : mb < 2) :
    (ampRespond mb s).amp = (s.placeResponse mb (j.response st p)).amp := by
  rw [ampRespond_host hdone hwaits hmb]
  split
  · exact State.signal_amp _ _ _
  · rfl

theorem ampRespond_host_runs (hdone : ampFirstDone mb s.amp.jobs = some (j, st, p)) (hwaits : j.abandoned = false) (hmb : mb < 2) :
    Runs [.amp, .fabric] s (ampRespond mb s) := by
  have hplaced : Runs [.amp, .fabric] s (s.placeResponse mb (j.response st p)) :=
    State.modMb_runs (by decide) (State.modAmp_runs (by decide) (Runs.refl _ s) _) _ _
  rw [ampRespond_host hdone hwaits hmb]
  exact Runs.ite (State.signal_runs (by decide) hplaced _ _) hplaced

theorem ampRespond_abandoned (hdone : ampFirstDone mb s.amp.jobs = some (j, st, p)) (h : j.abandoned = true) :
    ampRespond mb s = s.modAmp fun a => { a with jobs := ampDropDone mb a.jobs } := by
  simp only [ampRespond, hdone, h, if_true]

/-- The response of the management mailbox is sent to the endpoint that asked. -/
theorem ampRespond_management (hdone : ampFirstDone mb s.amp.jobs = some (j, st, p)) (hwaits : j.abandoned = false) (hmb : ¬mb < 2) :
    ampRespond mb s = (((s.modAmp fun a => { a with jobs := ampDropDone mb a.jobs }).modMb mb fun x =>
      { x with state := s.idleState }).reply (.sent j.endpoint (mctpBody 2 (j.response st p)))) := by
  simp only [ampRespond, hdone, hwaits, hmb, Bool.false_eq_true, if_false]
  rfl

end

theorem execMbResponseReady_on {s : State} (mb : Fin 3) (hon : s.mailOn = true) :
    execMbResponseReady mb s = .next (ampRespond mb s) := by
  rw [execMbResponseReady, if_pos hon]

/-! ## Bytes of a number -/

@[simp] theorem length_leBytes (k n : Nat) : (leBytes k n).length = k := by
  induction k generalizing n with
  | zero => rfl
  | succ k ih => simp only [leBytes, List.length_cons, ih]

theorem leNat_leBytes (k n : Nat) : leNat (leBytes k n) = n % 256 ^ k := by
  induction k generalizing n with
  | zero => simp [leBytes, leNat, Nat.mod_one]
  | succ k ih =>
    have hbyte : (byteOf n).toNat = n % 256 := BitVec.toNat_ofNat n 8
    rw [leBytes, leNat, ih, hbyte, Nat.pow_succ', Nat.mod_mul]

/-! ## Messages over MCTP (R84, R85) -/

theorem mctpBody_vendor (kind : Nat) (b : Bytes) : fieldAt (mctpBody kind b) 0 2 = Config.vendorId :=
  (leNat_leBytes 2 Config.vendorId).trans (Nat.mod_eq_of_lt Config.vendorCode.isLt)

theorem mctpBody_kind (kind : Nat) (b : Bytes) : fieldAt (mctpBody kind b) 2 1 = kind % 256 :=
  leNat_leBytes 1 kind

theorem mctpBody_message (kind : Nat) (b : Bytes) : (mctpBody kind b).drop 3 = b := rfl

theorem mctpBody_length (kind : Nat) (b : Bytes) : 3 ≤ (mctpBody kind b).length := Nat.le_add_left 3 b.length

/-- A request under the vendor ID reaches the management mailbox. -/
theorem execMctpAmpMessage_request {s : State} (ep : Nat) (b : Bytes) (hside : s.sideband = true) (hon : s.mailOn = true) :
    execMctpAmpMessage ep (mctpBody 1 b) s = .next (if s.amp.m2.state = .busy then s.reply (.sent ep (mctpBody 2 (busyAnswer b)))
      else ampSubmit 2 b true ep (s.modMb 2 fun m => { m with state := .busy })) := by
  simp only [execMctpAmpMessage, hside, hon, mctpBody_vendor, mctpBody_kind, mctpBody_message, mctpBody_length, BEq.rfl, Bool.and_self,
    decide_true, if_true]
  rfl

theorem execMgmtEventNotice_sends {s : State} {ep : Nat} (hdue : s.amp.noticeDue = true) (hevents : s.amp.m2.events ≠ [])
    (hep : s.amp.helloEndpoint = some ep) (hside : s.sideband = true) (hlate : ∀ t, s.amp.lastNotice = some t → t + 100000 ≤ s.hdCount) :
    execMgmtEventNotice s = .next ((s.modAmp fun a => { a with noticeDue := false, lastNotice := some s.hdCount }).reply
      (.sent ep (mctpBody 3 []))) := by
  have hqueued : (s.amp.mb 2).events.isEmpty = false := List.isEmpty_eq_false_iff.mpr hevents
  cases hlast : s.amp.lastNotice with
  | none => simp [execMgmtEventNotice, hlast, hdue, hqueued, hep, hside]
  | some t => simp [execMgmtEventNotice, hlast, hlate t hlast, hdue, hqueued, hep, hside]

theorem execMgmtEventNotice_early {s : State} {t : Nat} (hlast : s.amp.lastNotice = some t) (hearly : s.hdCount < t + 100000) :
    execMgmtEventNotice s = .next s := by
  simp [execMgmtEventNotice, hlast, Nat.not_le.mpr hearly]

/-! ## Opcodes no table lists (R95) -/

theorem execUnlistedAmpOpcode_answers {s : State} {mb : Fin 3} {j : AmpJob} (hon : s.mailOn = true)
    (hturn : ampTurn mb s.amp.jobs false = some j) (hop : j.op ∉ ampOpcodes) :
    execUnlistedAmpOpcode mb s = .next (s.ampDone mb St.badOpcode []) := by
  simp [execUnlistedAmpOpcode, hturn, hon, hop, State.ampDone]

/-- Settles O31: what `ampRespond` does with a response by whose it is, then the management mailbox and the timers. -/
theorem responsesAndNotices : Obligations.ResponsesAndNotices := by
  refine ⟨?host, ?abandoned, ?management, ?busy, ?submitted, ?notice, ?early, ?lockout, ?unlisted⟩
  case host =>
    intro s fn j st p hon hdone hwaits
    refine ⟨ampRespond fn s, execMbResponseReady_on _ hon, (ampRespond_host_runs hdone hwaits fn.isLt).frame, ?_⟩
    rw [ampRespond_host_amp hdone hwaits fn.isLt, State.placeResponse_mb]
    exact ⟨rfl, rfl, State.placeResponse_jobs _ _ _⟩
  case abandoned =>
    intro s mb j st p hon hdone h
    rw [exec_mbResponseReady, execMbResponseReady_on mb hon, ampRespond_abandoned hdone h]
  case management =>
    intro s j st p hon hdone hwaits
    have hsent := ampRespond_management (mb := 2) hdone hwaits (by decide)
    exact ⟨ampRespond 2 s, execMbResponseReady_on 2 hon, by rw [hsent]; exact ⟨rfl, rfl⟩⟩
  case busy =>
    intro s ep b hside hon hbusy
    rw [exec_mctpAmpMessage, execMctpAmpMessage_request ep b hside hon, if_pos hbusy]
  case submitted =>
    intro s ep b hside hon hfree
    rw [exec_mctpAmpMessage, execMctpAmpMessage_request ep b hside hon, if_neg hfree]
  case notice =>
    intro s ep hdue hevents hep hside hlate
    exact execMgmtEventNotice_sends hdue hevents hep hside hlate
  case early =>
    intro s t hlast hearly
    exact execMgmtEventNotice_early hlast hearly
  case lockout =>
    intro s mb hlocked hend
    rw [exec_lockoutExpiry, execLockoutExpiry, if_pos ⟨hlocked, hend⟩]
  case unlisted =>
    intro s mb j hon hturn hop
    exact execUnlistedAmpOpcode_answers hon hturn hop

end Sys2Proof.Machine
end

section
/-! Messages about the protocol itself (spec/04 R88, R89, R100, R497, spec/21 R468), and O32. -/

namespace Sys2Proof.Machine

/-! ## HELLO (R88, R89) -/

/-- What HELLO makes of its mailbox: version 1 is bound with the host's capabilities, and lost events are counted from 0. -/
def Mbox.bind (m : Mbox) (p : Bytes) : Mbox :=
  { m with version := some 1, caps1 := fieldAt p 0x10 16, caps2 := fieldAt p 0x20 16, caps3 := fieldAt p 0x30 16, eventsLost := 0 }

/-- What HELLO makes of the state: notices of the management mailbox go to the endpoint that sent it. -/
def State.bind (s : State) (j : AmpJob) : State :=
  let u := s.modMb j.mb fun m => m.bind j.payload
  if j.mb = 2 then u.modAmp fun a => { a with helloEndpoint := some j.endpoint } else u

theorem Amp.mb_withHelloEndpoint (a : Amp) (e : Option Nat) (k : Nat) : ({ a with helloEndpoint := e } : Amp).mb k = a.mb k := by
  match k with
  | 0 | 1 | _ + 2 => rfl

theorem State.bind_mb (s : State) (j : AmpJob) : (s.bind j).amp.mb j.mb = (s.amp.mb j.mb).bind j.payload := by
  unfold State.bind
  split
  · rw [State.modAmp_amp, Amp.mb_withHelloEndpoint, State.mb_modMb]
  · exact State.mb_modMb _ _ _

theorem State.bind_runs (s : State) (j : AmpJob) : Runs [.amp] s (s.bind j) := by
  have hbound : Runs [.amp] s (s.modMb j.mb fun m => m.bind j.payload) := State.modMb_runs (by decide) (Runs.refl _ s) _ _
  exact Runs.ite (State.modAmp_runs (by decide) hbound _) hbound

theorem hello_binds {s : State} {j : AmpJob} (hlow : fieldAt j.payload 0 1 ≤ 1) (hhigh : 1 ≤ fieldAt j.payload 1 1) :
    hello j s = (s.bind j, .done St.ok ((s.bind j).helloBytes j.mb)) := by
  have hversion : ¬(1 < fieldAt j.payload 0 1 ∨ fieldAt j.payload 1 1 < 1) := by omega
  simp only [hello, hversion, if_false]
  rfl

/-! ## AMP_STATUS (R497, R466) -/

theorem ampStatus_answers (j : AmpJob) (s : State) :
    ∃ p, p.length = (if s.sec.phase = .recovery then 16 else 96) ∧ ampStatus j s = (s, .done St.ok p) := by
  unfold ampStatus
  split
  · exact ⟨_, by simp only [List.length_append, length_leBytes, List.length_replicate], rfl⟩
  · exact ⟨_, by simp only [List.length_append, length_leBytes, List.length_replicate], rfl⟩

/-! ## Events (R100) -/

theorem takeEvents_all {p : Event → Bool} (n : Nat) {l : List Event} (h : ∀ e, p e = true) :
    takeEvents p n l = (l.take n, l.drop n) := by
  induction l generalizing n with
  | nil => cases n <;> rfl
  | cons e l ih =>
    cases n with
    | zero => rfl
    | succ n => simp only [takeEvents, h e, if_true, ih n, List.take_succ_cons, List.drop_succ_cons]

theorem Mbox.lostRecord_none {m : Mbox} (stamp : Nat × Bool) (h : m.dropped = 0) : m.lostRecord stamp = m :=
  if_neg fun hlost => hlost.1 h

/-- With nothing dropped, EVENT_READ outside recovery mode returns the oldest events and removes them. -/
theorem eventRead_oldest {s : State} {j : AmpJob} (hlo : 1 ≤ fieldAt j.payload 0 4) (hhi : fieldAt j.payload 0 4 ≤ 2047)
    (hphase : s.sec.phase ≠ .recovery) (hkept : (s.amp.mb j.mb).dropped = 0) :
    eventRead j s = (s.modMb j.mb fun m => { m with events := m.events.drop (fieldAt j.payload 0 4) },
      .done St.ok (leBytes 4 ((s.amp.mb j.mb).events.take (fieldAt j.payload 0 4)).length ++ leBytes 4 0
        ++ ((s.amp.mb j.mb).events.take (fieldAt j.payload 0 4)).flatMap Event.bytes)) := by
  have hcount : ¬(fieldAt j.payload 0 4 = 0 ∨ 2047 < fieldAt j.payload 0 4) := by omega
  have hall : ∀ e : Event, (s.sec.phase != .recovery || e.cls == 0x02) = true := fun e => by simp [hphase]
  simp only [eventRead, hcount, if_false, takeEvents_all _ hall]
  exact congrArg (·, _) (State.modMb_congr (Mbox.lostRecord_none _ hkept))

/-! ## OP_STATUS (R497) -/

theorem opStatus_listed {s : State} {j : AmpJob} {o : Op} (h : Tab.find s.amp.ops (fieldAt j.payload 0 4) = some o) :
    opStatus j s = (s, .done St.ok (leBytes 4 (fieldAt j.payload 0 4) ++ leBytes 1 (b2n o.ended.isSome) ++ leBytes 1 0
      ++ leBytes 2 o.progress ++ leBytes 2 (o.ended.getD St.ok) ++ leBytes 6 0
      ++ Tab.get [] s.faults.summaries (fieldAt j.payload 0 4))) := by
  simp only [opStatus, h, ampAnswer]

theorem opStatus_unlisted {s : State} {j : AmpJob} (h : Tab.find s.amp.ops (fieldAt j.payload 0 4) = none) :
    opStatus j s = (s, .done St.noObject []) := by
  simp only [opStatus, h, ampRefuse]

/-! ## KEY_AGREE (R467, R468) -/

theorem Sec.setWrap_ownerKey (x : Sec) (mb : Nat) (k : Option Nat) : (x.setWrap mb k).ownerKey = x.ownerKey := by
  match mb with
  | 0 | 1 | _ + 2 => rfl

theorem State.deriveKeys_ownerKey (s : State) (mb owner : Nat) (nonce : Bytes) :
    (s.deriveKeys mb owner nonce).1.sec.ownerKey = s.sec.ownerKey :=
  Sec.setWrap_ownerKey _ _ _

/-- The mailbox has its check key, under which the counter starts at 0. -/
theorem State.deriveKeys_mb (s : State) (mb owner : Nat) (nonce : Bytes) :
    ∃ key, (s.deriveKeys mb owner nonce).1.amp.mb mb = { s.amp.mb mb with key := some key, lastCounter := 0 } := by
  simp only [State.deriveKeys, State.modSec_amp, State.mb_modMb, State.used_amp]
  exact ⟨_, rfl⟩

theorem keyAgree_derives {s : State} {j : AmpJob} (hclaim : bit (fieldAt j.payload 0 1) 0 = false)
    (hnew : fieldAt j.payload 0x28 64 = 0) (howned : s.sec.owned = true) (hheld : s.sec.held ≠ 3) :
    keyAgree j s = ((s.deriveKeys j.mb s.sec.ownerKey ((j.payload.drop 8).take 32)).1,
      .done St.ok (s.deriveKeys j.mb s.sec.ownerKey ((j.payload.drop 8).take 32)).2) := by
  simp [keyAgree, hclaim, hnew, howned, hheld, ampAnswer]

/-- A claim of a module that has an owner is refused. -/
theorem keyAgree_owned {s : State} {j : AmpJob} (hclaim : bit (fieldAt j.payload 0 1) 0 = true) (howned : s.sec.owned = true) :
    keyAgree j s = (s, .done St.busy []) := by
  simp [keyAgree, hclaim, howned, ampRefuse]

/-- Settles O32: each message is in turn, so it does what its body does. -/
theorem protocolMessagesAnswer : Obligations.ProtocolMessagesAnswer := by
  refine ⟨?hello, ?status, ?time, ?config, ?events, ?mask, ?opListed, ?opUnlisted, ?keys, ?owned⟩
  case hello =>
    intro s mb j hturn hlow hhigh hmb
    refine ⟨s.bind j, (s.bind j).helloBytes j.mb, ?_, (s.bind_runs j).frame, ?_⟩
    · rw [exec_hello, execHello, ampExec_done hturn (hello_binds hlow hhigh)]
    · rw [← hmb, State.bind_mb]
      exact ⟨rfl, rfl, rfl, rfl⟩
  case status =>
    intro s mb j hturn
    obtain ⟨p, hlength, hanswer⟩ := ampStatus_answers j s
    exact ⟨p, hlength, by rw [exec_ampStatus, execAmpStatus, ampExec_done hturn hanswer]⟩
  case time =>
    intro s mb j hturn
    rw [exec_timeRead, execTimeRead, ampExec_done hturn rfl]
  case config =>
    intro s mb j hturn
    rw [exec_configRead, execConfigRead, ampExec_done hturn rfl]
  case events =>
    intro s mb j hturn hmb hlo hhi hphase hkept
    rw [← hmb] at hkept
    refine ⟨_, by rw [exec_eventRead, execEventRead, ampExec_done hturn (eventRead_oldest hlo hhi hphase hkept), hmb],
      (State.modMb_runs (by decide) (Runs.refl _ s) _ _).frame, ?_⟩
    rw [State.mb_modMb]
  case mask =>
    intro s mb j hturn
    rw [exec_eventMask, execEventMask, ampExec_done hturn rfl]
  case opListed =>
    intro s mb j o hturn h
    rw [exec_opStatus, execOpStatus, ampExec_done hturn (opStatus_listed h)]
  case opUnlisted =>
    intro s mb j hturn h
    rw [exec_opStatus, execOpStatus, ampExec_done hturn (opStatus_unlisted h)]
  case keys =>
    intro s mb j hturn hmb hclaim hnew howned hheld
    obtain ⟨key, hkey⟩ := s.deriveKeys_mb j.mb s.sec.ownerKey ((j.payload.drop 8).take 32)
    refine ⟨_, _, by rw [exec_keyAgree, execKeyAgree, ampExec_done hturn (keyAgree_derives hclaim hnew howned hheld)],
      (State.deriveKeys_runs (by decide) (by decide) (by decide) (Runs.refl _ s) _ _ _).frame, ?_⟩
    rw [← hmb, hkey]
    exact ⟨Option.some_ne_none key, rfl, State.deriveKeys_ownerKey _ _ _ _⟩
  case owned =>
    intro s mb j hturn hclaim howned
    rw [exec_keyAgree, execKeyAgree, ampExec_done hturn (keyAgree_owned hclaim howned)]

end Sys2Proof.Machine
end

section
/-! Installing, removing and listing objects (spec/04 R97 to R99, R497), and O33. -/

namespace Sys2Proof.Machine

/-! ## OBJECT_INSTALL (R97) -/

/-- An installation that passes its checks is a long operation, listed among those that run. -/
theorem objectInstall_opens {s : State} {j : AmpJob} (hok : s.installSt (installOf j.payload) = St.ok) (hroom : s.amp.openOps < 16) :
    objectInstall j s = ((s.opened (.install (installOf j.payload).cls (installOf j.payload).id)).modAmp fun a =>
      { a with installs := a.installs ++ [{ op := s.amp.nextOp, obj := installOf j.payload }] }, .done St.ok (leBytes 4 s.amp.nextOp)) := by
  simp only [objectInstall, hok, ne_eq, not_true_eq_false, if_false, ampLong_opens _ _ hroom]

/-! ## The stages (R98) -/

theorem State.stages_badDigest {s : State} {o : Obj} (lost : List Nat) (y : BodyLayout) (regions : List (Nat × Nat)) (space : List Nat)
    (hinline : o.source = 0) (hdigest : Config.sha256 o.data ≠ o.digest) :
    s.stages o lost y regions space = .refused St.badDigest := by
  simp only [State.stages, hinline, if_true, hdigest, ne_eq, not_false_eq_true]

section
variable {s : State} {i : Install} {lost : List Nat} {body : BodyLayout} {regions : List (Nat × Nat)} {space : List Nat}

theorem execObjectInstallDone_refused {st : Nat} (halone : s.amp.installs = [i]) (hserving : s.serving = true) (hheld : s.isHeld = false)
    (hstages : s.sweepObjects.stages i.obj lost body regions space = .refused st) :
    execObjectInstallDone i.op lost body regions space s = .next (s.installEnds i.op st) := by
  simp [execObjectInstallDone, halone, hserving, hheld, hstages]

theorem execObjectInstallDone_switches {t : State} {o : Obj} (halone : s.amp.installs = [i]) (hserving : s.serving = true)
    (hheld : s.isHeld = false) (hstages : s.sweepObjects.stages i.obj lost body regions space = .done t o)
    (hroom : ¬(o.source = 0 ∧ 67108864 < s.amp.inlineBytes (objKey o.cls o.id) + o.size)) :
    execObjectInstallDone i.op lost body regions space s = .next ((t.switchTo o).installEnds i.op St.ok) := by
  have hfirst : s.amp.installs.find? (fun k => k.op == i.op) = some i := by simp [halone]
  have holdest : s.amp.installs.find? (fun k => k.obj.cls == i.obj.cls && k.obj.id == i.obj.id) = some i := by simp [halone]
  simp only [execObjectInstallDone, hfirst, holdest, hserving, hheld, hstages, hroom, Option.map_some, bne_self_eq_false,
    Bool.not_true, Bool.or_self, Bool.false_eq_true, if_false]

end

/-- The catalogue holds the new version under its key (R98). -/
theorem State.switchTo_object (s : State) (o : Obj) : Tab.find (s.switchTo o).amp.objects (objKey o.cls o.id) =
    some { o with ver := (s.dropObject (objKey o.cls o.id)).amp.nextVer } := by
  rw [State.switchTo, State.modAmp_amp, Tab.find_put, if_pos rfl]

/-! ## OBJECT_REMOVE (R98, R99) -/

theorem objectRemove_listed {s : State} {j : AmpJob} (hcls : fieldAt j.payload 0 1 ≤ 4)
    (hobject : Tab.has s.amp.objects (objKey (fieldAt j.payload 0 1) (fieldAt j.payload 2 2)) = true) :
    objectRemove j s = (s.dropObject (objKey (fieldAt j.payload 0 1) (fieldAt j.payload 2 2)), .done St.ok []) := by
  simp only [objectRemove, Nat.not_lt.mpr hcls, hobject, if_false, if_true, ampAnswer]

theorem objectRemove_unlisted {s : State} {j : AmpJob} (hcls : fieldAt j.payload 0 1 ≤ 4)
    (hnone : Tab.has s.amp.objects (objKey (fieldAt j.payload 0 1) (fieldAt j.payload 2 2)) = false) :
    objectRemove j s = (s, .done St.noObject []) := by
  simp only [objectRemove, Nat.not_lt.mpr hcls, hnone, if_false, Bool.false_eq_true, ampRefuse]

/-! ## OBJECT_LIST (R497) -/

/-- An object of a list: ID, source, size and digest. -/
def Obj.listBytes (o : Obj) : Bytes :=
  leBytes 2 o.id ++ leBytes 1 o.source ++ leBytes 5 0 ++ leBytes 8 o.size ++ leBytes 32 o.digest

/-- The objects of a class from an ID on. -/
def State.objectsFrom (s : State) (cls first : Nat) : Tab Obj :=
  s.amp.objects.filter fun o => decide (objKey cls first ≤ o.1) && decide (o.1 < objKey (cls + 1) 0)

/-- A list that fits one response holds them all and says that nothing follows. -/
theorem objectList_whole {s : State} {j : AmpJob} (hcls : fieldAt j.payload 0 1 ≤ 4)
    (hfits : (s.objectsFrom (fieldAt j.payload 0 1) (fieldAt j.payload 2 2)).length ≤ 1365) :
    objectList j s = (s, .done St.ok (leBytes 4 (s.objectsFrom (fieldAt j.payload 0 1) (fieldAt j.payload 2 2)).length ++ leBytes 4 65536
      ++ (s.objectsFrom (fieldAt j.payload 0 1) (fieldAt j.payload 2 2)).flatMap fun o => o.2.listBytes)) := by
  simp only [State.objectsFrom] at hfits ⊢
  simp only [objectList, Nat.not_lt.mpr hcls, if_false, List.take_of_length_le hfits, Nat.lt_irrefl, ampAnswer]
  split <;> rfl

/-- Settles O33, message by message; the stages decide how an installation ends. -/
theorem objectsAreInstalledByStages : Obligations.ObjectsAreInstalledByStages := by
  refine ⟨?install, ?badDigest, ?switches, ?remove, ?removeNone, ?list⟩
  case install =>
    intro s mb j hturn hok hroom
    rw [exec_objectInstall, execObjectInstall, ampExec_done hturn (objectInstall_opens hok hroom)]
  case badDigest =>
    intro s op lost bodyOk regions space i halone hop hserving hheld hinline hdigest
    rw [exec_objectInstallDone, ← hop]
    exact execObjectInstallDone_refused halone hserving hheld (State.stages_badDigest _ _ _ _ hinline hdigest)
  case switches =>
    intro s op lost bodyOk regions space i t o halone hop hserving hheld hstages hroom
    rw [exec_objectInstallDone, ← hop]
    exact ⟨execObjectInstallDone_switches halone hserving hheld hstages hroom, State.switchTo_object t o⟩
  case remove =>
    intro s mb j hturn hcls hobject
    rw [exec_objectRemove, execObjectRemove, ampExec_done hturn (objectRemove_listed hcls hobject)]
  case removeNone =>
    intro s mb j hturn hcls hnone
    rw [exec_objectRemove, execObjectRemove, ampExec_done hturn (objectRemove_unlisted hcls hnone)]
  case list =>
    intro s mb j l hturn hcls hl hfits
    subst hl
    rw [exec_objectList, execObjectList, ampExec_done hturn (objectList_whole hcls hfits)]
    rfl

end Sys2Proof.Machine
end

section
/-! Commands of the vector index and SCAN (spec/06 R140, R146, R147; spec/05 R130): what each does once it is admitted, and O28. -/

namespace Sys2Proof.Machine

/-! ## Admitted commands -/

theorem State.startedAs_opc {s : State} {tag opc : Nat} {t : Trk} (h : s.startedAs tag opc = some t) : t.sqe.opc = opc := by
  simp only [State.startedAs] at h
  split at h
  · obtain ⟨hstarted, hentry⟩ := Option.ite_none_right_eq_some.mp h
    obtain rfl := Option.some.inj hentry
    simp only [Bool.and_eq_true, beq_iff_eq] at hstarted
    exact hstarted.right
  · contradiction

theorem State.vendorAdmitted_opc {s : State} {tag opc : Nat} {option : Bool} {t : Trk} (h : s.vendorAdmitted tag opc option t) :
    t.sqe.opc = opc := by
  obtain ⟨hstarted, -⟩ := h
  exact State.startedAs_opc hstarted

/-! ## Inserts and deletes (R146, R147) -/

section
variable {x : Index} {tr : Trained} {e : Sqe}

theorem State.commitWrite_insert (s : State) (tag i : Nat) (d : Bytes) (hopc : e.opc = 0x85) :
    s.commitWrite tag i x tr e d = (s.commitEntries i (x.insertEntries tr (writeCount e) d)).vendorEndWith tag St.ok
      ((x.lastCommit + writeCount e) % 2 ^ 32) ((x.lastCommit + writeCount e) / 2 ^ 32) := by
  simp only [State.commitWrite, hopc, if_true]

theorem State.commitWrite_delete (s : State) (tag i : Nat) (d : Bytes) (hopc : e.opc = 0x89) :
    s.commitWrite tag i x tr e d = (s.commitEntries i (x.deleteEntries (writeCount e) d)).vendorEndWith tag St.ok
      ((x.lastCommit + writeCount e) % 2 ^ 32) ((x.lastCommit + writeCount e) / 2 ^ 32) := by
  have hdelete : e.opc ≠ 0x85 := by omega
  simp only [State.commitWrite, hdelete, if_false]

end

section
variable {s : State} {tag : Nat} {t : Trk} {d : Bytes} {x : Index} {tr : Trained}

/-- An insert or delete that passes its checks commits where it has room, and otherwise waits and is counted. -/
theorem indexWrite_admitted {opc : Nat} (hadmitted : s.vendorAdmitted tag opc false t) (hindex : s.usable t.sqe.object = some (x, tr))
    (hcheck : s.writeCheck x t.sqe d = none) :
    indexWrite tag opc d s =
      if x.room (writeCount t.sqe) then (s.admitTag tag).commitWrite tag t.sqe.object x tr t.sqe d
      else (s.admitTag tag).modIx t.sqe.object fun x => { x with waiting := x.waiting ++ [(tag, d)], insertWaits := x.insertWaits + 1 } := by
  rw [indexWrite, State.vendorRow_admitted _ hadmitted]
  simp only [hindex, hcheck]

/-- The write that waited commits when its index has room. -/
theorem execIndexWriteRoom_commits (htag : s.trk tag = some t) (hindex : s.usable t.sqe.object = some (x, tr))
    (hwaits : x.waiting.find? (fun w => w.1 == tag) = some (tag, d)) (hruns : s.stopping tag = false)
    (hwritable : s.ftl.readOnly = false) (hroom : x.room (writeCount t.sqe) = true) :
    execIndexWriteRoom tag s = .next ((s.unwait t.sqe.object tag).commitWrite tag t.sqe.object x tr t.sqe d) := by
  simp only [execIndexWriteRoom, htag, hindex, hwaits, hruns, hwritable, hroom, Bool.false_eq_true, if_false, if_true]

/-! ## Queries (R140, R148) and SCAN (R130) -/

/-- A query without a shade form, of an index that is not sharded, opens as it was asked; nothing is sent to a peer. -/
theorem execIndexQuery_local {inst : Nat} (base : Nat) (miss : Bool) (hadmitted : s.vendorAdmitted tag 0x83 false t)
    (hindex : s.usable t.sqe.object = some (x, tr)) (hcheck : x.queryCheck d t.sqe.inLen t.sqe.resLen = none)
    (hlocal : s.span.shardsOf t.sqe.object = none) (hinst : inst ≤ 4095) (hfree : Tab.has s.sel.merges inst = false)
    (hshade : qiShade d = 0) :
    execIndexQuery tag d inst base miss s = .next
      (((s.admitTag tag).openResult tag x.lastCommit).openQuery tag tag t.sqe.object x tr d inst base false [] none) := by
  rw [execIndexQuery, State.vendorRow_admitted _ hadmitted]
  have hnumber : ¬(4095 < inst ∨ Tab.has s.sel.merges inst = true) := by simp [hinst, hfree]
  simp only [hindex, hcheck, hlocal, Option.getD_none, List.find?_nil, hnumber, if_false, hshade, ne_eq, not_true_eq_false,
    decide_false, Bool.false_and, Bool.false_eq_true, fanOut]

theorem execScan_starts {inst : Nat} (base : Nat) (hadmitted : s.vendorAdmitted tag 0x8F false t) (hcheck : s.scanCheck t d = none)
    (hinst : inst ≤ 4095) (hfree : Tab.has s.sel.merges inst = false) :
    execScan tag d inst base s = .next (s.startScan tag t d inst base) := by
  rw [execScan, State.vendorRow_admitted _ hadmitted]
  have hnumber : ¬(4095 < inst ∨ Tab.has s.sel.merges inst = true) := by simp [hinst, hfree]
  simp only [hcheck, hnumber, if_false]

end

/-- Settles O28, command by command. -/
theorem indexCommandsCommitOrWait : Obligations.IndexCommandsCommitOrWait := by
  refine ⟨?insert, ?delete, ?waited, ?query, ?scan⟩
  case insert =>
    intro s tag t d x tr hadmitted hindex hcheck
    rw [exec_indexInsert, execIndexInsert, indexWrite_admitted hadmitted hindex hcheck,
      State.commitWrite_insert _ _ _ _ (State.vendorAdmitted_opc hadmitted)]
  case delete =>
    intro s tag t d x tr hadmitted hindex hcheck hroom
    rw [exec_indexDelete, execIndexDelete, indexWrite_admitted hadmitted hindex hcheck, if_pos hroom,
      State.commitWrite_delete _ _ _ _ (State.vendorAdmitted_opc hadmitted)]
  case waited =>
    intro s tag t d x tr htag hindex hwaits hruns hwritable hroom
    rw [exec_indexWriteRoom, execIndexWriteRoom_commits htag hindex hwaits hruns hwritable hroom]
  case query =>
    intro s tag t d x tr inst base miss hadmitted hindex hcheck hlocal hinst hfree hshade
    rw [exec_indexQuery, execIndexQuery_local base miss hadmitted hindex hcheck hlocal hinst hfree hshade]
  case scan =>
    intro s tag t d inst base hadmitted hcheck hinst hfree
    rw [exec_scan, execScan_starts base hadmitted hcheck hinst hfree]

end Sys2Proof.Machine
end

section
/-! Channel pipelines (spec/05 R105 to R109, R125, R129): admission, starting, running and completing jobs, and O29. -/

namespace Sys2Proof.Machine

/-! ## Two changes of one entry -/

/-- The later of two values of a key stands. -/
theorem Tab.put_put {α : Type} (t : Tab α) (k : Nat) (v w : α) : Tab.put (Tab.put t k v) k w = Tab.put t k w := by
  induction t with
  | nil => simp [Tab.put]
  | cons p t ih =>
    obtain ⟨j, a⟩ := p
    rcases lt_trichotomy k j with hlt | rfl | hgt
    · simp [Tab.put, hlt]
    · simp [Tab.put]
    · simp [Tab.put, Nat.lt_asymm hgt, Nat.ne_of_gt hgt, ih]

theorem Tab.del_put {α : Type} (t : Tab α) (k : Nat) (v : α) : Tab.del (Tab.put t k v) k = Tab.del t k := by
  induction t with
  | nil => simp [Tab.put, Tab.del]
  | cons p t ih =>
    obtain ⟨j, a⟩ := p
    rcases lt_trichotomy k j with hlt | rfl | hgt
    · simp [Tab.put, Tab.del, hlt]
    · simp [Tab.put, Tab.del]
    · simp [Tab.put, Tab.del, Nat.lt_asymm hgt, Nat.ne_of_gt hgt, ih]

/-- Two changes of a key are one, where the first leaves the entry listed. -/
theorem Tab.mod_mod {α : Type} [DecidableEq α] {d : α} {t : Tab α} {k : Nat} {f : α → α} (g : α → α) (hf : f (Tab.get d t k) ≠ d) :
    Tab.mod d (Tab.mod d t k f) k g = Tab.mod d t k fun a => g (f a) := by
  have hput : Tab.mod d t k f = Tab.put t k (f (Tab.get d t k)) := if_neg hf
  rw [hput]
  simp only [Tab.mod, Tab.set, Tab.get_put, if_true, Tab.put_put, Tab.del_put]

/-! ## A channel's pipeline -/

@[simp] theorem State.modPipe_pipe_same (s : State) (ch : Nat) (f : Pipe → Pipe) : (s.modPipe ch f).pipe ch = f (s.pipe ch) := by
  simp [State.modPipe, State.pipe]

theorem State.modPipe_modPipe {s : State} {ch : Nat} {f : Pipe → Pipe} (g : Pipe → Pipe) (hf : f (s.pipe ch) ≠ {}) :
    (s.modPipe ch f).modPipe ch g = s.modPipe ch fun p => g (f p) := by
  simp only [State.modPipe, State.modPipes, Tab.mod_mod g hf]

/-- The pipeline once its oldest job has left the ring, `l` being the jobs behind it (R106). -/
def Pipe.taken (p : Pipe) (l : List ChJob) : Pipe :=
  { p with bound := l, jobHead := (p.jobHead + 1) % 256, serial := p.serial + 1 }

theorem Pipe.taken_listed (p : Pipe) (l : List ChJob) : p.taken l ≠ {} :=
  fun h => Nat.succ_ne_zero p.serial (congrArg Pipe.serial h)

/-! ## Admission (R107) -/

/-- The ring's slot before which a tail write stops has been reached. -/
theorem bindUpTo_reached {s : State} {ch v : Nat} (n : Nat) (ends : List Bool) (h : (s.pipe ch).jobTail = v) :
    bindUpTo ch v n ends s = s := by
  cases n with
  | zero => rfl
  | succ n => simp only [bindUpTo, h, if_true]

/-- The descriptor at the tail is bound, and the tail moves past it. -/
theorem bindUpTo_binds {s : State} {ch v : Nat} (n : Nat) (ends : List Bool) (h : (s.pipe ch).jobTail ≠ v) :
    bindUpTo ch v (n + 1) ends s = bindUpTo ch v n (ends.drop 1) (s.modPipe ch fun p => { p with
      jobTail := (p.jobTail + 1) % 256
      bound := p.bound ++ [s.bindJob (s.bytesAt ((s.pipe ch).jobBase + 128 * (s.pipe ch).jobTail) 128) (ends.headD true)] }) := by
  simp only [bindUpTo, h, if_false]

/-- A tail write of one slot binds one job. -/
theorem bindUpTo_one {s : State} {ch : Nat} (n : Nat) (ends : List Bool) :
    bindUpTo ch (((s.pipe ch).jobTail + 1) % 256) (n + 1) ends s = s.modPipe ch fun p => { p with
      jobTail := (p.jobTail + 1) % 256
      bound := p.bound ++ [s.bindJob (s.bytesAt ((s.pipe ch).jobBase + 128 * (s.pipe ch).jobTail) 128) (ends.headD true)] } := by
  have hmoves : (s.pipe ch).jobTail ≠ ((s.pipe ch).jobTail + 1) % 256 := by omega
  rw [bindUpTo_binds n ends hmoves, bindUpTo_reached]
  rw [State.modPipe_pipe_same]

section
variable {s : State} {ch : Fin 32} {j : ChJob}

/-! ## Aborting (R109) -/

theorem execAbortJob_running (hrun : (s.pipe ch).run = some j) :
    execAbortJob ch s = .next (if j.drained then s else (s.cutJob ch St.stopped 8).pump ch) := by
  simp only [execAbortJob, hrun]

theorem execAbortJob_idle (hrun : (s.pipe ch).run = none) : execAbortJob ch s = .next s := by
  simp only [execAbortJob, hrun]

/-! ## Starting (R105, R106) -/

section
variable {l : List ChJob} (hbound : (s.pipe ch).bound = j :: l) (henabled : (s.pipe ch).enable = true)
include hbound henabled

theorem execChannelJobStart_idle (hrun : (s.pipe ch).run = none) :
    execChannelJobStart ch s = .next
      ((s.modPipe ch (·.taken l)).startJob ch { j with serial := (s.pipe ch).serial }) := by
  simp only [execChannelJobStart, hbound, henabled, hrun, Bool.not_true, Bool.false_eq_true, if_false, Pipe.taken]

/-- S0 begins the next job while the running one is in later stages: it leaves the ring and reads its pages ahead. -/
theorem execChannelJobStart_ahead {r : ChJob} (hrun : (s.pipe ch).run = some r)
    (hfetch : s.mayFetch ch { j with serial := (s.pipe ch).serial } r = true) :
    execChannelJobStart ch s = .next
      ((s.modPipe ch fun p => { p.taken l with ahead := some { j with serial := (s.pipe ch).serial } }).advance ch) := by
  have htaken := State.modPipe_modPipe (s := s) (ch := ch) (f := (·.taken l))
    (fun p => { p with ahead := some { j with serial := (s.pipe ch).serial } }) (Pipe.taken_listed _ l)
  simp only [execChannelJobStart, hbound, henabled, hrun, hfetch, Bool.not_true, Bool.false_eq_true, if_false, if_true]
  exact congrArg (fun u : State => (.next (u.advance ch) : Out)) htaken

end

theorem State.startJob_refused {ch st : Nat} (hcheck : s.chJobCheck ch j j.pages = some st) :
    s.startJob ch j = s.modPipe ch fun p => { p with run := some { j with fed := true, status := st, err := 7 } } := by
  simp only [State.startJob, hcheck]

/-! ## Running (R121, R125) -/

theorem execS6TableLoadDone_loading (hrun : (s.pipe ch).run = some j) (hloading : j.loading = true) :
    execS6TableLoadDone ch s = .next
      (((s.modPipe ch fun p => { p with loaded := j.tablesVer }).modRun ch fun j => { j with loading := false }).advance ch) := by
  simp only [execS6TableLoadDone, hrun, hloading, if_true]

theorem execS8ThresholdFeedback_raises {q : Nat} {m : Merge} (hrun : (s.pipe ch).run = some j)
    (hmerge : Tab.find s.sel.merges (jd j 0x34 2) = some m) (hfeedback : (j.on 8 && j.feedback && m.feedback) = true)
    (hq : q < j.queries) :
    execS8ThresholdFeedback ch q s = .next (s.modRun ch fun k => { k with
      thresholds := (List.range k.queries).map fun i =>
        if i = q then max (m.threshold (s.commandQuery m j q)) (k.thresholds.getD i 0) else k.thresholds.getD i 0 }) := by
  simp only [execS8ThresholdFeedback, hrun, hmerge, hfeedback, hq, decide_true, Bool.and_self, if_true]

/-! ## Completion (R129) -/

section
variable (hrun : (s.pipe ch).run = some j)
include hrun

theorem State.finishJob_posts (hdrained : j.drained = true) (hroom : (s.pipe ch).room = true) :
    s.finishJob ch = s.postJob ch j := by
  simp only [State.finishJob, hrun, hdrained, hroom, Bool.and_self, if_true]

/-- A full completion ring stalls the channel. -/
theorem State.finishJob_full (hroom : (s.pipe ch).room = false) : s.finishJob ch = s := by
  simp only [State.finishJob, hrun, hroom, Bool.and_false, Bool.false_eq_true, if_false]

theorem execChannelJobComplete_sound : execChannelJobComplete ch false s = .next (s.finishJob ch) := by
  simp only [execChannelJobComplete, hrun, Bool.false_and, Bool.false_eq_true, if_false]

theorem execChannelJobComplete_fault (htables : (j.on 6 || j.on 7) = true) (hok : j.status = St.ok) (hfirst : j.reran = false) :
    execChannelJobComplete ch true s = .next ((s.report .hd
      { cls := .channelTable, source := ch, partner := partnerHd, tag := jd j 0 3 }).rerunJob ch) := by
  simp only [execChannelJobComplete, hrun, htables, hok, hfirst, State.jobFault, beq_self_eq_true, Bool.true_or, Bool.and_self,
    Bool.false_eq_true, if_false, if_true]

end

/-! ## Seams (R118, R130) -/

/-- The seam's job has its SCAN's tables and the joined input, whose unusable bytes are POISON_IN. -/
theorem execSeamJob_admits {tag first : Nat} {x : Scan} {l : List SByte} {long : Bool} (addr : Nat)
    (hscan : Tab.find s.pipes.scans tag = some x) (hopen : x.seams.contains first = true)
    (hinput : x.seamInput first = some (some (l, long))) (hruns : x.failed = none) (hroom : (s.pipe ch).ringRoom = true) :
    ∃ (u : State) (j : ChJob), execSeamJob tag first ch addr s = .next (u.admitJob ch j) ∧ j.tables = x.tables
      ∧ j.seam = some (l.map fun b => if b.err = 0 then b else { b with err := 6 }, long) := by
  simp only [execSeamJob, hscan, hopen, hinput, hruns, hroom, Option.isSome_none, Bool.not_true, Bool.or_self, Bool.false_eq_true,
    if_false]
  exact ⟨_, _, rfl, rfl, rfl⟩

end

/-- Settles O29, command by command. -/
theorem channelJobsRunInRingOrder : Obligations.ChannelJobsRunInRingOrder := by
  refine ⟨?tail, ?cmplHead, ?enable, ?abort, ?abortIdle, ?start, ?ahead, ?refused, ?loaded, ?feedback, ?posts, ?full, ?fault, ?seam⟩
  case tail =>
    intro s ch v ends htail
    rw [exec_cpJobTailWrite, execCpJobTailWrite, htail, bindUpTo_one]
  case cmplHead => exact fun s ch v => exec_cpCmplHeadWrite ch v s
  case enable => exact fun s ch on => exec_cpEnable ch on s
  case abort => exact fun s ch j hrun => execAbortJob_running hrun
  case abortIdle => exact fun s ch hrun => execAbortJob_idle hrun
  case start => exact fun s ch j l hbound henabled hrun => execChannelJobStart_idle hbound henabled hrun
  case ahead => exact fun s ch j l r hbound henabled hrun hfetch => execChannelJobStart_ahead hbound henabled hrun hfetch
  case refused => exact fun s ch j st hcheck => State.startJob_refused hcheck
  case loaded => exact fun s ch j hrun hloading => execS6TableLoadDone_loading hrun hloading
  case feedback => exact fun s ch q j m hrun hmerge hfeedback hq => execS8ThresholdFeedback_raises hrun hmerge hfeedback hq
  case posts =>
    intro s ch j hrun hdrained hroom
    rw [exec_channelJobComplete, execChannelJobComplete_sound hrun, State.finishJob_posts hrun hdrained hroom]
  case full =>
    intro s ch j hrun hroom
    rw [exec_channelJobComplete, execChannelJobComplete_sound hrun, State.finishJob_full hrun hroom]
  case fault => exact fun s ch j hrun htables hok hfirst => execChannelJobComplete_fault hrun htables hok hfirst
  case seam => exact fun s tag first ch addr x l long hscan hopen hinput hruns hroom =>
    execSeamJob_admits addr hscan hopen hinput hruns hroom

end Sys2Proof.Machine
end

section
/-! Messages about indexes, and windows of text (spec/06 R134 to R158), and O34. -/

namespace Sys2Proof.Machine

/-! ## One index of many -/

theorem State.ix_modIx {s : State} {i : Nat} {x : Index} (f : Index → Index) (h : s.ix i = some x) :
    (s.modIx i f).ix i = some (f x) := by
  simp only [State.ix] at h
  simp only [State.ix, State.modIx, State.modIndex, h, Tab.find_put, if_true]

/-- What a change makes of a listed index is all that matters of it. -/
theorem State.modIx_congr {s : State} {i : Nat} {x : Index} {f g : Index → Index} (h : s.ix i = some x) (hsame : f x = g x) :
    s.modIx i f = s.modIx i g := by
  simp only [State.ix] at h
  simp only [State.modIx, State.modIndex, h, hsame]

section
variable {s : State} {j : AmpJob} {x : Index}

/-! ## INDEX_CREATE and INDEX_DROP (R134, R135, R157) -/

/-- An index that passes its checks, and for which flash and HBM have room, is created under a fresh key. -/
theorem indexCreate_creates {f : Ftl} (hcheck : s.createCheck j.payload = none)
    (hx : x = { form := j.payload, born := s.index.nextBorn })
    (halloc : s.ftl.alloc (.index s.index.nextBorn) (fieldAt j.payload 0x18 8 / s.part.unitSize) = some f)
    (hfits : s.fits 2 x.hbm = true) :
    indexCreate j s = (((({ s with ftl := f }).modTiers fun t =>
      { t with poolUsed := Tab.mod 0 t.poolUsed 2 (· + x.hbm) }).modIndex fun ix =>
        { ix with all := Tab.put ix.all (fieldAt j.payload 0 1) x, nextBorn := ix.nextBorn + 1 }).drawKey
          (256 + fieldAt j.payload 0 1), .done St.ok []) := by
  subst hx
  simp only [indexCreate, hcheck, halloc, hfits, if_true, ampAnswer]

section
variable (hindex : s.ix (fieldAt j.payload 0 1) = some x)
include hindex

theorem indexDrop_drops : indexDrop j s = (s.dropIndex (fieldAt j.payload 0 1) x, .done St.ok []) := by
  simp only [indexDrop, hindex, ampAnswer]

/-! ## INDEX_TRAIN (R155) -/

theorem indexTrain_opens (hcheck : s.trainCheck x j.payload = none) (hroom : s.amp.openOps < 16) :
    indexTrain j s = ((s.opened (.train (fieldAt j.payload 0 1))).modIx (fieldAt j.payload 0 1)
      fun x => { x with training := some ⟨s.amp.nextOp, j.payload⟩ }, .done St.ok (leBytes 4 s.amp.nextOp)) := by
  simp only [indexTrain, hindex, hcheck, ampLong_opens _ _ hroom]

/-! ## INDEX_FOLD (R150, R151) -/

/-- A fold with entries to move is a long operation up to the last commit. -/
theorem indexFold_opens (hcheck : s.foldCheck x j.payload = none) (hroom : s.amp.openOps < 16)
    (hmoves : (x.side.any fun e => decide (x.cur.seq < e.seq)) = true) (hplain : bit (fieldAt j.payload 1 1) 0 = false) :
    indexFold j s = (((s.opened (.fold (fieldAt j.payload 0 1))).modIx (fieldAt j.payload 0 1)
      fun x => { x with foldStuck := false }).modIx (fieldAt j.payload 0 1)
        fun y => { y with fold := some { op := some s.amp.nextOp, to_ := x.lastCommit, minList := none } },
      .done St.ok (leBytes 4 s.amp.nextOp)) := by
  have hopened : (s.opened (.fold (fieldAt j.payload 0 1))).ix (fieldAt j.payload 0 1) = some x := hindex
  simp only [indexFold, hindex, hcheck, ampLong_opens _ _ hroom, hmoves, hplain, Bool.false_eq_true, if_false, if_true]
  exact congrArg (·, _) (State.modIx_congr (State.ix_modIx _ hopened) rfl)

/-! ## INDEX_STATS (R158) -/

theorem indexStats_answers : indexStats j s = (s, .done St.ok (s.indexStats (fieldAt j.payload 0 1) x)) := by
  simp only [indexStats, hindex, ampAnswer]

end

/-! ## INDEX_BIND (R153) -/

theorem indexBind_binds {b : Binding} (hcheck : s.bindCheck j.payload = none) (hbinds : bit (fieldAt j.payload 5 1) 0 = false)
    (hb : b = { index := fieldAt j.payload 4 1, model := fieldAt j.payload 8 2, windowLog2 := fieldAt j.payload 6 1
                attr := fieldAt j.payload 0x10 8 }) :
    indexBind j s = (s.modIndex fun ix => { ix with bindings := Tab.put ix.bindings (fieldAt j.payload 0 4) b }, .done St.ok []) := by
  subst hb
  simp only [indexBind, hcheck, hbinds, Bool.false_eq_true, if_false, ampAnswer]

/-! ## The end of training (R156) -/

/-- How training `t` ends: its index has the tables, or ST_SINGULAR is answered where there are none. -/
def State.trainEnds (s : State) (i : Nat) (t : Training) : Option Trained → State
  | some r => (s.modIx i fun x => { x with
      training := none, trained := some r, cur := { x.cur with dead := [], edges := r.edges } }).opDone t.op St.ok
  | none => (s.modIx i fun x => { x with training := none }).opDone t.op St.singular

/-- A training set that can be read decides how the training ends. -/
theorem execIndexTrainDone_readable {i : Fin 256} {lost : List Nat} {t : Training} {d : Bytes} (hindex : s.ix i = some x)
    (htraining : x.training = some t)
    (hread : s.readSectors (fieldAt t.req 4 4) (fieldAt t.req 8 8) ((fieldAt t.req 0x10 4 * x.d + 4095) / 4096) lost = (d, [])) :
    execIndexTrainDone i lost s = .next (s.trainEnds i t (x.train t.req (cutVectors x.d (fieldAt t.req 0x10 4) d))) := by
  simp only [execIndexTrainDone, hindex, htraining, hread, ne_eq, not_true_eq_false, if_false]
  cases x.train t.req (cutVectors x.d (fieldAt t.req 0x10 4) d) with
  | some r => rfl
  | none => rfl

/-! ## The end of a fold (R150) -/

theorem execFoldSwitch_switches {i : Fin 256} {t : Trained} {f : Fold} (eus lost : List Nat) (hindex : s.usable i = some (x, t))
    (hfold : x.fold = some f) (hwritable : s.ftl.readOnly = false) :
    execFoldSwitch i eus lost s = .next (s.foldSwitch i x t f eus lost) := by
  simp only [execFoldSwitch, hindex, hfold, hwritable, Bool.false_eq_true, if_false]

/-! ## Windows (R154) -/

section
variable {w : Window} {b : Binding} {t : Trained} {d : Bytes}

/-- A window with text leaves the pending windows, and its ID is listed once among those that the binding has inserted. -/
def State.windowTaken (s : State) (w : Window) (x : Index) : State :=
  (s.windowDone.forget x.born (windowId w.nsid w.pos)).modIndex fun y =>
    { y with ingested := y.ingested ++ [(x.born, windowId w.nsid w.pos)] }

/-- The entry of a window with embedding `v`. -/
def windowEntry (w : Window) (b : Binding) (x : Index) (t : Trained) (v : Bytes) : SideEntry :=
  { id := windowId w.nsid w.pos, attr := leBytes 8 b.attr ++ leBytes 8 (windowId w.nsid w.pos)
    list := x.assign t (fitTo x.d v), vec := x.store t (fitTo x.d v), full := x.full (fitTo x.d v) }

theorem State.windowRead_text (v : Bytes) (htext : dropZeros d ≠ []) :
    s.windowRead w b x t d (some v) = ((s.windowTaken w x).modIx b.index fun y => { y with
      ingestDone := y.ingestDone + 1
      truncated := y.truncated + b2n ((s.windowTaken w x).windowCut b.model (dropZeros d)) }).commitEntries b.index
        [windowEntry w b x t v] := by
  simp only [State.windowRead, htext, if_false]
  rfl

/-- Where no deletion waits and the index has room, the first window that can be read is processed. -/
theorem execIngestWindowProcess_readable {l : List Window} (v : Bytes) (hnone : s.index.erasing = [])
    (hpending : s.index.pending = w :: l) (hbound : Tab.find s.index.bindings w.nsid = some b)
    (hindex : s.usable b.index = some (x, t)) (hwritable : s.ftl.readOnly = false) (hroom : x.room 1 = true)
    (hvector : x.vectorRoom 1 = true) (hread : s.readSectors w.nsid (w.pos / 4096) (b.window / 4096) [] = (d, [])) :
    execIngestWindowProcess true v s = .next (s.windowRead w b x t d (some v)) := by
  simp only [execIngestWindowProcess, hnone, hpending, hbound, hindex, hwritable, hroom, hvector, hread, ne_eq, not_true_eq_false,
    Bool.not_true, Bool.or_self, Bool.false_eq_true, if_false, if_true]

end

end

/-- Settles O34, message by message; then the ends of training and folds, and a window. -/
theorem indexMessagesAct : Obligations.IndexMessagesAct := by
  refine ⟨?create, ?drop, ?train, ?trainDone, ?fold, ?switch, ?bind, ?stats, ?window⟩
  case create =>
    intro s mb j x f hturn hcheck hx halloc hfits
    rw [exec_indexCreate, execIndexCreate, ampExec_done hturn (indexCreate_creates hcheck hx halloc hfits)]
  case drop =>
    intro s mb j x hturn hindex
    rw [exec_indexDrop, execIndexDrop, ampExec_done hturn (indexDrop_drops hindex)]
  case train =>
    intro s mb j x hturn hindex hcheck hroom
    rw [exec_indexTrain, execIndexTrain, ampExec_done hturn (indexTrain_opens hindex hcheck hroom)]
  case trainDone =>
    intro s i lost x t d hindex htraining hread
    rw [exec_indexTrainDone, execIndexTrainDone_readable hindex htraining hread]
    cases x.train t.req (cutVectors x.d (fieldAt t.req 0x10 4) d) with
    | some r => rfl
    | none => rfl
  case fold =>
    intro s mb j x hturn hindex hcheck hroom hmoves hplain
    rw [exec_indexFold, execIndexFold, ampExec_done hturn (indexFold_opens hindex hcheck hroom hmoves hplain)]
  case switch =>
    intro s i eus lost x t f hindex hfold hwritable
    rw [exec_foldSwitch, execFoldSwitch_switches eus lost hindex hfold hwritable]
  case bind =>
    intro s mb j b hturn hcheck hbinds hb
    rw [exec_indexBind, execIndexBind, ampExec_done hturn (indexBind_binds hcheck hbinds hb)]
  case stats =>
    intro s mb j x hturn hindex
    rw [exec_indexStats, execIndexStats, ampExec_done hturn (indexStats_answers hindex)]
  case window =>
    intro s u w l b x t v d hnone hpending hbound hindex hwritable hroom hvector hread htext hu
    obtain rfl : u = s.windowTaken w x := hu
    rw [exec_ingestWindowProcess,
      execIngestWindowProcess_readable v hnone hpending hbound hindex hwritable hroom hvector hread, State.windowRead_text v htext]
    rfl

end Sys2Proof.Machine
end

section
/-! The merge-select unit's arrivals (spec/07 R175): which entry wins, the held entries as the winners of what has arrived, and O40. -/

namespace Sys2Proof.Machine

/-! ## Which of two entries wins (R175) -/

/-- What makes two entries meet: their ID and query. -/
def MergeEntry.place (e : MergeEntry) : Nat × Nat := (e.id, e.query)

theorem MergeEntry.meets_iff (a b : MergeEntry) : a.meets b = true ↔ a.place = b.place := by
  simp [MergeEntry.meets, MergeEntry.place]

/-- The rank of an entry among those it meets: SEQ first, then key. -/
def MergeEntry.rank (e : MergeEntry) : ℕ ×ₗ ℕ := toLex (e.seq, e.key)

theorem MergeEntry.rank_inj {a b : MergeEntry} : a.rank = b.rank ↔ a.seq = b.seq ∧ a.key = b.key := by
  simp [MergeEntry.rank]

/-- Of two entries of one module, the one of higher rank wins. -/
theorem MergeEntry.beats_iff {a b : MergeEntry} (hspan : a.span = b.span) : a.beats b = true ↔ b.rank < a.rank := by
  simp only [MergeEntry.beats, hspan, ne_eq, not_true_eq_false, if_false, Bool.or_eq_true, Bool.and_eq_true, beq_iff_eq,
    decide_eq_true_eq, MergeEntry.rank, Prod.Lex.toLex_lt_toLex, eq_comm (a := a.seq)]

/-! ## Held entries -/

/-- The held entries once one more has met the one of its ID and query. -/
def meetHeld (held : List MergeEntry) (e : MergeEntry) : List MergeEntry :=
  match held.find? (·.meets e) with
  | some h => if e.beats h then held.map fun x => if x.meets e then e else x else held
  | none => held ++ [e]

/-- Either the entry meets a held one, and the better of the two stands, or it meets none and joins them. -/
theorem meetHeld_cases (held : List MergeEntry) (e : MergeEntry) :
    (∃ h ∈ held, h.place = e.place ∧
      meetHeld held e = if e.beats h then held.map fun x => if x.meets e then e else x else held)
    ∨ (∀ x ∈ held, x.place ≠ e.place) ∧ meetHeld held e = held ++ [e] := by
  unfold meetHeld
  split
  next h hfind =>
    have hmeets : h.meets e = true := List.find?_some (p := fun x : MergeEntry => x.meets e) hfind
    exact .inl ⟨h, List.mem_of_find?_eq_some hfind, (h.meets_iff e).mp hmeets, rfl⟩
  next hfind => exact .inr ⟨fun x hx => mt (x.meets_iff e).mpr (List.find?_eq_none.mp hfind x hx), rfl⟩

theorem meetHeld_length_le (held : List MergeEntry) (e : MergeEntry) : (meetHeld held e).length ≤ held.length + 1 := by
  rcases meetHeld_cases held e with ⟨h, -, -, hmeet⟩ | ⟨-, hmeet⟩
  · rw [hmeet]
    split <;> simp
  · simp [hmeet]

theorem foldl_meetHeld_length_le (l held : List MergeEntry) : (l.foldl meetHeld held).length ≤ held.length + l.length := by
  induction l generalizing held with
  | nil => exact le_rfl
  | cons e l ih =>
    have hstep := meetHeld_length_le held e
    have hrest := ih (meetHeld held e)
    simp only [List.foldl_cons, List.length_cons]
    omega

/-- The held entries are the winners of those that have arrived: one for each ID and query, of a rank that none exceeds. -/
structure Winners (arrived held : List MergeEntry) : Prop where
  arrived_of_mem : ∀ x ∈ held, x ∈ arrived
  apart : (held.map MergeEntry.place).Nodup
  covers : ∀ y ∈ arrived, ∃ h ∈ held, h.place = y.place ∧ y.rank ≤ h.rank

theorem Winners.nil : Winners [] [] := ⟨by simp, by simp, by simp⟩

section
variable {arrived held : List MergeEntry} {e : MergeEntry} (hw : Winners arrived held)
include hw

/-- Two held entries of one ID and query are the same entry. -/
theorem Winners.eq_of_place {a b : MergeEntry} (ha : a ∈ held) (hb : b ∈ held) (h : a.place = b.place) : a = b :=
  List.inj_on_of_nodup_map hw.apart ha hb h

/-- An entry that has arrived before adds nothing. -/
theorem Winners.meetHeld_of_arrived (hspan : ∀ x ∈ arrived, x.span = 0) (he : e ∈ arrived) : meetHeld held e = held := by
  obtain ⟨w, hwheld, hwplace, hwrank⟩ := hw.covers e he
  rcases meetHeld_cases held e with ⟨h, hheld, hplace, hmeet⟩ | ⟨hnew, -⟩
  · obtain rfl : h = w := hw.eq_of_place hheld hwheld (hplace.trans hwplace.symm)
    have hloses : ¬ e.beats h = true := by
      rw [MergeEntry.beats_iff ((hspan e he).trans (hspan h (hw.arrived_of_mem h hheld)).symm)]
      exact not_lt.mpr hwrank
    rw [hmeet, if_neg hloses]
  · exact absurd hwplace (hnew w hwheld)

/-- An entry that meets none of the held ones joins them. -/
theorem Winners.append (hnew : ∀ x ∈ held, x.place ≠ e.place) : Winners (arrived ++ [e]) (held ++ [e]) where
  arrived_of_mem x hx := by
    simp only [List.mem_append, List.mem_singleton] at hx ⊢
    exact hx.imp_left (hw.arrived_of_mem x)
  apart := by
    simpa [List.nodup_append, hw.apart] using hnew
  covers y hy := by
    simp only [List.mem_append, List.mem_singleton] at hy
    rcases hy with hy | rfl
    · obtain ⟨h, hheld, hbest⟩ := hw.covers y hy
      exact ⟨h, List.mem_append_left _ hheld, hbest⟩
    · exact ⟨y, by simp, rfl, le_rfl⟩

/-- An entry that loses to a held one changes nothing. -/
theorem Winners.keep {h : MergeEntry} (hheld : h ∈ held) (hplace : h.place = e.place) (hrank : e.rank ≤ h.rank) :
    Winners (arrived ++ [e]) held where
  arrived_of_mem x hx := List.mem_append_left _ (hw.arrived_of_mem x hx)
  apart := hw.apart
  covers y hy := by
    simp only [List.mem_append, List.mem_singleton] at hy
    rcases hy with hy | rfl
    · exact hw.covers y hy
    · exact ⟨h, hheld, hplace, hrank⟩

/-- An entry that wins over a held one stands in its stead. -/
theorem Winners.replace {h : MergeEntry} (hheld : h ∈ held) (hplace : h.place = e.place) (hrank : h.rank < e.rank) :
    Winners (arrived ++ [e]) (held.map fun x => if x.meets e then e else x) where
  arrived_of_mem x hx := by
    obtain ⟨y, hy, rfl⟩ := List.mem_map.mp hx
    split
    · simp
    · exact List.mem_append_left _ (hw.arrived_of_mem y hy)
  apart := by
    have hplaces : (held.map fun x => if x.meets e then e else x).map MergeEntry.place = held.map MergeEntry.place := by
      rw [List.map_map]
      refine List.map_congr_left fun x _ => ?_
      by_cases hmeets : x.meets e = true
      · simp [hmeets, (x.meets_iff e).mp hmeets]
      · simp [hmeets]
    rw [hplaces]
    exact hw.apart
  covers y hy := by
    have hmem : e ∈ held.map fun x => if x.meets e then e else x :=
      List.mem_map.mpr ⟨h, hheld, if_pos ((h.meets_iff e).mpr hplace)⟩
    simp only [List.mem_append, List.mem_singleton] at hy
    rcases hy with hy | rfl
    · obtain ⟨w, hwheld, hwplace, hwrank⟩ := hw.covers y hy
      by_cases hmeets : w.place = e.place
      · obtain rfl := hw.eq_of_place hwheld hheld (hmeets.trans hplace.symm)
        exact ⟨e, hmem, hmeets.symm.trans hwplace, hwrank.trans hrank.le⟩
      · exact ⟨w, List.mem_map.mpr ⟨w, hwheld, if_neg (mt (w.meets_iff e).mp hmeets)⟩, hwplace, hwrank⟩
    · exact ⟨y, hmem, rfl, le_rfl⟩

/-- The winners stay winners when one more entry meets them. -/
theorem Winners.meet (hspan : ∀ x ∈ arrived ++ [e], x.span = 0) : Winners (arrived ++ [e]) (meetHeld held e) := by
  rcases meetHeld_cases held e with ⟨h, hheld, hplace, hmeet⟩ | ⟨hnew, hmeet⟩
  · have hbeats : e.beats h = true ↔ h.rank < e.rank :=
      MergeEntry.beats_iff ((hspan e (by simp)).trans (hspan h (List.mem_append_left _ (hw.arrived_of_mem h hheld))).symm)
    rw [hmeet]
    split
    next hwins => exact hw.replace hheld hplace (hbeats.mp hwins)
    next hloses => exact hw.keep hheld hplace (not_lt.mp (mt hbeats.mpr hloses))
  · rw [hmeet]
    exact hw.append hnew

end

theorem Winners.foldl {more : List MergeEntry} {arrived held : List MergeEntry} (hw : Winners arrived held)
    (hspan : ∀ x ∈ arrived ++ more, x.span = 0) : Winners (arrived ++ more) (more.foldl meetHeld held) := by
  induction more generalizing arrived held with
  | nil => simpa using hw
  | cons e more ih =>
    rw [List.append_cons] at hspan ⊢
    exact ih (hw.meet fun x hx => hspan x (List.mem_append_left _ hx)) hspan

/-- Entries of equal place and rank being the same, each winner of some entries is one of the same entries in any other order. -/
theorem Winners.subset {l l' held held' : List MergeEntry} (hw : Winners l held) (hw' : Winners l' held')
    (hsame : ∀ x, x ∈ l ↔ x ∈ l') (huniq : ∀ a ∈ l, ∀ b ∈ l, a.place = b.place → a.rank = b.rank → a = b) :
    held ⊆ held' := by
  intro x hx
  have hxl := hw.arrived_of_mem x hx
  obtain ⟨y, hy, hyplace, hyrank⟩ := hw'.covers x ((hsame x).mp hxl)
  have hyl := (hsame y).mpr (hw'.arrived_of_mem y hy)
  obtain ⟨z, hz, hzplace, hzrank⟩ := hw.covers y hyl
  obtain rfl := hw.eq_of_place hz hx (hzplace.trans hyplace)
  rwa [huniq z hxl y hyl hzplace (hyrank.antisymm hzrank)]

/-- The winners do not depend on the order of arrival. -/
theorem Winners.perm {l l' held held' : List MergeEntry} (hw : Winners l held) (hw' : Winners l' held')
    (hsame : ∀ x, x ∈ l ↔ x ∈ l') (huniq : ∀ a ∈ l, ∀ b ∈ l, a.place = b.place → a.rank = b.rank → a = b) :
    held.Perm held' := by
  refine (List.perm_ext_iff_of_nodup (.of_map _ hw.apart) (.of_map _ hw'.apart)).mpr fun x =>
    ⟨fun hx => hw.subset hw' hsame huniq hx, fun hx => ?_⟩
  refine hw'.subset hw (fun x => (hsame x).symm) (fun a ha b hb => ?_) hx
  exact huniq a ((hsame a).mpr ha) b ((hsame b).mpr hb)

/-! ## An arrival where there is room (R175, R176) -/

/-- What of an entry passes its query's threshold: below it, an entry of the mask set passes as a MASK entry and no other does. -/
def Merge.passed (m : Merge) (e : MergeEntry) : Option MergeEntry :=
  if e.key < m.threshold e.query then if e.mask || e.scan then some { e with mask := true } else none else some e

/-- What of an arrival meets the held entries: one that only closes its stream is none. -/
def Merge.heldForm (m : Merge) (e : MergeEntry) : Option MergeEntry :=
  if e.close && e.id == noId then none else m.passed { e with close := false }

theorem Merge.passed_same {m : Merge} {e x : MergeEntry} (h : m.passed e = some x) :
    x.place = e.place ∧ x.rank = e.rank ∧ x.span = e.span := by
  unfold Merge.passed at h
  split at h
  · split at h
    · cases h; exact ⟨rfl, rfl, rfl⟩
    · cases h
  · cases h; exact ⟨rfl, rfl, rfl⟩

/-- It keeps the ID and query, the rank and the module of the arrival. -/
theorem Merge.heldForm_same {m : Merge} {e x : MergeEntry} (h : m.heldForm e = some x) :
    x.place = e.place ∧ x.rank = e.rank ∧ x.span = e.span := by
  unfold Merge.heldForm at h
  split at h
  · cases h
  · exact Merge.passed_same (e := { e with close := false }) h

/-- Two states of a merge under the same descriptor and thresholds, the second with `held` as its entries and the same ones
waiting. -/
structure Merge.Becomes (m m' : Merge) (held : List MergeEntry) : Prop where
  desc : m'.desc = m.desc
  thresholds : m'.thresholds = m.thresholds
  waiting : m'.waiting = m.waiting
  held : m'.held = held

theorem Merge.Becomes.heldForm {m m' : Merge} {held : List MergeEntry} (h : m.Becomes m' held) : m'.heldForm = m.heldForm := by
  funext e
  simp only [Merge.heldForm, Merge.passed, Merge.threshold, h.thresholds]

theorem Merge.Becomes.feedback {m m' : Merge} {held : List MergeEntry} (h : m.Becomes m' held) : m'.feedback = m.feedback :=
  congrArg (fun d => bit (fieldAt d 3 1) 1) h.desc

theorem Merge.Becomes.queries {m m' : Merge} {held : List MergeEntry} (h : m.Becomes m' held) : m'.queries = m.queries :=
  congrArg (fieldAt · 2 1) h.desc

theorem Merge.Becomes.cap {m m' : Merge} {held : List MergeEntry} (h : m.Becomes m' held) : m'.cap = m.cap :=
  congrArg (fieldAt · 0x0C 4) h.desc

theorem Merge.Becomes.trans {m m' m'' : Merge} {held held' : List MergeEntry} (h : m.Becomes m' held) (h' : m'.Becomes m'' held') :
    m.Becomes m'' held' :=
  ⟨h'.desc.trans h.desc, h'.thresholds.trans h.thresholds, h'.waiting.trans h.waiting, h'.held⟩

/-- The held entries after an arrival. -/
def Merge.heldAfter (m : Merge) (e : MergeEntry) : List MergeEntry := (m.heldForm e).elim m.held (meetHeld m.held)

theorem Merge.heldAfter_length_le (m : Merge) (e : MergeEntry) : (m.heldAfter e).length ≤ m.held.length + 1 := by
  unfold Merge.heldAfter
  cases m.heldForm e with
  | none => exact Nat.le_succ _
  | some x => exact meetHeld_length_le m.held x

theorem Merge.foldl_heldForm_cons (m : Merge) (e : MergeEntry) (l : List MergeEntry) :
    ((e :: l).filterMap m.heldForm).foldl meetHeld m.held = (l.filterMap m.heldForm).foldl meetHeld (m.heldAfter e) := by
  unfold Merge.heldAfter
  cases hform : m.heldForm e with
  | none => simp [hform]
  | some x => simp [hform]

theorem Merge.atCap_of_room {m : Merge} (hroom : m.held.length < m.cap) : m.atCap = (m, {}) := by
  simp only [Merge.atCap, decide_eq_false (not_le.mpr hroom), Bool.and_false, Bool.false_eq_true, if_false]

section
variable {m : Merge} (hfeedback : m.feedback = false)
include hfeedback

theorem Merge.feed_of_no_feedback (q : Nat) : m.feed q = m := by
  simp only [Merge.feed, hfeedback, Bool.false_and, Bool.false_eq_true, if_false]

theorem Merge.after_of_room (q : Nat) (hroom : m.held.length < m.cap) : m.after q = (m, {}) := by
  rw [Merge.after, Merge.feed_of_no_feedback hfeedback, Merge.atCap_of_room hroom]

theorem Merge.feeds_of_room (qs : List Nat) (hroom : m.held.length < m.cap) : (qs.foldl Merge.feed m).atCap = (m, {}) := by
  rw [List.foldl_fixed' (Merge.feed_of_no_feedback hfeedback), Merge.atCap_of_room hroom]

/-- An entry that has passed the threshold meets the held ones. -/
theorem Merge.keep_of_room {e : MergeEntry} (hroom : (meetHeld m.held e).length < m.cap) :
    ∃ t, m.keep e = some ({ m with held := meetHeld m.held e }, t) := by
  have hafter := Merge.after_of_room (m := { m with held := meetHeld m.held e }) hfeedback e.query hroom
  cases hfind : m.held.find? (·.meets e) with
  | some h =>
    cases hwins : e.beats h with
    | true =>
      simp only [meetHeld, hfind, hwins, if_true] at hafter
      simp [Merge.keep, meetHeld, hfind, hwins, hafter]
    | false => simp [Merge.keep, meetHeld, hfind, hwins]
  | none =>
    simp only [meetHeld, hfind, List.length_append, List.length_singleton] at hroom hafter
    simp [Merge.keep, meetHeld, hfind, Nat.lt_of_succ_lt hroom, hafter]

/-- A sound entry of one of the queries meets the held ones as far as it passes the threshold. -/
theorem Merge.enter_of_room {e : MergeEntry} (hgood : e.poison = false) (hquery : e.query < m.queries)
    (hroom : ((m.passed e).elim m.held (meetHeld m.held)).length < m.cap) :
    ∃ t, m.enter e = some ({ m with held := (m.passed e).elim m.held (meetHeld m.held) }, t) := by
  by_cases hlow : e.key < m.threshold e.query
  · cases hmask : e.mask || e.scan with
    | true =>
      have henter : m.enter e = m.keep { e with mask := true } := by
        rcases Bool.or_eq_true _ _ ▸ hmask with h | h <;>
          simp [Merge.enter, hgood, not_le.mpr hquery, hlow, h]
      simp only [Merge.passed, hlow, hmask, if_true, Option.elim_some] at hroom ⊢
      rw [henter]
      exact Merge.keep_of_room hfeedback hroom
    | false =>
      obtain ⟨hplain, hstream⟩ := Bool.or_eq_false_iff.mp hmask
      simp [Merge.enter, Merge.passed, hgood, not_le.mpr hquery, hlow, hplain, hstream]
  · have henter : m.enter e = m.keep e := by
      simp [Merge.enter, hgood, not_le.mpr hquery, hlow]
    simp only [Merge.passed, hlow, if_false, Option.elim_some] at hroom ⊢
    rw [henter]
    exact Merge.keep_of_room hfeedback hroom

/-- The end of a stream leaves the entries. -/
theorem Merge.streamEnd_of_room (scan : Bool) (hroom : m.held.length < m.cap) : m.Becomes (m.streamEnd scan).1 m.held := by
  have hfed (n : Nat) (shut : Bool) (qs : List Nat) :=
    Merge.feeds_of_room (m := { m with closes := n, maskClosed := shut }) hfeedback qs hroom
  unfold Merge.streamEnd
  dsimp only
  split
  · rw [hfed]
    exact ⟨rfl, rfl, rfl, rfl⟩
  · exact ⟨rfl, rfl, rfl, rfl⟩

/-- An arrival with its CLOSE meets the held entries. -/
theorem Merge.take_of_room {e : MergeEntry} (hgood : e.poison = false) (hquery : e.query < m.queries)
    (hroom : (m.heldAfter e).length < m.cap) : ∃ x, m.take e = some x ∧ m.Becomes x.1 (m.heldAfter e) := by
  have hmet : ∃ t, (if e.close && e.id == noId then some (m, {}) else m.enter { e with close := false })
      = some ({ m with held := m.heldAfter e }, t) := by
    unfold Merge.heldAfter Merge.heldForm at hroom ⊢
    split
    · exact ⟨_, rfl⟩
    next hentry =>
      rw [if_neg hentry] at hroom
      exact Merge.enter_of_room hfeedback hgood hquery hroom
  obtain ⟨t, hmet⟩ := hmet
  rw [Merge.take, hmet, Option.map_some]
  refine ⟨_, rfl, ?_⟩
  split
  · obtain ⟨hdesc, hthresholds, hwaiting, hheld⟩ :=
      Merge.streamEnd_of_room (m := { m with held := m.heldAfter e }) hfeedback e.scan hroom
    exact ⟨hdesc, hthresholds, hwaiting, hheld⟩
  · exact ⟨rfl, rfl, rfl, rfl⟩

/-- An arrival where nothing waits meets the held entries. -/
theorem Merge.arrive_of_room {e : MergeEntry} (hwaiting : m.waiting = []) (hgood : e.poison = false) (hquery : e.query < m.queries)
    (hroom : (m.heldAfter e).length < m.cap) : m.Becomes (m.arrive e).1 (m.heldAfter e) := by
  obtain ⟨x, htake, hx⟩ := Merge.take_of_room hfeedback hgood hquery hroom
  have hnone : x.1.waiting = [] := hx.waiting.trans hwaiting
  have hoffer : m.offer e = x := by simp [Merge.offer, hwaiting, htake]
  have harrive : (m.arrive e).1 = { x.1 with waiting := [] } := by
    simp [Merge.arrive, hoffer, settleGo, againGo, hnone]
  rw [harrive, ← hnone]
  exact hx

/-- Arrivals meet the held entries one after the other. -/
theorem Merge.foldl_arrive {l : List MergeEntry} (hwaiting : m.waiting = [])
    (hgood : ∀ e ∈ l, e.poison = false ∧ e.query < m.queries ∧ e.span = 0) (hroom : m.held.length + l.length < m.cap) :
    m.Becomes (l.foldl (fun m e => (m.arrive e).1) m) ((l.filterMap m.heldForm).foldl meetHeld m.held) := by
  induction l generalizing m with
  | nil => exact ⟨rfl, rfl, rfl, rfl⟩
  | cons e l ih =>
    obtain ⟨⟨hsound, hquery, -⟩, hgood⟩ := List.forall_mem_cons.mp hgood
    have hlength : (m.heldAfter e).length ≤ m.held.length + 1 := Merge.heldAfter_length_le m e
    rw [List.length_cons] at hroom
    have hstep := Merge.arrive_of_room hfeedback hwaiting hsound hquery (by omega)
    have hrest := ih (m := (m.arrive e).1) (by rwa [hstep.feedback]) (hstep.waiting.trans hwaiting) (by rwa [hstep.queries])
      (by rw [hstep.held, hstep.cap]; omega)
    rw [List.foldl_cons, Merge.foldl_heldForm_cons, ← hstep.held, ← hstep.heldForm]
    exact hstep.trans hrest

end

/-! ## What the arrivals leave held -/

section
variable {m : Merge} {l : List MergeEntry}

theorem Merge.span_of_heldForm (hspan : ∀ e ∈ l, e.span = 0) : ∀ x ∈ l.filterMap m.heldForm, x.span = 0 := by
  intro x hx
  obtain ⟨e, he, hform⟩ := List.mem_filterMap.mp hx
  obtain ⟨-, -, hsame⟩ := Merge.heldForm_same hform
  exact hsame.trans (hspan e he)

/-- Where no two arrivals of one ID and query agree in SEQ and key, no two of their held forms do. -/
theorem Merge.heldForm_unique (huniq : ∀ a ∈ l, ∀ b ∈ l, a.meets b = true → a.seq = b.seq → a.key = b.key → a = b) :
    ∀ a ∈ l.filterMap m.heldForm, ∀ b ∈ l.filterMap m.heldForm, a.place = b.place → a.rank = b.rank → a = b := by
  intro a ha b hb hplace hrank
  obtain ⟨e, he, hforma⟩ := List.mem_filterMap.mp ha
  obtain ⟨f, hf, hformb⟩ := List.mem_filterMap.mp hb
  obtain ⟨hplacea, hranka, -⟩ := Merge.heldForm_same hforma
  obtain ⟨hplaceb, hrankb, -⟩ := Merge.heldForm_same hformb
  have hmeets : e.meets f = true := (e.meets_iff f).mpr (hplacea.symm.trans (hplace.trans hplaceb))
  obtain ⟨hseq, hkey⟩ := MergeEntry.rank_inj.mp (hranka.symm.trans (hrank.trans hrankb))
  obtain rfl := huniq e he f hf hmeets hseq hkey
  exact Option.some.inj (hforma.symm.trans hformb)

/-- A merge that has taken the arrivals `l` and no others, all with room. -/
structure Merge.Arrived (m : Merge) (l : List MergeEntry) (m' : Merge) : Prop where
  becomes : m.Becomes m' m'.held
  winners : Winners (l.filterMap m.heldForm) m'.held
  length_le : m'.held.length ≤ l.length

theorem Merge.arrived_foldl (hheld : m.held = []) (hwaiting : m.waiting = []) (hfeedback : m.feedback = false)
    (hroom : l.length < m.cap) (hgood : ∀ e ∈ l, e.poison = false ∧ e.query < m.queries ∧ e.span = 0) :
    m.Arrived l (l.foldl (fun m e => (m.arrive e).1) m) := by
  have hfold := Merge.foldl_arrive (l := l) hfeedback hwaiting hgood (by rw [hheld]; simpa using hroom)
  rw [hheld] at hfold
  refine ⟨{ hfold with held := rfl }, ?_, ?_⟩
  · rw [hfold.held]
    exact Winners.nil.foldl (Merge.span_of_heldForm fun e he => (hgood e he).2.2)
  · calc (l.foldl (fun m e => (m.arrive e).1) m).held.length
        = ((l.filterMap m.heldForm).foldl meetHeld []).length := by rw [hfold.held]
      _ ≤ ([] : List MergeEntry).length + (l.filterMap m.heldForm).length := foldl_meetHeld_length_le _ _
      _ ≤ l.length := by simpa using List.length_filterMap_le m.heldForm l

/-- One of the arrivals once more changes nothing. -/
theorem Merge.Arrived.again {m' : Merge} (h : m.Arrived l m') (hwaiting : m.waiting = []) (hfeedback : m.feedback = false)
    (hroom : l.length < m.cap) {e : MergeEntry} (he : e ∈ l)
    (hgood : ∀ e ∈ l, e.poison = false ∧ e.query < m.queries ∧ e.span = 0) :
    (m'.arrive e).1.held = m'.held := by
  have hnothing : m'.heldAfter e = m'.held := by
    unfold Merge.heldAfter
    rw [h.becomes.heldForm]
    cases hform : m.heldForm e with
    | none => rfl
    | some x =>
      have harrived : x ∈ l.filterMap m.heldForm := List.mem_filterMap.mpr ⟨e, he, hform⟩
      exact h.winners.meetHeld_of_arrived (Merge.span_of_heldForm fun e he => (hgood e he).2.2) harrived
  obtain ⟨hsound, hquery, -⟩ := hgood e he
  have hlast := Merge.arrive_of_room (h.becomes.feedback.trans hfeedback) (h.becomes.waiting.trans hwaiting) hsound
    (h.becomes.queries ▸ hquery) (by rw [hnothing, h.becomes.cap]; exact h.length_le.trans_lt hroom)
  exact hlast.held.trans hnothing

end

/-- Settles O40: the held entries are the winners of what has arrived, and winners know neither order nor repetition. -/
theorem mergeIgnoresTheOrderOfArrival : Obligations.MergeIgnoresTheOrderOfArrival := by
  intro m l l' hheld hwaiting hfeedback hroom hperm hgood huniq
  have harrived := Merge.arrived_foldl hheld hwaiting hfeedback hroom hgood
  have harrived' := Merge.arrived_foldl (l := l') hheld hwaiting hfeedback (hperm.length_eq ▸ hroom)
    fun e he => hgood e (hperm.mem_iff.mpr he)
  refine ⟨?order, fun e he => ?again⟩
  case order =>
    exact harrived.winners.perm harrived'.winners (fun x => (hperm.filterMap m.heldForm).mem_iff) (Merge.heldForm_unique huniq)
  case again =>
    rw [List.foldl_append]
    exact harrived.again hwaiting hfeedback hroom he hgood

end Sys2Proof.Machine
end

section
/-! Radix selection (spec/07 R162 to R166): the histogram passes, the compaction pass, SORT, and O39. -/

namespace Sys2Proof.Machine

/-! ## Valid elements -/

theorem validKeys_ge (i : Nat) (keys : List (Option Nat)) : ∀ p ∈ validKeys i keys, i ≤ p.1 := by
  induction keys generalizing i with
  | nil => simp [validKeys]
  | cons x keys ih =>
    intro p hp
    cases x with
    | none => exact Nat.le_of_succ_le (ih (i + 1) p hp)
    | some k =>
      rcases List.mem_cons.mp hp with rfl | hp
      · exact le_rfl
      · exact Nat.le_of_succ_le (ih (i + 1) p hp)

/-- Valid elements stand in original order. -/
theorem validKeys_ordered (i : Nat) (keys : List (Option Nat)) : (validKeys i keys).Pairwise fun a b => a.1 < b.1 := by
  induction keys generalizing i with
  | nil => exact .nil
  | cons x keys ih =>
    cases x with
    | none => exact ih (i + 1)
    | some k => exact .cons (fun p hp => validKeys_ge (i + 1) keys p hp) (ih (i + 1))

theorem mem_keys_of_mem_validKeys {i : Nat} {keys : List (Option Nat)} {p : Nat × Nat} (h : p ∈ validKeys i keys) :
    some p.2 ∈ keys := by
  induction keys generalizing i with
  | nil => simp [validKeys] at h
  | cons x keys ih =>
    cases x with
    | none => exact List.mem_cons_of_mem _ (ih h)
    | some k =>
      rcases List.mem_cons.mp h with rfl | h
      · exact List.mem_cons_self
      · exact List.mem_cons_of_mem _ (ih h)

/-! ## Histogram passes (R162) -/

/-- Keys whose digits from `d` upward are at least `x`. -/
def keysFrom (ks : List Nat) (d x : Nat) : Nat := ks.countP fun k => decide (x ≤ k / 256 ^ d)

/-- A bin holds what stands from it upward and not from the next one. -/
theorem keysFrom_eq_bin_add (ks : List Nat) (d x : Nat) :
    keysFrom ks d x = (ks.filter fun k => k / 256 ^ d == x).length + keysFrom ks d (x + 1) := by
  simp only [keysFrom, ← List.countP_eq_length_filter, Nat.add_one_le_iff]
  induction ks with
  | nil => rfl
  | cons k ks ih =>
    simp only [List.countP_cons, ih]
    rcases lt_trichotomy (k / 256 ^ d) x with h | h | h
    · simp [h.ne, h.not_ge, h.le]
    · simp [h, add_right_comm]
    · simp [h.ne', h.le, h, add_assoc]

/-- All bins of a digit together are one bin of the digit above. -/
theorem keysFrom_succ (ks : List Nat) (d x : Nat) : keysFrom ks (d + 1) x = keysFrom ks d (x * 256) := by
  unfold keysFrom
  refine List.countP_congr fun k _ => ?_
  simp only [decide_eq_true_eq, pow_succ, ← Nat.div_div_eq_div_mul]
  exact Nat.le_div_iff_mul_le (by norm_num)

theorem keysFrom_digits (ks : List Nat) (d x : Nat) : keysFrom ks d x = keysFrom ks 0 (x * 256 ^ d) := by
  unfold keysFrom
  refine List.countP_congr fun k _ => ?_
  simp only [decide_eq_true_eq, pow_zero, Nat.div_one]
  exact Nat.le_div_iff_mul_le (by positivity)

/-- The chosen bin is the one in which the need is reached. `N b`: what stands from bin `b` upward, of which `A` lies above all bins. -/
theorem pickBin_reaches {h N : Nat → Nat} {need A : Nat} (hbin : ∀ x, N x = h x + N (x + 1)) (hall : need + A ≤ N 0) (b above : Nat)
    (habove : above + A = N b) (hneed : N b < need + A) :
    (pickBin h need b above).1 < b ∧ (pickBin h need b above).2 + A = N ((pickBin h need b above).1 + 1)
      ∧ N ((pickBin h need b above).1 + 1) < need + A ∧ need + A ≤ N (pickBin h need b above).1 := by
  induction b generalizing above with
  | zero => omega
  | succ b ih =>
    have hb := hbin b
    simp only [pickBin]
    split
    · obtain ⟨hlt, hrest⟩ := ih (above + h b) (by omega) (by omega)
      exact ⟨Nat.lt_succ_of_lt hlt, hrest⟩
    next hreached => exact ⟨Nat.lt_succ_self b, habove, hneed, by dsimp only; omega⟩

/-- The threshold that the passes find for the best `k` keys: after an early exit just `k` keys are at least t; after the last pass
fewer are above it, and the remaining ones are taken from those of key t. -/
structure Passes.Finds (ks : List Nat) (k : Nat) (r : Passes) : Prop where
  early : r.early = true → keysFrom ks 0 r.t = k
  late : r.early = false → keysFrom ks 0 (r.t + 1) + r.need = k ∧ k ≤ keysFrom ks 0 r.t

/-- One pass: of the best `k` keys, `need` lie under the digits `p` found so far, and the chosen bin is the one in which the need is
reached. -/
theorem pickBin_pass {ks : List Nat} {d p need k : Nat} (hneed : need + keysFrom ks (d + 1) (p + 1) = k) (hpos : 0 < need)
    (hall : k ≤ keysFrom ks (d + 1) p) :
    ∃ b above, pickBin (fun b => (ks.filter fun k => k / 256 ^ d == p * 256 + b).length) need 256 0 = (b, above)
      ∧ need - above + keysFrom ks d (p * 256 + b + 1) = k ∧ above < need ∧ k ≤ keysFrom ks d (p * 256 + b) := by
  have hbin (x : Nat) := keysFrom_eq_bin_add ks d (p * 256 + x)
  rw [keysFrom_succ, add_mul, one_mul] at hneed
  rw [keysFrom_succ, ← Nat.add_zero (p * 256)] at hall
  generalize hN : (fun x => keysFrom ks d (p * 256 + x)) = N
  have hN' (x : Nat) : keysFrom ks d (p * 256 + x) = N x := congrFun hN x
  simp only [Nat.add_assoc, hN'] at hbin hneed hall ⊢
  obtain ⟨-, habove, hbelow, hreached⟩ := pickBin_reaches hbin (hneed ▸ hall) 256 0 (Nat.zero_add _) (by omega)
  rw [hneed] at hbelow hreached
  generalize pickBin _ need 256 0 = r at habove hbelow hreached ⊢
  exact ⟨r.1, r.2, rfl, by omega, by omega, hreached⟩

/-- The passes find the threshold, and run once per digit at most. -/
theorem radixPasses_finds (ks : List Nat) (k d p need n : Nat) (hneed : need + keysFrom ks d (p + 1) = k)
    (hpos : 0 < need) (hall : k ≤ keysFrom ks d p) :
    (radixPasses ks d p need n).Finds ks k ∧ (radixPasses ks d p need n).passes ≤ n + d := by
  induction d generalizing p need n with
  | zero => exact ⟨{ early := nofun, late := fun _ => ⟨by simpa [radixPasses, add_comm] using hneed, hall⟩ }, le_rfl⟩
  | succ d ih =>
    obtain ⟨b, above, hpick, hneed, habove, hreached⟩ := pickBin_pass hneed hpos hall
    simp only [radixPasses, hpick]
    split
    next hexact =>
      have hcount := keysFrom_eq_bin_add ks d (p * 256 + b)
      rw [hexact, hneed, keysFrom_digits] at hcount
      exact ⟨{ early := fun _ => hcount, late := nofun }, by dsimp only; omega⟩
    next hmore =>
      obtain ⟨hfinds, hpasses⟩ := ih (p * 256 + b) (need - above) (n + 1) hneed (Nat.sub_pos_of_lt habove) hreached
      exact ⟨hfinds, by omega⟩

/-! ## The compaction pass (R163) -/

/-- An element is written, which is of at least the threshold, or it is left out: it is below, or none of key t is left to be taken. -/
theorem compact_cons (t : Nat) (early : Bool) (left : Nat) (p : Nat × Nat) (l : List (Nat × Nat)) :
    (∃ left', compact t early left (p :: l) = p :: compact t early left' l ∧ t ≤ p.2)
    ∨ compact t early left (p :: l) = compact t early left l ∧ (p.2 < t ∨ p.2 = t ∧ early = false ∧ left = 0) := by
  obtain ⟨i, k⟩ := p
  rcases lt_trichotomy t k with h | rfl | h
  · exact .inl ⟨left, by simp [compact, h], h.le⟩
  · cases early with
    | true => exact .inl ⟨left, by simp [compact], le_rfl⟩
    | false =>
      cases left with
      | zero => exact .inr ⟨by simp [compact], .inr ⟨rfl, rfl, rfl⟩⟩
      | succ left => exact .inl ⟨left, by simp [compact], le_rfl⟩
  · exact .inr ⟨by simp [compact, h.not_gt, h.ne], .inl h⟩

/-- The compaction pass writes elements of at least the threshold, in original order. -/
theorem compact_sublist (t : Nat) (early : Bool) (left : Nat) (l : List (Nat × Nat)) :
    (compact t early left l).Sublist (l.filter fun p => decide (t ≤ p.2)) := by
  induction l generalizing left with
  | nil => simp [compact]
  | cons p l ih =>
    rcases compact_cons t early left p l with ⟨left', hwritten, hge⟩ | ⟨hskipped, -⟩
    · rw [hwritten, List.filter_cons_of_pos (by simpa using hge)]
      exact (ih left').cons_cons p
    · rw [hskipped]
      exact (ih left).trans ((List.sublist_cons_self p l).filter _)

theorem le_of_mem_compact {t : Nat} {early : Bool} {left : Nat} {l : List (Nat × Nat)} {p : Nat × Nat}
    (h : p ∈ compact t early left l) : t ≤ p.2 :=
  of_decide_eq_true (List.mem_filter.mp ((compact_sublist t early left l).mem h)).2

/-- After an early exit all of them are written. -/
theorem compact_early (t left : Nat) (l : List (Nat × Nat)) : compact t true left l = l.filter fun p => decide (t ≤ p.2) := by
  induction l with
  | nil => rfl
  | cons p l ih =>
    obtain ⟨i, k⟩ := p
    rcases lt_trichotomy t k with h | rfl | h
    · simp [compact, h, h.le, ih]
    · simp [compact, ih]
    · simp [compact, h.not_gt, h.ne, h.not_ge, ih]

/-- With no more of key t to be taken, those above t are written. -/
theorem compact_none_left (t : Nat) (l : List (Nat × Nat)) : compact t false 0 l = l.filter fun p => decide (t < p.2) := by
  induction l with
  | nil => rfl
  | cons p l ih =>
    obtain ⟨i, k⟩ := p
    rcases lt_trichotomy t k with h | rfl | h
    · simp [compact, h, ih]
    · simp [compact, ih]
    · simp [compact, h.not_gt, h.ne, ih]

/-- Without an early exit, all above t are written, and of those of key t as many as are left to be taken. -/
theorem compact_late_length (t left : Nat) (l : List (Nat × Nat)) : (compact t false left l).length
    = (l.filter fun p => decide (t < p.2)).length + min left (l.filter fun p => p.2 == t).length := by
  induction l generalizing left with
  | nil => simp [compact]
  | cons p l ih =>
    obtain ⟨i, k⟩ := p
    rcases lt_trichotomy t k with h | rfl | h
    · simp [compact, h, h.ne', ih]; omega
    · cases left with
      | zero => simp [compact, ih]
      | succ left => simp [compact, ih]; omega
    · simp [compact, h.not_gt, h.ne, ih]

/-- Of an element left out, the key is at most t, and the elements written with its key come before it. -/
theorem compact_left_out {t : Nat} {early : Bool} {left : Nat} {l : List (Nat × Nat)} (hordered : l.Pairwise fun a b => a.1 < b.1)
    {p : Nat × Nat} (hp : p ∈ l) (hout : p ∉ compact t early left l) :
    p.2 ≤ t ∧ ∀ q ∈ compact t early left l, q.2 = p.2 → q.1 < p.1 := by
  induction l generalizing left with
  | nil => cases hp
  | cons r l ih =>
    obtain ⟨hfirst, hordered⟩ := List.pairwise_cons.mp hordered
    rcases compact_cons t early left r l with ⟨left', hwritten, -⟩ | ⟨hskipped, hwhy⟩
    · rw [hwritten] at hout ⊢
      obtain ⟨hne, hout⟩ := not_or.mp (mt List.mem_cons.mpr hout)
      have hpl := (List.mem_cons.mp hp).resolve_left hne
      obtain ⟨hle, hbefore⟩ := ih hordered hpl hout
      refine ⟨hle, fun q hq hkey => ?_⟩
      rcases List.mem_cons.mp hq with rfl | hq
      · exact hfirst p hpl
      · exact hbefore q hq hkey
    · rw [hskipped] at hout ⊢
      rcases List.mem_cons.mp hp with rfl | hpl
      · rcases hwhy with hlt | ⟨heq, rfl, rfl⟩
        · exact ⟨hlt.le, fun q hq hkey => absurd (le_of_mem_compact hq) (by omega)⟩
        · refine ⟨heq.le, fun q hq hkey => ?_⟩
          rw [compact_none_left] at hq
          have habove : t < q.2 := of_decide_eq_true (List.mem_filter.mp hq).2
          omega
      · exact ih hordered hpl hout

/-! ## Top-k mode (R162 to R164) -/

/-- Valid elements whose key is at least t. -/
theorem keysFrom_elements (vs : List (Nat × Nat)) (t : Nat) :
    keysFrom (vs.map (·.2)) 0 t = (vs.filter fun p => decide (t ≤ p.2)).length := by
  rw [keysFrom, List.countP_map, List.countP_eq_length_filter]
  simp only [Function.comp_def, pow_zero, Nat.div_one]

theorem elements_split (vs : List (Nat × Nat)) (t : Nat) : (vs.filter fun p => decide (t ≤ p.2)).length
    = (vs.filter fun p => p.2 == t).length + (vs.filter fun p => decide (t < p.2)).length := by
  have hbin := keysFrom_eq_bin_add (vs.map (·.2)) 0 t
  rw [keysFrom_elements, keysFrom_elements, ← List.countP_eq_length_filter (l := vs.map (·.2)), List.countP_map,
    List.countP_eq_length_filter] at hbin
  simpa only [Function.comp_def, pow_zero, Nat.div_one, Nat.add_one_le_iff] using hbin

section
variable {vs : List (Nat × Nat)} {k : Nat} {r : Passes} (hfinds : r.Finds (vs.map (·.2)) k)
include hfinds

theorem Passes.Finds.need_late (hlate : r.early = false) : (vs.filter fun p => decide (r.t < p.2)).length + r.need = k := by
  obtain ⟨hneed, -⟩ := hfinds.late hlate
  simpa only [keysFrom_elements, Nat.add_one_le_iff] using hneed

/-- Just `k` elements are written. -/
theorem Passes.Finds.compact_length : (compact r.t r.early r.need vs).length = k := by
  cases hearly : r.early with
  | true => rw [compact_early, ← keysFrom_elements, hfinds.early hearly]
  | false =>
    have hneed := hfinds.need_late hearly
    obtain ⟨-, hreached⟩ := hfinds.late hearly
    rw [keysFrom_elements, elements_split] at hreached
    rw [compact_late_length]
    omega

/-- Slots are short for the elements of key t just where more than `k` elements are at least t. -/
theorem Passes.Finds.ties_iff : r.need < (vs.filter fun p => p.2 == r.t).length ∧ r.early = false
    ↔ k < (vs.filter fun p => decide (r.t ≤ p.2)).length := by
  cases hearly : r.early with
  | true => simp [← keysFrom_elements, hfinds.early hearly]
  | false =>
    have hneed := hfinds.need_late hearly
    rw [elements_split]
    simp only [and_true]
    omega

end

theorem topk_few {k : Nat} {keys : List (Option Nat)} (h : (validKeys 0 keys).length ≤ k) : topk k keys =
    { picks := validKeys 0 keys, passes := 1, short := decide ((validKeys 0 keys).length < k)
      boundary := if (validKeys 0 keys).length = k then ((validKeys 0 keys).map (·.2)).foldl min 0xFFFFFFFF else 0 } := by
  simp only [topk, h, if_true]

/-- Where more than `k` elements are valid, passes find the threshold. -/
theorem topk_many {k : Nat} {keys : List (Option Nat)} (hpos : 0 < k) (hkeys : ∀ x, some x ∈ keys → x < 2 ^ 32)
    (h : k < (validKeys 0 keys).length) : ∃ r : Passes, r.Finds ((validKeys 0 keys).map (·.2)) k ∧ r.passes ≤ 4 ∧ topk k keys =
      { picks := compact r.t r.early r.need (validKeys 0 keys), passes := r.passes, boundary := r.t
        tie := if k < ((validKeys 0 keys).filter fun p => decide (r.t ≤ p.2)).length
          then ((validKeys 0 keys).filter fun p => p.2 == r.t).length else 0 } := by
  have hnone : keysFrom ((validKeys 0 keys).map (·.2)) 4 1 = 0 := by
    refine List.countP_eq_zero.mpr fun x hx => ?_
    obtain ⟨p, hp, rfl⟩ := List.mem_map.mp hx
    have hlt := hkeys p.2 (mem_keys_of_mem_validKeys hp)
    simp only [decide_eq_true_eq]
    omega
  have hall : keysFrom ((validKeys 0 keys).map (·.2)) 4 0 = (validKeys 0 keys).length := by simp [keysFrom]
  obtain ⟨hfinds, hpasses⟩ := radixPasses_finds ((validKeys 0 keys).map (·.2)) k 4 0 k 0 (by rw [hnone]; rfl) hpos (by omega)
  refine ⟨_, hfinds, hpasses, ?_⟩
  have hequal (t : Nat) : ((validKeys 0 keys).map (·.2)).filter (· == t) = ((validKeys 0 keys).filter fun p => p.2 == t).map (·.2) :=
    List.filter_map
  simp only [topk, h.not_ge, if_false, hequal, List.length_map, hfinds.ties_iff]

theorem foldl_min_le (l : List Nat) (b : Nat) : l.foldl min b ≤ b ∧ ∀ x ∈ l, l.foldl min b ≤ x := by
  induction l generalizing b with
  | nil => simp
  | cons y l ih =>
    obtain ⟨hb, hl⟩ := ih (min b y)
    have hy := hb.trans (min_le_right b y)
    exact ⟨hb.trans (min_le_left b y), List.forall_mem_cons.mpr ⟨hy, hl⟩⟩

/-- What R162 to R164 ask of a top-k selection from the valid elements. -/
structure Selected.KeepsBest (vs : List (Nat × Nat)) (k : Nat) (r : Selected) : Prop where
  sublist : r.picks.Sublist vs
  length : r.picks.length = min k vs.length
  above : ∀ p ∈ r.picks, r.boundary ≤ p.2
  left_out : ∀ p ∈ vs, p ∉ r.picks → p.2 ≤ r.boundary ∧ ∀ q ∈ r.picks, q.2 = p.2 → q.1 < p.1
  passes : r.passes ≤ 4
  short : r.short = true ↔ vs.length < k
  tie : r.tie = if k < (vs.filter fun p => decide (r.boundary ≤ p.2)).length ∧ k < vs.length
    then (vs.filter fun p => p.2 == r.boundary).length else 0

theorem topk_few_keepsBest {k : Nat} {keys : List (Option Nat)} (h : (validKeys 0 keys).length ≤ k) :
    (topk k keys).KeepsBest (validKeys 0 keys) k := by
  rw [topk_few h]
  exact {
    sublist := .refl _
    length := (min_eq_right h).symm
    above := by
      intro p hp
      dsimp only
      split
      · exact (foldl_min_le _ _).2 p.2 (List.mem_map_of_mem hp)
      · exact Nat.zero_le _
    left_out := fun p hp hout => absurd hp hout
    passes := Nat.le_add_left 1 3
    short := decide_eq_true_iff
    tie := (if_neg fun hmore => h.not_gt hmore.2).symm }

theorem topk_many_keepsBest {k : Nat} {keys : List (Option Nat)} (hpos : 0 < k) (hkeys : ∀ x, some x ∈ keys → x < 2 ^ 32)
    (h : k < (validKeys 0 keys).length) : (topk k keys).KeepsBest (validKeys 0 keys) k := by
  obtain ⟨r, hfinds, hpasses, htopk⟩ := topk_many hpos hkeys h
  rw [htopk]
  exact {
    sublist := (compact_sublist _ _ _ _).trans List.filter_sublist
    length := hfinds.compact_length.trans (min_eq_left h.le).symm
    above := fun p => le_of_mem_compact
    left_out := fun p hp hout => compact_left_out (validKeys_ordered 0 keys) hp hout
    passes := hpasses
    short := ⟨nofun, fun hfew => absurd hfew h.not_gt⟩
    tie := by simp only [h, and_true] }

/-! ## Threshold mode (R165) -/

/-- Of a list in original order, what is left out by a capacity comes after all that is taken. -/
theorem take_left_out {l : List (Nat × Nat)} (hordered : l.Pairwise fun a b => a.1 < b.1) {cap : Nat} {p : Nat × Nat} (hp : p ∈ l)
    (hout : p ∉ l.take cap) : (l.take cap).length = cap ∧ ∀ q ∈ l.take cap, q.1 < p.1 := by
  rw [← List.take_append_drop cap l] at hp hordered
  have hdrop : p ∈ l.drop cap := (List.mem_append.mp hp).resolve_left hout
  have hlong : cap < l.length := by
    have hpos := List.length_pos_of_mem hdrop
    rw [List.length_drop] at hpos
    omega
  exact ⟨List.length_take_of_le hlong.le, fun q hq => (List.pairwise_append.mp hordered).2.2 q hq p hdrop⟩

/-! ## SORT (R166) -/

theorem insertKey_perm (x : Nat × Nat) (l : List (Nat × Nat)) : (insertKey x l).Perm (x :: l) := by
  induction l with
  | nil => exact .refl _
  | cons y l ih =>
    simp only [insertKey]
    split
    · exact .refl _
    · exact (ih.cons y).trans (.swap x y l)

theorem sortKeys_perm (l : List (Nat × Nat)) : (sortKeys l).Perm l := by
  induction l with
  | nil => exact .refl _
  | cons x l ih => exact (insertKey_perm x (sortKeys l)).trans (ih.cons x)

/-- Descending keys, the lower number first among equal ones. -/
def ranksBefore (a b : Nat × Nat) : Prop := b.2 < a.2 ∨ a.2 = b.2 ∧ a.1 ≤ b.1

theorem insertKey_ordered (x : Nat × Nat) {l : List (Nat × Nat)} (h : l.Pairwise ranksBefore) : (insertKey x l).Pairwise ranksBefore := by
  induction l with
  | nil => exact List.pairwise_singleton _ _
  | cons y l ih =>
    obtain ⟨hy, hl⟩ := List.pairwise_cons.mp h
    simp only [insertKey]
    split
    next hfirst =>
      refine List.pairwise_cons.mpr ⟨fun z hz => ?_, h⟩
      rcases List.mem_cons.mp hz with rfl | hz
      · unfold ranksBefore; omega
      · have hyz := hy z hz
        unfold ranksBefore at hyz ⊢
        omega
    next hlater =>
      refine List.pairwise_cons.mpr ⟨fun z hz => ?_, ih hl⟩
      rcases List.mem_cons.mp ((insertKey_perm x l).mem_iff.mp hz) with rfl | hz
      · unfold ranksBefore; omega
      · exact hy z hz

theorem sortKeys_ordered (l : List (Nat × Nat)) : (sortKeys l).Pairwise ranksBefore := by
  induction l with
  | nil => exact .nil
  | cons x l ih => exact insertKey_ordered x ih

/-- Settles O39: top-k mode, where at most `k` elements are valid and where the passes find the threshold; threshold mode; SORT. -/
theorem selectionKeepsTheBestElements : Obligations.SelectionKeepsTheBestElements := by
  refine ⟨fun k keys hpos hkeys => ?topk, fun cap t keys => ?threshold, fun l => ⟨sortKeys_perm l, sortKeys_ordered l⟩⟩
  case topk =>
    have hbest : (topk k keys).KeepsBest (validKeys 0 keys) k :=
      (le_or_gt (validKeys 0 keys).length k).elim topk_few_keepsBest (topk_many_keepsBest hpos hkeys)
    exact ⟨hbest.sublist, hbest.length, hbest.above, hbest.left_out, hbest.passes, hbest.short, hbest.tie⟩
  case threshold =>
    refine ⟨(List.take_sublist _ _).trans List.filter_sublist, fun p hp => ?_, List.length_take, fun p hp ht hout => ?_,
      decide_eq_true_iff, rfl, rfl⟩
    · exact of_decide_eq_true (List.mem_filter.mp (List.mem_of_mem_take hp)).2
    · exact take_left_out ((validKeys_ordered 0 keys).filter _) (List.mem_filter.mpr ⟨hp, decide_eq_true ht⟩) hout

end Sys2Proof.Machine
end

section
/-! The selection units' commands (spec/07 R159, R168 to R171, R173 to R178): queueing, starting, completing and flushing selections, the
merge-select unit's opening, arrivals and closing, and O41. -/

namespace Sys2Proof.Machine

/-! ## Queueing a descriptor (R159, R169, R197) -/

/-- An Xlz instruction without a fault in its fields, on a core that runs, does what it names where it raises no latched fault. -/
theorem State.xlz_body {s : State} {g : Nat} (body : State → State) (hruns : (s.cluster g).runs = true) :
    s.xlz g 0 [0, 0] false body = body s := by
  simp [State.xlz, hruns]

theorem State.checkRead_good {s : State} {r : Requester} {a n : Nat} (g : Option Nat) (hst : s.accessSt r false a n = St.ok)
    (hgood : s.firstBad a n = none) : s.checkRead r g a n = (St.ok, s.used) := by
  simp [State.checkRead, hst, hgood]

theorem State.fetchDesc_good {s : State} {r : Requester} {a n : Nat} (g : Option Nat) (hst : s.accessSt r false a n = St.ok)
    (hgood : s.firstBad a n = none) : s.fetchDesc r g a n = ((St.ok, s.bytesAt a n), s.used) := by
  simp only [State.fetchDesc, State.checkRead_good g hst hgood, if_true, State.used_bytesAt]

section
variable {s : State} {g : Fin 128} {r : Fin 32} (hruns : (s.cluster g).runs = true)
  (hcheck : s.descCheck g ((s.cluster g).core.reg r) = none)
include hruns hcheck

theorem State.selIssue_full (hfull : 8 ≤ (s.selUnit (g / 8)).queue.length) : s.selIssue g 0 0 r 0 = s.stall g .unitFull := by
  refine (State.xlz_body _ hruns).trans ?_
  simp only [hcheck, hfull, if_true]

theorem State.selIssue_queues (hroom : (s.selUnit (g / 8)).queue.length < 8)
    (hst : s.accessSt (.steward g) false ((s.cluster g).core.reg r) 64 = St.ok)
    (hgood : s.firstBad ((s.cluster g).core.reg r) 64 = none) :
    s.selIssue g 0 0 r 0 = (s.used.modUnit (g / 8) fun x => { x with queue := x.queue ++
      [{ desc := s.bytesAt ((s.cluster g).core.reg r) 64, g := g, epoch := (s.cluster g).epoch, doomed := none
         grants := s.grantsOn g, tag := s.tagOf (some g.val) }] }).modCl g fun c => c.retire := by
  refine (State.xlz_body _ hruns).trans ?_
  simp only [hcheck, hroom.not_ge, if_false, State.fetchDesc_good (some g.val) hst hgood, if_true]
  rfl

end

theorem State.selQueue_room {s : State} {u : Nat} (d : Bytes) (hroom : (s.selUnit u).queue.length < 8) :
    s.selQueue u d = s.modUnit u fun x => { x with queue := x.queue ++ [{ desc := fitTo 64 d, keeper := true }] } := by
  simp only [State.selQueue, hroom.not_ge, if_false]

/-! ## Starting and completing a selection (R162 to R171) -/

section
variable {s : State} {u : Fin 16} {j : SelJob}

section
variable {l : List SelJob} (hqueue : (s.selUnit u).queue = j :: l) (hidle : (s.selUnit u).run = none)
  (henabled : (s.selUnit u).enable = true)
include hqueue hidle henabled

theorem execSelectionStart_starts (hcheck : s.selCheck j (s.selUnit u).gather = St.ok) :
    execSelectionStart u s = .next
      ((s.modUnit u fun x => { x with queue := l }).modUnit u fun x => { x with run := some { j with gather := x.gather } }) := by
  simp only [execSelectionStart, hqueue, hidle, henabled, hcheck, if_true]

theorem execSelectionStart_refuses (hcheck : s.selCheck j (s.selUnit u).gather ≠ St.ok) :
    execSelectionStart u s = .next
      (((s.modUnit u fun x => { x with queue := l }).modUnit u fun x => { x with refused := satAdd 65535 x.refused 1 }).selRefuse u j
        (s.selCheck j (s.selUnit u).gather)) := by
  simp only [execSelectionStart, hqueue, hidle, henabled, hcheck, if_true, if_false]

end

section
variable {t : State} {keys : List (Option Nat)} {r : Selected} (hrun : (s.selUnit u).run = some j)
  (ht : t = s.modUnit u fun x => { x with run := none }) (hkeys : keys = t.selKeys j.desc) (hr : r = selOf j.desc keys)
include hrun ht hkeys hr

theorem execSelectionComplete_poisoned {f : SelFail} (cycles : Nat) (hfails : t.selFails j keys r = some f) :
    execSelectionComplete u cycles s = .next (t.selPoison u j f cycles) := by
  subst ht hkeys hr
  simp only [execSelectionComplete, hrun, hfails]

theorem execSelectionComplete_sound (cycles : Nat) (hfails : t.selFails j keys r = none) :
    execSelectionComplete u cycles s = .next (t.used.used.selWrite u j keys r cycles) := by
  subst ht hkeys hr
  simp only [execSelectionComplete, hrun, hfails]

end

end

/-- Codes that are all ST_OK have no first other one. -/
theorem accessSt_find?_none {s : State} {q : Requester} {l : List (Nat × Nat)} (h : ∀ p ∈ l, s.accessSt q false p.1 p.2 = St.ok) :
    (l.map fun p => s.accessSt q false p.1 p.2).find? (· ≠ St.ok) = none := by
  refine List.find?_eq_none.mpr fun st hst => ?_
  obtain ⟨p, hp, rfl⟩ := List.mem_map.mp hst
  simp [h p hp]

/-- Without a value stream and with every range open, the entries are written and the header with sums of 0. -/
theorem State.selWrite_plain {s v : State} {j : SelJob} {r : Selected} (u : Nat) (keys : List (Option Nat)) (cycles : Nat)
    (hvsrc : selVsrc j.desc = 0) (hgather : j.gather = false)
    (hopen : ∀ p ∈ (selRanges j.gather j.desc).1, s.accessSt j.requester false p.1 p.2 = St.ok)
    (hwrite : s.writeRange j.requester false (selResAddr j.desc + 64) (s.selEntries j r.picks) = (St.ok, v)) :
    s.selWrite u j keys r cycles = (v.selWriteHeader j (selHeader St.ok (b2n r.short + 2 * b2n r.trunc + 8 * b2n (selSort j.desc))
      r.passes r.picks.length r.tie r.boundary 0 0 (invalidIn keys (selN j.desc)) cycles)).selEnd u j := by
  have hsources := accessSt_find?_none hopen
  simp only [State.selWrite, hvsrc, true_or, if_true, hsources, Option.getD_none, hwrite]
  simp only [hgather, b2n, Bool.false_eq_true, if_false, Nat.mul_zero, Nat.add_zero]

/-! ## The merge-select unit (R173 to R178) -/

theorem State.openMerge_frame (s : State) (d : Bytes) (tag : Nat) (thr : Tab Nat) : Frame [.sel] s (s.openMerge d tag thr) :=
  (State.openMerge_runs (W := [.sel]) List.mem_cons_self (Runs.refl _ s) d tag thr 0).frame

/-- An opened merge stands in the table under its number, with nothing held. -/
theorem State.find_openMerge (s : State) (d : Bytes) (tag : Nat) (thr : Tab Nat) :
    Tab.find (s.openMerge d tag thr).sel.merges (fieldAt d 0 2)
      = some { desc := d, tag := tag, thresholds := thr, maskClosed := fieldAt d 6 2 == 0 } := by
  simp only [State.openMerge, State.modSel, Tab.find_put, if_true]

theorem execMergeInstanceOpen_refuses {s : State} {d : Bytes} {st : Nat} (thr : List Nat) (hcheck : s.mergeCheck d = some st) :
    execMergeInstanceOpen d thr s = .next (s.reply (.value st)) := by
  simp only [execMergeInstanceOpen, hcheck]

theorem execMergeInstanceOpen_opens {s : State} {d : Bytes} (thr : List Nat) (hcheck : s.mergeCheck d = none) :
    execMergeInstanceOpen d thr s = .next ((s.openMerge (fitTo 32 d) noTag
      ((thr.zipIdx.filter fun t => t.1 != 0).map fun t => (t.2, t.1))).reply (.value St.ok)) := by
  simp only [execMergeInstanceOpen, hcheck]

section
variable {s : State} {i : Nat} {m : Merge} (hfind : Tab.find s.sel.merges i = some m)
include hfind

/-! ### Arrivals (R174, R175, R178) -/

section
variable (k : StreamKind) {b : Bytes} (hplain : entryReserved b = false)
include hplain

theorem State.streamEntry_merges (hmerges : m.through = false) :
    s.streamEntry i k b = s.mergeTo i m (m.arrive (entryFrom m k b)) := by
  simp only [State.streamEntry, State.mergeArrive, hfind, hplain, hmerges, Bool.false_eq_true, if_false]

theorem State.streamEntry_through (hthrough : m.through = true) :
    s.streamEntry i k b = s.modMerge i fun x => { x with
      forwarded := x.forwarded ++ [entryFrom m k b], closes := x.closes + b2n (entryFrom m k b).close } := by
  simp only [State.streamEntry, hfind, hplain, hthrough, Bool.false_eq_true, if_false, if_true]

end

theorem State.channelEntry_merges {ch : Fin 32} {r : Bytes} {bad : Bool} {rest : List (Nat × Bytes × Bool)}
    {x : Merge × MergeTally} (hsent : (s.pipe ch).sent = (i, r, bad) :: rest) (hreadable : (s.pipe ch).readable ≠ 0)
    (hmerges : m.through = false) (hroom : m.fromChannel (s.entryOfCandidate m r bad) = some x) :
    s.channelEntry ch = (s.modPipe ch fun p => { p with sent := rest, readable := p.readable - 1 }).mergeTo i m x := by
  simp only [State.channelEntry, hsent, hreadable, hfind, hmerges, hroom, Bool.false_eq_true, if_false]

/-! ### Closing (R177) -/

section
variable (ids : List Nat) (hscan : s.scanOf i = none) (hquery : s.queryOf i = none)
include hscan hquery

theorem execMergeInstanceClose_closes (hended : s.mergeEnded i m = true) (hmerges : m.through = false) :
    execMergeInstanceClose i ids s
      = .next ((s.dropMerge i).reply (.data ((List.range m.queries).map m.result).flatten)) := by
  simp only [execMergeInstanceClose, hfind, hscan, hquery, hended, hmerges, Bool.false_eq_true, if_false, if_true]

theorem execMergeInstanceClose_waits (hopen : s.mergeEnded i m = false) : execMergeInstanceClose i ids s = .next s := by
  simp only [execMergeInstanceClose, hfind, hscan, hquery, hopen, Bool.false_eq_true, if_false]

end

end

/-- Settles O41, command by command. -/
theorem selectionUnitsRun : Obligations.SelectionUnitsRun := by
  refine ⟨?queues, ?full, ?keeper, ?starts, ?refused, ?completes, ?writes, ?flush, ?enable, ?opens, ?openRefused, ?merges, ?through,
    ?channel, ?closes, ?waits⟩
  case queues =>
    intro s g r hruns hcheck hroom hst hgood
    rw [exec_selIssue, execSelIssue, State.selIssue_queues hruns hcheck hroom hst hgood]
  case full =>
    intro s g r hruns hcheck hfull
    rw [exec_selIssue, execSelIssue, State.selIssue_full hruns hcheck hfull]
  case keeper =>
    intro s u d f7 rd a b hroom
    rw [exec_selIssue, execSelIssue, State.selQueue_room d hroom]
  case starts => exact fun s u j l hqueue hidle henabled hcheck => execSelectionStart_starts hqueue hidle henabled hcheck
  case refused => exact fun s u j l hqueue hidle henabled hcheck => execSelectionStart_refuses hqueue hidle henabled hcheck
  case completes =>
    intro s u cycles j t keys r hrun ht hkeys hr
    cases hfails : t.selFails j keys r with
    | some f => exact execSelectionComplete_poisoned hrun ht hkeys hr cycles hfails
    | none => exact execSelectionComplete_sound hrun ht hkeys hr cycles hfails
  case writes =>
    exact fun s v u j keys r cycles hvsrc hgather hopen hwrite => State.selWrite_plain u keys cycles hvsrc hgather hopen hwrite
  case flush => exact fun s u => exec_selFlush u s
  case enable => exact fun s u on gather => exec_selEnable u on gather s
  case opens =>
    intro s d thr hcheck
    refine ⟨_, execMergeInstanceOpen_opens thr hcheck, State.openMerge_frame _ _ _ _, _, State.find_openMerge _ _ _ _, rfl, rfl, rfl⟩
  case openRefused => exact fun s d thr st hcheck => execMergeInstanceOpen_refuses thr hcheck
  case merges =>
    intro s i k b m hfind hplain hmerges
    rw [exec_mergeEntryArrival, execMergeEntryArrival, State.streamEntry_merges hfind k hplain hmerges]
  case through =>
    intro s i k b m hfind hplain hthrough
    rw [exec_mergeEntryArrival, execMergeEntryArrival, State.streamEntry_through hfind k hplain hthrough]
  case channel =>
    intro s ch i r bad rest m x hsent hreadable hfind hmerges hroom
    rw [exec_mergeEntryArrival, execMergeEntryArrival, State.channelEntry_merges hfind hsent hreadable hmerges hroom]
  case closes => exact fun s i ids m hfind hscan hquery hended hmerges =>
    execMergeInstanceClose_closes hfind ids hscan hquery hended hmerges
  case waits => exact fun s i ids m hfind hscan hquery hopen => execMergeInstanceClose_waits hfind ids hscan hquery hopen

end Sys2Proof.Machine
end

section
/-! The Xlz instructions (spec/08 R196 to R203; spec/11 R263; spec/12 R281): their common frame, the matrix operations they queue and how
those start and end, the slot flags, the mover's descriptors, the words that spell them, and O42. -/

namespace Sys2Proof.Machine

/-! ## The frame of an Xlz instruction (R196, R202) -/

section
variable {s : State} {g : Nat} (hruns : (s.cluster g).runs = true)
include hruns

/-- With its unused fields 0 an instruction does what it names, unless it is a tile.*, chain.go or tile.fence that meets a latched fault. -/
theorem State.xlz_passes {unused : List Nat} {tile : Bool} (body : State → State) (hunused : ∀ r ∈ unused, r = 0)
    (hcalm : tile = true → (s.cluster g).async = none) : s.xlz g 0 unused tile body = body s := by
  have hfields : unused.any (· ≠ 0) = false := List.any_eq_false.mpr fun r hr => by simp [hunused r hr]
  have hquiet : (tile && (s.cluster g).async.isSome) = false := by
    cases tile with
    | false => rfl
    | true => rw [hcalm rfl]; rfl
  simp only [State.xlz, hruns, hfields, hquiet, Bool.not_true, Bool.false_eq_true, ne_eq, not_true_eq_false, or_self, if_false]

theorem State.xlz_illegal {f7 : Nat} (unused : List Nat) (tile : Bool) (body : State → State) (hf7 : f7 ≠ 0) :
    s.xlz g f7 unused tile body = s.illegal g := by
  simp only [State.xlz, hruns, Bool.not_true, Bool.false_eq_true, if_false, ne_eq, hf7, not_false_eq_true, true_or, if_true]

end

/-- A nonzero funct7 is an illegal instruction, whatever the instruction (R196). -/
theorem execXlz_funct7_illegal {s : State} {g f7 : Fin 128} (rd a w : Fin 32) (d : StepData) (hruns : (s.cluster g).runs = true)
    (hf7 : f7 ≠ 0) :
    execTileLoad g f7 rd a w s = .next (s.illegal g) ∧ execTileStream g f7 rd a w s = .next (s.illegal g)
    ∧ execTileDrain g f7 rd a w s = .next (s.illegal g) ∧ execTileCfg g f7 rd a w s = .next (s.illegal g)
    ∧ execTileFence g f7 rd a w s = .next (s.illegal g) ∧ execChainGo g f7 rd a w s = .next (s.illegal g)
    ∧ execMvIssue g f7 rd a w s = .next (s.illegal g) ∧ execSelIssue (.core g) f7 rd a w s = .next (s.illegal g)
    ∧ execSlotWait g f7 rd a w s = .next (s.illegal g) ∧ execSlotTake g f7 rd a w s = .next (s.illegal g)
    ∧ execSlotGive g f7 rd a w s = .next (s.illegal g) ∧ execSlotPeek g f7 rd a w s = .next (s.illegal g)
    ∧ execSlotClear g f7 rd a w s = .next (s.illegal g) ∧ execStepMark ⟨g, f7, rd, a, w⟩ d s = .next (s.illegal g) := by
  have hframe : ∀ unused tile body, (.next (s.xlz g f7 unused tile body) : Out) = .next (s.illegal g) := fun unused tile body =>
    congrArg Host.Outcome.next (State.xlz_illegal hruns unused tile body (Fin.val_ne_zero_iff.mpr hf7))
  exact ⟨hframe _ _ _, hframe _ _ _, hframe _ _ _, hframe _ _ _, hframe _ _ _, hframe _ _ _, hframe _ _ _, hframe _ _ _,
    hframe _ _ _, hframe _ _ _, hframe _ _ _, hframe _ _ _, hframe _ _ _, hframe _ _ _⟩

section
variable {s t : State} {g : Fin 128} {unused : List Nat} {body : State → State} (hruns : (s.cluster g).runs = true)
  (hunused : ∀ r ∈ unused, r = 0)
include hruns hunused

theorem next_xlz_executes (hbody : body s = t) : (.next (s.xlz g 0 unused false body) : Out) = .next t :=
  congrArg Host.Outcome.next ((State.xlz_passes hruns body hunused fun h => absurd h Bool.false_ne_true).trans hbody)

theorem next_xlz_tile (hasync : (s.cluster g).async = none) (hbody : body s = t) :
    (.next (s.xlz g 0 unused true body) : Out) = .next t :=
  congrArg Host.Outcome.next ((State.xlz_passes hruns body hunused fun _ => hasync).trans hbody)

end

/-! ## Tiles (R179, R197 to R201) -/

/-- With fewer than 8 operations queued the gang's queue takes another, and the instruction retires. -/
theorem next_queueMxu_room {s : State} {g u : Nat} (op : MxuOp) (view : Gang → Gang)
    (hroom : ((s.cluster g).gangAt ((s.cluster g).lead u)).queue.length < 8) :
    (.next (s.queueMxu g u op view) : Out) = .next (s.modCl g fun c =>
      let x := view (c.gangAt ((s.cluster g).lead u))
      (c.setGang ((s.cluster g).lead u) { x with queue := x.queue ++ [op] }).retire) := by
  simp only [State.queueMxu, hroom.not_ge, if_false]

section
variable {s : State} {g : Fin 128} {a w : Fin 32} {addr v : Nat} (hruns : (s.cluster g).runs = true)
  (hasync : (s.cluster g).async = none) (ha : (s.cluster g).core.reg a = addr) (hw : (s.cluster g).core.reg w = v)
include hruns hasync ha hw

theorem execTileLoad_queues (hcheck : loadChecks s (s.cluster g) addr v = none) :
    execTileLoad g 0 0 a w s = .next (s.queueMxu g (bits v 0 2) (.load addr (bits v 2 4) (bit v 7)) fun x =>
      if x.viewSide then { x with view0 := some (bits v 2 4) } else { x with view1 := some (bits v 2 4) }) :=
  next_xlz_tile hruns (by decide) hasync (by simp only [ha, hw, hcheck])

theorem execTileLoad_refuses {st : Nat} (hcheck : loadChecks s (s.cluster g) addr v = some st) :
    execTileLoad g 0 0 a w s = .next (s.xlzOperand g st) :=
  next_xlz_tile hruns (by decide) hasync (by simp only [ha, hw, hcheck])

theorem execTileStream_queues (hcheck : streamChecks (s.cluster g) addr v = none) :
    execTileStream g 0 0 a w s = .next (s.queueMxu g (bits v 26 2)
      (.stream addr (bits v 32 16) (bits v 22 4) (bit v 21) (bit v 20) (bits v 10 10) (bits v 0 10 + 1))
      fun x => { x with viewSide := x.viewSide != bit v 21 }) :=
  next_xlz_tile hruns (by decide) hasync (by simp only [ha, hw, hcheck])

theorem execTileDrain_queues (hcheck : drainChecks (s.cluster g) addr v = none) :
    execTileDrain g 0 0 a w s = .next (s.queueMxu g (bits v 22 2)
      (.drain addr (bits v 32 16) (bit v 21) (bit v 20) (bits v 10 10) (bits v 0 10 + 1)) id) :=
  next_xlz_tile hruns (by decide) hasync (by simp only [ha, hw, hcheck])

end

section
variable {s : State} {g : Fin 128} (hruns : (s.cluster g).runs = true) (hasync : (s.cluster g).async = none)
include hruns hasync

theorem execTileCfg_checked {rd a : Fin 32} (hcheck : cfgChecks s ((s.cluster g).core.reg a) = none) :
    execTileCfg g 0 rd a 0 s = .next (if (s.cluster g).mxuBusy then s.stall g .cfg
      else s.modCl g fun c => (c.configure ((s.cluster g).core.reg a)).retireWith rd c.cfgWord) :=
  next_xlz_tile hruns (by decide) hasync (by simp only [hcheck])

theorem execTileFence_calm :
    execTileFence g 0 0 0 0 s = .next (if (s.cluster g).mxuBusy then s.stall g .fence else s.modCl g Cluster.retire) :=
  next_xlz_tile hruns (by decide) hasync rfl

end

/-! ## Operations of the gangs (R180, R189, R202) -/

section
variable {s : State} {g : Fin 128} {u : Fin 4} (hgang : u.val < (s.cluster g).gangs)
include hgang

theorem execMxuOpStart_starts (fed : Bool) : execMxuOpStart g ⟨u, fed⟩ s =
    .next (s.modCl g fun c => (c.setGang (c.lead u) ((c.gangAt (c.lead u)).start fed)).markShared) :=
  congrArg Host.Outcome.next (State.modCl_congr (if_pos hgang))

section
variable {k : Nat} {buf al : Bool}

theorem execMxuOpComplete_load {addr fmt : Nat} {col : Bool}
    (hop : ((s.cluster g).gangAt ((s.cluster g).lead u)).active[k]? = some ⟨.load addr fmt col, buf, al⟩) :
    execMxuOpComplete g u k s = .next ((s.modCl g fun c => c.setGang (c.lead u) ((c.gangAt (c.lead u)).take k)).loadDone g u
      addr fmt col buf) := by
  simp only [execMxuOpComplete, hgang.not_ge, if_false, hop]

/-- The oldest operation has none before it to wait for. -/
theorem execMxuOpComplete_stream {addr stride afmt row n : Nat} {swap acc : Bool}
    (hop : ((s.cluster g).gangAt ((s.cluster g).lead u)).active[0]? = some ⟨.stream addr stride afmt swap acc row n, buf, al⟩) :
    execMxuOpComplete g u 0 s = .next ((s.modCl g fun c => c.setGang (c.lead u) ((c.gangAt (c.lead u)).take 0)).streamDone g u
      addr stride afmt acc row n buf al) := by
  simp only [execMxuOpComplete, hgang.not_ge, if_false, hop, List.take_zero, List.all_nil, if_true]

theorem execMxuOpComplete_drain {addr stride row n : Nat} {rs cl : Bool}
    (hop : ((s.cluster g).gangAt ((s.cluster g).lead u)).active[0]? = some ⟨.drain addr stride rs cl row n, buf, al⟩) :
    execMxuOpComplete g u 0 s = .next ((s.modCl g fun c => c.setGang (c.lead u) ((c.gangAt (c.lead u)).take 0)).drainRows g u
      addr stride rs cl row 0 n) := by
  simp only [execMxuOpComplete, hgang.not_ge, if_false, hop, List.take_zero, List.all_nil, if_true]

end

end

/-! ## Slots of a core's own cluster (R197, R263) -/

section
variable {s : State} {g : Fin 128} {r : Fin 32} {v : Nat} (hruns : (s.cluster g).runs = true) (hr : (s.cluster g).core.reg r = v)
include hruns hr

section
variable (rd : Fin 32)

theorem execSlotWait_refuses {st : Nat} (hcheck : slotChecks s g v true = some st) :
    execSlotWait g 0 rd r 0 s = .next (s.xlzOperand g st) :=
  next_xlz_executes hruns (by decide) (by simp only [hr, hcheck])

section
variable (hcheck : slotChecks s g v true = none)
include hcheck

theorem execSlotWait_checked : execSlotWait g 0 rd r 0 s = .next (if (s.cluster g).slotFull (bits v 0 12) then
    s.modCl g fun c => c.retireWith rd (c.slotCount (bits v 0 12)) else s.stall g (.slotRead (bits v 0 12))) :=
  next_xlz_executes hruns (by decide) (by simp only [hr, hcheck])

theorem execSlotTake_checked : execSlotTake g 0 rd r 0 s = .next (if (s.cluster g).slotFull (bits v 0 12) then
    s.modCl g fun c => (c.setSlot (bits v 0 12) false (c.slotCount (bits v 0 12))).retireWith rd (c.slotCount (bits v 0 12))
    else s.stall g (.slotRead (bits v 0 12))) :=
  next_xlz_executes hruns (by decide) (by simp only [hr, hcheck])

theorem execSlotPeek_checked :
    execSlotPeek g 0 rd r 0 s = .next (s.modCl g fun c => c.retireWith rd (Tab.get 0 c.slots (bits v 0 12))) :=
  next_xlz_executes hruns (by decide) (by simp only [hr, hcheck])

end
end

/-! ## Slots of any cluster (R197, R263) -/

section
variable (hcheck : slotChecks s g v false = none)
include hcheck

section
variable (w : Fin 32)

theorem execSlotGive_own (hown : bits v 12 10 = g.val) : execSlotGive g 0 0 r w s = .next
    (if (s.cluster g).slotFull (bits v 0 12) then s.stall g (.slotGive g (bits v 0 12))
      else s.modCl g fun c => (c.setSlot (bits v 0 12) true ((s.cluster g).core.reg w % 256)).retire) :=
  next_xlz_executes hruns (by decide) (by simp only [hr, hcheck, hown, if_true])

theorem execSlotGive_remote (hother : bits v 12 10 ≠ g.val) (hquiet : (s.cluster g).remote = none) :
    execSlotGive g 0 0 r w s = .next (s.modCl g fun c =>
      { c with remote := some ⟨bits v 12 10, bits v 0 12, some ((s.cluster g).core.reg w % 256)⟩
               waiting := some (.slotGive (bits v 12 10) (bits v 0 12)) }) :=
  next_xlz_executes hruns (by decide) (by simp only [hr, hcheck, hother, hquiet, Option.isSome_none, Bool.false_eq_true, if_false])

end

theorem execSlotClear_own (hown : bits v 12 10 = g.val) :
    execSlotClear g 0 0 r 0 s = .next (s.modCl g fun c => (c.setSlot (bits v 0 12) false 0).retire) :=
  next_xlz_executes hruns (by decide) (by simp only [hr, hcheck, hown, if_true])

theorem execSlotClear_remote (hother : bits v 12 10 ≠ g.val) (hquiet : (s.cluster g).remote = none) :
    execSlotClear g 0 0 r 0 s = .next (s.modCl g fun c => { c with remote := some ⟨bits v 12 10, bits v 0 12, none⟩ }) :=
  next_xlz_executes hruns (by decide) (by simp only [hr, hcheck, hother, hquiet, Option.isSome_none, Bool.false_eq_true, if_false])

end
end

/-! ## Descriptors of the mover (R197, R201, R281) -/

section
variable {s : State} {g : Fin 128} {r : Fin 32} (hruns : (s.cluster g).runs = true)
  (hcheck : s.descCheck g ((s.cluster g).core.reg r) = none)
include hruns hcheck

theorem execMvIssue_full (hfull : 16 ≤ (s.cluster g).mvQueued) : execMvIssue g 0 0 r 0 s = .next (s.stall g .unitFull) :=
  next_xlz_executes hruns (by decide) (by simp only [hcheck, hfull, if_true])

theorem execMvIssue_queues (hroom : (s.cluster g).mvQueued < 16)
    (hst : s.accessSt (.mover g) false ((s.cluster g).core.reg r) 64 = St.ok)
    (hgood : s.firstBad ((s.cluster g).core.reg r) 64 = none) :
    execMvIssue g 0 0 r 0 s = .next (s.used.modCl g fun c => ({ c with movers := c.movers ++
      [{ desc := s.bytesAt ((s.cluster g).core.reg r) 64, epoch := (s.cluster g).epoch, doomed := none }] } : Cluster).retire) :=
  next_xlz_executes hruns (by decide) (by simp only [hcheck, hroom.not_ge, if_false, State.fetchDesc_good (some g.val) hst hgood, if_true])

end

/-! ## Instruction words (R196) -/

theorem exec_stewardInstruction_xlz {s : State} {g : Fin 128} (w : Nat) (d : StepData) (hruns : (s.cluster g).runs = true) :
    exec (.stewardInstruction g (.xlz w d)) s = execXlzWord g w d s := by
  simp only [exec_stewardInstruction, execStewardInstruction, hruns, Bool.not_true, Bool.false_eq_true, if_false]

/-- funct3 has three bits; 6 and 7 name nothing under custom-0. -/
theorem execXlzWord_unlisted {s : State} {g : Fin 128} {w : Nat} (d : StepData) (hop : bits w 0 7 = 0x0B) (hfunct : 6 ≤ bits w 12 3) :
    execXlzWord g w d s = .next (s.illegal g) := by
  have hlt : bits w 12 3 < 8 := Nat.mod_lt _ (by decide)
  obtain h | h : bits w 12 3 = 6 ∨ bits w 12 3 = 7 := by omega
  all_goals simp only [execXlzWord, hop, h]

/-- Settles O42, instruction by instruction. -/
theorem xlzInstructionsRun : Obligations.XlzInstructionsRun := by
  refine ⟨?load, ?loadRefused, ?illegal, ?words, ?stream, ?drain, ?cfg, ?cfgWaits, ?fence, ?starts, ?loadEnds, ?streamEnds, ?drainEnds,
    ?ownSlots, ?anySlots, ?slotRefused, ?mvQueues, ?mvFull⟩
  case load => exact fun s g a w hruns hasync hcheck hroom =>
    (execTileLoad_queues hruns hasync rfl rfl hcheck).trans (next_queueMxu_room _ _ hroom)
  case loadRefused => exact fun s g a w st hruns hasync hcheck => execTileLoad_refuses hruns hasync rfl rfl hcheck
  case illegal => exact fun s g f7 rd a w d hruns hf7 => execXlz_funct7_illegal rd a w d hruns hf7
  case words =>
    rintro s g _ _ _ _ w d hruns rfl rfl rfl rfl
    rw [exec_stewardInstruction_xlz w d hruns]
    refine ⟨fun hop => ⟨?_, ?_, ?_, ?_, ?_, ?_, execXlzWord_unlisted d hop⟩, fun hop => ⟨?_, ?_, ?_, ?_, ?_, ?_, ?_, ?_⟩⟩
    all_goals
      intro hfunct
      simp only [execXlzWord, hop, hfunct]
      rfl
  case stream => exact fun s g a w hruns hasync hcheck hroom =>
    (execTileStream_queues hruns hasync rfl rfl hcheck).trans (next_queueMxu_room _ _ hroom)
  case drain => exact fun s g a w hruns hasync hcheck hroom =>
    (execTileDrain_queues hruns hasync rfl rfl hcheck).trans (next_queueMxu_room _ _ hroom)
  case cfg => exact fun s g rd a hruns hasync hcheck hidle =>
    (execTileCfg_checked hruns hasync hcheck).trans (congrArg _ (if_neg (Bool.eq_false_iff.mp hidle)))
  case cfgWaits => exact fun s g rd a hruns hasync hcheck hbusy =>
    (execTileCfg_checked hruns hasync hcheck).trans (congrArg _ (if_pos hbusy))
  case fence => exact fun s g hruns hasync => execTileFence_calm hruns hasync
  case starts => exact fun s g u hgang fed => execMxuOpStart_starts hgang fed
  case loadEnds => exact fun s g u k addr fmt col buf al hgang hop => execMxuOpComplete_load hgang hop
  case streamEnds => exact fun s g u addr stride afmt swap acc row n buf al hgang hop => execMxuOpComplete_stream hgang hop
  case drainEnds => exact fun s g u addr stride rs cl row n buf al hgang hop => execMxuOpComplete_drain hgang hop
  case ownSlots =>
    intro s g rd r hruns hcheck
    have hwait := execSlotWait_checked hruns rfl rd hcheck
    have htake := execSlotTake_checked hruns rfl rd hcheck
    exact ⟨fun hfull => ⟨hwait.trans (congrArg _ (if_pos hfull)), htake.trans (congrArg _ (if_pos hfull))⟩,
      fun hempty => ⟨hwait.trans (congrArg _ (if_neg (Bool.eq_false_iff.mp hempty))),
        htake.trans (congrArg _ (if_neg (Bool.eq_false_iff.mp hempty)))⟩, execSlotPeek_checked hruns rfl rd hcheck⟩
  case anySlots =>
    intro s g r w hruns hcheck
    have hgive := execSlotGive_own hruns rfl hcheck w
    exact ⟨fun hown hempty => (hgive hown).trans (congrArg _ (if_neg (Bool.eq_false_iff.mp hempty))),
      fun hown hfull => (hgive hown).trans (congrArg _ (if_pos hfull)), execSlotGive_remote hruns rfl hcheck w,
      execSlotClear_own hruns rfl hcheck, execSlotClear_remote hruns rfl hcheck⟩
  case slotRefused => exact fun s g rd r st hruns hcheck => execSlotWait_refuses hruns rfl rd hcheck
  case mvQueues => exact fun s g r hruns hcheck hroom hst hgood => execMvIssue_queues hruns hcheck hroom hst hgood
  case mvFull => exact fun s g r hruns hcheck hfull => execMvIssue_full hruns hcheck hfull

end Sys2Proof.Machine
end

section
/-! Programs on the steward cores (spec/08 R193 to R195; spec/15 R347, R349, R353 to R358; spec/19 R423): a core's own instructions, its
loads and stores, its mark, emission and end, the end of a quantum, the end of a save, and O44. -/

namespace Sys2Proof.Machine

/-! ## A core's own instructions (R193, R195) -/

section
variable {s : State} {g : Fin 128} (hruns : (s.cluster g).runs = true)
include hruns

theorem execStewardInstruction_plain (sets : List CoreSet) (target : Option Nat) (rvc : Bool) :
    execStewardInstruction g (.plain sets target rvc) s = .next (s.rvStep g (.plain sets target rvc)) := by
  simp only [execStewardInstruction, hruns, Bool.not_true, Bool.false_eq_true, if_false]

section
variable {n : Nat} (rd : Fin 32) (op : Fin 3) (v : Nat)

theorem execStewardInstruction_csr_written (hallowed : csrAllowed (s.cluster g).core.mode n true = true) :
    execStewardInstruction g (.csr rd n op v true) s = .next ((s.modCl g fun c =>
      ({ c with core := c.core.csrWrite n (csrNew op (s.csrRead g n) v % 2 ^ 64) } : Cluster).retireWith rd (s.csrRead g n)).used) := by
  simp only [execStewardInstruction, hruns, Bool.not_true, Bool.false_eq_true, if_false, State.rvStep, hallowed, if_true]

theorem execStewardInstruction_csr_refused {write : Bool} (hrefused : csrAllowed (s.cluster g).core.mode n write = false) :
    execStewardInstruction g (.csr rd n op v write) s = .next (s.illegal g) := by
  simp only [execStewardInstruction, hruns, Bool.not_true, Bool.false_eq_true, if_false, State.rvStep, hrefused]

end

end

/-! ## Loads and stores (R193, R194, R269, R423) -/

theorem State.loadPieces_good {s : State} {g : Fin 128} {a n : Nat} (hst : s.accessSt (.steward g) false a n = St.ok)
    (hgood : s.firstBad a n = none) : s.loadPieces g [(a, n)] = (s.used, [s.bytesAt a n], none) := by
  have hread : s.checkRead (.steward (Fin.ofNat 128 g)) (some g.val) a n = (St.ok, s.used) := by
    rw [Fin.ofNat_val_eq_self]
    exact State.checkRead_good _ hst hgood
  simp only [State.loadPieces, hread, if_true, State.used_bytesAt]

theorem State.storePieces_aligned {s : State} {g : Fin 128} {a : Nat} {b : Bytes} (ha : a % 8 = 0) (hb : b.length % 8 = 0)
    (hst : s.accessSt (.steward g) true a b.length = St.ok) : s.storePieces g [(a, b)] = (s.store a b, none) := by
  have hst' : s.accessSt (.steward (Fin.ofNat 128 g)) true a b.length = St.ok := by rwa [Fin.ofNat_val_eq_self]
  simp only [State.storePieces, State.storePiece, hst', if_true, State.storeMerge_of_aligned s _ ha hb]

section
variable {s : State} {g : Fin 128} {a : Nat} (hruns : (s.cluster g).runs = true)
include hruns

section
variable {n : Nat} {d : LoadDest} (hdata : d ≠ .fetch)
include hdata

theorem execStewardLoad_misaligned (k : LoadKind) (hoff : misaligned (d == .fetch) (a, n) = true) :
    execStewardLoad g [(a, n)] d k s = .next (s.modCl g fun c => c.trap 4 a none) := by
  have hload : (d == .fetch) = false := beq_eq_false_iff_ne.mpr hdata
  rw [hload] at hoff
  simp only [execStewardLoad, hruns, hload, List.find?_cons_of_pos hoff, Bool.not_true, Bool.false_eq_true, if_false]

theorem execStewardLoad_good (rvc : Bool) (hin : misaligned (d == .fetch) (a, n) = false)
    (hst : s.accessSt (.steward g) false a n = St.ok) (hgood : s.firstBad a n = none) :
    execStewardLoad g [(a, n)] d (.plain rvc) s = .next (s.used.modCl g fun c =>
      ({ c with core := c.core.loaded d [s.bytesAt a n] } : Cluster).retireBy (if rvc then 2 else 4)) := by
  have hload : (d == .fetch) = false := beq_eq_false_iff_ne.mpr hdata
  have hfind : [(a, n)].find? (fun p => misaligned false p) = none := by simp [hload ▸ hin]
  simp only [execStewardLoad, hruns, hload, hfind, Bool.not_true, Bool.false_eq_true, if_false, State.loadPieces_good hst hgood]

end

section
variable {b : Bytes} (hin : misaligned false (a, b.length) = false)
include hin

theorem execStewardStore_good (rvc : Bool) (ha : a % 8 = 0) (hb : b.length % 8 = 0)
    (hst : s.accessSt (.steward g) true a b.length = St.ok) :
    execStewardStore g [(a, b)] (.plain rvc) s = .next ((s.store a b).modCl g fun c =>
      ({ c with core := { c.core with reservation := (s.cluster g).core.reservation } } : Cluster).retireBy
        (if rvc then 2 else 4)) := by
  have hfind : [(a, b)].find? (fun p => misaligned false (p.1, p.2.length)) = none := by simp [hin]
  simp only [execStewardStore, hruns, hfind, Bool.not_true, Bool.false_eq_true, if_false, State.storePieces_aligned ha hb hst]

/-- A store-conditional without a reservation that covers it stores nothing and returns 1. -/
theorem execStewardStore_sc_fails (rd : Fin 32) (hheld : (s.cluster g).reserves g a b.length = false) :
    execStewardStore g [(a, b)] (.sc rd) s = .next
      ((s.modCl g fun c => { c with core := { c.core with reservation := none } }).modCl g fun c => c.retireWith rd 1) := by
  have hfind : [(a, b)].find? (fun p => misaligned false (p.1, p.2.length)) = none := by simp [hin]
  simp only [execStewardStore, hruns, hfind, Bool.not_true, Bool.false_eq_true, if_false, List.all_cons, hheld, Bool.false_and]

end

end

/-! ## Marks, emissions and ends (R349, R353, R354) -/

section
variable {s : State} {g : Fin 128} {p : Nat} {x : Partition} {t : Task} (hpart : s.sched.partOf g = some (p, x))
  (htask : x.run = some t) (hruns : (s.cluster g).runs = true) (hopen : g.val ∉ t.ended)
include hpart htask hruns hopen

theorem execStepMark_arrives (d : StepData) : execStepMark ⟨g, 0, 0, 0, 0⟩ d s = .next (((s.modTask g fun t =>
    { t with arrived := if t.arrived.contains g.val then t.arrived else t.arrived ++ [g.val] }).stall g .step).barrier p d) := by
  have hleft : t.ended.contains g.val = false := by simpa using hopen
  exact next_xlz_executes hruns (by simp) (by simp only [hpart, htask, hleft, Bool.not_false, if_true])

theorem execTaskEnd_ends (d : StepData) : execTaskEnd g St.ok d s = .next
    (((s.modTask g fun t => { t with ended := t.ended ++ [g.val] }).modCl g fun c => { c.stop with halt := true }).barrier p d) := by
  have hleft : t.ended.contains g.val = false := by simpa using hopen
  simp only [execTaskEnd, hpart, htask, hleft, hruns, Bool.false_eq_true, if_false, if_true, ne_eq, not_true_eq_false]

theorem execTaskEnd_fails {code : Nat} (d : StepData) (hcode : code ≠ St.ok) : execTaskEnd g code d s = .next (s.endTask p code) := by
  have hleft : t.ended.contains g.val = false := by simpa using hopen
  simp only [execTaskEnd, hpart, htask, hleft, hruns, Bool.false_eq_true, if_false, if_true, hcode, ne_eq, not_false_eq_true]

end

theorem execRunEmit_holds {s : State} {g : Fin 128} {a n : Nat} (hruns : (s.cluster g).runs = true)
    (htask : (s.taskOf g).isSome = true) (hst : s.accessSt (.steward g) false a n = St.ok) (hgood : s.firstBad a n = none) :
    execRunEmit g a n s = .next
      ((s.used.modTask g fun t => { t with emitted := t.emitted ++ [s.bytesAt a n] }).modCl g fun c => c.retire) := by
  simp only [execRunEmit, hruns, htask, Bool.and_self, if_true, State.checkRead_good (some g.val) hst hgood, State.used_bytesAt]

/-! ## Pre-emption (R347, R355 to R358) -/

section
variable {s : State} {p : Nat} {x : Partition} (hpart : s.part? p = some x)
include hpart

theorem State.part?_modPart (f : Partition → Partition) : (s.modPart p f).part? p = some (f x) := by
  have hfind : Tab.find s.sched.parts p = some x := hpart
  simp only [State.part?, State.modPart, State.modSched_sched, hfind, Tab.find_put, if_true]

/-- What a change makes of the partition there is all that matters of it. -/
theorem State.modPart_congr {f k : Partition → Partition} (h : f x = k x) : s.modPart p f = s.modPart p k := by
  have hfind : Tab.find s.sched.parts p = some x := hpart
  simp only [State.modPart, State.modSched, hfind, h]

end

theorem execQuantumExpiry_preempts {s : State} {p : Fin 128} {x : Partition} {k : Nat} (hpart : s.part? p = some x)
    (hrun : x.run.isSome = true) (hswitch : x.switch = none) (hdue : x.quantumFrom + x.quantum ≤ s.hdCount)
    (hchoice : ({ x.charge s.hdCount with quantumFrom := s.hdCount } : Partition).choose = some k) (hother : k ≠ x.runQueue) :
    execQuantumExpiry p s = .next
      ((s.modPart p fun x => { x.charge s.hdCount with quantumFrom := s.hdCount }).preempt p) := by
  simp only [execQuantumExpiry, hpart, hrun, hswitch, hdue, Option.isNone_none, decide_true, Bool.and_self, if_true,
    State.part?_modPart hpart, Option.bind_some, hchoice, hother, if_false]

/-- Laying down the save areas and emptying the clusters leaves the scheduler as it was. -/
theorem vacated_sched (tag step : Nat) (saves : List (Nat × Save)) (addrs gs : List Nat) (s : State) :
    (forClusters (fun g s => s.modCl g Cluster.vacate) gs (writeAreas tag step saves addrs s)).sched = s.sched :=
  (forClusters_runs (W := [.memory, .free, .cl]) (writeAreas_runs (by decide) (by decide) (Runs.refl _ s) tag step saves addrs) gs
    fun g _ h => State.modCl_runs (by decide) h g _).frame.sched.resolve_left (by decide)

/-- A partition whose running task has been saved: the task, with its saved state, at the front of its queue `k`, and none that runs. -/
def Partition.setAside (k since total : Nat) (t : Task) (x : Partition) : Partition :=
  let y := x.charge since
  let y := y.setQueue k { y.queue k with tasks := t :: (y.queue k).tasks }
  { y with run := none, switch := none, savedOut := some total, preemptions := satAdd (2 ^ 64 - 1) y.preemptions 1 }

/-- A save that no task has followed is a switch by itself (R358): `clusters`, on how many it was made. -/
def Partition.countSwitch (clusters : Nat) (x : Partition) : Partition :=
  match x.savedOut with
  | some n => { x with savedOut := none, switchUs := satAdd (2 ^ 64 - 1) x.switchUs (20 + moveUs n clusters)
                       switchBytes := satAdd (2 ^ 64 - 1) x.switchBytes n }
  | none => x

section
variable {s : State} {p : Fin 128} {x : Partition} {t : Task} {w : Switch} (hpart : s.part? p = some x) (htask : x.run = some t)
  (hswitch : x.switch = some w)
include hpart htask hswitch

theorem execSaveComplete_noRoom (hnew : t.saveAreas = [])
    (hfull : s.fits 3 (s.saveBytes (s.clustersOf x.mask) t.wsMask).sum = false) :
    execSaveComplete p [] true s = .next (s.preemptWaits p (s.clustersOf x.mask)) := by
  simp [execSaveComplete, hpart, htask, hswitch, hnew, hfull]

/-- A save into places that the task has already: it stands saved at the front of its queue, and the next task is dispatched. -/
theorem execSaveComplete_saves {u : State} {gs : List Nat} {total : Nat} {saves : Tab Save} (addrs : List Nat) (giveUp : Bool)
    (hplaces : t.saveAreas ≠ []) (hgs : gs = s.clustersOf x.mask) (htotal : total = (s.saveBytes gs t.wsMask).sum)
    (hsaves : saves = gs.map fun g => (g, s.saveCluster g t.wsMask))
    (hu : u = forClusters (fun g s => s.modCl g Cluster.vacate) gs (writeAreas t.tag t.stepNo saves t.saveAreas s)) :
    execSaveComplete p addrs giveUp s = .next (((u.modPart p
      (Partition.setAside x.runQueue w.since total { t with saved := saves, isSaved := true, saveSize := total })).dispatchPoint p).modPart p
        (Partition.countSwitch gs.length)) := by
  subst hu hsaves htotal hgs
  simp only [execSaveComplete, hpart, htask, hswitch, hplaces, ne_eq, not_false_eq_true, decide_true, Bool.true_or, Bool.not_true,
    Bool.false_eq_true, if_false, if_true]
  rfl

end

/-- Settles O44, command by command. -/
theorem programsStepEmitAndEnd : Obligations.ProgramsStepEmitAndEnd := by
  refine ⟨?jump, ?plain, ?csr, ?csrRefused, ?load, ?loadMisaligned, ?store, ?scFails, ?mark, ?emit, ?ends, ?fails, ?quantum, ?noRoom,
    ?saves⟩
  case jump => exact fun s g sets target rvc hruns => execStewardInstruction_plain hruns sets (some target) rvc
  case plain => exact fun s g sets rvc hruns => execStewardInstruction_plain hruns sets none rvc
  case csr => exact fun s g rd n op v hruns hallowed => execStewardInstruction_csr_written hruns rd op v hallowed
  case csrRefused => exact fun s g rd n op v write hruns hrefused => execStewardInstruction_csr_refused hruns rd op v hrefused
  case load => exact fun s g a n d rvc hruns hin hdata hst hgood => execStewardLoad_good hruns hdata rvc hin hst hgood
  case loadMisaligned => exact fun s g a n d k hruns hoff hdata => execStewardLoad_misaligned hruns hdata k hoff
  case store => exact fun s g a b rvc hruns hin ha hb hst => execStewardStore_good hruns hin rvc ha hb hst
  case scFails => exact fun s g a b rd hruns hin hheld => execStewardStore_sc_fails hruns hin rd hheld
  case mark => exact fun s g d p x t hpart htask hruns hopen => execStepMark_arrives hpart htask hruns hopen d
  case emit => exact fun s g a n hruns htask hst hgood => execRunEmit_holds hruns htask hst hgood
  case ends => exact fun s g d p x t hpart htask hruns hopen => execTaskEnd_ends hpart htask hruns hopen d
  case fails => exact fun s g code d p x t hpart htask hruns hopen hcode => execTaskEnd_fails hpart htask hruns hopen d hcode
  case quantum => exact fun s p x k hpart hrun hswitch hdue hchoice hother =>
    execQuantumExpiry_preempts hpart hrun hswitch hdue hchoice hother
  case noRoom => exact fun s p x t w hpart htask hswitch hnew hfull => execSaveComplete_noRoom hpart htask hswitch hnew hfull
  case saves =>
    intro s u p addrs giveUp x t w gs total saves hpart htask hswitch hplaces hgs htotal hsaves hu
    have hpartu : u.part? p = some x := by rw [hu, State.part?, vacated_sched]; exact hpart
    rw [exec_saveComplete, execSaveComplete_saves hpart htask hswitch addrs giveUp hplaces hgs htotal hsaves hu]
    exact congrArg (fun v : State => (.next ((v.dispatchPoint p).modPart p (Partition.countSwitch gs.length)) : Out))
      (State.modPart_congr hpartu rfl)

end Sys2Proof.Machine
end

section
/-! Cluster control and scratchpad registers (spec/08 R203, R204; spec/09 R234; spec/11 R257, R264, R267, R270, R276): what each makes of
its cluster, and O46. -/

namespace Sys2Proof.Machine

/-! ## Halting and resetting a core (R203, R204) -/

section
variable {s : State} {g : Fin 128}

theorem execClCoreReset_held (h : (s.cluster g).enable = false ∨ (s.cluster g).halted = true) :
    execClCoreReset g s = .next (s.modCl g Cluster.coreReset) := by
  have hheld : ¬ ((s.cluster g).enable && !(s.cluster g).halted) = true := by rcases h with h | h <;> simp [h]
  exact congrArg Host.Outcome.next (State.modCl_congr (if_neg hheld))

theorem execClEnable_on (hlost : s.clusterLost g = false) (hpart : (s.sched.partOf g).isSome = true) :
    execClEnable g true s = .next (s.modCl g fun c => { c with enable := true }.go) := by
  have hin : (s.sched.partOf g).isNone = false := Option.isNone_eq_false_iff.mpr hpart
  simp only [execClEnable, hlost, hin, Bool.or_self, Bool.false_eq_true, if_false, if_true]

theorem execClEnable_lost (hlost : s.clusterLost g = true) : execClEnable g true s = .next s := by
  simp only [execClEnable, hlost, Bool.true_or, if_true]

/-! ## Slot flags (R263, R264, R267, R276) -/

theorem execSlotReset_halted (hhalted : (s.cluster g).halted = true) :
    execSlotReset g s = .next (s.modCl g fun c => { c with slots := [] }) :=
  congrArg Host.Outcome.next (State.modCl_congr (if_pos hhalted))

theorem execSlotWindowWrite_halted (i : Fin 4096) (v : Nat) (hhalted : (s.cluster g).halted = true) :
    execSlotWindowWrite g i v s = .next (s.modCl g fun c => c.setSlot i (bit v 8) (v % 256)) :=
  congrArg Host.Outcome.next (State.modCl_congr (if_pos hhalted))

section
variable {m : RemoteSlot} {n : Nat} (hremote : (s.cluster g).remote = some m) (hgive : m.give = some n)
include hremote hgive

theorem execRemoteSlotArrival_given (hempty : (s.cluster m.dest).slotFull m.slot = false) :
    execRemoteSlotArrival g s = .next ((s.modCl m.dest fun c => c.setSlot m.slot true n).modCl g fun c =>
      { c with remote := none, waiting := none, core := { c.core with pc := c.core.pc + 4, instret := c.core.instret + 1 } }) := by
  simp only [execRemoteSlotArrival, hremote, hgive, hempty, Bool.false_eq_true, if_false]

theorem execRemoteSlotArrival_waits (hfull : (s.cluster m.dest).slotFull m.slot = true) :
    execRemoteSlotArrival g s = .next (s.modCl g fun c => { c with waiting := some (.slotGive m.dest m.slot) }) := by
  simp only [execRemoteSlotArrival, hremote, hgive, hfull, if_true]

end

/-- A checked read that reaches the limit is an underrun (R264). -/
theorem execSlotWaitTimeout_underrun {i : Nat} (hwaiting : (s.cluster g).waiting = some (.slotRead i))
    (hempty : (s.cluster g).slotFull i = false) :
    execSlotWaitTimeout g none s = .next ((s.modCl g (Cluster.slotLimitHit true)).xlzOperand g St.slotUnderrun) := by
  simp only [execSlotWaitTimeout, hwaiting, hempty, Bool.false_eq_true, if_false]

/-! ## RESIDENT regions (R261, R270, R276) -/

theorem execSpResidentWrite_on {b : Fin 24} (v : Nat) (l : List Nat) (hon : (s.cluster g).bank b = .on) :
    execSpResidentWrite g b ⟨v, l⟩ s = .next (s.modCl g fun c => { c with
      resident := Tab.set 0 c.resident b (v % 65536), copies := recordCopies b v l c.copies
      reloads := c.reloads.filter fun k => k / 16 ≠ b.val || bit v (k % 16) }) :=
  congrArg Host.Outcome.next (State.modCl_congr (if_pos hon))

theorem execSpResidentWrite_ignored {b : Fin 24} (m : ResidentMark) (hoff : (s.cluster g).bank b ≠ .on) :
    execSpResidentWrite g b m s = .next (s.modCl g fun c => c) :=
  congrArg Host.Outcome.next (State.modCl_congr (if_neg hoff))

theorem execResidentReloadDone_due {b : Fin 24} {r : Fin 16} (lost : List Nat) (ok : Bool)
    (hdue : (s.cluster g).reloads.contains (b.val * 16 + r.val) = true) :
    execResidentReloadDone g b r lost ok s = .next
      ((s.modCl g fun c => { c with reloads := c.reloads.filter (· ≠ b.val * 16 + r.val) }).reloaded g b
        (spAddr g ((b.val * 16 + r.val) * 65536)) (if ok then s.reloadData g (b.val * 16 + r.val) lost else none)) := by
  simp only [execResidentReloadDone, hdue, Bool.not_true, Bool.false_eq_true, if_false]

end

@[simp] theorem State.store_sched (s : State) (a : Nat) (b : Bytes) : (s.store a b).sched = s.sched :=
  (State.store_runs (W := [.memory, .cl]) (by decide) (by decide) (Runs.refl _ s) a b).frame.sched.resolve_left (by decide)

/-- Where no task runs, a reload whose copy can be read writes it and nothing more. -/
theorem State.reloaded_idle {s : State} {g : Nat} (b : Fin 24) (a : Nat) (d : Bytes) (hidle : s.taskOf g = none) :
    s.reloaded g b a (some d) = s.store a d := by
  have hstored : (s.store a d).taskOf g = none := by rw [State.taskOf, State.store_sched]; exact hidle
  simp only [State.reloaded, hstored]

/-- A copy that is recorded in HBM and can be read there is what a reload writes. -/
theorem State.reloadData_hbm {s : State} {g k a : Nat} (lost : List Nat) (hcopy : Tab.get 0 (s.cluster g).copies k = a)
    (hhbm : bit a 63 = false) (hst : s.accessSt .keeper false a 65536 = St.ok) (hgood : s.firstBad a 65536 = none) :
    s.reloadData g k lost = some (s.bytesAt a 65536) := by
  simp only [State.reloadData, State.copyAt, hcopy, hhbm, hst, hgood, Bool.false_eq_true, if_false, and_self, if_true]

/-- Settles O46, register by register. -/
theorem clusterControlActs : Obligations.ClusterControlActs := by
  refine ⟨fun _ _ => rfl, fun s g h => execClCoreReset_held h, fun _ _ => ⟨rfl, rfl⟩, ?enable, fun _ _ => rfl, fun _ _ => rfl,
    fun _ _ => rfl, fun s g h => execSlotReset_halted h, fun _ _ _ => rfl, fun s g i v h => execSlotWindowWrite_halted i v h,
    ?marks, ?unmarked, ?reload, ?restores, ?copy, ?gives, ?waits, ?underrun⟩
  case enable => exact fun s g => ⟨rfl, execClEnable_on, execClEnable_lost⟩
  case marks => exact fun s g b v l h => execSpResidentWrite_on v l h
  case unmarked => exact fun s g b v l h => execSpResidentWrite_ignored ⟨v, l⟩ h
  case reload => exact fun s g b r lost ok h => execResidentReloadDone_due lost ok h
  case restores => exact fun s g b a d h => State.reloaded_idle b a d h
  case copy => exact fun s g k a lost hcopy hhbm hst hgood => State.reloadData_hbm lost hcopy hhbm hst hgood
  case gives => exact fun s g m n hremote hgive h => execRemoteSlotArrival_given hremote hgive h
  case waits => exact fun s g m n hremote hgive h => execRemoteSlotArrival_waits hremote hgive h
  case underrun => exact fun s g i hwaiting h => execSlotWaitTimeout_underrun hwaiting h

end Sys2Proof.Machine
end

section
/-! Number formats (spec/09 R205, R206): a code as its sign, exponent and mantissa, what each code stands for, how a value on a format's
grid encodes, and O59. -/

namespace Sys2Proof.Machine

/-! ## Values on the grid -/

theorem bitLen_le_iff {n k : Nat} : bitLen n ≤ k ↔ n < 2 ^ k := by
  unfold bitLen
  split
  case isTrue h => simp [h]
  case isFalse h => exact Nat.log2_lt h

/-- A value whose last place is the format's unit is rounded to itself. -/
theorem Fmt.grid_of_unit {f : Fmt} {m : Nat} {e : Int} (h : f.unit m e = e) : f.grid m e = (m, e) := by
  simp only [Fmt.grid, h, le_refl, if_true, Int.sub_self, Int.toNat_zero, pow_zero, Nat.mul_one]

/-- A mantissa of no more than the precision, at the spacing of the subnormals, is in the format's unit. -/
theorem Fmt.unit_subnormal {f : Fmt} {m : Nat} (h : m < 2 ^ f.prec) :
    f.unit m (f.emin - f.prec + 1) = f.emin - f.prec + 1 := by
  have hlen : bitLen m ≤ f.prec := bitLen_le_iff.mpr h
  unfold Fmt.unit
  omega

/-- A mantissa of full precision is in the format's unit, from the smallest normal upward. -/
theorem Fmt.unit_normal {f : Fmt} {m : Nat} {e : Int} (hlo : 2 ^ (f.prec - 1) ≤ m) (hhi : m < 2 ^ f.prec)
    (he : f.emin - f.prec + 1 ≤ e) : f.unit m e = e := by
  have hle : bitLen m ≤ f.prec := bitLen_le_iff.mpr hhi
  have hge : ¬bitLen m ≤ f.prec - 1 := fun h => hlo.not_gt (bitLen_le_iff.mp h)
  unfold Fmt.unit
  omega

/-! ## Codes (R205) -/

theorem b2n_decide_eq_one {n : Nat} (h : n < 2) : b2n (decide (n = 1)) = n := by
  interval_cases n <;> rfl

/-- The code of sign `s`, exponent field `ex` and mantissa field `man`, from the most significant bit (R205). -/
def Fmt.code (f : Fmt) (s : Bool) (ex man : Nat) : Nat :=
  b2n s * 2 ^ (f.expBits + f.prec - 1) + ex * 2 ^ (f.prec - 1) + man

theorem Fmt.encode_inf (f : Fmt) (s : Bool) : f.encode (.inf s) = f.code s (2 ^ f.expBits - 1) 0 := rfl

theorem Fmt.encode_subnormal {f : Fmt} {man : Nat} (s : Bool) (hman : man < 2 ^ (f.prec - 1)) :
    f.encode (.fin s man (f.emin - f.prec + 1)) = f.code s 0 man := by
  have hprec : man < 2 ^ f.prec := hman.trans_le (Nat.pow_le_pow_right (by decide) (Nat.sub_le _ _))
  simp only [Fmt.encode, Fmt.grid_of_unit (Fmt.unit_subnormal hprec), hman, if_true, Fmt.code, Nat.zero_mul, Nat.add_zero]

/-- What ties a format's fields to its values: a precision, and the exponent field 1 for the smallest normal (R205). -/
structure Fmt.Biased (f : Fmt) : Prop where
  prec_pos : 0 < f.prec
  bias_eq : f.bias = 1 - f.emin

section
variable {f : Fmt} (hf : f.Biased)
include hf

theorem Fmt.Biased.sign_weight : 2 ^ (f.expBits + f.prec - 1) = 2 ^ f.expBits * 2 ^ (f.prec - 1) := by
  rw [Nat.add_sub_assoc hf.prec_pos, pow_add]

theorem Fmt.Biased.two_pow_prec : 2 ^ f.prec = 2 * 2 ^ (f.prec - 1) := by
  rw [← pow_succ', Nat.sub_one_add_one hf.prec_pos.ne']

theorem Fmt.Biased.code_eq (s : Bool) (ex man : Nat) :
    f.code s ex man = (b2n s * 2 ^ f.expBits + ex) * 2 ^ (f.prec - 1) + man := by
  rw [Fmt.code, hf.sign_weight, Nat.add_mul, Nat.mul_assoc]

/-- Every code is that of its three fields. -/
theorem Fmt.Biased.exists_code {c : Nat} (hc : c < 2 ^ f.width) :
    ∃ s ex man, ex < 2 ^ f.expBits ∧ man < 2 ^ (f.prec - 1) ∧ c = f.code s ex man := by
  have hupper : c / 2 ^ (f.prec - 1) / 2 ^ f.expBits < 2 := by
    rw [Nat.div_div_eq_div_mul, Nat.div_lt_iff_lt_mul (by positivity), Nat.mul_comm (2 ^ (f.prec - 1)), Nat.mul_left_comm,
      ← hf.two_pow_prec, ← pow_add]
    exact hc
  refine ⟨decide (c / 2 ^ (f.prec - 1) / 2 ^ f.expBits = 1), c / 2 ^ (f.prec - 1) % 2 ^ f.expBits, c % 2 ^ (f.prec - 1),
    Nat.mod_lt _ (by positivity), Nat.mod_lt _ (by positivity), ?_⟩
  rw [hf.code_eq, b2n_decide_eq_one hupper, Nat.div_add_mod', Nat.div_add_mod']

section
variable {s : Bool} {ex man : Nat} (hman : man < 2 ^ (f.prec - 1))
include hman

theorem Fmt.Biased.code_mod : f.code s ex man % 2 ^ (f.prec - 1) = man := by
  rw [hf.code_eq, Nat.mul_add_mod_self_right, Nat.mod_eq_of_lt hman]

theorem Fmt.Biased.code_div : f.code s ex man / 2 ^ (f.prec - 1) = b2n s * 2 ^ f.expBits + ex := by
  rw [hf.code_eq, Nat.mul_comm, Nat.mul_add_div (by positivity), Nat.div_eq_of_lt hman, Nat.add_zero]

theorem Fmt.Biased.decode_code (hex : ex < 2 ^ f.expBits) : f.decode (f.code s ex man) =
    if f.hasInf && ex == 2 ^ f.expBits - 1 then (if man = 0 then .inf s else .nan)
    else if (!f.hasInf) && f.hasNan && ex == 2 ^ f.expBits - 1 && man == 2 ^ (f.prec - 1) - 1 then .nan
    else if ex = 0 then .fin s man (f.emin - f.prec + 1)
    else .fin s (man + 2 ^ (f.prec - 1)) (ex - f.bias - f.prec + 1) := by
  have hexField : (b2n s * 2 ^ f.expBits + ex) % 2 ^ f.expBits = ex := by
    rw [Nat.mul_add_mod_self_right, Nat.mod_eq_of_lt hex]
  have hsign : (f.code s ex man / 2 ^ (f.expBits + f.prec - 1) % 2 == 1) = s := by
    rw [hf.sign_weight, Nat.mul_comm, ← Nat.div_div_eq_div_mul, hf.code_div hman, Nat.mul_comm,
      Nat.mul_add_div (by positivity), Nat.div_eq_of_lt hex]
    cases s <;> rfl
  simp only [Fmt.decode, hf.code_mod hman, hf.code_div hman, hexField, hsign]

theorem Fmt.Biased.encode_normal (hex : ex ≠ 0) :
    f.encode (.fin s (man + 2 ^ (f.prec - 1)) (ex - f.bias - f.prec + 1)) = f.code s ex man := by
  have hlo : 2 ^ (f.prec - 1) ≤ man + 2 ^ (f.prec - 1) := Nat.le_add_left _ _
  have hhi : man + 2 ^ (f.prec - 1) < 2 ^ f.prec := by rw [hf.two_pow_prec]; omega
  have hunit : f.emin - f.prec + 1 ≤ ex - f.bias - f.prec + 1 := by rw [hf.bias_eq]; omega
  have hfield : ((ex : Int) - f.bias - f.prec + 1 + f.prec - 1 + f.bias).toNat = ex := by omega
  simp only [Fmt.encode, Fmt.grid_of_unit (Fmt.unit_normal hlo hhi hunit), hlo.not_gt, hhi.ne, if_false, hfield,
    Nat.add_sub_cancel, Fmt.code]

end

/-- A code that is no NaN's is what its value encodes to, by the branches of the decoding: infinity, subnormal or zero, normal. -/
theorem Fmt.Biased.encode_decode {c : Nat} (hc : c < 2 ^ f.width) (hnan : f.decode c ≠ .nan) : f.encode (f.decode c) = c := by
  obtain ⟨s, ex, man, hex, hman, rfl⟩ := hf.exists_code hc
  rw [hf.decode_code hman hex] at hnan ⊢
  split at hnan
  case isTrue hinf =>
    obtain ⟨-, htop⟩ := Bool.and_eq_true_iff.mp hinf
    have hzero : man = 0 := by_contra fun h => hnan (if_neg h)
    rw [if_pos hinf, if_pos hzero, Fmt.encode_inf, hzero, beq_iff_eq.mp htop]
  case isFalse hfinite =>
    have hnumber := mt (fun h => if_pos h) hnan
    rw [if_neg hfinite, if_neg hnumber]
    split
    case isTrue hsub => rw [hsub, Fmt.encode_subnormal s hman]
    case isFalse hnormal => exact hf.encode_normal hman hnormal

end

/-- Settles O59: every format of the list has the bias that its smallest normal calls for. -/
theorem numberFormatsRoundTrip : Obligations.NumberFormatsRoundTrip := by
  intro f hf c hc hnan
  have hbiased : f.Biased := by
    simp only [List.mem_cons, List.not_mem_nil, or_false] at hf
    obtain rfl | rfl | rfl | rfl | rfl | rfl | rfl | rfl | rfl := hf
    all_goals exact ⟨by decide, by decide⟩
  exact hbiased.encode_decode hc hnan

end Sys2Proof.Machine
end

section
/-! Fused chains (spec/10 R235, R244, R249, R253): the answer of chain.go, the writes of a chain that has run, the posting of its completion
slot, and O43. -/

namespace Sys2Proof.Machine

/-! ## Issue (R197, R235, R249) -/

/-- No access check depends on the counter of free values. -/
@[simp] theorem State.used_accessSt (s : State) (r : Requester) (write : Bool) (a n : Nat) :
    s.used.accessSt r write a n = s.accessSt r write a n := rfl

@[simp] theorem State.length_bytesAt (s : State) (a n : Nat) : (s.bytesAt a n).length = n := by
  induction n generalizing a with
  | zero => rfl
  | succ n ih => exact congrArg (· + 1) (ih (a + 1))

section
variable {s : State} {g : Fin 128} {r w : Fin 32} {a v : Nat} {d : Bytes} (hruns : (s.cluster g).runs = true)
  (hasync : (s.cluster g).async = none) (ha : (s.cluster g).core.reg r = a) (hv : (s.cluster g).core.reg w = v)
  (hd : s.bytesAt a (32 + 32 * min (fieldAt (s.bytesAt a 32) 0 1) 8) = d) (hdesc : s.descCheck g a = none)
  (hslot : slotChecks s g v true = none) (hst : s.accessSt (.steward g) false a d.length = St.ok)
  (hheadSt : s.accessSt (.steward g) false a 32 = St.ok) (hhead : s.firstBad a 32 = none) (hgood : s.used.firstBad a d.length = none)
include hruns hasync ha hv hd hdesc hslot hst hheadSt hhead hgood

/-- A chain.go that can read its descriptor answers by the checks of R249, and stalls while 8 operations are queued. -/
theorem execChainGo_fetched (rd : Fin 32) : execChainGo g 0 rd r w s = .next (
    if chainCheck s.used.used g d ≠ St.ok then s.used.used.modCl g fun c => c.retireWith rd (chainCheck s.used.used g d)
    else if !staticsOk d (s.used.used.chainStatics g d) then s.used.used.stepEnds g St.unsupported
    else if 8 ≤ ((s.cluster g).gangAt ((s.cluster g).lead (chUnit d))).queue.length then s.used.used.stall g .queueFull
    else s.used.used.modCl g fun c =>
      let x := c.gangAt ((s.cluster g).lead (chUnit d))
      (c.setGang ((s.cluster g).lead (chUnit d)) { x with queue := x.queue ++
        [.chain { desc := d, slot := bits v 0 12, pc := c.core.pc, statics := s.used.used.chainStatics g d
                  spans := chainSpans g c d }] }).retireWith rd St.ok) := by
  have hlength : 32 + 32 * min (fieldAt (s.bytesAt a 32) 0 1) 8 = d.length := by rw [← hd, State.length_bytesAt]
  have hbytes : s.used.bytesAt a d.length = d := by rw [State.used_bytesAt, ← hlength, hd]
  have hfetch := State.fetchDesc_good (some g.val) ((State.used_accessSt s _ _ _ _).trans hst) hgood
  rw [hbytes] at hfetch
  refine next_xlz_tile hruns (by decide) hasync ?_
  simp only [ha, hv, hdesc, hslot, Option.orElse_none, State.fetchDesc_good (some g.val) hheadSt hhead, hlength, hfetch, ne_eq,
    not_true_eq_false, or_self, if_false]

end

/-! ## The writes of a chain that has run (R235, R244) -/

theorem State.chainRun_of_ran {k : Chain} (s : State) (g u : Nat) (hran : k.ran = true) : s.chainRun g u k = s := if_pos hran

theorem State.chainWrite_store {s v : State} {g a : Nat} {taint : Bool} {b : Bytes} (l : List ChainPart)
    (hwrite : s.used.writeRange (.mover (Fin.ofNat 128 g)) false a (s.chainBytes taint b) = (St.ok, v)) :
    s.chainWrite g taint (.store a b :: l) = v.chainWrite g taint l := by
  simp only [State.chainWrite, hwrite, if_true]

theorem State.chainAdvance_written {s v : State} {g : Nat} {k : Chain} {l : List ChainPart} (u : Nat)
    (hwrite : s.chainWrite g k.tainted k.parts = (St.ok, l, v)) :
    s.chainAdvance g u k = v.modCl g fun c => c.setChain u { k with parts := l } := by
  simp only [State.chainAdvance, hwrite, ne_eq, not_true_eq_false, if_false]

/-- A block whose rows can be written goes to its slot when that is EMPTY; while it is FULL the chain keeps the block. -/
theorem State.sendLocal_written {s v : State} {g : Nat} {k : Chain} {b : ChainSend} {p : List ChainPart} (u : Nat) (l : List ChainPart)
    (hwrite : s.chainWrite g k.tainted (b.rows.map fun r => .store (spAddr b.cluster r.1) r.2) = (St.ok, p, v)) :
    s.sendLocal g u k b l = if (v.cluster b.cluster).slotFull b.slot then v.modCl g fun c => c.setChain u k
      else (v.modCl b.cluster fun c => c.setSlot b.slot true b.count).chainAdvance g u { k with parts := l } := by
  simp only [State.sendLocal, hwrite, ne_eq, not_true_eq_false, if_false]

section
variable {s : State} {g : Fin 128} {u : Fin 4} {k k' : Chain} (hchain : (s.cluster g).chainAt u = some k) (hran : k.ran = true)
  (hleft : ((s.chainAdvance g u k).cluster g).chainAt u = some k')
include hchain hran hleft

theorem execChainComplete_posts (hdone : k'.parts = []) :
    execChainComplete g u s = .next (((s.chainAdvance g u k).chainScratch g k').modCl g fun c =>
      (c.setGang (c.lead u) { c.gangAt (c.lead u) with active := [] }).postSlot k'.slot) := by
  simp only [execChainComplete, hchain, State.chainRun_of_ran s g u hran, hleft, hdone, List.isEmpty_nil, if_true]

theorem execChainBlockSend_local {b : ChainSend} {l : List ChainPart} (hparts : k'.parts = .send b :: l) (hspan : b.span = none) :
    execChainBlockSend g u s = .next ((s.chainAdvance g u k).sendLocal g u k' b l) := by
  simp only [execChainBlockSend, hchain, State.chainRun_of_ran s g u hran, hleft, hparts, hspan]

end

/-- Settles O43: issue by the checks of R249, then part by part. -/
theorem chainsRunToTheirSlot : Obligations.ChainsRunToTheirSlot := by
  refine ⟨?refused, ?queued, ?posted, ?sent, ?advanced, ?stored⟩
  case refused =>
    intro s g rd r w hruns hasync a v d hdesc hslot hst hheadSt hhead hgood hcheck
    have hgo := execChainGo_fetched hruns hasync rfl rfl rfl hdesc hslot hst hheadSt hhead hgood rd
    exact hgo.trans (congrArg _ (if_pos hcheck))
  case queued =>
    intro s g rd r w hruns hasync a v d hdesc hslot hst hheadSt hhead hgood hcheck hstatics hroom
    have hgo := execChainGo_fetched (d := d) hruns hasync rfl rfl rfl hdesc hslot hst hheadSt hhead hgood rd
    rw [if_neg (not_not_intro hcheck), hstatics, Bool.not_true, if_neg Bool.false_ne_true, if_neg hroom.not_ge] at hgo
    exact hgo
  case posted =>
    rintro s _ g u k k' hchain hran rfl hleft hdone
    exact execChainComplete_posts hchain hran hleft hdone
  case sent =>
    rintro s _ v g u k k' b l p hchain hran rfl hleft hparts hspan hwrite
    exact (execChainBlockSend_local hchain hran hleft hparts hspan).trans (congrArg _ (State.sendLocal_written u l hwrite))
  case advanced => exact fun s v g u k l hwrite => State.chainAdvance_written u hwrite
  case stored => exact fun s v g taint a b l hwrite => State.chainWrite_store l hwrite

end Sys2Proof.Machine
end

section
/-! Scratchpad banks and the tenant clear (spec/11 R262, R271 to R276): what memory holds once a range is cleared or made undefined, what a
power request does to a cluster, O45 and O47. -/

namespace Sys2Proof.Machine

/-! ## Ranges cleared and ranges made undefined (R44, R424) -/

/-- Of a table from which a range of keys is taken out, the other keys are found as before. -/
theorem Tab.find_filter_range {α : Type} (t : Tab α) (lo hi k : Nat) :
    Tab.find (t.filter fun p => !(decide (lo ≤ p.1) && decide (p.1 < hi))) k =
      if lo ≤ k ∧ k < hi then none else Tab.find t k := by
  induction t with
  | nil => simp only [List.filter_nil, Tab.find, ite_self]
  | cons p t ih =>
    obtain ⟨j, v⟩ := p
    rw [List.filter_cons]
    by_cases hj : lo ≤ j ∧ j < hi
    · have hcut : ¬(!(decide (lo ≤ j) && decide (j < hi))) = true := by simpa using hj
      rw [if_neg hcut, ih, Tab.find]
      by_cases hkj : k = j
      · rw [hkj, if_pos hj, if_pos hj]
      · rw [if_neg hkj]
    · have hkept : (!(decide (lo ≤ j) && decide (j < hi))) = true := by simpa [imp_iff_not_or] using hj
      rw [if_pos hkept, Tab.find, Tab.find, ih]
      by_cases hkj : k = j
      · rw [if_pos hkj, if_pos hkj, if_neg (hkj ▸ hj)]
      · rw [if_neg hkj, if_neg hkj]

theorem Tab.get_filter_range {α : Type} (d : α) (t : Tab α) (lo hi k : Nat) :
    Tab.get d (t.filter fun p => !(decide (lo ≤ p.1) && decide (p.1 < hi))) k =
      if lo ≤ k ∧ k < hi then d else Tab.get d t k := by
  simp only [Tab.get, Tab.find_filter_range]
  split <;> rfl

theorem undefAt_append_outside (l : List Undef) (u : Undef) {x : Nat} (h : x < u.lo ∨ u.hi ≤ x) :
    undefAt (l ++ [u]) x = undefAt l x := by
  induction l with
  | nil => exact if_neg (by omega)
  | cons v l ih => simp only [List.cons_append, undefAt, ih]

theorem undefAt_append_inside {l : List Undef} {u : Undef} {x : Nat} (hfree : undefAt l x = none) (h : u.lo ≤ x ∧ x < u.hi) :
    undefAt (l ++ [u]) x = some u.gen := by
  induction l with
  | nil => exact if_pos h
  | cons v l ih =>
    rw [undefAt] at hfree
    split at hfree
    case isTrue => cases hfree
    case isFalse hv => exact (if_neg hv).trans (ih hfree)

section
variable (s : State) {lo hi a : Nat}

theorem State.byteAt_clearMem_inside (hlo : lo ≤ a) (hhi : a < hi) : (s.clearMem lo hi).byteAt a = 0 := by
  simp only [State.byteAt, State.clearMem, undefAt_cut_inside s.undef ⟨hlo, hhi⟩, Tab.get_filter_range, hlo, hhi, and_self, if_true]

theorem State.byteAt_clearMem_outside (ha : a < lo ∨ hi ≤ a) : (s.clearMem lo hi).byteAt a = s.byteAt a := by
  simp only [State.byteAt, State.clearMem, undefAt_cut_outside s.undef ha, Tab.get_filter_range,
    if_neg (show ¬(lo ≤ a ∧ a < hi) by omega)]

/-- A byte made undefined reads as the free byte of the range's own generation. -/
theorem State.byteAt_undefine_inside (par : Bool) (hlo : lo ≤ a) (hhi : a < hi) :
    (s.undefine lo hi par).byteAt a = Config.freeByte s.free a := by
  simp only [State.byteAt, State.undefine, if_neg (show ¬hi ≤ lo by omega),
    undefAt_append_inside (u := ⟨lo, hi, s.free, par⟩) (undefAt_cut_inside s.undef ⟨hlo, hhi⟩) ⟨hlo, hhi⟩]

theorem State.byteAt_undefine_outside (par : Bool) (ha : a < lo ∨ hi ≤ a) : (s.undefine lo hi par).byteAt a = s.byteAt a := by
  by_cases hempty : hi ≤ lo
  · rw [State.undefine, if_pos hempty]
  · simp only [State.byteAt, State.undefine, if_neg hempty, undefAt_append_outside _ ⟨lo, hi, s.free, par⟩ ha,
      undefAt_cut_outside s.undef ha, Tab.get_filter_range, if_neg (show ¬(lo ≤ a ∧ a < hi) by omega)]

theorem State.undefine_cl (lo hi : Nat) (par : Bool) : (s.undefine lo hi par).cl = s.cl := by
  unfold State.undefine
  split <;> rfl

end

/-! ## Tenant clear (R262) -/

theorem execTenantClear_idle {s : State} {g : Fin 128} (hhalted : (s.cluster g).halted = true)
    (hmxu : (s.cluster g).mxuBusy = false) (hmv : (s.cluster g).mvQueued = 0) :
    execTenantClear g s = .next (s.modCl g fun c => { c with clearing := true }) := by
  refine congrArg _ (State.modCl_congr ?_)
  simp only [hhalted, hmxu, hmv, Bool.not_false, Bool.and_self, beq_self_eq_true, if_true]

/-- The clear of a cluster that no partition holds ends with its banks and its window alone. -/
theorem execTenantClearDone_alone {s : State} {g : Fin 128} (hclearing : (s.cluster g).clearing = true)
    (hpart : s.sched.partOf g = none) :
    execTenantClearDone g s = .next ((s.modCl g Cluster.cleared).clearMem (spAddr g 0) (spAddr g 0 + spEnd)) := by
  have hpart' : ((s.modCl g Cluster.cleared).clearMem (spAddr g 0) (spAddr g 0 + spEnd)).sched.partOf g = none := hpart
  simp only [execTenantClearDone, hclearing, if_true, hpart']

/-- Settles O45: the clear starts on an idle cluster, and its end zeroes the window and no byte outside it. -/
theorem tenantClearLeavesNothing : Obligations.TenantClearLeavesNothing := by
  refine ⟨fun s g hhalted hmxu hmv => execTenantClear_idle hhalted hmxu hmv, fun s g hclearing hpart => ?_⟩
  exact ⟨_, execTenantClearDone_alone hclearing hpart, rfl, fun a => State.byteAt_clearMem_inside _,
    fun a => State.byteAt_clearMem_outside _⟩

/-! ## Requests to SP_BANK_PWR (R272 to R276) -/

theorem bankRequest_taken {b : Nat} {c : Cluster} (up force : Bool) (f : Cluster → Cluster) (hb : b < 24) (hbusy : c.pwrBusy = false)
    (hclearing : c.clearing = false) :
    bankRequest b up force f c = f { c with pwrBank := b, pwrUp := up, pwrForce := force } := by
  simp only [bankRequest, hbusy, hclearing, Bool.or_false, Bool.false_eq_true, if_false, hb.not_ge]

theorem bankDown_on {b : Nat} {c : Cluster} (w : BankState) (now : Nat) (hres : c.bankResident b = false) (hon : c.bank b = .on) :
    bankDown b w now c = { c.setBank b w with pwrBusy := true, pwrSince := now } := by
  simp only [bankDown, hres, Bool.false_eq_true, if_false, hon]

theorem bankDown_resident {b : Nat} {c : Cluster} (w : BankState) (now : Nat) (hres : c.bankResident b = true) :
    bankDown b w now c = { c with pwrSt := St.busy } := if_pos hres

section
variable {s : State} {g : Fin 128} {b : Fin 32} (hb : b.val < 24) (hbusy : (s.cluster g).pwrBusy = false)
  (hclearing : (s.cluster g).clearing = false)
include hb hbusy hclearing

/-- What a request that is taken makes of its cluster, by what it makes of the one whose register has been written. -/
theorem State.modCl_bankRequest (up force : Bool) {f k : Cluster → Cluster}
    (hf : f { s.cluster g with pwrBank := b, pwrUp := up, pwrForce := force } = k (s.cluster g)) :
    s.modCl g (bankRequest b up force f) = s.modCl g k :=
  State.modCl_congr ((bankRequest_taken up force f hb hbusy hclearing).trans hf)

/-- A power-down that may be taken puts its bank in the state of the request, plain or with FORCE (R272, R273). -/
theorem State.modCl_bankDown_on (force : Bool) (w : BankState) (htime : s.bankTime = true)
    (hres : (s.cluster g).bankResident b = false) (hon : (s.cluster g).bank b = .on) :
    s.modCl g (bankRequest b false force fun c =>
        if s.bankTime then bankDown b w (s.count (dieOfCluster g)) c else { c with pwrSt := St.busy })
      = s.modCl g fun c => { c.setBank b w with
          pwrBank := b, pwrUp := false, pwrForce := force, pwrBusy := true, pwrSince := s.count (dieOfCluster g) } :=
  State.modCl_bankRequest hb hbusy hclearing false force ((if_pos htime).trans (bankDown_on w _ hres hon))

/-- A RESIDENT region fails the request, whether or not the ladder state allows one (R272). -/
theorem execBankPowerDown_resident (hres : (s.cluster g).bankResident b = true) :
    execBankPowerDown g b s = .next (s.modCl g fun c =>
      { c with pwrBank := b, pwrUp := false, pwrForce := false, pwrSt := St.busy }) := by
  refine congrArg _ (State.modCl_bankRequest hb hbusy hclearing false false ?_)
  split
  case isTrue => exact bankDown_resident _ _ hres
  case isFalse => rfl

theorem execBankPowerUp_off (force : Bool) (hoff : (s.cluster g).bank b = .off) :
    execBankPowerUp g b force s = .next (s.modCl g fun c => { c.setBank b .upping with
      pwrBank := b, pwrUp := true, pwrForce := force, pwrBusy := true, pwrSince := s.count (dieOfCluster g) }) := by
  refine congrArg _ (State.modCl_bankRequest hb hbusy hclearing true force ?_)
  have hoff' : Cluster.bank { s.cluster g with pwrBank := b, pwrUp := true, pwrForce := force } b = .off := hoff
  simp only [hoff']
  rfl

end

/-! ## The ends of a request (R272 to R274) -/

section
variable {s : State} {g : Fin 128} {b : Nat}

theorem execBankOff_quiet (hbank : (s.cluster g).bankIn .downWait = some b) (hquiet : s.inbound g b = false)
    (htime : s.count (dieOfCluster g) ≤ (s.cluster g).pwrSince + 10) :
    execBankOff g s = .next (s.modCl g fun c => c.bankEnds b .off St.ok) := by
  simp only [execBankOff, hbank, hquiet, htime, and_self, if_true]

theorem execBankPowerTimeout_late (hbank : (s.cluster g).bankIn .downWait = some b)
    (htime : (s.cluster g).pwrSince + 10 ≤ s.count (dieOfCluster g)) :
    execBankPowerTimeout g s = .next (s.modCl g fun c => c.bankEnds b .on St.busy) := by
  simp only [execBankPowerTimeout, hbank, htime, if_true]

theorem execBankForceOff_some (n : Nat) (hbank : (s.cluster g).bankIn .downForce = some b) :
    execBankForceOff g n s = .next (s.modCl g fun c =>
      { c.bankEnds b .off St.ok with dropped := satAdd (2 ^ 32 - 1) c.dropped n }) := by
  simp only [execBankForceOff, hbank]

theorem execBankPowerUpDone_some (hbank : (s.cluster g).bankIn .upping = some b) :
    execBankPowerUpDone g s = .next ((s.modCl g fun c => (c.bankEnds b .on St.ok).dirty (b * 2 ^ 20) (2 ^ 20)).undefine
      (spAddr g (b * 2 ^ 20)) (spAddr g ((b + 1) * 2 ^ 20)) true) := by
  simp only [execBankPowerUpDone, hbank]

end

/-! ## Retirement (R271, R275) -/

theorem State.retireBank_off {s : State} {g b : Nat} (hb : b < 24) (hoff : (s.cluster g).bank b = .off) :
    s.retireBank g b =
      (St.ok, (s.modCl g fun c => c.setBank b .retired).modFaults fun f => { f with lost := f.lost ++ [.bank g b] }) := by
  simp only [State.retireBank, hb.not_ge, if_false, hoff]

theorem State.retireBank_busy {s : State} {g b : Nat} (hb : b < 24) (hoff : (s.cluster g).bank b ≠ .off)
    (hret : (s.cluster g).bank b ≠ .retired) : s.retireBank g b = (St.busy, s) := by
  rw [State.retireBank, if_neg hb.not_ge]
  split
  next h => exact absurd h hoff
  next h => exact absurd h hret
  next => rfl

theorem execBankRetire_next {s t : State} {g : Fin 128} {b : Fin 32} {st : Nat} (h : s.retireBank g b = (st, t)) :
    execBankRetire g b s = .next (t.modCl g fun c => { c with retireBank := b, pwrSt := st }) := by
  simp only [execBankRetire, h]

/-- Settles O47, request by request. -/
theorem banksArePoweredAndRetired : Obligations.BanksArePoweredAndRetired := by
  refine ⟨?down, ?downResident, ?off, ?timeout, ?forceOff, ?up, ?upDone, ?retire, ?retireBusy⟩
  case down =>
    intro s g b hb hbusy hclearing htime hres hon
    exact ⟨congrArg _ (State.modCl_bankDown_on hb hbusy hclearing false .downWait htime hres hon),
      congrArg _ (State.modCl_bankDown_on hb hbusy hclearing true .downForce htime hres hon)⟩
  case downResident => exact fun s g b hb hbusy hclearing hres => execBankPowerDown_resident hb hbusy hclearing hres
  case off => exact fun s g b hbank hquiet htime => execBankOff_quiet hbank hquiet htime
  case timeout => exact fun s g b hbank htime => execBankPowerTimeout_late hbank htime
  case forceOff => exact fun s g n b hbank => execBankForceOff_some n hbank
  case up => exact fun s g b force hb hbusy hclearing hoff => execBankPowerUp_off hb hbusy hclearing force hoff
  case upDone =>
    intro s g b hbank
    exact ⟨_, execBankPowerUpDone_some hbank, State.undefine_cl _ _ _ _, fun a => State.byteAt_undefine_inside _ true,
      fun a => State.byteAt_undefine_outside _ true⟩
  case retire => exact fun s g b hb hoff => ⟨_, execBankRetire_next (State.retireBank_off hb hoff), rfl, rfl⟩
  case retireBusy => exact fun s g b hb hoff hret => execBankRetire_next (State.retireBank_busy hb hoff hret)

end Sys2Proof.Machine
end

section
/-! The step and what every command keeps (spec/00; spec/02 R38; spec/21 R458, R460): O1, O2, O3, O5. -/

namespace Sys2Proof.Machine

/-- Settles O1. -/
theorem stepRunsFrontCommand : Obligations.StepRunsFrontCommand :=
  fun _ _ _ => step_of_command rfl

/-! ## A microsecond (log 4) -/

theorem Power.tick_eq (p : Power) : p.tick = { p with windowUs := p.tick.windowUs, recoverUs := p.tick.recoverUs } := by
  unfold Power.tick
  split
  case h_1 | h_2 => split <;> rfl
  case h_3 => rfl

theorem State.tick_fabric (s : State) :
    s.tick.fabric = { s.fabric with
      cd0 := s.fabric.cd0.up s.cdPowered, cd1 := s.fabric.cd1.up s.cdPowered, hd := s.fabric.hd.up s.sideband } := by
  simp only [State.tick]
  split <;> rfl

theorem State.tick_power (s : State) : s.tick.power = if s.alive then s.power.tick else s.power := by
  have halive : (s.modFabric fun f => { f with
    cd0 := f.cd0.up s.cdPowered, cd1 := f.cd1.up s.cdPowered, hd := f.hd.up s.sideband }).alive = s.alive := rfl
  simp only [State.tick, halive]
  split <;> rfl

/-- A tick counts, and nothing of the power manager but its two times changes. -/
theorem State.tick_power_eq (s : State) :
    s.tick.power = { s.power with windowUs := s.tick.power.windowUs, recoverUs := s.tick.power.recoverUs } := by
  rw [State.tick_power]
  split
  case isTrue => exact s.power.tick_eq
  case isFalse => rfl

/-- A count that advances keeps everything but its time. -/
theorem Count.up_eq (on : Bool) (c : Count) : c.up on = { c with now := if on then (c.now + 1) % 2 ^ 64 else c.now } := by
  cases on <;> rfl

/-- Settles O2. -/
theorem emptyQueueLetsAMicrosecondPass : Obligations.EmptyQueueLetsAMicrosecondPass := by
  intro s hq
  have hframe : Frame [.fabric, .power] s s.tick := (State.tick_runs (by decide) (by decide) (Runs.refl _ s)).frame
  refine ⟨s.tick, step_of_empty hq, hframe, fun hs => ?powered, fun hs => ?unpowered, ?fabric, s.tick_power_eq⟩
  case powered => simp [State.tick_fabric, Count.up_eq, hs]
  case unpowered => simp [State.tick_fabric, Count.up_eq, hs]
  case fabric => simp [State.tick_fabric, Count.up_eq]

/-! ## What every command keeps -/

/-- Settles O3: the run of a command says what it leaves alone. -/
theorem everyCommandKeepsItsFrame : Obligations.EveryCommandKeepsItsFrame := by
  intro c s
  obtain ⟨t, ht, hruns⟩ := exec_ends c s
  exact ⟨t, ht, hruns.frame⟩

/-- Settles O5: a tick and a command both run so that no fuse is restored. -/
theorem stepNeverRestoresAFuse : Obligations.StepNeverRestoresAFuse := by
  intro s t hstep
  cases hq : s.pending with
  | nil =>
    rw [step_of_empty hq] at hstep
    cases hstep
    have hruns : Runs [.fabric, .power] s s.tick := State.tick_runs (by decide) (by decide) (Runs.refl _ s)
    exact ⟨hruns.counter, hruns.revoked⟩
  | cons c rest =>
    rw [step_of_command hq] at hstep
    have hruns := (exec_ends c { s with pending := rest }).of_eq hstep
    exact ⟨hruns.counter, hruns.revoked⟩

end Sys2Proof.Machine
end

section
/-! The CT codec (spec/12 R289 to R292): O60. A form of a coded tile is a header of 16 bytes, a body and a padding; the body's planes read
back, planes give back units, and the map says where the units go. -/

namespace Sys2Proof.Machine

/-! ## Sums of bits -/

/-- A number put together bit by bit from the lowest, as FOLDED and the bytes of the zero map are. -/
def bitSum (n : Nat) (f : Nat → Bool) : Nat := (List.range n).foldl (fun m i => m + 2 ^ i * b2n (f i)) 0

theorem bitSum_succ (n : Nat) (f : Nat → Bool) : bitSum (n + 1) f = 2 ^ n * b2n (f n) + bitSum n f := by
  simp only [bitSum, List.range_succ, List.foldl_append, List.foldl_cons, List.foldl_nil]
  omega

theorem bitSum_lt (n : Nat) (f : Nat → Bool) : bitSum n f < 2 ^ n := by
  induction n with
  | zero => exact Nat.one_pos
  | succ n ih =>
    rw [bitSum_succ, Nat.pow_succ]
    have hb : b2n (f n) ≤ 1 := by cases f n <;> decide
    have := Nat.mul_le_mul_left (2 ^ n) hb
    omega

theorem bit_eq_testBit (n i : Nat) : bit n i = n.testBit i := by
  rw [Nat.testBit_eq_decide_div_mod_eq]
  rfl

theorem bit_bitSum {n i : Nat} (f : Nat → Bool) (hi : i < n) : bit (bitSum n f) i = f i := by
  induction n with
  | zero => omega
  | succ n ih =>
    rw [bit_eq_testBit, bitSum_succ, Nat.testBit_two_pow_mul_add _ (bitSum_lt n f)]
    split
    case isTrue h => rw [← bit_eq_testBit, ih h]
    case isFalse h =>
      obtain rfl : i = n := by omega
      cases f i <;> simp [b2n]

/-! ## CRC-32C fits its field -/

theorem crcBits_lt (n : Nat) {c : Nat} (hc : c < 2 ^ 32) : crcBits n c < 2 ^ 32 := by
  induction n generalizing c with
  | zero => exact hc
  | succ n ih =>
    have hhalf : c / 2 < 2 ^ 32 := by omega
    apply ih
    unfold crcBit
    split
    · exact Nat.xor_lt_two_pow hhalf (by decide)
    · exact hhalf

theorem crcFold_lt (b : Bytes) {c : Nat} (hc : c < 2 ^ 32) : b.foldl (fun c x => crcBits 8 (c ^^^ x.toNat)) c < 2 ^ 32 := by
  induction b generalizing c with
  | nil => exact hc
  | cons x b ih =>
    have hx : x.toNat < 2 ^ 32 := Nat.lt_of_lt_of_le x.isLt (by decide)
    exact ih (crcBits_lt 8 (Nat.xor_lt_two_pow hc hx))

theorem crc32c_lt (b : Bytes) : crc32c b < 2 ^ 32 := Nat.xor_lt_two_pow (crcFold_lt b (by decide)) (by decide)

/-! ## Planes -/

theorem storedPlane_of_folds {p : Bytes} (h : folds p = true) :
    ∃ b, storedPlane p = [b] ∧ p = List.replicate p.length b := by
  cases p with
  | nil => cases h
  | cons b l =>
    refine ⟨b, by simp only [storedPlane, h, if_true]; rfl, ?_⟩
    have hall : ∀ x ∈ l, x = b := by simpa [folds] using h
    exact List.eq_replicate_of_mem fun x hx => (List.mem_cons.mp hx).elim id (hall x)

/-- The planes as stored read back, whatever follows them. -/
theorem readPlanes_storedPlanes {folded n : Nat} (ps : List Bytes) (j : Nat) (rest : Bytes) (hlen : ∀ p ∈ ps, p.length = n)
    (hfold : ∀ i (h : i < ps.length), bit folded (j + i) = folds ps[i]) :
    readPlanes folded n j ps.length ((ps.map storedPlane).flatten ++ rest) = (ps, rest) := by
  induction ps generalizing j with
  | nil => rfl
  | cons p ps ih =>
    have hp : p.length = n := hlen p (by simp)
    have hj : bit folded j = folds p := hfold 0 (by simp)
    have hrest := ih (j + 1) (fun q hq => hlen q (List.mem_cons_of_mem _ hq)) fun i hi => by
      have := hfold (i + 1) (by simpa using hi)
      rwa [show j + (i + 1) = j + 1 + i by omega] at this
    simp only [List.length_cons, readPlanes, List.map_cons, List.flatten_cons, List.append_assoc, hj]
    cases hf : folds p with
    | true =>
      obtain ⟨b, hs, hb⟩ := storedPlane_of_folds hf
      rw [hp] at hb
      simp only [hs, if_true, List.cons_append, List.nil_append, List.take_succ_cons, List.take_zero, List.drop_succ_cons,
        List.drop_zero, List.headD_cons, hrest, ← hb]
    | false =>
      have hs : storedPlane p = p := by simp only [storedPlane, hf, Bool.false_eq_true, if_false]
      simp only [hs, Bool.false_eq_true, if_false, List.take_left' hp, List.drop_left' hp, hrest]

theorem length_storedPlane (p : Bytes) : (storedPlane p).length = if folds p then 1 else p.length := by
  cases hf : folds p with
  | true =>
    obtain ⟨b, hs, -⟩ := storedPlane_of_folds hf
    rw [hs]
    rfl
  | false => simp only [storedPlane, hf, Bool.false_eq_true, if_false]

theorem length_planes (e : Nat) (us : List Bytes) : (planes e us).length = e := by simp only [planes, List.length_map, List.length_range]

theorem length_of_mem_planes {e : Nat} {us : List Bytes} {p : Bytes} (h : p ∈ planes e us) : p.length = us.length := by
  obtain ⟨j, -, rfl⟩ := List.mem_map.mp h
  simp only [plane, List.length_map]

theorem foldedMask_eq (ps : List Bytes) : foldedMask ps = bitSum ps.length fun j => folds (ps.getD j []) := rfl

theorem bit_foldedMask {ps : List Bytes} {j : Nat} (h : j < ps.length) : bit (foldedMask ps) j = folds ps[j] := by
  rw [foldedMask_eq, bit_bitSum _ h, List.getD_eq_getElem _ _ h]

/-- The planes of units of `e` bytes give the units back. -/
theorem units_of_planes {e : Nat} {us : List Bytes} (h : ∀ u ∈ us, u.length = e) :
    ((List.range us.length).map fun i => (planes e us).map fun p => p.getD i 0) = us := by
  apply List.ext_getElem (by simp)
  intro i _ hi
  have hu : us[i].length = e := h _ (List.getElem_mem hi)
  apply List.ext_getElem (by simp [length_planes, hu])
  intro j _ hj
  simp [planes, plane, hi, hj]

/-- What the planes take in the body: one byte for each that folds, a byte for each unit otherwise. -/
theorem length_storedPlanes (e : Nat) (us : List Bytes) :
    ((planes e us).map storedPlane).flatten.length
      = ((List.range e).map fun j => if bit (foldedMask (planes e us)) j then 1 else us.length).sum := by
  rw [List.length_flatten, List.map_map]
  congr 1
  apply List.ext_getElem (by simp [length_planes])
  intro j _ hj
  have hlen : j < (planes e us).length := by simpa [length_planes] using hj
  simp only [List.getElem_map, List.getElem_range, Function.comp, length_storedPlane, bit_foldedMask hlen,
    length_of_mem_planes (List.getElem_mem hlen)]

theorem sum_map_le (l : List Nat) (f : Nat → Nat) {c : Nat} (h : ∀ x ∈ l, f x ≤ c) : (l.map f).sum ≤ l.length * c := by
  simpa using List.sum_le_card_nsmul (l.map f) c (by simpa using h)

theorem length_storedPlanes_le {e : Nat} {us : List Bytes} (h : us.length ≤ 1024) :
    ((planes e us).map storedPlane).flatten.length ≤ e * 1024 := by
  rw [length_storedPlanes]
  simpa using sum_map_le (List.range e) _ (c := 1024) fun j _ => by split <;> omega

/-! ## A form of a coded tile -/

/-- The 16 bytes of a coded tile's header. -/
def ctHeader (flags units folded side n check : Nat) : Bytes :=
  leBytes 1 1 ++ leBytes 1 flags ++ leBytes 2 units ++ leBytes 1 folded ++ [0] ++ leBytes 2 side ++ leBytes 4 n ++ leBytes 4 check

/-- What follows the header: the map, the planes as stored, the side bytes. -/
def ctBody (e : Nat) (map : Bytes) (us : List Bytes) (side : Bytes) : Bytes := map ++ ((planes e us).map storedPlane).flatten ++ side

theorem ctForm_eq (e : Nat) (noMap : Bool) (map : Bytes) (us : List Bytes) (side : Bytes) (check : Nat) :
    ∃ pad : Bytes, ctForm e noMap map us side check
        = ctHeader (esizeOf e + 4 * b2n noMap) us.length (foldedMask (planes e us)) side.length
            (up8 (16 + (ctBody e (if noMap then [] else map) us side).length)) check
          ++ (ctBody e (if noMap then [] else map) us side ++ pad)
      ∧ (ctForm e noMap map us side check).length = up8 (16 + (ctBody e (if noMap then [] else map) us side).length) := by
  set body := ctBody e (if noMap then [] else map) us side with hbody
  have hform : ctForm e noMap map us side check
      = ctHeader (esizeOf e + 4 * b2n noMap) us.length (foldedMask (planes e us)) side.length (up8 (16 + body.length)) check
          ++ (body ++ List.replicate (up8 (16 + body.length) - 16 - body.length) 0) := by
    simp only [ctForm, ctHeader, List.append_assoc, hbody, ctBody]
  refine ⟨_, hform, ?_⟩
  rw [hform]
  have hle : 16 + body.length ≤ up8 (16 + body.length) := by simp only [up8]; omega
  simp only [ctHeader, List.length_append, length_leBytes, List.length_replicate, List.length_singleton]
  omega

section Header
variable (flags units folded side n check : Nat) (rest : Bytes)

theorem ctHeader_drop : (ctHeader flags units folded side n check ++ rest).drop 16 = rest := rfl

theorem ctHeader_version : ctDecode.fieldOf (ctHeader flags units folded side n check ++ rest) 0 1 = 1 := rfl

theorem ctHeader_reserved : ctDecode.fieldOf (ctHeader flags units folded side n check ++ rest) 5 1 = 0 := rfl

theorem ctHeader_flags (h : flags < 256) : ctDecode.fieldOf (ctHeader flags units folded side n check ++ rest) 1 1 = flags :=
  (leNat_leBytes 1 flags).trans (Nat.mod_eq_of_lt h)

theorem ctHeader_units (h : units < 65536) : ctDecode.fieldOf (ctHeader flags units folded side n check ++ rest) 2 2 = units :=
  (leNat_leBytes 2 units).trans (Nat.mod_eq_of_lt h)

theorem ctHeader_folded (h : folded < 256) : ctDecode.fieldOf (ctHeader flags units folded side n check ++ rest) 4 1 = folded :=
  (leNat_leBytes 1 folded).trans (Nat.mod_eq_of_lt h)

theorem ctHeader_side (h : side < 65536) : ctDecode.fieldOf (ctHeader flags units folded side n check ++ rest) 6 2 = side :=
  (leNat_leBytes 2 side).trans (Nat.mod_eq_of_lt h)

theorem ctHeader_length (h : n < 2 ^ 32) : ctDecode.fieldOf (ctHeader flags units folded side n check ++ rest) 8 4 = n :=
  (leNat_leBytes 4 n).trans (Nat.mod_eq_of_lt h)

theorem ctHeader_check (h : check < 2 ^ 32) : ctDecode.fieldOf (ctHeader flags units folded side n check ++ rest) 12 4 = check :=
  (leNat_leBytes 4 check).trans (Nat.mod_eq_of_lt h)
end Header

/-- The units' flags of presence, as a decoder reads them off a form (R290). -/
def ctWhich (noMap : Bool) (map : Bytes) (n : Nat) : List Bool :=
  (List.range 1024).map fun i => if noMap then decide (n ≠ 0) else mapBit map i

/-- CTFLAGS of a form: NOMAP is bit 2, ESIZE the two bits under it, the rest 0. -/
theorem ctFlags_fields {e : Nat} (he : e ∈ [1, 2, 4]) (noMap : Bool) :
    esizeOf e + 4 * b2n noMap < 8 ∧ bit (esizeOf e + 4 * b2n noMap) 2 = noMap ∧ (esizeOf e + 4 * b2n noMap) % 4 = esizeOf e := by
  revert noMap
  fin_cases he <;> decide

/-- A form decodes to the units its map spreads, where map, number of units and check value agree. -/
theorem ctDecode_ctForm {e : Nat} {noMap : Bool} {map : Bytes} {us : List Bytes} {side : Bytes} {check : Nat} {units : Bytes}
    (he : e ∈ [1, 2, 4]) (hus : ∀ u ∈ us, u.length = e) (hn : us.length ≤ 1024) (hside : side.length ≤ 1024)
    (hmap : map.length = if noMap then 0 else 128)
    (hcount : noMap = false → us.length = ((ctWhich noMap map us.length).filter id).length)
    (hdense : noMap = true → us.length = 0 ∨ us.length = 1024)
    (hunits : (spreadUnits e (ctWhich noMap map us.length) us).flatten = units) (hcheck : check = crc32c (units ++ side)) :
    ctDecode e side.length (ctForm e noMap map us side check) = some (units, side) := by
  have hmap' : (if noMap then [] else map) = map := by
    cases noMap
    · rfl
    · exact (List.eq_nil_of_length_eq_zero hmap).symm
  obtain ⟨pad, hform, -⟩ := ctForm_eq e noMap map us side check
  rw [hform, hmap']
  obtain ⟨hflags, hnomap, hesize⟩ := ctFlags_fields he noMap
  have he4 : e ≤ 4 := by fin_cases he <;> decide
  have hfolded : foldedMask (planes e us) < 2 ^ e := by
    have := bitSum_lt (planes e us).length fun j => folds ((planes e us).getD j [])
    rwa [← foldedMask_eq, length_planes] at this
  have hfolded' : foldedMask (planes e us) < 256 :=
    Nat.lt_of_lt_of_le hfolded (Nat.le_trans (Nat.pow_le_pow_right (by decide) he4) (by decide))
  have hbody : (ctBody e map us side).length = map.length
      + ((List.range e).map fun j => if bit (foldedMask (planes e us)) j then 1 else us.length).sum + side.length := by
    simp only [ctBody, List.length_append, length_storedPlanes]
  have hlen : up8 (16 + (ctBody e map us side).length) < 2 ^ 32 := by
    have h1 := length_storedPlanes_le (e := e) hn
    have h2 : map.length ≤ 128 := by rw [hmap]; split <;> omega
    simp only [ctBody, List.length_append, up8]
    omega
  have hmapRead : (if noMap then [] else ((ctBody e map us side ++ pad)).take 128) = map := by
    cases noMap
    · simp only [Bool.false_eq_true, if_false, ctBody, List.append_assoc]
      exact List.take_left' hmap
    · exact (List.eq_nil_of_length_eq_zero hmap).symm
  have hplanes : readPlanes (foldedMask (planes e us)) us.length 0 e ((ctBody e map us side ++ pad).drop map.length)
      = (planes e us, side ++ pad) := by
    have hread := readPlanes_storedPlanes (folded := foldedMask (planes e us)) (planes e us) 0 (side ++ pad)
      (fun p hp => length_of_mem_planes hp) fun i hi => by rw [Nat.zero_add]; exact bit_foldedMask hi
    rw [length_planes] at hread
    simpa only [ctBody, List.append_assoc, List.drop_left'] using hread
  simp only [ctDecode, ctHeader_version, ctHeader_reserved, ctHeader_flags _ _ _ _ _ _ _ (Nat.lt_trans hflags (by decide)),
    ctHeader_units _ us.length _ _ _ _ _ (by omega), ctHeader_folded _ _ _ _ _ _ _ hfolded',
    ctHeader_side _ _ _ side.length _ _ _ (by omega), ctHeader_length _ _ _ _ _ _ _ hlen,
    ctHeader_check _ _ _ _ _ _ _ (hcheck ▸ crc32c_lt _), hnomap, hesize, ← List.drop_drop, ctHeader_drop, hmapRead, hplanes,
    units_of_planes hus, List.take_left' rfl, Nat.div_eq_of_lt hflags, Nat.div_eq_of_lt hfolded, ← hbody]
  rw [show (List.map (fun i => if noMap = true then decide (us.length ≠ 0) else mapBit map i) (List.range 1024))
    = ctWhich noMap map us.length from rfl, hunits, if_neg]
  simp only [ne_eq, not_true_eq_false, false_or, not_or, not_and]
  exact ⟨fun hm h => h (hcount hm), fun hm h0 h1 => (hdense hm).elim h0 h1, fun h => h hcheck⟩

theorem ctForm_length_le {e : Nat} {noMap : Bool} {map : Bytes} {us : List Bytes} {side : Bytes} {check : Nat}
    (hmap : noMap = true) (hn : us.length ≤ 1024) : (ctForm e noMap map us side check).length ≤ up8 (16 + 1024 * e + side.length) := by
  obtain ⟨pad, -, hlen⟩ := ctForm_eq e noMap map us side check
  have h := length_storedPlanes_le (e := e) hn
  rw [hlen]
  simp only [hmap, if_true, ctBody, List.nil_append, List.length_append, up8]
  omega

/-! ## Units, their flags of presence, and the zero map -/

/-- Is a unit stored? -/
def ctPresent (u : Bytes) : Bool := u.any (· ≠ 0)

theorem eq_zeros_of_not_ctPresent {u : Bytes} (h : ctPresent u = false) : u = List.replicate u.length 0 := by
  refine List.eq_replicate_of_mem fun x hx => ?_
  simpa using List.any_eq_false.mp h x hx

/-- The present units go back to their places, zeros to the others. -/
theorem spreadUnits_present {e : Nat} {us : List Bytes} (h : ∀ u ∈ us, u.length = e) :
    spreadUnits e (us.map ctPresent) (us.filter ctPresent) = us := by
  induction us with
  | nil => rfl
  | cons u us ih =>
    have ih := ih fun v hv => h v (List.mem_cons_of_mem _ hv)
    cases hp : ctPresent u with
    | true => simp only [List.map_cons, List.filter_cons, hp, if_true, spreadUnits, ih]
    | false =>
      simp only [List.map_cons, List.filter_cons, hp, Bool.false_eq_true, if_false, spreadUnits, ih]
      rw [← h u (by simp), ← eq_zeros_of_not_ctPresent hp]

/-- Where every unit is stored each keeps its place. -/
theorem spreadUnits_all (e : Nat) (us : List Bytes) : spreadUnits e (List.replicate us.length true) us = us := by
  induction us with
  | nil => rfl
  | cons u us ih => simp only [List.length_cons, List.replicate_succ, spreadUnits, ih]

theorem length_ctUnits (e : Nat) (elems : Bytes) : (ctUnits e elems).length = 1024 := by
  simp only [ctUnits, List.length_map, List.length_range]

theorem length_of_mem_ctUnits {e : Nat} {elems u : Bytes} (h : u ∈ ctUnits e elems) : u.length = e := by
  obtain ⟨i, -, rfl⟩ := List.mem_map.mp h
  simp only [List.length_map, List.length_range]

theorem flatten_chunks (e n : Nat) (b : Bytes) (h : b.length = n * e) :
    ((List.range n).map fun i => (List.range e).map fun j => b.getD (i * e + j) 0).flatten = b := by
  induction n generalizing b with
  | zero => simp_all
  | succ n ih =>
    have hlen : b.length = n * e + e := by rw [h, Nat.succ_mul]
    have hfirst : ((List.range e).map fun j => b.getD (0 * e + j) 0) = b.take e := by
      apply List.ext_getElem (by simp [hlen])
      intro j hj _
      have hj' : j < b.length := by simp only [List.length_map, List.length_range] at hj; omega
      simp [hj']
    have hrest : ∀ i j, b.getD ((i + 1) * e + j) 0 = (b.drop e).getD (i * e + j) 0 := fun i j => by
      rw [List.getD_eq_getElem?_getD, List.getD_eq_getElem?_getD, List.getElem?_drop]
      congr 2
      rw [Nat.succ_mul]
      omega
    rw [List.range_succ_eq_map, List.map_cons, List.map_map, List.flatten_cons, hfirst]
    simp only [Function.comp_def, Nat.succ_eq_add_one, hrest]
    rw [ih (b.drop e) (by rw [List.length_drop]; omega), List.take_append_drop]

/-- The units of a tile's bytes, one after the other, are the bytes. -/
theorem flatten_ctUnits {e : Nat} {elems : Bytes} (h : elems.length = 1024 * e) : (ctUnits e elems).flatten = elems :=
  flatten_chunks e 1024 elems h

theorem length_zeroMap (us : List Bytes) : (zeroMap us).length = 128 := by simp only [zeroMap, List.length_map, List.length_range]

theorem mapBit_zeroMap {us : List Bytes} {i : Nat} (hi : i < 1024) : mapBit (zeroMap us) i = ctPresent (us.getD i []) := by
  have hbyte : (zeroMap us).getD (i / 8) 0 = byteOf (bitSum 8 fun k => ctPresent (us.getD (8 * (i / 8) + k) [])) := by
    rw [List.getD_eq_getElem _ _ (by rw [length_zeroMap]; omega)]
    simp only [zeroMap, List.getElem_map, List.getElem_range]
    rfl
  have hnat : (byteOf (bitSum 8 fun k => ctPresent (us.getD (8 * (i / 8) + k) []))).toNat
      = bitSum 8 fun k => ctPresent (us.getD (8 * (i / 8) + k) []) := by
    rw [byteOf, BitVec.toNat_ofNat]
    exact Nat.mod_eq_of_lt (bitSum_lt 8 _)
  rw [mapBit, hbyte, hnat, bit_bitSum _ (Nat.mod_lt i (by decide)), Nat.div_add_mod]

/-- The map of 1,024 units names those that are present. -/
theorem ctWhich_zeroMap {us : List Bytes} (h : us.length = 1024) (n : Nat) : ctWhich false (zeroMap us) n = us.map ctPresent := by
  apply List.ext_getElem (by simp [ctWhich, h])
  intro i hi _
  have hi' : i < 1024 := by simpa [ctWhich] using hi
  simp [ctWhich, mapBit_zeroMap hi', h, hi']

theorem ctWhich_dense (map : Bytes) {n : Nat} (h : n ≠ 0) : ctWhich true map n = List.replicate 1024 true := by
  simp [ctWhich, h, List.map_const']

theorem ctWhich_empty (map : Bytes) : ctWhich true map 0 = List.replicate 1024 false := by
  simp [ctWhich, List.map_const']

theorem spreadUnits_none (e n : Nat) : spreadUnits e (List.replicate n false) [] = List.replicate n (List.replicate e 0) := by
  induction n with
  | zero => rfl
  | succ n ih => simp only [List.replicate_succ, spreadUnits, ih]

/-! ## The tile -/

section Tile
variable {e : Nat} {elems side : Bytes} (he : e ∈ [1, 2, 4]) (hlen : elems.length = 1024 * e) (hside : side.length ≤ 1024)
include he hlen hside

/-- A tile whose bytes are all 0 is stored as no unit at all. -/
theorem ctDecode_emptyForm (h : (ctUnits e elems).filter ctPresent = []) :
    ctDecode e side.length (ctForm e true [] [] side (crc32c (elems ++ side))) = some (elems, side) := by
  have hspread := spreadUnits_present fun u (hu : u ∈ ctUnits e elems) => length_of_mem_ctUnits hu
  have hwhich : (ctUnits e elems).map ctPresent = List.replicate 1024 false := by
    refine List.eq_replicate_iff.mpr ⟨by rw [List.length_map, length_ctUnits], fun b hb => ?_⟩
    obtain ⟨u, hu, rfl⟩ := List.mem_map.mp hb
    simpa using List.filter_eq_nil_iff.mp h u hu
  refine ctDecode_ctForm he (by simp) (by simp) hside rfl nofun (fun _ => .inl rfl) ?_ rfl
  rw [List.length_nil, ctWhich_empty, ← hwhich, ← h, hspread, flatten_ctUnits hlen]

theorem ctDecode_denseForm :
    ctDecode e side.length (ctForm e true [] (ctUnits e elems) side (crc32c (elems ++ side))) = some (elems, side) := by
  have hn := length_ctUnits e elems
  refine ctDecode_ctForm he (fun u => length_of_mem_ctUnits) hn.le hside rfl nofun (fun _ => .inr hn) ?_ rfl
  rw [ctWhich_dense [] (by rw [hn]; decide), ← hn, spreadUnits_all, flatten_ctUnits hlen]

theorem ctDecode_mapForm :
    ctDecode e side.length (ctForm e false (zeroMap (ctUnits e elems)) ((ctUnits e elems).filter ctPresent) side
      (crc32c (elems ++ side))) = some (elems, side) := by
  have hn := length_ctUnits e elems
  have hall : ∀ u ∈ ctUnits e elems, u.length = e := fun u => length_of_mem_ctUnits
  refine ctDecode_ctForm he (fun u hu => hall u (List.mem_of_mem_filter hu)) (hn ▸ List.length_filter_le _ _) hside
    (length_zeroMap _) (fun _ => ?count) nofun ?units rfl
  case count =>
    rw [ctWhich_zeroMap hn, List.filter_map, List.length_map]
    rfl
  case units => rw [ctWhich_zeroMap hn, spreadUnits_present hall, flatten_ctUnits hlen]

end Tile

/-- Settles O60: the three forms a tile may take decode to it, and the one chosen is no longer than the one without a map. -/
theorem codedTilesAreLossless : Obligations.CodedTilesAreLossless := by
  intro e he elems side hlen hside
  have hn := length_ctUnits e elems
  have hdense := ctForm_length_le (e := e) (map := []) (us := ctUnits e elems) (side := side) (check := crc32c (elems ++ side)) rfl hn.le
  simp only [ctEncode, flatten_ctUnits hlen]
  split
  case isTrue h => exact ⟨ctDecode_emptyForm he hlen hside h, ctForm_length_le rfl (by simp)⟩
  case isFalse =>
    split
    case isTrue hlt => exact ⟨ctDecode_mapForm he hlen hside, hlt.le.trans hdense⟩
    case isFalse => exact ⟨ctDecode_denseForm he hlen hside, hdense⟩

end Sys2Proof.Machine
end

section
/-! The input, the flush and reset (spec/20 R440, R442 to R444, R456; spec/22 R489): O55. -/

namespace Sys2Proof.Machine

/-! ## Hold (R442, R456) -/

theorem execInputWarn_holds {s : State} {v : Nat} (hs : s.alive = true) (hv : v < 3600) (hcommit : 3300 ≤ v)
    (hwarn : s.power.holdWarn = false) (hebony : s.power.ladder ≠ 5) : execInputWarn v s = .next
      (((s.modPower fun p => { p with
        volts := v, holdWarn := true, holds := satAdd 255 p.holds 1
        demandHold := if p.ladder ≤ 1 then 2 else p.demandHold }).holdFollow.clockFollow).post 0x03 1 []) := by
  have hv' : ¬ 3600 ≤ v := by omega
  have hcommit' : ¬ v < 3300 := by omega
  simp [execInputWarn, hs, hv', hcommit', hwarn, hebony]
  rfl

theorem execInputWarn_ebony {s : State} {v : Nat} (hs : s.alive = true) (hv : v < 3600) (hcommit : 3300 ≤ v)
    (hebony : s.power.ladder = 5) : execInputWarn v s = .next (s.modPower fun p => { p with volts := v }) := by
  have hv' : ¬ 3600 ≤ v := by omega
  have hcommit' : ¬ v < 3300 := by omega
  simp [execInputWarn, hs, hv', hcommit', hebony]

theorem execHoldRelease_recovered {s : State} {v : Nat} (hs : s.alive = true) (hwarn : s.power.holdWarn = true) (hv : 3700 ≤ v) :
    execHoldRelease v s = .next
      (((s.modPower fun p => { p with volts := v, holdWarn := false, demandHold := 0 }).holdFollow.clockFollow).post 0x03 2 []) := by
  simp [execHoldRelease, hs, hwarn, hv]

/-! ## Flush and reset (R439, R443, R444) -/

theorem execInputReset_flushing {s : State} {v : Nat} (undumped : List Nat) (hv : v < 2800) (hflush : s.power.flushing = true) :
    execInputReset v undumped s = .next (((s.modPower fun p => { p with volts := v, vLost := true }).modFtl fun f =>
      { f with dumpDue := true, dumpCut := some undumped }).enterReset.hdDown) := by
  simp [execInputReset, hv, hflush]

theorem execInputReset_inReset {s : State} {v : Nat} (undumped : List Nat) (hv : v < 2800) (hflush : s.power.flushing = false)
    (hreset : s.power.inReset = true) :
    execInputReset v undumped s = .next (s.modPower fun p => { p with volts := v, vLost := true }).hdDown := by
  simp [execInputReset, hv, hflush, hreset]

theorem execJunctionCooldown_cool {s : State} {t0 t1 t2 : Int} (htrip : s.power.tripLatch = true) (h0 : t0 ≤ 85) (h1 : t1 ≤ 85)
    (h2 : t2 ≤ 85) : execJunctionCooldown t0 t1 t2 s = .next
      (s.modPower fun p => { p with tripLatch := false, tCd0 := t0, tCd1 := t1, tHd := t2 }) := by
  simp [execJunctionCooldown, htrip, h0, h1, h2]

theorem execJunctionCooldown_hot {s : State} {t0 t1 t2 : Int} (h : 85 < t0 ∨ 85 < t1 ∨ 85 < t2) :
    execJunctionCooldown t0 t1 t2 s = .next s := by
  rcases h with h | h | h <;> simp [execJunctionCooldown, Int.not_le.mpr h]

/-! ## The start condition (R440, R443) -/

@[simp] theorem State.restartCounts_power (s : State) : s.restartCounts.power = s.power := by
  unfold State.restartCounts
  split <;> rfl

theorem execStartCondition_starts {s : State} {v : Nat} (hreset : s.power.inReset = true) (hpin : s.power.pwrDis = false)
    (htrip : s.power.tripLatch = false) (hv : 3700 ≤ v) (hover : s.power.overvoltage = false ∨ v < 5500) :
    execStartCondition v s = .next
      (s.restartCounts.modPower fun p => { p with volts := v, inReset := false, overvoltage := false, vLost := false }) := by
  have hover' : (!s.power.overvoltage || decide (v < 5500)) = true := by simpa using hover
  simp [execStartCondition, hreset, hpin, htrip, hv, hover']

theorem execStartCondition_held {s : State} {v : Nat}
    (h : s.power.pwrDis = true ∨ s.power.tripLatch = true ∨ v < 3700 ∨ (s.power.overvoltage = true ∧ 5500 ≤ v)) :
    execStartCondition v s = .next s := by
  rcases h with h | h | h | ⟨h, hv⟩
  · simp [execStartCondition, h]
  · simp [execStartCondition, h]
  · simp [execStartCondition, Nat.not_le.mpr h]
  · simp [execStartCondition, h, Nat.not_lt.mpr hv]

/-! ## The hold-up bank (R444, R456) -/

theorem execHoldupMeasurement_measures {s : State} (mj : Nat) (hs : s.alive = true) (hwarn : s.power.holdWarn = false)
    (hebony : s.power.ladder ≠ 5) : ∃ t, execHoldupMeasurement mj s = .next t
      ∧ t.power = { s.power with holdupMj := mj, holdupWeak := decide (mj < 1200) } := by
  have hmeasures : (!s.alive || s.power.holdWarn || s.power.ladder == 5) = false := by simp [hs, hwarn, hebony]
  simp only [execHoldupMeasurement, hmeasures, Bool.false_eq_true, if_false]
  refine ⟨_, rfl, ?_⟩
  split
  · rw [State.post_power, State.modPower_power]
  · split
    · rw [State.post_power, State.modPower_power]
    · rw [State.modPower_power]

/-- Settles O55, from WARN by COMMIT and RESET to the start condition and the hold-up bank. -/
theorem inputHoldsFlushesAndResets : Obligations.InputHoldsFlushesAndResets := by
  refine ⟨?warn, ?warnEbony, ?release, ?commit, ?noCommit, ?dumped, ?cut, ?inReset, ?overvoltage, ?noOvervoltage, ?pwrDis, ?cooldown, ?hot, ?start,
    ?noStart, ?bank, ?noBank⟩
  case warn => exact fun s v hs hv hcommit hwarn hebony => execInputWarn_holds hs hv hcommit hwarn hebony
  case warnEbony => exact fun s v hs hv hcommit hebony => execInputWarn_ebony hs hv hcommit hebony
  case release => exact fun s v hs hwarn hv => execHoldRelease_recovered hs hwarn hv
  case commit => exact fun s v hv => by rw [exec_inputCommit, execInputCommit, if_pos hv]
  case noCommit => exact fun s v hv => by rw [exec_inputCommit, execInputCommit, if_neg hv.not_gt]
  case dumped => exact fun s hflush => by rw [exec_flushDumpDone, execFlushDumpDone, if_pos hflush]
  case cut => exact fun s v u hv hflush => execInputReset_flushing u hv hflush
  case inReset => exact fun s v u hv hflush hreset => execInputReset_inReset u hv hflush hreset
  case overvoltage => exact fun s v hv => by rw [exec_inputOvervoltage, execInputOvervoltage, if_pos hv]
  case noOvervoltage => exact fun s v hv => by rw [exec_inputOvervoltage, execInputOvervoltage, if_neg hv.not_gt]
  case pwrDis => exact fun s => ⟨rfl, rfl⟩
  case cooldown => exact fun s t0 t1 t2 htrip h0 h1 h2 => execJunctionCooldown_cool htrip h0 h1 h2
  case hot => exact fun s t0 t1 t2 h => execJunctionCooldown_hot h
  case start =>
    intro s v hreset hpin htrip hv hover
    refine ⟨_, execStartCondition_starts hreset hpin htrip hv hover, ?_, ?_⟩
    · exact (State.modPower_runs (by decide) (State.restartCounts_runs (by decide) (Runs.refl _ s)) _).frame
    · rw [State.modPower_power, State.restartCounts_power]
  case noStart => exact fun s v h => execStartCondition_held h
  case bank => exact fun s mj hs hwarn hebony => execHoldupMeasurement_measures mj hs hwarn hebony
  case noBank => exact fun s mj hwarn => by simp [execHoldupMeasurement, hwarn]

end Sys2Proof.Machine
end

section
/-! Fault records (spec/19 R427 to R430, R433, R438): O52. -/

namespace Sys2Proof.Machine

/-! ## Concentrators beside the log -/

@[simp] theorem Faults.setConc_log (f : Faults) (d : Die) (c : Conc) : (f.setConc d c).log = f.log := by cases d <;> rfl

@[simp] theorem State.modConc_log (s : State) (d : Die) (f : Conc → Conc) : (s.modConc d f).faults.log = s.faults.log :=
  Faults.setConc_log _ _ _

theorem State.modConc_frame (s : State) (d : Die) (f : Conc → Conc) : Frame [.faults] s (s.modConc d f) :=
  (State.modFaults_runs (by decide) (Runs.refl _ s) _).frame

/-! ## The storm window (R427, R429) -/

section Slot
variable {s : State} {d : Die} {k : Fin 256} {x : RingSlot} (hslot : s.ringSlot d k = some x)
include hslot

theorem execFaultWindowEnd_due (hopen : x.fr.closed = false) (hdue : x.fr.lastCount + 101 ≤ s.count d) :
    execFaultWindowEnd d k s = .next (s.closeRecord d k x) := by
  simp only [execFaultWindowEnd, hslot, hopen, hdue, Bool.not_false, decide_true, Bool.and_self, if_true]

theorem execFaultWindowEnd_early (hearly : s.count d < x.fr.lastCount + 101) : execFaultWindowEnd d k s = .next s := by
  simp [execFaultWindowEnd, hslot, Nat.not_le.mpr hearly]

theorem execFaultWindowEnd_closed (hclosed : x.fr.closed = true) : execFaultWindowEnd d k s = .next s := by
  simp [execFaultWindowEnd, hslot, hclosed]

theorem execFaultRecordAgeLimit_due (hopen : x.fr.closed = false) (hdue : x.fr.firstCount + 1000000 ≤ s.count d) :
    execFaultRecordAgeLimit d k s = .next (s.closeRecord d k x) := by
  simp only [execFaultRecordAgeLimit, hslot, hopen, hdue, Bool.not_false, decide_true, Bool.and_self, if_true]

theorem execFaultRecordAgeLimit_closed (hclosed : x.fr.closed = true) : execFaultRecordAgeLimit d k s = .next s := by
  simp [execFaultRecordAgeLimit, hslot, hclosed]

/-! ## The log (R428, R430) -/

theorem execFaultRecordIntake_takes (hnew : x.taken = false) (hs : s.alive = true) :
    execFaultRecordIntake d k s = .next (s.intake d k x) := by
  simp only [execFaultRecordIntake, hslot, hnew, hs, Bool.not_false, Bool.and_self, if_true]

/-- A log entry with the final counts of a slot's record, where it is the record's (R428). -/
def LogEntry.finalised (x : RingSlot) (e : LogEntry) : LogEntry :=
  if e.fr.record = x.number then
    { fr := { e.fr with count := x.fr.count, lastCount := x.fr.lastCount, partners := x.fr.partners, closed := true } }
  else e

omit hslot in
theorem LogEntry.finalised_record (x : RingSlot) (e : LogEntry) : (e.finalised x).fr.record = e.fr.record := by
  unfold LogEntry.finalised
  split <;> rfl

theorem execFaultRecordFinalise_closed (htaken : x.taken = true) (hclosed : x.fr.closed = true) (hnew : x.finished = false)
    (hs : s.alive = true) : execFaultRecordFinalise d k s = .next
      ((s.modFaults fun f => { f with log := f.log.map (LogEntry.finalised x) }).modConc d fun c =>
        Conc.freeFinished 256 { c with slots := Tab.put c.slots k { x with finished := true } }) := by
  simp only [execFaultRecordFinalise, hslot, htaken, hclosed, hnew, hs, Bool.not_false, Bool.and_self, if_true]
  rfl

end Slot

/-- A log entry that the system area holds once its number has been written (R430). -/
def LogEntry.written (record : Nat) (e : LogEntry) : LogEntry := if e.fr.record = record then { e with persisted := true } else e

theorem LogEntry.written_fr (record : Nat) (e : LogEntry) : (e.written record).fr = e.fr := by
  unfold LogEntry.written
  split <;> rfl

theorem execFaultLogPersist_alive {s : State} (record : Nat) (hs : s.alive = true) :
    execFaultLogPersist record s = .next (s.modFaults fun f => { f with log := f.log.map (LogEntry.written record) }) := by
  rw [execFaultLogPersist, if_pos hs]
  rfl

/-- Settles O52, from the report to the ring's HEAD. -/
theorem faultRecordsAreKept : Obligations.FaultRecordsAreKept := by
  refine ⟨fun s d r to_ => rfl, ?windowEnd, ?windowEarly, ?age, ?closed, ?intake, ?finalise, ?persist, fun s d v => rfl⟩
  case windowEnd => exact fun s d k x hslot hopen hdue => execFaultWindowEnd_due hslot hopen hdue
  case windowEarly => exact fun s d k x hslot hearly => execFaultWindowEnd_early hslot hearly
  case age => exact fun s d k x hslot hopen hdue => execFaultRecordAgeLimit_due hslot hopen hdue
  case closed =>
    exact fun s d k x hslot hclosed => ⟨execFaultWindowEnd_closed hslot hclosed, execFaultRecordAgeLimit_closed hslot hclosed⟩
  case intake => exact fun s d k x hslot hnew hs => execFaultRecordIntake_takes hslot hnew hs
  case finalise =>
    intro s d k x hslot htaken hclosed hnew hs
    refine ⟨_, execFaultRecordFinalise_closed hslot htaken hclosed hnew hs, ?_, ?_, ?_⟩
    · exact (State.modFaults_runs (by decide) (Runs.refl _ s) _).frame.trans (State.modConc_frame _ _ _)
    · rw [State.modConc_log, State.modFaults_faults, List.length_map]
    · intro e he hnumber
      rw [State.modConc_log, State.modFaults_faults] at he
      obtain ⟨e0, -, rfl⟩ := List.mem_map.mp he
      rw [LogEntry.finalised_record] at hnumber
      rw [LogEntry.finalised, if_pos hnumber]
      exact ⟨rfl, rfl, rfl⟩
  case persist =>
    intro s record hs
    refine ⟨_, execFaultLogPersist_alive record hs, (State.modFaults_runs (by decide) (Runs.refl _ s) _).frame, ?_, ?_⟩
    · intro e he hnumber
      obtain ⟨e0, -, rfl⟩ := List.mem_map.mp he
      rw [LogEntry.written_fr] at hnumber
      rw [LogEntry.written, if_pos hnumber]
    · rw [State.modFaults_faults, List.map_map]
      exact List.map_congr_left fun e _ => e.written_fr record

end Sys2Proof.Machine
end

section
/-! Messages about faults (spec/19 R430, R434 to R437): O36. -/

namespace Sys2Proof.Machine

/-! ## The fault log (R430) -/

/-- The number from which a reader of the fault log goes on. -/
def State.faultNext (s : State) (l : List LogEntry) : Nat :=
  match l.getLast? with
  | some e => e.fr.record + 1
  | none => s.faults.nextRecord

theorem faultRead_answers {s : State} {j : AmpJob} {l : List LogEntry} (hlo : 1 ≤ fieldAt j.payload 4 4)
    (hhi : fieldAt j.payload 4 4 ≤ 1023)
    (hl : l = (s.faults.log.filter fun e => decide (fieldAt j.payload 0 4 ≤ e.fr.record)).take (fieldAt j.payload 4 4)) :
    faultRead j s = ampAnswer s (leBytes 4 l.length ++ leBytes 4 (s.faultNext l) ++ leBytes 4 s.faults.droppedAmber
      ++ leBytes 4 s.faults.droppedOther ++ l.flatMap fun e => e.fr.bytes) := by
  have hcount : ¬ (fieldAt j.payload 4 4 = 0 ∨ 1023 < fieldAt j.payload 4 4) := by omega
  subst hl
  rw [faultRead, if_neg hcount]
  rfl

theorem State.faultNext_last {s : State} {l : List LogEntry} {e : LogEntry} (h : l.getLast? = some e) :
    s.faultNext l = e.fr.record + 1 := by
  rw [State.faultNext, h]

section Message
variable {s : State} {mb : Fin 3} {j : AmpJob}

theorem execFaultAck_turn (h : s.ampTurnOf mb 0x0602 j) : execFaultAck mb s = .next
    (if s.faults.nextRecord ≤ fieldAt j.payload 0 4 then s.ampDone mb St.idRange []
      else (s.modFaults fun f => { f with log := f.log.filter fun e => decide (fieldAt j.payload 0 4 < e.fr.record) }).ampDone mb
        St.ok []) := by
  by_cases hnew : s.faults.nextRecord ≤ fieldAt j.payload 0 4
  · rw [execFaultAck, ampExec_done h (if_pos hnew), if_pos hnew]
  · rw [execFaultAck, ampExec_done h (if_neg hnew), if_neg hnew]

/-! ## Scrubs (R434 to R436) -/

theorem execScrubRange_opens (h : s.ampTurnOf mb 0x0603 j) (hst : s.scrubSt (scrubOf j.payload) = St.ok) (hops : s.amp.openOps < 16)
    (hfree : (s.faults.scrubs.any fun y => y.space == (scrubOf j.payload).space) = false) : execScrubRange mb s = .next
      (((s.opened (.scrub (scrubOf j.payload).space)).modFaults fun f => { f with
        scrubs := f.scrubs ++ [{ scrubOf j.payload with op := s.amp.nextOp, began := s.hdCount }] }).ampDone mb St.ok
          (leBytes 4 s.amp.nextOp)) := by
  refine congrArg _ (ampExec_done h ?_)
  simp only [scrubRange, hst, ne_eq, not_true_eq_false, hfree, Bool.false_eq_true, if_false]
  exact ampLong_opens _ _ hops

theorem execScrubRange_busy (h : s.ampTurnOf mb 0x0603 j) (hst : s.scrubSt (scrubOf j.payload) = St.ok)
    (hbusy : (s.faults.scrubs.any fun y => y.space == (scrubOf j.payload).space) = true) :
    execScrubRange mb s = .next (s.ampDone mb St.busy []) := by
  refine congrArg _ (ampExec_done h ?_)
  simp only [scrubRange, hst, ne_eq, not_true_eq_false, hbusy, if_true, if_false]
  rfl

end Message

/-- A scrub of a stack that nothing is reported of, where no word is bad, finds nothing and changes nothing. -/
theorem State.scrubStack_clean {s : State} (x : Scrub) (hpoison : s.poison = []) :
    s.scrubStack x [] [] = (s, { checked := x.len, corrected := 0, bad := [], repaired := 0 }) := by
  have hbad : s.badWords x [] = [] := by simp [State.badWords, hpoison]
  simp [State.scrubStack, hbad]

theorem execScrubDone_clean {s : State} {op : Nat} {x : Scrub} (eus : List Nat) (hscrubs : s.faults.scrubs = [x]) (hop : x.op = op)
    (hspace : x.space = 0) (hs : s.serving = true) (hpoison : s.poison = []) : execScrubDone op [] [] eus s = .next
      ((s.modFaults fun f => { f with
        scrubs := [], summaries := Tab.put f.summaries op (ScrubSum.bytes { checked := x.len } (s.hdCount - x.began)) }).opDone op St.ok) := by
  simp only [execScrubDone, hscrubs, List.find?_cons, hop, BEq.rfl, hs, Bool.not_true, Bool.false_eq_true, if_false, hspace,
    State.scrubStack_clean x hpoison]
  simp only [State.modFaults, hscrubs, List.filter_cons, List.filter_nil, hop, bne_self_eq_false, Bool.false_eq_true, if_false]

/-! ## Retirement (R437) -/

section Retire
variable {s : State} {mb : Fin 3} {j : AmpJob} (h : s.ampTurnOf mb 0x0604 j) (spare : Bool)
include h

theorem execRetire_row {k : Nat} (hkind : fieldAt j.payload 0 1 = 0) (hplace : place (fieldAt j.payload 8 8) = .hbm k)
    (hdie : s.dieLost k = false) (hnew : s.faults.hbmRepaired.contains (fieldAt j.payload 8 8 / 1024) = false) :
    execRetire mb spare s = .next (if spare then
      (s.modFaults fun f => { f with hbmRepaired := f.hbmRepaired ++ [fieldAt j.payload 8 8 / 1024] }).ampDone mb St.ok []
      else s.ampDone mb St.noSpace []) := by
  cases spare
  all_goals
    refine congrArg _ (ampExec_done h ?_)
    simp only [retire, hkind, hplace, hdie, hnew, Bool.false_eq_true, if_true, if_false]
    rfl

theorem execRetire_bank {g b o : Nat} (hkind : fieldAt j.payload 0 1 = 1) (hplace : place (fieldAt j.payload 8 8) = .sp g b o)
    (hb : b < 24) (hoff : (s.cluster g).bank b = .off) : execRetire mb spare s = .next
      (((s.modCl g fun c => c.setBank b .retired).modFaults fun f => { f with lost := f.lost ++ [.bank g b] }).ampDone mb St.ok []) := by
  refine congrArg _ (ampExec_done h ?_)
  simp only [retire, hkind, hplace, State.retireBank_off hb hoff, if_true]
  rfl

/-- A unit that is neither retired nor failed is marked to be emptied. -/
theorem execRetire_eu (hkind : fieldAt j.payload 0 1 = 2) (hch : fieldAt j.payload 8 8 / 2 ^ 32 < 32)
    (halign : fieldAt j.payload 8 8 % 2 ^ 32 % 2048 = 0) (hpage : fieldAt j.payload 8 8 % 2 ^ 32 < 2 ^ 30)
    (htarget : pgTarget (fieldAt j.payload 8 8 % 2 ^ 32) < s.part.targets) (hblock : pgBlock (fieldAt j.payload 8 8 % 2 ^ 32) < 3640)
    (hretired : s.ftl.eu (euOf (s.part.slotOf (fieldAt j.payload 8 8 / 2 ^ 32) (fieldAt j.payload 8 8 % 2 ^ 32))) ≠ .retired)
    (hfailed : ∀ n, s.ftl.eu (euOf (s.part.slotOf (fieldAt j.payload 8 8 / 2 ^ 32) (fieldAt j.payload 8 8 % 2 ^ 32))) ≠ .failed n) :
    execRetire mb spare s = .next ((s.modFtl fun f =>
      f.setEu (euOf (s.part.slotOf (fieldAt j.payload 8 8 / 2 ^ 32) (fieldAt j.payload 8 8 % 2 ^ 32))) (.failed 2)).ampDone mb St.ok []) := by
  have hform : ¬ (fieldAt j.payload 8 8 / 2 ^ 39 ≠ 0 ∨ fieldAt j.payload 8 8 % 2 ^ 32 % 2048 ≠ 0
      ∨ 2 ^ 30 ≤ fieldAt j.payload 8 8 % 2 ^ 32) := by omega
  have hrange : ¬ (32 ≤ fieldAt j.payload 8 8 / 2 ^ 32 ∨ s.part.targets ≤ pgTarget (fieldAt j.payload 8 8 % 2 ^ 32)
      ∨ 3647 < pgBlock (fieldAt j.payload 8 8 % 2 ^ 32)) := by omega
  refine congrArg _ (ampExec_done h ?_)
  simp only [retire, hkind, hform, hrange, hblock.not_ge, if_false]
  rfl

end Retire

/-- Settles O36, message by message. -/
theorem faultMessagesAct : Obligations.FaultMessagesAct := by
  refine ⟨?read, ?ack, ?scrub, ?scrubBusy, ?scrubDone, ?row, ?bank, ?eu⟩
  case read =>
    intro s mb j l h hlo hhi hl
    refine ⟨s.faultNext l, congrArg _ (ampExec_done h (faultRead_answers hlo hhi hl)), fun e => State.faultNext_last, ?_⟩
    rintro rfl
    rfl
  case ack => exact fun s mb j h => execFaultAck_turn h
  case scrub => exact fun s mb j h hst hops hfree => execScrubRange_opens h hst hops hfree
  case scrubBusy => exact fun s mb j h hst hbusy => execScrubRange_busy h hst hbusy
  case scrubDone => exact fun s op eus x hscrubs hop hspace hs hpoison => execScrubDone_clean eus hscrubs hop hspace hs hpoison
  case row => exact fun s mb j spare k h hkind hplace hdie hnew => execRetire_row h spare hkind hplace hdie hnew
  case bank => exact fun s mb j spare g b o h hkind hplace hb hoff => execRetire_bank h spare hkind hplace hb hoff
  case eu =>
    rintro s mb j spare a e h hkind rfl hch halign hpage htarget hblock rfl hretired hfailed
    exact execRetire_eu h spare hkind hch halign hpage htarget hblock hretired hfailed

end Sys2Proof.Machine
end

section
/-! The boot sequence (spec/21 R458, R460, R465, R466): O14. -/

namespace Sys2Proof.Machine

/-! ## The steps before the image -/

theorem State.samplePins_sec (s : State) (strap : Bool) : (s.samplePins strap).sec = s.sec := by
  unfold State.samplePins
  dsimp only
  split <;> rfl

theorem State.samplePins_fabric (s : State) (strap : Bool) : (s.samplePins strap).fabric = s.fabric := by
  unfold State.samplePins
  dsimp only
  split <;> rfl

theorem State.trainPort_sec (s : State) (fn : Nat) : (s.trainPort fn).sec = s.sec :=
  (State.trainPort_runs (W := [.host]) (by decide) (Runs.refl _ s) fn).frame.sec.resolve_left (by decide)

theorem State.trainPort_fabric (s : State) (fn : Nat) : (s.trainPort fn).fabric = s.fabric :=
  (State.trainPort_runs (W := [.host]) (by decide) (Runs.refl _ s) fn).frame.fabric.resolve_left (by decide)

/-- Steps 2 and 3: the records are read and the ports train. -/
def State.bootRead (s : State) : State := ((s.modSec Sec.readRecords).trainPort 0).trainPort 1

theorem State.bootRead_sec (s : State) : s.bootRead.sec = s.sec.readRecords := by
  rw [State.bootRead, State.trainPort_sec, State.trainPort_sec, State.modSec_sec]

theorem State.bootRead_fabric (s : State) : s.bootRead.fabric = s.fabric := by
  rw [State.bootRead, State.trainPort_fabric, State.trainPort_fabric, State.modSec_fabric]

/-! ## The image (R460, R465, R466) -/

theorem State.bootSteps_refused {s : State} {r : Nat} (lostT : List (Nat × Nat)) (h : s.sec.readRecords.image = .error r) :
    s.bootSteps lostT = s.bootRead.enterRecovery r := by
  rw [← State.bootRead_sec] at h
  show (match s.bootRead.sec.image with
    | .error r => _
    | .ok h => _) = _
  rw [h]
  rfl

theorem State.bootSteps_good {s : State} {h : Bytes} (lostT : List (Nat × Nat)) (himage : s.sec.readRecords.image = .ok h) :
    s.bootSteps lostT = (((s.bootRead.modSec fun x => x.runImage h).startKeepers).bringUpMedia lostT).configure := by
  rw [← State.bootRead_sec] at himage
  show (match s.bootRead.sec.image with
    | .error r => _
    | .ok h => _) = _
  rw [himage]
  rfl

theorem State.enterRecovery_sec (s : State) (r : Nat) :
    (s.enterRecovery r).sec = { s.sec with phase := .recovery, lastReason := r } := rfl

theorem State.enterRecovery_cfs (s : State) (r : Nat) :
    (s.enterRecovery r).host.c0.cfs = true ∧ (s.enterRecovery r).host.c1.cfs = true := ⟨rfl, rfl⟩

theorem State.startKeepers_sec (s : State) : s.startKeepers.sec = { s.sec with phase := .starting, startedAt := s.hdCount } := rfl

theorem State.bringUpMedia_sec (s : State) (lostT : List (Nat × Nat)) : (s.bringUpMedia lostT).sec = s.sec :=
  (State.bringUpMedia_runs (W := [.memory, .faults, .media]) (by decide) (by decide) (by decide) (Runs.refl _ s)
    lostT).frame.sec.resolve_left (by decide)

/-- Step 7 chooses the configuration record and Held, and forgets failed boots in Held. -/
theorem State.configure_sec (s : State) :
    ∃ c r b, s.configure.sec = { s.sec with held := c, config := r, failedBoots := b } := by
  unfold State.configure
  generalize (if s.sec.held = 3 then (3, none) else s.selectConfig) = p
  obtain ⟨c, r⟩ := p
  dsimp only
  split
  · exact ⟨c, r, s.sec.failedBoots, rfl⟩
  · exact ⟨c, r, 0, by rw [State.post_sec]; rfl⟩

/-! ## The command -/

theorem execBoot_refused {s : State} {r : Nat} (strap : Bool) (lostT : List (Nat × Nat)) (eus : List Nat) (ms : Nat)
    (hdue : s.bootDue = true) (h : s.sec.readRecords.image = .error r) :
    execBoot true strap lostT eus ms s = .next ((s.samplePins strap).bootRead.enterRecovery r) := by
  rw [← State.samplePins_sec s strap] at h
  have hphase : ¬ (((s.samplePins strap).bootRead.enterRecovery r).sec.phase = .starting
      ∧ ((s.samplePins strap).bootRead.enterRecovery r).ftl.dumpDue = true) := fun hp => by
    rw [State.enterRecovery_sec] at hp
    exact nomatch hp.1
  simp only [execBoot, hdue, Bool.not_true, Bool.false_eq_true, if_false, State.bootSteps_refused lostT h, if_neg hphase]

theorem execBoot_good {s : State} {strap : Bool} {lostT : List (Nat × Nat)} (eus : List Nat) (ms : Nat)
    (hdue : s.bootDue = true) (hdump : ((s.samplePins strap).bootSteps lostT).ftl.dumpDue = false) :
    execBoot true strap lostT eus ms s = .next ((s.samplePins strap).bootSteps lostT) := by
  simp only [execBoot, hdue, hdump, Bool.not_true, Bool.false_eq_true, and_false, if_false]

/-- Settles O14: the step of the ROM at which the boot ends. -/
theorem bootRunsTheStepsOfTheRom : Obligations.BootRunsTheStepsOfTheRom := by
  refine ⟨?dead, ?refused, ?good⟩
  case dead =>
    intro s strap lostT eus ms hdue
    rw [exec_boot, execBoot, if_neg (by simp [hdue]), if_pos (by decide)]
  case refused =>
    intro s strap lostT eus ms r hdue himage
    refine ⟨_, execBoot_refused strap lostT eus ms hdue himage, rfl, rfl, rfl, rfl, ?_, ?_⟩
    · rw [State.enterRecovery_sec, State.bootRead_sec, State.samplePins_sec]
      exact Sec.readRecords_counter _
    · rw [State.enterRecovery_sec, State.bootRead_sec, State.samplePins_sec]
      exact Sec.readRecords_revoked _
  case good =>
    intro s strap lostT eus ms h hdue himage hdump
    refine ⟨_, execBoot_good eus ms hdue hdump, ?_⟩
    rw [← State.samplePins_sec s strap] at himage
    rw [State.bootSteps_good lostT himage]
    obtain ⟨c, r, b, hsec⟩ := State.configure_sec
      (((((s.samplePins strap).bootRead.modSec fun x => x.runImage h).startKeepers).bringUpMedia lostT))
    rw [hsec, State.bringUpMedia_sec, State.startKeepers_sec, State.modSec_sec, State.bootRead_sec, State.samplePins_sec]
    refine ⟨rfl, ?_, rfl, ?_, rfl, rfl, rfl⟩
    · show (s.samplePins strap).bootRead.fabric.hd.now = s.fabric.hd.now
      rw [State.bootRead_fabric, State.samplePins_fabric]
    · show max s.sec.readRecords.counter _ = _
      rw [Sec.readRecords_counter]

end Sys2Proof.Machine
end

section
/-! The ready report of the keepers (spec/21 R461): O15. -/

namespace Sys2Proof.Machine

/-! ## Ready -/

@[simp] theorem Amp.setMb_objects (a : Amp) (k : Nat) (m : Mbox) : (a.setMb k m).objects = a.objects := by
  match k with
  | 0 | 1 | _ + 2 => rfl

theorem State.eventEdge_objects (s : State) (k : Nat) (was : Bool) : (s.eventEdge k was).amp.objects = s.amp.objects := by
  unfold State.eventEdge
  dsimp only
  split
  · rfl
  · split
    · split
      · unfold State.signal
        split <;> rfl
      · rfl
    · rfl

theorem State.postTo_objects (s : State) (k : Nat) (e : Event) : (s.postTo k e).amp.objects = s.amp.objects := by
  unfold State.postTo
  dsimp only
  split
  · rw [State.eventEdge_objects, State.modMb, State.modAmp_amp, Amp.setMb_objects]
  · rfl

/-- An event leaves the catalogue alone. -/
theorem State.post_objects (s : State) (c k : Nat) (d : Bytes) : (s.post c k d).amp.objects = s.amp.objects := by
  unfold State.post
  dsimp only
  rw [State.postTo_objects, State.postTo_objects, State.postTo_objects]

theorem State.postRestarted_objects (s : State) : s.postRestarted.amp.objects = s.amp.objects := by
  unfold State.postRestarted
  split
  · rw [State.used_amp, State.post_objects]
  · rfl

theorem State.postRestarted_sec (s : State) : s.postRestarted.sec = s.sec :=
  (State.postRestarted_runs (W := [.free, .fabric, .amp]) (by decide) (by decide) (by decide) (Runs.refl _ s)).frame.sec.resolve_left
    (by decide)

theorem State.powerAnswer_objects (s : State) : s.powerAnswer.amp.objects = s.amp.objects := by
  unfold State.powerAnswer
  split <;> rfl

theorem State.powerAnswer_frame (s : State) : Frame [.amp] s s.powerAnswer := (State.powerAnswer_runs (by decide) (Runs.refl _ s)).frame

/-- The module goes into service: step 9 has run, or waits for a configuration record in Held (R460, R461). -/
def State.enterService (s : State) : State :=
  (((if s.sanitizeHolds then s else s.raiseReady).postRestarted).modPower fun p => { p with cause := .other }).powerAnswer

/-- Going into service leaves the security state and the catalogue as they are. -/
theorem State.enterService_keeps (s : State) :
    s.enterService.sec = s.sec ∧ s.enterService.amp.objects = s.amp.objects ∧ s.enterService.power.cause = .other := by
  have hready : (if s.sanitizeHolds then s else s.raiseReady).sec = s.sec
      ∧ (if s.sanitizeHolds then s else s.raiseReady).amp = s.amp := by
    split <;> exact ⟨rfl, rfl⟩
  obtain ⟨hsec, hamp⟩ := hready
  refine ⟨?_, ?_, ?_⟩
  · rw [State.enterService, (State.powerAnswer_frame _).sec.resolve_left (by decide), State.modPower_sec, State.postRestarted_sec, hsec]
  · rw [State.enterService, State.powerAnswer_objects, State.modPower_amp, State.postRestarted_objects, hamp]
  · rw [State.enterService, (State.powerAnswer_frame _).power.resolve_left (by decide), State.modPower_power]

section
variable {s : State} (eus bad lost : List Nat) (places : Tab (List (Nat × Nat) × List Nat)) (hphase : s.sec.phase = .starting)
  (hs : s.alive = true) (htime : s.hdCount ≤ s.sec.startedAt + 5000000) (hdiscard : s.ftl.discard = none)
include hphase hs htime hdiscard

theorem execKeeperReady_eq : execKeeperReady eus bad lost places s = .next
    (match if s.isHeld then some ((s.modSec fun x => { x with phase := .running }).setGather false)
      else (((s.modSec fun x => { x with phase := .running }).setGather false).modSec fun x => { x with failedBoots := 0 }).openUp
        lost places with
    | none => s
    | some u => u.enterService) := by
  have hfinish : s.finishDiscard eus bad = s := by rw [State.finishDiscard, hdiscard]
  have hready : (s.sec.phase != .starting || !s.alive || decide (s.sec.startedAt + 5000000 < s.hdCount) || s.ftl.discard.isSome)
      = false := by simp [hphase, hs, hdiscard, htime]
  simp only [execKeeperReady, hfinish, hready, Bool.false_eq_true, if_false]
  rfl

theorem execKeeperReady_open {u : State} (hheld : s.sec.held = 0)
    (hopen : (((s.modSec fun x => { x with phase := .running }).setGather false).modSec fun x => { x with failedBoots := 0 }).openUp
      lost places = some u) : execKeeperReady eus bad lost places s = .next u.enterService := by
  have hfree : s.isHeld = false := by simp [State.isHeld, hheld]
  rw [execKeeperReady_eq eus bad lost places hphase hs htime hdiscard, hfree, if_neg (by decide), hopen]

theorem execKeeperReady_held (hheld : s.sec.held ≠ 0) : execKeeperReady eus bad lost places s =
    .next ((s.modSec fun x => { x with phase := .running }).setGather false).enterService := by
  have hin : s.isHeld = true := by simp [State.isHeld, hheld]
  rw [execKeeperReady_eq eus bad lost places hphase hs htime hdiscard, hin, if_pos rfl]

end

/-! ## Not ready in time -/

/-- What a restart makes of the security state: the records, the fuses and the count of failed boots stay. -/
theorem State.lose_sec (s : State) (ebony : Bool) : (s.lose ebony).sec = { s.sec with
    phase := .off, held := 0, config := none, stage := none, verifyOp := none, commitOp := none, rebootAt := none
    wrap0 := none, wrap1 := none, wrap2 := none } := by
  have hruns : Runs [.free, .media, .ftl, .tiers, .index, .tokens, .sel, .pipes, .span, .upd] s
      ((((s.restartMedia ebony).modFtl Ftl.restart).modTiers fun t => t.restart ebony).restartIndexes.restartEngines ebony) := by
    refine State.restartEngines_runs (by decide) (by decide) (by decide) (by decide) (by decide) ?_ ebony
    refine State.restartIndexes_runs (by decide) (by decide) (by decide) ?_
    exact State.modTiers_runs (by decide) (State.modFtl_runs (by decide)
      (State.restartMedia_runs (by decide) (by decide) (Runs.refl _ s) ebony) _) _
  have hsec := hruns.frame.sec.resolve_left (by decide)
  simp only [State.lose, State.modMgmt_sec, State.modPower_sec, State.modSec_sec, State.modFabric_sec, State.modFaults_sec,
    State.modAmp_sec, State.modHost_sec, hsec]

section
variable {s : State} (hphase : s.sec.phase = .starting) (hs : s.alive = true) (htime : s.sec.startedAt + 5000000 ≤ s.hdCount)
include hphase hs htime

theorem execKeeperReadyTimeout_again (hfailed : s.sec.failedBoots < 2) :
    execKeeperReadyTimeout s = .next (s.modSec fun x => { x with failedBoots := x.failedBoots + 1 }).reboot := by
  have hless : s.sec.failedBoots + 1 < 3 := by omega
  simp [execKeeperReadyTimeout, hphase, hs, htime, hless]

theorem execKeeperReadyTimeout_third (hfailed : 2 ≤ s.sec.failedBoots) : execKeeperReadyTimeout s = .next
    ((((s.modSec fun x => { x with failedBoots := x.failedBoots + 1 }).reboot.trainPort 0).trainPort 1).enterRecovery 6) := by
  have hmore : ¬ s.sec.failedBoots + 1 < 3 := by omega
  simp [execKeeperReadyTimeout, hphase, hs, htime, hmore]

end

/-- Settles O15: ready outside Held, ready in Held, late, late for the third time. -/
theorem keepersReportReadyOrTheRomBootsAgain : Obligations.KeepersReportReadyOrTheRomBootsAgain := by
  refine ⟨?ready, ?held, ?late, ?third⟩
  case ready =>
    intro s eus bad lost places u hphase hs htime hdiscard hheld hopen
    obtain ⟨hsec, hobjects, hcause⟩ := u.enterService_keeps
    exact ⟨_, execKeeperReady_open eus bad lost places hphase hs htime hdiscard hheld hopen, by rw [hsec], by rw [hsec], hobjects, hcause⟩
  case held =>
    intro s eus bad lost places hphase hs htime hdiscard hheld
    obtain ⟨hsec, hobjects, hcause⟩ := ((s.modSec fun x => { x with phase := .running }).setGather false).enterService_keeps
    exact ⟨_, execKeeperReady_held eus bad lost places hphase hs htime hdiscard hheld, by rw [hsec]; rfl, hcause, by rw [hsec]; rfl, hobjects⟩
  case late =>
    intro s hphase hs htime hfailed
    refine ⟨_, execKeeperReadyTimeout_again hphase hs htime hfailed, ?_, ?_, rfl⟩
    · rw [State.reboot, State.modPower_sec, State.lose_sec]
    · rw [State.reboot, State.modPower_sec, State.lose_sec, State.modSec_sec]
  case third =>
    intro s hphase hs htime hfailed
    exact ⟨_, execKeeperReadyTimeout_third hphase hs htime hfailed, rfl, rfl⟩

end Sys2Proof.Machine
end

section
/-! Firmware (spec/21 R463 to R466): O38. -/

namespace Sys2Proof.Machine

/-! ## Staging (R464) -/

/-- Neither a verification nor a commit is under way. -/
theorem Sec.idle_firmware {x : Sec} (hverify : x.verifyOp = none) (hcommit : x.commitOp = none) :
    (x.verifyOp.isSome || x.commitOp.isSome) = false := by
  rw [hverify, hcommit]
  rfl

section Message
variable {s : State} {mb : Fin 3} {j : AmpJob} (hverify : s.sec.verifyOp = none) (hcommit : s.sec.commitOp = none)
include hverify hcommit

theorem execFwStage_first (h : s.ampTurnOf mb 0x0801 j) (hoff : fieldAt j.payload 0 4 = 0)
    (hsize : (j.payload.drop 16).length ≤ fieldAt j.payload 4 4) : execFwStage mb s = .next
      ((s.modSec fun x => { x with stage := some { size := fieldAt j.payload 4 4, data := j.payload.drop 16 } }).ampDone mb St.ok []) := by
  refine congrArg _ (ampExec_done h ?_)
  simp only [fwStage, Sec.idle_firmware hverify hcommit, Bool.false_eq_true, if_false, hoff, if_true, List.length_nil, Nat.zero_add,
    hsize.not_gt, List.nil_append]
  rfl

theorem execFwStage_gap {g : Staging} (h : s.ampTurnOf mb 0x0801 j) (hstage : s.sec.stage = some g) (hoff : fieldAt j.payload 0 4 ≠ 0)
    (hgap : fieldAt j.payload 0 4 ≠ g.data.length) : execFwStage mb s = .next (s.ampDone mb St.badLength []) := by
  have hgap' : ¬ (g.data.length = fieldAt j.payload 0 4 ∧ g.size = fieldAt j.payload 4 4) := fun hg => hgap hg.1.symm
  refine congrArg _ (ampExec_done h ?_)
  simp only [fwStage, Sec.idle_firmware hverify hcommit, Bool.false_eq_true, if_false, hoff, hstage, hgap']
  rfl

/-! ## Verification and commit (R465) -/

theorem execFwVerify_opens (h : s.ampTurnOf mb 0x0802 j) (hops : s.amp.openOps < 16) : execFwVerify mb s = .next
    (((s.opened .fwVerify).modSec fun x => { x with verifyOp := some s.amp.nextOp }).ampDone mb St.ok (leBytes 4 s.amp.nextOp)) := by
  refine congrArg _ (ampExec_done h ?_)
  simp only [fwVerify, Sec.idle_firmware hverify hcommit, Bool.false_eq_true, if_false]
  exact ampLong_opens _ _ hops

theorem execFwCommit_unverified {g : Staging} (h : s.ampTurnOf mb 0x0803 j) (hstage : s.sec.stage = some g) (hg : g.verified = false) :
    execFwCommit mb s = .next (s.ampDone mb St.noObject []) := by
  refine congrArg _ (ampExec_done h ?_)
  simp only [fwCommit, Sec.idle_firmware hverify hcommit, Bool.false_eq_true, if_false, hstage, hg]
  rfl

theorem execFwCommit_opens {g : Staging} (h : s.ampTurnOf mb 0x0803 j) (hstage : s.sec.stage = some g) (hg : g.verified = true)
    (hops : s.amp.openOps < 16) : execFwCommit mb s = .next
      (((s.opened .fwCommit).modSec fun x => { x with commitOp := some s.amp.nextOp, slot := .torn }).ampDone mb St.ok
        (leBytes 4 s.amp.nextOp)) := by
  refine congrArg _ (ampExec_done h ?_)
  simp only [fwCommit, Sec.idle_firmware hverify hcommit, Bool.false_eq_true, if_false, hstage, hg, if_true]
  exact ampLong_opens _ _ hops

end Message

theorem execFwVerifyDone_ends {s : State} {op : Nat} (hverify : s.sec.verifyOp = some op) (hs : s.mailOn = true) :
    execFwVerifyDone s = .next ((s.modSec fun x => { x with
      verifyOp := none, stage := x.stage.map fun g => { g with verified := decide (s.sec.verifySt = St.ok) } }).opDone op
        s.sec.verifySt) := by
  simp only [execFwVerifyDone, hverify, hs, Bool.not_true, Bool.false_eq_true, if_false]

theorem State.opDone_sec (s : State) (op st : Nat) : (s.opDone op st).sec = s.sec :=
  (State.opDone_runs (W := [.fabric, .amp]) (by decide) (by decide) (Runs.refl _ s) op st).frame.sec.resolve_left (by decide)

section
variable {s : State} {op : Nat} {g : Staging} (hcommit : s.sec.commitOp = some op) (hstage : s.sec.stage = some g) (hs : s.mailOn = true)
include hcommit hstage hs

theorem execFwCommitDone_verifies : execFwCommitDone true s = .next ((s.modSec fun x => { x with
    commitOp := none, slot := .image g.data
    rebootAt := if x.phase = .recovery then some (s.hdCount + 100000) else x.rebootAt }).opDone op St.ok) := by
  simp only [execFwCommitDone, hcommit, hstage, hs, Bool.not_true, Bool.false_eq_true, if_false, if_true]

theorem execFwCommitDone_fails :
    execFwCommitDone false s = .next ((s.modSec fun x => { x with commitOp := none }).opDone op St.badDigest) := by
  simp only [execFwCommitDone, hcommit, hstage, hs, Bool.not_true, Bool.false_eq_true, if_false]

end

theorem execRecoveryReboot_due {s : State} (hdue : s.rebootDue = true) (hphase : s.sec.phase = .recovery) :
    execRecoveryReboot s = .next s.reboot := by
  rw [execRecoveryReboot, if_pos (by simp [hdue, hphase])]

/-- Settles O38: staging, verification, commit and the restart after it. -/
theorem firmwareIsStagedVerifiedCommitted : Obligations.FirmwareIsStagedVerifiedCommitted := by
  refine ⟨?first, ?gap, ?verify, ?verified, ?unverified, ?commit, ?committed, ?reboot⟩
  case first => exact fun s mb j h hverify hcommit hoff hsize => execFwStage_first hverify hcommit h hoff hsize
  case gap => exact fun s mb j g h hverify hcommit hstage hoff hgap => execFwStage_gap hverify hcommit h hstage hoff hgap
  case verify => exact fun s mb j h hverify hcommit hops => execFwVerify_opens hverify hcommit h hops
  case verified => exact fun s op hverify hs => execFwVerifyDone_ends hverify hs
  case unverified => exact fun s mb j g h hverify hcommit hstage hg => execFwCommit_unverified hverify hcommit h hstage hg
  case commit => exact fun s mb j g h hverify hcommit hstage hg hops => execFwCommit_opens hverify hcommit h hstage hg hops
  case committed =>
    intro s op g ok hcommit hstage hs
    cases ok with
    | true =>
      refine ⟨_, execFwCommitDone_verifies hcommit hstage hs, ?_⟩
      rw [State.opDone_sec, State.modSec_sec]
      exact ⟨rfl, rfl, fun _ hphase => if_pos hphase⟩
    | false =>
      refine ⟨_, execFwCommitDone_fails hcommit hstage hs, ?_⟩
      rw [State.opDone_sec, State.modSec_sec]
      exact ⟨rfl, rfl, nofun⟩
  case reboot => exact fun s hdue hphase => execRecoveryReboot_due hdue hphase

end Sys2Proof.Machine
end

section
/-! Partitions and power messages (spec/15 R344, R345; spec/20 R446, R453, R454): O35. -/

namespace Sys2Proof.Machine

/-! ## PART_SET and PART_READ (R343 to R345) -/

section Partitions
variable {s : State} {mb : Fin 3} {j : AmpJob} {x : Partition}

theorem execPartSet_deletes (h : s.ampTurnOf mb 0x0401 j) (hn : fieldAt j.payload 0 1 ≤ 127)
    (hdelete : bit (fieldAt j.payload 1 1) 0 = true) (hx : s.part? (fieldAt j.payload 0 1) = some x) : execPartSet mb s = .next
      (if s.partInUse (fieldAt j.payload 0 1) x then s.ampDone mb St.busy []
        else ((s.letGo x.mask 0).modSched fun c => { c with parts := Tab.del c.parts (fieldAt j.payload 0 1) }).ampDone mb St.ok []) := by
  cases huse : s.partInUse (fieldAt j.payload 0 1) x
  all_goals
    refine congrArg _ (ampExec_done h ?_)
    simp only [partSet, hn.not_gt, hdelete, hx, huse, Bool.false_eq_true, if_true, if_false]
    rfl

/-- A partition that gives up no cluster holds none of them. -/
theorem State.letGo_none (s : State) (new : Nat) : s.letGo 0 new = s := by
  have hempty : ((List.range 128).filter fun g => bit 0 g && !bit new g) = [] := by simp [bit]
  rw [State.letGo, hempty]
  rfl

/-- The first partition is made as it is asked for, every live cluster of it to be cleared (R262, R345). -/
theorem partApply_first {p : Bytes} (n : Nat) (hweights : psWeightsBad p = false) (hwindows : psWindowsBad p = false)
    (hmask : fieldAt p 8 16 ≠ 0) (hparts : s.sched.parts = []) : partApply p n s = ampAnswer
      ((s.modSched fun c => { c with parts := Tab.put c.parts n { Partition.weights {} p with
        tenant := fieldAt p 4 4, mask := fieldAt p 8 16, hbm := psWindows p
        toClear := s.liveMask (fieldAt p 8 16) } }).dispatchPoint n) [] := by
  have hnone : s.part? n = none := by rw [State.part?, hparts]; rfl
  have hgood : (psWeightsBad p || psWindowsBad p || fieldAt p 8 16 == 0) = false := by simp [hweights, hwindows, hmask]
  simp only [partApply, hnone, hgood, hparts, List.any_nil, Bool.false_eq_true, if_false, if_true]
  rw [show (Option.getD none ({} : Partition)).mask = 0 from rfl, State.letGo_none]
  rfl

theorem execPartSet_makes (h : s.ampTurnOf mb 0x0401 j) (hn : fieldAt j.payload 0 1 ≤ 127)
    (hdelete : bit (fieldAt j.payload 1 1) 0 = false) (honly : bit (fieldAt j.payload 1 1) 1 = false)
    (hweights : psWeightsBad j.payload = false) (hwindows : psWindowsBad j.payload = false) (hmask : fieldAt j.payload 8 16 ≠ 0)
    (hparts : s.sched.parts = []) : execPartSet mb s = .next
      (((s.modSched fun c => { c with parts := Tab.put c.parts (fieldAt j.payload 0 1) { Partition.weights {} j.payload with
        tenant := fieldAt j.payload 4 4, mask := fieldAt j.payload 8 16, hbm := psWindows j.payload
        toClear := s.liveMask (fieldAt j.payload 8 16) } }).dispatchPoint (fieldAt j.payload 0 1)).ampDone mb St.ok []) := by
  refine congrArg _ (ampExec_done h ?_)
  simp only [partSet, hn.not_gt, hdelete, honly, Bool.false_eq_true, if_false]
  exact partApply_first _ hweights hwindows hmask hparts

theorem execPartRead_answers (h : s.ampTurnOf mb 0x0402 j) (hn : fieldAt j.payload 0 1 ≤ 127)
    (hx : s.part? (fieldAt j.payload 0 1) = some x) :
    execPartRead mb s = .next (s.ampDone mb St.ok (s.partStats (fieldAt j.payload 0 1) x)) := by
  refine congrArg _ (ampExec_done h ?_)
  simp only [partRead, hn.not_gt, hx, if_false]
  rfl

end Partitions

/-! ## POWER_SET, POWER_READ and the governor (R446, R453, R454) -/

section Power
variable {s : State} {mb : Fin 3} {j : AmpJob}

theorem execPowerSet_reserved (h : s.ampTurnOf mb 0x0501 j) (hlow : 5 < fieldAt j.payload 0 1) (hhigh : fieldAt j.payload 0 1 ≠ 0xFF) :
    execPowerSet mb s = .next (s.ampDone mb St.unsupported []) :=
  congrArg _ (ampExec_done h (if_pos ⟨hlow, hhigh⟩))

theorem execPowerSet_noAux (h : s.ampTurnOf mb 0x0501 j) (hebony : fieldAt j.payload 0 1 = 5) (haux : s.mgmt.aux = false) :
    execPowerSet mb s = .next (s.ampDone mb St.unsupported []) := by
  refine congrArg _ (ampExec_done h ?_)
  simp only [powerSet, hebony, haux, Nat.lt_irrefl, false_and, and_self, if_false, if_true]
  rfl

/-- The operational state the module is in is taken and answered at once. -/
theorem execPowerSet_present (h : s.ampTurnOf mb 0x0501 j) (hlow : fieldAt j.payload 0 1 ≤ 1)
    (hnow : fieldAt j.payload 0 1 = s.power.ladder)
    (heffective : (s.modPower fun p => { p with target := fieldAt j.payload 0 1, woken := false }).effective = s.power.ladder) :
    execPowerSet mb s = .next ((s.modPower fun p => { p with target := fieldAt j.payload 0 1, woken := false }).ampDone mb St.ok
      (leBytes 1 s.power.ladder ++ [0, 0, 0])) := by
  have hreserved : ¬ 5 < fieldAt j.payload 0 1 := by omega
  have hnoAux : ¬ (fieldAt j.payload 0 1 = 5 ∧ s.mgmt.aux = false) := by omega
  have hloses : ¬ (bit (fieldAt j.payload 1 1) 0 ∧ (fieldAt j.payload 0 1 = 4 ∨ fieldAt j.payload 0 1 = 5) ∧ s.wouldLose) := by omega
  have hebony : s.power.ladder ≠ 5 := by omega
  have htarget : fieldAt j.payload 0 1 ≠ 0xFF := by omega
  refine congrArg _ (ampExec_done h ?_)
  simp only [powerSet, hreserved, hnoAux, hloses, hebony, htarget, false_and, if_false, if_true, ne_eq, not_false_eq_true,
    State.wake_operational (show s.power.ladder < 2 by omega)]
  exact if_pos heffective

theorem execWriteGovernor_turn (h : s.ampTurnOf mb 0x0503 j) : execWriteGovernor mb s = .next
    (if fieldAt j.payload 0 4 = 0 ∨ (100 ≤ fieldAt j.payload 0 4 ∧ fieldAt j.payload 0 4 ≤ 44000) then
      (s.modPower fun p => { p with governor := fieldAt j.payload 0 4 }).ampDone mb St.ok []
      else s.ampDone mb St.unsupported []) := by
  by_cases hrange : fieldAt j.payload 0 4 = 0 ∨ (100 ≤ fieldAt j.payload 0 4 ∧ fieldAt j.payload 0 4 ≤ 44000)
  · rw [if_pos hrange]
    exact congrArg _ (ampExec_done h (if_neg (by omega)))
  · rw [if_neg hrange]
    exact congrArg _ (ampExec_done h (if_pos (by omega)))

end Power

/-- Settles O35, message by message. -/
theorem partitionAndPowerMessagesAct : Obligations.PartitionAndPowerMessagesAct := by
  refine ⟨?delete, ?make, ?read, ?reserved, ?noAux, ?present, ?powerRead, ?governor⟩
  case delete => exact fun s mb j x h hn hdelete hx => execPartSet_deletes h hn hdelete hx
  case make =>
    rintro s mb j x h hn hdelete honly hweights hwindows hmask hparts rfl
    exact execPartSet_makes h hn hdelete honly hweights hwindows hmask hparts
  case read => exact fun s mb j x h hn hx => execPartRead_answers h hn hx
  case reserved => exact fun s mb j h hlow hhigh => execPowerSet_reserved h hlow hhigh
  case noAux => exact fun s mb j h hebony haux => execPowerSet_noAux h hebony haux
  case present => exact fun s mb j h hlow hnow heffective => execPowerSet_present h hlow hnow heffective
  case powerRead => exact fun s mb j h => ⟨_, rfl, congrArg _ (ampExec_done h rfl)⟩
  case governor => exact fun s mb j h => execWriteGovernor_turn h

end Sys2Proof.Machine
end

section
/-! Requests of the media ROM (spec/16 R365 to R375): O50. -/

namespace Sys2Proof.Machine

/-! ## A request in its turn (R365 to R368, R380) -/

section Take
variable {s : State} {ch ring op : Nat} {r : Bytes} (f : Bytes → State → State) (hs : s.alive = true)
  (hnext : s.nextRequest ch ring = some r) (hop : rqOp r = op)
include hs hnext hop

theorem mediaTake_refused {st : Nat} (hcheck : (s.dropRequest ch ring).mediaCheck ch ring r = some st) :
    mediaTake ch ring op f s = mediaRefuse ch ring r st (s.dropRequest ch ring) := by
  simp only [mediaTake, hs, hnext, hop, hcheck, Bool.not_true, Bool.false_eq_true, ne_eq, not_true_eq_false, if_false]

/-- A request that passes its checks does what it asks for, unless its target is lost or a flush stops it. -/
theorem mediaTake_taken (hcheck : (s.dropRequest ch ring).mediaCheck ch ring r = none)
    (hlost : ((s.dropRequest ch ring).chan ch).isLost r = false)
    (hflush : (s.dropRequest ch ring).media.flush = false ∨ op = 0) :
    mediaTake ch ring op f s = f r (s.dropRequest ch ring) := by
  have hflush' : ¬ ((s.dropRequest ch ring).media.flush = true ∧ op ≠ 0 ∧ op ≠ 1 ∧ ¬ rqUrgent r = true) := by
    rintro ⟨hf, h0, -⟩
    rcases hflush with hflush | hflush
    · rw [hflush] at hf
      cases hf
    · exact h0 hflush
  simp only [mediaTake, hs, hnext, hop, hcheck, hlost, hflush', Bool.not_true, Bool.false_eq_true, ne_eq, not_true_eq_false, and_false,
    if_false]

end Take

/-! ## The end of an operation (R369, R370, R375) -/

/-- What a change of a channel's ROM makes of it is all that matters of the change. -/
theorem State.modChan_congr {s : State} {ch : Nat} {f g : MChan → MChan} (h : f (s.chan ch) = g (s.chan ch)) :
    s.modChan ch f = s.modChan ch g := by
  simp only [State.modChan, State.modMedia, Tab.mod]
  rw [show f (Tab.get {} s.media.chans ch) = g (Tab.get {} s.media.chans ch) from h]

/-- What an operation that has ended leaves, by its kind. -/
def mediaDone (ch op : Nat) (o : MOp) (r : MediaRes) (s : State) : State :=
  match rqOp o.req with
  | 0 => readDone ch op o r s
  | 1 => marginDone ch op o r s
  | 2 => programDone ch op o r s
  | _ => eraseDone ch op o r s

section Complete
variable {s : State} {ch : Fin 32} {op : Nat} {r : MediaRes} {o : MOp} (hs : s.alive = true)
  (ho : Tab.find (s.chan ch).ops op = some o) (hrun : o.running = true)
include hs ho hrun

theorem execMediaOpComplete_ends : execMediaOpComplete ch op r s = .next (mediaPump ch (mediaResume ch (pgTarget (rqPage o.req))
    (mediaDone ch op o r s))) := by
  simp only [execMediaOpComplete, ho, hs, hrun, Bool.and_self, if_true]
  rfl

theorem execMediaOpComplete_read (hop : rqOp o.req = 0) : execMediaOpComplete ch op r s = .next
    (mediaPump ch (mediaResume ch (pgTarget (rqPage o.req)) (readDone ch op o r s))) := by
  rw [execMediaOpComplete_ends hs ho hrun]
  simp only [mediaDone, hop]

theorem execMediaOpComplete_programmed (hop : rqOp o.req = 2) (hr : r.result = 0) : execMediaOpComplete ch op r s = .next
    (mediaPump ch (mediaResume ch (pgTarget (rqPage o.req)) (mediaEnd ch op o {} 0
      ((writePages ch (rqPage o.req) o.writes s).modChan ch fun c => c.setBlock (pgBlk (rqPage o.req))
        (((writePages ch (rqPage o.req) o.writes s).chan ch |>.block (pgBlk (rqPage o.req))).programmed (rqSlc o.req)))))) := by
  rw [execMediaOpComplete_ends hs ho hrun]
  simp only [mediaDone, hop, programDone, hr, if_true]
  refine congrArg (fun x => Host.Outcome.next (mediaPump ch (mediaResume ch _ (mediaEnd ch op o {} 0 x)))) ?_
  exact State.modChan_congr rfl

theorem execMediaOpComplete_erased (hop : rqOp o.req = 3) (hr : r.result = 0) : execMediaOpComplete ch op r s = .next
    (mediaPump ch (mediaResume ch (pgTarget (rqPage o.req)) (mediaEnd ch op o {} 0
      ((s.fillBlock ch (pgBlk (rqPage o.req)) false).modChan ch fun c =>
        c.setBlock (pgBlk (rqPage o.req)) { state := openAs (rqSlc o.req) })))) := by
  rw [execMediaOpComplete_ends hs ho hrun]
  simp only [mediaDone, hop, eraseDone, hr, if_true]

theorem execMediaOpComplete_eraseFails (hop : rqOp o.req = 3) (hr : r.result ≠ 0) : execMediaOpComplete ch op r s = .next
    (mediaPump ch (mediaResume ch (pgTarget (rqPage o.req)) (mediaEnd ch op o { mresult := 2 } 0 (s.cutShort ch o.req)))) := by
  rw [execMediaOpComplete_ends hs ho hrun]
  simp only [mediaDone, hop, eraseDone, hr, if_false]

end Complete

/-- Settles O50: requests at their turn, then the ends of operations. -/
theorem mediaRequestsRun : Obligations.MediaRequestsRun := by
  refine ⟨?read, ?readRefused, ?refused, ?taken, ?programmed, ?erased, ?eraseFails, ?readEnds⟩
  case read => exact fun s ch ring r hs hnext hop hcheck hlost => congrArg _ (mediaTake_taken _ hs hnext hop hcheck hlost (.inr rfl))
  case readRefused => exact fun s ch ring r st hs hnext hop hcheck => congrArg _ (mediaTake_refused _ hs hnext hop hcheck)
  case refused =>
    rintro s _ ch r v st hs hnext hcheck rfl
    have hrefused (op : Nat) (f : Bytes → State → State) (hop : rqOp r = op) :
        (.next (mediaTake ch 0 op f s) : Out) = .next (mediaRefuse ch 0 r st (s.dropRequest ch 0)) :=
      congrArg _ (mediaTake_refused f hs hnext hop hcheck)
    exact ⟨hrefused 1 _, hrefused 2 _, hrefused 3 _, hrefused 4 _, hrefused 5 _, hrefused 6 _, hrefused 7 _, hrefused 8 _⟩
  case taken =>
    intro s ch r v hs hnext u hcheck hlost hflush
    have htaken (op : Nat) (f : Bytes → State → State) (hop : rqOp r = op) :
        (.next (mediaTake ch 0 op f s) : Out) = .next (f r u) :=
      congrArg _ (mediaTake_taken f hs hnext hop hcheck hlost (.inl hflush))
    exact ⟨htaken 1 _, htaken 2 _, htaken 3 _, htaken 4 _, htaken 5 _, htaken 6 _, htaken 7 _, htaken 8 _⟩
  case programmed => exact fun s ch op r o hs ho hrun hop hr => execMediaOpComplete_programmed hs ho hrun hop hr
  case erased => exact fun s ch op r o hs ho hrun hop hr => execMediaOpComplete_erased hs ho hrun hop hr
  case eraseFails => exact fun s ch op r o hs ho hrun hop hr => execMediaOpComplete_eraseFails hs ho hrun hop hr
  case readEnds => exact fun s ch op r o hs ho hrun hop => execMediaOpComplete_read hs ho hrun hop

end Sys2Proof.Machine
end

section
/-! Control of the media ROM (spec/16 R365 to R369, R373, R376, R377, R380; spec/19 R433): O51. -/

namespace Sys2Proof.Machine

/-! ## The rings (R366) -/

theorem ringTail_moves {head tail n : Nat} (ht : tail < 256) (hn : n ≤ (head + 255 - tail) % 256) :
    ringTail head tail (tail + n) = (tail + n) % 256 := if_pos (by omega)

theorem ringTail_passes {head tail n : Nat} (ht : tail < 256) (hn : (head + 255 - tail) % 256 < n) (hsmall : n < 256) :
    ringTail head tail (tail + n) = tail := if_neg (by omega)

/-! ## Targets that do not answer, time-outs, suspensions (R365, R369, R373, R377, R433) -/

theorem targetLost_lost {s : State} {ch t : Nat} (hs : s.alive = true) (hready : (s.chan ch).ready = false) (ht : t < s.part.targets)
    (hnew : bit (s.chan ch).lost t = false) :
    .target ch t ∈ (targetLost ch t s).faults.lost ∧ (targetLost ch t s).part = s.part := by
  simp only [targetLost, hs, hready, ht, hnew, Bool.not_false, decide_true, Bool.and_self, if_true]
  refine ⟨?_, by rw [State.modFaults_part, State.report_part]; rfl⟩
  rw [State.modFaults_faults]
  split
  case isTrue h => exact List.contains_iff_mem.mp h
  case isFalse => exact List.mem_append_right _ (List.mem_singleton.mpr rfl)

theorem execMediaTimeout_resets {s : State} {ch : Fin 32} {op : Nat} {o : MOp} {u : State} (hs : s.alive = true)
    (ho : Tab.find (s.chan ch).ops op = some o) (hrun : o.running = true)
    (hu : u = mediaEnd ch op o { mresult := 4 } 15 (((s.modChan ch fun c => { c with timeouts := satAdd 65535 c.timeouts 1 }).modFtl
      fun f => { f with timeouts := f.timeouts + 1 }).cutShort ch o.req)) :
    execMediaTimeout ch op s = .next (mediaPump ch (interruptAll ch (pgTarget (rqPage o.req)) (fun _ => true) (u.chan ch).ops u)) := by
  simp only [execMediaTimeout, ho, hs, hrun, Bool.and_self, if_true, hu]

/-- Settles O51. -/
theorem mediaRomIsControlled : Obligations.MediaRomIsControlled := by
  refine ⟨fun s ch v => rfl, ?moves, ?passes, fun s ch v => rfl, fun s ch on => rfl, ?temperature, ?entry, ?lost, ?timeout, ?suspend,
    fun s => ⟨rfl, rfl⟩, fun s => rfl⟩
  case moves => exact fun head tail n _ ht hn => ringTail_moves ht hn
  case passes => exact fun head tail n _ ht hn hsmall => ringTail_passes ht hn hsmall
  case temperature => exact fun s ch t temp hs => by rw [exec_dieTempSample, execDieTempSample, if_pos hs]
  case entry => exact fun s ch hs hready => by rw [exec_romResetEntry, execRomResetEntry, resetEntry, if_pos (by simp [hs, hready])]
  case lost => exact fun s ch t hs hready ht hnew => ⟨_, rfl, targetLost_lost hs hready ht hnew⟩
  case timeout => exact fun s ch op o hs ho hrun => ⟨_, rfl, execMediaTimeout_resets hs ho hrun rfl⟩
  case suspend =>
    intro s ch t hs die writes hwrites hwaiting hall
    have hgo : (s.alive && writes != [] && (die.any fun x => rqReads x.2.req && !x.2.running
        && !(die.any fun y => y.2.programsGroup x.2.req)) && writes.all fun x => x.2.suspendable s.hdCount) = true := by
      simp [hs, hwrites, hwaiting, hall]
    exact congrArg Host.Outcome.next (if_pos hgo)

end Sys2Proof.Machine
end

section
/-! Span ports and peers (spec/18 R405 to R407, R416 to R418): O53. -/

namespace Sys2Proof.Machine

/-! ## What the shared steps of the span leave of ports and permissions -/

/-- A run that does not list the span links leaves them. -/
theorem Runs.span_eq {W : List Field} {s t : State} (h : Runs W s t) (hW : Field.span ∉ W) : t.span = s.span :=
  h.frame.span.resolve_left hW

@[simp] theorem State.peer_modPort (s : State) (p n : Nat) (f : SPort → SPort) : (s.modPort p f).peer n = s.peer n := by
  simp only [State.modPort, State.peer, State.modSpan_span]
  split <;> rfl

@[simp] theorem State.modPort_permits (s : State) (p n : Nat) (f : SPort → SPort) :
    (s.modPort p f).span.permits n = s.span.permits n := by
  simp only [State.modPort, Span.permits, State.modSpan_span]
  split <;> rfl

@[simp] theorem State.modPort_permitted (s : State) (p : Nat) (f : SPort → SPort) :
    (s.modPort p f).span.permitted = s.span.permitted := by
  simp only [State.modPort, State.modSpan_span]
  split <;> rfl

/-- A port's change leaves the link of a port where the change leaves links, or where it is another port. -/
theorem State.modPort_link {s : State} {p k : Nat} {f : SPort → SPort} (h : (f (s.span.port p)).link = (s.span.port p).link ∨ (p = 0 ↔ k ≠ 0)) :
    ((s.modPort p f).span.port k).link = (s.span.port k).link := by
  simp only [State.modPort, State.modSpan_span, Span.port] at h ⊢
  by_cases hp : p = 0 <;> by_cases hk : k = 0 <;> simp_all

theorem State.modPeer_port (s : State) (n k : Nat) (f : SPeer → SPeer) : (s.modPeer n f).span.port k = s.span.port k := rfl

theorem State.peerEvent_span (s : State) (n code port : Nat) : (s.peerEvent n code port).span = s.span := State.post_span _ _ _ _

theorem State.wire_link (s : State) (port k : Nat) (b : Bytes) : ((s.wire port b).span.port k).link = (s.span.port k).link :=
  State.modPort_link (.inl rfl)

theorem State.sendFrame_link (s : State) (n port k : Nat) (f : SFrame) :
    ((s.sendFrame n f port).span.port k).link = (s.span.port k).link := by
  unfold State.sendFrame
  dsimp only
  split
  · rw [State.modPeer_port, State.modPort_link (.inl rfl), State.wire_link, State.modPeer_port]
  · rw [State.wire_link, State.modPeer_port]

/-- What each step of a fold leaves alone, the fold leaves alone. -/
theorem foldl_keeps {α β : Type} {f : State → α → State} {g : State → β} (h : ∀ s a, g (f s a) = g s) (l : List α) (s : State) :
    g (l.foldl f s) = g s := by
  induction l generalizing s with
  | nil => rfl
  | cons a l ih => rw [List.foldl_cons, ih, h]

theorem State.moveFrames_link (s : State) (n port k : Nat) : ((s.moveFrames n port).span.port k).link = (s.span.port k).link := by
  unfold State.moveFrames
  dsimp only
  split
  · exact foldl_keeps (g := fun s => (s.span.port k).link) (fun s f => s.sendFrame_link n _ k f) _ s
  · rfl

theorem State.losePath_link (s : State) (n port k : Nat) : ((s.losePath n port).span.port k).link = (s.span.port k).link := by
  unfold State.losePath
  dsimp only
  split
  · rw [State.moveFrames_link, State.peerEvent_span, State.modPeer_port]
  · rfl

theorem State.losePaths_link (s : State) (port k : Nat) : ((s.losePaths port).span.port k).link = (s.span.port k).link :=
  foldl_keeps (g := fun s => (s.span.port k).link) (fun s n => s.losePath_link n port k) _ s

/-- A port that goes down leaves the other port's link as it is. -/
theorem State.portDown_link_other (s : State) {p k : Nat} (to_ : SpanLink) (h : p = 0 ↔ k ≠ 0) :
    ((s.portDown p to_).span.port k).link = (s.span.port k).link := by
  unfold State.portDown
  dsimp only
  split
  · rw [State.peerEvent_span, State.modPort_link (.inr h), State.losePaths_link]
  · rw [State.modPort_link (.inr h), State.losePaths_link]

theorem State.enablePort_link_other (s : State) {p k : Nat} (on : Bool) (h : p = 0 ↔ k ≠ 0) :
    ((s.enablePort p on).span.port k).link = (s.span.port k).link := by
  unfold State.enablePort
  dsimp only
  split
  · split
    · rw [State.modPort_link (.inr h)]
    · rw [State.modPort_link (.inr h), State.modPort_link (.inr h)]
  · rw [State.portDown_link_other _ _ h, State.modPort_link (.inr h)]

/-! ## Ports (R405, R406) -/

theorem execSpanPortUp_up {s : State} {p : Fin 2} (hen : (s.span.port p).enable = true) (hlink : (s.span.port p).link ≠ .up)
    (hheld : s.isHeld = false) (hs : s.alive = true) (hladder : s.power.ladder ≤ 1) (hlost : s.faults.lost.contains (.port p) = false) :
    execSpanPortUp p s = .next
      (((s.modPort p fun x => { x with link := .up, fecLock := true }).peerEvent 0 7 p).bringUpAll p) := by
  simp only [execSpanPortUp, hen, bne_iff_ne.mpr hlink, hheld, hs, hladder, hlost, Bool.not_false, decide_true, Bool.and_self, if_true]

theorem execSpanPortUp_held {s : State} (p : Fin 2) (hheld : s.isHeld = true) : execSpanPortUp p s = .next s := by
  simp [execSpanPortUp, hheld]

theorem execSpanPortDown_up {s : State} {p : Fin 2} (hlink : (s.span.port p).link = .up) : execSpanPortDown p s = .next
    (((s.losePaths p).modPort p fun x => { x with link := .down, fecLock := false }).peerEvent 0 6 p) := by
  have hup : ¬ (s.span.port p).link = .training := by rw [hlink]; decide
  simp only [execSpanPortDown, if_neg hup, State.portDown, if_pos hlink]

theorem State.enablePort_on {s : State} {p : Nat} (hen : (s.span.port p).enable = false) (hheld : s.isHeld = false) :
    s.enablePort p true = (s.modPort p fun x => { x with enable := true }).modPort p fun x => { x with link := .training } := by
  have hheld' : (s.modPort p fun x => { x with enable := true }).isHeld = false := hheld
  simp only [State.enablePort, hen, hheld', Bool.or_self, Bool.false_eq_true, if_true, if_false]

/-! ## Bring-up (R407, R417) -/

theorem execOpenFrame_notPermitted {s : State} (port : Fin 2) {b : Bytes} (enc : Bool) (h : s.span.permits (fieldAt b 2 1) = false) :
    execOpenFrame port b enc s = .next s := by
  simp only [execOpenFrame, h, or_true, if_true]

theorem execOpenFrame_opens {s : State} {port : Fin 2} {b : Bytes} (hlink : (s.span.port port).link = .up) (hlen : 32 ≤ b.length)
    (hpermits : s.span.permits (fieldAt b 2 1) = true) (hkeyed : ((s.peer (fieldAt b 2 1)).path port).keyed = true)
    (hversion : fieldAt b 0 1 = 1) : execOpenFrame port b true s = .next
      ((s.modPort port fun x => { x with rx := satAdd (2 ^ 64 - 1) x.rx 1 }).ready (fieldAt b 2 1) port (fieldAt b 0x12 2)
        (fieldAt b 0x10 2)) := by
  have htaken : ¬ ((s.span.port port).link ≠ .up ∨ b.length < 32 ∨ s.span.permits (fieldAt b 2 1) = false) := by
    simp [hlink, hlen, hpermits]
  simp only [execOpenFrame, htaken, hkeyed, hversion, Bool.not_true, Bool.false_eq_true, ne_eq, not_true_eq_false, if_false]

section Spdm
variable {s : State} {port : Fin 2} {n : Nat} (hsince : ((s.peer n).path port).since.isSome = true) (hpermits : s.span.permits n = true)
include hsince hpermits

/-- Authentication is under way with a permitted peer. -/
theorem spdm_underway : ¬ (((s.peer n).path port).since.isNone = true ∨ s.span.permits n = false) := by
  rw [hpermits, Option.isNone_eq_false_iff.mpr hsince]
  decide

theorem execSpdmFrame_fails : execSpdmFrame port n .fails s = .next
    ((s.modPort port fun x => { x with rx := satAdd (2 ^ 64 - 1) x.rx 1 }).failPeer n .refused port) := by
  simp only [execSpdmFrame, spdm_underway hsince hpermits, if_false]

theorem execSpdmFrame_goesOn : execSpdmFrame port n .goesOn s = .next
    (s.modPort port fun x => { x with rx := satAdd (2 ^ 64 - 1) x.rx 1 }) := by
  simp only [execSpdmFrame, spdm_underway hsince hpermits, if_false]

theorem execSpdmFrame_otherKey {d : Nat} (hd : Tab.find s.span.permitted n ≠ some d) : execSpdmFrame port n (.completes d) s = .next
    ((s.modPort port fun x => { x with rx := satAdd (2 ^ 64 - 1) x.rx 1 }).failPeer n .refused port) := by
  simp only [execSpdmFrame, spdm_underway hsince hpermits, if_false, State.modPort_permitted, ne_eq, hd, not_false_eq_true, if_true]

end Spdm

theorem execBringupTimeout_late {s : State} {n : Fin 256} {port : Fin 2} {t : Nat} (hsince : ((s.peer n).path port).since = some t)
    (hlate : t + 100000 ≤ s.hdCount) : execBringupTimeout n port s = .next (s.failPeer n .refused port) := by
  simp only [execBringupTimeout, hsince, hlate, if_true]

theorem State.retry_permitted {s : State} {n : Nat} (h : s.span.permits n = true) : s.retry n = (s.bringUp n 0).bringUp n 1 := if_pos h

/-! ## SPAN_CONFIG (R416) -/

theorem execSpanConfig_down {s : State} {mb : Fin 3} {j : AmpJob} (h : s.ampTurnOf mb 0x0901 j) (hgood : spanConfigBad j.payload = false)
    (h0 : (s.span.port 0).link ≠ .up) (h1 : (s.span.port 1).link ≠ .up) : execSpanConfig mb s = .next
      ((((s.modSpan fun x => { x with config := j.payload }).enablePort 0 (bit (fieldAt j.payload 1 1) 0)).enablePort 1
        (bit (fieldAt j.payload 1 1) 1)).ampDone mb St.ok []) := by
  have h0' : (((s.modSpan fun x => { x with config := j.payload }).span.port 0).link == .up) = false := beq_eq_false_iff_ne.mpr h0
  have h1' : (((((s.modSpan fun x => { x with config := j.payload }).enablePort 0 (bit (fieldAt j.payload 1 1) 0))).span.port 1).link
      == .up) = false := by
    rw [State.enablePort_link_other _ _ (by decide)]
    exact beq_eq_false_iff_ne.mpr h1
  refine congrArg _ (ampExec_done h ?_)
  simp only [spanConfig, hgood, h0', h1', Bool.and_false, Bool.false_eq_true, if_false]
  rfl

/-! ## SPAN_PEER_SET (R417) -/

theorem State.setPeerState_permitted (s : State) (n : Nat) (x : PeerState) (port : Nat) :
    (s.setPeerState n x port).span.permitted = s.span.permitted := by
  unfold State.setPeerState
  split
  · rfl
  · rw [State.peerEvent_span]
    rfl

theorem State.blockFails_span (s : State) (g u msg st : Nat) : (s.blockFails g u msg st).span = s.span :=
  (State.blockFails_runs (W := [.memory, .hostMem, .free, .fabric, .host, .amp, .cl, .sched, .tiers, .tokens]) (by decide) (by decide)
    (by decide) (by decide) (by decide) (by decide) (by decide) (by decide) (by decide) (by decide) (Runs.refl _ s) g u msg st).span_eq
    (by decide)

theorem State.failQuery_span (s : State) (key st : Nat) : (s.failQuery key st).span = s.span :=
  (State.failQuery_runs (W := [.fabric, .index, .pipes, .media]) (by decide) (by decide) (by decide) (by decide) (Runs.refl _ s) key
    st).span_eq (by decide)

theorem State.store_span (s : State) (a : Nat) (b : Bytes) : (s.store a b).span = s.span :=
  (State.store_runs (W := [.memory, .cl]) (by decide) (by decide) (Runs.refl _ s) a b).span_eq (by decide)

theorem State.postSlot_span (s : State) (g epoch i : Nat) : (s.postSlot g epoch i).span = s.span :=
  (State.postSlot_runs (W := [.cl, .sched]) (by decide) (by decide) (Runs.refl _ s) g epoch i).span_eq (by decide)

theorem State.endRead_permitted (s : State) (id st : Nat) (d : Bytes) : (s.endRead id st d).span.permitted = s.span.permitted := by
  unfold State.endRead
  split
  · dsimp only
    rw [State.postSlot_span, State.store_span]
    split
    · rw [State.store_span]
      rfl
    · rfl
  · rfl

theorem State.messageFails_permitted (s : State) (m : OutMsg) (st : Nat) : (s.messageFails m st).span.permitted = s.span.permitted := by
  unfold State.messageFails
  split
  · rw [State.blockFails_span]
  · rw [State.failQuery_span]
  · rw [State.endRead_permitted]
  · rfl

theorem failMessages_permitted (st : Nat) (l : List OutMsg) (s : State) : (failMessages st l s).span.permitted = s.span.permitted := by
  induction l generalizing s with
  | nil => rfl
  | cons m l ih => rw [failMessages, ih, State.messageFails_permitted]

theorem State.failPeer_permitted (s : State) (n : Nat) (x : PeerState) (port : Nat) :
    (s.failPeer n x port).span.permitted = s.span.permitted := by
  unfold State.failPeer
  rw [failMessages_permitted, State.setPeerState_permitted]
  rfl

theorem State.wire_permitted (s : State) (port : Nat) (b : Bytes) : (s.wire port b).span.permitted = s.span.permitted :=
  State.modPort_permitted _ _ _

theorem State.bringUp_permitted (s : State) (n port : Nat) : (s.bringUp n port).span.permitted = s.span.permitted := by
  unfold State.bringUp
  split
  · exact State.wire_permitted _ _ _
  · rfl

theorem State.retry_keeps_permitted (s : State) (n : Nat) : (s.retry n).span.permitted = s.span.permitted := by
  unfold State.retry
  split
  · rw [State.bringUp_permitted, State.bringUp_permitted]
  · rfl

theorem execSpanPeerSet_takes {s : State} {mb : Fin 3} {j : AmpJob} (h : s.ampTurnOf mb 0x0903 j)
    (hlen : (peerEntries j.payload).length ≤ 255)
    (hdedup : ((peerEntries j.payload).map (·.1)).dedup.length = ((peerEntries j.payload).map (·.1)).length)
    (hself : ((peerEntries j.payload).map (·.1)).contains s.span.number = false) :
    ∃ t : State, execSpanPeerSet mb s = .next (t.ampDone mb St.ok [])
      ∧ t.span.permitted = (peerEntries j.payload).foldl (fun t e => Tab.put t e.1 e.2) [] := by
  have hgood : ¬ (255 < (peerEntries j.payload).length
      ∨ ((peerEntries j.payload).map (·.1)).dedup.length ≠ ((peerEntries j.payload).map (·.1)).length
      ∨ ((peerEntries j.payload).map (·.1)).contains s.span.number = true) := by
    rintro (h | h | h)
    · omega
    · exact h hdedup
    · rw [hself] at h
      cases h
  refine ⟨_, congrArg _ (ampExec_done h (if_neg hgood)), ?_⟩
  rw [foldl_keeps (g := fun s => s.span.permitted) fun s n => s.retry_keeps_permitted n,
    foldl_keeps (g := fun s => s.span.permitted) fun s e => s.failPeer_permitted _ _ _]
  rfl

/-- Settles O53: the ports, the bring-up of a peer, the messages. -/
theorem spanPortsAndPeersComeUp : Obligations.SpanPortsAndPeersComeUp := by
  refine ⟨?up, ?held, ?down, ?retrain, ?enable, fun s p => rfl, ?notPermitted, ?opens, ?spdm, ?bringupTimeout, ?faulty, ?refused,
    ?status, ?configBad, ?config, ?peers, ?tooMany⟩
  case up => exact fun s p hen hlink hheld hs hladder hlost => execSpanPortUp_up hen hlink hheld hs hladder hlost
  case held => exact fun s p hheld => execSpanPortUp_held p hheld
  case down => exact fun s p hlink => execSpanPortDown_up hlink
  case retrain => exact fun s p hen => by rw [exec_slRetrain, execSlRetrain, if_pos hen]
  case enable => exact fun s p hen hheld => congrArg _ (State.enablePort_on hen hheld)
  case notPermitted => exact fun s port b enc h => execOpenFrame_notPermitted port enc h
  case opens => exact fun s port b hlink hlen hpermits hkeyed hversion => execOpenFrame_opens hlink hlen hpermits hkeyed hversion
  case spdm =>
    exact fun s port n hsince hpermits => ⟨execSpdmFrame_fails hsince hpermits, execSpdmFrame_goesOn hsince hpermits,
      fun d hd => execSpdmFrame_otherKey hsince hpermits hd⟩
  case bringupTimeout => exact fun s n port t hsince hlate => execBringupTimeout_late hsince hlate
  case faulty =>
    intro s n hstate hlate hpermits
    rw [exec_faultyRetryTimer, execFaultyRetryTimer, if_pos ⟨hstate, hlate⟩, State.retry_permitted hpermits]
  case refused =>
    intro s n hstate hlate hpermits
    rw [exec_refusedRetryTimer, execRefusedRetryTimer, if_pos ⟨hstate, hlate⟩, State.retry_permitted hpermits]
  case status => exact fun s mb j h => congrArg _ (ampExec_done h rfl)
  case configBad => exact fun s mb j h hbad => congrArg _ (ampExec_done h (if_pos hbad))
  case config => exact fun s mb j h hgood h0 h1 => execSpanConfig_down h hgood h0 h1
  case peers => exact fun s mb j h hlen hdedup hself => execSpanPeerSet_takes h hlen hdedup hself
  case tooMany => exact fun s mb j h hlen => congrArg _ (ampExec_done h (if_pos (.inl hlen)))

end Sys2Proof.Machine
end

section
/-! Span frames and timers (spec/18 R406, R408 to R415): O54. -/

namespace Sys2Proof.Machine

/-! ## Frames (R408 to R410, R412) -/

/-- The state in which a span command begins to send. -/
def State.quietSpan (s : State) : State := s.modSpan fun x => { x with out := [] }

theorem State.quietSpan_port (s : State) (p : Nat) : s.quietSpan.span.port p = s.span.port p := by
  simp only [State.quietSpan, Span.port, State.modSpan_span]

section Frame
variable {s : State} {port ty : Nat} {b : Bytes} (f : Nat → State → State) (hlink : (s.span.port port).link = .up)
include hlink

theorem spanFrame_taken (hok : s.quietSpan.frameOk (fieldAt b 2 1) port b = true) (hty : fieldAt b 1 1 = ty) :
    spanFrame port ty b true f s =
      f (fieldAt b 2 1) (s.quietSpan.modPort port fun x => { x with rx := satAdd (2 ^ 64 - 1) x.rx 1 }) := by
  rw [← State.quietSpan_port] at hlink
  have hform : (!s.quietSpan.frameOk (fieldAt b 2 1) port b || fieldAt b 1 1 != ty) = false := by simp [hok, hty]
  show (if (s.quietSpan.span.port port).link ≠ .up then s.quietSpan
    else if (!true) = true then _
    else if (!s.quietSpan.frameOk (fieldAt b 2 1) port b || fieldAt b 1 1 != ty) = true then _ else _) = _
  rw [if_neg (not_not.mpr hlink), if_neg (by decide), hform, if_neg (by decide)]
  rfl

theorem spanFrame_badIcv : spanFrame port ty b false f s =
    (s.quietSpan.modPort port fun x => { x with icv := satAdd 65535 x.icv 1 }).badFrame (fieldAt b 2 1) port := by
  rw [← State.quietSpan_port] at hlink
  show (if (s.quietSpan.span.port port).link ≠ .up then s.quietSpan else if (!false) = true then _ else _) = _
  rw [if_neg (not_not.mpr hlink), if_pos (by decide)]
  rfl

end Frame

section Nak
variable {s : State} {port : Fin 2} {b : Bytes} (hlink : (s.span.port port).link = .up)
  (hok : s.quietSpan.frameOk (fieldAt b 2 1) port b = true) (hty : fieldAt b 1 1 = 2)
include hlink hok hty

/-- The state a NAK meets: its ACK and CREDIT have been taken. -/
def State.acked (s : State) (port : Nat) (b : Bytes) : State :=
  (s.quietSpan.modPort port fun x => { x with rx := satAdd (2 ^ 64 - 1) x.rx 1 }).takeAck (fieldAt b 2 1) port b

theorem execNakFrame_unknown (hnone : ((s.acked port b).peer (fieldAt b 2 1)).unacked.find?
    (fun f => f.seq == fieldAt b 8 4 && f.sent) = none) : execNakFrame port b true s = .next (s.acked port b) := by
  rw [execNakFrame, spanFrame_taken _ hlink hok hty]
  simp only [State.acked] at hnone ⊢
  rw [hnone]

theorem execNakFrame_again {f : SFrame} (hsome : ((s.acked port b).peer (fieldAt b 2 1)).unacked.find?
    (fun f => f.seq == fieldAt b 8 4 && f.sent) = some f) (hnaks : f.naks < 7) : execNakFrame port b true s = .next
      ((s.acked port b).sendFrame (fieldAt b 2 1) { f with naks := f.naks + 1 }
        (((s.acked port b).peer (fieldAt b 2 1)).pick (fieldAt b 8 4))) := by
  have hfew : ¬ 8 ≤ f.naks + 1 := by omega
  rw [execNakFrame, spanFrame_taken _ hlink hok hty]
  simp only [State.acked] at hsome ⊢
  simp only [hsome, hfew, if_false]

theorem execNakFrame_eighth {f : SFrame} (hsome : ((s.acked port b).peer (fieldAt b 2 1)).unacked.find?
    (fun f => f.seq == fieldAt b 8 4 && f.sent) = some f) (hnaks : 7 ≤ f.naks) :
    execNakFrame port b true s = .next ((s.acked port b).failPeer (fieldAt b 2 1) .faulty port) := by
  have hmany : 8 ≤ f.naks + 1 := by omega
  rw [execNakFrame, spanFrame_taken _ hlink hok hty]
  simp only [State.acked] at hsome ⊢
  simp only [hsome, hmany, if_true]

end Nak

/-! ## Timers (R406, R408, R410, R412) -/

section Retransmission
variable {s : State} {n : Fin 256} {seq : Nat} {f : SFrame}
  (hf : (s.peer n).unacked.find? (fun f => f.seq == seq && f.sent) = some f) (hlive : (s.peer n).live = true)
  (hpath : (s.peer n).hasPath = true) (hlate : f.sentAt + s.span.rto ≤ s.hdCount)
include hf hlive hpath hlate

/-- The failure is counted on the frame's path before it is sent again or the path is lost. -/
theorem execRetransmissionTimeout_late : execRetransmissionTimeout n seq s = .next
    (let t := s.modPeer n fun p => p.setPath f.port fun x => { x with fails := x.fails + 1 }
     if 3 ≤ ((t.peer n).path f.port).fails then t.losePath n f.port
     else if ((t.peer n).path f.port).up then t.sendFrame n f f.port
     else t.sendFrame n f ((t.peer n).pick seq)) := by
  have hgo : (!(s.peer n).live || !(s.peer n).hasPath || decide (s.hdCount < f.sentAt + s.span.rto)) = false := by
    simp [hlive, hpath, hlate]
  simp only [execRetransmissionTimeout, hf, hgo, Bool.false_eq_true, if_false]

end Retransmission

theorem execGapTimeout_late {s : State} {n : Fin 256} {t : Nat} (hgap : (s.peer n).gapSince = some t) (hlive : (s.peer n).live = true)
    (hpath : (s.peer n).hasPath = true) (hnak : (s.peer n).nakDone = false) (hlate : 2 * t + s.span.rto ≤ 2 * s.hdCount) :
    execGapTimeout n s = .next
      ((s.modPeer n fun p => { p with nakDone := true }).control n ((s.peer n).pick 0) 2 (s.peer n).rxNext []) := by
  simp only [execGapTimeout, hgap, hlive, hpath, hnak, hlate, Bool.not_false, Bool.and_self, decide_true, if_true]

/-! ## SPAN_READ (R415) -/

section Read
variable {s : State} {g : Fin 128} {n : Fin 256} {nsid slba count dst slot : Nat} (hruns : (s.cluster g).runs = true)
include hruns

theorem execSpanRead_refused (hbad : s.cap 8 = false ∨ count = 0 ∨ 512 < count ∨ 4096 ≤ slot) :
    execSpanRead g n nsid slba count dst slot s = .next (s.ecallEnds g St.unsupported) := by
  simp only [execSpanRead, hruns, Bool.not_true, Bool.false_eq_true, if_false, hbad, if_true]

/-- The read of an ecall that has passed its checks stands, and its status is in a0. -/
def State.readStands (s : State) (g dst count slot : Nat) : State :=
  (s.modSpan fun x => { x with
    reads := x.reads ++
      [{ id := s.span.nextRead, dst := dst, len := 4096 * count, g := g, epoch := (s.cluster g).epoch, slot := slot }]
    nextRead := s.span.nextRead + 1 }).ecallEnds g St.ok

theorem execSpanRead_asks {k : Nat} (hcap : s.cap 8 = true) (hlo : 1 ≤ count) (hhi : count ≤ 512) (hslot : slot < 4096)
    (hreach : s.mayReach (.steward g) dst (4096 * count + 8) = true) (hplace : place dst = .hbm k) (hlive : (s.peer n).live = true) :
    execSpanRead g n nsid slba count dst slot s = .next
      ((s.readStands g dst count slot).spanSend n clsRead (leBytes 4 nsid ++ leBytes 8 slba ++ leBytes 2 count ++ [0, 0])
        (.read s.span.nextRead)).2 := by
  have hgood : ¬ (s.cap 8 = false ∨ count = 0 ∨ 512 < count ∨ 4096 ≤ slot) := by
    simp only [hcap, Bool.true_eq_false, false_or]
    omega
  have hlive' : ((s.readStands g dst count slot).peer n).live = true := hlive
  simp only [execSpanRead, hruns, Bool.not_true, Bool.false_eq_true, if_false, hgood, hreach, Bool.true_eq_false,
    hplace, or_self]
  exact congrArg _ (if_pos hlive')

end Read

/-- Settles O54: frames, bad frames, timers, reads. -/
theorem spanFramesAndTimersAct : Obligations.SpanFramesAndTimersAct := by
  refine ⟨?frames, ?badIcv, ?retransmission, ?gap, fun s n => rfl, ?slow, ?absent, ?rekey, ?oldKey, ?read, ?readRefused⟩
  case frames =>
    intro s port b inst base n u v hlink hok
    refine ⟨fun hty => ?_, fun hty => ?_, fun hty hnone => ?_, fun f hty hsome hnaks => ?_, fun f hty hsome hnaks => ?_⟩
    · exact congrArg _ (spanFrame_taken _ hlink hok hty)
    · exact congrArg _ (spanFrame_taken _ hlink hok hty)
    · exact execNakFrame_unknown hlink hok hty hnone
    · exact execNakFrame_again hlink hok hty hsome hnaks
    · exact execNakFrame_eighth hlink hok hty hsome hnaks
  case badIcv =>
    intro s port b hlink
    exact ⟨congrArg _ (spanFrame_badIcv _ hlink), congrArg _ (spanFrame_badIcv _ hlink), congrArg _ (spanFrame_badIcv _ hlink)⟩
  case retransmission =>
    intro s n seq f hf hlive hpath hlate t
    have hexec := execRetransmissionTimeout_late hf hlive hpath hlate
    refine ⟨fun hfails => ?_, fun hfails hup => ?_⟩
    · exact hexec.trans (congrArg _ (if_pos hfails))
    · exact hexec.trans (congrArg _ ((if_neg hfails.not_ge).trans (if_pos hup)))
  case gap => exact fun s n t hgap hlive hpath hnak hlate => execGapTimeout_late hgap hlive hpath hnak hlate
  case slow =>
    intro s n hstate hsent hadvanced hheard
    rw [exec_slowTimeout, execSlowTimeout]
    exact congrArg _ (if_pos ⟨hstate, hsent, hadvanced, hheard⟩)
  case absent =>
    intro s n hlive hheard
    rw [exec_absentTimeout, execAbsentTimeout]
    exact congrArg _ (if_pos (by simp [hlive, hheard]))
  case rekey =>
    intro s n hlive hkey
    rw [exec_rekeyTimer, execRekeyTimer]
    exact congrArg _ (if_pos (by simp [hlive, hkey]))
  case oldKey =>
    intro s n hold hkey
    rw [exec_oldKeyExpiry, execOldKeyExpiry]
    exact congrArg _ (if_pos (by simp [hold, hkey]))
  case read =>
    intro s g n nsid slba count dst slot k hruns hcap hlo hhi hslot hreach hplace hlive
    exact ⟨_, rfl, execSpanRead_asks hruns hcap hlo hhi hslot hreach hplace hlive⟩
  case readRefused => exact fun s g n nsid slba count dst slot hruns hbad => execSpanRead_refused hruns hbad

end Sys2Proof.Machine
end

section
/-! Write, Write Zeroes and Dataset Management (spec/17 R385, R397 to R399), and O23: when each of them completes. -/

namespace Sys2Proof.Machine

/-! ## The command's end -/

theorem State.markRange_ftl (s : State) (nsid lo hi : Nat) : (s.markRange nsid lo hi).ftl = s.ftl :=
  (State.markRange_runs (W := [.index]) (by decide) (Runs.refl _ s) nsid lo hi).frame.ftl.resolve_left (by decide)

/-- The end of a Write frees its committed set and counts it with its bytes; of the translation layer nothing else changes. -/
theorem State.writeDone_ftl (s : State) (tag nsid slba nlb : Nat) : (s.writeDone tag nsid slba nlb).ftl =
    { s.ftl with partials := Tab.del s.ftl.partials tag, hostBytes := s.ftl.hostBytes + nlb * 4096, writeCmds := s.ftl.writeCmds + 1 } := by
  rw [State.writeDone, State.markRange_ftl, State.completeOk, State.complete_ftl, State.modFtl_ftl]

/-! ## Write and Write Zeroes -/

/-- The granules named for a Write are committed, each sector from its place in the command's data. -/
def State.commitRow (s : State) (tag : Nat) (e : Sqe) (data : Bytes) (granules eus lost : List Nat) : State :=
  commitGranules tag e.nsid e.slba e.nlb (fun lba => (data.drop (4096 * (lba - e.slba))).take 4096) lost granules eus s

/-- How a Write goes on once granules of it have been committed: it completes, fails for want of space, or its row comes again. -/
def State.writeGoes (u : State) (tag : Nat) (e : Sqe) : State :=
  if u.allCommitted tag e.slba e.nlb then
    (if u.power.holdupWeak && u.anyBuffered e.nsid e.slba e.nlb then u else u.writeDone tag e.nsid e.slba e.nlb)
  else if u.ftl.exhausted then (u.modFtl fun f => { f with partials := Tab.del f.partials tag }).writeFails tag
  else u

theorem execWrite_admitted {s : State} {tag : Nat} {t : Trk} (data : Bytes) (granules eus lost : List Nat)
    (hio : s.ioAdmitted tag 0x01 true true t) : execWrite tag data granules eus lost s = .next (
      if s.windowsFull t.sqe.nsid false [(t.sqe.slba * 4096, (t.sqe.slba + t.sqe.nlb) * 4096)] then s.windowWait tag
      else (s.commitRow tag t.sqe data granules eus lost).writeGoes tag t.sqe) := by
  rw [execWrite, State.ioRow_admitted _ hio]
  rfl

theorem execWrite_commits {s : State} {tag : Nat} {t : Trk} (data : Bytes) (granules eus lost : List Nat)
    (hio : s.ioAdmitted tag 0x01 true true t)
    (hroom : s.windowsFull t.sqe.nsid false [(t.sqe.slba * 4096, (t.sqe.slba + t.sqe.nlb) * 4096)] = false) :
    execWrite tag data granules eus lost s = .next ((s.commitRow tag t.sqe data granules eus lost).writeGoes tag t.sqe) := by
  rw [execWrite_admitted data granules eus lost hio, if_neg (Bool.eq_false_iff.mp hroom)]

theorem State.writeGoes_completes {u : State} {tag : Nat} {e : Sqe} (hall : u.allCommitted tag e.slba e.nlb = true)
    (hheld : (u.power.holdupWeak && u.anyBuffered e.nsid e.slba e.nlb) = false) :
    u.writeGoes tag e = u.writeDone tag e.nsid e.slba e.nlb := by
  rw [State.writeGoes, if_pos hall, if_neg (Bool.eq_false_iff.mp hheld)]

theorem State.writeGoes_stays {u : State} {tag : Nat} {e : Sqe} (hpart : u.allCommitted tag e.slba e.nlb = false)
    (hspace : u.ftl.exhausted = false) : u.writeGoes tag e = u := by
  rw [State.writeGoes, if_neg (Bool.eq_false_iff.mp hpart), if_neg (Bool.eq_false_iff.mp hspace)]

/-- The end of a Write Zeroes: it is counted, completed, and marks its range. -/
def State.zeroesDone (u : State) (tag : Nat) (e : Sqe) : State :=
  ((u.modFtl fun f => { f with partials := Tab.del f.partials tag, writeCmds := f.writeCmds + 1 }).completeOk tag).markRange
    e.nsid (e.slba * 4096) ((e.slba + e.nlb) * 4096)

theorem execWriteZeroes_zeroes {s u : State} {tag : Nat} {t : Trk} {eus lost rest : List Nat}
    (hio : s.ioAdmitted tag 0x08 true false t)
    (hroom : s.windowsFull t.sqe.nsid false [(t.sqe.slba * 4096, (t.sqe.slba + t.sqe.nlb) * 4096)] = false)
    (hzero : s.zeroRange t.sqe.nsid t.sqe.slba t.sqe.nlb lost eus = some (u, rest)) :
    execWriteZeroes tag eus lost s = .next (u.zeroesDone tag t.sqe) := by
  refine congrArg Host.Outcome.next ((State.ioRow_admitted _ hio).trans ((if_neg (Bool.eq_false_iff.mp hroom)).trans ?_))
  rw [hzero]
  rfl

/-! ## Dataset Management -/

/-- A Dataset Management that the checks of its row let through: SECURE stands only beside Deallocate. -/
structure State.DsmAdmitted (s : State) (tag : Nat) (data : Bytes) (t : Trk) : Prop where
  started : s.startedAs tag 0x09 = some t
  noSanitize : s.ftl.sanitizer = none
  checked : s.ioCheck t true = none
  paired : (dsmSecure t.sqe && !dsmAd t.sqe) = false
  inRange : s.rangesOut t.sqe.nsid (dsmRanges t.sqe data) = false

theorem State.dsmRow_admitted {s : State} {tag : Nat} {data : Bytes} {t : Trk} {secure : Bool}
    (f : Trk → List (Nat × Nat) → State → State) (h : s.DsmAdmitted tag data t) (hsecure : dsmSecure t.sqe = secure) :
    s.dsmRow tag secure data f = f t (dsmRanges t.sqe data) s := by
  obtain ⟨hstarted, hsanitizer, hcheck, hpaired, hrange⟩ := h
  subst hsecure
  simp only [State.dsmRow, hstarted, hsanitizer, hcheck, hpaired, hrange, Option.isSome_none, Bool.false_eq_true, if_false,
    if_true]

theorem execDatasetManagement_hint {s : State} {tag : Nat} {data : Bytes} {t : Trk} (eus lost : List Nat)
    (h : s.DsmAdmitted tag data t) (hsecure : dsmSecure t.sqe = false) (had : dsmAd t.sqe = false) :
    execDatasetManagement tag data eus lost s = .next (s.completeOk tag) := by
  rw [execDatasetManagement, State.dsmRow_admitted _ h hsecure]
  rw [if_neg (Bool.eq_false_iff.mp had)]

theorem execDatasetManagement_deallocates {s u : State} {tag : Nat} {data : Bytes} {t : Trk} {eus lost : List Nat}
    (h : s.DsmAdmitted tag data t) (hsecure : dsmSecure t.sqe = false) (had : dsmAd t.sqe = true)
    (hroom : s.windowsFull t.sqe.nsid true (byteRanges (dsmRanges t.sqe data)) = false)
    (hzero : zeroRanges t.sqe.nsid lost (dsmRanges t.sqe data) eus s = some u) :
    execDatasetManagement tag data eus lost s = .next (unmarkRanges t.sqe.nsid (dsmRanges t.sqe data) (u.completeOk tag)) := by
  rw [execDatasetManagement, State.dsmRow_admitted _ h hsecure]
  rw [if_pos had, if_neg (Bool.eq_false_iff.mp hroom), hzero]

theorem execSecureDiscard_discards {s u : State} {tag : Nat} {data : Bytes} {t : Trk} {eus lost bad : List Nat} {ended : Bool}
    (h : s.DsmAdmitted tag data t) (hsecure : dsmSecure t.sqe = true)
    (hroom : s.windowsFull t.sqe.nsid true (byteRanges (dsmRanges t.sqe data)) = false)
    (hdiscard : s.secureDiscard tag t.sqe.nsid (dsmRanges t.sqe data) lost eus bad = (u, ended)) :
    execSecureDiscard tag data eus lost bad s = .next (
      if ended then unmarkRanges t.sqe.nsid (dsmRanges t.sqe data) (u.completeOk tag) else u) := by
  rw [execSecureDiscard, State.dsmRow_admitted _ h hsecure]
  rw [if_neg (Bool.eq_false_iff.mp hroom), hdiscard]
  cases ended <;> rfl

/-- Settles O23: by the command, and for a Write by whether all its granules are committed. -/
theorem writesCompleteWhenCommitted : Obligations.WritesCompleteWhenCommitted := by
  refine ⟨?write, ?writeZeroes, ?dataset, ?secure⟩
  case write =>
    intro s tag t data granules eus lost u hio hroom hu
    have hrun : exec (.write tag data granules eus lost) s = .next (u.writeGoes tag t.sqe) := by
      rw [exec_write, execWrite_commits data granules eus lost hio hroom, hu, State.commitRow]
    refine ⟨fun hall hheld => ⟨?_, ?_, ?_⟩, fun hpart hspace => ?_⟩
    · rw [hrun, State.writeGoes_completes hall hheld]
    · rw [State.writeDone_ftl]
    · rw [State.writeDone_ftl]
    · rw [hrun, State.writeGoes_stays hpart hspace]
  case writeZeroes =>
    intro s tag t eus lost u rest hio hroom hzero
    exact execWriteZeroes_zeroes hio hroom hzero
  case dataset =>
    intro s tag t data eus lost hstarted hsanitizer hcheck hsecure hrange
    have h : s.DsmAdmitted tag data t := ⟨hstarted, hsanitizer, hcheck, by simp [hsecure], hrange⟩
    exact ⟨fun had => execDatasetManagement_hint eus lost h hsecure had,
      fun u had hroom hzero => execDatasetManagement_deallocates h hsecure had hroom hzero⟩
  case secure =>
    intro s tag t data eus lost bad u ended hstarted hsanitizer hcheck hsecure had hrange hroom hdiscard
    have h : s.DsmAdmitted tag data t := ⟨hstarted, hsanitizer, hcheck, by simp [had], hrange⟩
    exact execSecureDiscard_discards h hsecure hroom hdiscard

end Sys2Proof.Machine
end

section
/-! The update units (spec/14 R332 to R337, R339): what a submission, a start, a committed block and a slice's end do, and O49. -/

namespace Sys2Proof.Machine

/-! ## UPD_SUBMIT -/

theorem execUpdSubmit_unreachable {s : State} {g : Fin 128} {a : Nat} (hruns : (s.cluster g).runs = true)
    (hreach : s.mayReach (.steward g) a 64 = false) : execUpdSubmit g a s = .next (s.ecallEnds g St.addrDenied) := by
  simp [execUpdSubmit, hruns, hreach]

/-- A descriptor in reach, in one stack, that fails its checks: the job's completion is posted with the code at once. -/
theorem execUpdSubmit_refused {s : State} {g : Fin 128} {a st : Nat} (hruns : (s.cluster g).runs = true)
    (hreach : s.mayReach (.steward g) a 64 = true) (hstack : (stackOf a).isSome = true)
    (hcheck : s.updCheck g (s.bytesAt a 64) ((s.object 3 (uf (s.bytesAt a 64) 0 2)).map (·.data)) = some st) :
    execUpdSubmit g a s = .next ((s.updPost g (s.cluster g).epoch (s.bytesAt a 64) st 0).ecallEnds g st) := by
  obtain ⟨k, hk⟩ := Option.isSome_iff_exists.mp hstack
  simp [execUpdSubmit, hruns, hreach, hk, hcheck]

/-- The job that a submission by cluster `g` of the descriptor `d` queues. -/
def State.updJob (s : State) (g : Fin 128) (d : Bytes) : UJob :=
  let mode := fieldAt (((s.object 3 (uf d 0 2)).map (·.data)).getD []) 4 1
  { id := s.upd.nextJob, desc := d, mode := mode, g := g, epoch := (s.cluster g).epoch, stack := (stackOf (uf d 0x10 8)).getD 0
    seed := ((s.taskOf g).map (·.seed)).getD 0
    reads := (updRanges mode d).1 ++ (updRanges mode d).2, writes := (updRanges mode d).1 }

theorem execUpdSubmit_queued {s : State} {g : Fin 128} {a : Nat} (hruns : (s.cluster g).runs = true)
    (hreach : s.mayReach (.steward g) a 64 = true) (hstack : (stackOf a).isSome = true)
    (hcheck : s.updCheck g (s.bytesAt a 64) ((s.object 3 (uf (s.bytesAt a 64) 0 2)).map (·.data)) = none) :
    execUpdSubmit g a s = .next ((s.modUpd fun x =>
      { x with jobs := x.jobs ++ [s.updJob g (s.bytesAt a 64)], nextJob := x.nextJob + 1 }).ecallEnds g St.ok) := by
  obtain ⟨k, hk⟩ := Option.isSome_iff_exists.mp hstack
  simp [execUpdSubmit, hruns, hreach, hk, hcheck]
  rfl

/-! ## UPDATE_JOB_START -/

theorem Upd.modUnit_foldl_jobs (f : Nat × Nat → UUnit → UUnit) (l : List (Nat × Nat)) (x : Upd) :
    (l.foldl (fun x n => x.modUnit n.1 (f n)) x).jobs = x.jobs := by
  induction l generalizing x with
  | nil => rfl
  | cons n l ih => exact ih (x.modUnit n.1 (f n))

/-- A change of one job leaves the numbers of all: a job found under the number afterwards is the changed one. -/
theorem Upd.of_mem_modJob {x : Upd} {id : Nat} {f : UJob → UJob} {k : UJob}
    (hk : k ∈ (x.modJob id f).jobs) (hkid : k.id = id) : ∃ j, k = f j := by
  obtain ⟨j, -, rfl⟩ := List.mem_map.mp hk
  by_cases h : j.id = id
  · exact ⟨j, if_pos h⟩
  · exact absurd (by simpa only [if_neg h] using hkid) h

/-- The slice that the unit in place `i` of `n` takes of a job: a MATRIX job's units share no blocks and are told their place (R335). -/
def UJob.slice (j : UJob) (n i : Nat) : Nat × Nat := if j.mode = 2 then (i, n) else sliceOf (uf j.desc 8 8 / 32) n i

/-- A unit takes its slice of job `j` with number `id`: place `i` of `n` (R335). -/
def UUnit.takes (j : UJob) (id n i : Nat) (u : UUnit) : UUnit :=
  { u with job := some id, first := (j.slice n i).1, count := (j.slice n i).2, committed := [], running := true, rerun := false }

/-- The update units once the units `ns` have taken job `j` with number `id`. -/
def Upd.started (x : Upd) (id : Nat) (j : UJob) (ns : List Nat) : Upd :=
  ns.zipIdx.foldl (fun x n => x.modUnit n.1 (UUnit.takes j id ns.length n.2)) (x.modJob id fun j => { j with units := ns })

theorem Upd.started_units {x : Upd} {id : Nat} {j k : UJob} {ns : List Nat} (hk : k ∈ (x.started id j ns).jobs) (hkid : k.id = id) :
    k.units = ns := by
  rw [Upd.started, Upd.modUnit_foldl_jobs fun n => UUnit.takes j id ns.length n.2] at hk
  obtain ⟨_, rfl⟩ := Upd.of_mem_modJob hk hkid
  rfl

theorem execUpdateJobStart_starts {s : State} {id : Nat} {us : List (Fin 8)} {j : UJob}
    (hjob : (s.upd.jobs.find? fun j => j.id == id) = some j) (hunits : j.units = []) (hcount : us.length = uf j.desc 2 1)
    (hdistinct : us.dedup.length = us.length)
    (hidle : ((us.map fun u => j.stack * 8 + u.val).all fun n => (Tab.get {} s.upd.units n).job.isNone) = true)
    (hturn : s.upd.mustWait j = false) : execUpdateJobStart id us s =
      .next { s with upd := s.upd.started id j (us.map fun u => j.stack * 8 + u.val) } := by
  rw [execUpdateJobStart]
  dsimp only
  rw [hjob]
  dsimp only
  rw [if_neg (by rw [hunits, hidle, hturn]; simp [hcount, hdistinct])]
  rfl

theorem execUpdateJobStart_waits {s : State} {id : Nat} {j : UJob} (us : List (Fin 8))
    (hjob : (s.upd.jobs.find? fun j => j.id == id) = some j) (hturn : s.upd.mustWait j = true) :
    execUpdateJobStart id us s = .next s := by
  simp [execUpdateJobStart, hjob, hturn]

/-! ## UPD_COMMIT and the end of a slice -/

theorem execUpdCommit_stores {s : State} {u : Fin 16} {o : UpdOut} {j : UJob} (hjob : s.upd.jobOf u = some j) (hmode : j.mode = 0)
    (hruns : (Tab.get {} s.upd.units u).running = true) (hlow : (Tab.get {} s.upd.units u).first ≤ o.block)
    (hhigh : o.block < (Tab.get {} s.upd.units u).first + (Tab.get {} s.upd.units u).count)
    (hnew : o.block ∉ (Tab.get {} s.upd.units u).committed) :
    execUpdCommit u o s = .next ((s.storeBlock j o).modUpd fun x =>
      x.modUnit u fun k => { k with committed := k.committed ++ [o.block] }) := by
  simp [execUpdCommit, hjob, hmode, hruns, hlow, hhigh, hnew]

/-- A block that is committed already is not stored again. -/
theorem execUpdCommit_again {s : State} {u : Fin 16} {o : UpdOut} (hmem : o.block ∈ (Tab.get {} s.upd.units u).committed) :
    execUpdCommit u o s = .next s := by
  rw [execUpdCommit]
  cases s.upd.jobOf u with
  | none => rfl
  | some j => simp [hmem]

/-- How a slice's end in each way it can end goes on. -/
def State.sliceEnds (s : State) (u : Fin 16) (j : UJob) : SliceEnd → State
  | .returned => s.updReturn u j.id St.ok
  | .factored retry n lda => (s.updFactor j retry n lda).1.updReturn u j.id (s.updFactor j retry n lda).2
  | .uncorrectable => s.updVermilion u j
  | .fails st => s.updReturn u j.id st

theorem execUpdateSliceEnd_ends {s : State} {u : Fin 16} {j : UJob} (r : SliceEnd)
    (hruns : (Tab.get {} s.upd.units u).running = true) (hjob : s.upd.jobOf u = some j) :
    execUpdateSliceEnd u r s = .next (s.sliceEnds u j r) := by
  rw [execUpdateSliceEnd, if_pos hruns, hjob]
  cases r <;> rfl

/-- Settles O49: by the command, and for a submission by the outcome of its checks. -/
theorem updateJobsRun : Obligations.UpdateJobsRun := by
  refine ⟨?queued, ?refused, ?denied, ?start, ?waits, ?commit, ?again, ?sliceEnd, ?factor⟩
  case queued =>
    intro s g a hruns hreach hstack hcheck
    exact ⟨s.updJob g (s.bytesAt a 64), execUpdSubmit_queued hruns hreach hstack hcheck, rfl, rfl, rfl, rfl⟩
  case refused =>
    intro s g a st hruns hreach hstack hcheck
    exact execUpdSubmit_refused hruns hreach hstack hcheck
  case denied =>
    intro s g a hruns hreach
    exact execUpdSubmit_unreachable hruns hreach
  case start =>
    intro s id us j hjob hunits hcount hdistinct hidle hturn
    refine ⟨_, execUpdateJobStart_starts hjob hunits hcount hdistinct hidle hturn, ?_, fun k hk hkid => Upd.started_units hk hkid⟩
    exact (State.modUpd_runs (W := [.upd]) (by decide) (Runs.refl _ s) fun x => x.started id j (us.map fun u => j.stack * 8 + u.val)).frame
  case waits =>
    intro s id us j hjob hturn
    exact execUpdateJobStart_waits us hjob hturn
  case commit =>
    intro s u o j hjob hmode hruns hlow hhigh hnew
    exact execUpdCommit_stores hjob hmode hruns hlow hhigh hnew
  case again =>
    intro s u o hmem
    exact execUpdCommit_again hmem
  case sliceEnd =>
    intro s u j hruns hjob
    have hends (r : SliceEnd) : exec (.updateSliceEnd u r) s = .next (s.sliceEnds u j r) := execUpdateSliceEnd_ends r hruns hjob
    exact ⟨hends .returned, fun st => hends (.fails st), fun retry n lda => hends (.factored retry n lda), hends .uncorrectable⟩
  case factor =>
    intro s retry a n lda ws rec hsize
    rw [State.runFactor, if_pos hsize]

end Sys2Proof.Machine
end

section
/-! The movers and the tier manager (spec/12 R280 to R286, R303): how a descriptor starts and ends, what the keeper's registers do, the
moves of tiles between the tiers, and O48. -/

namespace Sys2Proof.Machine

/-! ## Starting a descriptor (R281 to R283) -/

/-- The descriptor chosen stands in the list of the descriptors looked at, behind those passed over. -/
theorem State.mvNext_at {s : State} {op k n : Nat} {j : MvJob} (before l : List MvJob) (h : s.mvNext op before l n = some (k, j)) :
    ∃ i, k = n + i ∧ l[i]? = some j := by
  induction l generalizing before n with
  | nil => exact nomatch h
  | cons x l ih =>
    rw [State.mvNext] at h
    split at h
    · cases h
      exact ⟨0, rfl, rfl⟩
    · obtain ⟨i, rfl, hi⟩ := ih (before ++ [x]) h
      exact ⟨i + 1, by omega, hi⟩

/-- What a change of a mover's entry makes of that entry is all that matters of the change. -/
theorem State.modJob_congr {s : State} {g k : Nat} {j : MvJob} {f f' : MvJob → MvJob} (hj : (s.cluster g).movers[k]? = some j)
    (h : f j = f' j) : s.modJob g k f = s.modJob g k f' := by
  have hlist : (s.cluster g).movers.modify k f = (s.cluster g).movers.modify k f' := by
    refine List.ext_getElem? fun i => ?_
    rw [List.getElem?_modify, List.getElem?_modify]
    by_cases hi : k = i
    · subst hi
      rw [hj]
      simpa using h
    · simp [hi]
  exact State.modCl_congr (by rw [hlist])

section
variable {s : State} {g : Fin 128} {op k : Nat} {j : MvJob} (hon : (s.cluster g).mvEnable = true) (hroom : (s.cluster g).mvActive < 4)
  (hnext : s.mvNext op [] (s.cluster g).movers 0 = some (k, j)) (hdoomed : j.doomed = none)
include hon hroom hnext hdoomed

theorem State.mvStart_doomed (giveUp : Bool) (hcheck : s.mvCheck g j ≠ St.ok) :
    s.mvStart g op giveUp = s.modJob g k fun x => { x with started := true, doomed := some (s.mvCheck g j) } := by
  simp [State.mvStart, hon, Nat.not_le_of_lt hroom, hnext, hdoomed, hcheck]

/-- A descriptor that passes its checks and moves no tiles goes at once. -/
theorem State.mvStart_goes (giveUp : Bool) (hcheck : s.mvCheck g j = St.ok) (hreads : ¬(op = 1 ∨ op = 3))
    (hwrites : ¬(op = 2 ∨ op = 4)) : s.mvStart g op giveUp = s.modJob g k fun x => { x with started := true, waitTile := none } := by
  simp [State.mvStart, hon, Nat.not_le_of_lt hroom, hnext, hdoomed, hcheck, hreads, hwrites]

/-- A descriptor that reads tiles goes once those in T2 only have come up. -/
theorem State.mvStart_reads (giveUp : Bool) (hcheck : s.mvCheck g j = St.ok) (hreads : op = 1 ∨ op = 3) :
    s.mvStart g op giveUp = s.modJob g k fun x => { x with
      started := true, waitTile := s.inT2 (mvSrc x.desc) (s.mvTiles x.desc) } := by
  obtain ⟨i, rfl, hi⟩ := s.mvNext_at [] _ hnext
  rw [← State.modJob_congr (f := fun x => { x with started := true, waitTile := s.inT2 (mvSrc j.desc) (s.mvTiles j.desc) })
    ((Nat.zero_add i).symm ▸ hi) rfl]
  simp [State.mvStart, hon, Nat.not_le_of_lt hroom, hnext, hdoomed, hcheck, hreads]

/-- A descriptor that writes tiles goes where its pool has room for them. -/
theorem State.mvStart_fits (hcheck : s.mvCheck g j = St.ok) (hop : op = 2 ∨ op = 4)
    (hfits : s.fits (s.recPool (mvDst j.desc)) ((s.outCoded g j.desc).map fun p => coded16 p.2).sum = true) :
    s.mvStart g op false = s.modJob g k fun x => { x with started := true, waitTile := none } := by
  have hreads : ¬(op = 1 ∨ op = 3) := by omega
  simp [State.mvStart, hon, Nat.not_le_of_lt hroom, hnext, hdoomed, hcheck, hreads, hop, hfits]

end

/-! ## The end of a descriptor (R283) -/

theorem execMoverDescriptorDone_ends {s u : State} {g : Fin 128} {k : Nat} {j : MvJob} {addrs : List Nat} {o : MvOut}
    (hjob : (s.cluster g).movers[k]? = some j) (hstarted : j.started = true) (hready : j.waitTile = none ∨ j.doomed.isSome = true)
    (hrun : s.mvRun g j addrs = some (o, u)) : execMoverDescriptorDone g k addrs s = .next
      ((u.modCl g fun c => { c with movers := c.movers.eraseIdx k }).mvEnd g j o.st o.units o.skipped true) := by
  have hends : (j.started && (j.waitTile.isNone || j.doomed.isSome)) = true := by simpa [hstarted] using hready
  rw [execMoverDescriptorDone, hjob]
  dsimp only
  rw [if_pos hends, hrun]

theorem State.mvRun_doomed {s : State} {g : Nat} {j : MvJob} {st : Nat} (addrs : List Nat) (h : j.doomed = some st) :
    s.mvRun g j addrs = some ({ st := st }, s) := by
  rw [State.mvRun, h]

theorem State.mvWrite_stores {s : State} {g a : Nat} {j : MvJob} {b : Bytes} (hbytes : b ≠ [])
    (hst : s.accessSt (j.requester g) true a b.length = St.ok) : s.mvWrite g j a b = (St.ok, s.store a b) := by
  rw [State.mvWrite, if_neg hbytes, State.writeRange, if_pos hst]

/-- A move whose ranges answer and hold no bad word stores its bytes as they stood. -/
theorem State.moveBytes_moves {s : State} {g : Nat} {j : MvJob}
    (hread : s.accessSt (j.requester g) false (mvSrc j.desc) (mvCount j.desc) = St.ok)
    (hgood : s.firstBad (mvSrc j.desc) (mvCount j.desc) = none) (hcount : mvCount j.desc ≠ 0)
    (hwrite : s.accessSt (j.requester g) true (mvDst j.desc) (mvCount j.desc) = St.ok) : s.moveBytes g j =
      ({ units := mvCount j.desc }, (s.store (mvDst j.desc) (s.bytesAt (mvSrc j.desc) (mvCount j.desc))).used) := by
  have hbytes : s.bytesAt (mvSrc j.desc) (mvCount j.desc) ≠ [] := by
    rw [← List.length_pos_iff, State.length_bytesAt]
    exact Nat.pos_of_ne_zero hcount
  have hstores := State.mvWrite_stores (j := j) (g := g) hbytes (by rwa [State.length_bytesAt])
  simp [State.moveBytes, hread, hgood, hstores]

/-! ## The keeper's registers (R303) -/

theorem execMvPost_queues {s : State} {g : Fin 128} {v : Nat} (hroom : (s.cluster g).mvQueued < 16)
    (hst : s.accessSt .keeper false (64 * bits v 6 42) 64 = St.ok) (hgood : s.firstBad (64 * bits v 6 42) 64 = none) :
    execMvPost g v s = .next (s.used.modCl g fun c => { c with movers := c.movers ++
      [{ desc := s.bytesAt (64 * bits v 6 42) 64, keeper := true, epoch := c.epoch, doomed := none }] }) := by
  rw [execMvPost, if_neg (Nat.not_le_of_lt hroom), State.fetchDesc_good none hst hgood]
  rfl

theorem execMvPost_full {s : State} {g : Fin 128} (v : Nat) (hfull : 16 ≤ (s.cluster g).mvQueued) :
    execMvPost g v s = .next (s.modCl g fun c => c.mvFail St.busy) := by
  rw [execMvPost, if_pos hfull]

/-! ## The tier manager (R280, R282) -/

theorem execTierDemotion_demotes {s u : State} {places : List Nat} {r : Nat} (holdest : s.oldestTensor = some r)
    (hfull : s.tensorFull = true) (hmoved : demoteTiles r (s.demotedTiles r) places s = some u) :
    execTierDemotion places s = .next u := by
  simp [execTierDemotion, holdest, hfull, hmoved]

/-- A dirty tile is written back to a free place of the tier store. -/
theorem demoteTiles_dirty {s : State} {r i p : Nat} (l ps : List Nat) (hdirty : (s.loc r i).copy = false)
    (hfree : s.t2Free (16 * p) (s.loc r i).len = true) :
    demoteTiles r (i :: l) (p :: ps) s = demoteTiles r l ps ((((s.takeT2 (16 * p) (s.loc r i).len).writeT2 (16 * p)
      (s.bytesAt (s.loc r i).at_ (s.loc r i).len)).setLoc r i
        { wh := 2, at_ := 16 * p, copy := false, len := (s.loc r i).len, pos := 0 }).release (s.loc r i).at_) := by
  rw [demoteTiles]
  dsimp only
  rw [if_neg (Bool.eq_false_iff.mp hdirty), if_pos hfree]

/-- Tile `i` of the record at `r` stands in T1 at `a`, with its copy in the tier store. -/
def State.promoteTile (s : State) (r i a : Nat) : State :=
  ((s.take (s.recPool r) a (s.loc r i).len).writeMem a (s.t2Bytes (s.loc r i).at_ (s.loc r i).len)).setLoc r i
    { wh := 1, at_ := a, copy := true, len := (s.loc r i).len, pos := (s.loc r i).at_ }

section
variable {s : State} {g : Fin 128} {k i r : Nat} {j : MvJob} (hjob : (s.cluster g).movers[k]? = some j) (hwaits : j.waitTile = some i)
  (hrec : mvRecord j.desc = some r) (hdoomed : j.doomed = none)
include hjob hwaits hrec hdoomed

theorem execTilePromotion_promotes {a : Nat} (hfree : s.freeRange a (s.loc r i).len = true)
    (hfits : s.fits (s.recPool r) (s.loc r i).len = true) : execTilePromotion g k (some a) s = .next
      ((s.promoteTile r i a).modJob g k fun x => { x with
        waitTile := (s.promoteTile r i a).inT2 r ((s.promoteTile r i a).mvTiles x.desc) }) := by
  simp only [execTilePromotion, hjob, hwaits, hrec, hdoomed, hfree, hfits, Bool.and_self, if_true]
  rfl

theorem execTilePromotion_fails :
    execTilePromotion g k none s = .next (s.modJob g k fun x => { x with doomed := some St.mediaUnrecovered }) := by
  simp only [execTilePromotion, hjob, hwaits, hrec, hdoomed]

end

/-- Settles O48: by the command, and for a start by whether the descriptor passes its checks. -/
theorem moversMoveWhatTheyAreGiven : Obligations.MoversMoveWhatTheyAreGiven := by
  refine ⟨?starts, ?doomed, ?ends, ?linear, ?fails, ?post, ?full, ?flush, ?enable, ?demotes, ?dirty, ?promotes, ?lost⟩
  case starts =>
    intro s g op k j hon hroom hnext hdoomed hcheck
    have hgoes := State.mvStart_goes hon hroom hnext hdoomed false hcheck
    have hreads := State.mvStart_reads hon hroom hnext hdoomed false hcheck
    simp only [exec_linear, execLinear, exec_tileIn, execTileIn, exec_tileOut, execTileOut, exec_tensorIn, execTensorIn, exec_tensorOut,
      execTensorOut, exec_fill, execFill, exec_copy, execCopy, exec_transpose, execTranspose]
    refine ⟨?_, ?_, ?_, ?_, ?tileIn, ?tensorIn, ?out⟩
    case tileIn => rintro rfl; exact congrArg Host.Outcome.next (hreads (.inl rfl))
    case tensorIn => rintro rfl; exact congrArg Host.Outcome.next (hreads (.inr rfl))
    case out =>
      intro hfits
      have hfit (hop : op = 2 ∨ op = 4) := State.mvStart_fits hon hroom hnext hdoomed hcheck hop hfits
      refine ⟨?_, ?_⟩
      all_goals
        rintro rfl
        exact congrArg Host.Outcome.next (hfit (by decide))
    all_goals
      rintro rfl
      exact congrArg Host.Outcome.next (hgoes (by decide) (by decide))
  case doomed =>
    rintro s _ g op k j giveUp hon hroom hnext hdoomed hcheck rfl
    have hdoom (giveUp : Bool) := State.mvStart_doomed hon hroom hnext hdoomed giveUp hcheck
    simp only [exec_linear, execLinear, exec_tileIn, execTileIn, exec_tileOut, execTileOut, exec_tensorIn, execTensorIn, exec_tensorOut,
      execTensorOut, exec_fill, execFill, exec_copy, execCopy, exec_transpose, execTranspose]
    refine ⟨?_, ?_, ?_, ?_, ?_, ?_, ?_, ?_⟩
    all_goals
      rintro rfl
      exact congrArg Host.Outcome.next (hdoom _)
  case ends =>
    intro s u g k j addrs o hjob hstarted hready hrun
    exact execMoverDescriptorDone_ends hjob hstarted (.inl hready) hrun
  case linear =>
    intro s g k j addrs hjob hstarted hready hdoomed hop hread hgood hcount hwrite
    refine execMoverDescriptorDone_ends hjob hstarted (.inl hready) (o := { units := mvCount j.desc }) ?_
    simp only [State.mvRun, hdoomed, hop, State.moveBytes_moves hread hgood hcount hwrite]
  case fails =>
    intro s g k j addrs st hjob hstarted hdoomed
    exact execMoverDescriptorDone_ends (o := { st := st }) hjob hstarted (.inr (by rw [hdoomed]; rfl)) (State.mvRun_doomed addrs hdoomed)
  case post =>
    intro s g v hroom hst hgood
    exact execMvPost_queues hroom hst hgood
  case full =>
    intro s g v hfull
    exact execMvPost_full v hfull
  case flush => exact fun s g => rfl
  case enable => exact fun s g on => rfl
  case demotes =>
    intro s places r u holdest hfull hmoved
    exact execTierDemotion_demotes holdest hfull hmoved
  case dirty =>
    intro s r i l p ps hdirty hfree
    exact demoteTiles_dirty l ps hdirty hfree
  case promotes =>
    intro s g k j i r a hjob hwaits hrec hdoomed hfree hfits
    exact ⟨_, _, execTilePromotion_promotes hjob hwaits hrec hdoomed hfree hfits, rfl, rfl⟩
  case lost =>
    intro s g k j i r hjob hwaits hrec hdoomed
    exact execTilePromotion_fails hjob hwaits hrec hdoomed

end Sys2Proof.Machine
end

section
/-! Agent sessions (spec/12 R297, R299, R301): what SESSION_CTL's actions, a demotion and the end of a resume do, and O26. -/

namespace Sys2Proof.Machine

/-! ## Sessions in the state -/

theorem State.session_modSession (s : State) (i k : Nat) (f : Session → Session) :
    (s.modSession i f).session k = if k = i then f (s.session i) else s.session k := by
  simp only [State.session, State.modSession, State.modTiers_tiers, Tab.get_mod]

theorem State.session_modSession_same (s : State) (i : Nat) (f : Session → Session) :
    (s.modSession i f).session i = f (s.session i) := by
  rw [State.session_modSession, if_pos rfl]

/-- The release of an allocation leaves sessions and their free order alone. -/
theorem State.release_session (s : State) (a i : Nat) : (s.release a).session i = s.session i := by
  unfold State.release
  split <;> rfl

theorem State.release_freed (s : State) (a : Nat) : (s.release a).tiers.freed = s.tiers.freed := by
  unfold State.release
  split <;> rfl

theorem State.releaseKv_session (s : State) (r i : Nat) : (s.releaseKv r).session i = s.session i :=
  foldl_keeps (g := fun s : State => s.session i) (fun s a => s.release_session a i) _ s

theorem State.takeT2_session (s : State) (p n i : Nat) : (s.takeT2 p n).session i = s.session i := rfl

theorem State.releaseKv_freed (s : State) (r : Nat) : (s.releaseKv r).tiers.freed = s.tiers.freed :=
  foldl_keeps (g := fun s : State => s.tiers.freed) State.release_freed _ s

theorem wakeWaiters_tiers (ws : List Nat) (s : State) : (wakeWaiters ws s).tiers = s.tiers :=
  (wakeWaiters_runs (W := [.host]) (by decide) (Runs.refl _ s) ws).frame.tiers.resolve_left (by decide)

theorem State.sessionDone_freed (s : State) (i : Nat) : (s.sessionDone i).tiers.freed = s.tiers.freed := by
  rw [State.sessionDone, wakeWaiters_tiers]
  rfl

/-! ## Stored copies (R301) -/

theorem State.makeCold_session {s u : State} {i pos : Nat} (h : s.makeCold i pos = some u) : u.session i = { s.session i with
    state := .cold, root := pos, image := some (s.kvImage (s.session i).root), op := none } := by
  unfold State.makeCold at h
  dsimp only at h
  split at h
  · rw [← Option.some.inj h, State.session_modSession_same, State.takeT2_session, State.releaseKv_session]
  · exact nomatch h

theorem execParkT2Done_cold {s u : State} {i : Fin 1048576} {pos tag : Nat} (hop : (s.session i).op = some (.parkT2 tag))
    (hcold : s.makeCold i pos = some u) : execParkT2Done i pos s = .next (u.sesEnd tag i .cold) := by
  rw [execParkT2Done, hop]
  dsimp only
  rw [hcold]

theorem execSessionDemotion_demotes {s u : State} {i : Fin 1048576} {pos : Nat} (hfull : s.kvFull = true)
    (hparked : s.demotable i = true) (holdest : ∀ k ∈ s.demotables, (s.session i).lastUse ≤ (s.session k).lastUse)
    (hwrites : s.ftl.readOnly = false) (hfits : s.storeFits (s.session i).root = true) (hcold : s.makeCold i pos = some u) :
    execSessionDemotion i pos s = .next (u.modTiers fun t => { t with demoted := satAdd (2 ^ 32 - 1) t.demoted 1 }) := by
  have hall : s.demotables.all (fun k => decide ((s.session i).lastUse ≤ (s.session k).lastUse)) = true :=
    List.all_eq_true.mpr fun k hk => decide_eq_true (holdest k hk)
  simp only [execSessionDemotion, hfull, hparked, hall, hwrites, hfits, hcold, Bool.and_self, Bool.not_false, if_true]

/-! ## OPEN (R297) -/

/-- The state with session `i` open on the model object that the command names, its record at `root`. -/
def State.openSession (s : State) (i : Nat) (t : Trk) (m : Bytes) (p : KvPlace) : State :=
  (s.writeMem p.root (kvRecord m s.hdCount 1 [p.chunk])).modSession i fun _ =>
    { state := .active, model := t.sqe.object, shape := manShape m, root := p.root, lastUse := s.hdCount }

theorem execSessionOpen_opens {s u : State} {tag i : Nat} {p : KvPlace} {t : Trk} {o : Obj} {ts : Tiers}
    (hadmitted : s.vendorAdmitted tag 0x98 false t) (haction : sqeAction t.sqe = 0) (hmodel : s.object 1 t.sqe.object = some o)
    (hkv : manKv (o.data.take 256) ≠ 0xFF) (hpart : fieldAt (o.data.take 256) 0x36 1 = 0) (hpeers : s.splitSt (o.data.take 256) = none)
    (hfree : s.tiers.nextFree = some (i, ts)) (hfits : s.fits 4 (kvRecordBytes (o.data.take 256) + 65536) = true)
    (hplace : p.root % 64 = 0 ∧ s.freeRange p.root (kvRecordBytes (o.data.take 256)) = true)
    (hchunk : ((s.modTiers fun _ => ts).take 4 p.root (kvRecordBytes (o.data.take 256))).takeChunks 1 [p.chunk] = some u) :
    execSessionOpen tag p s = .next ((u.openSession i t (o.data.take 256) p).vendorEndWith tag St.ok i 0) := by
  obtain ⟨hroot, hrange⟩ := hplace
  have hstarted : s.startedAs tag 0x98 = some t := hadmitted.1
  rw [execSessionOpen, hstarted]
  dsimp only
  rw [if_pos haction, State.vendorRow_admitted (option := fun _ => false) _ hadmitted, hmodel]
  simp only [hkv, hpart, hpeers, hfree, hfits, hroot, hrange, hchunk]
  rfl

/-! ## PARK, RESUME and CLOSE (R297, R298) -/

/-- A SESSION_CTL other than OPEN that its row admits, whose turn on its session has come: the session is in use, and every part of its
model is there. -/
structure State.SessionTurn (s : State) (tag action : Nat) (t : Trk) : Prop where
  admitted : s.vendorAdmitted tag 0x98 false t
  action : sqeAction t.sqe = action
  valid : t.sqe.sessionValid = true
  turn : s.mustWait tag t = false
  used : (s.session t.sqe.session).state ≠ .free
  whole : s.splitOf (s.session t.sqe.session).model = none

theorem State.sessionCtl_turn {s : State} {tag action : Nat} {t : Trk} (f : Trk → Nat → Session → State → State)
    (h : s.SessionTurn tag action t) :
    s.sessionCtl tag action f = f t t.sqe.session (s.session t.sqe.session) (s.holdSession t.sqe.session tag) := by
  obtain ⟨hadmitted, haction, hvalid, hturn, hused, hwhole⟩ := h
  have hstarted : s.startedAs tag 0x98 = some t := hadmitted.1
  rw [State.sessionCtl, hstarted]
  dsimp only
  rw [if_pos (.inl haction), State.vendorRow_admitted (option := fun _ => false) _ hadmitted]
  simp only [hvalid, hturn, hused, hwhole, Bool.not_true, Bool.false_eq_true, if_false]

theorem execSessionPark_t1 {s : State} {tag : Nat} {t : Trk} (h : s.SessionTurn tag 1 t) (htier : sqeParkTier t.sqe = 0)
    (hactive : (s.session t.sqe.session).state = .active) : execSessionPark tag s = .next
      (((s.holdSession t.sqe.session tag).modSession t.sqe.session fun x => { x with state := .parked }).sesEnd tag t.sqe.session
        .parked) := by
  rw [execSessionPark, State.sessionCtl_turn _ h]
  rw [if_pos htier, if_neg (by rw [hactive]; decide)]

theorem execSessionPark_t2 {s : State} {tag : Nat} {t : Trk} (h : s.SessionTurn tag 1 t) (htier : sqeParkTier t.sqe ≠ 0)
    (hactive : (s.session t.sqe.session).state = .active) (hwrites : s.ftl.readOnly = false)
    (hfits : (s.holdSession t.sqe.session tag).storeFits (s.session t.sqe.session).root = true) : execSessionPark tag s = .next
      (((s.holdSession t.sqe.session tag).modSession t.sqe.session fun x => { x with op := some (.parkT2 tag) }).admitTag tag) := by
  have hwrites' : ¬(s.holdSession t.sqe.session tag).ftl.readOnly = true := Bool.eq_false_iff.mp hwrites
  rw [execSessionPark, State.sessionCtl_turn _ h]
  rw [if_neg htier, if_neg hwrites', if_neg (by rw [hactive]; decide), if_pos hfits]

theorem execSessionResume_parked {s : State} {tag : Nat} {t : Trk} (h : s.SessionTurn tag 2 t)
    (hparked : (s.session t.sqe.session).state = .parked) : execSessionResume tag s = .next
      (((s.holdSession t.sqe.session tag).modSession t.sqe.session fun x => { x with state := .active }).sesEnd tag t.sqe.session
        .active) := by
  rw [execSessionResume, State.sessionCtl_turn _ h]
  rw [if_neg (by rw [hparked]; decide)]

/-- Session `i` is FREE and stands at the end of the free order. -/
def State.freeSession (s : State) (i : Nat) : State :=
  ((s.sessionDone i).modSession i fun _ => {}).modTiers fun t => { t with freed := t.freed ++ [i] }

theorem State.freeSession_session (s : State) (i : Nat) : (s.freeSession i).session i = {} :=
  (s.sessionDone i).session_modSession_same i fun _ => {}

theorem State.freeSession_freed (s : State) (i : Nat) : (s.freeSession i).tiers.freed = s.tiers.freed ++ [i] :=
  congrArg (· ++ [i]) (s.sessionDone_freed i)

theorem execSessionClose_t1 {s : State} {tag : Nat} {t : Trk} (h : s.SessionTurn tag 3 t)
    (himage : (s.session t.sqe.session).image = none) : execSessionClose tag s = .next
      ((((s.holdSession t.sqe.session tag).releaseKv (s.session t.sqe.session).root).freeSession t.sqe.session).vendorEndWith tag St.ok
        SesState.free.code 0) := by
  rw [execSessionClose, State.sessionCtl_turn _ h]
  rw [himage]
  rfl

/-! ## The end of a resume from COLD (R297, R299, R301) -/

/-- The restored state with session `i` ACTIVE, its record at `root` and its stored copy released. -/
def State.wakeCold (s : State) (i root pos : Nat) : State :=
  (s.releaseT2 (16 * pos)).modSession i fun x => { x with state := .active, root := root, image := none, op := none }

theorem execResumeColdDone_restored {s u : State} {i : Fin 1048576} {root tag n : Nat} {chunks tiles : List Nat} {img : ColdImage} {t : Trk}
    (hop : (s.session i).op = some (.resume tag)) (himage : (s.session i).image = some img) (hn : n = s.rootBytes (s.session i) img)
    (hfits : s.fits 4 (n + img.room) = true) (hplace : root % 64 = 0 ∧ s.freeRange root n = true)
    (hrestored : (restoreChunks root 0 img.chunks chunks ((s.take 4 root n).writeMem root img.header)).bind
      (restoreTiles root img.tiles tiles) = some u) (htrk : u.trk tag = some t) :
    execResumeColdDone i root chunks tiles s = .next (
      if t.sqe.opc = 0x98 then (u.wakeCold i root (s.session i).root).sesEnd tag i .active
      else (u.wakeCold i root (s.session i).root).modTrk tag fun t => { t with admitted := false }) := by
  subst hn
  obtain ⟨hroot, hrange⟩ := hplace
  have htrk' : (u.wakeCold i root (s.session i).root).trk tag = some t := htrk
  rw [State.wakeCold] at htrk' ⊢
  simp only [execResumeColdDone, hop, himage, hfits, hroot, hrange, hrestored, htrk']
  rfl

/-- Settles O26: by the command, and for PARK by the tier it names. -/
theorem sessionsOpenParkResumeClose : Obligations.SessionsOpenParkResumeClose := by
  refine ⟨?opens, ?parkT1, ?parkT2, ?resume, ?closes, ?parkDone, ?cold, ?demotion, ?resumed⟩
  case opens =>
    intro s tag t root chunk o i ts u hadmitted haction hmodel hkv hpart hpeers hfree hfits hplace hchunk
    rw [exec_sessionOpen]
    exact execSessionOpen_opens (p := ⟨root, chunk⟩) hadmitted haction hmodel hkv hpart hpeers hfree hfits hplace hchunk
  case parkT1 =>
    intro s tag t hadmitted haction htier hvalid hturn hactive hwhole
    rw [exec_sessionPark]
    exact execSessionPark_t1 ⟨hadmitted, haction, hvalid, hturn, by rw [hactive]; decide, hwhole⟩ htier hactive
  case parkT2 =>
    intro s tag t hadmitted haction htier hvalid hturn hactive hwhole hwrites hfits
    rw [exec_sessionPark]
    exact execSessionPark_t2 ⟨hadmitted, haction, hvalid, hturn, by rw [hactive]; decide, hwhole⟩ htier hactive hwrites hfits
  case resume =>
    intro s tag t hadmitted haction hvalid hturn hparked hwhole
    rw [exec_sessionResume]
    exact execSessionResume_parked ⟨hadmitted, haction, hvalid, hturn, by rw [hparked]; decide, hwhole⟩ hparked
  case closes =>
    intro s tag t hadmitted haction hvalid hturn hparked hwhole himage
    rw [exec_sessionClose]
    refine ⟨_, execSessionClose_t1 ⟨hadmitted, haction, hvalid, hturn, by rw [hparked]; decide, hwhole⟩ himage,
      State.freeSession_session _ _, ?_⟩
    rw [State.freeSession_freed, State.releaseKv_freed]
    rfl
  case parkDone =>
    intro s i pos tag u hop hcold
    rw [exec_parkT2Done]
    exact execParkT2Done_cold hop hcold
  case cold =>
    intro s i pos u hcold
    exact State.makeCold_session hcold
  case demotion =>
    intro s i pos u hfull hparked holdest hwrites hfits hcold
    rw [exec_sessionDemotion]
    exact execSessionDemotion_demotes hfull hparked holdest hwrites hfits hcold
  case resumed =>
    intro s i root chunks tiles tag img t n u hop himage hn hfits hplace hrestored htrk
    rw [exec_resumeColdDone]
    exact ⟨u.wakeCold i root (s.session i).root, rfl, execResumeColdDone_restored hop himage hn hfits hplace hrestored htrk⟩

end Sys2Proof.Machine
end

section
/-! Admission of GENERATE, EMBED and RUN, and the tokenizer (spec/13 R310 to R313, R323, spec/15 R351 to R353), and O27. -/

namespace Sys2Proof.Machine

/-! ## The monitor and the queueing of a task -/

/-- The generation `g'` is `g`, but perhaps gone over to its shade (R321). -/
def Gen.MaySwitch (g g' : Gen) : Prop := g' = g ∨ ∃ o draft, g' = g.switch o draft

theorem State.flagResult_tokens (s : State) (tag k : Nat) : (s.flagResult tag k).tokens = s.tokens :=
  (State.flagResult_runs (W := [.host]) (by decide) (Runs.refl _ s) tag k).frame.tokens.resolve_left (by decide)

/-- The generation of a command is put among those that run. -/
def State.setGen (s : State) (tag : Nat) (g : Gen) : State := s.modTokens fun x => { x with gens := Tab.put x.gens tag g }

theorem State.setGen_find (s : State) (tag : Nat) (g : Gen) : Tab.find (s.setGen tag g).tokens.gens tag = some g := by
  rw [State.setGen, State.modTokens_tokens, Tab.find_put, if_pos rfl]

/-- A check of the monitor leaves a command's generation as it is, or switches it to its shade. -/
theorem State.monitor_gen {s : State} {tag : Nat} {g : Gen} (admission admitted : Bool) (h : Tab.find s.tokens.gens tag = some g) :
    ∃ g', Tab.find (s.monitor tag admission admitted).tokens.gens tag = some g' ∧ g.MaySwitch g' := by
  unfold State.monitor
  rw [h]
  dsimp only
  by_cases hmiss : s.predictsMiss tag g admitted = true
  · rw [if_pos hmiss]
    cases s.shadeOf g admission with
    | none => exact ⟨g, h, .inl rfl⟩
    | some o =>
      have hput := s.setGen_find tag (g.switch o (s.draftOk (o.data.take 256)))
      refine ⟨_, ?_, .inr ⟨o, s.draftOk (o.data.take 256), rfl⟩⟩
      dsimp only
      split
      · rw [State.flagResult_tokens]
        exact hput
      · exact hput
  · rw [if_neg hmiss]
    exact ⟨g, h, .inl rfl⟩

theorem State.stage_tokens (s : State) (tag : Nat) (k : Task) (o : Obj) (d : Bytes) (flags : Nat) :
    (s.stage tag k o d flags).tokens = s.tokens :=
  (State.stage_runs (W := [.memory, .hostMem, .host]) (by decide) (by decide) (by decide) (Runs.refl _ s) tag k o d
    flags).frame.tokens.resolve_left (by decide)

/-- A command without a session waits for none. -/
theorem State.withSession_none {s : State} {tag : Nat} {t : Trk} (f : State → State) (h : t.sqe.sessionValid = false) :
    s.withSession tag t f = f s := by
  simp [State.withSession, State.sessionVerdict, h]

theorem State.takeSession_none {s : State} {tag : Nat} {t : Trk} (h : t.sqe.sessionValid = false) : s.takeSession tag t = s := by
  simp [State.takeSession, h]

/-! ## GENERATE (R312, R313) -/

/-- The prompt of an input buffer that gives its token IDs (R311). -/
def givenPrompt (d : Bytes) : List Nat := (List.range (fieldAt d 0x18 4)).map fun i => fieldAt d (64 + 4 * i) 4

theorem length_givenPrompt (d : Bytes) : (givenPrompt d).length = fieldAt d 0x18 4 := by
  rw [givenPrompt, List.length_map, List.length_range]

theorem givenPrompt_inVocab {d : Bytes} {v : Nat} (h : ∀ k < fieldAt d 0x18 4, fieldAt d (64 + 4 * k) 4 < v) :
    ((givenPrompt d).any fun i => decide (v ≤ i)) = false := by
  rw [List.any_eq_false]
  intro i hi
  obtain ⟨k, hk, rfl⟩ := List.mem_map.mp hi
  simpa using h k (List.mem_range.mp hk)

theorem promptTokens_given {tok d : Bytes} (h : bit (fieldAt d 0x0C 1) 0 = true) : promptTokens tok d = (givenPrompt d, 0) := by
  rw [promptTokens, if_pos h]
  rfl

theorem State.takeDraft_plain {s : State} {g : Gen} (a : Nat) (h : g.speculate = false) :
    s.takeDraft g a = .ok s { g with draft := none } := by
  simp [State.takeDraft, h]

/-- The generation of a GENERATE with tokens, without a session and without SPECULATE, as it stands before the monitor's check. -/
def freshGen (t : Trk) (m tok d : Bytes) : Gen :=
  { model := t.sqe.object, man := m, tok := tok, sampling := d.take 64, outTokens := bit t.sqe.cmdDw 16
    maxNew := t.sqe.cmdDw % 65536 + 1, prompt := fieldAt d 0x18 4, held := fieldAt d 0x18 4, seed := fieldAt d 0x10 8 }

/-- What is held of such a command once it is admitted. -/
structure Gen.Admitted (g : Gen) (t : Trk) (m d : Bytes) : Prop where
  embed : g.embed = false
  session : g.session = none
  prompt : g.prompt = fieldAt d 0x18 4
  maxNew : g.maxNew = t.sqe.cmdDw % 65536 + 1
  seed : g.seed = fieldAt d 0x10 8
  counter : g.counter = 0
  man : g.shade = false → g.man = m

theorem State.bindShade_admitted (s : State) (t : Trk) (m tok d : Bytes) {g : Gen}
    (h : (s.bindShade (freshGen t m tok d)).MaySwitch g) : g.speculate = false ∧ ({ g with draft := none } : Gen).Admitted t m d := by
  obtain rfl | ⟨o, draft, rfl⟩ := h
  · exact ⟨rfl, rfl, rfl, rfl, rfl, rfl, rfl, fun _ => rfl⟩
  · exact ⟨rfl, rfl, rfl, rfl, rfl, rfl, rfl, nofun⟩

theorem State.generateReady_queues {s : State} {t : Trk} {o : Obj} {d : Bytes} (tag : Nat) (a : Alloc) (hvalid : t.sqe.sessionValid = false)
    (hplain : bit (fieldAt d 0x0C 1) 1 = false) (hgiven : bit (fieldAt d 0x0C 1) 0 = true) (hcount : fieldAt d 0x18 4 ≠ 0)
    (hids : ∀ k < fieldAt d 0x18 4, fieldAt d (64 + 4 * k) 4 < fieldAt (o.data.take 256) 0x1C 4)
    (hcontext : fieldAt d 0x18 4 + 1 ≤ manContext (o.data.take 256)) :
    ∃ (u : State) (k : Task) (g : Gen), s.generateReady tag t o d a = u.addTask (fieldAt g.man 0x34 1) k ∧ k.kind = 1 ∧ k.tag = tag
      ∧ Tab.find u.tokens.gens tag = some g ∧ g.Admitted t (o.data.take 256) d := by
  have hne : givenPrompt d ≠ [] := by
    rw [← List.length_pos_iff, length_givenPrompt]
    exact Nat.pos_of_ne_zero hcount
  unfold State.generateReady
  simp only [hvalid, promptTokens_given hgiven, givenPrompt_inVocab hids, length_givenPrompt, hgiven, hplain, State.takeSession_none hvalid,
    Bool.false_eq_true, false_and, if_false, if_true, hne, Nat.zero_add, Nat.not_lt_of_le hcontext, or_self, Bool.not_false, Bool.or_true]
  generalize (s.countSplits 0).modTokens (fun x => x) = v
  generalize ((s.object 4 (fieldAt (o.data.take 256) 0x0A 2)).getD {}).data = tok
  obtain ⟨g, hfind, hmay⟩ := State.monitor_gen true false (v.setGen_find tag (v.bindShade (freshGen t (o.data.take 256) tok d)))
  obtain ⟨hspeculate, hadmitted⟩ := v.bindShade_admitted t (o.data.take 256) tok d hmay
  unfold State.setGen freshGen at hfind
  rw [hfind, Option.getD_some, State.takeDraft_plain a.draft hspeculate]
  refine ⟨_, _, { g with draft := none }, rfl, rfl, rfl, ?_, hadmitted⟩
  rw [State.stage_tokens]
  exact State.setGen_find _ tag { g with draft := none }

theorem execGenerate_ready {s : State} {tag : Nat} {t : Trk} {o : Obj} {d : Bytes} (a : Alloc)
    (hadmitted : s.vendorAdmitted tag 0x97 false t) (hvalid : t.sqe.sessionValid = false) (hplain : bit (fieldAt d 0x0C 1) 1 = false)
    (hmodel : s.object 1 t.sqe.object = some o) (hsampling : samplingSt d (s.draftOk (o.data.take 256)) = none)
    (hcheck : s.modelCheck o [0] = none) : execGenerate tag d a s = .next (s.generateReady tag t o d a) := by
  have hoptions : s.vendorAdmitted tag 0x97 ((t.sqe.sessionValid && !s.cap 6) || (bit (fieldAt d 0x0C 1) 1 && !s.cap 4)) t := by
    rwa [hvalid, hplain]
  rw [execGenerate, State.vendorRow_admitted
    (option := fun t => (t.sqe.sessionValid && !s.cap 6) || (bit (fieldAt d 0x0C 1) 1 && !s.cap 4)) _ hoptions]
  dsimp only
  rw [hmodel]
  dsimp only
  rw [hsampling]
  dsimp only
  rw [hcheck, State.withSession_none _ hvalid]

/-! ## EMBED (R322, R323) -/

/-- The one item of an EMBED input that holds one list of `n` token IDs. -/
def onlyItem (d : Bytes) (n : Nat) : Bytes := (d.drop 16).take (4 * n)

theorem length_onlyItem {d : Bytes} {n : Nat} (h : d.length = 16 + (4 * n + 7) / 8 * 8) : (onlyItem d n).length = 4 * n := by
  rw [onlyItem, List.length_take, List.length_drop]
  omega

theorem embedItems_one {d : Bytes} {n : Nat} (hlen : d.length = 16 + (4 * n + 7) / 8 * 8) (hcount : fieldAt d 8 4 = n)
    (hreserved : fieldAt d 12 4 = 0) : embedItems true d 1 8 [] false = some ([onlyItem d n], false, d.length) := by
  simp [embedItems, embedItems.up8', hcount, hreserved, hlen, onlyItem, Nat.mul_comm n 4]

/-- The token IDs of an item. -/
def itemTokens (b : Bytes) : List Nat := (List.range (b.length / 4)).map fun i => fieldAt b (4 * i) 4

theorem itemTokens_eq (b : Bytes) : ((List.range (b.length / 4)).map fun i => fieldAt b (4 * i) 4) = itemTokens b := rfl

theorem length_itemTokens_onlyItem {d : Bytes} {n : Nat} (h : d.length = 16 + (4 * n + 7) / 8 * 8) :
    (itemTokens (onlyItem d n)).length = n := by
  rw [itemTokens, List.length_map, List.length_range, length_onlyItem h]
  omega

theorem itemTokens_inVocab {b : Bytes} {n v : Nat} (hlen : b.length = 4 * n) (h : ∀ i < n, fieldAt b (4 * i) 4 < v) :
    ((itemTokens b).any fun i => decide (v ≤ i)) = false := by
  rw [List.any_eq_false]
  intro x hx
  obtain ⟨i, hi, rfl⟩ := List.mem_map.mp hx
  have hin : i < n := by
    rw [hlen] at hi
    have := List.mem_range.mp hi
    omega
  simpa using h i hin

/-- An item that is not too long runs whole. -/
theorem embedCounts_one {n most : Nat} (h : n ≤ most) : embedCounts false most [n] = ([n], false, false) := by
  simp [embedCounts, h]

/-- The input of an EMBED of one list of `n` token IDs of a vocabulary of `v`. -/
structure OneList (d : Bytes) (n v : Nat) : Prop where
  length : d.length = 16 + (4 * n + 7) / 8 * 8
  one : fieldAt d 0 4 = 1
  reserved : fieldAt d 4 4 = 0
  count : fieldAt d 8 4 = n
  itemReserved : fieldAt d 12 4 = 0
  inVocab : ∀ i < n, fieldAt (onlyItem d n) (4 * i) 4 < v

/-- The generation of an EMBED of one list of `n` tokens, as it stands before the monitor's check. -/
def State.embedGen (s : State) (o : Obj) (tok : Bytes) (n : Nat) : Gen :=
  { model := o.id, man := o.data.take 256, tok := tok, embed := true, items := [n], inTokens := [n].sum
    shadeObj := (s.bindShade { man := o.data.take 256 }).shadeObj, shadeProg := (s.bindShade { man := o.data.take 256 }).shadeProg
    scale := (o.data.drop (fieldAt (o.data.take 256) 0x70 8)).take 16 }

theorem State.embedGen_kept (s : State) (o : Obj) (tok : Bytes) (n : Nat) {g : Gen} (h : (s.embedGen o tok n).MaySwitch g) :
    g.embed = true ∧ g.items = [n] := by
  obtain rfl | ⟨p, draft, rfl⟩ := h <;> exact ⟨rfl, rfl⟩

theorem execEmbed_queues {s : State} {tag n : Nat} {t : Trk} {d : Bytes} {o : Obj} (a : Alloc)
    (hadmitted : s.vendorAdmitted tag 0x93 false t) (hnsid : t.sqe.nsid = 0) (hmodel : s.object 1 t.sqe.object = some o)
    (hcheck : s.modelCheck o [1] = none) (htokens : bit t.sqe.cmdDw 0 = true) (hrerank : bit t.sqe.cmdDw 1 = false)
    (hinput : OneList d n (fieldAt (o.data.take 256) 0x1C 4)) (hshort : n ≤ fieldAt (o.data.take 256) 0x24 4)
    (hroom : 64 + outBytes (o.data.take 256) false ≤ t.sqe.resLen) :
    ∃ (u : State) (k : Task) (g : Gen), execEmbed tag d a s = .next (u.addTask (fieldAt g.man 0x34 1) k) ∧ k.kind = 2 ∧ k.tag = tag
      ∧ Tab.find u.tokens.gens tag = some g ∧ g.embed = true ∧ g.items = [n] := by
  obtain ⟨hlen, hone, hreserved, hcount, hitem, hvocab⟩ := hinput
  rw [execEmbed, State.vendorRow_admitted (option := fun _ => false) _ hadmitted]
  have hlong : ¬d.length < 8 := by omega
  have hmin : min 1 4097 = 1 := rfl
  have hids := itemTokens_inVocab (length_onlyItem hlen) hvocab
  have hfits : ¬t.sqe.resLen < 64 + outBytes (o.data.take 256) false := Nat.not_lt_of_le hroom
  simp only [htokens, hrerank, hone, hreserved, hnsid, hmodel, hcheck, hlong, hmin, ne_eq, not_true_eq_false, decide_false,
    embedItems_one hlen hcount hitem, Bool.false_eq_true, if_false, if_true, Nat.lt_irrefl, List.map_cons, List.map_nil, itemTokens_eq,
    length_itemTokens_onlyItem hlen, embedCounts_one hshort, List.any_cons, List.any_nil, hids, List.length_cons, List.length_nil, hfits,
    Nat.zero_add, Nat.one_mul, Bool.or_false, Bool.and_false, Nat.reduceLT, or_self]
  generalize s.countSplits [0].sum = v
  generalize ((s.object 4 (fieldAt (o.data.take 256) 0x0A 2)).getD {}).data = tok
  obtain ⟨g, hfind, hmay⟩ := State.monitor_gen true false (v.used.setGen_find tag (v.embedGen o tok n))
  obtain ⟨hembed, hitems⟩ := v.embedGen_kept o tok n hmay
  unfold State.setGen State.embedGen at hfind
  rw [hfind, Option.getD_some]
  refine ⟨_, _, g, rfl, rfl, rfl, ?_, hembed, hitems⟩
  rw [State.stage_tokens]
  exact hfind

/-! ## RUN and the tokenizer (R310, R352, R353) -/

theorem execRun_queues {s : State} {tag : Nat} {t : Trk} (d : Bytes) (a : Alloc) (hadmitted : s.vendorAdmitted tag 0x9B false t)
    (hvalid : t.sqe.sessionValid = false) (hcheck : s.programCheck (t.sqe.cmdDw % 256) t.sqe.object = none) :
    execRun tag d a s = .next (s.used.launch tag (t.sqe.cmdDw % 256)
      (makeTask 0 tag t ((s.object 0 t.sqe.object).getD {}) a (u64 s.freeNum)) ((s.object 0 t.sqe.object).getD {}) d) := by
  have hoption : s.vendorAdmitted tag 0x9B (t.sqe.sessionValid && !s.cap 6) t := by rwa [hvalid]
  rw [execRun, State.vendorRow_admitted (option := fun t => t.sqe.sessionValid && !s.cap 6) _ hoption]
  simp only [hcheck, State.withSession_none _ hvalid, State.takeSession_none hvalid, hvalid, Bool.false_eq_true, if_false]

/-- Settles O27: by the command. -/
theorem generationCommandsQueueTheirTask : Obligations.GenerationCommandsQueueTheirTask := by
  refine ⟨?generate, ?embed, ?run, ?tokenizer⟩
  case generate =>
    intro s tag t d a o hadmitted hvalid hplain hmodel hsampling hcheck hgiven hcount hids hcontext
    obtain ⟨u, k, g, hready, hkind, htag, hfind, hg⟩ :=
      State.generateReady_queues tag a hvalid hplain hgiven hcount hids hcontext (s := s)
    refine ⟨u, k, g, ?_, hkind, htag, hfind, hg.embed, hg.session, hg.prompt, hg.maxNew, hg.seed, hg.counter, hg.man⟩
    rw [exec_generate, execGenerate_ready a hadmitted hvalid hplain hmodel hsampling hcheck, hready]
  case embed =>
    intro s tag t d a o n hadmitted hnsid hmodel hcheck htokens hrerank hlen hone hreserved hcount hitem hshort hvocab hroom
    rw [exec_embed]
    exact execEmbed_queues a hadmitted hnsid hmodel hcheck htokens hrerank ⟨hlen, hone, hreserved, hcount, hitem, hvocab⟩ hshort hroom
  case run =>
    intro s tag t d a hadmitted hvalid hcheck
    rw [exec_run]
    exact execRun_queues d a hadmitted hvalid hcheck
  case tokenizer =>
    intro s
    refine ⟨_, rfl, (State.modTokens_runs (W := [.tokens]) (by decide) (Runs.refl _ s) _).frame, rfl, fun tag e n l hqueue => ?_⟩
    rw [State.modTokens_tokens]
    dsimp only
    rw [hqueue]

end Sys2Proof.Machine
end
